-- ==== Sys2Proof/Word.lean ====
section
/-!
DEFINITION. The word types of the block: bytes, registers (R7) and addresses as bit vectors, and the
sparse tables every array of the device is held in.
-/

namespace Sys2Proof

/-- A byte of memory or of a packet. -/
abbrev Byte := BitVec 8

/-- A 32-bit register value (R7). -/
abbrev Word32 := BitVec 32

/-- A table from indices to values, held as a list of pairs; an index not listed holds the table's
default, which its accessor names. -/
abbrev Tab (α : Type) := List (Nat × α)

/-- A binary32 value (R77) as mantissa times a power of two: |man| below 2^24, and the least exponent is -149. -/
structure F32 where
  man : Int
  ex : Int
  deriving DecidableEq, Repr, Inhabited

/-- A vector of three binary32 values. -/
structure V3 where
  x : F32
  y : F32
  z : F32
  deriving DecidableEq, Repr, Inhabited

end Sys2Proof
end

