-- ==== Sys2Proof/Syntax.lean ====
section
/-!
DEFINITION. The commands of the block: one constructor of `Instr` per row of the command table, and the operand
types they share. A host command's row carries the packet's header fields and parameter bytes as they arrive; the row
itself stands for the opcode (and, where a row is one op of an opcode, for the op byte). An event's row carries what
the outside world decides: levels, bytes, times in nanoseconds since power-up.
-/

namespace Sys2Proof

/-- Where a command datagram came from and where it was sent (R574): source address and port, destination address
and port, as integers. -/
structure NetSrc where
  srcIp : Nat
  srcPort : Nat
  dstIp : Nat
  dstPort : Nat
  deriving DecidableEq, Repr

/-- One command packet (R578) less its opcode, which its row names. -/
structure Packet where
  /-- Arrival port code (R570): 0 HSP, 1 network, 2 TWI. -/
  port : Nat
  src : NetSrc
  seq : Nat
  /-- The parameter-length field as received; the framing check of R578 holds it against `params`. -/
  plen : Nat
  /-- The flags byte as received: bit 0 AUTH, bits 2:1 role, bits 7:3 reserved. -/
  flags : Nat
  target : Nat
  nonce : Nat
  params : List Byte
  /-- The bytes after the parameters: 16 where AUTH is 1, none otherwise. -/
  tag : List Byte
  /-- Arrival time in nanoseconds since power-up. -/
  time : Nat
  deriving DecidableEq, Repr

/-- An Announce message's data set (R401, R402): source port identity, grandmaster identity, priorities, clockClass,
clockAccuracy, variance, steps removed. -/
structure Ann where
  src : Nat
  gm : Nat
  prio1 : Nat
  cls : Nat
  acc : Nat
  var : Nat
  prio2 : Nat
  steps : Nat
  deriving DecidableEq, Repr

/-- What every PTP message carries (R403): domain, malformed or not, source port identity, sequenceId. -/
structure PtpHead where
  dom : Nat
  bad : Bool
  src : Nat
  seq : Nat
  deriving DecidableEq, Repr

/-- A Tether frame as it arrives (R422): flags, sequence, acknowledgement, the sender's pair state and mode, the long operation that runs
there (opcode, progress, port: R442; which field carries it is not given), and the payload before padding. Its type is the
row's. -/
structure TethIn where
  flags : Nat
  seq : Nat
  ack : Nat
  pstate : Nat
  mode : Nat
  busy : Option (Nat × Nat × Nat)
  body : List Byte
  deriving DecidableEq, Repr

/-- A page of a state region (R434). -/
structure SnapPage where
  region : Nat
  off : Nat
  bytes : List Byte
  deriving DecidableEq, Repr

/-- An image kept for the scene journal (R612): its payload hash, and the ULI container whole (R609). -/
structure Image where
  hash : List Byte
  bytes : List Byte
  deriving DecidableEq, Repr

/-- One scene-journal record (R612): opcode, commit slot, parameters, payload hash where it names an image, and whether
its CRC is intact. -/
structure JRec where
  opcode : Nat
  slot : Nat
  params : List Byte
  hash : List Byte
  crcOk : Bool
  deriving DecidableEq, Repr


/-- What a gathering meets in the quire store: lane cycles lost to bank conflicts (R162), and the errors its reads of the partial sums
meet, each the key of a sum and its kind, 0 for one bit, 1 for an error that a second read clears, else one that stays (R148). -/
structure QuireReads where
  stalls : Nat
  ecc : List (Nat × Nat)
  deriving DecidableEq, Repr

/-- What the root's reduction meets, with the local time it ends at: errors as those of `QuireReads` (R148, R177). -/
structure RootReads where
  ecc : List (Nat × Nat)
  time : Nat
  deriving DecidableEq, Repr

/-- A read of the RC register at `addr`, and the bits that hardware sets in the same cycle (R9). -/
structure RcAccess where
  addr : Nat
  hw : Nat
  deriving DecidableEq, Repr

/-- What a block of D1 brings: D1's measured rate against D0's, in Q2.30 (R283), and, where D2 follows D1, what each microphone data pin
carried (R256). -/
structure D1Block where
  ratio : Nat
  pdm : List (Nat × Nat × Nat)
  deriving DecidableEq, Repr

/-- What a master does at its port of the Spine (R513 to R521), and what it meets there. -/
structure SpineReq where
  master : Nat
  /-- Transaction ID, 4 bits. -/
  tid : Nat
  write : Bool
  addr : Nat
  /-- Bytes from `addr` on. -/
  size : Nat
  /-- Bytes written and their strobes; of a transaction that goes on, those not yet done. -/
  data : List Byte
  strobes : List Bool
  /-- It goes on with this master's oldest outstanding transaction of this ID. -/
  cont : Bool
  /-- Bytes transferred by now: fewer than `size` leave it outstanding. -/
  moved : Nat
  /-- Cycles held at the port (R520), and cycles waited at the target (R515). -/
  held : Nat
  waited : Nat
  /-- The other masters that wait at the target, with the cycles each has waited. -/
  rivals : List (Nat × Nat)
  /-- DRAM rows it activates: channel, bank, row (R560). -/
  opens : List (Nat × Nat × Nat)
  /-- Errors that its reads find: address, and 0 corrected, 1 transient, 2 lasting (R531, R532, R553, R554). -/
  ecc : List (Nat × Nat)
  deriving DecidableEq, Repr

inductive Instr where
  /-- `ECHO` (R593). Returns its parameters unchanged. -/
  | echo (p : Packet)
  /-- `SYS_INFO` (R593). Returns capabilities, firmware version, compatibility level, mode, straps and the port code of the packet. -/
  | sysInfo (p : Packet)
  /-- `MODE_SET` (R599). Requests a mode transition; transitions not in the table are refused with NOT_IN_MODE. -/
  | modeSet (p : Packet)
  /-- `SYS_RESET_WARM` (R604). SYS_RESET kind 0 replies, then makes a warm reset after 1 ms. -/
  | sysResetWarm (p : Packet)
  /-- `SYS_RESET_CTRL` (R604). SYS_RESET kind 1 replies, then resets the CTRL domain after 1 ms while rendering continues. -/
  | sysResetCtrl (p : Packet)
  /-- `SAFE_MASK_SET` (R623). Sets the AMP_EN safe mask used in SAFE and HALT. -/
  | safeMaskSet (p : Packet)
  /-- `UNIT_RESET` (R606). Resets one engine or core, drops its tickets and drains its Spine transactions. -/
  | unitReset (p : Packet)
  /-- `RENDER_FORMAT_SET` (R33). Changes render rate and folio size after mode, parameter, budget, TDM clock and link-offset checks. -/
  | renderFormatSet (p : Packet)
  /-- `BUDGET_QUERY` (R34). Returns the count in use and the limit of each of the nine budgets. -/
  | budgetQuery (p : Packet)
  /-- `EVENT_READ_OLDEST` (R593). EVENT_READ op 0 returns the oldest unread event-log entries and marks them read. -/
  | eventReadOldest (p : Packet)
  /-- `EVENT_READ_NEWEST` (R593). EVENT_READ op 1 returns the newest event-log entries without marking them. -/
  | eventReadNewest (p : Packet)
  /-- `CMD_CFG_SET` (R593). Sets the command port enables, UDP port, unauthenticated role and interrupt severity. -/
  | cmdCfgSet (p : Packet)
  /-- `AUTH_KEY_SET` (R583). AUTH_KEY_SET op 0 stores the 32-byte key of a role in MRAM. -/
  | authKeySet (p : Packet)
  /-- `AUTH_KEY_CLEAR` (R583). AUTH_KEY_SET op 1 clears the key of a role. -/
  | authKeyClear (p : Packet)
  /-- `NONCE_QUERY` (R584). Returns the stored nonce of the packet's role without changing it. -/
  | nonceQuery (p : Packet)
  /-- `BULK_WRITE` (R591). Writes data bytes to usable DRAM that the device has not reserved. -/
  | bulkWrite (p : Packet)
  /-- `BULK_READ` (R591). Returns bytes from usable DRAM, or HW_FAULT with the first poisoned address. -/
  | bulkRead (p : Packet)
  /-- `BULK_CRC` (R591). Returns the CRC-32 of a DRAM range, as a long operation above 16 MiB. -/
  | bulkCrc (p : Packet)
  /-- `GPIO_CFG_SET` (R621). Sets direction, open drain, edge selection and filter time of the general-purpose pins. -/
  | gpioCfgSet (p : Packet)
  /-- `GPIO_WRITE` (R621). Sets the masked bits of GPIO_OUT to the given value in one cycle. -/
  | gpioWrite (p : Packet)
  /-- `GPIO_QUERY` (R621). Returns the GPIO registers latched in one cycle. -/
  | gpioQuery (p : Packet)
  /-- `PWR_DOM_ON` (R635). PWR_DOM_SET op 0 wakes the named domain to ON. -/
  | pwrDomOn (p : Packet)
  /-- `PWR_DOM_RET` (R635). PWR_DOM_SET op 1 drains the named domain and puts it in RET, or refuses after the drain timeout. -/
  | pwrDomRet (p : Packet)
  /-- `PWR_DOM_OFF` (R635). PWR_DOM_SET op 2 drains the named domain and turns it OFF, or refuses after the drain timeout. -/
  | pwrDomOff (p : Packet)
  /-- `PWR_DOM_RESET` (R643). PWR_DOM_SET op 3 makes a domain reset of the named domain. -/
  | pwrDomReset (p : Packet)
  /-- `PWR_CFG_SET` (R643). Sets the automatic RET and OFF settings and timers of a domain, and the drain and alarm settings. -/
  | pwrCfgSet (p : Packet)
  /-- `PWR_QUERY` (R643). Returns PWR_STAT and every domain status latched in one cycle. -/
  | pwrQuery (p : Packet)
  /-- `PWR_STATS` (R643). Returns and clears the PWR counters. -/
  | pwrStats (p : Packet)
  /-- `RTC_SET` (R643). Sets the RTC seconds and the alarm value. -/
  | rtcSet (p : Packet)
  /-- `CLK_CFG_SET` (R411). Sets revert, align, wait-to-restore, phase slew, DPLL bandwidth and qualification limits. -/
  | clkCfgSet (p : Packet)
  /-- `CLK_REF_SET` (R411). Enables and configures one clock reference. -/
  | clkRefSet (p : Packet)
  /-- `CLK_SELECT` (R392). Writes CLK_SEL, applied at the next selection evaluation without a wait. -/
  | clkSelect (p : Packet)
  /-- `CLK_DCO_SET` (R397). Sets the DCO word while the DPLL is open under MANUAL 0xE. -/
  | clkDcoSet (p : Packet)
  /-- `CLK_OUT_SET` (R400). Configures the MCLK, WCLK and PPS outputs and their rein gate. -/
  | clkOutSet (p : Packet)
  /-- `CLK_QUERY` (R411). Returns clock state, errors, DCO word and reference status latched in one cycle. -/
  | clkQuery (p : Packet)
  /-- `CLK_STATS` (R411). Returns and clears the CLK counters. -/
  | clkStats (p : Packet)
  /-- `PTP_CFG_SET` (R411). Sets the PTP profile, transport, port, priorities and intervals, optionally loading profile defaults. -/
  | ptpCfgSet (p : Packet)
  /-- `PTP_RELOCK` (R406). Arms one further step of local time at the next valid offset. -/
  | ptpRelock (p : Packet)
  /-- `PTP_QUERY` (R411). Returns PTP status, local time, offset, path delay, rate and grandmaster latched in one cycle. -/
  | ptpQuery (p : Packet)
  /-- `PTP_STATS` (R411). Returns and clears the PTP counters. -/
  | ptpStats (p : Packet)
  /-- `NET_PORT_SET` (R358). Sets a MAC's configuration and timestamp adjustments. -/
  | netPortSet (p : Packet)
  /-- `NET_RULE_SET` (R344). Stages one receive rule of a MAC. -/
  | netRuleSet (p : Packet)
  /-- `NET_RULE_COMMIT` (R344). Swaps the staged rules into force on the named ports between frames. -/
  | netRuleCommit (p : Packet)
  /-- `NET_TXQ_SET` (R358). Configures one transmit queue of a MAC. -/
  | netTxqSet (p : Packet)
  /-- `NET_LINK_QUERY` (R358). Returns a MAC's configuration, link, pause and timestamp FIFO state latched in one cycle. -/
  | netLinkQuery (p : Packet)
  /-- `NET_STATS` (R358). Returns and clears the 23 statistics of a MAC. -/
  | netStats (p : Packet)
  /-- `NET_MDIO` (R358). Runs one MDIO frame on MAC M and returns the data read. -/
  | netMdio (p : Packet)
  /-- `STRM_RX_SET` (R377). STRM_RX_SET op 0 configures or replaces a receive stream, clearing its rings at the commit. -/
  | strmRxSet (p : Packet)
  /-- `STRM_RX_REMOVE` (R377). STRM_RX_SET op 1 removes a receive stream, whose channels give zeros from folio s+1. -/
  | strmRxRemove (p : Packet)
  /-- `STRM_TX_SET` (R377). STRM_TX_SET op 0 configures or replaces a transmit stream. -/
  | strmTxSet (p : Packet)
  /-- `STRM_TX_REMOVE` (R384). STRM_TX_SET op 1 removes a transmit stream. -/
  | strmTxRemove (p : Packet)
  /-- `STRM_RX_QUERY` (R384). Returns the state, margins and counts of a receive stream and clears its counts. -/
  | strmRxQuery (p : Packet)
  /-- `STRM_TX_QUERY` (R384). Returns a transmit stream's entry and packet counts. -/
  | strmTxQuery (p : Packet)
  /-- `STRM_STATS` (R384). Returns and clears the STRM counters. -/
  | strmStats (p : Packet)
  /-- `LAYOUT_LOAD` (R85). Checks, verifies and loads a layout image as a long operation. -/
  | layoutLoad (p : Packet)
  /-- `LAYOUT_QUERY` (R119). Returns the loaded layout's ID, sizes and disabled speakers. -/
  | layoutQuery (p : Packet)
  /-- `OBJ_CONFIG` (R69). Configures an object slot with quota and window class, or replaces its quota. -/
  | objConfig (p : Packet)
  /-- `OBJ_DECONFIG` (R70). Frees a FREE slot's budget, binding and pending records. -/
  | objDeconfig (p : Packet)
  /-- `OBJ_BIND` (R71). Binds an audio source to an object slot with a crossfade at its commit folio. -/
  | objBind (p : Packet)
  /-- `OBJ_QUERY` (R72). Returns a slot's status, activation time, reservation and binding. -/
  | objQuery (p : Packet)
  /-- `OMS_STATS` (R73). Returns and clears the 13 OMS counters. -/
  | omsStats (p : Packet)
  /-- `OMS_CFG_SET` (R74). Sets OMS_CFG, OMS_VEL and OMS_SESSION. -/
  | omsCfgSet (p : Packet)
  /-- `GEO_CFG_SET` (R120). Sets the geometry parameters, applied at a folio boundary with a squash of every object. -/
  | geoCfgSet (p : Packet)
  /-- `GEO_TEMP_SET` (R107). Sets the speed of sound from an air temperature and squashes every object. -/
  | geoTempSet (p : Packet)
  /-- `GEO_SPK_DISABLE` (R122). GEO_SPK_ENABLE byte 2 = 0 disables a speaker for panning. -/
  | geoSpkDisable (p : Packet)
  /-- `GEO_SPK_ENABLE` (R122). GEO_SPK_ENABLE byte 2 = 1 enables a speaker, overriding its load flag. -/
  | geoSpkEnable (p : Packet)
  /-- `GEO_FRAME_QUERY` (R123). Returns the frame most recently fetched for a slot. -/
  | geoFrameQuery (p : Packet)
  /-- `GEO_EVAL` (R124). Evaluates one frame from given values without changing any state. -/
  | geoEval (p : Packet)
  /-- `GEO_STATS` (R125). Returns and clears the GEO counters. -/
  | geoStats (p : Packet)
  /-- `GEO_RA_QUERY` (R145). Returns a slot's run-ahead state latched in one cycle. -/
  | geoRaQuery (p : Packet)
  /-- `GEO_RA_STATS` (R146). Returns and clears the run-ahead counters. -/
  | geoRaStats (p : Packet)
  /-- `FAB_CFG_SET` (R185). Sets the Doppler delay slew limit. -/
  | fabCfgSet (p : Packet)
  /-- `FAB_OBJ_QUERY` (R186). Returns a slot's bulk delay, span, class and clamp state. -/
  | fabObjQuery (p : Packet)
  /-- `FAB_STATS` (R187). Returns and clears the FAB counters. -/
  | fabStats (p : Packet)
  /-- `FAB_INTERP_TABLE` (R188). Returns interpolator coefficients of a range of phases. -/
  | fabInterpTable (p : Packet)
  /-- `OUT_CONFIG` (R190). OUT_CONFIG op 0 configures or replaces one output under the budget and destination rules. -/
  | outConfig (p : Packet)
  /-- `OUT_DECONFIG` (R218). OUT_CONFIG op 1 deconfigures one output. -/
  | outDeconfig (p : Packet)
  /-- `OUT_GAIN_SET` (R201). Sets output and bed gains of a range, ramped from the commit folio. -/
  | outGainSet (p : Packet)
  /-- `OUT_ALIGN_SET` (R199). Sets the alignment delay of a range with a one-folio crossfade. -/
  | outAlignSet (p : Packet)
  /-- `OUT_EQ_SET` (R194). Sets PEQ or trim sections of one output with a crossfade. -/
  | outEqSet (p : Packet)
  /-- `OUT_LIM_SET` (R202). Sets limiter threshold and release of a range. -/
  | outLimSet (p : Packet)
  /-- `OUT_BM_SET` (R197). Sets crossover frequency and send of a bass-management group. -/
  | outBmSet (p : Packet)
  /-- `OUT_SIL_SET` (R209). Sets silence detection of a range and restarts the detectors. -/
  | outSilSet (p : Packet)
  /-- `OUT_AMP_SET` (R210). Sets the modes of the AMP_EN pins. -/
  | outAmpSet (p : Packet)
  /-- `OUT_QUERY` (R214). Returns an output's block and latches and restarts its monitor measurements. -/
  | outQuery (p : Packet)
  /-- `OUT_EQ_QUERY` (R218). Returns the 20 sections in force of an output. -/
  | outEqQuery (p : Packet)
  /-- `OUT_STATS` (R217). Returns and clears the OUT counters. -/
  | outStats (p : Packet)
  /-- `FIR_LOAD` (R239). Checks, verifies and transforms a FIR-set image into the staged sets as a long operation. -/
  | firLoad (p : Packet)
  /-- `FIR_COMMIT` (R241). Exchanges active and staged sets of a range, grouped and crossfaded in RENDER and MEASURE. -/
  | firCommit (p : Packet)
  /-- `FIR_SCHEME_LONG` (R240). FIR_SCHEME_SET scheme 1 moves a range to the long scheme after a budget check. -/
  | firSchemeLong (p : Packet)
  /-- `FIR_SCHEME_STANDARD` (R240). FIR_SCHEME_SET scheme 0 moves a range to the standard scheme and frees the long storage. -/
  | firSchemeStandard (p : Packet)
  /-- `FIR_CLEAR` (R255). Empties the staged sets of a range. -/
  | firClear (p : Packet)
  /-- `FIR_QUERY` (R255). Returns an output's convolution status, tap counts and set IDs. -/
  | firQuery (p : Packet)
  /-- `CONV_STATS` (R255). Returns and clears the CONV counters. -/
  | convStats (p : Packet)
  /-- `FIR_EXPORT` (R255). Writes a set's retained taps to DRAM and returns the tap count. -/
  | firExport (p : Packet)
  /-- `MEAS_PDM_SET` (R281). Sets microphone enables, clock, preset, DC freeze and high-pass filters, restarting affected chains. -/
  | measPdmSet (p : Packet)
  /-- `MEAS_SWEEP` (R263). Plays a stimulus on one output in MEASURE and writes measurement records as a long operation. -/
  | measSweep (p : Packet)
  /-- `MEAS_PRB_GROUP_SET` (R281). Replaces the members and microphones of a probe group. -/
  | measPrbGroupSet (p : Packet)
  /-- `MEAS_PRB_SET` (R281). Sets probing and health parameters. -/
  | measPrbSet (p : Packet)
  /-- `MEAS_PRB_RESULT` (R281). Writes an output's latest probe records to DRAM. -/
  | measPrbResult (p : Packet)
  /-- `MEAS_PRB_BASELINE` (R273). Stores present valid probe results of a range as their baseline. -/
  | measPrbBaseline (p : Packet)
  /-- `AUTOTRIM_ENABLE` (R275). AUTOTRIM_SET 1 gives firmware the trim sections of a range. -/
  | autotrimEnable (p : Packet)
  /-- `AUTOTRIM_DISABLE` (R276). AUTOTRIM_SET 0 leaves the trims where they stand and returns the sections to OUT_EQ_SET. -/
  | autotrimDisable (p : Packet)
  /-- `MEAS_STATS` (R281). Returns and clears the MEAS counters. -/
  | measStats (p : Packet)
  /-- `MIX_SRC_SET` (R293). Sets the source of a matrix input with a crossfade. -/
  | mixSrcSet (p : Packet)
  /-- `MIX_NODE_STAGE` (R291). Writes staged node gains without effect on audio. -/
  | mixNodeStage (p : Packet)
  /-- `MIX_COMMIT` (R291). MIX_COMMIT op 0 commits every staged matrix of the mask at once. -/
  | mixCommit (p : Packet)
  /-- `MIX_DISCARD` (R291). MIX_COMMIT op 1 returns the staged copies to the active gains. -/
  | mixDiscard (p : Packet)
  /-- `MIX_BUS_SET` (R286). Sets a bus's limiter, silence, amplifier mapping and destination. -/
  | mixBusSet (p : Packet)
  /-- `MIX_DOM_SET` (R283). Sets the D1 reference and rate and the D2 reference. -/
  | mixDomSet (p : Packet)
  /-- `MIX_BRIDGE_SET` (R295). Configures one ASRC bridge channel. -/
  | mixBridgeSet (p : Packet)
  /-- `MIX_SIL_SET` (R294). Sets the bus silence threshold and hold. -/
  | mixSilSet (p : Packet)
  /-- `BYP_SET` (R301). Sets the announcement bypass, its inputs and its owned port-15 slots in any mode. -/
  | bypSet (p : Packet)
  /-- `DUCK_SET` (R303). Sets a duck set's depth, attack, release and output map in any mode. -/
  | duckSet (p : Packet)
  /-- `MIX_QUERY` (R310). Returns a bus's configuration and active node gains. -/
  | mixQuery (p : Packet)
  /-- `MIX_STATS` (R310). Returns and clears the MIX counters. -/
  | mixStats (p : Packet)
  /-- `TDM_PORT_SET` (R335). Sets a TDM port's configuration and frame format, restarting an enabled port. -/
  | tdmPortSet (p : Packet)
  /-- `TDM_SLOT_SET` (R322). Sets a port's transmit mask and transmit and receive enables at a frame start. -/
  | tdmSlotSet (p : Packet)
  /-- `TDM_QUERY` (R335). Returns a port's block latched in one cycle. -/
  | tdmQuery (p : Packet)
  /-- `TDM_STATS` (R335). Returns and clears the TDM counters. -/
  | tdmStats (p : Packet)
  /-- `PAIR_CFG_SET` (R447). Sets the resync parameters of TTH_CFG. -/
  | pairCfgSet (p : Packet)
  /-- `PAIR_ID_SET` (R440). Sets the pair identity addresses. -/
  | pairIdSet (p : Packet)
  /-- `PAIR_QUERY` (R447). Returns the pair registers latched in one cycle. -/
  | pairQuery (p : Packet)
  /-- `PAIR_SWITCHOVER` (R438). Moves the show to the standby at a chosen folio without losing a sample. -/
  | pairSwitchover (p : Packet)
  /-- `PAIR_RESYNC_START` (R431). PAIR_RESYNC op 0 starts resync of the unit not holding the rein. -/
  | pairResyncStart (p : Packet)
  /-- `PAIR_RESYNC_ABORT` (R447). PAIR_RESYNC op 1 aborts a running resync. -/
  | pairResyncAbort (p : Packet)
  /-- `PAIR_FENCE` (R418). Makes this unit self-fence with cause 5. -/
  | pairFence (p : Packet)
  /-- `PAIR_STATS` (R447). Returns and clears the TTH counters. -/
  | pairStats (p : Packet)
  /-- `FX_INSTANCE_SET` (R449). FX_INSTANCE_SET op 0 loads a program image into an instance as a long operation. -/
  | fxInstanceSet (p : Packet)
  /-- `FX_INSTANCE_REMOVE` (R487). FX_INSTANCE_SET op 1 removes an instance, whose outputs carry zeros from folio s+1. -/
  | fxInstanceRemove (p : Packet)
  /-- `FX_PARAM_SET` (R460). Writes a staged parameter block copied before the ticket of folio s+1. -/
  | fxParamSet (p : Packet)
  /-- `FX_QUERY` (R487). Returns an instance's block and its core status. -/
  | fxQuery (p : Packet)
  /-- `FX_STATS` (R487). Returns and clears the FXC counters. -/
  | fxStats (p : Packet)
  /-- `FX_MEM_READ` (R487). Returns part of an instance's data region copied between its tickets. -/
  | fxMemRead (p : Packet)
  /-- `STBL_Q_SET` (R492). Sets a queue's enable, priority, limit and reservation. -/
  | stblQSet (p : Packet)
  /-- `STBL_TRACE_SET` (R506). Configures the decision trace and restarts it at record 0. -/
  | stblTraceSet (p : Packet)
  /-- `STBL_TRACE_READ` (R512). Returns records from the on-chip trace ring. -/
  | stblTraceRead (p : Packet)
  /-- `STBL_SUBMIT` (R512). Enters a DMA or marker descriptor into a free queue. -/
  | stblSubmit (p : Packet)
  /-- `STBL_QUERY` (R512). Returns Stable, queue and flow status latched in one cycle. -/
  | stblQuery (p : Packet)
  /-- `STBL_STATS` (R512). Returns and clears the STBL counters. -/
  | stblStats (p : Packet)
  /-- `SPN_QOS_SET` (R527). Sets the base QoS of a Spine master. -/
  | spnQosSet (p : Packet)
  /-- `SPN_CFG_SET` (R527). Sets the aging step and the parking masters. -/
  | spnCfgSet (p : Packet)
  /-- `SPN_QUERY` (R527). Returns Spine, master and target status latched in one cycle. -/
  | spnQuery (p : Packet)
  /-- `SPN_ERR_READ` (R527). Pops entries of the Spine error log. -/
  | spnErrRead (p : Packet)
  /-- `SPN_STATS` (R527). Returns and clears the SPN counters. -/
  | spnStats (p : Packet)
  /-- `MEM_CFG_SET` (R548). Sets the Groomer, repair and Groomer timing. -/
  | memCfgSet (p : Packet)
  /-- `MEMTEST` (R548). Runs one full Groomer pass at one step per microsecond as a long operation. -/
  | memtest (p : Packet)
  /-- `MEM_REPAIR_LISTED` (R540). MEM_REPAIR op 0 repairs every row in the repair list. -/
  | memRepairListed (p : Packet)
  /-- `MEM_REPAIR_ROW` (R540). MEM_REPAIR op 1 repairs the named row. -/
  | memRepairRow (p : Packet)
  /-- `MEM_QUERY` (R548). Returns memory configuration, Groomer and log state and spare use per bank. -/
  | memQuery (p : Packet)
  /-- `MEM_ERR_READ` (R548). Pops entries of the memory error log. -/
  | memErrRead (p : Packet)
  /-- `MEM_STATS` (R548). Returns and clears the MEM counters. -/
  | memStats (p : Packet)
  /-- `DMC_CFG_SET` (R569). Sets auto-retirement and row-hammer parameters. -/
  | dmcCfgSet (p : Packet)
  /-- `DRAM_RETIRE_LISTED` (R556). DRAM_RETIRE op 0 retires every listed row. -/
  | dramRetireListed (p : Packet)
  /-- `DRAM_RETIRE_ROW` (R556). DRAM_RETIRE op 1 retires the named row. -/
  | dramRetireRow (p : Packet)
  /-- `DMC_FREQ_SET` (R562). Changes the DRAM set point, deferred while training runs. -/
  | dmcFreqSet (p : Packet)
  /-- `DMC_QUERY` (R569). Returns DRAM configuration and channel state latched in one cycle. -/
  | dmcQuery (p : Packet)
  /-- `DMC_ERR_READ` (R569). Pops entries of the DRAM error log. -/
  | dmcErrRead (p : Packet)
  /-- `DMC_STATS` (R569). Returns and clears the DMC counters. -/
  | dmcStats (p : Packet)
  /-- `PMC_CFG_SET` (R660). Sets user access, triggers, bandwidth windows and address windows. -/
  | pmcCfgSet (p : Packet)
  /-- `PMC_SEL_SET` (R660). Writes PMC_SEL and PMC_MMASK of up to 16 counters, one per cycle. -/
  | pmcSelSet (p : Packet)
  /-- `PMC_CTL_SET` (R660). Performs the PMC_CTL actions given and arms the PTP match time when nonzero. -/
  | pmcCtlSet (p : Packet)
  /-- `PMC_READ` (R660). Returns live or snapshot counters with the snapshot time. -/
  | pmcRead (p : Packet)
  /-- `PMC_BW_READ` (R660). Returns the bandwidth windows and peaks and clears the peaks. -/
  | pmcBwRead (p : Packet)
  /-- `IMAGE_COMMIT` (R611). Writes a staged firmware image into the slot not running, optionally restarting. -/
  | imageCommit (p : Packet)
  /-- `IMAGE_QUERY` (R623). Returns boot status and the state of both image slots. -/
  | imageQuery (p : Packet)
  /-- `IMAGE_FLOOR_RAISE` (R609). Raises the rollback floor to the running security version. -/
  | imageFloorRaise (p : Packet)
  /-- `JOURNAL_SAVE` (R612). Stores recorded images in flash and compacts the scene journal as a long operation. -/
  | journalSave (p : Packet)
  /-- `JOURNAL_QUERY` (R623). Returns journal size, unsaved images and last save time. -/
  | journalQuery (p : Packet)
  /-- `JOURNAL_CFG_SET` (R623). Sets resume mode and reference wait in the journal header. -/
  | journalCfgSet (p : Packet)
  /-- `JOURNAL_CLEAR` (R623). Empties the scene journal. -/
  | journalClear (p : Packet)
  /-- `BOOT_LOAD` (R608). Writes bytes into the control-SRAM staging area under the recovery responder. -/
  | bootLoad (p : Packet)
  /-- `BOOT_GO` (R608). Verifies the staged firmware image and continues boot at step 5. -/
  | bootGo (p : Packet)
  /-- `FUSE_AUTH_HSP` (R618). SEC_FUSE_PROGRAM op 0 blows the AUTH_HSP fuse. -/
  | fuseAuthHsp (p : Packet)
  /-- `FUSE_AUTH_TWI` (R618). SEC_FUSE_PROGRAM op 1 blows the AUTH_TWI fuse. -/
  | fuseAuthTwi (p : Packet)
  /-- `FUSE_JTAG_LOCK` (R618). SEC_FUSE_PROGRAM op 2 blows the JTAG_LOCK fuse. -/
  | fuseJtagLock (p : Packet)
  /-- `FUSE_DBG_OFF` (R618). SEC_FUSE_PROGRAM op 3 blows the DBG_OFF fuse. -/
  | fuseDbgOff (p : Packet)
  /-- `FUSE_REVOKE_KEY` (R618). SEC_FUSE_PROGRAM op 4 revokes a key index. -/
  | fuseRevokeKey (p : Packet)
  /-- `FUSE_KEY_HASH` (R618). SEC_FUSE_PROGRAM op 5 programs a key hash. -/
  | fuseKeyHash (p : Packet)
  /-- `SEC_QUERY` (R618). Returns fuses, floor, identifier, test-port state and key hashes. -/
  | secQuery (p : Packet)
  /-- `AUTH_SUPPRESS_END` (R582). The 1 s of reply suppression after 16 authentication failures ends. -/
  | authSuppressEnd (port t : Nat)
  /-- `LONG_OPERATION_DONE` (R587). A long operation completes and its reply is sent on the originating port, setting DONE. -/
  | longOperationDone (ext : List Byte) (peerOk : Bool) (t : Nat)
  /-- `STANDBY_ACK_TIMEOUT` (R441). No acknowledgement of a logged command within 10 ms; the active replies and the standby becomes UNSYNC. -/
  | standbyAckTimeout (t : Nat)
  /-- `HSP_WRITE_COMMAND` (R571). An HSP 0x02 transaction delivers one command packet to channel 0. -/
  | hspWriteCommand (bytes : List Byte) (t : Nat)
  /-- `HSP_WRITE_METADATA` (R571). An HSP 0x12 transaction delivers one OMS message on channel 1. -/
  | hspWriteMetadata (bytes : List Byte) (t : Nat)
  /-- `HSP_READ_STATUS` (R572). An HSP 0x05 transaction returns the status byte and clears DONE. -/
  | hspReadStatus
  /-- `HSP_READ_REPLY` (R571). An HSP 0x0B transaction returns the ready reply, consumed when HSP_CS_N rises after its last byte. -/
  | hspReadReply (n t : Nat)
  /-- `HSP_ABORT` (R571). HSP_CS_N rises before L bytes are written and the transfer is discarded. -/
  | hspAbort
  /-- `COMMAND_DATAGRAM` (R574). A command datagram arrives on the network command port and waits for execution. -/
  | commandDatagram (mac : Nat) (src : NetSrc) (bytes : List Byte) (t : Nat)
  /-- `TWI_WRITE` (R575). A TWI write transfer delivers one command packet. -/
  | twiWrite (bytes : List Byte) (t : Nat)
  /-- `TWI_READ` (R575). A TWI read transfer returns the ready reply. -/
  | twiRead (n t : Nat)
  /-- `TWI_ADDRESS_MATCH` (R576). The clockless comparator matches the TWI address and answers, wakes CTRL or wakes the device by mode. -/
  | twiAddressMatch (addr : Nat) (write : Bool) (t : Nat)
  /-- `SAFE_RESPONDER` (R577). In SAFE the SAFE-domain responder executes a TWI command. -/
  | safeResponder (bytes : List Byte) (t : Nat)
  /-- `JOURNAL_COMPACT` (R612). Firmware compacts the live journal in the background when it passes half its size. -/
  | journalCompact (t : Nat)
  /-- `MEDIA_CLOCK_PERIOD` (R14). One media-clock period advances media time by one sample. -/
  | mediaClockPeriod (t : Nat)
  /-- `FOLIO_TICK` (R127). Media time reaches a multiple of F; deferred squashes, record application, fetch and edge tickets run in order. -/
  | folioTick (pdm : List (Nat × Nat × Nat)) (t : Nat)
  /-- `DEADLINE_MISS` (R21). An output folio is incomplete at the end of its slot; the faded previous folio or zeros are emitted and the miss is counted. -/
  | deadlineMiss (t : Nat)
  /-- `MISSING_FOLIO_TICK` (R681). A whole folio period on the XO passes without the next tick and the folio due is treated as missed. -/
  | missingFolioTick (t : Nat)
  /-- `FAB_ABANDON` (R154). The root has not written folio n by the end of slot n+1 and the fabric folio is abandoned. -/
  | fabAbandon (t : Nat)
  /-- `OMS_MESSAGE` (R40). An OMS message is taken whole, checked and its entries processed in order. -/
  | omsMessage (t : Nat)
  /-- `GLIDE_END` (R140). A glide of GLIDE folios reaches its last folio. -/
  | glideEnd (k t : Nat)
  /-- `GEO_TICKET_DONE` (R75). A geometry engine completes a frame evaluation and writes it unless stale. -/
  | geoTicketDone (e t : Nat)
  /-- `FAB_TICKET_DONE` (R153). A gathering completes object entry, window feed and accumulation of a group. -/
  | fabTicketDone (e : Nat) (reads : QuireReads) (t : Nat)
  /-- `ROOT_WRITE` (R177). After the last fabric ticket the partial sums are reduced and output folio n written. -/
  | rootWrite (reads : RootReads)
  /-- `HEAD_TICKET_DONE` (R226). A convolution head ticket completes for a group of 16 outputs. -/
  | headTicketDone (e : Nat) (poison : List (Nat × Nat × Nat)) (t : Nat)
  /-- `TAIL_TICKET_DONE` (R227). A convolution tail ticket completes part of a tail block. -/
  | tailTicketDone (e : Nat) (poison : List (Nat × Nat × Nat)) (t : Nat)
  /-- `OUT_PHASE_A_DONE` (R191). Output-chain phase A completes stages 1 to 4 of a group. -/
  | outPhaseADone (e t : Nat)
  /-- `OUT_PHASE_B_DONE` (R191). Output-chain phase B completes stages 6 to 9 of a group. -/
  | outPhaseBDone (e t : Nat)
  /-- `MIXER_BLOCK_DONE` (R288). The mixer engine completes a bus block of a domain. -/
  | mixerBlockDone (e t : Nat)
  /-- `EGRESS_TICKET_DONE` (R500). An egress ticket completes and is released at the flow frontier. -/
  | egressTicketDone (e t : Nat)
  /-- `MEAS_TICKET_DONE` (R267). A measurement ticket completes spectral work of a block. -/
  | measTicketDone (e t : Nat)
  /-- `SWEEP_DONE` (R268). A sweep's capture ends and its records are completed. -/
  | sweepDone (t : Nat)
  /-- `STALL_FILL` (R495). The Stable places an eligible ticket in an empty engine stall. -/
  | stallFill (cls t : Nat)
  /-- `GENERATOR_RESUME` (R493). A hardware generator waiting on a full queue resumes issuing when room appears. -/
  | generatorResume (q cycles t : Nat)
  /-- `DMA_COPY_DONE` (R502). A DMA copy completes when its last write response returns. -/
  | dmaCopyDone (c t : Nat)
  /-- `DMA_COPY_ERROR` (R503). A DMA copy stops at a beat with an error answer or poisoned data. -/
  | dmaCopyError (c off : Nat) (write : Bool) (cause t : Nat)
  /-- `FX_TICKET_START` (R451). An effect ticket starts on its core with the initial register values. -/
  | fxTicketStart (c t : Nat)
  /-- `FX_TICKET_ABORT` (R452). A ticket exceeding its budget, violating the MPU or executing an illegal word aborts and publishes zeros. -/
  | fxTicketAbort (c t : Nat)
  /-- `FX_TICKET_LATE` (R455). An effect ticket is still running at the end of its slot. -/
  | fxTicketLate (c t : Nat)
  /-- `FX_INTERRUPT_ENTRY` (R474). The core enters its handler after the causing word, saving IPC and ICSR. -/
  | fxInterruptEntry (c t : Nat)
  /-- `NOP` (R478). Format C word with no compute, carrying up to two moves. -/
  | fxNop (c t : Nat)
  /-- `MUL` (R478). Aa = Dx·Dy. -/
  | fxMul (c t : Nat)
  /-- `MAC` (R478). Aa += Dx·Dy. -/
  | fxMac (c t : Nat)
  /-- `MSU` (R478). Aa -= Dx·Dy. -/
  | fxMsu (c t : Nat)
  /-- `QMUL` (R463). Sets A0 to A3 to the four products of two register pairs. -/
  | fxQmul (c t : Nat)
  /-- `QMAC` (R463). Adds the four products of two register pairs to A0 to A3. -/
  | fxQmac (c t : Nat)
  /-- `CMUL` (R463). Complex product into an accumulator pair. -/
  | fxCmul (c t : Nat)
  /-- `CMAC` (R463). Complex multiply-accumulate into an accumulator pair. -/
  | fxCmac (c t : Nat)
  /-- `CMULC` (R463). Complex product with Y conjugated. -/
  | fxCmulc (c t : Nat)
  /-- `CMACC` (R463). Complex multiply-accumulate with Y conjugated. -/
  | fxCmacc (c t : Nat)
  /-- `MVA` (R464). Moves an accumulator to Dd under the SCL scale with saturation. -/
  | fxMva (c t : Nat)
  /-- `MVAH` (R464). Moves accumulator bits 63:32 unscaled. -/
  | fxMvah (c t : Nat)
  /-- `MVAL` (R464). Moves accumulator bits 31:0 unscaled. -/
  | fxMval (c t : Nat)
  /-- `MVAG` (R464). Moves accumulator bits 71:64 sign-extended. -/
  | fxMvag (c t : Nat)
  /-- `MVDA` (R464). Loads an accumulator with Dx·2^31. -/
  | fxMvda (c t : Nat)
  /-- `ACLR` (R478). Clears an accumulator. -/
  | fxAclr (c t : Nat)
  /-- `AADD` (R478). Adds one accumulator to another. -/
  | fxAadd (c t : Nat)
  /-- `ASRA` (R478). Arithmetic right shift of an accumulator. -/
  | fxAsra (c t : Nat)
  /-- `ADD` (R465). Saturating addition. -/
  | fxAdd (c t : Nat)
  /-- `SUB` (R465). Saturating subtraction. -/
  | fxSub (c t : Nat)
  /-- `ADDW` (R465). Wrapping addition. -/
  | fxAddw (c t : Nat)
  /-- `SUBW` (R465). Wrapping subtraction. -/
  | fxSubw (c t : Nat)
  /-- `NEG` (R465). Saturating negation. -/
  | fxNeg (c t : Nat)
  /-- `ABS` (R465). Saturating absolute value. -/
  | fxAbs (c t : Nat)
  /-- `MIN` (R478). Minimum of two data registers. -/
  | fxMin (c t : Nat)
  /-- `MAX` (R478). Maximum of two data registers. -/
  | fxMax (c t : Nat)
  /-- `AND` (R478). Bitwise AND. -/
  | fxAnd (c t : Nat)
  /-- `OR` (R478). Bitwise OR. -/
  | fxOr (c t : Nat)
  /-- `XOR` (R478). Bitwise exclusive OR. -/
  | fxXor (c t : Nat)
  /-- `NOT` (R478). Bitwise complement. -/
  | fxNot (c t : Nat)
  /-- `ASL` (R465). Saturating arithmetic left shift. -/
  | fxAsl (c t : Nat)
  /-- `ASR` (R478). Arithmetic right shift. -/
  | fxAsr (c t : Nat)
  /-- `LSR` (R478). Logical right shift. -/
  | fxLsr (c t : Nat)
  /-- `CMP` (R465). Sets flags from Dx - Dy. -/
  | fxCmp (c t : Nat)
  /-- `MOV` (R478). Copies Dx to Dd. -/
  | fxMov (c t : Nat)
  /-- `LDI` (R479). Loads an immediate into a data register. -/
  | fxLdi (c t : Nat)
  /-- `LDIP` (R479). Loads an immediate into a pointer register. -/
  | fxLdip (c t : Nat)
  /-- `LDIM` (R479). Loads an immediate into a modifier register. -/
  | fxLdim (c t : Nat)
  /-- `LDIB` (R479). Loads an immediate into a circular base register. -/
  | fxLdib (c t : Nat)
  /-- `LDIL` (R479). Loads an immediate into a circular length register. -/
  | fxLdil (c t : Nat)
  /-- `ADDI` (R479). Adds an immediate to a data register with saturation. -/
  | fxAddi (c t : Nat)
  /-- `CMPI` (R479). Sets flags from Dd minus an immediate. -/
  | fxCmpi (c t : Nat)
  /-- `BR` (R473). Conditional branch with two delay slots. -/
  | fxBr (c t : Nat)
  /-- `CALL` (R473). Conditional call writing LNK, with two delay slots. -/
  | fxCall (c t : Nat)
  /-- `RET` (R473). Conditional return to LNK with two delay slots. -/
  | fxRet (c t : Nat)
  /-- `LOOP` (R470). Sets up a hardware loop level with start, end and count. -/
  | fxLoop (c t : Nat)
  /-- `TRAP` (R474). Raises a synchronous interrupt with number n. -/
  | fxTrap (c t : Nat)
  /-- `RTI` (R475). Restores FXC_CSR from ICSR and returns to IPC. -/
  | fxRti (c t : Nat)
  /-- `DONE` (R452). Ends the ticket and copies the output area to the effect output channels. -/
  | fxDone (c t : Nat)
  /-- `MOVR` (R479). Copies between any two register IDs. -/
  | fxMovr (c t : Nat)
  /-- `PADD` (R479). Adds an immediate byte count to a pointer. -/
  | fxPadd (c t : Nat)
  /-- `CSRR` (R479). Reads FXC_CSR into a data register. -/
  | fxCsrr (c t : Nat)
  /-- `CSRW` (R462). Writes FXC_CSR from a data register. -/
  | fxCsrw (c t : Nat)
  /-- `TDM_FRAME` (R314). A TDM frame starts at an FSYNC leading edge and its slots are received and transmitted. -/
  | tdmFrame (q mt : Nat) (din : List Nat) (bclks : Nat) (late : Bool) (fill : Int) (t : Nat)
  /-- `TDM_CLOCK_LOST` (R317). A slave port sees no FSYNC for two frame periods and stops driving. -/
  | tdmClockLost (q t : Nat)
  /-- `ZC_TIMEOUT` (R323). No zero crossing arrives within ZC_TIMEOUT and the change is made with a 16-sample ramp. -/
  | zcTimeout (q : Nat) (tx : Bool) (j t : Nat)
  /-- `GATE_HOLD_EXPIRY` (R302). An active announcement input stays below threshold for GATE_HOLD and becomes inactive. -/
  | gateHoldExpiry (k t : Nat)
  /-- `FRAME_RECEIVED` (R340). A MAC stores a whole received frame and checks, classifies and queues it. -/
  | frameReceived (m : Nat) (bytes : List Byte) (bad odd noRoom full : Bool) (corr uncorr cap mt t : Nat)
  /-- `PAUSE_EXPIRY` (R349). The pause timer reaches zero and paused queues resume. -/
  | pauseExpiry (m t : Nat)
  /-- `FRAME_TRANSMIT` (R346). A MAC starts sending the next frame from its highest-priority queue. -/
  | frameTransmit (m : Nat) (deferred : Bool) (cap t : Nat)
  /-- `COLLISION` (R352). A collision in half duplex jams the frame and starts backoff or aborts it. -/
  | collision (m bits t : Nat)
  /-- `BACKOFF_EXPIRY` (R352). The backoff after a collision ends and the MAC defers again. -/
  | backoffExpiry (m t : Nat)
  /-- `LINK_CHANGE` (R337). A media or management link goes up or down. -/
  | linkChange (m : Nat) (lock hiBer localF remoteF fecLock inbUp : Bool) (inbSpeed : Nat) (inbFull : Bool) (t : Nat)
  /-- `STREAM_FRAME` (R360). The stream engine classifies a frame from queues 8 to 31. -/
  | streamFrame (m t : Nat)
  /-- `TX_PACKET` (R375). A transmit packet is built and queued within 2 µs of the emission of its last sample. -/
  | txPacket (n e : Nat) (resA resB : Option Nat) (t : Nat)
  /-- `LEG_DOWN` (R373). An enabled leg places no sample within its activity time and stops being active. -/
  | legDown (n leg t : Nat)
  /-- `REFERENCE_EDGE` (R387). An edge or expected Sync of a reference reaches its activity monitor. -/
  | referenceEdge (r : Nat) (pps : Bool) (t : Nat)
  /-- `REFERENCE_LOST` (R387). No edge arrives within 3.5 nominal periods and the reference becomes LOST. -/
  | referenceLost (r t : Nat)
  /-- `REFERENCE_MEASUREMENT` (R388). Every 10 ms each monitor measures its frequency offset and updates its qualification state. -/
  | referenceMeasurement (foff : List Int) (t : Nat)
  /-- `REFERENCE_SELECTION` (R391). Every 10 ms the device selects a reference or enters holdover. -/
  | referenceSelection (phases ferrs : List Int) (t : Nat)
  /-- `XO_FAIL` (R394). The XO stops or lies 2 % from nominal; clocks move to the backup or the device enters SAFE. -/
  | xoFail (t : Nat)
  /-- `SYNC` (R403). A PTP Sync message from the selected master is accepted. -/
  | sync (h : PtpHead) (two : Bool) (origin corr : Int) (rx t : Nat)
  /-- `FOLLOW_UP` (R403). A Follow_Up completes a two-step Sync. -/
  | followUp (h : PtpHead) (origin corr : Int) (t : Nat)
  /-- `DELAY_RESP` (R403). A Delay_Resp completes a path-delay exchange. -/
  | delayResp (h : PtpHead) (own : Bool) (t2 t3 corr : Int) (rx t : Nat)
  /-- `ANNOUNCE` (R401). An Announce message enters the BMCA. -/
  | announce (h : PtpHead) (a : Ann) (t : Nat)
  /-- `ANNOUNCE_TIMEOUT` (R405). The selected master vanishes and local time free-runs. -/
  | announceTimeout (t : Nat)
  /-- `REIN_EDGE` (R417). An edge on REIN_IN makes a holding unit release the gated outputs. -/
  | reinEdge (t : Nat)
  /-- `CLAIM` (R416). REIN_IN quiet for 4 µs lets an eligible unit claim the rein and drive. -/
  | claim (t : Nat)
  /-- `REDRIVE` (R417). A UNIT_ID 0 holder drives again once REIN_IN has been quiet for 1 µs. -/
  | redrive (t : Nat)
  /-- `CONTENTION_WAIT_END` (R417). The random 10 to 100 µs wait after a contention release ends. -/
  | contentionWaitEnd (t : Nat)
  /-- `SELF_FENCE` (R418). A fence cause makes a unit release the gated outputs and enter FENCED. -/
  | selfFence (cause t : Nat)
  /-- `MIRROR` (R425). A MIRROR frame delivers closed input samples to the standby. -/
  | mirror (f : TethIn) (bad : Bool) (t : Nat)
  /-- `SCHED` (R426). A SCHED frame delivers schedule records to the standby. -/
  | sched (f : TethIn) (bad : Bool) (t : Nat)
  /-- `CMDLOG` (R443). A CMDLOG frame delivers an accepted command that the standby applies at its commit slot. -/
  | cmdlog (f : TethIn) (bad : Bool) (t : Nat)
  /-- `SNAP` (R434). A SNAP frame delivers a state page during resync. -/
  | snap (f : TethIn) (bad : Bool) (t : Nat)
  /-- `DIGEST` (R429). A DIGEST frame is compared with the standby's own digest of the folio. -/
  | digest (f : TethIn) (bad : Bool) (t : Nat)
  /-- `CONTROL` (R424). A CONTROL frame carries keep-alive, NAK, handover or resync requests. -/
  | control (f : TethIn) (bad : Bool) (t : Nat)
  /-- `FORWARD` (R441). A FORWARD frame carries a command or reply to or from the peer. -/
  | forward (f : TethIn) (bad : Bool) (t : Nat)
  /-- `CLOCK_MARKER` (R421). A received clock marker is timestamped as reference 4. -/
  | clockMarker (mt t : Nat)
  /-- `TETHER_DOWN` (R424). No valid frame for 100 µs, or a NAK beyond the buffer, takes the Tether down. -/
  | tetherDown (t : Nat)
  /-- `LANE_FAIL` (R420). One Tether lane fails and the link continues at half rate. -/
  | laneFail (lane t : Nat)
  /-- `RESYNC_PASS_END` (R434). A snapshot pass ends and the next pass or cutover starts. -/
  | resyncPassEnd (pages : List SnapPage) (left t : Nat)
  /-- `CUTOVER` (R435). The active cuts over at the next tick, sending the remaining pages and starting mirroring. -/
  | cutover (pages : List SnapPage) (c t : Nat)
  /-- `RESYNC_FAIL` (R436). A resync attempt fails and phase 2 restarts or the unit becomes UNSYNC. -/
  | resyncFail (t : Nat)
  /-- `HANDOVER_SWAP` (R438). At b the outgoing unit releases and the incoming unit drives the gated outputs. -/
  | handoverSwap (t : Nat)
  /-- `POR_RISE` (R666). POR_N rises after strap sampling and the device enters BOOT or HALT. -/
  | porRise (pairEn : Bool) (unitId twiAddr bootSrc t : Nat)
  /-- `COLD_RESET` (R604). POR_N low resets everything but OTP, MRAM and flash. -/
  | coldReset (t : Nat)
  /-- `WARM_RESET` (R604). A warm reset resets all domains but AON and SAFE and reboots. -/
  | warmReset (cause t : Nat)
  /-- `WATCHDOG_TIMEOUT` (R605). The control-core watchdog expires and resets CTRL or escalates to a warm reset. -/
  | watchdogTimeout (t : Nat)
  /-- `BOOT` (R607). The boot ROM reads OTP, chooses and verifies firmware, trains DRAM and starts firmware. -/
  | boot (trained : Bool) (t : Nat)
  /-- `SCENE_RESTORE` (R613). In LOAD firmware replays the journal and enters the resume mode. -/
  | sceneRestore (t : Nat)
  /-- `REF_WAIT_EXPIRY` (R614). REF_WAIT expires before the reference qualifies and RENDER is entered unaligned. -/
  | refWaitExpiry (t : Nat)
  /-- `RENDER_ENTRY` (R22). The device enters RENDER at a folio tick and starts capturing the next folio. -/
  | renderEntry (t : Nat)
  /-- `SAFE_ENTRY` (R601). A SAFE cause drives SAFE_N low, sets the safe mask and turns domains OFF. -/
  | safeEntry (cause t : Nat)
  /-- `TEMP_WARN` (R601). The junction reaches 105 °C and a warning is logged. -/
  | tempWarn (temp : Int) (t : Nat)
  /-- `TEMP_SAFE` (R601). The junction reaches 115 °C, a SAFE cause. -/
  | tempSafe (temp : Int) (t : Nat)
  /-- `FAULT_ENTRY` (R602). No bootable image or repeated watchdog warm resets enter FAULT. -/
  | faultEntry (t : Nat)
  /-- `HALT_WAKE` (R603). A wake source leaves HALT with a warm reset. -/
  | haltWake (src t : Nat)
  /-- `RTC_ALARM` (R631). The RTC matches its alarm, waking from HALT when enabled. -/
  | rtcAlarm (t : Nat)
  /-- `SUPPLY_LOSS` (R670). A supply monitor detects a supply out of range. -/
  | supplyLoss (t : Nat)
  /-- `RET_TIMER` (R628). An idle domain reaches RET_US and enters RET. -/
  | retTimer (d t : Nat) (act : Bool)
  /-- `OFF_TIMER` (R628). A domain in RET reaches OFF_MS and enters OFF. -/
  | offTimer (d t : Nat)
  /-- `DOMAIN_WAKE` (R630). A ticket, request or wake source returns a domain to ON. -/
  | domainWake (d src t : Nat)
  /-- `DRAIN_COMPLETE` (R635). A draining domain falls idle and enters the commanded state. -/
  | drainComplete (t : Nat)
  /-- `DRAIN_TIMEOUT` (R635). A drain exceeds DRAIN_TIMEOUT and the command is refused with REFUSED_BUSY_DOMAIN. -/
  | drainTimeout (t : Nat)
  /-- `RESTORATION_DONE` (R632). Firmware restores a woken domain's registers and it reads ON. -/
  | restorationDone (d t : Nat)
  /-- `SPINE_TRANSACTION` (R514). A Spine master issues a read or write transaction, arbitrated at its target. -/
  | spineTransaction (x : SpineReq) (t : Nat)
  /-- `MASTER_DRAIN_DONE` (R524). A reset master's outstanding transactions reach zero. -/
  | masterDrainDone (m t : Nat)
  /-- `BIT_SET_WRITE` (R543). A write through the bit-set alias ORs data into memory atomically. -/
  | bitSetWrite (m a : Nat) (data : List Byte) (strobes : List Bool) (t : Nat)
  /-- `BIT_CLEAR_WRITE` (R543). A write through the bit-clear alias clears bits in memory atomically. -/
  | bitClearWrite (m a : Nat) (data : List Byte) (strobes : List Bool) (t : Nat)
  /-- `GROOMER_STEP` (R535). The Groomer saves, March-tests and restores one region. -/
  | groomerStep (ue : List (Nat × Nat)) (rows : List Nat) (t : Nat)
  /-- `GROOMER_ABORT` (R537). A demand access to a borrowed region aborts the step and restores it. -/
  | groomerAbort (t : Nat)
  /-- `GROOMER_RETRY` (R537). The BACKOFF delay expires and the aborted step is retried. -/
  | groomerRetry (ue : List (Nat × Nat)) (rows : List Nat) (t : Nat)
  /-- `ROW_REPAIR` (R540). A listed SRAM row is copied to a spare and remapped. -/
  | rowRepair (bank row t : Nat)
  /-- `ROW_RETIRE` (R556). A listed DRAM row is copied to a pool row and remapped. -/
  | rowRetire (chan bank row t : Nat)
  /-- `REFRESH` (R559). A per-bank refresh is issued. -/
  | refresh (chan bank t : Nat)
  /-- `SELF_REFRESH_ENTRY` (R561). The DRAM idle timer expires and the controller enters self-refresh. -/
  | selfRefreshEntry (abort : Bool) (t : Nat)
  /-- `SELF_REFRESH_EXIT` (R561). A request held during self-refresh causes exit. -/
  | selfRefreshExit (t : Nat)
  /-- `CALIBRATION` (R564). Periodic ZQ and DQS calibration of a channel runs. -/
  | calibration (chan : Nat) (forced : Bool) (outs t : Nat)
  /-- `DRAM_THERMAL` (R562). DRAM temperature drops or restores the set point automatically. -/
  | dramThermal (temp : Int) (t : Nat)
  /-- `DRAM_FAILURE` (R558). An unrepairable DRAM failure enters SAFE. -/
  | dramFailure (cause t : Nat)
  /-- `PROBE_GROUP_BOUNDARY` (R271). Media time reaches a multiple of INTEG_S·fs and the next probe group starts. -/
  | probeGroupBoundary (mt t : Nat)
  /-- `AUTOTRIM_STEP` (R275). A trim section moves 0.05 dB toward its target no sooner than 30 s after its last step. -/
  | autotrimStep (o q t : Nat)
  /-- `SILENCE_ENTER` (R209). An output or watched bus stays below threshold for HOLD and becomes silent. -/
  | silenceEnter (d k t : Nat)
  /-- `EQ_CROSSFADE_END` (R194). A section crossfade ends and any queued change starts. -/
  | eqCrossfadeEnd (o q t : Nat)
  /-- `SWAP_GROUP_PHASE` (R242). A FIR swap group moves from lead-in to crossfade or finishes its crossfade. -/
  | swapGroupPhase (t : Nat)
  /-- `HISTORY_WAIT_END` (R243). A swap group waiting for long-class history starts its lead-in. -/
  | historyWaitEnd (t : Nat)
  /-- `D1_HOLDOVER` (R283). The D1 reference is disqualified and D1 holds over. -/
  | d1Holdover (t : Nat)
  /-- `BRIDGE_SLIP` (R297). An unlocked bridge's deviation exceeds 16 samples and it is re-centred. -/
  | bridgeSlip (k t : Nat)
  /-- `PMC_SNAP_PIN` (R653). A rising edge on PMC_SNAP_IN triggers a snapshot. -/
  | pmcSnapPin (t : Nat)
  /-- `PMC_MATCH` (R653). PTP local time reaches PMC_MATCH and triggers a snapshot. -/
  | pmcMatch (t : Nat)
  /-- `COUNTER_WRAP` (R650). A 48-bit counter wraps, setting its sticky bit or carrying into its chained partner. -/
  | counterWrap (k t : Nat)
  /-- `BANDWIDTH_WINDOW` (R656). A bandwidth window ends and every port's byte count is written. -/
  | bandwidthWindow (t : Nat)
  /-- `JTAG_CHALLENGE` (R617). CHALLENGE shifts out 32 random bytes and the UID. -/
  | jtagChallenge (rnd : List Byte) (t : Nat)
  /-- `JTAG_RESPONSE` (R617). RESPONSE checks a signature over the challenge and opens debug on success. -/
  | jtagResponse (bytes : List Byte) (t : Nat)
  /-- `GPIO_EDGE` (R619). A filtered GPIO level changes on a selected edge. -/
  | gpioEdge (k : Nat) (level : Bool) (t : Nat)
  /-- `MEDIA_TIME_LO_READ` (R31). Reading SYS_MEDIA_TIME_LO latches the high half. -/
  | mediaTimeLoRead (t : Nat)
  /-- `OMS_OBJ_SEL` (R67). Writing a slot latches its status and activation time. -/
  | omsObjSel (v t : Nat)
  /-- `GEO_SPK_SEL` (R116). Writing a speaker index latches its status. -/
  | geoSpkSel (v t : Nat)
  /-- `FAB_OBJ_SEL` (R183). Writing a slot latches its bulk delay and span. -/
  | fabObjSel (v t : Nat)
  /-- `FAB_CLAMP_LAST_READ` (R182). Reading FAB_CLAMP_LAST returns and clears the register. -/
  | fabClampLastRead (t : Nat)
  /-- `OUT_MON_SEL` (R214). Writing an output latches and restarts its gain and peak measurements. -/
  | outMonSel (v t : Nat)
  /-- `CONV_OUT_SEL` (R251). Writing an output latches its convolution status and tap counts. -/
  | convOutSel (v t : Nat)
  /-- `TXTS_POP` (R351). Reading MACx_TXTS_W0 pops the oldest timestamp entry. -/
  | txtsPop (m t : Nat)
  /-- `MAC_STAT_READ` (R357). Reading MACx_STAT_LO latches the high half and clears the counter. -/
  | macStatRead (m k t : Nat)
  /-- `MAC_RULE_GO` (R344). Writing MACx_RULE_COMMIT.GO swaps in the staged rules. -/
  | macRuleGo (m t : Nat)
  /-- `MDIO_GO` (R355). Writing MACx_MDIO.GO starts an MDIO frame. -/
  | mdioGo (v t : Nat)
  /-- `CLK_DCO_LO_READ` (R397). Reading CLK_DCO_LO latches the high half of the DCO word. -/
  | clkDcoLoRead (t : Nat)
  /-- `PTP_TIME_NS_READ` (R410). Reading PTP_TIME_NS latches the seconds of the same instant. -/
  | ptpTimeNsRead (t : Nat)
  /-- `SPN_ERRLOG_POP` (R523). Reading SPN_ERRLOG pops the oldest Spine error entry. -/
  | spnErrlogPop (t : Nat)
  /-- `MEM_ERRLOG_POP` (R546). Reading MEM_ERRLOG pops the oldest memory error entry. -/
  | memErrlogPop (t : Nat)
  /-- `MEM_BANK_SEL` (R546). Writing a bank ID latches its status. -/
  | memBankSel (v t : Nat)
  /-- `DMC_ERRLOG_POP` (R566). Reading DMC_ERRLOG pops the oldest DRAM error entry. -/
  | dmcErrlogPop (t : Nat)
  /-- `PWR_RTC_LO_READ` (R639). Reading PWR_RTC_LO latches the high half of the RTC. -/
  | pwrRtcLoRead (t : Nat)
  /-- `PMC_CNT_LO_READ` (R649). Reading PMC_CNT_LO latches the high half, or the whole chained pair. -/
  | pmcCntLoRead (k t : Nat)
  /-- `PMC_SNAP_LO_READ` (R653). Reading PMC_SNAP_LO latches the snapshot high half. -/
  | pmcSnapLoRead (k t : Nat)
  /-- `PMC_SEL_WRITE` (R652). Writing PMC_SEL pauses the counter for a cycle and clears it when CLR is 1. -/
  | pmcSelWrite (k v t : Nat)
  /-- `PMC_MMASK_WRITE` (R652). Writing PMC_MMASK pauses the counter for a cycle. -/
  | pmcMmaskWrite (k v t : Nat)
  /-- `CLR_ALL` (R652). PMC_CTL.CLR_ALL clears every counter and sticky bit in one cycle. -/
  | clrAll (t : Nat)
  /-- `RUN` (R655). PMC_CTL.RUN resumes counting from the next cycle. -/
  | run (t : Nat)
  /-- `FREEZE` (R655). PMC_CTL.FREEZE freezes the counters from the next cycle. -/
  | freeze (t : Nat)
  /-- `SNAP_TRIGGER` (R653). PMC_CTL.SNAP copies every counter and local time into the snapshot registers. -/
  | snapTrigger (t : Nat)
  /-- `GPIO_SET` (R620). Writing GPIO_SET sets the named bits of GPIO_OUT. -/
  | gpioSet (v t : Nat)
  /-- `GPIO_CLR` (R620). Writing GPIO_CLR clears the named bits of GPIO_OUT. -/
  | gpioClr (v t : Nat)
  /-- `W1C_WRITE` (R9). Writing 1 to a W1C bit clears it unless hardware sets it in the same cycle. -/
  | w1cWrite (a v hw t : Nat)
  /-- `RC_READ` (R9). Reading an RC register returns its value and clears it. -/
  | rcRead (access : RcAccess) (t : Nat)
  /-- `REGISTER_WRITE` (R7). A write to a register without behaviour of its own sets its writable fields or is a decode error. -/
  | registerWrite (m a n v t : Nat)
  /-- `TETHER_UP` (R420). Both Tether lanes regain block lock and alignment, the link comes up (or a failed lane returns) and framing restarts from sequence 0. -/
  | tetherUp (rtt t : Nat)
  /-- `XO_RETURN` (R394). XO_IN gives edges again within 2 % of nominal, so frequency measurements unfreeze and the internal clocks and the bypass PLL go back to the XO. -/
  | xoReturn (t : Nat)
  /-- `DELAY_REQ_INTERVAL` (R401). The PTP delay interval expires and the engine sends a Delay_Req or Pdelay_Req, counted in PTP_DELAY_TX. -/
  | delayReqInterval (ts : Option Nat) (t : Nat)
  /-- `SYNC_INTERVAL` (R402). While the port holds the master role, its sync and announce intervals expire and it sends Sync, Follow_Up and Announce. -/
  | syncInterval (t : Nat)
  /-- `KEEP_ALIVE` (R424). Ten microseconds pass since the unit's last CONTROL frame and it sends a keep-alive CONTROL frame to the peer. -/
  | keepAlive (t : Nat)
  /-- `PEER_READY_LAPSE` (R418). No CONTROL frame has arrived for 50 µs, so the peer stops being ready and TTH_IRQ_STAT.PEER is set. -/
  | peerReadyLapse (t : Nat)
  /-- `D1_BLOCK_BOUNDARY` (R282). F samples of the D1 clock (or of D2 while it follows D1) complete a block, which starts that domain's mixer, bridge and port block work. -/
  | d1BlockBoundary (block : D1Block) (t : Nat)
  /-- `MDIO_FRAME_DONE` (R355). An MDIO frame started by MACx_MDIO.GO finishes at 2.5 MHz; GO clears and DATA holds the value read. -/
  | mdioFrameDone (data t : Nat)
  /-- `REFRESH_WINDOW` (R560). A bank's refresh window begins, clearing its row activation counts and ending any row-hammer throttle whose windows have run out. -/
  | refreshWindow (chan bank t : Nat)
  /-- `CONFIGURATION_PHASE_DONE` (R434). The resyncing unit finishes applying the active's journal and loading its images, and resync moves to the state phase. -/
  | configurationPhaseDone (recs : List JRec) (store : List Image) (t : Nat)
  /-- `CTRL_RESTART` (R604). After a CTRL domain reset the control cores reload the verified firmware from reserved DRAM, within 200 ms, and commands are answered again. -/
  | ctrlRestart (t : Nat)
  /-- `TEST_EN_CHANGE` (R617). TEST_EN changes level, putting every domain but AON in reset and the pins under boundary scan, or releasing them. -/
  | testEnChange (level : Bool) (t : Nat)
  deriving DecidableEq, Repr

end Sys2Proof
end

