-- ==== Sys2Proof/Decode.lean ====
section
/-!
DEFINITION. The command a word spells by the command table's bits. The table gives no row any bits, so no word spells
a command.
-/

namespace Sys2Proof

/-- The command table gives no row a bit layout: a word of `nbits` bits spells no command. -/
def decodeTableWord (_nbits _w : Nat) : Option Instr := none

end Sys2Proof
end

