-- ==== Sys2Proof/Machine/Bits.lean ====
section
/-!
DEFINITION. Bit fields, two's complement, saturation, rounding (R6), byte order (R7, R578: little-endian) and the
sparse tables.
-/

namespace Sys2Proof.Machine

/-! ### Numbers -/

/-- The signed value of the low `w` bits of `n`. -/
def toS (w n : Nat) : Int :=
  let m := n % 2 ^ w
  if m < 2 ^ (w - 1) then (m : Int) else (m : Int) - 2 ^ w

/-- The low `w` bits of a signed value. -/
def ofS (w : Nat) (x : Int) : Nat := (x % (2 ^ w : Int)).toNat

/-- Clamp into `[lo, hi]`. -/
def clampI (lo hi x : Int) : Int := max lo (min hi x)

/-- Saturate to a signed `w`-bit value. -/
def satS (w : Nat) (x : Int) : Int := clampI (-(2 ^ (w - 1) : Int)) (2 ^ (w - 1) - 1) x

/-- Saturate to an unsigned `w`-bit value. -/
def satU (w : Nat) (n : Nat) : Nat := min n (2 ^ w - 1)

/-- `x / d` rounded to nearest, ties away from zero (R6). -/
def rndDiv (x : Int) (d : Nat) : Int :=
  if 0 ≤ x then ((2 * x.toNat + d) / (2 * d) : Nat) else -(((2 * (-x).toNat + d) / (2 * d) : Nat) : Int)

/-- `x / 2^k` rounded to nearest, ties away from zero. -/
def rndShr (x : Int) (k : Nat) : Int := rndDiv x (2 ^ k)

/-- `⌈a / b⌉`. -/
def ceilDiv (a b : Nat) : Nat := (a + b - 1) / b

/-- Integer square root by bit-wise search below `2^(k)`. -/
def isqrtAux (n : Nat) : Nat → Nat → Nat
  | 0, r => r
  | k + 1, r =>
    let c := r + 2 ^ k
    isqrtAux n k (if c * c ≤ n then c else r)

/-- `⌊√n⌋`. -/
def isqrt (n : Nat) : Nat := isqrtAux n (n.log2 / 2 + 1) 0

/-- Bit `k` of `n`. -/
def bitN (n k : Nat) : Bool := n.testBit k

/-- Bits `hi:lo` of `n`. -/
def bitsN (n hi lo : Nat) : Nat := n / 2 ^ lo % 2 ^ (hi - lo + 1)

/-- `n` with bits `hi:lo` replaced by `v`. -/
def setBitsN (n hi lo v : Nat) : Nat :=
  n - bitsN n hi lo * 2 ^ lo + (v % 2 ^ (hi - lo + 1)) * 2 ^ lo

/-- `n` with bit `k` set to `b`. -/
def setBitN (n k : Nat) (b : Bool) : Nat := setBitsN n k k (if b then 1 else 0)

/-- 1 for true. -/
def b2n (b : Bool) : Nat := if b then 1 else 0

/-- Bit positions below `w` set in `n`, rising. -/
def bitsOf (w n : Nat) : List Nat := (List.range w).filter (fun k => n.testBit k)

/-! ### Bytes -/

/-- `k` bytes of `n`, least significant first. -/
def leBytes : Nat → Nat → List Byte
  | 0, _ => []
  | k + 1, n => BitVec.ofNat 8 n :: leBytes k (n / 256)

/-- `k` bytes of `n`, most significant first. -/
def beBytes (k n : Nat) : List Byte := (leBytes k n).reverse

/-- The value of bytes, least significant first. -/
def leVal : List Byte → Nat
  | [] => 0
  | b :: bs => b.toNat + 256 * leVal bs

/-- The value of bytes, most significant first. -/
def beVal (bs : List Byte) : Nat := leVal bs.reverse

/-- `len` bytes from offset `off`; bytes past the end read 0. -/
def slice (bs : List Byte) (off len : Nat) : List Byte :=
  let r := (bs.drop off).take len
  r ++ List.replicate (len - r.length) 0#8

def u8 (bs : List Byte) (off : Nat) : Nat := leVal (slice bs off 1)
def u16 (bs : List Byte) (off : Nat) : Nat := leVal (slice bs off 2)
def u24 (bs : List Byte) (off : Nat) : Nat := leVal (slice bs off 3)
def u32 (bs : List Byte) (off : Nat) : Nat := leVal (slice bs off 4)
def u48 (bs : List Byte) (off : Nat) : Nat := leVal (slice bs off 6)
def u64 (bs : List Byte) (off : Nat) : Nat := leVal (slice bs off 8)
def i16 (bs : List Byte) (off : Nat) : Int := toS 16 (u16 bs off)
def i32 (bs : List Byte) (off : Nat) : Int := toS 32 (u32 bs off)
def i64 (bs : List Byte) (off : Nat) : Int := toS 64 (u64 bs off)
def be16 (bs : List Byte) (off : Nat) : Nat := beVal (slice bs off 2)
def be32 (bs : List Byte) (off : Nat) : Nat := beVal (slice bs off 4)
def be48 (bs : List Byte) (off : Nat) : Nat := beVal (slice bs off 6)

/-- Whether bytes `off … off+len-1` are all 0. -/
def zeroAt (bs : List Byte) (off len : Nat) : Bool := (slice bs off len).all (· == 0#8)

/-- A byte of an integer. -/
def by1 (n : Nat) : List Byte := leBytes 1 n
def by2 (n : Nat) : List Byte := leBytes 2 n
def by4 (n : Nat) : List Byte := leBytes 4 n
def by8 (n : Nat) : List Byte := leBytes 8 n
def si2 (x : Int) : List Byte := leBytes 2 (ofS 16 x)
def si4 (x : Int) : List Byte := leBytes 4 (ofS 32 x)

/-! ### Sparse tables -/

/-- The value listed at `k`. -/
def Tab.look {α : Type} : Tab α → Nat → Option α
  | [], _ => none
  | (j, v) :: t, k => if j = k then some v else Tab.look t k

/-- The value at `k`, or the default. -/
def Tab.at {α : Type} (t : Tab α) (d : α) (k : Nat) : α := (Tab.look t k).getD d

/-- List `v` at `k`, keeping the keys rising. -/
def Tab.put {α : Type} : Tab α → Nat → α → Tab α
  | [], k, v => [(k, v)]
  | (j, w) :: t, k, v =>
    if k < j then (k, v) :: (j, w) :: t
    else if k = j then (k, v) :: t
    else (j, w) :: Tab.put t k v

/-- List nothing at `k`. -/
def Tab.del {α : Type} (t : Tab α) (k : Nat) : Tab α := t.filter (fun e => e.1 != k)

/-- List `v` at `k`, or nothing where `v` is the default: the canonical form. -/
def Tab.store {α : Type} [DecidableEq α] (t : Tab α) (d : α) (k : Nat) (v : α) : Tab α :=
  if v = d then Tab.del t k else Tab.put t k v

/-- Change the value at `k`. -/
def Tab.upd {α : Type} (t : Tab α) (d : α) (k : Nat) (f : α → α) : Tab α := Tab.put t k (f (Tab.at t d k))

/-- Fold a step over a range of indices. -/
def forRange {σ : Type} (first count : Nat) (f : Nat → σ → σ) (s : σ) : σ :=
  (List.range count).foldl (fun s k => f (first + k) s) s

/-- The element at `k` of a list, or the default. -/
def nth {α : Type} (l : List α) (k : Nat) (d : α) : α := l.getD k d

/-- Replace the element at `k`. -/
def setNth {α : Type} (l : List α) (k : Nat) (v : α) : List α := l.set k v

end Sys2Proof.Machine
end

