-- ==== Sys2Proof/Machine/Crypto.lean ====
section
/-!
DEFINITION. The digests and the signature the spec names: SHA-256 and HMAC-SHA-256 (R583), SHA-384 (R609), CRC-32 with
the IEEE 802.3 polynomial (R591), and the verification of an ECDSA P-384 signature (R609, R617). The algorithms
themselves are those of FIPS 180-4, RFC 2104 and FIPS 186-5, which the spec cites by name (PRESUMED, notes/assumptions/13).
-/

namespace Sys2Proof.Machine

/-- Parameters of one SHA-2 word size. -/
structure ShaP where
  w : Nat
  blk : Nat
  lenB : Nat
  rounds : Nat
  k : List Nat
  h0 : List Nat
  sA : Nat × Nat × Nat
  sE : Nat × Nat × Nat
  s0 : Nat × Nat × Nat
  s1 : Nat × Nat × Nat

/-- Rotate right in a `w`-bit word. -/
def rotr (w x n : Nat) : Nat := (x >>> n) ||| ((x <<< (w - n)) % 2 ^ w)

def shaBig (w : Nat) (r : Nat × Nat × Nat) (x : Nat) : Nat :=
  (rotr w x r.1 ^^^ rotr w x r.2.1) ^^^ rotr w x r.2.2

def shaSmall (w : Nat) (r : Nat × Nat × Nat) (x : Nat) : Nat :=
  (rotr w x r.1 ^^^ rotr w x r.2.1) ^^^ (x >>> r.2.2)

/-- The message schedule, newest word first, extended by `n` words. -/
def shaExt (P : ShaP) : Nat → List Nat → List Nat
  | 0, ws => ws
  | n + 1, ws =>
    let v := (shaSmall P.w P.s1 (nth ws 1 0) + nth ws 6 0 + shaSmall P.w P.s0 (nth ws 14 0) + nth ws 15 0) % 2 ^ P.w
    shaExt P n (v :: ws)

structure ShaSt where
  a : Nat
  b : Nat
  c : Nat
  d : Nat
  e : Nat
  f : Nat
  g : Nat
  h : Nat

def shaRound (P : ShaP) (s : ShaSt) (kw : Nat × Nat) : ShaSt :=
  let ch := (s.e &&& s.f) ^^^ ((2 ^ P.w - 1 - s.e) &&& s.g)
  let t1 := s.h + shaBig P.w P.sE s.e + ch + kw.1 + kw.2
  let maj := ((s.a &&& s.b) ^^^ (s.a &&& s.c)) ^^^ (s.b &&& s.c)
  let t2 := shaBig P.w P.sA s.a + maj
  ⟨(t1 + t2) % 2 ^ P.w, s.a, s.b, s.c, (s.d + t1) % 2 ^ P.w, s.e, s.f, s.g⟩

/-- Split bytes into big-endian words. -/
def shaWords (n k : Nat) (bs : List Byte) : List Nat :=
  (List.range n).map (fun i => beVal (slice bs (i * k) k))

def shaBlock (P : ShaP) (h : List Nat) (blk : List Byte) : List Nat :=
  let ws := (shaExt P (P.rounds - 16) (shaWords 16 (P.w / 8) blk).reverse).reverse
  let s := (P.k.zip ws).foldl (shaRound P)
    ⟨nth h 0 0, nth h 1 0, nth h 2 0, nth h 3 0, nth h 4 0, nth h 5 0, nth h 6 0, nth h 7 0⟩
  ([s.a, s.b, s.c, s.d, s.e, s.f, s.g, s.h].zip h).map (fun p => (p.1 + p.2) % 2 ^ P.w)

def shaPad (P : ShaP) (m : List Byte) : List Byte :=
  let l := m.length
  let z := (2 * P.blk - 1 - P.lenB - l % P.blk) % P.blk
  m ++ [0x80#8] ++ List.replicate z 0#8 ++ beBytes P.lenB (8 * l)

def shaRun (P : ShaP) (m : List Byte) : List Nat :=
  let p := shaPad P m
  (List.range (p.length / P.blk)).foldl (fun h i => shaBlock P h (slice p (i * P.blk) P.blk)) P.h0

def sha256P : ShaP where
  w := 32
  blk := 64
  lenB := 8
  rounds := 64
  k :=
   [0x428A2F98, 0x71374491, 0xB5C0FBCF, 0xE9B5DBA5, 0x3956C25B, 0x59F111F1, 0x923F82A4, 0xAB1C5ED5,
   0xD807AA98, 0x12835B01, 0x243185BE, 0x550C7DC3, 0x72BE5D74, 0x80DEB1FE, 0x9BDC06A7, 0xC19BF174,
   0xE49B69C1, 0xEFBE4786, 0x0FC19DC6, 0x240CA1CC, 0x2DE92C6F, 0x4A7484AA, 0x5CB0A9DC, 0x76F988DA,
   0x983E5152, 0xA831C66D, 0xB00327C8, 0xBF597FC7, 0xC6E00BF3, 0xD5A79147, 0x06CA6351, 0x14292967,
   0x27B70A85, 0x2E1B2138, 0x4D2C6DFC, 0x53380D13, 0x650A7354, 0x766A0ABB, 0x81C2C92E, 0x92722C85,
   0xA2BFE8A1, 0xA81A664B, 0xC24B8B70, 0xC76C51A3, 0xD192E819, 0xD6990624, 0xF40E3585, 0x106AA070,
   0x19A4C116, 0x1E376C08, 0x2748774C, 0x34B0BCB5, 0x391C0CB3, 0x4ED8AA4A, 0x5B9CCA4F, 0x682E6FF3,
   0x748F82EE, 0x78A5636F, 0x84C87814, 0x8CC70208, 0x90BEFFFA, 0xA4506CEB, 0xBEF9A3F7, 0xC67178F2]
  h0 :=
   [0x6A09E667, 0xBB67AE85, 0x3C6EF372, 0xA54FF53A, 0x510E527F, 0x9B05688C, 0x1F83D9AB, 0x5BE0CD19]
  sA := (2, 13, 22)
  sE := (6, 11, 25)
  s0 := (7, 18, 3)
  s1 := (17, 19, 10)

def sha384P : ShaP where
  w := 64
  blk := 128
  lenB := 16
  rounds := 80
  k :=
   [0x428A2F98D728AE22, 0x7137449123EF65CD, 0xB5C0FBCFEC4D3B2F, 0xE9B5DBA58189DBBC, 0x3956C25BF348B538,
   0x59F111F1B605D019, 0x923F82A4AF194F9B, 0xAB1C5ED5DA6D8118, 0xD807AA98A3030242, 0x12835B0145706FBE,
   0x243185BE4EE4B28C, 0x550C7DC3D5FFB4E2, 0x72BE5D74F27B896F, 0x80DEB1FE3B1696B1, 0x9BDC06A725C71235,
   0xC19BF174CF692694, 0xE49B69C19EF14AD2, 0xEFBE4786384F25E3, 0x0FC19DC68B8CD5B5, 0x240CA1CC77AC9C65,
   0x2DE92C6F592B0275, 0x4A7484AA6EA6E483, 0x5CB0A9DCBD41FBD4, 0x76F988DA831153B5, 0x983E5152EE66DFAB,
   0xA831C66D2DB43210, 0xB00327C898FB213F, 0xBF597FC7BEEF0EE4, 0xC6E00BF33DA88FC2, 0xD5A79147930AA725,
   0x06CA6351E003826F, 0x142929670A0E6E70, 0x27B70A8546D22FFC, 0x2E1B21385C26C926, 0x4D2C6DFC5AC42AED,
   0x53380D139D95B3DF, 0x650A73548BAF63DE, 0x766A0ABB3C77B2A8, 0x81C2C92E47EDAEE6, 0x92722C851482353B] ++
   [0xA2BFE8A14CF10364, 0xA81A664BBC423001, 0xC24B8B70D0F89791, 0xC76C51A30654BE30, 0xD192E819D6EF5218,
   0xD69906245565A910, 0xF40E35855771202A, 0x106AA07032BBD1B8, 0x19A4C116B8D2D0C8, 0x1E376C085141AB53,
   0x2748774CDF8EEB99, 0x34B0BCB5E19B48A8, 0x391C0CB3C5C95A63, 0x4ED8AA4AE3418ACB, 0x5B9CCA4F7763E373,
   0x682E6FF3D6B2B8A3, 0x748F82EE5DEFB2FC, 0x78A5636F43172F60, 0x84C87814A1F0AB72, 0x8CC702081A6439EC,
   0x90BEFFFA23631E28, 0xA4506CEBDE82BDE9, 0xBEF9A3F7B2C67915, 0xC67178F2E372532B, 0xCA273ECEEA26619C,
   0xD186B8C721C0C207, 0xEADA7DD6CDE0EB1E, 0xF57D4F7FEE6ED178, 0x06F067AA72176FBA, 0x0A637DC5A2C898A6,
   0x113F9804BEF90DAE, 0x1B710B35131C471B, 0x28DB77F523047D84, 0x32CAAB7B40C72493, 0x3C9EBE0A15C9BEBC,
   0x431D67C49C100D4C, 0x4CC5D4BECB3E42B6, 0x597F299CFC657E2A, 0x5FCB6FAB3AD6FAEC, 0x6C44198C4A475817]
  h0 :=
   [0xCBBB9D5DC1059ED8, 0x629A292A367CD507, 0x9159015A3070DD17, 0x152FECD8F70E5939,
   0x67332667FFC00B31, 0x8EB44A8768581511, 0xDB0C2E0D64F98FA7, 0x47B5481DBEFA4FA4]
  sA := (28, 34, 39)
  sE := (14, 18, 41)
  s0 := (1, 8, 7)
  s1 := (19, 61, 6)

def sha256 (m : List Byte) : List Byte := (shaRun sha256P m).flatMap (beBytes 4)

def sha384 (m : List Byte) : List Byte := ((shaRun sha384P m).flatMap (beBytes 8)).take 48

/-- HMAC-SHA-256 under a key of at most 64 bytes (R583: keys are 32 bytes). -/
def hmacSha256 (key m : List Byte) : List Byte :=
  let k := slice key 0 64
  let x (c : Byte) := k.map (fun b => b ^^^ c)
  sha256 (x 0x5C#8 ++ sha256 (x 0x36#8 ++ m))

/-- One bit of a reflected CRC. -/
def crcBit (poly c : Nat) : Nat → Nat
  | 0 => c
  | n + 1 => crcBit poly (if c % 2 = 1 then (c / 2) ^^^ poly else c / 2) n

def crcStep (poly c : Nat) (b : Byte) : Nat := crcBit poly (c ^^^ b.toNat) 8

/-- CRC-64 of R428: reflected 0x42F0E1EBA9EA3693, initial value and final inversion all ones. -/
def crc64 (bs : List Byte) : Nat := (bs.foldl (crcStep 0xC96C5795D7870F42) (2 ^ 64 - 1)) ^^^ (2 ^ 64 - 1)

/-- CRC-32 of R591: reflected 0x04C11DB7, initial value and final inversion all ones. -/
def crc32 (bs : List Byte) : Nat := (bs.foldl (crcStep 0xEDB88320) 0xFFFFFFFF) ^^^ 0xFFFFFFFF

/-! ### ECDSA over P-384 -/

def p384p : Nat := 2 ^ 384 - 2 ^ 128 - 2 ^ 96 + 2 ^ 32 - 1
def p384n : Nat := 0xFFFFFFFFFFFFFFFFFFFFFFFFFFFFFFFFFFFFFFFFFFFFFFFFC7634D81F4372DDF581A0DB248B0A77AECEC196ACCC52973
def p384b : Nat := 0xB3312FA7E23EE7E4988E056BE3F82D19181D9C6EFE8141120314088F5013875AC656398D8A2ED19D2A85C8EDD3EC2AEF
def p384g : Nat × Nat :=
  (0xAA87CA22BE8B05378EB1C71EF320AD746E1D3B628BA79B9859F741E082542A385502F25DBF55296C3A545E3872760AB7,
   0x3617DE4A96262C6F5D9E98BF9292DC29F8F41DBD289A147CE9DA3113B5F0B8C00A60B1CE1D7E819D7A431D7C90EA0E5F)

/-- `a^e mod m`, by the low `k` bits of `e`. -/
def powMod (m : Nat) : Nat → Nat → Nat → Nat
  | 0, _, _ => 1 % m
  | k + 1, a, e =>
    let r := powMod m k (a * a % m) (e / 2)
    if e % 2 = 1 then a * r % m else r

/-- Inverse modulo a prime (Fermat). -/
def invMod (m a : Nat) : Nat := powMod m 384 (a % m) (m - 2)

/-- A point in Jacobian coordinates, `x = X / Z²` and `y = Y / Z³`; `Z` is 0 at infinity. -/
structure EcPt where
  x : Nat
  y : Nat
  z : Nat

def ecInf : EcPt := ⟨1, 1, 0⟩

/-- `a − b` modulo the prime, of reduced numbers. -/
def ecSub (a b : Nat) : Nat := (a + p384p - b) % p384p

def ecDbl (q : EcPt) : EcPt :=
  let yy := q.y * q.y % p384p
  let zz := q.z * q.z % p384p
  let s := 4 * q.x * yy % p384p
  let m := 3 * ecSub q.x zz * (q.x + zz) % p384p
  let x := ecSub (m * m % p384p) (2 * s % p384p)
  ⟨x, ecSub (m * ecSub s x % p384p) (8 * yy * yy % p384p), 2 * q.y * q.z % p384p⟩

def ecAdd (q r : EcPt) : EcPt :=
  if q.z = 0 then r
  else if r.z = 0 then q
  else
    let zq := q.z * q.z % p384p
    let zr := r.z * r.z % p384p
    let u := q.x * zr % p384p
    let t := q.y * zr * r.z % p384p
    let h := ecSub (r.x * zq % p384p) u
    let d := ecSub (r.y * zq * q.z % p384p) t
    if h = 0 then (if d = 0 then ecDbl q else ecInf)
    else
      let hh := h * h % p384p
      let v := u * hh % p384p
      let c := h * hh % p384p
      let x := ecSub (ecSub (d * d % p384p) c) (2 * v % p384p)
      ⟨x, ecSub (d * ecSub v x % p384p) (t * c % p384p), h * q.z * r.z % p384p⟩

/-- `e · q`, by the low `k` bits of `e`. -/
def ecMul : Nat → Nat → EcPt → EcPt
  | 0, _, _ => ecInf
  | k + 1, e, q =>
    let r := ecMul k (e / 2) (ecDbl q)
    if e % 2 = 1 then ecAdd q r else r

def ecOnCurve (q : Nat × Nat) : Bool :=
  q.1 < p384p && q.2 < p384p &&
    (q.2 * q.2) % p384p == (q.1 * q.1 * q.1 + (p384p - 3) * q.1 + p384b) % p384p

/-- Verification of a signature `(r, s)` by the public key `q` over a digest (the leftmost 384 bits, here all). -/
def ecdsaVerify (q : Nat × Nat) (dig : List Byte) (r s : Nat) : Bool :=
  if ecOnCurve q && decide (0 < r) && decide (r < p384n) && decide (0 < s) && decide (s < p384n) then
    let w := invMod p384n s
    let p := ecAdd (ecMul 384 (beVal dig * w % p384n) ⟨p384g.1, p384g.2, 1⟩) (ecMul 384 (r * w % p384n) ⟨q.1, q.2, 1⟩)
    let i := invMod p384p p.z
    p.z != 0 && p.x * (i * i % p384p) % p384p % p384n == r
  else false

end Sys2Proof.Machine
end

