-- ==== Sys2Proof/Config.lean ====
section
/-!
DEFINITION. What the grade fuses fix (R1, R2) and the free values: constants without a body, of which no value can be
proved. A free value stands where the spec leaves a value open and the machine goes on.
-/

namespace Sys2Proof

/-- The grades of R2. The fused grade is a field of State, so a statement over all states holds for all grades. -/
inductive Grade where
  | rk8640
  | rk8620
  | rk8610
  deriving DecidableEq, Repr

namespace Config

/-- Code of `SYS_CAPS.GRADE` (R622). -/
def gradeCode : Grade → Nat
  | .rk8640 => 0
  | .rk8620 => 1
  | .rk8610 => 2

/-- Halving per grade (R2). -/
def gradeDiv : Grade → Nat
  | .rk8640 => 1
  | .rk8620 => 2
  | .rk8610 => 4

/-- Objects at 44.1/48 kHz (R2). -/
def objects (g : Grade) : Nat := 1024 / gradeDiv g
/-- Outputs at 44.1/48 kHz (R2). -/
def outputs (g : Grade) : Nat := 512 / gradeDiv g
/-- Crosspoints at 44.1/48 kHz (R2). -/
def crosspoints (g : Grade) : Nat := 32768 / gradeDiv g
/-- Render lanes (R2). -/
def lanes (g : Grade) : Nat := 16 / gradeDiv g
/-- Convolution engines (R2). -/
def convEngines (g : Grade) : Nat := 4 / gradeDiv g
/-- Geometry engines (R2). -/
def geoEngines (g : Grade) : Nat := 4 / gradeDiv g
/-- Effect cores (R2). -/
def fxCores (g : Grade) : Nat := 8 / gradeDiv g
/-- Installed DRAM in GiB (R2). -/
def dramGiB : Grade → Nat
  | .rk8640 => 8
  | _ => 4
/-- Usable DRAM in GiB (R2, R12). -/
def dramUsableGiB : Grade → Nat
  | .rk8640 => 7
  | _ => 3

/-! ### Free values -/

/-- A fresh free value: State's counter names the next one (notes/assumptions/2). -/
opaque freeValue : Nat → Nat

/-- A fresh free integer. -/
opaque freeInt : Nat → Int

/-- How far the last bit of an elementary function in binary32 lies from the correctly rounded result, of which no more than one unit
either way is used (R77; notes/assumptions/30): function, and the exact value in units of 2⁻¹⁰⁰ times a power of two. -/
opaque lastBit : Nat → Int → Int → Int

/-- Place of the frame of an object for a folio in the frame store, in units of 16 bytes: slot and folio index. -/
opaque framePlace : Nat → Nat → Nat

/-- Error of a convolution engine against the exact sum (R225), of which a bounded part is used: from the taps, the inputs that a transform
of the sample's hops takes in (newest first, to the end of the folio), the folio size, the sample's place in the longest hop, and whether
the long class runs; the engine's algorithm is not given, its bound is (notes/assumptions/36). -/
opaque convErr : List Nat → List Int → Nat → Nat → Bool → Int

/-- Place of a set's retained taps in the DRAM reserved for its output, in granules: output, set, whether of the long-scheme addition. -/
opaque tapsPlace : Nat → Nat → Bool → Nat


/-- Sign of a one in a maximum-length sequence (R264): the spec gives values ±A and not which is which. -/
opaque mlsOnePositive : Bool

/-- The pink-weighting filter of R269, unit RMS in Q5.27, over a base sequence given by how many samples ago; its coefficients are not given
(notes/assumptions/38). -/
opaque pinkWeight : (Nat → Int) → Int

/-- The form in which the programme power average of R270 is held: what the device keeps of an exact value (notes/assumptions/38). -/
opaque powerRound : Int → Int

/-- The binary32 pattern of an estimate (R266) whose exact value is `num/den`: the arithmetic is binary32 and its order is not given. The
first argument tells Re H, Im H and coherence apart (notes/assumptions/38). -/
opaque specRound : Nat → Int → Int → Nat

/-- Deviation of a band whose baseline level is zero, from its new level (R273): no value is stated. -/
opaque bandZero : Nat → Int

/-- Stages 1 to 3 of a microphone's decimation (R259), whose coefficients are not given: CIC order, preset, decimation ratio, folio size,
sample of the folio, the PDM bits by folio, newest first. -/
opaque decimate : Nat → Nat → Nat → Nat → Nat → List Nat → Int

/-- The 64-tap sum of an ASRC bridge (R296), whose coefficients are not given: channel, destination block, fade (R297), ratio,
fraction of the place between source samples, sample of the block, and the 64 source samples that it takes, newest first. -/
opaque asrc : Nat → Nat → Nat → Nat → Nat → Nat → List Int → Int

/-- MAC address of the unit on port m (R345), and its IPv4 and IPv6 addresses; the spec does not say where they come from
(notes/assumptions/39). -/
opaque unitMac : Nat → Nat
opaque unitIp : Bool → Nat → List Byte

/-- IP header words of a transmitted packet that no chapter states (identification, flags, flow label), by stream and emission
media time. -/
opaque ipWord : Nat → Nat → Nat

/-- The DPLL of R395 and the servo of R404, of which the spec gives order, bandwidth and limits: next DCO word from the last,
phase error (ns), frequency error (ppb) and bandwidth (0.01 Hz); next tracked frequency (10⁻¹²) from the last and the
master's and the local interval of a Sync pair (2⁻¹⁶ ns); size of the rate correction (10⁻¹²) for an offset (ns). -/
opaque dpllStep : Int → Int → Int → Nat → Int
opaque ptpFreq : Int → Int → Int → Int
opaque ptpCorr : Nat → Nat

/-- Where the device places an instance's allocation in a core's local memory, in 4 KiB pages below the reserved top: core, instance,
size. -/
opaque fxPlace : Nat → Nat → Nat → Nat

/-- Effect-core corners the spec leaves open (notes/assumptions/40): whether a delayed register write beats the next word's own write
of the same register; the element offset of a pointer that is no whole number of elements from its base, and of an empty
buffer. -/
opaque fxLateWins : Bool
opaque fxOdd : Int → Nat → Int

/-- clockIdentity derived from a MAC address (R402). -/
opaque clockId : Nat → Nat

/-- clockAccuracy and variance this unit announces, from its `CLK_STAT` (R402). -/
opaque ptpQuality : Nat → Nat × Nat

/-- Frame `k` of 0 to 3 with which firmware announces the pair identity (R432): gratuitous ARP, unsolicited neighbour advertisement,
IGMP report, MLD report, from the identity's MAC, IPv4 and IPv6 addresses. -/
opaque announceFrame : Nat → Nat → Nat → Nat → List Byte

end Config

end Sys2Proof
end

