-- ==== Sys2Proof/Machine/St/Base.lean ====
section
/-!
DEFINITION. State of the command ports, the event log, the modes, the fuses and the scene journal
(Command Protocol and Ports; Operating Modes, Boot and Images).
-/

namespace Sys2Proof.Machine

/-- The one-time-programmable fuses (R607, R616) and what manufacture programmed. -/
structure Otp where
  grade : Grade
  authHsp : Bool
  authTwi : Bool
  jtagLock : Bool
  dbgOff : Bool
  /-- Bit i: key index i revoked. -/
  revoke : Nat
  /-- Key hashes 0 to 3, where programmed. -/
  keyHash : Tab (List Byte)
  /-- Rollback floor thermometer, 64 fuses. -/
  floor : Nat
  uid : Nat
  deriving DecidableEq, Repr

/-- The straps sampled while `POR_N` is low (R412, R575, R607). -/
structure Straps where
  pairEn : Bool
  unitId : Nat
  twiAddr : Nat
  bootSrc : Nat
  deriving DecidableEq, Repr

/-- The firmware running and the slots it came from (R607 to R611). -/
structure Firm where
  /-- The running image's header fields: security version, compatibility level, build, key index, version word. -/
  secVer : Nat
  compat : Nat
  build : Nat
  keyIdx : Nat
  /-- SHA-384 of the copy in reserved DRAM. -/
  hash : List Byte
  /-- Slot booted: 0 A, 1 B. -/
  slot : Nat
  /-- Boot-try counts of slots A and B, in MRAM. -/
  triesA : Nat
  triesB : Nat
  /-- Boot-ROM waits on HSP (R607, R608). -/
  waitHsp : Bool
  /-- Payload length staged under R608 and verified, so that boot continues at step 5. -/
  goPending : Bool
  deriving DecidableEq, Repr

/-- The scene journal in MRAM and the image store in flash (R610, R612). -/
structure Journal where
  recs : List JRec
  store : List Image
  /-- Loaded images that the store may not hold yet; they lie in DRAM. -/
  unsaved : List Image
  /-- PTP seconds of the last save. -/
  savedAt : Nat
  /-- `SYS_JNL_CFG` in the journal's header (R623). -/
  cfg : Option Nat
  deriving DecidableEq, Repr

/-- An event-log entry (R589). -/
structure Event where
  ns : Nat
  sec : Nat
  code : Nat
  sev : Nat
  restored : Bool
  arg : Nat
  deriving DecidableEq, Repr

/-- A long operation in progress (R586): opcode, the packet that asked for it, operation-specific numbers, and whether its
success is recorded in the scene journal. -/
structure LongOp where
  opcode : Nat
  pkt : Packet
  start : Nat
  args : List Nat
  journ : Bool
  deriving DecidableEq, Repr

/-- A command whose reply waits: for the standby's acknowledgement (R441), an MDIO frame (R355), a power domain's
drain (R635) or a switchover (R438). -/
structure HeldCmd where
  opcode : Nat
  pkt : Packet
  /-- 0 standby acknowledgement, 1 MDIO, 2 drain, 3 switchover, 4 forwarded to the peer, 5 clock or DRAM change. -/
  kind : Nat
  arg : Nat
  status : Nat
  result : List Byte
  /-- Its success is yet to be recorded in the scene journal. -/
  journ : Bool
  deriving DecidableEq, Repr

/-- The last packet accepted on a port and role, and its reply once sent (R584). -/
structure LastAcc where
  nonce : Nat
  opcode : Nat
  seq : Nat
  reply : Option (List Byte)
  deriving DecidableEq, Repr

/-- A packet waiting whole in a port buffer. -/
structure RawPkt where
  src : NetSrc
  bytes : List Byte
  time : Nat
  deriving DecidableEq, Repr

/-- A reply handed to the network. -/
structure NetReply where
  dest : NetSrc
  bytes : List Byte
  deriving DecidableEq, Repr

structure CmdSt where
  /-- Role keys in MRAM, by role 0 to 2 (R583). -/
  keys : Tab (List Byte)
  /-- Highest nonce accepted per role, in MRAM (R584). -/
  nonces : Tab Nat
  /-- Last accepted packet, indexed by 4·port + role. -/
  last : Tab LastAcc
  /-- Channel-0 receive buffers of HSP, at most 2 (R573). -/
  hspRx : List RawPkt
  hspReply : Option (List Byte)
  /-- Datagrams waiting for execution, at most 8 (R574). -/
  netRx : List RawPkt
  netOut : List NetReply
  twiRx : Option RawPkt
  twiReply : Option (List Byte)
  /-- Commands that the peer has forwarded and that wait (R441). -/
  peerRx : List RawPkt
  longOp : Option LongOp
  held : Option HeldCmd
  /-- A long operation of the peer: opcode, progress, port (R586). -/
  peerBusy : Option (Nat × Nat × Nat)
  /-- `DONE` of the HSP status (R572). -/
  done : Bool
  /-- The 256 newest entries, oldest first (R589), each with its unread mark. -/
  log : List (Event × Bool)
  /-- The newest 64, in MRAM. -/
  logMram : List Event
  /-- Times of the latest `AUTH_FAIL` replies per port, newest first (R582). -/
  fails : Tab (List Nat)
  /-- Ports whose replies are suppressed, with the end time. -/
  muted : Tab Nat
  /-- Control domain in reset: no port answers (R577). -/
  ctrlDown : Bool
  deriving DecidableEq, Repr

/-- Rendering time, deadlines and the mode machinery (R14 to R25, R598 to R606). -/
structure SysSt where
  /-- `POR_N` is high. -/
  porN : Bool
  straps : Straps
  mediaTime : Nat
  /-- Media time of the latest folio tick, where one has happened. -/
  lastTick : Option Nat
  /-- Present mode was entered after leaving HALT or SAFE: the scene is restored to IDLE only (R603). -/
  idleOnly : Bool
  /-- Times of watchdog timeouts within the last 60 s, newest first (R605). -/
  wdogTimes : List Nat
  /-- Time of the last warm reset by watchdog. -/
  wdogWarm : Option Nat
  /-- Mode from which UPDATE was entered (R599). -/
  updateFrom : Nat
  /-- A transition into RENDER or MEASURE or out of them that completes at a folio tick (R600). -/
  modeAt : Option Nat
  /-- Folio whose output is due, and whether render entry is pending (R22). -/
  renderFrom : Option Nat
  /-- Media time waits for alignment in LOAD (R614): time at which `POR_N` rose. -/
  porTime : Nat
  /-- RENDER waits for the reference, as R614 says. -/
  refWait : Bool
  /-- Media time is aligned to a time-carrying reference (R398). -/
  aligned : Bool
  /-- The media clock gives no tick (R22). -/
  mediaStopped : Bool
  /-- The value the latest register read of a row returned. -/
  rdata : Nat
  /-- `TEST_EN` level. -/
  testEn : Bool
  /-- Challenge bytes outstanding on the test port (R617), and successful opening. -/
  jtagChal : Option (List Byte)
  jtagOpen : Bool
  /-- Time and bits of the latest write of `GPIO_SET` (R620). -/
  gpioSet : Option (Nat × Nat)
  firm : Firm
  deriving DecidableEq, Repr

end Sys2Proof.Machine
end

