-- ==== Sys2Proof/Machine/St/Clk.lean ====
section
/-!
DEFINITION. State of the clock references, the DPLL and the PTP engine (Clock References and Network Time).
-/

namespace Sys2Proof.Machine

structure ClkSt where
  /-- Reference followed: 0 to 5; 14 the open DPLL of R397; 15 holdover. -/
  sel : Nat
  /-- Some reference other than 5 has been followed since reset (R391), and `CLK_SEL` was written since the last evaluation. -/
  other : Bool
  dirty : Bool
  /-- Per reference 0 to 4: time of the last edge, start of the run inside the accept limit, time of qualification. -/
  edgeAt : Tab Nat
  pendAt : Tab Nat
  qualAt : Tab Nat
  /-- DCO word aimed at; the word at the instant from which a slew of R397 runs. -/
  word : Int
  slewFrom : Int
  slewAt : Nat
  /-- Words at the evaluations since the present reference was selected, newest first, at most 1000 (R393). -/
  hist : List Int
  /-- Instant of the latest evaluation outside the limits of `LOCKED`, where a reference is followed. -/
  lockAt : Nat
  /-- Phase offset still to remove, in ns (R396). -/
  pull : Nat
  /-- The internal clocks come from the backup synthesiser (R394). -/
  backup : Bool
  /-- The last `PPS_IN` edge: its time and media time. -/
  pps : Option (Nat × Nat)
  /-- The last clock marker: the active's media time and this unit's at its arrival (R421). -/
  marker : Option (Nat × Nat)
  deriving DecidableEq, Repr

/-- A foreign master: its latest Announce, the time it came, and how many have come. -/
structure Foreign where
  ann : Ann
  heard : Nat
  seen : Nat
  deriving DecidableEq, Repr

/-- A message the PTP port has sent: kind (0 Sync, 1 Delay_Req or Pdelay_Req, 8 Follow_Up, 11 Announce) and sequenceId. -/
structure PtpSent where
  kind : Nat
  seq : Nat
  deriving DecidableEq, Repr

structure PtpSt where
  /-- Local time is `base` at the instant `atNow`, advancing at 1 + rate (in 10⁻¹²). -/
  base : Nat
  atNow : Nat
  rate : Int
  /-- Tracked frequency in 10⁻¹² (R404). -/
  freq : Int
  /-- Foreign masters by source port. -/
  foreign : Tab Foreign
  master : Option Ann
  /-- sequenceId last accepted from the selected master. -/
  syncSeq : Option Nat
  /-- A two-step Sync whose Follow_Up is awaited: sequenceId, ingress timestamp, correction in 2⁻¹⁶ ns. -/
  twoStep : Option (Nat × Nat × Int)
  /-- The last two timestamps of a completed Sync: the master's and the local. -/
  lastSync : Option (Int × Nat)
  /-- sequenceId of the next request, and the request outstanding with its egress timestamp. -/
  reqSeq : Nat
  req : Option (Nat × Nat)
  /-- Path delays of the last exchanges in 2⁻¹⁶ ns, newest first, at most 16 (R403). -/
  delays : List Int
  /-- The present port is the alternate. -/
  alt : Bool
  /-- sequenceIds of Sync and Announce sent, and the messages sent. -/
  txSeq : Nat
  sent : List PtpSent
  deriving DecidableEq, Repr

end Sys2Proof.Machine
end

