-- ==== Sys2Proof/Machine/St/Fx.lean ====
section
/-!
DEFINITION. State of the effect cores and their instances (Effect Cores).
-/

namespace Sys2Proof.Machine

/-- A program bound to an instance (R449, R457, R481). -/
structure FxInst where
  core : Nat
  prio : Nat
  outBase : Nat
  /-- Inputs: kind, index, channel (R450). -/
  inputs : List (Nat × Nat × Nat)
  nout : Nat
  /-- Spine address of the allocation; its code words, initialised and zero-initialised data bytes. -/
  base : Nat
  wc : Nat
  di : Nat
  dz : Nat
  entry : Nat
  vector : Nat
  scale : Nat
  budget : Nat
  /-- Bytes of the DRAM window, 0 for none, and its base. -/
  win : Nat
  winAt : Nat
  pOff : Nat
  pLen : Nat
  pid : Nat
  /-- The first folio its tickets process, and the first they no longer do, once it is removed (R487). -/
  first : Nat
  ends : Option Nat
  /-- Its code and initialised data, until they are copied into the allocation. -/
  load : List Byte
  deriving DecidableEq, Repr

/-- A core that runs a ticket: the programmer's model of R461 and the pipeline of R472. -/
structure FxCore where
  inst : Nat
  prog : FxInst
  folio : Nat
  pc : Nat
  /-- Registers by the ID of R461, those that are not zero; accumulators, signed. -/
  regs : Tab Nat
  acc : Tab Int
  csr : Nat
  /-- Retired words (R453). -/
  cnt : Nat
  /-- Delay slots left, where the branch goes (none: it was not taken), and whether the ticket ends after them. -/
  slots : Nat
  target : Option Nat
  ending : Bool
  /-- Register writes of the last word that the next word does not see (R472). -/
  pend : List (Nat × Nat)
  /-- Interrupt causes not yet taken, and an ICMP match held for the end of a handler (R474, R475). -/
  causes : Nat
  held : Bool
  /-- Counted in `FXC_LATE`; start time; interrupts taken. -/
  late : Bool
  start : Nat
  intrs : Nat
  deriving DecidableEq, Repr

/-- A staged parameter block (R460): instance, folio of its first ticket, offset, bytes. -/
structure FxParam where
  inst : Nat
  folio : Nat
  off : Nat
  bytes : List Byte
  deriving DecidableEq, Repr

structure FxSt where
  /-- Programs of each instance, oldest first. -/
  insts : Tab (List FxInst)
  cores : Tab FxCore
  staged : List FxParam
  /-- Time of an instance's last event-log entry (R452). -/
  logged : Tab Nat
  /-- Stall cycles, of which the counter is the 1024th. -/
  stallCyc : Nat
  deriving DecidableEq, Repr

end Sys2Proof.Machine
end

