-- ==== Sys2Proof/Machine/St/Mac.lean ====
section
/-!
DEFINITION. State of the three MACs (Network Ports).
-/

namespace Sys2Proof.Machine

/-- A received frame with what the MAC passes beside it (R341): the rule matched (255 for none), the ingress timestamp in
local nanoseconds, the media time of its receipt in 1/256 sample, and when its first symbol arrived. -/
structure RxFrame where
  bytes : List Byte
  rule : Nat
  stamp : Nat
  mt : Nat
  start : Nat
  deriving DecidableEq, Repr

/-- A frame to send, without FCS: the tag under which firmware asks for its timestamp, and whether its source address is the
pair identity (R347, R351). -/
structure TxFrame where
  bytes : List Byte
  tag : Option Nat
  ident : Bool
  deriving DecidableEq, Repr

/-- What received frames ran under before a change: when it changed, the longest frame, and the words of every rule. -/
structure MacPrior where
  till : Nat
  maxLen : Nat
  rules : List (List Nat)
  deriving DecidableEq, Repr

/-- A frame in transmission: its queue, whether it had to defer, collisions so far, and when its last bit leaves; none: it waits to be
tried again. -/
structure Sending where
  q : Nat
  frame : TxFrame
  defer : Bool
  cols : Nat
  endAt : Option Nat
  deriving DecidableEq, Repr

structure MacSt where
  /-- Frames waiting for the stream engine in receive queue q of MAC m, at 32·m + q. -/
  rxq : Tab (List RxFrame)
  /-- Frames in transmit queue q, at 8·m + q. -/
  txq : Tab (List TxFrame)
  sending : Tab Sending
  /-- MACs that back off (R352). -/
  backoff : List Nat
  /-- End of the pause timer (R349). -/
  pause : Tab Nat
  /-- Timestamp FIFOs: tag and egress timestamp, oldest first (R351). -/
  txts : Tab (List (Nat × Nat))
  /-- Staged rules: six words, at 32·m + r (R344). -/
  staged : Tab (List Nat)
  /-- What frames that began before the latest changes run under, newest first (R344, R355). -/
  prior : Tab (List MacPrior)
  /-- Statistics k, at 32·m + k (R357). -/
  stats : Tab Nat
  /-- The latest frame sent, with padding and FCS. -/
  wire : Tab (List Byte)
  deriving DecidableEq, Repr

end Sys2Proof.Machine
end

