-- ==== Sys2Proof/Machine/St/Out.lean ====
section
/-!
DEFINITION. State of the output chains (Loudspeaker Output Chain) and of the convolution (Room Correction Convolution).
-/

namespace Sys2Proof.Machine

/-- Coefficients of a section in Q23.40 (R192). -/
structure Coef where
  b0 : Int
  b1 : Int
  b2 : Int
  a1 : Int
  a2 : Int
  deriving DecidableEq, Repr

/-- History of a section (R192): inputs in Q5.27, outputs in Q5.43. -/
structure Hist where
  x1 : Int
  x2 : Int
  y1 : Int
  y2 : Int
  deriving DecidableEq, Repr

/-- A section: the filter that runs (none: bypass) and, through a crossfade, the old one with its history, the folios done
and the crossfade's length (R194). -/
structure Sec where
  run : Option Coef
  hist : Hist
  old : Option (Option Coef × Hist)
  doneF : Nat
  len : Nat
  deriving DecidableEq, Repr

/-- A gain ramp (R201): its start value and polarity, folios done, length in folios. -/
structure GRamp where
  v0 : Nat
  p0 : Bool
  doneF : Nat
  len : Nat
  deriving DecidableEq, Repr

/-- State of stages 2 to 8 of one output at the end of a folio. -/
structure ChainSt where
  /-- PEQ sections 0 to 15 and trim sections 16 to 19. -/
  secs : List Sec
  /-- The group's high-pass sections in this main. -/
  hp : List Sec
  /-- Alignment line, newest first, and the delay read last. -/
  line : List Int
  delay : Nat
  /-- Gain and polarity in force, their targets, and the ramp between. -/
  gain : Nat
  pol : Bool
  gainT : Nat
  polT : Bool
  ramp : Option GRamp
  /-- Bed gain in force, its target and ramp. -/
  bed : Nat
  bedT : Nat
  bedRamp : Option GRamp
  /-- Limiter gain, its 32 newest inputs (newest first) and the look-ahead in use. -/
  lim : Nat
  xh : List Int
  look : Bool
  /-- Inputs of stage 5, newest first, as long as the longest filter needs. -/
  s4 : List Int
  /-- Stage-8 samples of the latest folio. -/
  last8 : List Int
  deriving DecidableEq, Repr

/-- An output's chain: its state, the state it will have when the folio in work completes, that folio's samples after
stages 4 and 5, and what outlives a missed folio: silence detection (R209) and monitoring (R214). -/
structure OutCh where
  cur : ChainSt
  nxt : Option ChainSt
  s5 : List Int
  silRun : Nat
  silent : Bool
  /-- The `OUT_SIL` word the detector runs under. -/
  silCfg : Nat
  /-- Folio of which the detector has judged the samples. -/
  silAt : Option Nat
  minG : Nat
  peak : Nat
  deriving DecidableEq, Repr

/-- A bass-management group (R196 to R198): low-pass sections and whether it had a sub. -/
structure BmGrp where
  lp : List Sec
  had : Bool
  deriving DecidableEq, Repr

/-- What a folio emits: samples after the fades of R206, by output and by D0 bus with a destination. `kind` is 0 where the folio itself
is emitted, 1 where the folio before it fades out in its place, 2 where zeros are emitted. -/
structure Emission where
  kind : Nat
  outs : Tab (List Int)
  buses : Tab (List Int)
  deriving DecidableEq, Repr

structure OutSt where
  ch : Tab OutCh
  bm : Tab BmGrp
  /-- The folio in work: the groups' next states and their low sums. -/
  bmNxt : Option (Nat × Tab BmGrp × Tab (List Int))
  /-- Next folio to be judged (R21), and the length of the present run of missed folios. -/
  judged : Nat
  missRun : Nat
  /-- The latest emitted folios. -/
  emit : Tab Emission
  /-- `AMP_EN` pins that outputs and buses demand from the latest tick on (R210). -/
  ampSil : Nat
  deriving DecidableEq, Repr

/-- A packed value of a set's spectra that counts as zero (R248): class (0 head, 1 256, 2 2048, 3 long), partition, packed index, and the
folio from whose samples on it was so read. -/
structure SpecZero where
  cls : Nat
  part : Nat
  idx : Nat
  since : Nat
  deriving DecidableEq, Repr

/-- A filter set (R234, R235): its ID and rate code, the retained taps as binary32 patterns, and whether it is damaged (R248): taps that its
latest transform took as zero, and values of its spectra that count as zero. -/
structure FirSet where
  id : Nat
  rate : Nat
  taps : List Nat
  damaged : Bool
  cut : List Nat
  nulls : List SpecZero
  deriving DecidableEq, Repr

/-- A value of a class's input history or results that was read as zero (R248). Kind 0: packed value `idx` of the spectrum of hop `hop`, in
the hops from `since` on; 1: the pair of samples `idx` of the segment from which hop `hop` formed its spectrum; 2: the pair of samples `idx`
of what hop `hop` contributes. -/
structure Dip where
  kind : Nat
  cls : Nat
  hop : Int
  idx : Nat
  since : Int
  deriving DecidableEq, Repr

/-- The filters of an output. -/
structure OutFir where
  long : Bool
  /-- First sample of the long class's history (R233). -/
  longFrom : Nat
  a : Option FirSet
  b : Option FirSet
  /-- Set B is active. -/
  actB : Bool
  /-- What was read as zero of the history (R248). -/
  dips : List Dip
  deriving DecidableEq, Repr

/-- A commit of filters in progress (R241 to R246): its groups, the group in progress, the folio its lead-in starts, L, and
the crossfade folios done. -/
structure Swap where
  groups : List (List Nat)
  g : Nat
  start : Nat
  len : Nat
  xf : Nat
  /-- 1 lead-in, 2 crossfade, 3 history wait. -/
  phase : Nat
  deriving DecidableEq, Repr

structure ConvSt where
  fir : Tab OutFir
  swap : Option Swap
  /-- Slot of the last crossfade folio of the commit that ended last. -/
  doneAt : Nat
  /-- Filters of outputs deconfigured, for the folios below the given one (R24). -/
  gone : Tab (Nat × OutFir)
  /-- Head slots (R229): of the FIR in force of each output, and in a swap of its new set (R242). -/
  head : Tab Nat
  headNew : Tab Nat
  deriving DecidableEq, Repr

end Sys2Proof.Machine
end

