-- ==== Sys2Proof/Machine/St/Meas.lean ====
section
/-!
DEFINITION. State of the microphones, sweeps, probing, speaker health and AUTOTRIM (Measurement and In-Show Monitoring).
-/

namespace Sys2Proof.Machine

/-- A microphone channel (R259 to R262): the `CLK` and `PRESET` bits its chain runs under, the latest folios of its PDM bits since the chain
started (newest first), DC estimate, the two high-pass filters' histories, samples for which the measurement tap still yields zeros, and its
taps over the latest folio. -/
structure MicCh where
  cfg : Nat
  pdm : List Nat
  dc : Int
  off : Hist
  wind : Hist
  wait : Nat
  tap : List Int
  mixTap : List Int
  deriving DecidableEq, Repr

/-- A sweep in progress (R263 to R268): the command's parameters, the emission media time of the first stimulus sample, the
emitted reference and captured microphone samples after the settling period (oldest first), blocks issued to the transform engine and
blocks dropped. -/
structure Sweep where
  out : Nat
  mask : Nat
  kind : Nat
  ncode : Nat
  flags : Nat
  reps : Nat
  level : Int
  dur : Nat
  f1 : Nat
  f2 : Nat
  tail : Nat
  addr : Nat
  start : Nat
  ref : List Int
  caps : Tab (List Int)
  issued : Nat
  drops : List Nat
  deriving DecidableEq, Repr

/-- A probe result (R266, R272): microphone mask, per microphone the spectrum as binary32 patterns, and the record's
fields. -/
structure PrbRes where
  mask : Nat
  spec : Tab (List Nat)
  blocks : Nat
  delay : Nat
  skew : Nat
  start : Nat
  level : Int
  clip : Nat
  drop : Bool
  preset : Nat
  rate : Nat
  deriving DecidableEq, Repr

/-- The integration of one output over a run of its group: the emission media times at which it starts and, once the run is over, stops; the
microphones; its reference with the samples that count; captures; blocks issued and dropped; a mark that tells its tickets from those of the
output's next integration; and the least and greatest probe level of the samples that count. -/
structure Integ where
  start : Nat
  stop : Option Nat
  mask : Nat
  ref : List (Int × Bool)
  caps : Tab (List Int)
  issued : Nat
  drops : List Nat
  tag : Nat
  lo : Int
  hi : Int
  deriving DecidableEq, Repr

/-- The probe of a folio in work: its samples, whether it stopped, the programme power after it, and the least and greatest level
(R270). -/
structure ProbeNow where
  folio : Nat
  xs : List Int
  quiet : Bool
  power : Int
  lo : Int
  hi : Int
  deriving DecidableEq, Repr

/-- A trim section under AUTOTRIM: gain in 0.05 dB and the time of its latest step. -/
structure Trim where
  gain : Int
  stepped : Option Nat
  deriving DecidableEq, Repr

structure MeasSt where
  mics : Tab MicCh
  sweep : Option Sweep
  /-- Programme power of an output under probing, and the probe of its folio in work. -/
  power : Tab Int
  probe : Tab ProbeNow
  /-- Integrations of outputs whose group runs, and those whose run is over while their last samples are captured. -/
  integ : Tab Integ
  closing : Tab Integ
  res : Tab PrbRes
  base : Tab PrbRes
  trimOn : List Nat
  /-- By 4·output + section − 16. -/
  trim : Tab Trim
  deriving DecidableEq, Repr

end Sys2Proof.Machine
end

