-- ==== Sys2Proof/Machine/St/Oms.lean ====
section
/-!
DEFINITION. State of the object slots: metadata (Object Metadata), run-ahead (Run-Ahead and Squash) and what the fabric
holds for each object (The Render Fabric).
-/

namespace Sys2Proof.Machine

/-- A position in millimetres (R43). -/
structure P3 where
  x : Int
  y : Int
  z : Int
  deriving DecidableEq, Repr

/-- The attributes of an object (R45). -/
structure Attr where
  mode : Nat
  options : Nat
  prio : Nat
  array : Nat
  rolloff : Nat
  speaker : Nat
  zoneIncl : Nat
  zoneExcl : Nat
  radius : Nat
  deriving DecidableEq, Repr

/-- A motion segment (R44). -/
structure Seg where
  p : P3
  v : P3
  a : P3
  dur : Nat
  deriving DecidableEq, Repr

/-- A bound audio source (R47). -/
structure Binding where
  kind : Nat
  source : Nat
  chan : Nat
  trim : Int
  deriving DecidableEq, Repr

/-- What an accepted entry says. -/
inductive Upd where
  | pose (pos : Option P3) (gain : Option Int) (spread size : Option Nat)
  | segment (g : Seg)
  | attr (a : Attr)
  | activate
  | release
  | input (b : Binding)
  deriving DecidableEq, Repr

/-- An accepted update: timestamp, generation, visibility folio (R130), whether it was late (R58), and its content. -/
structure Update where
  ts : Nat
  gen : Nat
  vis : Nat
  late : Bool
  body : Upd
  deriving DecidableEq, Repr

/-- A pending record (R54): a target boundary and its updates in order of acceptance. -/
structure PRec where
  bnd : Nat
  ups : List Update
  deriving DecidableEq, Repr

/-- A target of the trajectory (R61): a position or a segment at its target boundary. -/
structure Track where
  bnd : Nat
  ts : Nat
  pos : P3
  seg : Option Seg
  deriving DecidableEq, Repr

/-- The applied state of an object. -/
structure ObjState where
  active : Bool
  /-- Targets since the last `ACTIVATE`, oldest first; no more than R61 needs. -/
  tracks : List Track
  gain : Int
  spread : Nat
  size : Nat
  attr : Attr
  deriving DecidableEq, Repr

/-- What an evaluation of a frame read when it started (R128, R133): the folio, epoch and the object's state at the
closing boundary. -/
structure Eval where
  folio : Nat
  epoch : Nat
  active : Bool
  pos : Option V3
  gain : Int
  spread : Nat
  size : Nat
  attr : Attr
  /-- Direction used by mesh panning, and whether it is held (R92). -/
  dir : V3
  near : Bool
  deriving DecidableEq, Repr

/-- A gain frame (R109, R110): entries are output, gain in Q1.15, delay in 16.8 samples. -/
structure GFrame where
  handle : Nat
  epoch : Nat
  folio : Nat
  air : Nat
  flags : Nat
  entries : List (Nat × Nat × Nat)
  deriving DecidableEq, Repr

/-- A crosspoint's committed state (R171): gain in Q1.23 and delay in 16.16. -/
structure Xp where
  out : Nat
  gain : Nat
  delay : Nat
  deriving DecidableEq, Repr

/-- A running glide (R140): its first folio, its length and the state it starts from. -/
structure Glide where
  first : Nat
  len : Nat
  start : List Xp
  deriving DecidableEq, Repr

/-- The work of one crosspoint over a folio (R171): start state and end targets. -/
structure XpWork where
  out : Nat
  g0 : Nat
  d0 : Nat
  g1 : Nat
  d1 : Nat
  deriving DecidableEq, Repr

/-- What a fabric ticket carries for an object (R151): folio, hold, Doppler option, air field, bulk delays, and the
crosspoints. -/
structure ObjWork where
  folio : Nat
  hold : Bool
  doppler : Bool
  air : Nat
  bOld : Nat
  bNew : Nat
  /-- Refill refused by the cap (R166); window class too small (R167). -/
  deferred : Bool
  clamp : Bool
  dLo : Nat
  dHi : Nat
  xps : List XpWork
  deriving DecidableEq, Repr

/-- A configured object slot. -/
structure Slot where
  quota : Nat
  cls : Nat
  gen : Nat
  /-- 0 FREE, 1 PENDING, 2 ACTIVE, 3 ENDING (R50). -/
  state : Nat
  tAct : Nat
  /-- Timestamp of the accepted `RELEASE`, and whether an `ACTIVATE` of the new generation is queued (R51). -/
  tRel : Nat
  queued : Bool
  pend : List PRec
  /-- Target of the most recently applied record (R56). -/
  lastBnd : Option Nat
  app : ObjState
  /-- Bindings by first folio, oldest first; the last before the present folio is in force (R48). -/
  binds : List (Nat × Binding)
  clamps : Nat
  /-- Run-ahead. -/
  epoch : Nat
  advances : Nat
  deferred : Bool
  evals : List Eval
  store : List GFrame
  fetched : Option GFrame
  /-- Direction of the latest fetched frame, for R92. -/
  dirHeld : Option V3
  held : Bool
  holdRun : Nat
  glide : Option Glide
  /-- Folio at which a late update starts a fresh glide (R58). -/
  glideAt : Option Nat
  lastVis : Nat
  /-- Boundary of the latest `RELEASE` that has applied (R126). -/
  relAt : Option Nat
  /-- The first folio the slot takes part in, and, of a slot that is deconfigured, the first it does not (R24). -/
  since : Nat
  ends : Option Nat
  /-- Classes and pages of before a change, each with the first folio that it does not hold for (R24, R69). -/
  was : List (Nat × Nat × List Nat)
  /-- The fabric: window pages (R160), air filter state, the newest entry samples first, crosspoints, bulk delay. -/
  pages : List Nat
  air : Int
  fifo : List Int
  xps : List Xp
  bulk : Nat
  /-- Bulk delay and delay spread of the latest committed folio (R183). -/
  shown : Nat × Nat
  /-- Work of the folio being processed, and the crosspoints and bulk delay it ends with. -/
  work : Option ObjWork
  entered : Bool
  nextXps : Option (List Xp)
  need : Nat
  clampNow : Bool
  refillDef : Bool
  dopplerOn : Bool
  nClamps : Nat
  clampLogAt : Option Nat
  deriving DecidableEq, Repr

/-- A message waiting for the parser: path (0 HSP, 1 port A, 2 port B), bytes, arrival time. -/
structure OmsMsg where
  path : Nat
  bytes : List Byte
  time : Nat
  deriving DecidableEq, Repr

structure OmsSt where
  /-- Configured slots. -/
  slots : Tab Slot
  /-- Messages whose reception is complete, in order (R37). -/
  rx : List OmsMsg
  /-- The frame most recently fetched for a slot, configured or not (R123). -/
  frames : Tab GFrame
  /-- Changes of `OMS_CFG.UDP_PORT`, newest first: the time and the port before (R65). -/
  ports : List (Nat × Nat)
  deriving DecidableEq, Repr

/-! ### Layout (R78 to R82) -/

structure Speaker where
  pos : P3
  sub : Bool
  disabled : Bool
  zones : Nat
  deriving DecidableEq, Repr

structure SpkArray where
  plane : Bool
  taper : Nat
  rows : Nat
  cols : Nat
  trim : Int
  elems : List Nat
  deriving DecidableEq, Repr

structure Layout where
  id : Nat
  zones : Nat
  len : Nat
  speakers : List Speaker
  tris : List (Nat × Nat × Nat)
  arrays : List SpkArray
  deriving DecidableEq, Repr

structure FabSt where
  /-- Slots that are deconfigured, while folios captured before still need them (R24): slot k at 1024·(1 + end mod 4) + k, where
  `end` is the first folio without it. -/
  gone : Tab Slot
  /-- Partial sums by `o·F + i`, Q16.31 (R148, R176). -/
  acc : Tab Int
  /-- The fabric folio in work, and how many of its tickets are outstanding. -/
  folio : Option Nat
  left : Nat
  /-- Slot granted a refill last (R166). -/
  granted : Nat
  /-- The root's output folio: folio index and, per output, its samples. -/
  root : Option (Nat × Tab (List Int))
  deriving DecidableEq, Repr

end Sys2Proof.Machine
end

