-- ==== Sys2Proof/Machine/St/Plan.lean ====
section
/-!
DEFINITION. The configuration tables that lie outside the registers, and a snapshot of the whole configuration. A commit
in slot s holds from folio s+1 (R24): the processing of folio n uses the configuration as it stood when slot n began.
-/

namespace Sys2Proof.Machine

structure Plan where
  layout : Option Layout
  /-- Speakers whose disablement a command has set, over the load flag (R122). -/
  spkOver : Tab Bool
  /-- Quotas of the configured slots (R69). -/
  quotas : Tab Nat
  /-- Coefficients of PEQ and trim sections by 20·output + section; none listed: bypass (R192). -/
  eq : Tab Coef
  /-- Active node gains in signed Q3.13, by 65536·domain + 256·bus + input (R291). -/
  mixG : Tab Int
  /-- Microphone mask of a probe group, and the group of an output (R271). -/
  masks : Tab Nat
  groupOf : Tab Nat
  deriving DecidableEq, Repr

/-- Registers and tables at one instant. -/
structure Snap where
  regs : List (Nat × Word32)
  plan : Plan
  deriving DecidableEq, Repr

/-- Progress of the data plane: what has been done of the folios in work. -/
structure DpSt where
  /-- The data plane runs; the mode it runs in (RENDER or MEASURE); the first folio it captures and, where it is to stop, the
  last (R22); folios below `resume` were lost with their ticks (R681). -/
  on : Bool
  mode : Nat
  first : Nat
  last : Option Nat
  resume : Nat
  /-- Items of work completed: ticket kind, folio, item. -/
  complete : List (Nat × Nat × Nat)
  /-- Items issued, likewise. -/
  issued : List (Nat × Nat × Nat)
  /-- The folio buffers' inputs: by folio, then by source (R157): samples in Q5.27. -/
  ing : Tab (Tab (List Int))
  /-- On a standby: the folio whose tick has passed and whose fetch waits for its `TICK` and for frames (R143, R427), and whether
  the tick's records have been applied. -/
  waitTick : Option (Nat × Bool)
  /-- Time of the latest folio tick. -/
  tickNow : Nat
  deriving DecidableEq, Repr

end Sys2Proof.Machine
end

