-- ==== Sys2Proof/Machine/St/Mix.lean ====
section
/-!
DEFINITION. State of the mixer, its rate domains, the announcement bypass (Mixer, Rate Domains and Announcement Bypass) and
the TDM ports (TDM Audio Ports).
-/

namespace Sys2Proof.Machine

/-- A ramp under the law of R292: end values, samples done, length. -/
structure Ramp1 where
  v0 : Int
  v1 : Int
  pos : Nat
  len : Nat
  deriving DecidableEq, Repr

/-- A crossfade between the sources of an input (R293): old source word, samples done, length. -/
structure SrcFade where
  old : Nat
  pos : Nat
  len : Nat
  deriving DecidableEq, Repr

/-- What a domain's mixer carries from block to block: gains taken (signed Q3.13, by 256·bus + input), node ramps, source
words taken and their crossfades, bus limiter gains. -/
structure MixRun where
  gT : Tab Int
  ramps : Tab Ramp1
  srcT : Tab Nat
  srcX : Tab SrcFade
  lim : Tab Nat
  deriving DecidableEq, Repr

/-- Silence detector of a bus (R294). -/
structure BusSil where
  run : Nat
  silent : Bool
  /-- `MIX_SIL_CFG` and `SIL_EN` it runs under. -/
  cfg : Nat
  deriving DecidableEq, Repr

/-- A rate domain: its mixer, the state after the block in work and the ramps that start in it, the block in capture and the time
it began, the configuration its blocks run under (R291), captured inputs by block and source, and computed buses by block. -/
structure MixDom where
  run : MixRun
  nxt : Option MixRun
  starts : Nat
  sil : Tab BusSil
  block : Nat
  since : Nat
  cfgs : Tab Snap
  inb : Tab (Tab (List Int))
  bus : Tab (Tab (List Int))
  deriving DecidableEq, Repr

/-- How a bridge converts one destination block (R296 to R298): 0 running, 1 fading out, 2 fading in; the ratio in Q2.30; and, in
2^-32 source samples, the place of the newest source sample that the block's first sample takes. -/
structure BrgConv where
  fade : Nat
  ratio : Nat
  pos : Int
  deriving DecidableEq, Repr

/-- An ASRC bridge channel: newest source samples, the index of the source sample that comes next, the fade of the next destination block
(R297), and the conversion of each destination block. -/
structure Bridge where
  hist : List Int
  next : Nat
  phase : Nat
  conv : Tab BrgConv
  deriving DecidableEq, Repr

/-- A duck set (R303): engaged, and its ramp, whose value holds after its end. -/
structure Duck where
  engaged : Bool
  ramp : Ramp1
  deriving DecidableEq, Repr

structure MixSt where
  doms : Tab MixDom
  /-- Staged gains, by 65536·domain + 256·bus + input. -/
  staged : Tab Int
  bridges : Tab Bridge
  /-- Announcement inputs active (R302), with the time of the latest sample at or above the threshold. -/
  act : Tab Nat
  /-- The bypass clock's frame: its number and the time it began; announcement samples of the latest port-14 frames, by
  frame (R301). -/
  bypFrame : Nat
  bypAt : Nat
  ann : Tab (List Int)
  duck : Tab Duck
  /-- On a standby: duck sets whose recorded start the next tick takes (R303, R426). -/
  duckRec : List (Nat × Bool)
  /-- D1 holds over (R283). -/
  d1Hold : Bool
  deriving DecidableEq, Repr

/-- Zero-crossing wait of a channel (R323): its new state and the frame at which the change applied. -/
structure ZcWait where
  want : Bool
  since : Nat
  deriving DecidableEq, Repr

/-- A channel's ramp (R323): towards on or off, frames done of 16. -/
structure ZcRamp where
  up : Bool
  pos : Nat
  deriving DecidableEq, Repr

/-- One direction of a TDM port: the configuration and format words it runs under, frames it still stands still, channels
on, the enables applied last, waits, ramps and the previous samples. -/
structure TdmDir where
  cfg : Nat
  fmt : Nat
  stop : Nat
  on : Nat
  want : Nat
  waits : Tab ZcWait
  ramps : Tab ZcRamp
  prev : Tab Int
  deriving DecidableEq, Repr

/-- A TDM port (R311 to R330). -/
structure TdmPort where
  /-- Frames since the port started. -/
  frame : Nat
  rx : Option TdmDir
  tx : Option TdmDir
  /-- Slave clocks lost, and consecutive well-formed frames since. -/
  lost : Bool
  good : Nat
  /-- Transmit gain u and receive gain, in sixteenths (R327, R328). -/
  u : Nat
  rise : Nat
  /-- The samples sent last, before u. -/
  sent : Tab Int
  /-- Samples of underrun frames, to be discarded. -/
  missed : Nat
  /-- Frames of a slip's crossfade left (R329). -/
  slip : Nat
  /-- Bit-clock periods of the latest frame, and the words on the wire by slot; a slot not listed floats. -/
  bclks : Nat
  wire : Tab Int
  deriving DecidableEq, Repr

structure TdmSt where
  ports : Tab TdmPort
  deriving DecidableEq, Repr

end Sys2Proof.Machine
end

