-- ==== Sys2Proof/Machine/St/Pair.lean ====
section
/-!
DEFINITION. State of the redundant pair and the Tether (The Redundant Pair).
-/

namespace Sys2Proof.Machine

/-- A Tether frame as it is sent (R422): type, flags, sequence, acknowledgement, the sender's pair state and mode, and its
payload before padding. -/
structure TFrame where
  kind : Nat
  flags : Nat
  seq : Nat
  ack : Nat
  pstate : Nat
  mode : Nat
  body : List Byte
  deriving DecidableEq, Repr

/-- A logged command that waits for its commit slot (R443): slot, opcode, port, and the packet as received. -/
structure LogCmd where
  slot : Nat
  opcode : Nat
  port : Nat
  raw : List Byte
  deriving DecidableEq, Repr

/-- The pair identity (R440). -/
structure Ident where
  mac : Nat
  ip4 : Nat
  ip6 : Nat
  len4 : Nat
  len6 : Nat
  deriving DecidableEq, Repr

structure PairSt where
  /-- Frames sent and kept for retransmission, newest first, within 1 MiB (R424). -/
  tx : List TFrame
  /-- Sequence of the next frame sent, and of the next one expected; a NAK is due. -/
  txSeq : Nat
  rxSeq : Nat
  nak : Bool
  /-- Times of the last valid frame, of the last CONTROL frame received, and of the last one sent. -/
  lastRx : Nat
  lastCtl : Option Nat
  ctlSent : Nat
  /-- Sequence number of the next command-log entry. -/
  logSeq : Nat
  ident : Option Ident
  /-- Records of the tick in work that wait for its MIRROR frames (R427): type and bytes. -/
  recs : List (Nat × List Byte)
  /-- On a standby: recorded holds by folio, folios whose `TICK` has come, recorded outcomes (missed), own and received
  digests. -/
  holds : Tab (List Nat)
  ticks : List Nat
  seals : Tab Bool
  digs : Tab Nat
  peerDigs : Tab Nat
  /-- A switchover: from folio j on this unit decides, or ceases to (R438); the grant has been exchanged. -/
  turn : Option (Nat × Bool)
  granted : Bool
  /-- Logged commands that wait for their slot. -/
  logged : List LogCmd
  /-- The last edge of `REIN_IN`; since when the unit has been eligible to claim; no claim since a cold start; a wait of R417
  runs. -/
  edgeAt : Option Nat
  eligAt : Option Nat
  cold : Bool
  waits : Bool
  /-- Cutover slot of the resync in progress or done, and the pages received. -/
  cut : Option Nat
  snap : List SnapPage
  /-- Consecutive digests that have matched in the verify phase. -/
  matched : Nat
  /-- On a standby: packets formed and not sent, within the last 50 µs: time, port, queue, frame (R432). -/
  recent : List (Nat × Nat × Nat × TxFrame)
  /-- The last clock marker inserted: bits 55:0 of the tick's media time (R421). -/
  marker : Option Nat
  deriving DecidableEq, Repr

end Sys2Proof.Machine
end

