-- ==== Sys2Proof/Machine/St/Plat.lean ====
section
/-!
DEFINITION. State of the Spine, the on-chip memory, the DRAM controller, the power controller and the Collector.
-/

namespace Sys2Proof.Machine

/-- An entry of the Spine error log (R523, R525). -/
structure SpnErr where
  write : Bool
  cause : Nat
  target : Nat
  master : Nat
  addr : Nat
  deriving DecidableEq, Repr

/-- A transaction accepted and not complete (R514): beats done so far of the whole. -/
structure SpnTxn where
  master : Nat
  tid : Nat
  target : Nat
  write : Bool
  addr : Nat
  size : Nat
  doneBytes : Nat
  deriving DecidableEq, Repr

/-- The response a master got last: error status and read data. -/
structure SpnResp where
  master : Nat
  error : Bool
  data : List Byte
  deriving DecidableEq, Repr

structure SpnSt where
  log : List SpnErr
  txns : List SpnTxn
  resp : Option SpnResp
  /-- Master granted last at each target (R515, R518). -/
  granted : Tab Nat
  /-- Cycles held for ordering and by a cap, of which the counters are the 1024ths (R520). -/
  ordCyc : Nat
  capCyc : Nat
  deriving DecidableEq, Repr

/-- An entry of the memory error log (R546). -/
structure MemErr where
  cause : Nat
  bank : Nat
  row : Nat
  addr : Nat
  deriving DecidableEq, Repr

/-- A repaired row (R540, R542): spare index and cause. -/
structure MemRepair where
  bank : Nat
  row : Nat
  spare : Nat
  cause : Nat
  deriving DecidableEq, Repr

structure MemSt where
  log : List MemErr
  /-- Repair list: bank, row, cause (R541). -/
  list : List (Nat × Nat × Nat)
  /-- Repairs in force, and the repair journal in MRAM. -/
  repairs : List MemRepair
  journal : List MemRepair
  /-- Lasting errors per bank since `POR_N`. -/
  lasting : Tab Nat
  /-- Consecutive aborts of the region in progress (R537), and the time of its retry. -/
  aborts : Nat
  retryAt : Option Nat
  deriving DecidableEq, Repr

/-- An entry of the DRAM error log (R566). -/
structure DmcErr where
  cause : Nat
  chan : Nat
  bank : Nat
  master : Nat
  row : Nat
  addr : Nat
  deriving DecidableEq, Repr

/-- A retired row and its pool row (R556). -/
structure DmcRetire where
  chan : Nat
  bank : Nat
  row : Nat
  pool : Nat
  cause : Nat
  deriving DecidableEq, Repr

/-- A row-hammer throttle (R560): it ends when `windows` more refresh windows of the bank have begun. -/
structure DmcThrottle where
  master : Nat
  chan : Nat
  bank : Nat
  windows : Nat
  deriving DecidableEq, Repr

structure DmcSt where
  log : List DmcErr
  /-- Rows listed for retirement: channel, bank, row (R557). -/
  list : List (Nat × Nat × Nat)
  retired : List DmcRetire
  journal : List DmcRetire
  /-- Activations per row in the present window, by row index of channel, bank and row. -/
  acts : Tab Nat
  throttles : List DmcThrottle
  /-- Times of lasting errors per bank (16·channel + bank), newest first (R558). -/
  errTimes : Tab (List Nat)
  /-- Refreshes postponed per bank (R559). -/
  postponed : Tab Nat
  /-- The automatic thermal drop is in force, and since when the die has been at or below 85 °C (R562). -/
  thermDrop : Bool
  coolSince : Option Nat
  /-- DRAM that the device has reserved, by owner: base and length (R159, R231, R365, R459). -/
  reserved : Tab (Nat × Nat)
  deriving DecidableEq, Repr

/-- A drain in progress (R635). -/
structure PwrDrain where
  dom : Nat
  /-- 0 OFF, 3 RET. -/
  goal : Nat
  since : Nat
  deriving DecidableEq, Repr

structure PwrSt where
  /-- Time of the domain's latest activity, and of its entry to RET. -/
  active : Tab Nat
  retAt : Tab Nat
  /-- `RET_US` and `OFF_MS` as they stood at the latest restart of their timers (R641). -/
  retLim : Tab Nat
  offLim : Tab Nat
  drain : Option PwrDrain
  /-- RTC seconds at an instant. -/
  rtc : Nat
  rtcNow : Nat
  deriving DecidableEq, Repr

structure PmcSt where
  /-- Counter values; a value at or above 2^48 has a wrap outstanding (R650). -/
  cnt : Tab Nat
  snap : Tab Nat
  /-- Bytes per port in the present window (R656). -/
  bytes : Tab Nat
  /-- Time at which the present window began. -/
  winAt : Nat
  deriving DecidableEq, Repr

end Sys2Proof.Machine
end

