-- ==== Sys2Proof/Machine/St/Stbl.lean ====
section
/-!
DEFINITION. State of the Stable: tickets, queues, stalls, flows, DMA channels (The Stable Scheduler).
-/

namespace Sys2Proof.Machine

/-- A ticket (R490), with the folio kept whole and the generator's work item beside the arguments. -/
structure Ticket where
  kind : Nat
  cls : Nat
  /-- Engine ID, or 255 for any. -/
  eng : Nat
  /-- Flow, or 255 for none. -/
  flow : Nat
  seq : Nat
  epoch : Nat
  prio : Nat
  folio : Nat
  /-- Gate flow, or 255 for none. -/
  gate : Nat
  gateSeq : Nat
  /-- The work item of a hardware ticket: object slot, group, stream, instance. -/
  item : Nat
  /-- Order of a re-evaluation or fill ticket by `ATTR` priority (R129); none for any other ticket. -/
  urgent : Option Nat
  /-- The 16 argument bytes of a firmware ticket. -/
  args : List Byte
  deriving DecidableEq, Repr

/-- A ticket out of its queue, with the queue it counts against and the time it started. -/
structure Placed where
  q : Nat
  tk : Ticket
  since : Nat
  deriving DecidableEq, Repr

/-- A completed ticket that its flow holds (R500), with its queue and the engine it ran on, 255 for none. -/
structure HeldTk where
  e : Nat
  q : Nat
  tk : Ticket
  deriving DecidableEq, Repr

/-- A running DMA copy (R502): addresses, length, bytes already written. -/
structure DmaRun where
  src : Nat
  dst : Nat
  len : Nat
  doneLen : Nat
  deriving DecidableEq, Repr

structure StblSt where
  /-- Waiting tickets by queue, in queue order. -/
  queues : Tab (List Ticket)
  /-- Running ticket and the two stalls, by engine (R495). -/
  running : Tab Placed
  stall0 : Tab Placed
  stall1 : Tab Placed
  /-- Frontier, and completed tickets ahead of it, by flow (R500). -/
  frontier : Tab Nat
  ahead : Tab (List HeldTk)
  /-- Queue served last, by class. -/
  served : Tab Nat
  /-- Tickets a generator holds back for a full queue, by queue (R493). -/
  waiting : Tab (List Ticket)
  /-- Generator cycles waited, of which the counter is the 1024th. -/
  waitCyc : Nat
  dma : Tab DmaRun
  /-- The trace has stopped because its destination is full (R506). -/
  trcStopped : Bool
  deriving DecidableEq, Repr

end Sys2Proof.Machine
end

