-- ==== Sys2Proof/Machine/St/Strm.lean ====
section
/-!
DEFINITION. State of the media streams (Media Streams).
-/

namespace Sys2Proof.Machine

/-- One leg of a receive stream: whether it is enabled, UDP port, destination and source addresses of 16 bytes, and whether
the source filter is on (R363, R384). -/
structure LegCfg where
  on : Bool
  port : Nat
  dst : List Byte
  src : List Byte
  filter : Bool
  deriving DecidableEq, Repr

/-- A receive stream's entry (R384). -/
structure RxCfg where
  v6 : Bool
  lock : Bool
  l24 : Bool
  pt : Nat
  chans : Nat
  size : Nat
  offset : Nat
  tsOff : Nat
  a : LegCfg
  b : LegCfg
  deriving DecidableEq, Repr

/-- What the engine keeps of a leg: learned SSRC, highest sequence number, consecutive packets discarded whole, whether it is
active and when it last placed or duplicated, margin in ns, packets and lost packets since the last query, and the latest
packets' sequence numbers with their timestamps (R362, R367, R368, R373, R384). -/
structure Leg where
  ssrc : Option Nat
  seq : Option Nat
  whole : Nat
  active : Bool
  last : Nat
  margin : Option Int
  pkts : Nat
  lost : Nat
  recent : List (Nat × Nat)
  deriving DecidableEq, Repr

/-- What a replaced receive stream leaves for the folio that its change does not reach: channels, level index, last samples. -/
structure RxPast where
  chans : Nat
  level : Nat
  v : List Int
  deriving DecidableEq, Repr

/-- A receive stream: its entry and the first folio it serves (R377), what its predecessor leaves, its first folio of zeros where it is
removed, the ring by mapped media time (R366), the level index and the channels' last samples (R370), its legs, and what
`STRM_RX_QUERY` reports. -/
structure RxStream where
  cfg : RxCfg
  first : Nat
  past : Option RxPast
  gone : Option Nat
  ring : Tab (List Int)
  level : Nat
  v : List Int
  a : Leg
  b : Leg
  offErr : Bool
  skew : Int
  subst : Nat
  lates : Nat
  deriving DecidableEq, Repr

/-- A transmit stream's entry (R384), with its 64 bytes. -/
structure TxCfg where
  portA : Bool
  portB : Bool
  v6 : Bool
  tagged : Bool
  l24 : Bool
  pt : Nat
  chans : Nat
  size : Nat
  dscp : Nat
  hops : Nat
  txq : Nat
  tag : Nat
  sport : Nat
  dport : Nat
  ssrc : Nat
  tsOff : Nat
  seqBase : Nat
  dstA : List Byte
  dstB : List Byte
  raw : List Byte
  deriving DecidableEq, Repr

/-- A transmit stream: its entries, each with the first emitted folio it serves, newest last (R377); packets queued and
discarded. -/
structure TxStream where
  cfgs : List (Nat × Option TxCfg)
  queued : Nat
  nores : Nat
  deriving DecidableEq, Repr

structure StrmSt where
  rx : Tab RxStream
  tx : Tab TxStream
  /-- Frames passed to firmware by a port in the present millisecond: the millisecond and the count (R361). -/
  fw : Tab (Nat × Nat)
  deriving DecidableEq, Repr

end Sys2Proof.Machine
end

