-- ==== Sys2Proof/Machine/Init.lean ====
section
/-!
DEFINITION. The reset value of every block's state.
-/

namespace Sys2Proof.Machine

def Otp.init : Otp := ⟨.rk8640, false, false, false, false, 0, [], 0, 0⟩
def Straps.init : Straps := ⟨false, 0, 0, 0⟩
def Firm.init : Firm := ⟨0, 0, 0, 0, [], 0, 0, 0, false, false⟩
def SysSt.init : SysSt :=
  { porN := true, straps := Straps.init, mediaTime := 0, lastTick := none, idleOnly := false, wdogTimes := [],
    wdogWarm := none, updateFrom := 0, modeAt := none, renderFrom := none, porTime := 0, refWait := false,
    aligned := false, mediaStopped := false, rdata := 0, testEn := false, jtagChal := none, jtagOpen := false, gpioSet := none, firm := Firm.init }
def CmdSt.init : CmdSt :=
  { keys := [], nonces := [], last := [], hspRx := [], hspReply := none, netRx := [], netOut := [],
    twiRx := none, twiReply := none, peerRx := [], longOp := none, held := none, peerBusy := none, done := false, log := [],
    logMram := [], fails := [], muted := [], ctrlDown := false }
def Journal.init : Journal := ⟨[], [], [], 0, none⟩
def ClkSt.init : ClkSt := ⟨5, false, false, [], [], [], 0, 0, 0, [], 0, 0, false, none, none⟩
def PtpSt.init : PtpSt := ⟨0, 0, 0, 0, [], none, none, none, none, 0, none, [], false, 0, []⟩
def PairSt.init : PairSt :=
  { tx := [], txSeq := 0, rxSeq := 0, nak := false, lastRx := 0, lastCtl := none, ctlSent := 0, logSeq := 0, ident := none,
    recs := [], holds := [], ticks := [], seals := [], digs := [], peerDigs := [], turn := none, granted := false,
    logged := [], edgeAt := none, eligAt := none, cold := true, waits := false, cut := none, snap := [], matched := 0,
    recent := [], marker := none }
def SpnSt.init : SpnSt := ⟨[], [], none, [], 0, 0⟩
def MemSt.init : MemSt := ⟨[], [], [], [], [], 0, none⟩
def DmcSt.init : DmcSt := ⟨[], [], [], [], [], [], [], [], false, none, []⟩
def PwrSt.init : PwrSt := ⟨[], [], [], [], none, 0, 0⟩
def PmcSt.init : PmcSt := ⟨[], [], [], 0⟩
def StblSt.init : StblSt := ⟨[], [], [], [], [], [], [], [], 0, [], false⟩
def OmsSt.init : OmsSt := ⟨[], [], [], []⟩
def FabSt.init : FabSt := ⟨[], [], none, 0, 0, none⟩
def Plan.init : Plan := ⟨none, [], [], [], [], [], []⟩
def Snap.init : Snap := ⟨[], Plan.init⟩
def DpSt.init : DpSt := ⟨false, 0, 0, none, 0, [], [], [], none, 0⟩
def OutSt.init : OutSt := ⟨[], [], none, 0, 0, [], 0⟩
def ConvSt.init : ConvSt := ⟨[], none, 0, [], [], []⟩
def MeasSt.init : MeasSt := ⟨[], none, [], [], [], [], [], [], [], []⟩
def MixSt.init : MixSt := ⟨[], [], [], [], 0, 0, [], [], [], false⟩
def TdmSt.init : TdmSt := ⟨[]⟩
def StrmSt.init : StrmSt := ⟨[], [], []⟩
def FxSt.init : FxSt := ⟨[], [], [], [], 0⟩
def MacSt.init : MacSt := ⟨[], [], [], [], [], [], [], [], [], []⟩

end Sys2Proof.Machine
end

