-- ==== Sys2Proof/Machine/Regs.lean ====
section
/-!
DEFINITION. The register map of the twenty-six peripheral blocks: every register the spec's register tables name,
its address (R11 and the block's offset table), its fields, and one row of access masks and reset per register (R9).
A register name here is the spec's; `MACx` is `MAC_… m` with m = 0, 1, 2 for MACA, MACB, MACM; `PMC_STAT[k]` is `PMC_STATK k`.
-/

namespace Sys2Proof

/-- A bit field of a 32-bit register, high and low bit inclusive. -/
structure Fld where
  hi : Nat
  lo : Nat
  deriving DecidableEq, Repr

/-- One row of the register map: an address with up to two array dimensions (count, stride), the bits of each
access code of R9, and the reset value. Bits in no mask are reserved (R8). -/
structure RegRow where
  base : Nat
  n1 : Nat
  s1 : Nat
  n2 : Nat
  s2 : Nat
  rw : Nat
  wo : Nat
  w1c : Nat
  w1s : Nat
  rc : Nat
  rws : Nat
  /-- Defined bits that are RO. -/
  ro : Nat
  rst : Nat
  deriving DecidableEq, Repr

namespace Reg

/-- R622. -/
def SYS_IRQ_STAT : Nat := 0x40000000
/-- R622. -/
def SYS_IRQ_EN : Nat := 0x40000004
/-- R11. -/
def SYS_IRQ_SUM : Nat := 0x40000008
/-- R622. -/
def SYS_CAPS : Nat := 0x40000010
/-- R622. -/
def SYS_MODE : Nat := 0x40000014
/-- R622. -/
def SYS_RST_CAUSE : Nat := 0x40000018
/-- R622. -/
def SYS_SAFE_CFG : Nat := 0x4000001C
/-- R622. -/
def SYS_SAFE_STAT : Nat := 0x40000020
/-- R622. -/
def SYS_BOOT_STAT : Nat := 0x40000024
/-- R622. -/
def SYS_JNL_CFG : Nat := 0x40000028
/-- R622. -/
def SYS_TEMP : Nat := 0x4000002C
/-- R30. -/
def SYS_RENDER_CFG : Nat := 0x40000100
/-- R31. -/
def SYS_MEDIA_TIME_LO : Nat := 0x40000104
/-- R31. -/
def SYS_MEDIA_TIME_HI : Nat := 0x40000108
/-- R32. -/
def SYS_DL_STAT : Nat := 0x4000010C
/-- R32. -/
def SYS_DL_MISS : Nat := 0x40000110
/-- R639. -/
def PWR_IRQ_STAT : Nat := 0x40100000
/-- R639. -/
def PWR_IRQ_EN : Nat := 0x40100004
/-- R639. -/
def PWR_CFG : Nat := 0x40100010
/-- R639. -/
def PWR_STAT : Nat := 0x40100014
/-- R639. -/
def PWR_RTC_LO : Nat := 0x40100018
/-- R639. -/
def PWR_RTC_HI : Nat := 0x4010001C
/-- R639. -/
def PWR_RTC_ALARM : Nat := 0x40100020
/-- R642. -/
def PWR_RET_ENTRY : Nat := 0x40100040
/-- R642. -/
def PWR_OFF_ENTRY : Nat := 0x40100044
/-- R642. -/
def PWR_WAKE : Nat := 0x40100048
/-- R642. -/
def PWR_REFUSED : Nat := 0x4010004C
/-- R642. -/
def PWR_ABORT : Nat := 0x40100050
/-- R640. -/
def PWR_DOM_CFG (i : Nat) : Nat := 0x40100100 + 16 * i
/-- R640. -/
def PWR_DOM_OFFT (i : Nat) : Nat := 0x40100104 + 16 * i
/-- R640. -/
def PWR_DOM_STAT (i : Nat) : Nat := 0x40100108 + 16 * i
/-- R408. -/
def CLK_IRQ_STAT : Nat := 0x40200000
/-- R408. -/
def CLK_IRQ_EN : Nat := 0x40200004
/-- R408. -/
def CLK_CFG : Nat := 0x40200010
/-- R408. -/
def CLK_DPLL : Nat := 0x40200014
/-- R408. -/
def CLK_QUAL : Nat := 0x40200018
/-- R408. -/
def CLK_SEL : Nat := 0x4020001C
/-- R408. -/
def CLK_STAT : Nat := 0x40200020
/-- R408. -/
def CLK_PHASE_ERR : Nat := 0x40200024
/-- R399. -/
def CLK_MT_ERR : Nat := 0x40200028
/-- R397. -/
def CLK_DCO_LO : Nat := 0x40200030
/-- R397. -/
def CLK_DCO_HI : Nat := 0x40200034
/-- R408. -/
def CLK_OUT_CFG : Nat := 0x40200038
/-- R408. -/
def CLK_SWITCH : Nat := 0x40200040
/-- R408. -/
def CLK_HOLDOVER : Nat := 0x40200044
/-- R408. -/
def CLK_REF_LOSS : Nat := 0x40200048
/-- R408. -/
def CLK_REF_DISQ : Nat := 0x4020004C
/-- R408. -/
def CLK_MT_STEP : Nat := 0x40200050
/-- R408. -/
def CLK_XO_FAIL : Nat := 0x40200054
/-- R408. -/
def CLK_REF_CFG (i : Nat) : Nat := 0x40200100 + 4 * i
/-- R408. -/
def CLK_REF_STAT (i : Nat) : Nat := 0x40200120 + 4 * i
/-- R410. -/
def PTP_IRQ_STAT : Nat := 0x40300000
/-- R410. -/
def PTP_IRQ_EN : Nat := 0x40300004
/-- R410. -/
def PTP_CFG : Nat := 0x40300010
/-- R410. -/
def PTP_PRIO : Nat := 0x40300014
/-- R410. -/
def PTP_INTV : Nat := 0x40300018
/-- R410. -/
def PTP_STAT : Nat := 0x4030001C
/-- R410. -/
def PTP_TIME_NS : Nat := 0x40300020
/-- R410. -/
def PTP_TIME_SLO : Nat := 0x40300024
/-- R410. -/
def PTP_TIME_SHI : Nat := 0x40300028
/-- R410. -/
def PTP_OFFSET : Nat := 0x4030002C
/-- R410. -/
def PTP_MPD : Nat := 0x40300030
/-- R410. -/
def PTP_RATE : Nat := 0x40300034
/-- R410. -/
def PTP_GM_LO : Nat := 0x40300038
/-- R410. -/
def PTP_GM_HI : Nat := 0x4030003C
/-- R410. -/
def PTP_SYNC_RX : Nat := 0x40300040
/-- R410. -/
def PTP_ANN_RX : Nat := 0x40300044
/-- R410. -/
def PTP_DELAY_TX : Nat := 0x40300048
/-- R410. -/
def PTP_DELAY_RX : Nat := 0x4030004C
/-- R410. -/
def PTP_GM_CHG : Nat := 0x40300050
/-- R410. -/
def PTP_TS_MISS : Nat := 0x40300054
/-- R410. -/
def PTP_DROPPED : Nat := 0x40300058
/-- R354. -/
def MAC_IRQ_STAT (i : Nat) : Nat := 0x40400000 + 1048576 * i
/-- R354. -/
def MAC_IRQ_EN (i : Nat) : Nat := 0x40400004 + 1048576 * i
/-- R355. -/
def MAC_CFG (i : Nat) : Nat := 0x40400010 + 1048576 * i
/-- R355. -/
def MAC_LINK_STAT (i : Nat) : Nat := 0x40400014 + 1048576 * i
/-- R355. -/
def MAC_TS_ADJ (i : Nat) : Nat := 0x40400018 + 1048576 * i
/-- R355. -/
def MAC_PAUSE_STAT (i : Nat) : Nat := 0x4040001C + 1048576 * i
/-- R355. -/
def MAC_RULE_COMMIT (i : Nat) : Nat := 0x40400020 + 1048576 * i
/-- R355. -/
def MAC_TXTS_STAT (i : Nat) : Nat := 0x40400030 + 1048576 * i
/-- R355. -/
def MAC_TXTS_W0 (i : Nat) : Nat := 0x40400034 + 1048576 * i
/-- R355. -/
def MAC_TXTS_W1 (i : Nat) : Nat := 0x40400038 + 1048576 * i
/-- R355. -/
def MAC_TXTS_W2 (i : Nat) : Nat := 0x4040003C + 1048576 * i
/-- R355. -/
def MAC_TXTS_W3 (i : Nat) : Nat := 0x40400040 + 1048576 * i
/-- R355. -/
def MAC_MDIO (i : Nat) : Nat := 0x40400050 + 1048576 * i
/-- R355. -/
def MAC_TXQ (i j : Nat) : Nat := 0x40400080 + 1048576 * i + 4 * j
/-- R355. -/
def MAC_RXQ (i j : Nat) : Nat := 0x40400100 + 1048576 * i + 4 * j
/-- R356. -/
def MAC_RULE_CTL (i j : Nat) : Nat := 0x40400400 + 1048576 * i + 32 * j
/-- R356. -/
def MAC_RULE_VT (i j : Nat) : Nat := 0x40400404 + 1048576 * i + 32 * j
/-- R356. -/
def MAC_RULE_DA_HI (i j : Nat) : Nat := 0x40400408 + 1048576 * i + 32 * j
/-- R356. -/
def MAC_RULE_DA_LO (i j : Nat) : Nat := 0x4040040C + 1048576 * i + 32 * j
/-- R356. -/
def MAC_RULE_DAM_HI (i j : Nat) : Nat := 0x40400410 + 1048576 * i + 32 * j
/-- R356. -/
def MAC_RULE_DAM_LO (i j : Nat) : Nat := 0x40400414 + 1048576 * i + 32 * j
/-- R357. -/
def MAC_STAT_LO (i j : Nat) : Nat := 0x40400800 + 1048576 * i + 8 * j
/-- R357. -/
def MAC_STAT_HI (i j : Nat) : Nat := 0x40400804 + 1048576 * i + 8 * j
/-- R380. -/
def STRM_IRQ_STAT : Nat := 0x40700000
/-- R380. -/
def STRM_IRQ_EN : Nat := 0x40700004
/-- R381. -/
def STRM_CFG : Nat := 0x40700010
/-- R381. -/
def STRM_STAT : Nat := 0x40700014
/-- R383. -/
def STRM_RX_PKT : Nat := 0x40700040
/-- R383. -/
def STRM_TX_PKT : Nat := 0x40700044
/-- R383. -/
def STRM_BADPKT : Nat := 0x40700048
/-- R383. -/
def STRM_FOREIGN : Nat := 0x4070004C
/-- R383. -/
def STRM_SSRC : Nat := 0x40700050
/-- R383. -/
def STRM_LATE : Nat := 0x40700054
/-- R383. -/
def STRM_EARLY : Nat := 0x40700058
/-- R383. -/
def STRM_DUP : Nat := 0x4070005C
/-- R383. -/
def STRM_LOST : Nat := 0x40700060
/-- R383. -/
def STRM_REORDER : Nat := 0x40700064
/-- R383. -/
def STRM_SUBST : Nat := 0x40700068
/-- R383. -/
def STRM_FW_LIMIT : Nat := 0x4070006C
/-- R383. -/
def STRM_TX_NORES : Nat := 0x40700070
/-- R381. -/
def STRM_RX_ACT_A (i : Nat) : Nat := 0x40700100 + 4 * i
/-- R381. -/
def STRM_RX_ACT_B (i : Nat) : Nat := 0x40700120 + 4 * i
/-- R64. -/
def OMS_IRQ_STAT : Nat := 0x40800000
/-- R64. -/
def OMS_IRQ_EN : Nat := 0x40800004
/-- R65. -/
def OMS_CFG : Nat := 0x40800010
/-- R66. -/
def OMS_VEL : Nat := 0x40800014
/-- R66. -/
def OMS_SESSION : Nat := 0x40800018
/-- R67. -/
def OMS_OBJ_SEL : Nat := 0x40800020
/-- R67. -/
def OMS_OBJ_STAT : Nat := 0x40800024
/-- R67. -/
def OMS_OBJ_ACT_LO : Nat := 0x40800028
/-- R67. -/
def OMS_OBJ_ACT_HI : Nat := 0x4080002C
/-- R68. -/
def OMS_RX_MSG : Nat := 0x40800040
/-- R68. -/
def OMS_DROP : Nat := 0x40800044
/-- R68. -/
def OMS_EARLY : Nat := 0x40800048
/-- R68. -/
def OMS_BADENT : Nat := 0x4080004C
/-- R68. -/
def OMS_INACTIVE : Nat := 0x40800050
/-- R68. -/
def OMS_STALE : Nat := 0x40800054
/-- R68. -/
def OMS_REACT : Nat := 0x40800058
/-- R68. -/
def OMS_DENIED : Nat := 0x4080005C
/-- R68. -/
def OMS_MERGE : Nat := 0x40800060
/-- R68. -/
def OMS_OBSOLETE : Nat := 0x40800064
/-- R68. -/
def OMS_COALESCE : Nat := 0x40800068
/-- R68. -/
def OMS_LATE : Nat := 0x4080006C
/-- R68. -/
def OMS_CLAMP : Nat := 0x40800070
/-- R112. -/
def GEO_IRQ_STAT : Nat := 0x40900000
/-- R112. -/
def GEO_IRQ_EN : Nat := 0x40900004
/-- R113. -/
def GEO_CFG : Nat := 0x40900010
/-- R114. -/
def GEO_DATT : Nat := 0x40900014
/-- R114. -/
def GEO_DATT_REF : Nat := 0x40900018
/-- R114. -/
def GEO_NEAR : Nat := 0x4090001C
/-- R114. -/
def GEO_AIR : Nat := 0x40900020
/-- R114. -/
def GEO_WF_MIN : Nat := 0x40900024
/-- R114. -/
def GEO_DREF : Nat := 0x40900028
/-- R114. -/
def GEO_OPT : Nat := 0x4090002C
/-- R115. -/
def GEO_LAYOUT_ID : Nat := 0x40900030
/-- R115. -/
def GEO_LAYOUT_STAT : Nat := 0x40900034
/-- R116. -/
def GEO_SPK_SEL : Nat := 0x40900040
/-- R116. -/
def GEO_SPK_STAT : Nat := 0x40900044
/-- R117. -/
def GEO_EVALS : Nat := 0x40900060
/-- R117. -/
def GEO_QUOTA : Nat := 0x40900064
/-- R117. -/
def GEO_DCLAMP : Nat := 0x40900068
/-- R117. -/
def GEO_MESH_OUT : Nat := 0x4090006C
/-- R117. -/
def GEO_FALLBACK : Nat := 0x40900070
/-- R117. -/
def GEO_EMPTY : Nat := 0x40900074
/-- R117. -/
def GEO_WF_FRONT : Nat := 0x40900078
/-- R117. -/
def GEO_NEAR_FRM : Nat := 0x4090007C
/-- R144. -/
def GEO_SQUASH : Nat := 0x40900080
/-- R144. -/
def GEO_SQ_DEFER : Nat := 0x40900084
/-- R144. -/
def GEO_CONFIRM : Nat := 0x40900088
/-- R144. -/
def GEO_STL_DROP : Nat := 0x4090008C
/-- R144. -/
def GEO_STALE_WR : Nat := 0x40900090
/-- R144. -/
def GEO_LATE_DONE : Nat := 0x40900094
/-- R144. -/
def GEO_REFUSED : Nat := 0x40900098
/-- R144. -/
def GEO_REEVAL : Nat := 0x4090009C
/-- R179. -/
def FAB_IRQ_STAT : Nat := 0x40A00000
/-- R179. -/
def FAB_IRQ_EN : Nat := 0x40A00004
/-- R180. -/
def FAB_CFG : Nat := 0x40A00010
/-- R181. -/
def FAB_CAPS : Nat := 0x40A00014
/-- R181. -/
def FAB_DONE : Nat := 0x40A00018
/-- R181. -/
def FAB_DONE_MAX : Nat := 0x40A0001C
/-- R182. -/
def FAB_CLAMP_LAST : Nat := 0x40A00020
/-- R183. -/
def FAB_OBJ_SEL : Nat := 0x40A00024
/-- R183. -/
def FAB_OBJ_BULK : Nat := 0x40A00028
/-- R183. -/
def FAB_OBJ_SPAN : Nat := 0x40A0002C
/-- R184. -/
def FAB_HOLD : Nat := 0x40A00040
/-- R184. -/
def FAB_CLAMP : Nat := 0x40A00044
/-- R184. -/
def FAB_SAT : Nat := 0x40A00048
/-- R184. -/
def FAB_REFILL : Nat := 0x40A0004C
/-- R184. -/
def FAB_REFILL_DEFER : Nat := 0x40A00050
/-- R184. -/
def FAB_XFADE : Nat := 0x40A00054
/-- R184. -/
def FAB_SLEW : Nat := 0x40A00058
/-- R184. -/
def FAB_SHORTD : Nat := 0x40A0005C
/-- R184. -/
def FAB_ABANDON : Nat := 0x40A00060
/-- R184. -/
def FAB_BANK_STALL : Nat := 0x40A00064
/-- R184. -/
def FAB_OUT_DISC : Nat := 0x40A00068
/-- R212. -/
def OUT_IRQ_STAT : Nat := 0x40B00000
/-- R212. -/
def OUT_IRQ_EN : Nat := 0x40B00004
/-- R213. -/
def OUT_GCFG : Nat := 0x40B00010
/-- R213. -/
def OUT_AMP_CTRL : Nat := 0x40B00014
/-- R213. -/
def OUT_AMP_STAT : Nat := 0x40B00018
/-- R214. -/
def OUT_MON_SEL : Nat := 0x40B00020
/-- R214. -/
def OUT_MON_GR : Nat := 0x40B00024
/-- R214. -/
def OUT_MON_PEAK : Nat := 0x40B00028
/-- R216. -/
def OUT_SAT : Nat := 0x40B00040
/-- R216. -/
def OUT_LIM_ACT : Nat := 0x40B00044
/-- R216. -/
def OUT_EQ_XF : Nat := 0x40B00048
/-- R216. -/
def OUT_SIL_ENTER : Nat := 0x40B0004C
/-- R216. -/
def OUT_SIL_EXIT : Nat := 0x40B00050
/-- R216. -/
def OUT_NODEST : Nat := 0x40B00054
/-- R214. -/
def OUT_SIL_STAT (i : Nat) : Nat := 0x40B00100 + 4 * i
/-- R214. -/
def OUT_BM (i : Nat) : Nat := 0x40B00200 + 4 * i
/-- R215. -/
def OUT_CFG (i : Nat) : Nat := 0x40B04000 + 32 * i
/-- R215. -/
def OUT_DEST (i : Nat) : Nat := 0x40B04004 + 32 * i
/-- R215. -/
def OUT_GAIN (i : Nat) : Nat := 0x40B04008 + 32 * i
/-- R215. -/
def OUT_ALIGN (i : Nat) : Nat := 0x40B0400C + 32 * i
/-- R215. -/
def OUT_LIM (i : Nat) : Nat := 0x40B04010 + 32 * i
/-- R215. -/
def OUT_SIL (i : Nat) : Nat := 0x40B04014 + 32 * i
/-- R249. -/
def CONV_IRQ_STAT : Nat := 0x40C00000
/-- R249. -/
def CONV_IRQ_EN : Nat := 0x40C00004
/-- R250. -/
def CONV_CAPS : Nat := 0x40C00010
/-- R250. -/
def CONV_SWAP_STAT : Nat := 0x40C00014
/-- R251. -/
def CONV_OUT_SEL : Nat := 0x40C00018
/-- R251. -/
def CONV_OUT_STAT : Nat := 0x40C0001C
/-- R251. -/
def CONV_OUT_TAPS_ACT : Nat := 0x40C00020
/-- R251. -/
def CONV_OUT_TAPS_STG : Nat := 0x40C00024
/-- R252. -/
def CONV_DONE : Nat := 0x40C00028
/-- R252. -/
def CONV_DONE_MAX : Nat := 0x40C0002C
/-- R254. -/
def CONV_HEAD_TKT : Nat := 0x40C00040
/-- R254. -/
def CONV_TAIL_TKT : Nat := 0x40C00044
/-- R254. -/
def CONV_SWAP_GRP : Nat := 0x40C00048
/-- R254. -/
def CONV_SWAP_OUT : Nat := 0x40C0004C
/-- R254. -/
def CONV_TAIL_LATE : Nat := 0x40C00050
/-- R254. -/
def CONV_POISON : Nat := 0x40C00054
/-- R254. -/
def CONV_HIST_WAIT : Nat := 0x40C00058
/-- R277. -/
def MEAS_IRQ_STAT : Nat := 0x40D00000
/-- R277. -/
def MEAS_IRQ_EN : Nat := 0x40D00004
/-- R278. -/
def MEAS_PDM_CFG : Nat := 0x40D00010
/-- R278. -/
def MEAS_DC : Nat := 0x40D00014
/-- R278. -/
def MEAS_HPF : Nat := 0x40D00018
/-- R278. -/
def MEAS_CLIP : Nat := 0x40D0001C
/-- R278. -/
def MEAS_CFG : Nat := 0x40D00020
/-- R278. -/
def MEAS_SWP_STAT : Nat := 0x40D00024
/-- R279. -/
def MEAS_PRB_CFG : Nat := 0x40D00030
/-- R279. -/
def MEAS_PRB_STAT : Nat := 0x40D00034
/-- R279. -/
def MEAS_HEALTH_CFG : Nat := 0x40D00038
/-- R280. -/
def MEAS_BLK_DROP : Nat := 0x40D00040
/-- R280. -/
def MEAS_CLIP_CNT : Nat := 0x40D00044
/-- R280. -/
def MEAS_PRB_QUIET : Nat := 0x40D00048
/-- R280. -/
def MEAS_REC_DONE : Nat := 0x40D0004C
/-- R280. -/
def MEAS_HEALTH_CHG : Nat := 0x40D00050
/-- R279. -/
def MEAS_HEALTH (i : Nat) : Nat := 0x40D00100 + 4 * i
/-- R305. -/
def MIX_IRQ_STAT : Nat := 0x40E00000
/-- R305. -/
def MIX_IRQ_EN : Nat := 0x40E00004
/-- R306. -/
def MIX_GCFG : Nat := 0x40E00010
/-- R306. -/
def MIX_DOM_CFG : Nat := 0x40E00014
/-- R306. -/
def MIX_DOM_STAT : Nat := 0x40E00018
/-- R283. -/
def MIX_D1_RATIO : Nat := 0x40E0001C
/-- R306. -/
def MIX_SIL_CFG : Nat := 0x40E00020
/-- R309. -/
def MIX_SAT : Nat := 0x40E00040
/-- R309. -/
def MIX_LIM_ACT : Nat := 0x40E00044
/-- R309. -/
def MIX_RAMP : Nat := 0x40E00048
/-- R309. -/
def MIX_BRG_SLIP : Nat := 0x40E0004C
/-- R309. -/
def MIX_D1_HOLD : Nat := 0x40E00050
/-- R309. -/
def MIX_BYP_ACT : Nat := 0x40E00054
/-- R309. -/
def MIX_SIL_ENTER : Nat := 0x40E00058
/-- R309. -/
def MIX_SIL_EXIT : Nat := 0x40E0005C
/-- R307. -/
def MIX_BRG (i : Nat) : Nat := 0x40E00400 + 4 * i
/-- R307. -/
def MIX_SRC (i j : Nat) : Nat := 0x40E01000 + 1024 * i + 4 * j
/-- R307. -/
def MIX_BUS_CFG (i j : Nat) : Nat := 0x40E02000 + 1024 * i + 4 * j
/-- R307. -/
def MIX_BUS_DEST (i j : Nat) : Nat := 0x40E03000 + 1024 * i + 4 * j
/-- R308. -/
def MIX_BYP_CFG : Nat := 0x40E0C000
/-- R308. -/
def MIX_BYP_STAT : Nat := 0x40E0C004
/-- R308. -/
def MIX_BYP_IN (i : Nat) : Nat := 0x40E0C010 + 4 * i
/-- R308. -/
def MIX_BYP_OUT (i : Nat) : Nat := 0x40E0C040 + 4 * i
/-- R308. -/
def MIX_DUCK_MAP (i j : Nat) : Nat := 0x40E0C100 + 64 * i + 4 * j
/-- R308. -/
def MIX_DUCK_CFG (i : Nat) : Nat := 0x40E0C200 + 4 * i
/-- R332. -/
def TDM_IRQ_STAT : Nat := 0x40F00000
/-- R332. -/
def TDM_IRQ_EN : Nat := 0x40F00004
/-- R334. -/
def TDM_UNDER : Nat := 0x40F00040
/-- R334. -/
def TDM_LOST : Nat := 0x40F00044
/-- R334. -/
def TDM_FS_ERR : Nat := 0x40F00048
/-- R334. -/
def TDM_SLIP : Nat := 0x40F0004C
/-- R334. -/
def TDM_ZC_TO : Nat := 0x40F00050
/-- R334. -/
def TDM_LATE_DISC : Nat := 0x40F00054
/-- R333. -/
def TDM_CFG (i : Nat) : Nat := 0x40F00100 + 32 * i
/-- R333. -/
def TDM_FMT (i : Nat) : Nat := 0x40F00104 + 32 * i
/-- R333. -/
def TDM_TX_MASK (i : Nat) : Nat := 0x40F00108 + 32 * i
/-- R333. -/
def TDM_TX_EN (i : Nat) : Nat := 0x40F0010C + 32 * i
/-- R333. -/
def TDM_RX_EN (i : Nat) : Nat := 0x40F00110 + 32 * i
/-- R333. -/
def TDM_ZC_PEND (i : Nat) : Nat := 0x40F00114 + 32 * i
/-- R333. -/
def TDM_STAT (i : Nat) : Nat := 0x40F00118 + 32 * i
/-- R483. -/
def FXC_IRQ_STAT : Nat := 0x41000000
/-- R483. -/
def FXC_IRQ_EN : Nat := 0x41000004
/-- R483. -/
def FXC_CAPS : Nat := 0x41000010
/-- R486. -/
def FXC_TICKETS : Nat := 0x41000040
/-- R486. -/
def FXC_ABORT : Nat := 0x41000044
/-- R486. -/
def FXC_LATE : Nat := 0x41000048
/-- R486. -/
def FXC_INTR : Nat := 0x4100004C
/-- R486. -/
def FXC_POISON : Nat := 0x41000050
/-- R486. -/
def FXC_STALL : Nat := 0x41000054
/-- R484. -/
def FXC_CORE_STAT (i : Nat) : Nat := 0x41000100 + 32 * i
/-- R484. -/
def FXC_CORE_LOAD (i : Nat) : Nat := 0x41000104 + 32 * i
/-- R484. -/
def FXC_CORE_CYC (i : Nat) : Nat := 0x41000108 + 32 * i
/-- R484. -/
def FXC_CORE_CYC_MAX (i : Nat) : Nat := 0x4100010C + 32 * i
/-- R484. -/
def FXC_CORE_WORDS (i : Nat) : Nat := 0x41000110 + 32 * i
/-- R485. -/
def FXC_INST_CFG (i : Nat) : Nat := 0x41000400 + 32 * i
/-- R485. -/
def FXC_INST_BUDGET (i : Nat) : Nat := 0x41000404 + 32 * i
/-- R485. -/
def FXC_INST_ID (i : Nat) : Nat := 0x41000408 + 32 * i
/-- R485. -/
def FXC_INST_ABORT (i : Nat) : Nat := 0x4100040C + 32 * i
/-- R508. -/
def STBL_IRQ_STAT : Nat := 0x41100000
/-- R508. -/
def STBL_IRQ_EN : Nat := 0x41100004
/-- R509. -/
def STBL_CAPS : Nat := 0x41100010
/-- R509. -/
def STBL_STAT : Nat := 0x41100014
/-- R509. -/
def STBL_TRC_CFG : Nat := 0x41100018
/-- R509. -/
def STBL_TRC_QMASK_LO : Nat := 0x4110001C
/-- R509. -/
def STBL_TRC_QMASK_HI : Nat := 0x41100020
/-- R509. -/
def STBL_TRC_BASE_LO : Nat := 0x41100024
/-- R509. -/
def STBL_TRC_BASE_HI : Nat := 0x41100028
/-- R509. -/
def STBL_TRC_SIZE : Nat := 0x4110002C
/-- R509. -/
def STBL_TRC_WPTR : Nat := 0x41100030
/-- R511. -/
def STBL_ISSUED : Nat := 0x41100040
/-- R511. -/
def STBL_DONE : Nat := 0x41100044
/-- R511. -/
def STBL_DROP : Nat := 0x41100048
/-- R511. -/
def STBL_DISPLACE : Nat := 0x4110004C
/-- R511. -/
def STBL_HW_STALL : Nat := 0x41100050
/-- R511. -/
def STBL_QFULL : Nat := 0x41100054
/-- R511. -/
def STBL_REL_MISS : Nat := 0x41100058
/-- R511. -/
def STBL_TRC_LOST : Nat := 0x4110005C
/-- R510. -/
def STBL_Q_CFG (i : Nat) : Nat := 0x41100100 + 4 * i
/-- R510. -/
def STBL_Q_STAT (i : Nat) : Nat := 0x41100200 + 4 * i
/-- R510. -/
def STBL_FLOW_STAT (i : Nat) : Nat := 0x41100300 + 4 * i
/-- R510. -/
def STBL_ENG_STAT (i : Nat) : Nat := 0x41100380 + 4 * i
/-- R504. -/
def STBL_DMA_STAT (i : Nat) : Nat := 0x41100400 + 16 * i
/-- R504. -/
def STBL_DMA_ERR_LO (i : Nat) : Nat := 0x41100404 + 16 * i
/-- R504. -/
def STBL_DMA_ERR_HI (i : Nat) : Nat := 0x41100408 + 16 * i
/-- R504. -/
def STBL_DMA_BYTES (i : Nat) : Nat := 0x4110040C + 16 * i
/-- R506. -/
def STBL_RING (i : Nat) : Nat := 0x41110000 + 4 * i
/-- R525. -/
def SPN_IRQ_STAT : Nat := 0x41200000
/-- R525. -/
def SPN_IRQ_EN : Nat := 0x41200004
/-- R525. -/
def SPN_CFG : Nat := 0x41200010
/-- R525. -/
def SPN_STAT : Nat := 0x41200014
/-- R525. -/
def SPN_ERRLOG : Nat := 0x41200018
/-- R525. -/
def SPN_ERRLOG_ADDR : Nat := 0x4120001C
/-- R525. -/
def SPN_ERR_STAT : Nat := 0x41200020
/-- R526. -/
def SPN_DECERR : Nat := 0x41200040
/-- R526. -/
def SPN_HOLD_ORD : Nat := 0x41200044
/-- R526. -/
def SPN_HOLD_CAP : Nat := 0x41200048
/-- R526. -/
def SPN_AGED : Nat := 0x4120004C
/-- R526. -/
def SPN_RST_DISC : Nat := 0x41200050
/-- R526. -/
def SPN_TGT_ABORT : Nat := 0x41200054
/-- R525. -/
def SPN_MST_CFG (i : Nat) : Nat := 0x41200100 + 4 * i
/-- R525. -/
def SPN_MST_STAT (i : Nat) : Nat := 0x41200180 + 4 * i
/-- R525. -/
def SPN_TGT_CFG (i : Nat) : Nat := 0x41200200 + 4 * i
/-- R525. -/
def SPN_TGT_STAT (i : Nat) : Nat := 0x41200240 + 4 * i
/-- R545. -/
def MEM_IRQ_STAT : Nat := 0x41300000
/-- R545. -/
def MEM_IRQ_EN : Nat := 0x41300004
/-- R546. -/
def MEM_CFG : Nat := 0x41300010
/-- R546. -/
def MEM_GRM_CFG : Nat := 0x41300014
/-- R546. -/
def MEM_GRM_STAT : Nat := 0x41300018
/-- R546. -/
def MEM_ERRLOG : Nat := 0x4130001C
/-- R546. -/
def MEM_ERRLOG_ADDR : Nat := 0x41300020
/-- R546. -/
def MEM_ERR_STAT : Nat := 0x41300024
/-- R546. -/
def MEM_BANK_SEL : Nat := 0x41300028
/-- R546. -/
def MEM_BANK_STAT : Nat := 0x4130002C
/-- R547. -/
def MEM_CE : Nat := 0x41300040
/-- R547. -/
def MEM_UE_TRANS : Nat := 0x41300044
/-- R547. -/
def MEM_UE_LAST : Nat := 0x41300048
/-- R547. -/
def MEM_POISON_RD : Nat := 0x4130004C
/-- R547. -/
def MEM_GRM_STEPS : Nat := 0x41300050
/-- R547. -/
def MEM_GRM_ABORT : Nat := 0x41300054
/-- R547. -/
def MEM_GRM_SKIP : Nat := 0x41300058
/-- R547. -/
def MEM_GRM_FAULT : Nat := 0x4130005C
/-- R547. -/
def MEM_REPAIRS : Nat := 0x41300060
/-- R565. -/
def DMC_IRQ_STAT : Nat := 0x41400000
/-- R565. -/
def DMC_IRQ_EN : Nat := 0x41400004
/-- R566. -/
def DMC_CFG : Nat := 0x41400010
/-- R566. -/
def DMC_RH : Nat := 0x41400014
/-- R566. -/
def DMC_STAT : Nat := 0x41400018
/-- R566. -/
def DMC_ERRLOG : Nat := 0x4140001C
/-- R566. -/
def DMC_ERRLOG_ADDR : Nat := 0x41400020
/-- R566. -/
def DMC_ERR_STAT : Nat := 0x41400024
/-- R567. -/
def DMC_CH_STAT (i : Nat) : Nat := 0x41400030 + 4 * i
/-- R568. -/
def DMC_CE : Nat := 0x41400040
/-- R568. -/
def DMC_UE_TRANS : Nat := 0x41400044
/-- R568. -/
def DMC_UE_LAST : Nat := 0x41400048
/-- R568. -/
def DMC_POISON_RD : Nat := 0x4140004C
/-- R568. -/
def DMC_RETIRED : Nat := 0x41400050
/-- R568. -/
def DMC_RH_EVENTS : Nat := 0x41400054
/-- R568. -/
def DMC_SR_ABORT : Nat := 0x41400058
/-- R568. -/
def DMC_SR_ENTRY : Nat := 0x4140005C
/-- R568. -/
def DMC_THERM : Nat := 0x41400060
/-- R568. -/
def DMC_CAL_FORCED : Nat := 0x41400064
/-- R444. -/
def TTH_IRQ_STAT : Nat := 0x41500000
/-- R444. -/
def TTH_IRQ_EN : Nat := 0x41500004
/-- R445. -/
def TTH_CFG : Nat := 0x41500010
/-- R445. -/
def TTH_STAT : Nat := 0x41500014
/-- R445. -/
def TTH_LINK_STAT : Nat := 0x41500018
/-- R445. -/
def TTH_REIN_STAT : Nat := 0x4150001C
/-- R445. -/
def TTH_PEER_INFO : Nat := 0x41500020
/-- R445. -/
def TTH_COMPAT : Nat := 0x41500024
/-- R445. -/
def TTH_DIG_FOLIO : Nat := 0x41500028
/-- R445. -/
def TTH_RESYNC_STAT : Nat := 0x4150002C
/-- R446. -/
def TTH_CLAIM : Nat := 0x41500040
/-- R446. -/
def TTH_RELEASE : Nat := 0x41500044
/-- R446. -/
def TTH_FENCE : Nat := 0x41500048
/-- R446. -/
def TTH_FENCE_SKIP : Nat := 0x4150004C
/-- R446. -/
def TTH_DIG_MISMATCH : Nat := 0x41500050
/-- R446. -/
def TTH_UNSYNC : Nat := 0x41500054
/-- R446. -/
def TTH_RESYNC_OK : Nat := 0x41500058
/-- R446. -/
def TTH_RESYNC_FAIL : Nat := 0x4150005C
/-- R446. -/
def TTH_CRC_ERR : Nat := 0x41500060
/-- R446. -/
def TTH_RETX : Nat := 0x41500064
/-- R446. -/
def TTH_LINK_DOWN : Nat := 0x41500068
/-- R446. -/
def TTH_MIRROR_LATE : Nat := 0x4150006C
/-- R446. -/
def TTH_SWITCHOVER : Nat := 0x41500070
/-- R658. -/
def PMC_IRQ_STAT : Nat := 0x41600000
/-- R658. -/
def PMC_IRQ_EN : Nat := 0x41600004
/-- R658. -/
def PMC_CFG : Nat := 0x41600010
/-- R658. -/
def PMC_CTL : Nat := 0x41600014
/-- R658. -/
def PMC_STAT : Nat := 0x41600018
/-- R653. -/
def PMC_MATCH_NS : Nat := 0x41600020
/-- R653. -/
def PMC_MATCH_SLO : Nat := 0x41600024
/-- R653. -/
def PMC_MATCH_SHI : Nat := 0x41600028
/-- R653. -/
def PMC_SNAP_TIME_NS : Nat := 0x41600030
/-- R653. -/
def PMC_SNAP_TIME_SLO : Nat := 0x41600034
/-- R653. -/
def PMC_SNAP_TIME_SHI : Nat := 0x41600038
/-- R658. -/
def PMC_BW_CFG : Nat := 0x41600040
/-- R651. -/
def PMC_WIN (i j : Nat) : Nat := 0x41600080 + 16 * i + 4 * j
/-- R656. -/
def PMC_BW (i : Nat) : Nat := 0x41600400 + 4 * i
/-- R656. -/
def PMC_BW_PEAK (i : Nat) : Nat := 0x41600500 + 4 * i
/-- R659. -/
def PMC_SEL (i : Nat) : Nat := 0x41601000 + 32 * i
/-- R659. -/
def PMC_MMASK (i : Nat) : Nat := 0x41601004 + 32 * i
/-- R659. -/
def PMC_CNT_LO (i : Nat) : Nat := 0x41601008 + 32 * i
/-- R659. -/
def PMC_CNT_HI (i : Nat) : Nat := 0x4160100C + 32 * i
/-- R659. -/
def PMC_SNAP_LO (i : Nat) : Nat := 0x41601010 + 32 * i
/-- R659. -/
def PMC_SNAP_HI (i : Nat) : Nat := 0x41601014 + 32 * i
/-- R659. -/
def PMC_STATK (i : Nat) : Nat := 0x41601018 + 32 * i
/-- R594. -/
def CMD_IRQ_STAT : Nat := 0x41700000
/-- R594. -/
def CMD_IRQ_EN : Nat := 0x41700004
/-- R595. -/
def CMD_CFG : Nat := 0x41700010
/-- R596. -/
def CMD_STAT : Nat := 0x41700014
/-- R597. -/
def CMD_RX : Nat := 0x41700040
/-- R597. -/
def CMD_AUTH_FAIL : Nat := 0x41700044
/-- R597. -/
def CMD_STALE : Nat := 0x41700048
/-- R597. -/
def CMD_REPLAY : Nat := 0x4170004C
/-- R597. -/
def CMD_BUSY : Nat := 0x41700050
/-- R597. -/
def CMD_HSP_ABORT : Nat := 0x41700054
/-- R597. -/
def CMD_HSP_OVR : Nat := 0x41700058
/-- R597. -/
def CMD_NET_DROP : Nat := 0x4170005C
/-- R597. -/
def CMD_TWI_WAKE : Nat := 0x41700060
/-- R616. -/
def SEC_IRQ_STAT : Nat := 0x41800000
/-- R616. -/
def SEC_IRQ_EN : Nat := 0x41800004
/-- R616. -/
def SEC_FUSE : Nat := 0x41800010
/-- R616. -/
def SEC_FLOOR_LO : Nat := 0x41800014
/-- R616. -/
def SEC_FLOOR_HI : Nat := 0x41800018
/-- R616. -/
def SEC_UID_LO : Nat := 0x4180001C
/-- R616. -/
def SEC_UID_HI : Nat := 0x41800020
/-- R616. -/
def SEC_JTAG_STAT : Nat := 0x41800024
/-- R616. -/
def SEC_KEYHASH (i j : Nat) : Nat := 0x41800100 + 64 * i + 4 * j
/-- R620. -/
def GPIO_IRQ_STAT : Nat := 0x41900000
/-- R620. -/
def GPIO_IRQ_EN : Nat := 0x41900004
/-- R620. -/
def GPIO_DIR : Nat := 0x41900010
/-- R620. -/
def GPIO_OD : Nat := 0x41900014
/-- R620. -/
def GPIO_OUT : Nat := 0x41900018
/-- R620. -/
def GPIO_SET : Nat := 0x4190001C
/-- R620. -/
def GPIO_CLR : Nat := 0x41900020
/-- R620. -/
def GPIO_IN : Nat := 0x41900024
/-- R620. -/
def GPIO_EDGE : Nat := 0x41900028
/-- R620. -/
def GPIO_DEB : Nat := 0x4190002C

end Reg

namespace Fl

def SYS_IRQ_STAT_WDOG : Fld := ⟨2, 2⟩
def SYS_IRQ_STAT_TEMP_WARN : Fld := ⟨1, 1⟩
def SYS_IRQ_STAT_MODE : Fld := ⟨0, 0⟩
def SYS_IRQ_SUM_BLK : Fld := ⟨25, 0⟩
def SYS_CAPS_GRADE : Fld := ⟨31, 28⟩
def SYS_CAPS_DRAM_GIB : Fld := ⟨27, 24⟩
def SYS_CAPS_GEO : Fld := ⟨23, 20⟩
def SYS_CAPS_CONV : Fld := ⟨19, 16⟩
def SYS_CAPS_FXC : Fld := ⟨15, 12⟩
def SYS_CAPS_LANES : Fld := ⟨4, 0⟩
def SYS_MODE_TRANSIT : Fld := ⟨8, 8⟩
def SYS_MODE_PREV : Fld := ⟨7, 4⟩
def SYS_MODE_MODE : Fld := ⟨3, 0⟩
def SYS_RST_CAUSE_WDOG_CNT : Fld := ⟨7, 4⟩
def SYS_RST_CAUSE_CAUSE : Fld := ⟨3, 0⟩
def SYS_SAFE_CFG_AMP_MASK : Fld := ⟨15, 0⟩
def SYS_SAFE_STAT_CAUSE : Fld := ⟨3, 0⟩
def SYS_BOOT_STAT_SLOT : Fld := ⟨31, 31⟩
def SYS_BOOT_STAT_FALLBACK : Fld := ⟨30, 30⟩
def SYS_BOOT_STAT_PARTIAL : Fld := ⟨29, 29⟩
def SYS_BOOT_STAT_HSP_BOOT : Fld := ⟨28, 28⟩
def SYS_BOOT_STAT_SEC_VER : Fld := ⟨15, 8⟩
def SYS_BOOT_STAT_FLOOR : Fld := ⟨7, 0⟩
def SYS_JNL_CFG_REF_WAIT : Fld := ⟨15, 8⟩
def SYS_JNL_CFG_RESUME : Fld := ⟨0, 0⟩
def SYS_TEMP_TJ : Fld := ⟨15, 0⟩
def SYS_RENDER_CFG_LOCKED : Fld := ⟨8, 8⟩
def SYS_RENDER_CFG_FOLIO : Fld := ⟨5, 4⟩
def SYS_RENDER_CFG_RATE : Fld := ⟨1, 0⟩
def SYS_DL_STAT_CONSEC : Fld := ⟨15, 8⟩
def SYS_DL_STAT_SAFE_TRIP : Fld := ⟨2, 2⟩
def SYS_DL_STAT_FAULT_EV : Fld := ⟨1, 1⟩
def SYS_DL_STAT_MISS : Fld := ⟨0, 0⟩
def PWR_IRQ_STAT_RTC : Fld := ⟨3, 3⟩
def PWR_IRQ_STAT_HINT : Fld := ⟨2, 2⟩
def PWR_IRQ_STAT_REFUSED : Fld := ⟨1, 1⟩
def PWR_IRQ_STAT_WAKE : Fld := ⟨0, 0⟩
def PWR_CFG_ALARM_EN : Fld := ⟨31, 31⟩
def PWR_CFG_DRAIN_TIMEOUT : Fld := ⟨15, 0⟩
def PWR_STAT_HINT : Fld := ⟨31, 31⟩
def PWR_STAT_ON : Fld := ⟨18, 0⟩
def PWR_RTC_HI_SEC : Fld := ⟨15, 0⟩
def PWR_DOM_CFG_AUTO_RET : Fld := ⟨31, 31⟩
def PWR_DOM_CFG_AUTO_OFF : Fld := ⟨30, 30⟩
def PWR_DOM_CFG_RET_US : Fld := ⟨23, 0⟩
def PWR_DOM_OFFT_OFF_MS : Fld := ⟨19, 0⟩
def PWR_DOM_STAT_STATE : Fld := ⟨31, 29⟩
def PWR_DOM_STAT_IDLE : Fld := ⟨28, 28⟩
def PWR_DOM_STAT_LOCK : Fld := ⟨27, 27⟩
def PWR_DOM_STAT_PRESENT : Fld := ⟨26, 26⟩
def PWR_DOM_STAT_IDLE_MS : Fld := ⟨15, 0⟩
def CLK_IRQ_STAT_MT_STEP : Fld := ⟨7, 7⟩
def CLK_IRQ_STAT_XO_FAIL : Fld := ⟨6, 6⟩
def CLK_IRQ_STAT_DRIFT : Fld := ⟨5, 5⟩
def CLK_IRQ_STAT_QUAL : Fld := ⟨4, 4⟩
def CLK_IRQ_STAT_DISQ : Fld := ⟨3, 3⟩
def CLK_IRQ_STAT_LOST : Fld := ⟨2, 2⟩
def CLK_IRQ_STAT_HOLDOVER : Fld := ⟨1, 1⟩
def CLK_IRQ_STAT_SWITCH : Fld := ⟨0, 0⟩
def CLK_CFG_REVERT : Fld := ⟨31, 31⟩
def CLK_CFG_ALIGN : Fld := ⟨30, 30⟩
def CLK_CFG_WTR_S : Fld := ⟨19, 8⟩
def CLK_CFG_PHASE_SLEW : Fld := ⟨7, 0⟩
def CLK_DPLL_BW : Fld := ⟨9, 0⟩
def CLK_QUAL_ACCEPT_T : Fld := ⟨31, 24⟩
def CLK_QUAL_REJECT : Fld := ⟨21, 12⟩
def CLK_QUAL_ACCEPT : Fld := ⟨9, 0⟩
def CLK_SEL_MANUAL : Fld := ⟨3, 0⟩
def CLK_STAT_REF : Fld := ⟨31, 28⟩
def CLK_STAT_STATE : Fld := ⟨27, 26⟩
def CLK_STAT_XO_FAIL : Fld := ⟨25, 25⟩
def CLK_STAT_PULLING : Fld := ⟨24, 24⟩
def CLK_STAT_PEER : Fld := ⟨23, 23⟩
def CLK_STAT_DCO_SAT : Fld := ⟨22, 22⟩
def CLK_OUT_CFG_REIN_GATE : Fld := ⟨31, 31⟩
def CLK_OUT_CFG_PPS_EN : Fld := ⟨30, 30⟩
def CLK_OUT_CFG_PPS_SRC : Fld := ⟨29, 29⟩
def CLK_OUT_CFG_WCLK : Fld := ⟨27, 24⟩
def CLK_OUT_CFG_MCLK : Fld := ⟨15, 0⟩
def CLK_REF_CFG_EN : Fld := ⟨31, 31⟩
def CLK_REF_CFG_PPS_EN : Fld := ⟨30, 30⟩
def CLK_REF_CFG_NOM : Fld := ⟨26, 24⟩
def CLK_REF_STAT_STATE : Fld := ⟨31, 29⟩
def CLK_REF_STAT_DRIFT : Fld := ⟨28, 28⟩
def CLK_REF_STAT_ELIGIBLE : Fld := ⟨27, 27⟩
def CLK_REF_STAT_FOFF : Fld := ⟨15, 0⟩
def PTP_IRQ_STAT_TS_MISS : Fld := ⟨4, 4⟩
def PTP_IRQ_STAT_SLEW : Fld := ⟨3, 3⟩
def PTP_IRQ_STAT_STEP : Fld := ⟨2, 2⟩
def PTP_IRQ_STAT_GM_LOST : Fld := ⟨1, 1⟩
def PTP_IRQ_STAT_GM_CHG : Fld := ⟨0, 0⟩
def PTP_CFG_PROFILE : Fld := ⟨31, 30⟩
def PTP_CFG_TRANSPORT : Fld := ⟨29, 28⟩
def PTP_CFG_MASTER_EN : Fld := ⟨27, 27⟩
def PTP_CFG_EN : Fld := ⟨26, 26⟩
def PTP_CFG_PORT : Fld := ⟨25, 24⟩
def PTP_CFG_ALT_PORT : Fld := ⟨23, 22⟩
def PTP_CFG_DOMAIN : Fld := ⟨15, 8⟩
def PTP_CFG_SLEW_MAX : Fld := ⟨7, 0⟩
def PTP_PRIO_PRIORITY1 : Fld := ⟨31, 24⟩
def PTP_PRIO_PRIORITY2 : Fld := ⟨23, 16⟩
def PTP_PRIO_CLASS : Fld := ⟨15, 8⟩
def PTP_INTV_ANNOUNCE : Fld := ⟨31, 24⟩
def PTP_INTV_SYNC : Fld := ⟨23, 16⟩
def PTP_INTV_DELAY : Fld := ⟨15, 8⟩
def PTP_INTV_ANN_TIMEOUT : Fld := ⟨7, 0⟩
def PTP_STAT_PORT_STATE : Fld := ⟨31, 28⟩
def PTP_STAT_STEPPED : Fld := ⟨27, 27⟩
def PTP_STAT_RELOCK_ARMED : Fld := ⟨26, 26⟩
def PTP_STAT_SLEWING : Fld := ⟨25, 25⟩
def PTP_STAT_GM_PRESENT : Fld := ⟨24, 24⟩
def PTP_STAT_PORT_USED : Fld := ⟨23, 22⟩
def PTP_TIME_SHI_SEC : Fld := ⟨15, 0⟩
def MAC_IRQ_STAT_EXCESS_COL : Fld := ⟨7, 7⟩
def MAC_IRQ_STAT_LATE_COL : Fld := ⟨6, 6⟩
def MAC_IRQ_STAT_TS_OVF : Fld := ⟨5, 5⟩
def MAC_IRQ_STAT_FIFO_DROP : Fld := ⟨4, 4⟩
def MAC_IRQ_STAT_QDROP : Fld := ⟨3, 3⟩
def MAC_IRQ_STAT_PAUSE_RX : Fld := ⟨2, 2⟩
def MAC_IRQ_STAT_FAULT : Fld := ⟨1, 1⟩
def MAC_IRQ_STAT_LINK : Fld := ⟨0, 0⟩
def MAC_CFG_TX_EN : Fld := ⟨31, 31⟩
def MAC_CFG_RX_EN : Fld := ⟨30, 30⟩
def MAC_CFG_DFLT_DROP : Fld := ⟨29, 29⟩
def MAC_CFG_DFLT_Q : Fld := ⟨28, 24⟩
def MAC_CFG_SPEED : Fld := ⟨19, 18⟩
def MAC_CFG_HALF : Fld := ⟨17, 17⟩
def MAC_CFG_FEC : Fld := ⟨16, 16⟩
def MAC_CFG_MAX_LEN : Fld := ⟨13, 0⟩
def MAC_LINK_STAT_UP : Fld := ⟨31, 31⟩
def MAC_LINK_STAT_BLOCK_LOCK : Fld := ⟨30, 30⟩
def MAC_LINK_STAT_HI_BER : Fld := ⟨29, 29⟩
def MAC_LINK_STAT_LOCAL_FAULT : Fld := ⟨28, 28⟩
def MAC_LINK_STAT_REMOTE_FAULT : Fld := ⟨27, 27⟩
def MAC_LINK_STAT_FEC_LOCK : Fld := ⟨26, 26⟩
def MAC_LINK_STAT_INB_SPEED : Fld := ⟨18, 17⟩
def MAC_LINK_STAT_INB_FULL : Fld := ⟨16, 16⟩
def MAC_TS_ADJ_EGR_ADJ : Fld := ⟨31, 16⟩
def MAC_TS_ADJ_ING_ADJ : Fld := ⟨15, 2⟩
def MAC_TS_ADJ_RXC_DLY : Fld := ⟨1, 1⟩
def MAC_TS_ADJ_TXC_DLY : Fld := ⟨0, 0⟩
def MAC_PAUSE_STAT_REMAIN : Fld := ⟨15, 0⟩
def MAC_RULE_COMMIT_GO : Fld := ⟨0, 0⟩
def MAC_TXTS_STAT_OVF : Fld := ⟨31, 31⟩
def MAC_TXTS_STAT_COUNT : Fld := ⟨6, 0⟩
def MAC_TXTS_W0_VALID : Fld := ⟨31, 31⟩
def MAC_TXTS_W0_TAG : Fld := ⟨15, 0⟩
def MAC_TXTS_W3_SEC_HI : Fld := ⟨15, 0⟩
def MAC_MDIO_GO : Fld := ⟨31, 31⟩
def MAC_MDIO_C45 : Fld := ⟨30, 30⟩
def MAC_MDIO_OP : Fld := ⟨29, 28⟩
def MAC_MDIO_PHYAD : Fld := ⟨27, 23⟩
def MAC_MDIO_REGAD : Fld := ⟨22, 18⟩
def MAC_MDIO_DATA : Fld := ⟨15, 0⟩
def MAC_TXQ_EN : Fld := ⟨31, 31⟩
def MAC_TXQ_PAUSE_EN : Fld := ⟨30, 30⟩
def MAC_TXQ_PAUSED : Fld := ⟨29, 29⟩
def MAC_TXQ_MEDIA : Fld := ⟨28, 28⟩
def MAC_RXQ_EN : Fld := ⟨31, 31⟩
def MAC_RXQ_FW : Fld := ⟨30, 30⟩
def MAC_RXQ_DROP : Fld := ⟨29, 29⟩
def MAC_RXQ_FILL : Fld := ⟨15, 0⟩
def MAC_RULE_CTL_EN : Fld := ⟨31, 31⟩
def MAC_RULE_CTL_DROP : Fld := ⟨30, 30⟩
def MAC_RULE_CTL_VID_MODE : Fld := ⟨29, 28⟩
def MAC_RULE_CTL_ET_EN : Fld := ⟨27, 27⟩
def MAC_RULE_CTL_PCP : Fld := ⟨26, 24⟩
def MAC_RULE_CTL_PCP_MASK : Fld := ⟨22, 20⟩
def MAC_RULE_CTL_QUEUE : Fld := ⟨4, 0⟩
def MAC_RULE_VT_ETYPE : Fld := ⟨31, 16⟩
def MAC_RULE_VT_VID : Fld := ⟨11, 0⟩
def MAC_RULE_DA_HI_DA : Fld := ⟨15, 0⟩
def MAC_RULE_DAM_HI_MASK : Fld := ⟨15, 0⟩
def STRM_IRQ_STAT_TX_NORES : Fld := ⟨7, 7⟩
def STRM_IRQ_STAT_FW_LIMIT : Fld := ⟨6, 6⟩
def STRM_IRQ_STAT_SSRC : Fld := ⟨5, 5⟩
def STRM_IRQ_STAT_SKEW : Fld := ⟨4, 4⟩
def STRM_IRQ_STAT_OFFSET_ERR : Fld := ⟨3, 3⟩
def STRM_IRQ_STAT_LEG_DOWN : Fld := ⟨2, 2⟩
def STRM_IRQ_STAT_LATE : Fld := ⟨1, 1⟩
def STRM_IRQ_STAT_SUBST : Fld := ⟨0, 0⟩
def STRM_CFG_FW_RATE : Fld := ⟨23, 16⟩
def STRM_CFG_SKEW_MS : Fld := ⟨4, 0⟩
def STRM_STAT_TX_STREAMS : Fld := ⟨24, 16⟩
def STRM_STAT_RX_STREAMS : Fld := ⟨8, 0⟩
def OMS_IRQ_STAT_CLAMP : Fld := ⟨5, 5⟩
def OMS_IRQ_STAT_COALESCE : Fld := ⟨4, 4⟩
def OMS_IRQ_STAT_LATE : Fld := ⟨3, 3⟩
def OMS_IRQ_STAT_STALE : Fld := ⟨2, 2⟩
def OMS_IRQ_STAT_BADENT : Fld := ⟨1, 1⟩
def OMS_IRQ_STAT_DROP : Fld := ⟨0, 0⟩
def OMS_CFG_UDP_PORT : Fld := ⟨31, 16⟩
def OMS_CFG_POSE_RUN : Fld := ⟨15, 8⟩
def OMS_CFG_SESS_EN : Fld := ⟨3, 3⟩
def OMS_CFG_HSP_EN : Fld := ⟨2, 2⟩
def OMS_CFG_MB_EN : Fld := ⟨1, 1⟩
def OMS_CFG_MA_EN : Fld := ⟨0, 0⟩
def OMS_VEL_GAP_MS : Fld := ⟨15, 0⟩
def OMS_OBJ_SEL_SLOT : Fld := ⟨9, 0⟩
def OMS_OBJ_STAT_HANDLE : Fld := ⟨31, 16⟩
def OMS_OBJ_STAT_PEND : Fld := ⟨15, 12⟩
def OMS_OBJ_STAT_CONF : Fld := ⟨3, 3⟩
def OMS_OBJ_STAT_POSED : Fld := ⟨2, 2⟩
def OMS_OBJ_STAT_STATE : Fld := ⟨1, 0⟩
def GEO_IRQ_STAT_LAYOUT : Fld := ⟨7, 7⟩
def GEO_IRQ_STAT_NEAR : Fld := ⟨6, 6⟩
def GEO_IRQ_STAT_WF_FRONT : Fld := ⟨5, 5⟩
def GEO_IRQ_STAT_EMPTY : Fld := ⟨4, 4⟩
def GEO_IRQ_STAT_FALLBACK : Fld := ⟨3, 3⟩
def GEO_IRQ_STAT_MESH_OUT : Fld := ⟨2, 2⟩
def GEO_IRQ_STAT_DCLAMP : Fld := ⟨1, 1⟩
def GEO_IRQ_STAT_QUOTA : Fld := ⟨0, 0⟩
def GEO_CFG_SOUND_MPS : Fld := ⟨31, 16⟩
def GEO_CFG_SPEC_TOL : Fld := ⟨15, 8⟩
def GEO_CFG_GLIDE : Fld := ⟨7, 4⟩
def GEO_CFG_HORIZON : Fld := ⟨3, 0⟩
def GEO_DATT_EXP : Fld := ⟨15, 0⟩
def GEO_DATT_REF_REF_MM : Fld := ⟨23, 0⟩
def GEO_NEAR_DBLUR_MM : Fld := ⟨31, 16⟩
def GEO_NEAR_DMIN_MM : Fld := ⟨15, 0⟩
def GEO_AIR_REF_MM : Fld := ⟨23, 0⟩
def GEO_WF_MIN_MIN_MM : Fld := ⟨15, 0⟩
def GEO_DREF_DREF_MM : Fld := ⟨23, 0⟩
def GEO_OPT_MESH_DLY : Fld := ⟨0, 0⟩
def GEO_LAYOUT_STAT_LOADED : Fld := ⟨31, 31⟩
def GEO_LAYOUT_STAT_ZONES : Fld := ⟨30, 26⟩
def GEO_LAYOUT_STAT_ARRAYS : Fld := ⟨25, 20⟩
def GEO_LAYOUT_STAT_SPEAKERS : Fld := ⟨9, 0⟩
def GEO_SPK_SEL_SPK : Fld := ⟨8, 0⟩
def GEO_SPK_STAT_ZONES : Fld := ⟨31, 16⟩
def GEO_SPK_STAT_ARRAY : Fld := ⟨4, 4⟩
def GEO_SPK_STAT_OUT_CONF : Fld := ⟨3, 3⟩
def GEO_SPK_STAT_DISABLED : Fld := ⟨2, 2⟩
def GEO_SPK_STAT_SUB : Fld := ⟨1, 1⟩
def GEO_SPK_STAT_PRESENT : Fld := ⟨0, 0⟩
def FAB_IRQ_STAT_ABANDON : Fld := ⟨4, 4⟩
def FAB_IRQ_STAT_REFILL_DEFER : Fld := ⟨3, 3⟩
def FAB_IRQ_STAT_SAT : Fld := ⟨2, 2⟩
def FAB_IRQ_STAT_CLAMP : Fld := ⟨1, 1⟩
def FAB_IRQ_STAT_HOLD : Fld := ⟨0, 0⟩
def FAB_CFG_DELAY_SLEW : Fld := ⟨15, 0⟩
def FAB_CAPS_GATHERINGS : Fld := ⟨11, 8⟩
def FAB_CAPS_QUIRES : Fld := ⟨7, 4⟩
def FAB_CAPS_LANES : Fld := ⟨3, 0⟩
def FAB_CLAMP_LAST_VALID : Fld := ⟨31, 31⟩
def FAB_CLAMP_LAST_NEED : Fld := ⟨19, 16⟩
def FAB_CLAMP_LAST_SLOT : Fld := ⟨9, 0⟩
def FAB_OBJ_SEL_SLOT : Fld := ⟨9, 0⟩
def FAB_OBJ_BULK_BULK : Fld := ⟨16, 0⟩
def FAB_OBJ_SPAN_SPAN : Fld := ⟨23, 0⟩
def OUT_IRQ_STAT_NODEST : Fld := ⟨4, 4⟩
def OUT_IRQ_STAT_SIL_EXIT : Fld := ⟨3, 3⟩
def OUT_IRQ_STAT_SIL_ENTER : Fld := ⟨2, 2⟩
def OUT_IRQ_STAT_LIM : Fld := ⟨1, 1⟩
def OUT_IRQ_STAT_SAT : Fld := ⟨0, 0⟩
def OUT_GCFG_EQ_XF : Fld := ⟨7, 4⟩
def OUT_GCFG_GAIN_RAMP : Fld := ⟨3, 0⟩
def OUT_AMP_STAT_IDLE_HINT : Fld := ⟨31, 31⟩
def OUT_AMP_STAT_LEVEL : Fld := ⟨15, 0⟩
def OUT_MON_SEL_OUT : Fld := ⟨8, 0⟩
def OUT_MON_GR_GAIN : Fld := ⟨23, 0⟩
def OUT_BM_SEND : Fld := ⟨31, 16⟩
def OUT_BM_FC : Fld := ⟨7, 0⟩
def OUT_CFG_CONF : Fld := ⟨31, 31⟩
def OUT_CFG_SUB : Fld := ⟨30, 30⟩
def OUT_CFG_INVERT : Fld := ⟨29, 29⟩
def OUT_CFG_DITHER : Fld := ⟨28, 28⟩
def OUT_CFG_LOOK : Fld := ⟨27, 27⟩
def OUT_CFG_LIM_EN : Fld := ⟨26, 26⟩
def OUT_CFG_BED_EN : Fld := ⟨25, 25⟩
def OUT_CFG_BM_EN : Fld := ⟨24, 24⟩
def OUT_CFG_BM_GRP : Fld := ⟨20, 16⟩
def OUT_CFG_BED_BUS : Fld := ⟨15, 8⟩
def OUT_CFG_AMP_GRP : Fld := ⟨7, 4⟩
def OUT_CFG_AMP_MAP : Fld := ⟨3, 3⟩
def OUT_DEST_KIND : Fld := ⟨31, 30⟩
def OUT_DEST_PORT : Fld := ⟨23, 16⟩
def OUT_DEST_CHAN : Fld := ⟨5, 0⟩
def OUT_GAIN_BED_GAIN : Fld := ⟨31, 16⟩
def OUT_GAIN_GAIN : Fld := ⟨15, 0⟩
def OUT_ALIGN_DELAY : Fld := ⟨13, 0⟩
def OUT_LIM_THRESH : Fld := ⟨31, 16⟩
def OUT_LIM_REL_MS : Fld := ⟨15, 0⟩
def OUT_SIL_THRESH : Fld := ⟨31, 16⟩
def OUT_SIL_EN : Fld := ⟨15, 15⟩
def OUT_SIL_HOLD : Fld := ⟨9, 0⟩
def CONV_IRQ_STAT_DORMANT : Fld := ⟨5, 5⟩
def CONV_IRQ_STAT_HIST_WAIT : Fld := ⟨4, 4⟩
def CONV_IRQ_STAT_POISON : Fld := ⟨3, 3⟩
def CONV_IRQ_STAT_TAIL_LATE : Fld := ⟨2, 2⟩
def CONV_IRQ_STAT_GROUP_DONE : Fld := ⟨1, 1⟩
def CONV_IRQ_STAT_SWAP_DONE : Fld := ⟨0, 0⟩
def CONV_CAPS_HEAD_SLOTS : Fld := ⟨31, 20⟩
def CONV_CAPS_LONG_MAX : Fld := ⟨15, 8⟩
def CONV_CAPS_ENGINES : Fld := ⟨3, 0⟩
def CONV_SWAP_STAT_ACTIVE : Fld := ⟨31, 31⟩
def CONV_SWAP_STAT_PHASE : Fld := ⟨30, 29⟩
def CONV_SWAP_STAT_GROUP : Fld := ⟨23, 20⟩
def CONV_SWAP_STAT_GROUPS : Fld := ⟨19, 16⟩
def CONV_SWAP_STAT_REMAIN : Fld := ⟨15, 0⟩
def CONV_OUT_SEL_OUT : Fld := ⟨8, 0⟩
def CONV_OUT_STAT_CONF : Fld := ⟨31, 31⟩
def CONV_OUT_STAT_STG_DAMAGED : Fld := ⟨7, 7⟩
def CONV_OUT_STAT_HISTORY : Fld := ⟨6, 6⟩
def CONV_OUT_STAT_SWAPPING : Fld := ⟨5, 5⟩
def CONV_OUT_STAT_DAMAGED : Fld := ⟨4, 4⟩
def CONV_OUT_STAT_DORMANT : Fld := ⟨3, 3⟩
def CONV_OUT_STAT_LONG : Fld := ⟨2, 2⟩
def CONV_OUT_STAT_ACT_SET : Fld := ⟨1, 1⟩
def CONV_OUT_STAT_IN_FORCE : Fld := ⟨0, 0⟩
def CONV_OUT_TAPS_ACT_TAPS : Fld := ⟨16, 0⟩
def CONV_OUT_TAPS_STG_TAPS : Fld := ⟨16, 0⟩
def MEAS_IRQ_STAT_FAIL : Fld := ⟨5, 5⟩
def MEAS_IRQ_STAT_SHIFT : Fld := ⟨4, 4⟩
def MEAS_IRQ_STAT_RESULT : Fld := ⟨3, 3⟩
def MEAS_IRQ_STAT_DROP : Fld := ⟨2, 2⟩
def MEAS_IRQ_STAT_CLIP : Fld := ⟨1, 1⟩
def MEAS_IRQ_STAT_SWEEP_DONE : Fld := ⟨0, 0⟩
def MEAS_PDM_CFG_CH_EN : Fld := ⟨31, 16⟩
def MEAS_PDM_CFG_PRESET : Fld := ⟨3, 2⟩
def MEAS_PDM_CFG_CLK : Fld := ⟨0, 0⟩
def MEAS_DC_FREEZE : Fld := ⟨15, 0⟩
def MEAS_HPF_WIND : Fld := ⟨31, 16⟩
def MEAS_HPF_OFFSET : Fld := ⟨15, 0⟩
def MEAS_CLIP_CLIP : Fld := ⟨15, 0⟩
def MEAS_CFG_MAX_S : Fld := ⟨9, 0⟩
def MEAS_SWP_STAT_ACTIVE : Fld := ⟨31, 31⟩
def MEAS_SWP_STAT_OUT : Fld := ⟨24, 16⟩
def MEAS_SWP_STAT_REP : Fld := ⟨15, 8⟩
def MEAS_SWP_STAT_PROGRESS : Fld := ⟨7, 0⟩
def MEAS_PRB_CFG_EN : Fld := ⟨31, 31⟩
def MEAS_PRB_CFG_QUIET_ACT : Fld := ⟨30, 30⟩
def MEAS_PRB_CFG_INTEG_S : Fld := ⟨25, 16⟩
def MEAS_PRB_CFG_MIN_S : Fld := ⟨15, 6⟩
def MEAS_PRB_CFG_DEPTH : Fld := ⟨5, 0⟩
def MEAS_PRB_STAT_GROUP : Fld := ⟨31, 28⟩
def MEAS_PRB_STAT_ELAPSED : Fld := ⟨9, 0⟩
def MEAS_HEALTH_CFG_MIN_COH : Fld := ⟨31, 24⟩
def MEAS_HEALTH_CFG_FAIL_DB : Fld := ⟨23, 12⟩
def MEAS_HEALTH_CFG_SHIFT_DB : Fld := ⟨11, 0⟩
def MIX_IRQ_STAT_D2_UNLOCK : Fld := ⟨7, 7⟩
def MIX_IRQ_STAT_SIL_EXIT : Fld := ⟨6, 6⟩
def MIX_IRQ_STAT_SIL_ENTER : Fld := ⟨5, 5⟩
def MIX_IRQ_STAT_BYP_ACT : Fld := ⟨4, 4⟩
def MIX_IRQ_STAT_D1_HOLD : Fld := ⟨3, 3⟩
def MIX_IRQ_STAT_SLIP : Fld := ⟨2, 2⟩
def MIX_IRQ_STAT_LIM : Fld := ⟨1, 1⟩
def MIX_IRQ_STAT_SAT : Fld := ⟨0, 0⟩
def MIX_GCFG_RAMP : Fld := ⟨12, 0⟩
def MIX_DOM_CFG_D2_REF : Fld := ⟨7, 6⟩
def MIX_DOM_CFG_D1_RATE : Fld := ⟨3, 2⟩
def MIX_DOM_CFG_D1_REF : Fld := ⟨1, 0⟩
def MIX_DOM_STAT_D2_LOCK : Fld := ⟨2, 2⟩
def MIX_DOM_STAT_D1_HOLD : Fld := ⟨1, 1⟩
def MIX_DOM_STAT_D1_LOCK : Fld := ⟨0, 0⟩
def MIX_SIL_CFG_THRESH : Fld := ⟨31, 16⟩
def MIX_SIL_CFG_HOLD : Fld := ⟨9, 0⟩
def MIX_BRG_EN : Fld := ⟨31, 31⟩
def MIX_BRG_SRC_DOM : Fld := ⟨27, 26⟩
def MIX_BRG_DST_DOM : Fld := ⟨25, 24⟩
def MIX_BRG_BUS : Fld := ⟨7, 0⟩
def MIX_SRC_KIND : Fld := ⟨31, 28⟩
def MIX_SRC_INDEX : Fld := ⟨17, 8⟩
def MIX_SRC_CHAN : Fld := ⟨5, 0⟩
def MIX_BUS_CFG_LIM_EN : Fld := ⟨31, 31⟩
def MIX_BUS_CFG_AMP_MAP : Fld := ⟨30, 30⟩
def MIX_BUS_CFG_SIL_EN : Fld := ⟨29, 29⟩
def MIX_BUS_CFG_AMP_GRP : Fld := ⟨23, 20⟩
def MIX_BUS_CFG_LIM_THRESH : Fld := ⟨15, 0⟩
def MIX_BUS_DEST_KIND : Fld := ⟨31, 30⟩
def MIX_BUS_DEST_PORT : Fld := ⟨23, 16⟩
def MIX_BUS_DEST_CHAN : Fld := ⟨5, 0⟩
def MIX_BYP_CFG_EN : Fld := ⟨31, 31⟩
def MIX_BYP_CFG_RATE : Fld := ⟨30, 30⟩
def MIX_BYP_CFG_GATE_HOLD : Fld := ⟨23, 16⟩
def MIX_BYP_CFG_GATE_THRESH : Fld := ⟨15, 0⟩
def MIX_BYP_STAT_FOLLOW : Fld := ⟨8, 8⟩
def MIX_BYP_STAT_ACTIVE : Fld := ⟨7, 0⟩
def MIX_BYP_IN_EN : Fld := ⟨31, 31⟩
def MIX_BYP_IN_SLOT : Fld := ⟨28, 24⟩
def MIX_BYP_IN_DUCK : Fld := ⟨23, 20⟩
def MIX_BYP_IN_AMP : Fld := ⟨15, 0⟩
def MIX_BYP_OUT_EN : Fld := ⟨31, 31⟩
def MIX_BYP_OUT_IN_MASK : Fld := ⟨23, 16⟩
def MIX_BYP_OUT_GAIN : Fld := ⟨15, 0⟩
def MIX_DUCK_CFG_DEPTH : Fld := ⟨31, 16⟩
def MIX_DUCK_CFG_ATTACK : Fld := ⟨15, 8⟩
def MIX_DUCK_CFG_RELEASE : Fld := ⟨7, 0⟩
def TDM_IRQ_STAT_ZC_TO : Fld := ⟨4, 4⟩
def TDM_IRQ_STAT_SLIP : Fld := ⟨3, 3⟩
def TDM_IRQ_STAT_FS_ERR : Fld := ⟨2, 2⟩
def TDM_IRQ_STAT_LOST : Fld := ⟨1, 1⟩
def TDM_IRQ_STAT_UNDER : Fld := ⟨0, 0⟩
def TDM_CFG_EN : Fld := ⟨31, 31⟩
def TDM_CFG_MASTER : Fld := ⟨30, 30⟩
def TDM_CFG_DOM : Fld := ⟨29, 28⟩
def TDM_CFG_GRP_EN : Fld := ⟨27, 27⟩
def TDM_CFG_GROUP : Fld := ⟨26, 24⟩
def TDM_CFG_ZC_TIMEOUT : Fld := ⟨9, 0⟩
def TDM_FMT_LSB_FIRST : Fld := ⟨31, 31⟩
def TDM_FMT_BCLK_POL : Fld := ⟨30, 30⟩
def TDM_FMT_FS_POL : Fld := ⟨29, 29⟩
def TDM_FMT_FS_WIDTH : Fld := ⟨28, 27⟩
def TDM_FMT_OFFSET : Fld := ⟨20, 16⟩
def TDM_FMT_SLOT_W : Fld := ⟨15, 14⟩
def TDM_FMT_DATA_W : Fld := ⟨13, 8⟩
def TDM_FMT_SLOTS : Fld := ⟨5, 0⟩
def TDM_STAT_RUN : Fld := ⟨31, 31⟩
def TDM_STAT_LOST : Fld := ⟨30, 30⟩
def TDM_STAT_UNDER : Fld := ⟨29, 29⟩
def TDM_STAT_FENCED : Fld := ⟨28, 28⟩
def TDM_STAT_BCLK_KHZ : Fld := ⟨15, 0⟩
def FXC_IRQ_STAT_POISON : Fld := ⟨2, 2⟩
def FXC_IRQ_STAT_LATE : Fld := ⟨1, 1⟩
def FXC_IRQ_STAT_ABORT : Fld := ⟨0, 0⟩
def FXC_CAPS_INSTANCES : Fld := ⟨15, 8⟩
def FXC_CAPS_CORES : Fld := ⟨3, 0⟩
def FXC_CORE_STAT_PRESENT : Fld := ⟨31, 31⟩
def FXC_CORE_STAT_BUSY : Fld := ⟨30, 30⟩
def FXC_CORE_STAT_IACT : Fld := ⟨29, 29⟩
def FXC_CORE_STAT_INST : Fld := ⟨27, 24⟩
def FXC_CORE_STAT_FREE_KB : Fld := ⟨8, 0⟩
def FXC_CORE_LOAD_ADMIT : Fld := ⟨23, 0⟩
def FXC_INST_CFG_EN : Fld := ⟨31, 31⟩
def FXC_INST_CFG_PRIO : Fld := ⟨30, 28⟩
def FXC_INST_CFG_CORE : Fld := ⟨26, 24⟩
def FXC_INST_CFG_N_IN : Fld := ⟨23, 18⟩
def FXC_INST_CFG_N_OUT : Fld := ⟨17, 12⟩
def FXC_INST_CFG_OUT_BASE : Fld := ⟨7, 0⟩
def FXC_INST_BUDGET_WORDS : Fld := ⟨21, 0⟩
def FXC_INST_ABORT_CAUSE : Fld := ⟨31, 28⟩
def FXC_INST_ABORT_COUNT : Fld := ⟨27, 15⟩
def FXC_INST_ABORT_PC : Fld := ⟨14, 0⟩
def STBL_IRQ_STAT_DMA_ERR : Fld := ⟨4, 4⟩
def STBL_IRQ_STAT_TRC_FULL : Fld := ⟨3, 3⟩
def STBL_IRQ_STAT_TRC_LOST : Fld := ⟨2, 2⟩
def STBL_IRQ_STAT_QFULL : Fld := ⟨1, 1⟩
def STBL_IRQ_STAT_REL_MISS : Fld := ⟨0, 0⟩
def STBL_CAPS_TICKETS : Fld := ⟨24, 16⟩
def STBL_CAPS_QUEUES : Fld := ⟨14, 8⟩
def STBL_CAPS_FLOWS : Fld := ⟨5, 0⟩
def STBL_STAT_IN_FLIGHT : Fld := ⟨24, 16⟩
def STBL_STAT_POOL_USED : Fld := ⟨8, 0⟩
def STBL_TRC_CFG_EN : Fld := ⟨31, 31⟩
def STBL_TRC_CFG_DEST : Fld := ⟨30, 30⟩
def STBL_TRC_CFG_STOP : Fld := ⟨29, 29⟩
def STBL_TRC_CFG_EVENTS : Fld := ⟨28, 23⟩
def STBL_TRC_BASE_LO_BASE : Fld := ⟨31, 12⟩
def STBL_TRC_BASE_HI_BASE : Fld := ⟨7, 0⟩
def STBL_Q_CFG_EN : Fld := ⟨31, 31⟩
def STBL_Q_CFG_PRIO : Fld := ⟨30, 28⟩
def STBL_Q_CFG_LIMIT : Fld := ⟨16, 8⟩
def STBL_Q_CFG_RESV : Fld := ⟨7, 0⟩
def STBL_Q_STAT_PEAK : Fld := ⟨24, 16⟩
def STBL_Q_STAT_COUNT : Fld := ⟨8, 0⟩
def STBL_FLOW_STAT_NEXT : Fld := ⟨31, 16⟩
def STBL_FLOW_STAT_HELD : Fld := ⟨6, 0⟩
def STBL_ENG_STAT_PRESENT : Fld := ⟨31, 31⟩
def STBL_ENG_STAT_BUSY : Fld := ⟨30, 30⟩
def STBL_ENG_STAT_STALLS : Fld := ⟨29, 28⟩
def STBL_ENG_STAT_QUEUE : Fld := ⟨27, 22⟩
def STBL_DMA_STAT_BUSY : Fld := ⟨31, 31⟩
def STBL_DMA_STAT_CAUSE : Fld := ⟨30, 28⟩
def STBL_DMA_STAT_FLOW : Fld := ⟨23, 16⟩
def STBL_DMA_STAT_SEQ : Fld := ⟨15, 0⟩
def STBL_DMA_ERR_HI_WRITE : Fld := ⟨31, 31⟩
def STBL_DMA_ERR_HI_ADDR : Fld := ⟨7, 0⟩
def SPN_IRQ_STAT_TGT_RST : Fld := ⟨3, 3⟩
def SPN_IRQ_STAT_MST_RST : Fld := ⟨2, 2⟩
def SPN_IRQ_STAT_LOG_OVF : Fld := ⟨1, 1⟩
def SPN_IRQ_STAT_DECERR : Fld := ⟨0, 0⟩
def SPN_CFG_AGE : Fld := ⟨11, 0⟩
def SPN_STAT_OUTST : Fld := ⟨8, 0⟩
def SPN_ERRLOG_VALID : Fld := ⟨31, 31⟩
def SPN_ERRLOG_WRITE : Fld := ⟨30, 30⟩
def SPN_ERRLOG_CAUSE : Fld := ⟨29, 26⟩
def SPN_ERRLOG_TARGET : Fld := ⟨23, 20⟩
def SPN_ERRLOG_MASTER : Fld := ⟨12, 8⟩
def SPN_ERRLOG_ADDR_HI : Fld := ⟨7, 0⟩
def SPN_ERR_STAT_OVF : Fld := ⟨31, 31⟩
def SPN_ERR_STAT_COUNT : Fld := ⟨4, 0⟩
def SPN_MST_CFG_QOS : Fld := ⟨3, 0⟩
def SPN_MST_STAT_PRESENT : Fld := ⟨31, 31⟩
def SPN_MST_STAT_DRAIN : Fld := ⟨30, 30⟩
def SPN_MST_STAT_HELD_ORD : Fld := ⟨29, 29⟩
def SPN_MST_STAT_HELD_CAP : Fld := ⟨28, 28⟩
def SPN_MST_STAT_DEMOTE : Fld := ⟨27, 24⟩
def SPN_MST_STAT_OUTST : Fld := ⟨8, 0⟩
def SPN_TGT_CFG_PARK : Fld := ⟨4, 0⟩
def SPN_TGT_STAT_ASLEEP : Fld := ⟨31, 31⟩
def SPN_TGT_STAT_PARKED : Fld := ⟨20, 16⟩
def SPN_TGT_STAT_OUTST : Fld := ⟨8, 0⟩
def MEM_IRQ_STAT_LOG_OVF : Fld := ⟨6, 6⟩
def MEM_IRQ_STAT_SPARE_OUT : Fld := ⟨5, 5⟩
def MEM_IRQ_STAT_REPAIRED : Fld := ⟨4, 4⟩
def MEM_IRQ_STAT_GRM_FAULT : Fld := ⟨3, 3⟩
def MEM_IRQ_STAT_UE_LAST : Fld := ⟨2, 2⟩
def MEM_IRQ_STAT_UE_TRANS : Fld := ⟨1, 1⟩
def MEM_IRQ_STAT_CE : Fld := ⟨0, 0⟩
def MEM_CFG_GRM_EN : Fld := ⟨31, 31⟩
def MEM_CFG_AUTO_REPAIR : Fld := ⟨30, 30⟩
def MEM_CFG_ALIAS_EN : Fld := ⟨29, 29⟩
def MEM_GRM_CFG_INTERVAL : Fld := ⟨31, 24⟩
def MEM_GRM_CFG_BACKOFF : Fld := ⟨23, 16⟩
def MEM_GRM_CFG_MAX_ABORT : Fld := ⟨15, 12⟩
def MEM_GRM_STAT_PASSES : Fld := ⟨31, 17⟩
def MEM_GRM_STAT_REGION : Fld := ⟨16, 0⟩
def MEM_ERRLOG_VALID : Fld := ⟨31, 31⟩
def MEM_ERRLOG_CAUSE : Fld := ⟨30, 28⟩
def MEM_ERRLOG_BANK : Fld := ⟨24, 16⟩
def MEM_ERRLOG_ROW : Fld := ⟨11, 0⟩
def MEM_ERR_STAT_OVF : Fld := ⟨31, 31⟩
def MEM_ERR_STAT_PENDING : Fld := ⟨12, 8⟩
def MEM_ERR_STAT_COUNT : Fld := ⟨4, 0⟩
def MEM_BANK_SEL_BANK : Fld := ⟨8, 0⟩
def MEM_BANK_STAT_PRESENT : Fld := ⟨31, 31⟩
def MEM_BANK_STAT_SPARE_OUT : Fld := ⟨30, 30⟩
def MEM_BANK_STAT_SPARES_USED : Fld := ⟨18, 16⟩
def MEM_BANK_STAT_LASTING : Fld := ⟨15, 0⟩
def DMC_IRQ_STAT_LOG_OVF : Fld := ⟨6, 6⟩
def DMC_IRQ_STAT_POOL_OUT : Fld := ⟨5, 5⟩
def DMC_IRQ_STAT_RETIRED : Fld := ⟨4, 4⟩
def DMC_IRQ_STAT_THERM : Fld := ⟨3, 3⟩
def DMC_IRQ_STAT_RH : Fld := ⟨2, 2⟩
def DMC_IRQ_STAT_UE_LAST : Fld := ⟨1, 1⟩
def DMC_IRQ_STAT_CE : Fld := ⟨0, 0⟩
def DMC_CFG_AUTO_RETIRE : Fld := ⟨31, 31⟩
def DMC_CFG_FSP : Fld := ⟨1, 0⟩
def DMC_RH_THRESH : Fld := ⟨31, 16⟩
def DMC_RH_DEMOTE : Fld := ⟨15, 12⟩
def DMC_RH_GAP : Fld := ⟨11, 0⟩
def DMC_STAT_FSP_NOW : Fld := ⟨31, 30⟩
def DMC_STAT_TRAINING : Fld := ⟨29, 29⟩
def DMC_STAT_DEFER : Fld := ⟨28, 28⟩
def DMC_STAT_SELF_REF : Fld := ⟨27, 27⟩
def DMC_STAT_HOT : Fld := ⟨26, 26⟩
def DMC_STAT_FAIL_CAUSE : Fld := ⟨25, 24⟩
def DMC_STAT_TEMP : Fld := ⟨7, 0⟩
def DMC_ERRLOG_VALID : Fld := ⟨31, 31⟩
def DMC_ERRLOG_CAUSE : Fld := ⟨30, 28⟩
def DMC_ERRLOG_CHAN : Fld := ⟨27, 26⟩
def DMC_ERRLOG_BANK : Fld := ⟨25, 22⟩
def DMC_ERRLOG_MASTER : Fld := ⟨21, 16⟩
def DMC_ERRLOG_ROW : Fld := ⟨15, 0⟩
def DMC_ERR_STAT_OVF : Fld := ⟨31, 31⟩
def DMC_ERR_STAT_PENDING : Fld := ⟨12, 8⟩
def DMC_ERR_STAT_COUNT : Fld := ⟨4, 0⟩
def DMC_CH_STAT_UP : Fld := ⟨31, 31⟩
def DMC_CH_STAT_CAL_RETRY : Fld := ⟨30, 30⟩
def DMC_CH_STAT_POOL_FREE : Fld := ⟨19, 12⟩
def DMC_CH_STAT_QUEUE : Fld := ⟨5, 0⟩
def TTH_IRQ_STAT_SWITCHOVER : Fld := ⟨10, 10⟩
def TTH_IRQ_STAT_ID_CONFLICT : Fld := ⟨9, 9⟩
def TTH_IRQ_STAT_PEER : Fld := ⟨8, 8⟩
def TTH_IRQ_STAT_LINK : Fld := ⟨7, 7⟩
def TTH_IRQ_STAT_RESYNC_FAIL : Fld := ⟨6, 6⟩
def TTH_IRQ_STAT_RESYNC_DONE : Fld := ⟨5, 5⟩
def TTH_IRQ_STAT_UNSYNC : Fld := ⟨4, 4⟩
def TTH_IRQ_STAT_DIVERGE : Fld := ⟨3, 3⟩
def TTH_IRQ_STAT_FENCE : Fld := ⟨2, 2⟩
def TTH_IRQ_STAT_RELEASE : Fld := ⟨1, 1⟩
def TTH_IRQ_STAT_CLAIM : Fld := ⟨0, 0⟩
def TTH_CFG_AUTO_RESYNC : Fld := ⟨31, 31⟩
def TTH_CFG_SNAP_GBPS : Fld := ⟨23, 16⟩
def TTH_CFG_CUT_KB : Fld := ⟨13, 0⟩
def TTH_STAT_PSTATE : Fld := ⟨31, 28⟩
def TTH_STAT_RPHASE : Fld := ⟨27, 26⟩
def TTH_STAT_HOLDS : Fld := ⟨25, 25⟩
def TTH_STAT_DRIVING : Fld := ⟨24, 24⟩
def TTH_STAT_PEER_READY : Fld := ⟨23, 23⟩
def TTH_STAT_LINK_UP : Fld := ⟨22, 22⟩
def TTH_STAT_LANE_DEG : Fld := ⟨21, 21⟩
def TTH_STAT_PAIR_EN : Fld := ⟨20, 20⟩
def TTH_STAT_UNIT_ID : Fld := ⟨19, 19⟩
def TTH_STAT_ID_CONFLICT : Fld := ⟨18, 18⟩
def TTH_STAT_RUN : Fld := ⟨7, 0⟩
def TTH_LINK_STAT_LANE0 : Fld := ⟨31, 31⟩
def TTH_LINK_STAT_LANE1 : Fld := ⟨30, 30⟩
def TTH_LINK_STAT_ALIGNED : Fld := ⟨29, 29⟩
def TTH_LINK_STAT_RTT_NS : Fld := ⟨15, 0⟩
def TTH_REIN_STAT_CAUSE : Fld := ⟨31, 28⟩
def TTH_REIN_STAT_QUIET : Fld := ⟨15, 0⟩
def TTH_PEER_INFO_PSTATE : Fld := ⟨31, 28⟩
def TTH_PEER_INFO_MODE : Fld := ⟨27, 24⟩
def TTH_PEER_INFO_COMPAT : Fld := ⟨15, 0⟩
def TTH_COMPAT_LEVEL : Fld := ⟨15, 0⟩
def TTH_RESYNC_STAT_ATTEMPT : Fld := ⟨31, 28⟩
def TTH_RESYNC_STAT_PASS : Fld := ⟨23, 16⟩
def TTH_RESYNC_STAT_DIRTY_KB : Fld := ⟨15, 0⟩
def PMC_IRQ_STAT_FREEZE : Fld := ⟨2, 2⟩
def PMC_IRQ_STAT_WRAP : Fld := ⟨1, 1⟩
def PMC_IRQ_STAT_SNAP : Fld := ⟨0, 0⟩
def PMC_CFG_USER_EN : Fld := ⟨31, 31⟩
def PMC_CFG_FREEZE_ON_TRIG : Fld := ⟨30, 30⟩
def PMC_CFG_PIN_EN : Fld := ⟨29, 29⟩
def PMC_CFG_MATCH_EN : Fld := ⟨28, 28⟩
def PMC_CTL_CLR_ALL : Fld := ⟨3, 3⟩
def PMC_CTL_RUN : Fld := ⟨2, 2⟩
def PMC_CTL_FREEZE : Fld := ⟨1, 1⟩
def PMC_CTL_SNAP : Fld := ⟨0, 0⟩
def PMC_STAT_FROZEN : Fld := ⟨31, 31⟩
def PMC_STAT_SRC : Fld := ⟨18, 16⟩
def PMC_STAT_SEQ : Fld := ⟨15, 0⟩
def PMC_MATCH_SHI_VAL : Fld := ⟨15, 0⟩
def PMC_SNAP_TIME_SHI_VAL : Fld := ⟨15, 0⟩
def PMC_BW_CFG_EN : Fld := ⟨31, 31⟩
def PMC_BW_CFG_WIN_US : Fld := ⟨19, 0⟩
def PMC_SEL_CLR : Fld := ⟨31, 31⟩
def PMC_SEL_EN : Fld := ⟨30, 30⟩
def PMC_SEL_OVF : Fld := ⟨29, 29⟩
def PMC_SEL_PRIV : Fld := ⟨28, 26⟩
def PMC_SEL_WIN : Fld := ⟨25, 24⟩
def PMC_SEL_CLASS : Fld := ⟨23, 20⟩
def PMC_SEL_EVENT : Fld := ⟨19, 12⟩
def PMC_SEL_OCC_N : Fld := ⟨11, 0⟩
def PMC_CNT_HI_COUNT : Fld := ⟨15, 0⟩
def PMC_SNAP_HI_COUNT : Fld := ⟨15, 0⟩
def PMC_STATK_PRESENT : Fld := ⟨31, 31⟩
def PMC_STATK_CHAINED : Fld := ⟨30, 30⟩
def PMC_STATK_STICKY : Fld := ⟨29, 29⟩
def CMD_IRQ_STAT_WAKE : Fld := ⟨4, 4⟩
def CMD_IRQ_STAT_AUTH_FAIL : Fld := ⟨3, 3⟩
def CMD_IRQ_STAT_EVENT : Fld := ⟨2, 2⟩
def CMD_IRQ_STAT_DONE : Fld := ⟨1, 1⟩
def CMD_IRQ_STAT_RX : Fld := ⟨0, 0⟩
def CMD_CFG_UDP_PORT : Fld := ⟨31, 16⟩
def CMD_CFG_NOAUTH_ROLE : Fld := ⟨15, 14⟩
def CMD_CFG_IRQ_SEV : Fld := ⟨13, 12⟩
def CMD_CFG_NET_B : Fld := ⟨2, 2⟩
def CMD_CFG_NET_A : Fld := ⟨1, 1⟩
def CMD_CFG_NET_M : Fld := ⟨0, 0⟩
def CMD_STAT_BUSY : Fld := ⟨31, 31⟩
def CMD_STAT_PEER_BUSY : Fld := ⟨30, 30⟩
def CMD_STAT_PORT : Fld := ⟨25, 24⟩
def CMD_STAT_PROGRESS : Fld := ⟨23, 16⟩
def CMD_STAT_OPCODE : Fld := ⟨15, 0⟩
def SEC_IRQ_STAT_FUSE : Fld := ⟨2, 2⟩
def SEC_IRQ_STAT_JTAG_FAIL : Fld := ⟨1, 1⟩
def SEC_IRQ_STAT_JTAG_OPEN : Fld := ⟨0, 0⟩
def SEC_FUSE_AUTH_HSP : Fld := ⟨31, 31⟩
def SEC_FUSE_AUTH_TWI : Fld := ⟨30, 30⟩
def SEC_FUSE_JTAG_LOCK : Fld := ⟨29, 29⟩
def SEC_FUSE_DBG_OFF : Fld := ⟨28, 28⟩
def SEC_FUSE_REVOKE : Fld := ⟨27, 24⟩
def SEC_FUSE_KEY_SET : Fld := ⟨23, 20⟩
def SEC_JTAG_STAT_OPEN : Fld := ⟨31, 31⟩
def SEC_JTAG_STAT_TEST : Fld := ⟨30, 30⟩
def SEC_JTAG_STAT_FAILS : Fld := ⟨3, 0⟩
def GPIO_IRQ_STAT_EDGE : Fld := ⟨15, 0⟩
def GPIO_DIR_OUT : Fld := ⟨15, 0⟩
def GPIO_OD_OD : Fld := ⟨15, 0⟩
def GPIO_OUT_LEVEL : Fld := ⟨15, 0⟩
def GPIO_SET_SET : Fld := ⟨15, 0⟩
def GPIO_CLR_CLR : Fld := ⟨15, 0⟩
def GPIO_IN_LEVEL : Fld := ⟨15, 0⟩
def GPIO_DEB_TIME : Fld := ⟨15, 0⟩

end Fl

/-- Rows of block 0 (SYS). -/
def rowsSYS : List RegRow :=
  [ ⟨0x0, 1, 1048576, 1, 1048576, 0x0, 0x0, 0x7, 0x0, 0x0, 0x0, 0x0, 0x0⟩,  -- SYS_IRQ_STAT
    ⟨0x4, 1, 1048576, 1, 1048576, 0x7, 0x0, 0x0, 0x0, 0x0, 0x0, 0x0, 0x0⟩,  -- SYS_IRQ_EN
    ⟨0x8, 1, 1048576, 1, 1048576, 0x0, 0x0, 0x0, 0x0, 0x0, 0x0, 0x3FFFFFF, 0x0⟩,  -- SYS_IRQ_SUM
    ⟨0x10, 1, 1048576, 1, 1048576, 0x0, 0x0, 0x0, 0x0, 0x0, 0x0, 0xFFFFF01F, 0x0⟩,  -- SYS_CAPS
    ⟨0x14, 1, 1048576, 1, 1048576, 0x0, 0x0, 0x0, 0x0, 0x0, 0x0, 0x1FF, 0x1⟩,  -- SYS_MODE
    ⟨0x18, 1, 1048576, 1, 1048576, 0x0, 0x0, 0x0, 0x0, 0x0, 0x0, 0xFF, 0x0⟩,  -- SYS_RST_CAUSE
    ⟨0x1C, 1, 1048576, 1, 1048576, 0x0, 0x0, 0x0, 0x0, 0x0, 0xFFFF, 0x0, 0x0⟩,  -- SYS_SAFE_CFG
    ⟨0x20, 1, 1048576, 1, 1048576, 0x0, 0x0, 0x0, 0x0, 0x0, 0xF, 0x0, 0x0⟩,  -- SYS_SAFE_STAT
    ⟨0x24, 1, 1048576, 1, 1048576, 0x0, 0x0, 0x0, 0x0, 0x0, 0x0, 0xF000FFFF, 0x0⟩,  -- SYS_BOOT_STAT
    ⟨0x28, 1, 1048576, 1, 1048576, 0xFF01, 0x0, 0x0, 0x0, 0x0, 0x0, 0x0, 0x1C01⟩,  -- SYS_JNL_CFG
    ⟨0x2C, 1, 1048576, 1, 1048576, 0x0, 0x0, 0x0, 0x0, 0x0, 0x0, 0xFFFF, 0x0⟩,  -- SYS_TEMP
    ⟨0x100, 1, 1048576, 1, 1048576, 0x33, 0x0, 0x0, 0x0, 0x0, 0x0, 0x100, 0x11⟩,  -- SYS_RENDER_CFG
    ⟨0x104, 1, 1048576, 1, 1048576, 0x0, 0x0, 0x0, 0x0, 0x0, 0x0, 0xFFFFFFFF, 0x0⟩,  -- SYS_MEDIA_TIME_LO
    ⟨0x108, 1, 1048576, 1, 1048576, 0x0, 0x0, 0x0, 0x0, 0x0, 0x0, 0xFFFFFFFF, 0x0⟩,  -- SYS_MEDIA_TIME_HI
    ⟨0x10C, 1, 1048576, 1, 1048576, 0x0, 0x0, 0x7, 0x0, 0x0, 0x0, 0xFF00, 0x0⟩,  -- SYS_DL_STAT
    ⟨0x110, 1, 1048576, 1, 1048576, 0x0, 0x0, 0x0, 0x0, 0xFFFFFFFF, 0x0, 0x0, 0x0⟩  -- SYS_DL_MISS
  ]

/-- Rows of block 1 (PWR). -/
def rowsPWR : List RegRow :=
  [ ⟨0x0, 1, 1048576, 1, 1048576, 0x0, 0x0, 0xF, 0x0, 0x0, 0x0, 0x0, 0x0⟩,  -- PWR_IRQ_STAT
    ⟨0x4, 1, 1048576, 1, 1048576, 0xF, 0x0, 0x0, 0x0, 0x0, 0x0, 0x0, 0x0⟩,  -- PWR_IRQ_EN
    ⟨0x10, 1, 1048576, 1, 1048576, 0xFFFF, 0x0, 0x0, 0x0, 0x0, 0x80000000, 0x0, 0x64⟩,  -- PWR_CFG
    ⟨0x14, 1, 1048576, 1, 1048576, 0x0, 0x0, 0x0, 0x0, 0x0, 0x0, 0x8007FFFF, 0x0⟩,  -- PWR_STAT
    ⟨0x18, 1, 1048576, 1, 1048576, 0x0, 0x0, 0x0, 0x0, 0x0, 0x0, 0xFFFFFFFF, 0x0⟩,  -- PWR_RTC_LO
    ⟨0x1C, 1, 1048576, 1, 1048576, 0x0, 0x0, 0x0, 0x0, 0x0, 0x0, 0xFFFF, 0x0⟩,  -- PWR_RTC_HI
    ⟨0x20, 1, 1048576, 1, 1048576, 0x0, 0x0, 0x0, 0x0, 0x0, 0xFFFFFFFF, 0x0, 0x0⟩,  -- PWR_RTC_ALARM
    ⟨0x40, 1, 1048576, 1, 1048576, 0x0, 0x0, 0x0, 0x0, 0xFFFFFFFF, 0x0, 0x0, 0x0⟩,  -- PWR_RET_ENTRY
    ⟨0x44, 1, 1048576, 1, 1048576, 0x0, 0x0, 0x0, 0x0, 0xFFFFFFFF, 0x0, 0x0, 0x0⟩,  -- PWR_OFF_ENTRY
    ⟨0x48, 1, 1048576, 1, 1048576, 0x0, 0x0, 0x0, 0x0, 0xFFFFFFFF, 0x0, 0x0, 0x0⟩,  -- PWR_WAKE
    ⟨0x4C, 1, 1048576, 1, 1048576, 0x0, 0x0, 0x0, 0x0, 0xFFFFFFFF, 0x0, 0x0, 0x0⟩,  -- PWR_REFUSED
    ⟨0x50, 1, 1048576, 1, 1048576, 0x0, 0x0, 0x0, 0x0, 0xFFFFFFFF, 0x0, 0x0, 0x0⟩,  -- PWR_ABORT
    ⟨0x100, 1, 1048576, 19, 16, 0xC0FFFFFF, 0x0, 0x0, 0x0, 0x0, 0x0, 0x0, 0x3E8⟩,  -- PWR_DOM_CFG
    ⟨0x104, 1, 1048576, 19, 16, 0xFFFFF, 0x0, 0x0, 0x0, 0x0, 0x0, 0x0, 0x2710⟩,  -- PWR_DOM_OFFT
    ⟨0x108, 1, 1048576, 19, 16, 0x0, 0x0, 0x0, 0x0, 0x0, 0x0, 0xFC00FFFF, 0x40000000⟩  -- PWR_DOM_STAT
  ]

/-- Rows of block 2 (CLK). -/
def rowsCLK : List RegRow :=
  [ ⟨0x0, 1, 1048576, 1, 1048576, 0x0, 0x0, 0xFF, 0x0, 0x0, 0x0, 0x0, 0x0⟩,  -- CLK_IRQ_STAT
    ⟨0x4, 1, 1048576, 1, 1048576, 0xFF, 0x0, 0x0, 0x0, 0x0, 0x0, 0x0, 0x0⟩,  -- CLK_IRQ_EN
    ⟨0x10, 1, 1048576, 1, 1048576, 0xC00FFFFF, 0x0, 0x0, 0x0, 0x0, 0x0, 0x0, 0x40000A32⟩,  -- CLK_CFG
    ⟨0x14, 1, 1048576, 1, 1048576, 0x3FF, 0x0, 0x0, 0x0, 0x0, 0x0, 0x0, 0x32⟩,  -- CLK_DPLL
    ⟨0x18, 1, 1048576, 1, 1048576, 0xFF3FF3FF, 0x0, 0x0, 0x0, 0x0, 0x0, 0x0, 0x140FA064⟩,  -- CLK_QUAL
    ⟨0x1C, 1, 1048576, 1, 1048576, 0xF, 0x0, 0x0, 0x0, 0x0, 0x0, 0x0, 0xF⟩,  -- CLK_SEL
    ⟨0x20, 1, 1048576, 1, 1048576, 0x0, 0x0, 0x0, 0x0, 0x0, 0x0, 0xFFC00000, 0x50000000⟩,  -- CLK_STAT
    ⟨0x24, 1, 1048576, 1, 1048576, 0x0, 0x0, 0x0, 0x0, 0x0, 0x0, 0xFFFFFFFF, 0x0⟩,  -- CLK_PHASE_ERR
    ⟨0x28, 1, 1048576, 1, 1048576, 0x0, 0x0, 0x0, 0x0, 0x0, 0x0, 0xFFFFFFFF, 0x0⟩,  -- CLK_MT_ERR
    ⟨0x30, 1, 1048576, 1, 1048576, 0x0, 0x0, 0x0, 0x0, 0x0, 0x0, 0xFFFFFFFF, 0x0⟩,  -- CLK_DCO_LO
    ⟨0x34, 1, 1048576, 1, 1048576, 0x0, 0x0, 0x0, 0x0, 0x0, 0x0, 0xFFFFFFFF, 0x0⟩,  -- CLK_DCO_HI
    ⟨0x38, 1, 1048576, 1, 1048576, 0xEF00FFFF, 0x0, 0x0, 0x0, 0x0, 0x0, 0x0, 0x80000000⟩,  -- CLK_OUT_CFG
    ⟨0x40, 1, 1048576, 1, 1048576, 0x0, 0x0, 0x0, 0x0, 0xFFFFFFFF, 0x0, 0x0, 0x0⟩,  -- CLK_SWITCH
    ⟨0x44, 1, 1048576, 1, 1048576, 0x0, 0x0, 0x0, 0x0, 0xFFFFFFFF, 0x0, 0x0, 0x0⟩,  -- CLK_HOLDOVER
    ⟨0x48, 1, 1048576, 1, 1048576, 0x0, 0x0, 0x0, 0x0, 0xFFFFFFFF, 0x0, 0x0, 0x0⟩,  -- CLK_REF_LOSS
    ⟨0x4C, 1, 1048576, 1, 1048576, 0x0, 0x0, 0x0, 0x0, 0xFFFFFFFF, 0x0, 0x0, 0x0⟩  -- CLK_REF_DISQ
  ] ++
  [ ⟨0x50, 1, 1048576, 1, 1048576, 0x0, 0x0, 0x0, 0x0, 0xFFFFFFFF, 0x0, 0x0, 0x0⟩,  -- CLK_MT_STEP
    ⟨0x54, 1, 1048576, 1, 1048576, 0x0, 0x0, 0x0, 0x0, 0xFFFFFFFF, 0x0, 0x0, 0x0⟩,  -- CLK_XO_FAIL
    ⟨0x100, 1, 1048576, 6, 4, 0xC7000000, 0x0, 0x0, 0x0, 0x0, 0x0, 0x0, 0x2000000⟩,  -- CLK_REF_CFG
    ⟨0x120, 1, 1048576, 6, 4, 0x0, 0x0, 0x0, 0x0, 0x0, 0x0, 0xF800FFFF, 0x0⟩  -- CLK_REF_STAT
  ]

/-- Rows of block 3 (PTP). -/
def rowsPTP : List RegRow :=
  [ ⟨0x0, 1, 1048576, 1, 1048576, 0x0, 0x0, 0x1F, 0x0, 0x0, 0x0, 0x0, 0x0⟩,  -- PTP_IRQ_STAT
    ⟨0x4, 1, 1048576, 1, 1048576, 0x1F, 0x0, 0x0, 0x0, 0x0, 0x0, 0x0, 0x0⟩,  -- PTP_IRQ_EN
    ⟨0x10, 1, 1048576, 1, 1048576, 0xFFC0FFFF, 0x0, 0x0, 0x0, 0x0, 0x0, 0x0, 0x400064⟩,  -- PTP_CFG
    ⟨0x14, 1, 1048576, 1, 1048576, 0xFFFFFF00, 0x0, 0x0, 0x0, 0x0, 0x0, 0x0, 0x8080F800⟩,  -- PTP_PRIO
    ⟨0x18, 1, 1048576, 1, 1048576, 0xFFFFFFFF, 0x0, 0x0, 0x0, 0x0, 0x0, 0x0, 0x1000003⟩,  -- PTP_INTV
    ⟨0x1C, 1, 1048576, 1, 1048576, 0x0, 0x0, 0x0, 0x0, 0x0, 0x0, 0xFFC00000, 0x10000000⟩,  -- PTP_STAT
    ⟨0x20, 1, 1048576, 1, 1048576, 0x0, 0x0, 0x0, 0x0, 0x0, 0x0, 0xFFFFFFFF, 0x0⟩,  -- PTP_TIME_NS
    ⟨0x24, 1, 1048576, 1, 1048576, 0x0, 0x0, 0x0, 0x0, 0x0, 0x0, 0xFFFFFFFF, 0x0⟩,  -- PTP_TIME_SLO
    ⟨0x28, 1, 1048576, 1, 1048576, 0x0, 0x0, 0x0, 0x0, 0x0, 0x0, 0xFFFF, 0x0⟩,  -- PTP_TIME_SHI
    ⟨0x2C, 1, 1048576, 1, 1048576, 0x0, 0x0, 0x0, 0x0, 0x0, 0x0, 0xFFFFFFFF, 0x0⟩,  -- PTP_OFFSET
    ⟨0x30, 1, 1048576, 1, 1048576, 0x0, 0x0, 0x0, 0x0, 0x0, 0x0, 0xFFFFFFFF, 0x0⟩,  -- PTP_MPD
    ⟨0x34, 1, 1048576, 1, 1048576, 0x0, 0x0, 0x0, 0x0, 0x0, 0x0, 0xFFFFFFFF, 0x0⟩,  -- PTP_RATE
    ⟨0x38, 1, 1048576, 1, 1048576, 0x0, 0x0, 0x0, 0x0, 0x0, 0x0, 0xFFFFFFFF, 0x0⟩,  -- PTP_GM_LO
    ⟨0x3C, 1, 1048576, 1, 1048576, 0x0, 0x0, 0x0, 0x0, 0x0, 0x0, 0xFFFFFFFF, 0x0⟩,  -- PTP_GM_HI
    ⟨0x40, 1, 1048576, 1, 1048576, 0x0, 0x0, 0x0, 0x0, 0xFFFFFFFF, 0x0, 0x0, 0x0⟩,  -- PTP_SYNC_RX
    ⟨0x44, 1, 1048576, 1, 1048576, 0x0, 0x0, 0x0, 0x0, 0xFFFFFFFF, 0x0, 0x0, 0x0⟩  -- PTP_ANN_RX
  ] ++
  [ ⟨0x48, 1, 1048576, 1, 1048576, 0x0, 0x0, 0x0, 0x0, 0xFFFFFFFF, 0x0, 0x0, 0x0⟩,  -- PTP_DELAY_TX
    ⟨0x4C, 1, 1048576, 1, 1048576, 0x0, 0x0, 0x0, 0x0, 0xFFFFFFFF, 0x0, 0x0, 0x0⟩,  -- PTP_DELAY_RX
    ⟨0x50, 1, 1048576, 1, 1048576, 0x0, 0x0, 0x0, 0x0, 0xFFFFFFFF, 0x0, 0x0, 0x0⟩,  -- PTP_GM_CHG
    ⟨0x54, 1, 1048576, 1, 1048576, 0x0, 0x0, 0x0, 0x0, 0xFFFFFFFF, 0x0, 0x0, 0x0⟩,  -- PTP_TS_MISS
    ⟨0x58, 1, 1048576, 1, 1048576, 0x0, 0x0, 0x0, 0x0, 0xFFFFFFFF, 0x0, 0x0, 0x0⟩  -- PTP_DROPPED
  ]

/-- Rows of block 4 (MACA). -/
def rowsMACA : List RegRow :=
  [ ⟨0x0, 1, 1048576, 1, 1048576, 0x0, 0x0, 0xFF, 0x0, 0x0, 0x0, 0x0, 0x0⟩,  -- MAC_IRQ_STAT
    ⟨0x4, 1, 1048576, 1, 1048576, 0xFF, 0x0, 0x0, 0x0, 0x0, 0x0, 0x0, 0x0⟩,  -- MAC_IRQ_EN
    ⟨0x10, 1, 1048576, 1, 1048576, 0xFF0F3FFF, 0x0, 0x0, 0x0, 0x0, 0x0, 0x0, 0x20002400⟩,  -- MAC_CFG
    ⟨0x14, 1, 1048576, 1, 1048576, 0x0, 0x0, 0x0, 0x0, 0x0, 0x0, 0xFC070000, 0x0⟩,  -- MAC_LINK_STAT
    ⟨0x18, 1, 1048576, 1, 1048576, 0xFFFFFFFF, 0x0, 0x0, 0x0, 0x0, 0x0, 0x0, 0x0⟩,  -- MAC_TS_ADJ
    ⟨0x1C, 1, 1048576, 1, 1048576, 0x0, 0x0, 0x0, 0x0, 0x0, 0x0, 0xFFFF, 0x0⟩,  -- MAC_PAUSE_STAT
    ⟨0x20, 1, 1048576, 1, 1048576, 0x0, 0x0, 0x0, 0x1, 0x0, 0x0, 0x0, 0x0⟩,  -- MAC_RULE_COMMIT
    ⟨0x30, 1, 1048576, 1, 1048576, 0x0, 0x0, 0x80000000, 0x0, 0x0, 0x0, 0x7F, 0x0⟩,  -- MAC_TXTS_STAT
    ⟨0x34, 1, 1048576, 1, 1048576, 0x0, 0x0, 0x0, 0x0, 0x80000000, 0x0, 0xFFFF, 0x0⟩,  -- MAC_TXTS_W0
    ⟨0x38, 1, 1048576, 1, 1048576, 0x0, 0x0, 0x0, 0x0, 0x0, 0x0, 0xFFFFFFFF, 0x0⟩,  -- MAC_TXTS_W1
    ⟨0x3C, 1, 1048576, 1, 1048576, 0x0, 0x0, 0x0, 0x0, 0x0, 0x0, 0xFFFFFFFF, 0x0⟩,  -- MAC_TXTS_W2
    ⟨0x40, 1, 1048576, 1, 1048576, 0x0, 0x0, 0x0, 0x0, 0x0, 0x0, 0xFFFF, 0x0⟩,  -- MAC_TXTS_W3
    ⟨0x50, 1, 1048576, 1, 1048576, 0x7FFCFFFF, 0x0, 0x0, 0x80000000, 0x0, 0x0, 0x0, 0x0⟩,  -- MAC_MDIO
    ⟨0x80, 1, 1048576, 8, 4, 0xC0000000, 0x0, 0x0, 0x0, 0x0, 0x0, 0x30000000, 0x80000000⟩,  -- MAC_TXQ
    ⟨0x100, 1, 1048576, 32, 4, 0x80000000, 0x0, 0x20000000, 0x0, 0x0, 0x0, 0x4000FFFF, 0x80000000⟩,  -- MAC_RXQ
    ⟨0x400, 1, 1048576, 32, 32, 0xFF70001F, 0x0, 0x0, 0x0, 0x0, 0x0, 0x0, 0x0⟩  -- MAC_RULE_CTL
  ] ++
  [ ⟨0x404, 1, 1048576, 32, 32, 0xFFFF0FFF, 0x0, 0x0, 0x0, 0x0, 0x0, 0x0, 0x0⟩,  -- MAC_RULE_VT
    ⟨0x408, 1, 1048576, 32, 32, 0xFFFF, 0x0, 0x0, 0x0, 0x0, 0x0, 0x0, 0x0⟩,  -- MAC_RULE_DA_HI
    ⟨0x40C, 1, 1048576, 32, 32, 0xFFFFFFFF, 0x0, 0x0, 0x0, 0x0, 0x0, 0x0, 0x0⟩,  -- MAC_RULE_DA_LO
    ⟨0x410, 1, 1048576, 32, 32, 0xFFFF, 0x0, 0x0, 0x0, 0x0, 0x0, 0x0, 0x0⟩,  -- MAC_RULE_DAM_HI
    ⟨0x414, 1, 1048576, 32, 32, 0xFFFFFFFF, 0x0, 0x0, 0x0, 0x0, 0x0, 0x0, 0x0⟩,  -- MAC_RULE_DAM_LO
    ⟨0x800, 1, 1048576, 23, 8, 0x0, 0x0, 0x0, 0x0, 0xFFFFFFFF, 0x0, 0x0, 0x0⟩,  -- MAC_STAT_LO
    ⟨0x804, 1, 1048576, 23, 8, 0x0, 0x0, 0x0, 0x0, 0x0, 0x0, 0xFFFFFFFF, 0x0⟩  -- MAC_STAT_HI
  ]

/-- Rows of block 7 (STRM). -/
def rowsSTRM : List RegRow :=
  [ ⟨0x0, 1, 1048576, 1, 1048576, 0x0, 0x0, 0xFF, 0x0, 0x0, 0x0, 0x0, 0x0⟩,  -- STRM_IRQ_STAT
    ⟨0x4, 1, 1048576, 1, 1048576, 0xFF, 0x0, 0x0, 0x0, 0x0, 0x0, 0x0, 0x0⟩,  -- STRM_IRQ_EN
    ⟨0x10, 1, 1048576, 1, 1048576, 0xFF001F, 0x0, 0x0, 0x0, 0x0, 0x0, 0x0, 0x4000A⟩,  -- STRM_CFG
    ⟨0x14, 1, 1048576, 1, 1048576, 0x0, 0x0, 0x0, 0x0, 0x0, 0x0, 0x1FF01FF, 0x0⟩,  -- STRM_STAT
    ⟨0x40, 1, 1048576, 1, 1048576, 0x0, 0x0, 0x0, 0x0, 0xFFFFFFFF, 0x0, 0x0, 0x0⟩,  -- STRM_RX_PKT
    ⟨0x44, 1, 1048576, 1, 1048576, 0x0, 0x0, 0x0, 0x0, 0xFFFFFFFF, 0x0, 0x0, 0x0⟩,  -- STRM_TX_PKT
    ⟨0x48, 1, 1048576, 1, 1048576, 0x0, 0x0, 0x0, 0x0, 0xFFFFFFFF, 0x0, 0x0, 0x0⟩,  -- STRM_BADPKT
    ⟨0x4C, 1, 1048576, 1, 1048576, 0x0, 0x0, 0x0, 0x0, 0xFFFFFFFF, 0x0, 0x0, 0x0⟩,  -- STRM_FOREIGN
    ⟨0x50, 1, 1048576, 1, 1048576, 0x0, 0x0, 0x0, 0x0, 0xFFFFFFFF, 0x0, 0x0, 0x0⟩,  -- STRM_SSRC
    ⟨0x54, 1, 1048576, 1, 1048576, 0x0, 0x0, 0x0, 0x0, 0xFFFFFFFF, 0x0, 0x0, 0x0⟩,  -- STRM_LATE
    ⟨0x58, 1, 1048576, 1, 1048576, 0x0, 0x0, 0x0, 0x0, 0xFFFFFFFF, 0x0, 0x0, 0x0⟩,  -- STRM_EARLY
    ⟨0x5C, 1, 1048576, 1, 1048576, 0x0, 0x0, 0x0, 0x0, 0xFFFFFFFF, 0x0, 0x0, 0x0⟩,  -- STRM_DUP
    ⟨0x60, 1, 1048576, 1, 1048576, 0x0, 0x0, 0x0, 0x0, 0xFFFFFFFF, 0x0, 0x0, 0x0⟩,  -- STRM_LOST
    ⟨0x64, 1, 1048576, 1, 1048576, 0x0, 0x0, 0x0, 0x0, 0xFFFFFFFF, 0x0, 0x0, 0x0⟩,  -- STRM_REORDER
    ⟨0x68, 1, 1048576, 1, 1048576, 0x0, 0x0, 0x0, 0x0, 0xFFFFFFFF, 0x0, 0x0, 0x0⟩,  -- STRM_SUBST
    ⟨0x6C, 1, 1048576, 1, 1048576, 0x0, 0x0, 0x0, 0x0, 0xFFFFFFFF, 0x0, 0x0, 0x0⟩  -- STRM_FW_LIMIT
  ] ++
  [ ⟨0x70, 1, 1048576, 1, 1048576, 0x0, 0x0, 0x0, 0x0, 0xFFFFFFFF, 0x0, 0x0, 0x0⟩,  -- STRM_TX_NORES
    ⟨0x100, 1, 1048576, 8, 4, 0x0, 0x0, 0x0, 0x0, 0x0, 0x0, 0xFFFFFFFF, 0x0⟩,  -- STRM_RX_ACT_A
    ⟨0x120, 1, 1048576, 8, 4, 0x0, 0x0, 0x0, 0x0, 0x0, 0x0, 0xFFFFFFFF, 0x0⟩  -- STRM_RX_ACT_B
  ]

/-- Rows of block 8 (OMS). -/
def rowsOMS : List RegRow :=
  [ ⟨0x0, 1, 1048576, 1, 1048576, 0x0, 0x0, 0x3F, 0x0, 0x0, 0x0, 0x0, 0x0⟩,  -- OMS_IRQ_STAT
    ⟨0x4, 1, 1048576, 1, 1048576, 0x3F, 0x0, 0x0, 0x0, 0x0, 0x0, 0x0, 0x0⟩,  -- OMS_IRQ_EN
    ⟨0x10, 1, 1048576, 1, 1048576, 0xFFFFFF0F, 0x0, 0x0, 0x0, 0x0, 0x0, 0x0, 0xC0A81007⟩,  -- OMS_CFG
    ⟨0x14, 1, 1048576, 1, 1048576, 0xFFFF, 0x0, 0x0, 0x0, 0x0, 0x0, 0x0, 0x1F4⟩,  -- OMS_VEL
    ⟨0x18, 1, 1048576, 1, 1048576, 0xFFFFFFFF, 0x0, 0x0, 0x0, 0x0, 0x0, 0x0, 0x0⟩,  -- OMS_SESSION
    ⟨0x20, 1, 1048576, 1, 1048576, 0x3FF, 0x0, 0x0, 0x0, 0x0, 0x0, 0x0, 0x0⟩,  -- OMS_OBJ_SEL
    ⟨0x24, 1, 1048576, 1, 1048576, 0x0, 0x0, 0x0, 0x0, 0x0, 0x0, 0xFFFFF00F, 0x0⟩,  -- OMS_OBJ_STAT
    ⟨0x28, 1, 1048576, 1, 1048576, 0x0, 0x0, 0x0, 0x0, 0x0, 0x0, 0xFFFFFFFF, 0x0⟩,  -- OMS_OBJ_ACT_LO
    ⟨0x2C, 1, 1048576, 1, 1048576, 0x0, 0x0, 0x0, 0x0, 0x0, 0x0, 0xFFFFFFFF, 0x0⟩,  -- OMS_OBJ_ACT_HI
    ⟨0x40, 1, 1048576, 1, 1048576, 0x0, 0x0, 0x0, 0x0, 0xFFFFFFFF, 0x0, 0x0, 0x0⟩,  -- OMS_RX_MSG
    ⟨0x44, 1, 1048576, 1, 1048576, 0x0, 0x0, 0x0, 0x0, 0xFFFFFFFF, 0x0, 0x0, 0x0⟩,  -- OMS_DROP
    ⟨0x48, 1, 1048576, 1, 1048576, 0x0, 0x0, 0x0, 0x0, 0xFFFFFFFF, 0x0, 0x0, 0x0⟩,  -- OMS_EARLY
    ⟨0x4C, 1, 1048576, 1, 1048576, 0x0, 0x0, 0x0, 0x0, 0xFFFFFFFF, 0x0, 0x0, 0x0⟩,  -- OMS_BADENT
    ⟨0x50, 1, 1048576, 1, 1048576, 0x0, 0x0, 0x0, 0x0, 0xFFFFFFFF, 0x0, 0x0, 0x0⟩,  -- OMS_INACTIVE
    ⟨0x54, 1, 1048576, 1, 1048576, 0x0, 0x0, 0x0, 0x0, 0xFFFFFFFF, 0x0, 0x0, 0x0⟩,  -- OMS_STALE
    ⟨0x58, 1, 1048576, 1, 1048576, 0x0, 0x0, 0x0, 0x0, 0xFFFFFFFF, 0x0, 0x0, 0x0⟩  -- OMS_REACT
  ] ++
  [ ⟨0x5C, 1, 1048576, 1, 1048576, 0x0, 0x0, 0x0, 0x0, 0xFFFFFFFF, 0x0, 0x0, 0x0⟩,  -- OMS_DENIED
    ⟨0x60, 1, 1048576, 1, 1048576, 0x0, 0x0, 0x0, 0x0, 0xFFFFFFFF, 0x0, 0x0, 0x0⟩,  -- OMS_MERGE
    ⟨0x64, 1, 1048576, 1, 1048576, 0x0, 0x0, 0x0, 0x0, 0xFFFFFFFF, 0x0, 0x0, 0x0⟩,  -- OMS_OBSOLETE
    ⟨0x68, 1, 1048576, 1, 1048576, 0x0, 0x0, 0x0, 0x0, 0xFFFFFFFF, 0x0, 0x0, 0x0⟩,  -- OMS_COALESCE
    ⟨0x6C, 1, 1048576, 1, 1048576, 0x0, 0x0, 0x0, 0x0, 0xFFFFFFFF, 0x0, 0x0, 0x0⟩,  -- OMS_LATE
    ⟨0x70, 1, 1048576, 1, 1048576, 0x0, 0x0, 0x0, 0x0, 0xFFFFFFFF, 0x0, 0x0, 0x0⟩  -- OMS_CLAMP
  ]

/-- Rows of block 9 (GEO). -/
def rowsGEO : List RegRow :=
  [ ⟨0x0, 1, 1048576, 1, 1048576, 0x0, 0x0, 0xFF, 0x0, 0x0, 0x0, 0x0, 0x0⟩,  -- GEO_IRQ_STAT
    ⟨0x4, 1, 1048576, 1, 1048576, 0xFF, 0x0, 0x0, 0x0, 0x0, 0x0, 0x0, 0x0⟩,  -- GEO_IRQ_EN
    ⟨0x10, 1, 1048576, 1, 1048576, 0xFFFFFFFF, 0x0, 0x0, 0x0, 0x0, 0x0, 0x0, 0x85FC0244⟩,  -- GEO_CFG
    ⟨0x14, 1, 1048576, 1, 1048576, 0xFFFF, 0x0, 0x0, 0x0, 0x0, 0x0, 0x0, 0x3E8⟩,  -- GEO_DATT
    ⟨0x18, 1, 1048576, 1, 1048576, 0xFFFFFF, 0x0, 0x0, 0x0, 0x0, 0x0, 0x0, 0xFA0⟩,  -- GEO_DATT_REF
    ⟨0x1C, 1, 1048576, 1, 1048576, 0xFFFFFFFF, 0x0, 0x0, 0x0, 0x0, 0x0, 0x0, 0xC800FA⟩,  -- GEO_NEAR
    ⟨0x20, 1, 1048576, 1, 1048576, 0xFFFFFF, 0x0, 0x0, 0x0, 0x0, 0x0, 0x0, 0x2710⟩,  -- GEO_AIR
    ⟨0x24, 1, 1048576, 1, 1048576, 0xFFFF, 0x0, 0x0, 0x0, 0x0, 0x0, 0x0, 0x1F4⟩,  -- GEO_WF_MIN
    ⟨0x28, 1, 1048576, 1, 1048576, 0xFFFFFF, 0x0, 0x0, 0x0, 0x0, 0x0, 0x0, 0x0⟩,  -- GEO_DREF
    ⟨0x2C, 1, 1048576, 1, 1048576, 0x1, 0x0, 0x0, 0x0, 0x0, 0x0, 0x0, 0x0⟩,  -- GEO_OPT
    ⟨0x30, 1, 1048576, 1, 1048576, 0x0, 0x0, 0x0, 0x0, 0x0, 0x0, 0xFFFFFFFF, 0x0⟩,  -- GEO_LAYOUT_ID
    ⟨0x34, 1, 1048576, 1, 1048576, 0x0, 0x0, 0x0, 0x0, 0x0, 0x0, 0xFFF003FF, 0x0⟩,  -- GEO_LAYOUT_STAT
    ⟨0x40, 1, 1048576, 1, 1048576, 0x1FF, 0x0, 0x0, 0x0, 0x0, 0x0, 0x0, 0x0⟩,  -- GEO_SPK_SEL
    ⟨0x44, 1, 1048576, 1, 1048576, 0x0, 0x0, 0x0, 0x0, 0x0, 0x0, 0xFFFF001F, 0x0⟩,  -- GEO_SPK_STAT
    ⟨0x60, 1, 1048576, 1, 1048576, 0x0, 0x0, 0x0, 0x0, 0xFFFFFFFF, 0x0, 0x0, 0x0⟩,  -- GEO_EVALS
    ⟨0x64, 1, 1048576, 1, 1048576, 0x0, 0x0, 0x0, 0x0, 0xFFFFFFFF, 0x0, 0x0, 0x0⟩  -- GEO_QUOTA
  ] ++
  [ ⟨0x68, 1, 1048576, 1, 1048576, 0x0, 0x0, 0x0, 0x0, 0xFFFFFFFF, 0x0, 0x0, 0x0⟩,  -- GEO_DCLAMP
    ⟨0x6C, 1, 1048576, 1, 1048576, 0x0, 0x0, 0x0, 0x0, 0xFFFFFFFF, 0x0, 0x0, 0x0⟩,  -- GEO_MESH_OUT
    ⟨0x70, 1, 1048576, 1, 1048576, 0x0, 0x0, 0x0, 0x0, 0xFFFFFFFF, 0x0, 0x0, 0x0⟩,  -- GEO_FALLBACK
    ⟨0x74, 1, 1048576, 1, 1048576, 0x0, 0x0, 0x0, 0x0, 0xFFFFFFFF, 0x0, 0x0, 0x0⟩,  -- GEO_EMPTY
    ⟨0x78, 1, 1048576, 1, 1048576, 0x0, 0x0, 0x0, 0x0, 0xFFFFFFFF, 0x0, 0x0, 0x0⟩,  -- GEO_WF_FRONT
    ⟨0x7C, 1, 1048576, 1, 1048576, 0x0, 0x0, 0x0, 0x0, 0xFFFFFFFF, 0x0, 0x0, 0x0⟩,  -- GEO_NEAR_FRM
    ⟨0x80, 1, 1048576, 1, 1048576, 0x0, 0x0, 0x0, 0x0, 0xFFFFFFFF, 0x0, 0x0, 0x0⟩,  -- GEO_SQUASH
    ⟨0x84, 1, 1048576, 1, 1048576, 0x0, 0x0, 0x0, 0x0, 0xFFFFFFFF, 0x0, 0x0, 0x0⟩,  -- GEO_SQ_DEFER
    ⟨0x88, 1, 1048576, 1, 1048576, 0x0, 0x0, 0x0, 0x0, 0xFFFFFFFF, 0x0, 0x0, 0x0⟩,  -- GEO_CONFIRM
    ⟨0x8C, 1, 1048576, 1, 1048576, 0x0, 0x0, 0x0, 0x0, 0xFFFFFFFF, 0x0, 0x0, 0x0⟩,  -- GEO_STL_DROP
    ⟨0x90, 1, 1048576, 1, 1048576, 0x0, 0x0, 0x0, 0x0, 0xFFFFFFFF, 0x0, 0x0, 0x0⟩,  -- GEO_STALE_WR
    ⟨0x94, 1, 1048576, 1, 1048576, 0x0, 0x0, 0x0, 0x0, 0xFFFFFFFF, 0x0, 0x0, 0x0⟩,  -- GEO_LATE_DONE
    ⟨0x98, 1, 1048576, 1, 1048576, 0x0, 0x0, 0x0, 0x0, 0xFFFFFFFF, 0x0, 0x0, 0x0⟩,  -- GEO_REFUSED
    ⟨0x9C, 1, 1048576, 1, 1048576, 0x0, 0x0, 0x0, 0x0, 0xFFFFFFFF, 0x0, 0x0, 0x0⟩  -- GEO_REEVAL
  ]

/-- Rows of block 10 (FAB). -/
def rowsFAB : List RegRow :=
  [ ⟨0x0, 1, 1048576, 1, 1048576, 0x0, 0x0, 0x1F, 0x0, 0x0, 0x0, 0x0, 0x0⟩,  -- FAB_IRQ_STAT
    ⟨0x4, 1, 1048576, 1, 1048576, 0x1F, 0x0, 0x0, 0x0, 0x0, 0x0, 0x0, 0x0⟩,  -- FAB_IRQ_EN
    ⟨0x10, 1, 1048576, 1, 1048576, 0xFFFF, 0x0, 0x0, 0x0, 0x0, 0x0, 0x0, 0xCCD⟩,  -- FAB_CFG
    ⟨0x14, 1, 1048576, 1, 1048576, 0x0, 0x0, 0x0, 0x0, 0x0, 0x0, 0xFFF, 0x2⟩,  -- FAB_CAPS
    ⟨0x18, 1, 1048576, 1, 1048576, 0x0, 0x0, 0x0, 0x0, 0x0, 0x0, 0xFFFFFFFF, 0x0⟩,  -- FAB_DONE
    ⟨0x1C, 1, 1048576, 1, 1048576, 0x0, 0x0, 0x0, 0x0, 0xFFFFFFFF, 0x0, 0x0, 0x0⟩,  -- FAB_DONE_MAX
    ⟨0x20, 1, 1048576, 1, 1048576, 0x0, 0x0, 0x0, 0x0, 0x800F03FF, 0x0, 0x0, 0x0⟩,  -- FAB_CLAMP_LAST
    ⟨0x24, 1, 1048576, 1, 1048576, 0x3FF, 0x0, 0x0, 0x0, 0x0, 0x0, 0x0, 0x0⟩,  -- FAB_OBJ_SEL
    ⟨0x28, 1, 1048576, 1, 1048576, 0x0, 0x0, 0x0, 0x0, 0x0, 0x0, 0x1FFFF, 0x0⟩,  -- FAB_OBJ_BULK
    ⟨0x2C, 1, 1048576, 1, 1048576, 0x0, 0x0, 0x0, 0x0, 0x0, 0x0, 0xFFFFFF, 0x0⟩,  -- FAB_OBJ_SPAN
    ⟨0x40, 1, 1048576, 1, 1048576, 0x0, 0x0, 0x0, 0x0, 0xFFFFFFFF, 0x0, 0x0, 0x0⟩,  -- FAB_HOLD
    ⟨0x44, 1, 1048576, 1, 1048576, 0x0, 0x0, 0x0, 0x0, 0xFFFFFFFF, 0x0, 0x0, 0x0⟩,  -- FAB_CLAMP
    ⟨0x48, 1, 1048576, 1, 1048576, 0x0, 0x0, 0x0, 0x0, 0xFFFFFFFF, 0x0, 0x0, 0x0⟩,  -- FAB_SAT
    ⟨0x4C, 1, 1048576, 1, 1048576, 0x0, 0x0, 0x0, 0x0, 0xFFFFFFFF, 0x0, 0x0, 0x0⟩,  -- FAB_REFILL
    ⟨0x50, 1, 1048576, 1, 1048576, 0x0, 0x0, 0x0, 0x0, 0xFFFFFFFF, 0x0, 0x0, 0x0⟩,  -- FAB_REFILL_DEFER
    ⟨0x54, 1, 1048576, 1, 1048576, 0x0, 0x0, 0x0, 0x0, 0xFFFFFFFF, 0x0, 0x0, 0x0⟩  -- FAB_XFADE
  ] ++
  [ ⟨0x58, 1, 1048576, 1, 1048576, 0x0, 0x0, 0x0, 0x0, 0xFFFFFFFF, 0x0, 0x0, 0x0⟩,  -- FAB_SLEW
    ⟨0x5C, 1, 1048576, 1, 1048576, 0x0, 0x0, 0x0, 0x0, 0xFFFFFFFF, 0x0, 0x0, 0x0⟩,  -- FAB_SHORTD
    ⟨0x60, 1, 1048576, 1, 1048576, 0x0, 0x0, 0x0, 0x0, 0xFFFFFFFF, 0x0, 0x0, 0x0⟩,  -- FAB_ABANDON
    ⟨0x64, 1, 1048576, 1, 1048576, 0x0, 0x0, 0x0, 0x0, 0xFFFFFFFF, 0x0, 0x0, 0x0⟩,  -- FAB_BANK_STALL
    ⟨0x68, 1, 1048576, 1, 1048576, 0x0, 0x0, 0x0, 0x0, 0xFFFFFFFF, 0x0, 0x0, 0x0⟩  -- FAB_OUT_DISC
  ]

/-- Rows of block 11 (OUT). -/
def rowsOUT : List RegRow :=
  [ ⟨0x0, 1, 1048576, 1, 1048576, 0x0, 0x0, 0x1F, 0x0, 0x0, 0x0, 0x0, 0x0⟩,  -- OUT_IRQ_STAT
    ⟨0x4, 1, 1048576, 1, 1048576, 0x1F, 0x0, 0x0, 0x0, 0x0, 0x0, 0x0, 0x0⟩,  -- OUT_IRQ_EN
    ⟨0x10, 1, 1048576, 1, 1048576, 0xFF, 0x0, 0x0, 0x0, 0x0, 0x0, 0x0, 0x14⟩,  -- OUT_GCFG
    ⟨0x14, 1, 1048576, 1, 1048576, 0xFFFFFFFF, 0x0, 0x0, 0x0, 0x0, 0x0, 0x0, 0x0⟩,  -- OUT_AMP_CTRL
    ⟨0x18, 1, 1048576, 1, 1048576, 0x0, 0x0, 0x0, 0x0, 0x0, 0x0, 0x8000FFFF, 0x0⟩,  -- OUT_AMP_STAT
    ⟨0x20, 1, 1048576, 1, 1048576, 0x1FF, 0x0, 0x0, 0x0, 0x0, 0x0, 0x0, 0x0⟩,  -- OUT_MON_SEL
    ⟨0x24, 1, 1048576, 1, 1048576, 0x0, 0x0, 0x0, 0x0, 0x0, 0x0, 0xFFFFFF, 0x800000⟩,  -- OUT_MON_GR
    ⟨0x28, 1, 1048576, 1, 1048576, 0x0, 0x0, 0x0, 0x0, 0x0, 0x0, 0xFFFFFFFF, 0x0⟩,  -- OUT_MON_PEAK
    ⟨0x40, 1, 1048576, 1, 1048576, 0x0, 0x0, 0x0, 0x0, 0xFFFFFFFF, 0x0, 0x0, 0x0⟩,  -- OUT_SAT
    ⟨0x44, 1, 1048576, 1, 1048576, 0x0, 0x0, 0x0, 0x0, 0xFFFFFFFF, 0x0, 0x0, 0x0⟩,  -- OUT_LIM_ACT
    ⟨0x48, 1, 1048576, 1, 1048576, 0x0, 0x0, 0x0, 0x0, 0xFFFFFFFF, 0x0, 0x0, 0x0⟩,  -- OUT_EQ_XF
    ⟨0x4C, 1, 1048576, 1, 1048576, 0x0, 0x0, 0x0, 0x0, 0xFFFFFFFF, 0x0, 0x0, 0x0⟩,  -- OUT_SIL_ENTER
    ⟨0x50, 1, 1048576, 1, 1048576, 0x0, 0x0, 0x0, 0x0, 0xFFFFFFFF, 0x0, 0x0, 0x0⟩,  -- OUT_SIL_EXIT
    ⟨0x54, 1, 1048576, 1, 1048576, 0x0, 0x0, 0x0, 0x0, 0xFFFFFFFF, 0x0, 0x0, 0x0⟩,  -- OUT_NODEST
    ⟨0x100, 1, 1048576, 16, 4, 0x0, 0x0, 0x0, 0x0, 0x0, 0x0, 0xFFFFFFFF, 0x0⟩,  -- OUT_SIL_STAT
    ⟨0x200, 1, 1048576, 32, 4, 0x0, 0x0, 0x0, 0x0, 0x0, 0x0, 0xFFFF00FF, 0x50⟩  -- OUT_BM
  ] ++
  [ ⟨0x4000, 1, 1048576, 512, 32, 0x0, 0x0, 0x0, 0x0, 0x0, 0x0, 0xFF1FFFF8, 0x4000000⟩,  -- OUT_CFG
    ⟨0x4004, 1, 1048576, 512, 32, 0x0, 0x0, 0x0, 0x0, 0x0, 0x0, 0xC0FF003F, 0x0⟩,  -- OUT_DEST
    ⟨0x4008, 1, 1048576, 512, 32, 0x0, 0x0, 0x0, 0x0, 0x0, 0x0, 0xFFFFFFFF, 0x0⟩,  -- OUT_GAIN
    ⟨0x400C, 1, 1048576, 512, 32, 0x0, 0x0, 0x0, 0x0, 0x0, 0x0, 0x3FFF, 0x0⟩,  -- OUT_ALIGN
    ⟨0x4010, 1, 1048576, 512, 32, 0x0, 0x0, 0x0, 0x0, 0x0, 0x0, 0xFFFFFFFF, 0x64⟩,  -- OUT_LIM
    ⟨0x4014, 1, 1048576, 512, 32, 0x0, 0x0, 0x0, 0x0, 0x0, 0x0, 0xFFFF83FF, 0xDCD8000A⟩  -- OUT_SIL
  ]

/-- Rows of block 12 (CONV). -/
def rowsCONV : List RegRow :=
  [ ⟨0x0, 1, 1048576, 1, 1048576, 0x0, 0x0, 0x3F, 0x0, 0x0, 0x0, 0x0, 0x0⟩,  -- CONV_IRQ_STAT
    ⟨0x4, 1, 1048576, 1, 1048576, 0x3F, 0x0, 0x0, 0x0, 0x0, 0x0, 0x0, 0x0⟩,  -- CONV_IRQ_EN
    ⟨0x10, 1, 1048576, 1, 1048576, 0x0, 0x0, 0x0, 0x0, 0x0, 0x0, 0xFFF0FF0F, 0x24000000⟩,  -- CONV_CAPS
    ⟨0x14, 1, 1048576, 1, 1048576, 0x0, 0x0, 0x0, 0x0, 0x0, 0x0, 0xE0FFFFFF, 0x0⟩,  -- CONV_SWAP_STAT
    ⟨0x18, 1, 1048576, 1, 1048576, 0x1FF, 0x0, 0x0, 0x0, 0x0, 0x0, 0x0, 0x0⟩,  -- CONV_OUT_SEL
    ⟨0x1C, 1, 1048576, 1, 1048576, 0x0, 0x0, 0x0, 0x0, 0x0, 0x0, 0x800000FF, 0x0⟩,  -- CONV_OUT_STAT
    ⟨0x20, 1, 1048576, 1, 1048576, 0x0, 0x0, 0x0, 0x0, 0x0, 0x0, 0x1FFFF, 0x0⟩,  -- CONV_OUT_TAPS_ACT
    ⟨0x24, 1, 1048576, 1, 1048576, 0x0, 0x0, 0x0, 0x0, 0x0, 0x0, 0x1FFFF, 0x0⟩,  -- CONV_OUT_TAPS_STG
    ⟨0x28, 1, 1048576, 1, 1048576, 0x0, 0x0, 0x0, 0x0, 0x0, 0x0, 0xFFFFFFFF, 0x0⟩,  -- CONV_DONE
    ⟨0x2C, 1, 1048576, 1, 1048576, 0x0, 0x0, 0x0, 0x0, 0xFFFFFFFF, 0x0, 0x0, 0x0⟩,  -- CONV_DONE_MAX
    ⟨0x40, 1, 1048576, 1, 1048576, 0x0, 0x0, 0x0, 0x0, 0xFFFFFFFF, 0x0, 0x0, 0x0⟩,  -- CONV_HEAD_TKT
    ⟨0x44, 1, 1048576, 1, 1048576, 0x0, 0x0, 0x0, 0x0, 0xFFFFFFFF, 0x0, 0x0, 0x0⟩,  -- CONV_TAIL_TKT
    ⟨0x48, 1, 1048576, 1, 1048576, 0x0, 0x0, 0x0, 0x0, 0xFFFFFFFF, 0x0, 0x0, 0x0⟩,  -- CONV_SWAP_GRP
    ⟨0x4C, 1, 1048576, 1, 1048576, 0x0, 0x0, 0x0, 0x0, 0xFFFFFFFF, 0x0, 0x0, 0x0⟩,  -- CONV_SWAP_OUT
    ⟨0x50, 1, 1048576, 1, 1048576, 0x0, 0x0, 0x0, 0x0, 0xFFFFFFFF, 0x0, 0x0, 0x0⟩,  -- CONV_TAIL_LATE
    ⟨0x54, 1, 1048576, 1, 1048576, 0x0, 0x0, 0x0, 0x0, 0xFFFFFFFF, 0x0, 0x0, 0x0⟩  -- CONV_POISON
  ] ++
  [ ⟨0x58, 1, 1048576, 1, 1048576, 0x0, 0x0, 0x0, 0x0, 0xFFFFFFFF, 0x0, 0x0, 0x0⟩  -- CONV_HIST_WAIT
  ]

/-- Rows of block 13 (MEAS). -/
def rowsMEAS : List RegRow :=
  [ ⟨0x0, 1, 1048576, 1, 1048576, 0x0, 0x0, 0x3F, 0x0, 0x0, 0x0, 0x0, 0x0⟩,  -- MEAS_IRQ_STAT
    ⟨0x4, 1, 1048576, 1, 1048576, 0x3F, 0x0, 0x0, 0x0, 0x0, 0x0, 0x0, 0x0⟩,  -- MEAS_IRQ_EN
    ⟨0x10, 1, 1048576, 1, 1048576, 0xFFFF000D, 0x0, 0x0, 0x0, 0x0, 0x0, 0x0, 0x4⟩,  -- MEAS_PDM_CFG
    ⟨0x14, 1, 1048576, 1, 1048576, 0xFFFF, 0x0, 0x0, 0x0, 0x0, 0x0, 0x0, 0x0⟩,  -- MEAS_DC
    ⟨0x18, 1, 1048576, 1, 1048576, 0xFFFFFFFF, 0x0, 0x0, 0x0, 0x0, 0x0, 0x0, 0x0⟩,  -- MEAS_HPF
    ⟨0x1C, 1, 1048576, 1, 1048576, 0x0, 0x0, 0xFFFF, 0x0, 0x0, 0x0, 0x0, 0x0⟩,  -- MEAS_CLIP
    ⟨0x20, 1, 1048576, 1, 1048576, 0x3FF, 0x0, 0x0, 0x0, 0x0, 0x0, 0x0, 0x78⟩,  -- MEAS_CFG
    ⟨0x24, 1, 1048576, 1, 1048576, 0x0, 0x0, 0x0, 0x0, 0x0, 0x0, 0x81FFFFFF, 0x0⟩,  -- MEAS_SWP_STAT
    ⟨0x30, 1, 1048576, 1, 1048576, 0xC3FFFFFF, 0x0, 0x0, 0x0, 0x0, 0x0, 0x0, 0x3C0528⟩,  -- MEAS_PRB_CFG
    ⟨0x34, 1, 1048576, 1, 1048576, 0x0, 0x0, 0x0, 0x0, 0x0, 0x0, 0xF00003FF, 0x0⟩,  -- MEAS_PRB_STAT
    ⟨0x38, 1, 1048576, 1, 1048576, 0xFFFFFFFF, 0x0, 0x0, 0x0, 0x0, 0x0, 0x0, 0xE63E812C⟩,  -- MEAS_HEALTH_CFG
    ⟨0x40, 1, 1048576, 1, 1048576, 0x0, 0x0, 0x0, 0x0, 0xFFFFFFFF, 0x0, 0x0, 0x0⟩,  -- MEAS_BLK_DROP
    ⟨0x44, 1, 1048576, 1, 1048576, 0x0, 0x0, 0x0, 0x0, 0xFFFFFFFF, 0x0, 0x0, 0x0⟩,  -- MEAS_CLIP_CNT
    ⟨0x48, 1, 1048576, 1, 1048576, 0x0, 0x0, 0x0, 0x0, 0xFFFFFFFF, 0x0, 0x0, 0x0⟩,  -- MEAS_PRB_QUIET
    ⟨0x4C, 1, 1048576, 1, 1048576, 0x0, 0x0, 0x0, 0x0, 0xFFFFFFFF, 0x0, 0x0, 0x0⟩,  -- MEAS_REC_DONE
    ⟨0x50, 1, 1048576, 1, 1048576, 0x0, 0x0, 0x0, 0x0, 0xFFFFFFFF, 0x0, 0x0, 0x0⟩  -- MEAS_HEALTH_CHG
  ] ++
  [ ⟨0x100, 1, 1048576, 32, 4, 0x0, 0x0, 0x0, 0x0, 0x0, 0x0, 0xFFFFFFFF, 0x0⟩  -- MEAS_HEALTH
  ]

/-- Rows of block 14 (MIX). -/
def rowsMIX : List RegRow :=
  [ ⟨0x0, 1, 1048576, 1, 1048576, 0x0, 0x0, 0xFF, 0x0, 0x0, 0x0, 0x0, 0x0⟩,  -- MIX_IRQ_STAT
    ⟨0x4, 1, 1048576, 1, 1048576, 0xFF, 0x0, 0x0, 0x0, 0x0, 0x0, 0x0, 0x0⟩,  -- MIX_IRQ_EN
    ⟨0x10, 1, 1048576, 1, 1048576, 0x1FFF, 0x0, 0x0, 0x0, 0x0, 0x0, 0x0, 0x100⟩,  -- MIX_GCFG
    ⟨0x14, 1, 1048576, 1, 1048576, 0xCF, 0x0, 0x0, 0x0, 0x0, 0x0, 0x0, 0x7⟩,  -- MIX_DOM_CFG
    ⟨0x18, 1, 1048576, 1, 1048576, 0x0, 0x0, 0x0, 0x0, 0x0, 0x0, 0x7, 0x4⟩,  -- MIX_DOM_STAT
    ⟨0x1C, 1, 1048576, 1, 1048576, 0x0, 0x0, 0x0, 0x0, 0x0, 0x0, 0xFFFFFFFF, 0x0⟩,  -- MIX_D1_RATIO
    ⟨0x20, 1, 1048576, 1, 1048576, 0xFFFF03FF, 0x0, 0x0, 0x0, 0x0, 0x0, 0x0, 0xDCD8000A⟩,  -- MIX_SIL_CFG
    ⟨0x40, 1, 1048576, 1, 1048576, 0x0, 0x0, 0x0, 0x0, 0xFFFFFFFF, 0x0, 0x0, 0x0⟩,  -- MIX_SAT
    ⟨0x44, 1, 1048576, 1, 1048576, 0x0, 0x0, 0x0, 0x0, 0xFFFFFFFF, 0x0, 0x0, 0x0⟩,  -- MIX_LIM_ACT
    ⟨0x48, 1, 1048576, 1, 1048576, 0x0, 0x0, 0x0, 0x0, 0xFFFFFFFF, 0x0, 0x0, 0x0⟩,  -- MIX_RAMP
    ⟨0x4C, 1, 1048576, 1, 1048576, 0x0, 0x0, 0x0, 0x0, 0xFFFFFFFF, 0x0, 0x0, 0x0⟩,  -- MIX_BRG_SLIP
    ⟨0x50, 1, 1048576, 1, 1048576, 0x0, 0x0, 0x0, 0x0, 0xFFFFFFFF, 0x0, 0x0, 0x0⟩,  -- MIX_D1_HOLD
    ⟨0x54, 1, 1048576, 1, 1048576, 0x0, 0x0, 0x0, 0x0, 0xFFFFFFFF, 0x0, 0x0, 0x0⟩,  -- MIX_BYP_ACT
    ⟨0x58, 1, 1048576, 1, 1048576, 0x0, 0x0, 0x0, 0x0, 0xFFFFFFFF, 0x0, 0x0, 0x0⟩,  -- MIX_SIL_ENTER
    ⟨0x5C, 1, 1048576, 1, 1048576, 0x0, 0x0, 0x0, 0x0, 0xFFFFFFFF, 0x0, 0x0, 0x0⟩,  -- MIX_SIL_EXIT
    ⟨0x400, 1, 1048576, 64, 4, 0x8F0000FF, 0x0, 0x0, 0x0, 0x0, 0x0, 0x0, 0x0⟩  -- MIX_BRG
  ] ++
  [ ⟨0x1000, 3, 1024, 256, 4, 0xF003FF3F, 0x0, 0x0, 0x0, 0x0, 0x0, 0x0, 0x0⟩,  -- MIX_SRC
    ⟨0x2000, 3, 1024, 256, 4, 0xE0F0FFFF, 0x0, 0x0, 0x0, 0x0, 0x0, 0x0, 0x80000000⟩,  -- MIX_BUS_CFG
    ⟨0x3000, 3, 1024, 256, 4, 0xC0FF003F, 0x0, 0x0, 0x0, 0x0, 0x0, 0x0, 0x0⟩,  -- MIX_BUS_DEST
    ⟨0xC000, 1, 1048576, 1, 1048576, 0x0, 0x0, 0x0, 0x0, 0x0, 0xC0FFFFFF, 0x0, 0x14EC78⟩,  -- MIX_BYP_CFG
    ⟨0xC004, 1, 1048576, 1, 1048576, 0x0, 0x0, 0x0, 0x0, 0x0, 0x0, 0x1FF, 0x0⟩,  -- MIX_BYP_STAT
    ⟨0xC010, 1, 1048576, 8, 4, 0x0, 0x0, 0x0, 0x0, 0x0, 0x9FF0FFFF, 0x0, 0x0⟩,  -- MIX_BYP_IN
    ⟨0xC040, 1, 1048576, 32, 4, 0x0, 0x0, 0x0, 0x0, 0x0, 0x80FFFFFF, 0x0, 0x0⟩,  -- MIX_BYP_OUT
    ⟨0xC100, 4, 64, 16, 4, 0x0, 0x0, 0x0, 0x0, 0x0, 0xFFFFFFFF, 0x0, 0x0⟩,  -- MIX_DUCK_MAP
    ⟨0xC200, 1, 1048576, 4, 4, 0x0, 0x0, 0x0, 0x0, 0x0, 0xFFFFFFFF, 0x0, 0xFA240514⟩  -- MIX_DUCK_CFG
  ]

/-- Rows of block 15 (TDM). -/
def rowsTDM : List RegRow :=
  [ ⟨0x0, 1, 1048576, 1, 1048576, 0x0, 0x0, 0x1F, 0x0, 0x0, 0x0, 0x0, 0x0⟩,  -- TDM_IRQ_STAT
    ⟨0x4, 1, 1048576, 1, 1048576, 0x1F, 0x0, 0x0, 0x0, 0x0, 0x0, 0x0, 0x0⟩,  -- TDM_IRQ_EN
    ⟨0x40, 1, 1048576, 1, 1048576, 0x0, 0x0, 0x0, 0x0, 0xFFFFFFFF, 0x0, 0x0, 0x0⟩,  -- TDM_UNDER
    ⟨0x44, 1, 1048576, 1, 1048576, 0x0, 0x0, 0x0, 0x0, 0xFFFFFFFF, 0x0, 0x0, 0x0⟩,  -- TDM_LOST
    ⟨0x48, 1, 1048576, 1, 1048576, 0x0, 0x0, 0x0, 0x0, 0xFFFFFFFF, 0x0, 0x0, 0x0⟩,  -- TDM_FS_ERR
    ⟨0x4C, 1, 1048576, 1, 1048576, 0x0, 0x0, 0x0, 0x0, 0xFFFFFFFF, 0x0, 0x0, 0x0⟩,  -- TDM_SLIP
    ⟨0x50, 1, 1048576, 1, 1048576, 0x0, 0x0, 0x0, 0x0, 0xFFFFFFFF, 0x0, 0x0, 0x0⟩,  -- TDM_ZC_TO
    ⟨0x54, 1, 1048576, 1, 1048576, 0x0, 0x0, 0x0, 0x0, 0xFFFFFFFF, 0x0, 0x0, 0x0⟩,  -- TDM_LATE_DISC
    ⟨0x100, 1, 1048576, 16, 32, 0xFF0003FF, 0x0, 0x0, 0x0, 0x0, 0x0, 0x0, 0x14⟩,  -- TDM_CFG
    ⟨0x104, 1, 1048576, 16, 32, 0xF81FFF3F, 0x0, 0x0, 0x0, 0x0, 0x0, 0x0, 0x9802⟩,  -- TDM_FMT
    ⟨0x108, 1, 1048576, 16, 32, 0xFFFFFFFF, 0x0, 0x0, 0x0, 0x0, 0x0, 0x0, 0x0⟩,  -- TDM_TX_MASK
    ⟨0x10C, 1, 1048576, 16, 32, 0xFFFFFFFF, 0x0, 0x0, 0x0, 0x0, 0x0, 0x0, 0x0⟩,  -- TDM_TX_EN
    ⟨0x110, 1, 1048576, 16, 32, 0xFFFFFFFF, 0x0, 0x0, 0x0, 0x0, 0x0, 0x0, 0x0⟩,  -- TDM_RX_EN
    ⟨0x114, 1, 1048576, 16, 32, 0x0, 0x0, 0x0, 0x0, 0x0, 0x0, 0xFFFFFFFF, 0x0⟩,  -- TDM_ZC_PEND
    ⟨0x118, 1, 1048576, 16, 32, 0x0, 0x0, 0x0, 0x0, 0x0, 0x0, 0xF000FFFF, 0x0⟩  -- TDM_STAT
  ]

/-- Rows of block 16 (FXC). -/
def rowsFXC : List RegRow :=
  [ ⟨0x0, 1, 1048576, 1, 1048576, 0x0, 0x0, 0x7, 0x0, 0x0, 0x0, 0x0, 0x0⟩,  -- FXC_IRQ_STAT
    ⟨0x4, 1, 1048576, 1, 1048576, 0x7, 0x0, 0x0, 0x0, 0x0, 0x0, 0x0, 0x0⟩,  -- FXC_IRQ_EN
    ⟨0x10, 1, 1048576, 1, 1048576, 0x0, 0x0, 0x0, 0x0, 0x0, 0x0, 0xFF0F, 0x1000⟩,  -- FXC_CAPS
    ⟨0x40, 1, 1048576, 1, 1048576, 0x0, 0x0, 0x0, 0x0, 0xFFFFFFFF, 0x0, 0x0, 0x0⟩,  -- FXC_TICKETS
    ⟨0x44, 1, 1048576, 1, 1048576, 0x0, 0x0, 0x0, 0x0, 0xFFFFFFFF, 0x0, 0x0, 0x0⟩,  -- FXC_ABORT
    ⟨0x48, 1, 1048576, 1, 1048576, 0x0, 0x0, 0x0, 0x0, 0xFFFFFFFF, 0x0, 0x0, 0x0⟩,  -- FXC_LATE
    ⟨0x4C, 1, 1048576, 1, 1048576, 0x0, 0x0, 0x0, 0x0, 0xFFFFFFFF, 0x0, 0x0, 0x0⟩,  -- FXC_INTR
    ⟨0x50, 1, 1048576, 1, 1048576, 0x0, 0x0, 0x0, 0x0, 0xFFFFFFFF, 0x0, 0x0, 0x0⟩,  -- FXC_POISON
    ⟨0x54, 1, 1048576, 1, 1048576, 0x0, 0x0, 0x0, 0x0, 0xFFFFFFFF, 0x0, 0x0, 0x0⟩,  -- FXC_STALL
    ⟨0x100, 1, 1048576, 8, 32, 0x0, 0x0, 0x0, 0x0, 0x0, 0x0, 0xEF0001FF, 0xF0⟩,  -- FXC_CORE_STAT
    ⟨0x104, 1, 1048576, 8, 32, 0x0, 0x0, 0x0, 0x0, 0x0, 0x0, 0xFFFFFF, 0x0⟩,  -- FXC_CORE_LOAD
    ⟨0x108, 1, 1048576, 8, 32, 0x0, 0x0, 0x0, 0x0, 0x0, 0x0, 0xFFFFFFFF, 0x0⟩,  -- FXC_CORE_CYC
    ⟨0x10C, 1, 1048576, 8, 32, 0x0, 0x0, 0x0, 0x0, 0xFFFFFFFF, 0x0, 0x0, 0x0⟩,  -- FXC_CORE_CYC_MAX
    ⟨0x110, 1, 1048576, 8, 32, 0x0, 0x0, 0x0, 0x0, 0x0, 0x0, 0xFFFFFFFF, 0x0⟩,  -- FXC_CORE_WORDS
    ⟨0x400, 1, 1048576, 16, 32, 0x0, 0x0, 0x0, 0x0, 0x0, 0x0, 0xF7FFF0FF, 0x0⟩,  -- FXC_INST_CFG
    ⟨0x404, 1, 1048576, 16, 32, 0x0, 0x0, 0x0, 0x0, 0x0, 0x0, 0x3FFFFF, 0x0⟩  -- FXC_INST_BUDGET
  ] ++
  [ ⟨0x408, 1, 1048576, 16, 32, 0x0, 0x0, 0x0, 0x0, 0x0, 0x0, 0xFFFFFFFF, 0x0⟩,  -- FXC_INST_ID
    ⟨0x40C, 1, 1048576, 16, 32, 0x0, 0x0, 0x0, 0x0, 0xFFFFFFFF, 0x0, 0x0, 0x0⟩  -- FXC_INST_ABORT
  ]

/-- Rows of block 17 (STBL). -/
def rowsSTBL : List RegRow :=
  [ ⟨0x0, 1, 1048576, 1, 1048576, 0x0, 0x0, 0x1F, 0x0, 0x0, 0x0, 0x0, 0x0⟩,  -- STBL_IRQ_STAT
    ⟨0x4, 1, 1048576, 1, 1048576, 0x1F, 0x0, 0x0, 0x0, 0x0, 0x0, 0x0, 0x0⟩,  -- STBL_IRQ_EN
    ⟨0x10, 1, 1048576, 1, 1048576, 0x0, 0x0, 0x0, 0x0, 0x0, 0x0, 0x1FF7F3F, 0x1004020⟩,  -- STBL_CAPS
    ⟨0x14, 1, 1048576, 1, 1048576, 0x0, 0x0, 0x0, 0x0, 0x0, 0x0, 0x1FF01FF, 0xD8⟩,  -- STBL_STAT
    ⟨0x18, 1, 1048576, 1, 1048576, 0xFF800000, 0x0, 0x0, 0x0, 0x0, 0x0, 0x0, 0x7800000⟩,  -- STBL_TRC_CFG
    ⟨0x1C, 1, 1048576, 1, 1048576, 0xFFFFFFFF, 0x0, 0x0, 0x0, 0x0, 0x0, 0x0, 0x0⟩,  -- STBL_TRC_QMASK_LO
    ⟨0x20, 1, 1048576, 1, 1048576, 0xFFFFFFFF, 0x0, 0x0, 0x0, 0x0, 0x0, 0x0, 0x0⟩,  -- STBL_TRC_QMASK_HI
    ⟨0x24, 1, 1048576, 1, 1048576, 0xFFFFF000, 0x0, 0x0, 0x0, 0x0, 0x0, 0x0, 0x0⟩,  -- STBL_TRC_BASE_LO
    ⟨0x28, 1, 1048576, 1, 1048576, 0xFF, 0x0, 0x0, 0x0, 0x0, 0x0, 0x0, 0x0⟩,  -- STBL_TRC_BASE_HI
    ⟨0x2C, 1, 1048576, 1, 1048576, 0xFFFFFFFF, 0x0, 0x0, 0x0, 0x0, 0x0, 0x0, 0x0⟩,  -- STBL_TRC_SIZE
    ⟨0x30, 1, 1048576, 1, 1048576, 0x0, 0x0, 0x0, 0x0, 0x0, 0x0, 0xFFFFFFFF, 0x0⟩,  -- STBL_TRC_WPTR
    ⟨0x40, 1, 1048576, 1, 1048576, 0x0, 0x0, 0x0, 0x0, 0xFFFFFFFF, 0x0, 0x0, 0x0⟩,  -- STBL_ISSUED
    ⟨0x44, 1, 1048576, 1, 1048576, 0x0, 0x0, 0x0, 0x0, 0xFFFFFFFF, 0x0, 0x0, 0x0⟩,  -- STBL_DONE
    ⟨0x48, 1, 1048576, 1, 1048576, 0x0, 0x0, 0x0, 0x0, 0xFFFFFFFF, 0x0, 0x0, 0x0⟩,  -- STBL_DROP
    ⟨0x4C, 1, 1048576, 1, 1048576, 0x0, 0x0, 0x0, 0x0, 0xFFFFFFFF, 0x0, 0x0, 0x0⟩,  -- STBL_DISPLACE
    ⟨0x50, 1, 1048576, 1, 1048576, 0x0, 0x0, 0x0, 0x0, 0xFFFFFFFF, 0x0, 0x0, 0x0⟩  -- STBL_HW_STALL
  ] ++
  [ ⟨0x54, 1, 1048576, 1, 1048576, 0x0, 0x0, 0x0, 0x0, 0xFFFFFFFF, 0x0, 0x0, 0x0⟩,  -- STBL_QFULL
    ⟨0x58, 1, 1048576, 1, 1048576, 0x0, 0x0, 0x0, 0x0, 0xFFFFFFFF, 0x0, 0x0, 0x0⟩,  -- STBL_REL_MISS
    ⟨0x5C, 1, 1048576, 1, 1048576, 0x0, 0x0, 0x0, 0x0, 0xFFFFFFFF, 0x0, 0x0, 0x0⟩,  -- STBL_TRC_LOST
    ⟨0x100, 1, 1048576, 64, 4, 0xF001FFFF, 0x0, 0x0, 0x0, 0x0, 0x0, 0x0, 0x80000000⟩,  -- STBL_Q_CFG
    ⟨0x200, 1, 1048576, 64, 4, 0x0, 0x0, 0x0, 0x0, 0x1FF0000, 0x0, 0x1FF, 0x0⟩,  -- STBL_Q_STAT
    ⟨0x300, 1, 1048576, 32, 4, 0x0, 0x0, 0x0, 0x0, 0x0, 0x0, 0xFFFF007F, 0x0⟩,  -- STBL_FLOW_STAT
    ⟨0x380, 1, 1048576, 32, 4, 0x0, 0x0, 0x0, 0x0, 0x0, 0x0, 0xFFC00000, 0x0⟩,  -- STBL_ENG_STAT
    ⟨0x400, 1, 1048576, 4, 16, 0x0, 0x0, 0x0, 0x0, 0x0, 0x0, 0xF0FFFFFF, 0xFF0000⟩,  -- STBL_DMA_STAT
    ⟨0x404, 1, 1048576, 4, 16, 0x0, 0x0, 0x0, 0x0, 0x0, 0x0, 0xFFFFFFFF, 0x0⟩,  -- STBL_DMA_ERR_LO
    ⟨0x408, 1, 1048576, 4, 16, 0x0, 0x0, 0x0, 0x0, 0x0, 0x0, 0x800000FF, 0x0⟩,  -- STBL_DMA_ERR_HI
    ⟨0x40C, 1, 1048576, 4, 16, 0x0, 0x0, 0x0, 0x0, 0x0, 0x0, 0xFFFFFFFF, 0x0⟩,  -- STBL_DMA_BYTES
    ⟨0x10000, 1, 1048576, 8192, 4, 0x0, 0x0, 0x0, 0x0, 0x0, 0x0, 0xFFFFFFFF, 0x0⟩  -- STBL_RING
  ]

/-- Rows of block 18 (SPN). -/
def rowsSPN : List RegRow :=
  [ ⟨0x0, 1, 1048576, 1, 1048576, 0x0, 0x0, 0xF, 0x0, 0x0, 0x0, 0x0, 0x0⟩,  -- SPN_IRQ_STAT
    ⟨0x4, 1, 1048576, 1, 1048576, 0xF, 0x0, 0x0, 0x0, 0x0, 0x0, 0x0, 0x0⟩,  -- SPN_IRQ_EN
    ⟨0x10, 1, 1048576, 1, 1048576, 0xFFF, 0x0, 0x0, 0x0, 0x0, 0x0, 0x0, 0x40⟩,  -- SPN_CFG
    ⟨0x14, 1, 1048576, 1, 1048576, 0x0, 0x0, 0x0, 0x0, 0x0, 0x0, 0x1FF, 0x0⟩,  -- SPN_STAT
    ⟨0x18, 1, 1048576, 1, 1048576, 0x0, 0x0, 0x0, 0x0, 0x80000000, 0x0, 0x7CF01FFF, 0x0⟩,  -- SPN_ERRLOG
    ⟨0x1C, 1, 1048576, 1, 1048576, 0x0, 0x0, 0x0, 0x0, 0x0, 0x0, 0xFFFFFFFF, 0x0⟩,  -- SPN_ERRLOG_ADDR
    ⟨0x20, 1, 1048576, 1, 1048576, 0x0, 0x0, 0x80000000, 0x0, 0x0, 0x0, 0x1F, 0x0⟩,  -- SPN_ERR_STAT
    ⟨0x40, 1, 1048576, 1, 1048576, 0x0, 0x0, 0x0, 0x0, 0xFFFFFFFF, 0x0, 0x0, 0x0⟩,  -- SPN_DECERR
    ⟨0x44, 1, 1048576, 1, 1048576, 0x0, 0x0, 0x0, 0x0, 0xFFFFFFFF, 0x0, 0x0, 0x0⟩,  -- SPN_HOLD_ORD
    ⟨0x48, 1, 1048576, 1, 1048576, 0x0, 0x0, 0x0, 0x0, 0xFFFFFFFF, 0x0, 0x0, 0x0⟩,  -- SPN_HOLD_CAP
    ⟨0x4C, 1, 1048576, 1, 1048576, 0x0, 0x0, 0x0, 0x0, 0xFFFFFFFF, 0x0, 0x0, 0x0⟩,  -- SPN_AGED
    ⟨0x50, 1, 1048576, 1, 1048576, 0x0, 0x0, 0x0, 0x0, 0xFFFFFFFF, 0x0, 0x0, 0x0⟩,  -- SPN_RST_DISC
    ⟨0x54, 1, 1048576, 1, 1048576, 0x0, 0x0, 0x0, 0x0, 0xFFFFFFFF, 0x0, 0x0, 0x0⟩,  -- SPN_TGT_ABORT
    ⟨0x100, 1, 1048576, 32, 4, 0xF, 0x0, 0x0, 0x0, 0x0, 0x0, 0x0, 0x0⟩,  -- SPN_MST_CFG
    ⟨0x180, 1, 1048576, 32, 4, 0x0, 0x0, 0x0, 0x0, 0x0, 0x0, 0xFF0001FF, 0x0⟩,  -- SPN_MST_STAT
    ⟨0x200, 1, 1048576, 16, 4, 0x1F, 0x0, 0x0, 0x0, 0x0, 0x0, 0x0, 0x0⟩  -- SPN_TGT_CFG
  ] ++
  [ ⟨0x240, 1, 1048576, 16, 4, 0x0, 0x0, 0x0, 0x0, 0x0, 0x0, 0x801F01FF, 0x0⟩  -- SPN_TGT_STAT
  ]

/-- Rows of block 19 (MEM). -/
def rowsMEM : List RegRow :=
  [ ⟨0x0, 1, 1048576, 1, 1048576, 0x0, 0x0, 0x7F, 0x0, 0x0, 0x0, 0x0, 0x0⟩,  -- MEM_IRQ_STAT
    ⟨0x4, 1, 1048576, 1, 1048576, 0x7F, 0x0, 0x0, 0x0, 0x0, 0x0, 0x0, 0x0⟩,  -- MEM_IRQ_EN
    ⟨0x10, 1, 1048576, 1, 1048576, 0xC0000000, 0x0, 0x0, 0x0, 0x0, 0x0, 0x20000000, 0xE0000000⟩,  -- MEM_CFG
    ⟨0x14, 1, 1048576, 1, 1048576, 0xFFFFF000, 0x0, 0x0, 0x0, 0x0, 0x0, 0x0, 0x1014000⟩,  -- MEM_GRM_CFG
    ⟨0x18, 1, 1048576, 1, 1048576, 0x0, 0x0, 0x0, 0x0, 0x0, 0x0, 0xFFFFFFFF, 0x0⟩,  -- MEM_GRM_STAT
    ⟨0x1C, 1, 1048576, 1, 1048576, 0x0, 0x0, 0x0, 0x0, 0x80000000, 0x0, 0x71FF0FFF, 0x0⟩,  -- MEM_ERRLOG
    ⟨0x20, 1, 1048576, 1, 1048576, 0x0, 0x0, 0x0, 0x0, 0x0, 0x0, 0xFFFFFFFF, 0x0⟩,  -- MEM_ERRLOG_ADDR
    ⟨0x24, 1, 1048576, 1, 1048576, 0x0, 0x0, 0x80000000, 0x0, 0x0, 0x0, 0x1F1F, 0x0⟩,  -- MEM_ERR_STAT
    ⟨0x28, 1, 1048576, 1, 1048576, 0x1FF, 0x0, 0x0, 0x0, 0x0, 0x0, 0x0, 0x0⟩,  -- MEM_BANK_SEL
    ⟨0x2C, 1, 1048576, 1, 1048576, 0x0, 0x0, 0x0, 0x0, 0x0, 0x0, 0xC007FFFF, 0x0⟩,  -- MEM_BANK_STAT
    ⟨0x40, 1, 1048576, 1, 1048576, 0x0, 0x0, 0x0, 0x0, 0xFFFFFFFF, 0x0, 0x0, 0x0⟩,  -- MEM_CE
    ⟨0x44, 1, 1048576, 1, 1048576, 0x0, 0x0, 0x0, 0x0, 0xFFFFFFFF, 0x0, 0x0, 0x0⟩,  -- MEM_UE_TRANS
    ⟨0x48, 1, 1048576, 1, 1048576, 0x0, 0x0, 0x0, 0x0, 0xFFFFFFFF, 0x0, 0x0, 0x0⟩,  -- MEM_UE_LAST
    ⟨0x4C, 1, 1048576, 1, 1048576, 0x0, 0x0, 0x0, 0x0, 0xFFFFFFFF, 0x0, 0x0, 0x0⟩,  -- MEM_POISON_RD
    ⟨0x50, 1, 1048576, 1, 1048576, 0x0, 0x0, 0x0, 0x0, 0xFFFFFFFF, 0x0, 0x0, 0x0⟩,  -- MEM_GRM_STEPS
    ⟨0x54, 1, 1048576, 1, 1048576, 0x0, 0x0, 0x0, 0x0, 0xFFFFFFFF, 0x0, 0x0, 0x0⟩  -- MEM_GRM_ABORT
  ] ++
  [ ⟨0x58, 1, 1048576, 1, 1048576, 0x0, 0x0, 0x0, 0x0, 0xFFFFFFFF, 0x0, 0x0, 0x0⟩,  -- MEM_GRM_SKIP
    ⟨0x5C, 1, 1048576, 1, 1048576, 0x0, 0x0, 0x0, 0x0, 0xFFFFFFFF, 0x0, 0x0, 0x0⟩,  -- MEM_GRM_FAULT
    ⟨0x60, 1, 1048576, 1, 1048576, 0x0, 0x0, 0x0, 0x0, 0xFFFFFFFF, 0x0, 0x0, 0x0⟩  -- MEM_REPAIRS
  ]

/-- Rows of block 20 (DMC). -/
def rowsDMC : List RegRow :=
  [ ⟨0x0, 1, 1048576, 1, 1048576, 0x0, 0x0, 0x7F, 0x0, 0x0, 0x0, 0x0, 0x0⟩,  -- DMC_IRQ_STAT
    ⟨0x4, 1, 1048576, 1, 1048576, 0x7F, 0x0, 0x0, 0x0, 0x0, 0x0, 0x0, 0x0⟩,  -- DMC_IRQ_EN
    ⟨0x10, 1, 1048576, 1, 1048576, 0x80000003, 0x0, 0x0, 0x0, 0x0, 0x0, 0x0, 0x80000000⟩,  -- DMC_CFG
    ⟨0x14, 1, 1048576, 1, 1048576, 0xFFFFFFFF, 0x0, 0x0, 0x0, 0x0, 0x0, 0x0, 0x8008040⟩,  -- DMC_RH
    ⟨0x18, 1, 1048576, 1, 1048576, 0x0, 0x0, 0x0, 0x0, 0x0, 0x3000000, 0xFC0000FF, 0x0⟩,  -- DMC_STAT
    ⟨0x1C, 1, 1048576, 1, 1048576, 0x0, 0x0, 0x0, 0x0, 0x80000000, 0x0, 0x7FFFFFFF, 0x0⟩,  -- DMC_ERRLOG
    ⟨0x20, 1, 1048576, 1, 1048576, 0x0, 0x0, 0x0, 0x0, 0x0, 0x0, 0xFFFFFFFF, 0x0⟩,  -- DMC_ERRLOG_ADDR
    ⟨0x24, 1, 1048576, 1, 1048576, 0x0, 0x0, 0x80000000, 0x0, 0x0, 0x0, 0x1F1F, 0x0⟩,  -- DMC_ERR_STAT
    ⟨0x30, 1, 1048576, 4, 4, 0x0, 0x0, 0x0, 0x0, 0x0, 0x0, 0xC00FF03F, 0x0⟩,  -- DMC_CH_STAT
    ⟨0x40, 1, 1048576, 1, 1048576, 0x0, 0x0, 0x0, 0x0, 0xFFFFFFFF, 0x0, 0x0, 0x0⟩,  -- DMC_CE
    ⟨0x44, 1, 1048576, 1, 1048576, 0x0, 0x0, 0x0, 0x0, 0xFFFFFFFF, 0x0, 0x0, 0x0⟩,  -- DMC_UE_TRANS
    ⟨0x48, 1, 1048576, 1, 1048576, 0x0, 0x0, 0x0, 0x0, 0xFFFFFFFF, 0x0, 0x0, 0x0⟩,  -- DMC_UE_LAST
    ⟨0x4C, 1, 1048576, 1, 1048576, 0x0, 0x0, 0x0, 0x0, 0xFFFFFFFF, 0x0, 0x0, 0x0⟩,  -- DMC_POISON_RD
    ⟨0x50, 1, 1048576, 1, 1048576, 0x0, 0x0, 0x0, 0x0, 0xFFFFFFFF, 0x0, 0x0, 0x0⟩,  -- DMC_RETIRED
    ⟨0x54, 1, 1048576, 1, 1048576, 0x0, 0x0, 0x0, 0x0, 0xFFFFFFFF, 0x0, 0x0, 0x0⟩,  -- DMC_RH_EVENTS
    ⟨0x58, 1, 1048576, 1, 1048576, 0x0, 0x0, 0x0, 0x0, 0xFFFFFFFF, 0x0, 0x0, 0x0⟩  -- DMC_SR_ABORT
  ] ++
  [ ⟨0x5C, 1, 1048576, 1, 1048576, 0x0, 0x0, 0x0, 0x0, 0xFFFFFFFF, 0x0, 0x0, 0x0⟩,  -- DMC_SR_ENTRY
    ⟨0x60, 1, 1048576, 1, 1048576, 0x0, 0x0, 0x0, 0x0, 0xFFFFFFFF, 0x0, 0x0, 0x0⟩,  -- DMC_THERM
    ⟨0x64, 1, 1048576, 1, 1048576, 0x0, 0x0, 0x0, 0x0, 0xFFFFFFFF, 0x0, 0x0, 0x0⟩  -- DMC_CAL_FORCED
  ]

/-- Rows of block 21 (TTH). -/
def rowsTTH : List RegRow :=
  [ ⟨0x0, 1, 1048576, 1, 1048576, 0x0, 0x0, 0x7FF, 0x0, 0x0, 0x0, 0x0, 0x0⟩,  -- TTH_IRQ_STAT
    ⟨0x4, 1, 1048576, 1, 1048576, 0x7FF, 0x0, 0x0, 0x0, 0x0, 0x0, 0x0, 0x0⟩,  -- TTH_IRQ_EN
    ⟨0x10, 1, 1048576, 1, 1048576, 0x80FF3FFF, 0x0, 0x0, 0x0, 0x0, 0x0, 0x0, 0x80140400⟩,  -- TTH_CFG
    ⟨0x14, 1, 1048576, 1, 1048576, 0x0, 0x0, 0x0, 0x0, 0x0, 0x0, 0xFFFC00FF, 0x0⟩,  -- TTH_STAT
    ⟨0x18, 1, 1048576, 1, 1048576, 0x0, 0x0, 0x0, 0x0, 0x0, 0x0, 0xE000FFFF, 0x0⟩,  -- TTH_LINK_STAT
    ⟨0x1C, 1, 1048576, 1, 1048576, 0x0, 0x0, 0x0, 0x0, 0x0, 0xF0000000, 0xFFFF, 0x0⟩,  -- TTH_REIN_STAT
    ⟨0x20, 1, 1048576, 1, 1048576, 0x0, 0x0, 0x0, 0x0, 0x0, 0x0, 0xFF00FFFF, 0x0⟩,  -- TTH_PEER_INFO
    ⟨0x24, 1, 1048576, 1, 1048576, 0x0, 0x0, 0x0, 0x0, 0x0, 0x0, 0xFFFF, 0x0⟩,  -- TTH_COMPAT
    ⟨0x28, 1, 1048576, 1, 1048576, 0x0, 0x0, 0x0, 0x0, 0x0, 0x0, 0xFFFFFFFF, 0x0⟩,  -- TTH_DIG_FOLIO
    ⟨0x2C, 1, 1048576, 1, 1048576, 0x0, 0x0, 0x0, 0x0, 0x0, 0x0, 0xF0FFFFFF, 0x0⟩,  -- TTH_RESYNC_STAT
    ⟨0x40, 1, 1048576, 1, 1048576, 0x0, 0x0, 0x0, 0x0, 0xFFFFFFFF, 0x0, 0x0, 0x0⟩,  -- TTH_CLAIM
    ⟨0x44, 1, 1048576, 1, 1048576, 0x0, 0x0, 0x0, 0x0, 0xFFFFFFFF, 0x0, 0x0, 0x0⟩,  -- TTH_RELEASE
    ⟨0x48, 1, 1048576, 1, 1048576, 0x0, 0x0, 0x0, 0x0, 0xFFFFFFFF, 0x0, 0x0, 0x0⟩,  -- TTH_FENCE
    ⟨0x4C, 1, 1048576, 1, 1048576, 0x0, 0x0, 0x0, 0x0, 0xFFFFFFFF, 0x0, 0x0, 0x0⟩,  -- TTH_FENCE_SKIP
    ⟨0x50, 1, 1048576, 1, 1048576, 0x0, 0x0, 0x0, 0x0, 0xFFFFFFFF, 0x0, 0x0, 0x0⟩,  -- TTH_DIG_MISMATCH
    ⟨0x54, 1, 1048576, 1, 1048576, 0x0, 0x0, 0x0, 0x0, 0xFFFFFFFF, 0x0, 0x0, 0x0⟩  -- TTH_UNSYNC
  ] ++
  [ ⟨0x58, 1, 1048576, 1, 1048576, 0x0, 0x0, 0x0, 0x0, 0xFFFFFFFF, 0x0, 0x0, 0x0⟩,  -- TTH_RESYNC_OK
    ⟨0x5C, 1, 1048576, 1, 1048576, 0x0, 0x0, 0x0, 0x0, 0xFFFFFFFF, 0x0, 0x0, 0x0⟩,  -- TTH_RESYNC_FAIL
    ⟨0x60, 1, 1048576, 1, 1048576, 0x0, 0x0, 0x0, 0x0, 0xFFFFFFFF, 0x0, 0x0, 0x0⟩,  -- TTH_CRC_ERR
    ⟨0x64, 1, 1048576, 1, 1048576, 0x0, 0x0, 0x0, 0x0, 0xFFFFFFFF, 0x0, 0x0, 0x0⟩,  -- TTH_RETX
    ⟨0x68, 1, 1048576, 1, 1048576, 0x0, 0x0, 0x0, 0x0, 0xFFFFFFFF, 0x0, 0x0, 0x0⟩,  -- TTH_LINK_DOWN
    ⟨0x6C, 1, 1048576, 1, 1048576, 0x0, 0x0, 0x0, 0x0, 0xFFFFFFFF, 0x0, 0x0, 0x0⟩,  -- TTH_MIRROR_LATE
    ⟨0x70, 1, 1048576, 1, 1048576, 0x0, 0x0, 0x0, 0x0, 0xFFFFFFFF, 0x0, 0x0, 0x0⟩  -- TTH_SWITCHOVER
  ]

/-- Rows of block 22 (PMC). -/
def rowsPMC : List RegRow :=
  [ ⟨0x0, 1, 1048576, 1, 1048576, 0x0, 0x0, 0x7, 0x0, 0x0, 0x0, 0x0, 0x0⟩,  -- PMC_IRQ_STAT
    ⟨0x4, 1, 1048576, 1, 1048576, 0x7, 0x0, 0x0, 0x0, 0x0, 0x0, 0x0, 0x0⟩,  -- PMC_IRQ_EN
    ⟨0x10, 1, 1048576, 1, 1048576, 0xF0000000, 0x0, 0x0, 0x0, 0x0, 0x0, 0x0, 0x0⟩,  -- PMC_CFG
    ⟨0x14, 1, 1048576, 1, 1048576, 0x0, 0x0, 0x0, 0xF, 0x0, 0x0, 0x0, 0x0⟩,  -- PMC_CTL
    ⟨0x18, 1, 1048576, 1, 1048576, 0x0, 0x0, 0x0, 0x0, 0x0, 0x0, 0x8007FFFF, 0x0⟩,  -- PMC_STAT
    ⟨0x20, 1, 1048576, 1, 1048576, 0xFFFFFFFF, 0x0, 0x0, 0x0, 0x0, 0x0, 0x0, 0x0⟩,  -- PMC_MATCH_NS
    ⟨0x24, 1, 1048576, 1, 1048576, 0xFFFFFFFF, 0x0, 0x0, 0x0, 0x0, 0x0, 0x0, 0x0⟩,  -- PMC_MATCH_SLO
    ⟨0x28, 1, 1048576, 1, 1048576, 0xFFFF, 0x0, 0x0, 0x0, 0x0, 0x0, 0x0, 0x0⟩,  -- PMC_MATCH_SHI
    ⟨0x30, 1, 1048576, 1, 1048576, 0x0, 0x0, 0x0, 0x0, 0x0, 0x0, 0xFFFFFFFF, 0x0⟩,  -- PMC_SNAP_TIME_NS
    ⟨0x34, 1, 1048576, 1, 1048576, 0x0, 0x0, 0x0, 0x0, 0x0, 0x0, 0xFFFFFFFF, 0x0⟩,  -- PMC_SNAP_TIME_SLO
    ⟨0x38, 1, 1048576, 1, 1048576, 0x0, 0x0, 0x0, 0x0, 0x0, 0x0, 0xFFFF, 0x0⟩,  -- PMC_SNAP_TIME_SHI
    ⟨0x40, 1, 1048576, 1, 1048576, 0x800FFFFF, 0x0, 0x0, 0x0, 0x0, 0x0, 0x0, 0x3E8⟩,  -- PMC_BW_CFG
    ⟨0x80, 2, 16, 4, 4, 0xFFFFFFFF, 0x0, 0x0, 0x0, 0x0, 0x0, 0x0, 0x0⟩,  -- PMC_WIN
    ⟨0x400, 1, 1048576, 54, 4, 0x0, 0x0, 0x0, 0x0, 0x0, 0x0, 0xFFFFFFFF, 0x0⟩,  -- PMC_BW
    ⟨0x500, 1, 1048576, 54, 4, 0x0, 0x0, 0x0, 0x0, 0xFFFFFFFF, 0x0, 0x0, 0x0⟩,  -- PMC_BW_PEAK
    ⟨0x1000, 1, 1048576, 208, 32, 0x7FFFFFFF, 0x80000000, 0x0, 0x0, 0x0, 0x0, 0x0, 0x1C000000⟩  -- PMC_SEL
  ] ++
  [ ⟨0x1004, 1, 1048576, 208, 32, 0xFFFFFFFF, 0x0, 0x0, 0x0, 0x0, 0x0, 0x0, 0xFFFFFFFF⟩,  -- PMC_MMASK
    ⟨0x1008, 1, 1048576, 208, 32, 0x0, 0x0, 0x0, 0x0, 0x0, 0x0, 0xFFFFFFFF, 0x0⟩,  -- PMC_CNT_LO
    ⟨0x100C, 1, 1048576, 208, 32, 0x0, 0x0, 0x0, 0x0, 0x0, 0x0, 0xFFFF, 0x0⟩,  -- PMC_CNT_HI
    ⟨0x1010, 1, 1048576, 208, 32, 0x0, 0x0, 0x0, 0x0, 0x0, 0x0, 0xFFFFFFFF, 0x0⟩,  -- PMC_SNAP_LO
    ⟨0x1014, 1, 1048576, 208, 32, 0x0, 0x0, 0x0, 0x0, 0x0, 0x0, 0xFFFF, 0x0⟩,  -- PMC_SNAP_HI
    ⟨0x1018, 1, 1048576, 208, 32, 0x0, 0x0, 0x20000000, 0x0, 0x0, 0x0, 0xC0000000, 0x0⟩  -- PMC_STATK
  ]

/-- Rows of block 23 (CMD). -/
def rowsCMD : List RegRow :=
  [ ⟨0x0, 1, 1048576, 1, 1048576, 0x0, 0x0, 0x1F, 0x0, 0x0, 0x0, 0x0, 0x0⟩,  -- CMD_IRQ_STAT
    ⟨0x4, 1, 1048576, 1, 1048576, 0x1F, 0x0, 0x0, 0x0, 0x0, 0x0, 0x0, 0x0⟩,  -- CMD_IRQ_EN
    ⟨0x10, 1, 1048576, 1, 1048576, 0xFFFFF007, 0x0, 0x0, 0x0, 0x0, 0x0, 0x0, 0xC0A91001⟩,  -- CMD_CFG
    ⟨0x14, 1, 1048576, 1, 1048576, 0x0, 0x0, 0x0, 0x0, 0x0, 0x0, 0xC3FFFFFF, 0x0⟩,  -- CMD_STAT
    ⟨0x40, 1, 1048576, 1, 1048576, 0x0, 0x0, 0x0, 0x0, 0xFFFFFFFF, 0x0, 0x0, 0x0⟩,  -- CMD_RX
    ⟨0x44, 1, 1048576, 1, 1048576, 0x0, 0x0, 0x0, 0x0, 0xFFFFFFFF, 0x0, 0x0, 0x0⟩,  -- CMD_AUTH_FAIL
    ⟨0x48, 1, 1048576, 1, 1048576, 0x0, 0x0, 0x0, 0x0, 0xFFFFFFFF, 0x0, 0x0, 0x0⟩,  -- CMD_STALE
    ⟨0x4C, 1, 1048576, 1, 1048576, 0x0, 0x0, 0x0, 0x0, 0xFFFFFFFF, 0x0, 0x0, 0x0⟩,  -- CMD_REPLAY
    ⟨0x50, 1, 1048576, 1, 1048576, 0x0, 0x0, 0x0, 0x0, 0xFFFFFFFF, 0x0, 0x0, 0x0⟩,  -- CMD_BUSY
    ⟨0x54, 1, 1048576, 1, 1048576, 0x0, 0x0, 0x0, 0x0, 0xFFFFFFFF, 0x0, 0x0, 0x0⟩,  -- CMD_HSP_ABORT
    ⟨0x58, 1, 1048576, 1, 1048576, 0x0, 0x0, 0x0, 0x0, 0xFFFFFFFF, 0x0, 0x0, 0x0⟩,  -- CMD_HSP_OVR
    ⟨0x5C, 1, 1048576, 1, 1048576, 0x0, 0x0, 0x0, 0x0, 0xFFFFFFFF, 0x0, 0x0, 0x0⟩,  -- CMD_NET_DROP
    ⟨0x60, 1, 1048576, 1, 1048576, 0x0, 0x0, 0x0, 0x0, 0xFFFFFFFF, 0x0, 0x0, 0x0⟩  -- CMD_TWI_WAKE
  ]

/-- Rows of block 24 (SEC). -/
def rowsSEC : List RegRow :=
  [ ⟨0x0, 1, 1048576, 1, 1048576, 0x0, 0x0, 0x7, 0x0, 0x0, 0x0, 0x0, 0x0⟩,  -- SEC_IRQ_STAT
    ⟨0x4, 1, 1048576, 1, 1048576, 0x7, 0x0, 0x0, 0x0, 0x0, 0x0, 0x0, 0x0⟩,  -- SEC_IRQ_EN
    ⟨0x10, 1, 1048576, 1, 1048576, 0x0, 0x0, 0x0, 0x0, 0x0, 0x0, 0xFFF00000, 0x0⟩,  -- SEC_FUSE
    ⟨0x14, 1, 1048576, 1, 1048576, 0x0, 0x0, 0x0, 0x0, 0x0, 0x0, 0xFFFFFFFF, 0x0⟩,  -- SEC_FLOOR_LO
    ⟨0x18, 1, 1048576, 1, 1048576, 0x0, 0x0, 0x0, 0x0, 0x0, 0x0, 0xFFFFFFFF, 0x0⟩,  -- SEC_FLOOR_HI
    ⟨0x1C, 1, 1048576, 1, 1048576, 0x0, 0x0, 0x0, 0x0, 0x0, 0x0, 0xFFFFFFFF, 0x0⟩,  -- SEC_UID_LO
    ⟨0x20, 1, 1048576, 1, 1048576, 0x0, 0x0, 0x0, 0x0, 0x0, 0x0, 0xFFFFFFFF, 0x0⟩,  -- SEC_UID_HI
    ⟨0x24, 1, 1048576, 1, 1048576, 0x0, 0x0, 0x0, 0x0, 0x0, 0x0, 0xC000000F, 0x0⟩,  -- SEC_JTAG_STAT
    ⟨0x100, 4, 64, 12, 4, 0x0, 0x0, 0x0, 0x0, 0x0, 0x0, 0xFFFFFFFF, 0x0⟩  -- SEC_KEYHASH
  ]

/-- Rows of block 25 (GPIO). -/
def rowsGPIO : List RegRow :=
  [ ⟨0x0, 1, 1048576, 1, 1048576, 0x0, 0x0, 0xFFFF, 0x0, 0x0, 0x0, 0x0, 0x0⟩,  -- GPIO_IRQ_STAT
    ⟨0x4, 1, 1048576, 1, 1048576, 0xFFFF, 0x0, 0x0, 0x0, 0x0, 0x0, 0x0, 0x0⟩,  -- GPIO_IRQ_EN
    ⟨0x10, 1, 1048576, 1, 1048576, 0xFFFF, 0x0, 0x0, 0x0, 0x0, 0x0, 0x0, 0x0⟩,  -- GPIO_DIR
    ⟨0x14, 1, 1048576, 1, 1048576, 0xFFFF, 0x0, 0x0, 0x0, 0x0, 0x0, 0x0, 0x0⟩,  -- GPIO_OD
    ⟨0x18, 1, 1048576, 1, 1048576, 0xFFFF, 0x0, 0x0, 0x0, 0x0, 0x0, 0x0, 0x0⟩,  -- GPIO_OUT
    ⟨0x1C, 1, 1048576, 1, 1048576, 0x0, 0xFFFF, 0x0, 0x0, 0x0, 0x0, 0x0, 0x0⟩,  -- GPIO_SET
    ⟨0x20, 1, 1048576, 1, 1048576, 0x0, 0xFFFF, 0x0, 0x0, 0x0, 0x0, 0x0, 0x0⟩,  -- GPIO_CLR
    ⟨0x24, 1, 1048576, 1, 1048576, 0x0, 0x0, 0x0, 0x0, 0x0, 0x0, 0xFFFF, 0x0⟩,  -- GPIO_IN
    ⟨0x28, 1, 1048576, 1, 1048576, 0xFFFFFFFF, 0x0, 0x0, 0x0, 0x0, 0x0, 0x0, 0x0⟩,  -- GPIO_EDGE
    ⟨0x2C, 1, 1048576, 1, 1048576, 0xFFFF, 0x0, 0x0, 0x0, 0x0, 0x0, 0x0, 0x0⟩  -- GPIO_DEB
  ]

/-- The rows of the block with index `n` (R11); the three MACs share one layout. -/
def blockRows : Nat → List RegRow
  | 0 => rowsSYS
  | 1 => rowsPWR
  | 2 => rowsCLK
  | 3 => rowsPTP
  | 4 => rowsMACA
  | 5 => rowsMACA
  | 6 => rowsMACA
  | 7 => rowsSTRM
  | 8 => rowsOMS
  | 9 => rowsGEO
  | 10 => rowsFAB
  | 11 => rowsOUT
  | 12 => rowsCONV
  | 13 => rowsMEAS
  | 14 => rowsMIX
  | 15 => rowsTDM
  | 16 => rowsFXC
  | 17 => rowsSTBL
  | 18 => rowsSPN
  | 19 => rowsMEM
  | 20 => rowsDMC
  | 21 => rowsTTH
  | 22 => rowsPMC
  | 23 => rowsCMD
  | 24 => rowsSEC
  | 25 => rowsGPIO
  | _ => []

end Sys2Proof
end

