-- ==== Sys2Proof/Machine/State.lean ====
section
/-!
DEFINITION. The state of the device as plain data, its stops, and the state right after reset.
-/

namespace Sys2Proof.Machine

/-- Why a step can stop with a fault. -/
inductive Fault where
  /-- A duty the spec places on software or the board was broken, and no chapter states an outcome
  (Scope and Conventions, "Wording"). Safe: the hardware does something, and the model claims nothing of it. -/
  | dutyBroken (rule : Nat)
  deriving DecidableEq, Repr

/-- Why a step can be refused. -/
inductive Refusal where
  /-- The command has no meaning yet. Safe: nothing is claimed of it. -/
  | notModelled (mnemonic : String)
  deriving DecidableEq, Repr

/-- The device. -/
structure State where
  /-- Registers whose value differs from reset, addresses rising. -/
  regs : List (Nat × Word32)
  /-- Memory bytes that differ from what an unlisted byte reads as, addresses rising. -/
  mem : List Host.Cell
  /-- Poisoned 8-byte granules, by address (R533, R554). -/
  poison : List Nat
  /-- The model's own: index of the next free value. -/
  freeCtr : Nat
  /-- The model's own: the latest time an operand has told, in nanoseconds since power-up. -/
  now : Nat
  otp : Otp
  sys : SysSt
  cmd : CmdSt
  jnl : Journal
  clk : ClkSt
  ptp : PtpSt
  pair : PairSt
  spn : SpnSt
  memc : MemSt
  dmc : DmcSt
  pwr : PwrSt
  pmc : PmcSt
  stbl : StblSt
  oms : OmsSt
  fab : FabSt
  /-- The committed tables, and the configurations in force for the folio being captured, the folio being processed and
  the folio being emitted (R24). -/
  plan : Plan
  cap : Snap
  proc : Snap
  emi : Snap
  dp : DpSt
  out : OutSt
  conv : ConvSt
  meas : MeasSt
  mix : MixSt
  tdm : TdmSt
  strm : StrmSt
  mac : MacSt
  fx : FxSt
  /-- Commands waiting, first in, first out. -/
  pending : List Instr
  deriving DecidableEq, Repr

/-- The device right after `POR_N` has risen: nothing listed differs from reset, and no command waits. -/
def State.reset : State :=
  { regs := [], mem := [], poison := [], freeCtr := 0, now := 0, otp := Otp.init, sys := SysSt.init,
    cmd := CmdSt.init, jnl := Journal.init, clk := ClkSt.init, ptp := PtpSt.init, pair := PairSt.init, spn := SpnSt.init,
    memc := MemSt.init, dmc := DmcSt.init, pwr := PwrSt.init, pmc := PmcSt.init, stbl := StblSt.init,
    oms := OmsSt.init, fab := FabSt.init, plan := Plan.init, cap := Snap.init, proc := Snap.init, emi := Snap.init, dp := DpSt.init,
    out := OutSt.init, conv := ConvSt.init, meas := MeasSt.init, mix := MixSt.init, tdm := TdmSt.init, strm := StrmSt.init, mac := MacSt.init, fx := FxSt.init, pending := [] }

end Sys2Proof.Machine
end

