-- ==== Sys2Proof/Machine/RegOps.lean ====
section
/-!
DEFINITION. Reading and writing the register file: the row of an address, its reset value, fields, the saturating
counters and the interrupt bits (R7 to R11).
-/

namespace Sys2Proof.Machine

/-- The index of the peripheral block an address lies in (R11), if any. -/
def blockOf (a : Nat) : Option Nat :=
  if 0x40000000 ≤ a ∧ a < 0x40000000 + 26 * 0x100000 then some ((a - 0x40000000) / 0x100000) else none

/-- The index pair of a block offset within a row, where the row covers it. -/
def rowIndex (r : RegRow) (off : Nat) : Option (Nat × Nat) :=
  if off < r.base then none
  else
    let d := off - r.base
    let i := d / r.s1
    let e := d % r.s1
    if i < r.n1 && e % r.s2 == 0 && e / r.s2 < r.n2 then some (i, e / r.s2) else none

/-- The first row of a list that covers a block offset, with its indices. -/
def findRow : List RegRow → Nat → Option (RegRow × Nat × Nat)
  | [], _ => none
  | r :: rs, off =>
    match rowIndex r off with
    | some ij => some (r, ij.1, ij.2)
    | none => findRow rs off

/-- The register at an address: its row and array indices. -/
def regRow (a : Nat) : Option (RegRow × Nat × Nat) :=
  match blockOf a with
  | some b => findRow (blockRows b) ((a - 0x40000000) % 0x100000)
  | none => none

/-- Whether an engine ID is populated in a grade (R494). -/
def enginePresent (g : Grade) (e : Nat) : Bool :=
  if 1 ≤ e ∧ e ≤ 4 then decide (e - 1 < Config.geoEngines g)
  else if e = 6 then g == .rk8640
  else if 7 ≤ e ∧ e ≤ 10 then decide (e - 7 < Config.convEngines g)
  else if 16 ≤ e ∧ e ≤ 23 then decide (e - 16 < Config.fxCores g)
  else decide (e < 32)

/-- Whether a power domain is populated in a grade (R624). -/
def domainPresent (g : Grade) (d : Nat) : Bool :=
  if d = 9 ∨ d = 15 then g == .rk8640 else decide (d < 19)

/-- Whether a Spine master is populated in a grade (R513: effect cores are masters 4 to 11). -/
def masterPresent (g : Grade) (m : Nat) : Bool :=
  if 4 ≤ m ∧ m ≤ 11 then decide (m - 4 < Config.fxCores g) else decide (m < 32)

/-- Reset priority of a Stable queue (R488). -/
def queuePrio (q : Nat) : Nat := if q < 8 then 7 else if q < 16 then 4 else if q < 32 then 0 else if q < 48 then 2 else 0

/-- Reset reservation of a Stable queue (R510). -/
def queueResv (q : Nat) : Nat :=
  if q < 8 then nth [16, 48, 16, 16, 32, 16, 4, 4] q 0 else if q < 32 then 2 else if q < 48 then 1 else 0

/-- Reset limit of a Stable queue (R510). -/
def queueLimit (q : Nat) : Nat := if q < 16 then 256 else if q < 32 then 8 else 32

/-- Reset base QoS of a Spine master (R516). -/
def masterQos (m : Nat) : Nat :=
  if m = 20 ∨ m = 22 ∨ m = 23 ∨ m = 30 then 14
  else if m = 26 then 13
  else if m = 16 ∨ m = 21 ∨ m = 29 then 12
  else if m = 17 ∨ m = 18 ∨ m = 19 then 10
  else if 4 ≤ m ∧ m ≤ 11 then 8
  else if m < 4 ∨ m = 25 then 6
  else if 12 ≤ m ∧ m ≤ 15 then 5
  else if m = 24 then 4
  else if m = 28 then 2
  else if m = 27 then 1
  else 0

/-- Reset parking master of a Spine target (R525). -/
def targetPark (t : Nat) : Nat :=
  if t = 2 ∨ t = 3 ∨ t = 4 ∨ t = 6 then 12 else if t = 5 then 20 else if 10 ≤ t ∧ t ≤ 13 then 23 else 0

/-- Whether a performance counter exists (R644). -/
def counterPresent (k : Nat) : Bool := decide (k < 208) && (decide (k % 8 < 4) || k / 8 == 20)

/-- Bit `k` of a mask set where `b`. -/
def maskBit (k : Nat) (b : Bool) : Nat := if b then 2 ^ k else 0

/-- Reset values the register tables give by rule, grade or index rather than by one number: the value to add to the
row's own. -/
def resetExtra (g : Grade) (a i j : Nat) : Nat :=
  if a = Reg.SYS_CAPS then
    Config.gradeCode g <<< 28 ||| Config.dramGiB g <<< 24 ||| Config.geoEngines g <<< 20 |||
      Config.convEngines g <<< 16 ||| Config.fxCores g <<< 12 ||| Config.lanes g
  else if a = Reg.PWR_STAT then (List.range 19).foldl (fun v d => v + maskBit d (domainPresent g d)) 0
  else if Reg.PWR_DOM_CFG 0 ≤ a ∧ a < Reg.PWR_DOM_CFG 19 then
    if a % 16 = 0 then maskBit 31 (decide (3 ≤ j))
    else if a % 16 = 8 then maskBit 26 (domainPresent g j)
    else 0
  else if a = Reg.CLK_REF_CFG 0 ∨ a = Reg.CLK_REF_CFG 5 then 0x80000000
  else if a = Reg.MAC_CFG 2 then 2 <<< 18
  else if a = Reg.FAB_CAPS then
    (match g with | .rk8640 => 0x240 | .rk8620 => 0x140 | .rk8610 => 0x120)
  else if a = Reg.CONV_CAPS then (128 / Config.gradeDiv g) <<< 8 ||| Config.convEngines g
  else if a = Reg.FXC_CAPS then Config.fxCores g
  else if Reg.FXC_CORE_STAT 0 ≤ a ∧ a < Reg.FXC_CORE_STAT 8 ∧ a % 32 = 0 then
    maskBit 31 (decide (j < Config.fxCores g))
  else if Reg.STBL_Q_CFG 0 ≤ a ∧ a < Reg.STBL_Q_CFG 64 then
    queuePrio j <<< 28 ||| queueLimit j <<< 8 ||| queueResv j
  else if Reg.STBL_ENG_STAT 0 ≤ a ∧ a < Reg.STBL_ENG_STAT 32 then maskBit 31 (enginePresent g j)
  else if Reg.SPN_MST_CFG 0 ≤ a ∧ a < Reg.SPN_MST_CFG 32 then masterQos j
  else if Reg.SPN_MST_STAT 0 ≤ a ∧ a < Reg.SPN_MST_STAT 32 then maskBit 31 (masterPresent g j)
  else if Reg.SPN_TGT_CFG 0 ≤ a ∧ a < Reg.SPN_TGT_CFG 16 then targetPark j
  else if Reg.PMC_STATK 0 ≤ a ∧ a < Reg.PMC_STATK 208 ∧ a % 32 = 24 then maskBit 31 (counterPresent j)
  else if Reg.TDM_CFG 14 ≤ a ∧ a < Reg.TDM_CFG 16 ∧ a % 32 = 0 then 0x70000000
  else if 0x40400000 ≤ a ∧ a < 0x40700000 then
    let m := (a - 0x40400000) / 0x100000
    let o := a % 0x100000
    if 0x80 ≤ o ∧ o < 0xA0 then
      (if m < 2 ∧ j < 4 then 0x10000000 else 0x40000000)
    else if 0x100 ≤ o ∧ o < 0x180 then maskBit 30 (decide (j < 8))
    else 0
  else 0 * i

/-- Queues, rules and bus words that the smaller copies of an array lack: MAC M has 4 transmit queues, 8 receive queues
and 8 rules (R343, R345, R346); domains D1 and D2 have 64 and 32 inputs and buses (R282). -/
def indexAbsent (a j : Nat) : Bool :=
  if 0x40600000 ≤ a ∧ a < 0x40700000 then
    let o := a % 0x100000
    (decide (0x80 ≤ o) && decide (o < 0x100) && decide (4 ≤ j)) ||
      (decide (0x100 ≤ o) && decide (o < 0x800) && decide (8 ≤ j))
  else if 0x40E01400 ≤ a ∧ a < 0x40E04000 then
    let d := (a % 0x1000) / 0x400
    (d == 1 && decide (64 ≤ j)) || (d == 2 && decide (32 ≤ j))
  else false

/-- An array place of a resource that the grade lacks: a power domain or a Spine master that is fused off (R11, R513, R625). Writes to it
have no effect. -/
def resourceAbsent (g : Grade) (a j : Nat) : Bool :=
  (decide (Reg.PWR_DOM_CFG 0 ≤ a) && decide (a < Reg.PWR_DOM_CFG 19) && !domainPresent g j) ||
    (decide (Reg.SPN_MST_CFG 0 ≤ a) && decide (a < Reg.SPN_MST_CFG 32) && !masterPresent g j)

/-- The value a register holds at reset; an address with no register reads 0. -/
def regReset (g : Grade) (a : Nat) : Word32 :=
  match regRow a with
  | some (r, i, j) =>
    if indexAbsent a j then 0
    else if Reg.PWR_DOM_STAT 0 ≤ a ∧ a < Reg.PWR_DOM_STAT 19 ∧ a % 16 = 8 ∧ domainPresent g j = false then 0
    else BitVec.ofNat 32 (r.rst + resetExtra g a i j)
  | none => 0

/-- The value a register holds. -/
def State.reg (s : State) (a : Nat) : Word32 := Tab.at s.regs (regReset s.otp.grade a) a

/-- The value a register holds, as a number. -/
def State.rd (s : State) (a : Nat) : Nat := (s.reg a).toNat

/-- The configuration as some part of the data plane sees it. -/
structure RCfg where
  grade : Grade
  regs : List (Nat × Word32)
  plan : Plan

def RCfg.rd (c : RCfg) (a : Nat) : Nat := (Tab.at c.regs (regReset c.grade a) a).toNat
def RCfg.fld (c : RCfg) (a : Nat) (f : Fld) : Nat := bitsN (c.rd a) f.hi f.lo
def RCfg.flag (c : RCfg) (a : Nat) (f : Fld) : Bool := (c.rd a).testBit f.lo
def RCfg.fldS (c : RCfg) (a : Nat) (f : Fld) : Int := toS (f.hi - f.lo + 1) (c.fld a f)

/-- The present configuration; that of the folio being captured; being processed; being emitted (R24). -/
def State.live (s : State) : RCfg := ⟨s.otp.grade, s.regs, s.plan⟩
def State.capCfg (s : State) : RCfg := ⟨s.otp.grade, s.cap.regs, s.cap.plan⟩
def State.procCfg (s : State) : RCfg := ⟨s.otp.grade, s.proc.regs, s.proc.plan⟩
def State.emiCfg (s : State) : RCfg := ⟨s.otp.grade, s.emi.regs, s.emi.plan⟩

/-- Set a register, keeping the canonical form. -/
def State.setReg (s : State) (a : Nat) (v : Word32) : State :=
  { s with regs := Tab.store s.regs (regReset s.otp.grade a) a v }

def State.wr (s : State) (a : Nat) (v : Nat) : State := s.setReg a (BitVec.ofNat 32 v)

/-- Bits of a register that software may set: RW, RWS, WO and W1S (R9). -/
def softMask (a : Nat) : Nat :=
  match regRow a with
  | some (r, _, _) => r.rw ||| r.rws ||| r.wo ||| r.w1s
  | none => 0

/-- Whether a value has every reserved bit 0 (R8). -/
def rsvOk (a v : Nat) : Bool :=
  match regRow a with
  | some (r, _, _) =>
    let all := r.rw ||| r.rws ||| r.wo ||| r.w1s ||| r.w1c ||| r.rc ||| r.ro
    v &&& all == v
  | none => false

/-- Bits of a value under a mask, over the old value outside it. -/
def merge (old mask v : Nat) : Nat := old - (old &&& mask) + (v &&& mask)

/-- Set the software-writable bits of a register, as a set command does. -/
def State.cfgWrite (s : State) (a v : Nat) : State := s.wr a (merge (s.rd a) (softMask a) v)

/-- A field of a register. -/
def State.fld (s : State) (a : Nat) (f : Fld) : Nat := bitsN (s.rd a) f.hi f.lo

/-- A one-bit field. -/
def State.flag (s : State) (a : Nat) (f : Fld) : Bool := (s.rd a).testBit f.lo

/-- A signed field. -/
def State.fldS (s : State) (a : Nat) (f : Fld) : Int := toS (f.hi - f.lo + 1) (s.fld a f)

def State.setFld (s : State) (a : Nat) (f : Fld) (v : Nat) : State := s.wr a (setBitsN (s.rd a) f.hi f.lo v)

def State.setFlag (s : State) (a : Nat) (f : Fld) (b : Bool) : State := s.setFld a f (b2n b)

/-- The counters that count now, with their `PMC_SEL` values: present, enabled, not the upper half of a chained pair, and
not frozen (R644, R646, R650, R655). A register that is not listed holds its reset value, whose `EN` is 0. -/
def State.pmcSels (s : State) : List (Nat × Nat) :=
  if s.flag Reg.PMC_STAT Fl.PMC_STAT_FROZEN then []
  else
    s.regs.filterMap (fun e =>
      let k := (e.1 - Reg.PMC_SEL 0) / 32
      if Reg.PMC_SEL 0 ≤ e.1 ∧ e.1 < Reg.PMC_SEL 208 ∧ e.1 % 32 = 0 ∧ e.2.toNat.testBit 30 = true ∧
          counterPresent k = true ∧ ¬(k % 2 = 1 ∧ (s.rd (Reg.PMC_SEL (k - 1))).testBit 29 = true)
      then some (k, e.2.toNat) else none)

/-- Class and event code of a `PMC_SEL` value (R646). -/
def selClass (v : Nat) : Nat := bitsN v 23 20
def selEvent (v : Nat) : Nat := bitsN v 19 12

/-- Add to a local counter (R645). -/
def State.pmcPlus (s : State) (k n : Nat) : State := { s with pmc.cnt := Tab.put s.pmc.cnt k (Tab.at s.pmc.cnt 0 k + n) }

/-- Count an event of a block in its local counters (R645, R646). -/
def State.pmcAdd (s : State) (b cls ev n : Nat) : State :=
  s.pmcSels.foldl
    (fun t k => if k.1 / 8 = b ∧ selClass k.2 = cls ∧ selEvent k.2 = ev then t.pmcPlus k.1 n else t) s

/-- Block index of a register address. -/
def blockIdx (a : Nat) : Nat := (a - 0x40000000) / 0x100000

/-- Hardware sets an interrupt status bit (R10), which is also an event of class 3 (R646). -/
def State.irq (s : State) (a : Nat) (f : Fld) : State := (s.setFld a f 1).pmcAdd (blockIdx a) 3 f.lo 1

/-- A register read returns a value. -/
def State.readReturns (s : State) (v : Nat) : State := { s with sys.rdata := v }

/-- Add to a counter that saturates at 0xFFFF_FFFF; its increments are events of class 3 (R646). -/
def State.count (s : State) (a n : Nat) : State :=
  (s.wr a (min (s.rd a + n) 0xFFFFFFFF)).pmcAdd (blockIdx a) 3 (0x80 + (a % 0x100000 - 0x40) / 4) n

def State.bump (s : State) (a : Nat) : State := s.count a 1

/-- The counters of a list, as little-endian words, and the state with them cleared: the statistics commands. -/
def State.takeCounters (s : State) (as : List Nat) : State × List Byte :=
  (as.foldl (fun s a => s.wr a 0) s, as.flatMap (fun a => by4 (s.rd a)))

/-- Whether a block requests an interrupt: some bit set in both its status and its enable register (R10). -/
def State.blockIrq (s : State) (b : Nat) : Bool :=
  let a := 0x40000000 + b * 0x100000
  (s.rd a &&& s.rd (a + 4)) != 0

end Sys2Proof.Machine
end

