-- ==== Sys2Proof/Machine/Idle.lean ====
section
/-!
DEFINITION. Power domains: their IDs and states, when one is idle (R627) and when its second timer is suppressed (R628).
-/

namespace Sys2Proof.Machine

/-! ### Modes -/

def mHALT : Nat := 0
def mBOOT : Nat := 1
def mLOAD : Nat := 2
def mIDLE : Nat := 3
def mRENDER : Nat := 4
def mSTANDBY : Nat := 5
def mRESYNC : Nat := 6
def mMEASURE : Nat := 7
def mSERVICE : Nat := 8
def mUPDATE : Nat := 9
def mSAFE : Nat := 10
def mFAULT : Nat := 11

/-- The present mode (R598). -/
def State.mode (s : State) : Nat := s.fld Reg.SYS_MODE Fl.SYS_MODE_MODE

/-- This unit decides for folio `n` (R142, R426, R438): it is neither a standby nor in resync, but for a switchover in
progress. -/
def State.decidesAt (s : State) (n : Nat) : Bool :=
  match s.pair.turn with
  | some (j, b) => if j ≤ n then b else !b
  | none => s.mode != mSTANDBY && s.mode != mRESYNC

/-- The decisions of folio `n` are made here: the unit decides for it, and has not been told of it by a `TICK` (R427, R432). -/
def State.leadsAt (s : State) (n : Nat) : Bool := s.decidesAt n && !s.pair.ticks.contains n

/-! ### Domains -/

def dAON : Nat := 0
def dSAFE : Nat := 1
def dCTRL : Nat := 2
def dNETA : Nat := 3
def dNETB : Nat := 4
def dMGMT : Nat := 5
def dSTRM : Nat := 6
def dGEO : Nat := 7
def dFAB0 : Nat := 8
def dFAB1 : Nat := 9
def dCONV : Nat := 10
def dOUTMIX : Nat := 11
def dTDM : Nat := 12
def dMEAS : Nat := 13
def dFXCA : Nat := 14
def dFXCB : Nat := 15
def dDRAM : Nat := 16
def dMRAM : Nat := 17
def dTTH : Nat := 18

/-- Power state of a domain (R640). -/
def State.domState (s : State) (d : Nat) : Nat := s.fld (Reg.PWR_DOM_STAT d) Fl.PWR_DOM_STAT_STATE

def pOFF : Nat := 0
def pWAKING : Nat := 1
def pON : Nat := 2
def pRET : Nat := 3
def pDRAIN : Nat := 4
def pENTER : Nat := 5

def State.domOn (s : State) (d : Nat) : Bool := d == dAON || d == dSAFE || s.domState d == pON || s.domState d == pDRAIN

def State.setDom (s : State) (d v : Nat) : State := s.setFld (Reg.PWR_DOM_STAT d) Fl.PWR_DOM_STAT_STATE v

/-- The domain of a block's registers (R624). -/
def blockDomain : Nat → Nat
  | 4 => dNETA
  | 5 => dNETB
  | 6 => dMGMT
  | 7 => dSTRM
  | 8 => dSTRM
  | 9 => dGEO
  | 10 => dFAB0
  | 11 => dOUTMIX
  | 12 => dCONV
  | 13 => dMEAS
  | 14 => dOUTMIX
  | 15 => dTDM
  | 16 => dFXCA
  | 20 => dDRAM
  | 21 => dTTH
  | 23 => dCTRL
  | _ => dAON

/-- The domains whose power a Spine target needs (R624); several only where the target spans domains. -/
def targetDomains : Nat → List Nat
  | 1 => [dCTRL]
  | 2 => [dFAB0]
  | 3 => [dCONV]
  | 4 => [dCONV]
  | 5 => [dFAB0]
  | 6 => [dFXCA, dFXCB]
  | 8 => [dMRAM]
  | 9 => [dCTRL]
  | 10 => [dDRAM]
  | 11 => [dDRAM]
  | 12 => [dDRAM]
  | 13 => [dDRAM]
  | _ => []

/-- Domain of the masters (R624, R513). -/
def masterDomain (m : Nat) : Nat :=
  if m < 4 ∨ (12 ≤ m ∧ m ≤ 15) then dCTRL
  else if 4 ≤ m ∧ m ≤ 7 then dFXCA
  else if 8 ≤ m ∧ m ≤ 11 then dFXCB
  else if m = 17 then dNETA
  else if m = 18 then dNETB
  else if m = 19 then dMGMT
  else if m = 20 ∨ m = 25 ∨ m = 29 then dSTRM
  else if m = 21 then dGEO
  else if m = 22 then dFAB0
  else if m = 23 then dCONV
  else if m = 24 then dMEAS
  else if m = 26 then dTTH
  else if m = 30 then dTDM
  else dAON

/-- Domain of an engine of R494. -/
def engineDomain (e : Nat) : Nat :=
  if e = 0 then dSTRM
  else if e ≤ 4 then dGEO
  else if e = 5 then dFAB0
  else if e = 6 then dFAB1
  else if e ≤ 10 then dCONV
  else if e ≤ 14 then dOUTMIX
  else if e = 15 then dMEAS
  else if e ≤ 19 then dFXCA
  else if e ≤ 23 then dFXCB
  else dCTRL

/-- Engine IDs of a class (R494). -/
def classEngines : Nat → List Nat
  | 0 => [0]
  | 1 => [1, 2, 3, 4]
  | 2 => [5, 6]
  | 3 => [7, 8, 9, 10]
  | 4 => [11, 12]
  | 5 => [13]
  | 6 => [14]
  | 7 => [15]
  | 8 => [16, 17, 18, 19, 20, 21, 22, 23]
  | 9 => [24, 25, 26, 27]
  | 10 => [28, 29, 30, 31]
  | _ => []

/-- The domain whose idleness a waiting ticket ends: that of the engine it names, else that of the first engine of its
class, to which R630 keeps the work while it has room (notes/assumptions/20). -/
def Ticket.domain (k : Ticket) : Nat :=
  if k.eng = 255 then
    match classEngines k.cls with
    | e :: _ => engineDomain e
    | [] => dAON
  else engineDomain k.eng

/-- A ticket for an engine of a domain waits, lies in a stall or runs. -/
def State.ticketsIn (s : State) (d : Nat) : Bool :=
  s.stbl.queues.any (fun q => q.2.any (fun k => k.cls != 15 && k.domain == d)) ||
    s.stbl.running.any (fun e => engineDomain e.1 == d) ||
    s.stbl.stall0.any (fun e => engineDomain e.1 == d) ||
    s.stbl.stall1.any (fun e => engineDomain e.1 == d)

/-- A Spine transaction from a master of a domain or to one of its targets is outstanding. -/
def State.spineBusy (s : State) (d : Nat) : Bool :=
  s.spn.txns.any (fun x => masterDomain x.master == d || (targetDomains x.target).contains d)

/-- The busy conditions of R627. -/
def State.domBusy (s : State) (d : Nat) : Bool :=
  if d = dCTRL then s.cmd.longOp.isSome || s.cmd.held.isSome
  else if d = dNETA ∨ d = dNETB ∨ d = dMGMT then
    s.flag (Reg.MAC_CFG (d - dNETA)) Fl.MAC_CFG_RX_EN || s.flag (Reg.MAC_CFG (d - dNETA)) Fl.MAC_CFG_TX_EN
  else if d = dSTRM then
    s.strm.rx.any (fun e => e.2.gone.isNone) || s.strm.tx.any (fun e => e.2.cfgs.any (fun c => c.2.isSome)) || s.rd Reg.OMS_CFG % 8 != 0
  else if d = dTDM then (List.range 14).any (fun q => s.flag (Reg.TDM_CFG q) Fl.TDM_CFG_EN)
  else if d = dMEAS then
    s.fld Reg.MEAS_PDM_CFG Fl.MEAS_PDM_CFG_CH_EN != 0 || s.mode == mMEASURE ||
      s.flag Reg.MEAS_PRB_CFG Fl.MEAS_PRB_CFG_EN
  else if d = dTTH then s.sys.straps.pairEn
  else false

/-- A domain is idle (R627). -/
def State.idle (s : State) (d : Nat) : Bool := !s.ticketsIn d && !s.spineBusy d && !s.domBusy d

/-- Some object slot or output is configured. -/
def State.renderConfigured (s : State) : Bool :=
  !s.oms.slots.isEmpty || (List.range 512).any (fun o => s.flag (Reg.OUT_CFG o) Fl.OUT_CFG_CONF)

/-- The second timer is suppressed (R628). -/
def State.locked (s : State) (d : Nat) : Bool :=
  if d = dFXCA ∨ d = dFXCB then
    (List.range 16).any (fun i =>
      s.flag (Reg.FXC_INST_CFG i) Fl.FXC_INST_CFG_EN &&
        decide (s.fld (Reg.FXC_INST_CFG i) Fl.FXC_INST_CFG_CORE / 4 = d - dFXCA))
  else if d = dMEAS then s.flag Reg.MEAS_PRB_CFG Fl.MEAS_PRB_CFG_EN
  else if d = dGEO ∨ d = dFAB0 ∨ d = dFAB1 ∨ d = dCONV ∨ d = dOUTMIX then s.renderConfigured
  else false

/-- The two timers of R628 over an interval that ends at time `t`: the first restarts while the domain is not idle, the
second stands still while it is suppressed. -/
def State.timers (s : State) (t : Nat) : State :=
  let step (p : PwrSt) (d : Nat) : PwrSt :=
    if s.domState d = pRET then
      if s.locked d then { p with retAt := Tab.put p.retAt d (Tab.at p.retAt 0 d + (t - s.now)) } else p
    else if s.idle d then p
    else
      { p with active := Tab.put p.active d t,
               retLim := Tab.put p.retLim d (max 10 (s.fld (Reg.PWR_DOM_CFG d) Fl.PWR_DOM_CFG_RET_US)) }
  { s with pwr := ((List.range 17).map (· + 2)).foldl step s.pwr }

/-! ### What the Collector sees in one cycle (R646 to R648) -/

/-- The block whose master a Spine port is (notes/assumptions/21). -/
def masterBlock (m : Nat) : Nat :=
  if m < 4 ∨ m = 25 then 23
  else if m ≤ 11 then 16
  else if m ≤ 16 ∨ m = 28 then 17
  else if m ≤ 19 then m - 13
  else if m = 20 then 7
  else if m = 21 then 9
  else if m = 22 then 10
  else if m = 23 then 12
  else if m = 24 then 13
  else if m = 26 then 21
  else if m = 27 then 19
  else if m = 29 then 8
  else if m = 30 then 15
  else 24

/-- The block of an engine. -/
def engineBlock (e : Nat) : Nat :=
  if e = 0 then 7
  else if e ≤ 4 then 9
  else if e ≤ 6 then 10
  else if e ≤ 10 then 12
  else if e ≤ 12 then 11
  else if e = 13 then 14
  else if e = 14 then 11
  else if e = 15 then 13
  else if e ≤ 23 then 16
  else if e ≤ 27 then 17
  else 23

/-- Whether a transaction from a master to a target is one of a block's for class 1 (R646). -/
def blockTxn (b master target : Nat) : Bool :=
  if b = 18 then true
  else if b = 19 then decide (1 ≤ target) && decide (target ≤ 6)
  else if b = 20 then decide (10 ≤ target) && decide (target ≤ 13)
  else masterBlock master == b

/-- The filters of R647 on a transaction's master and first address. -/
def State.pmcPass (s : State) (k sel master addr : Nat) : Bool :=
  let priv := bitsN sel 28 26
  let cls := if 4 ≤ master ∧ master ≤ 11 then 0
    else if master < 4 ∨ (12 ≤ master ∧ master ≤ 15) ∨ master = 25 ∨ master = 31 then 1 else 2
  let inWin (w : Nat) : Bool :=
    let base := s.rd (Reg.PMC_WIN w 0) + s.rd (Reg.PMC_WIN w 1) % 256 * 2 ^ 32
    let lim := s.rd (Reg.PMC_WIN w 2) + s.rd (Reg.PMC_WIN w 3) % 256 * 2 ^ 32
    decide (base ≤ addr) && decide (addr ≤ lim)
  priv.testBit cls && (s.rd (Reg.PMC_MMASK k)).testBit master &&
    (bitsN sel 25 24 == 0 || (sel.testBit 24 && inWin 0) || (sel.testBit 25 && inWin 1))

/-- How many elements satisfy a test. -/
def countIf {α : Type} (l : List α) (p : α → Bool) : Nat := (l.filter p).length

/-- Tickets counted against a queue: waiting, in a stall or running (R492). -/
def State.qCount (s : State) (q : Nat) : Nat :=
  (Tab.at s.stbl.queues [] q).length + countIf s.stbl.running (fun e => e.2.q == q) +
    countIf s.stbl.stall0 (fun e => e.2.q == q) + countIf s.stbl.stall1 (fun e => e.2.q == q)

/-- Tickets in flight (R492). -/
def State.inFlight (s : State) : Nat :=
  (s.stbl.queues.map (fun q => q.2.length)).sum + s.stbl.running.length + s.stbl.stall0.length + s.stbl.stall1.length

/-- Σ max(count, `RESV`) over all queues. -/
def State.poolUsed (s : State) : Nat :=
  (List.range 64).foldl (fun n q => n + max (s.qCount q) (s.fld (Reg.STBL_Q_CFG q) Fl.STBL_Q_CFG_RESV)) 0

/-- Occupancy of a source of a block (R648). -/
def State.occupancy (s : State) (b src : Nat) : Nat :=
  if b = 17 then (if src = 0 then s.inFlight else if src ≤ 64 then s.qCount (src - 1) else 0)
  else if b = 18 then
    (if src = 0 then s.spn.txns.length
     else if src ≤ 32 then countIf s.spn.txns (fun x => x.master == src - 1)
     else if src ≤ 48 then countIf s.spn.txns (fun x => x.target == src - 33) else 0)
  else if b = 20 then (if src < 4 then countIf s.spn.txns (fun x => x.target == 10 + src) else 0)
  else if 4 ≤ b ∧ b ≤ 6 then
    (if src = 0 then
        ((s.mac.rxq.filter (fun e => e.1 / 32 == b - 4)).flatMap (fun e => e.2.map (fun x => x.bytes.length))).sum / 64
     else if src ≤ 32 then (Tab.at s.mac.rxq [] ((b - 4) * 32 + (src - 1))).length else 0)
  else if b = 16 then (if src = 0 then countIf s.stbl.running (fun e => engineBlock e.1 == 16) else 0)
  else if b = 10 then
    (if src = 0 then countIf s.stbl.running (fun e => engineBlock e.1 == 10) * min 8 (Config.lanes s.otp.grade) else 0)
  else if src = 0 then
    countIf s.stbl.stall0 (fun e => engineBlock e.1 == b) + countIf s.stbl.stall1 (fun e => engineBlock e.1 == b)
  else 0

/-- A block holds a ticket or an outstanding transaction. -/
def State.blockHolds (s : State) (b : Nat) : Bool :=
  s.stbl.running.any (fun e => engineBlock e.1 == b) || s.stbl.stall0.any (fun e => engineBlock e.1 == b) ||
    s.stbl.stall1.any (fun e => engineBlock e.1 == b) || s.spn.txns.any (fun x => blockTxn b x.master x.target)

/-- What a counter adds per cycle in the present state (R646, R647): classes 0 and 2, and event 5 of class 1. Event 2 of
class 0, stalled cycles, is timing within a step and adds nothing (notes/assumptions/21). -/
def State.pmcWeight (s : State) (k sel : Nat) : Nat :=
  let b := k / 8
  match selClass sel with
  | 0 => if selEvent sel = 0 then 1 else if selEvent sel = 1 then b2n (s.blockHolds b) else 0
  | 1 =>
    if selEvent sel = 5 then countIf s.spn.txns (fun x => blockTxn b x.master x.target && s.pmcPass k sel x.master x.addr)
    else 0
  | 2 => b2n (decide (bitsN sel 11 0 < s.occupancy b (selEvent sel)))
  | _ => 0

/-- The clocks of the AON blocks run (R626). -/
def State.aonClocked (s : State) : Bool := s.mode != mSAFE && s.mode != mHALT

/-- Count the Collector cycles, one per nanosecond, of an interval in the present state (R645). -/
def State.pmcCycles (s : State) (n : Nat) : State :=
  if s.aonClocked then
    (s.pmcSels.filter (fun k => s.domOn (blockDomain (k.1 / 8)))).foldl
      (fun t k => t.pmcPlus k.1 (s.pmcWeight k.1 k.2 * n)) s
  else s

end Sys2Proof.Machine
end

