-- ==== Sys2Proof/Machine/Ops.lean ====
section
/-!
DEFINITION. The named operations the meanings share: time, free values, memory, the event log, modes and rates.
-/

namespace Sys2Proof.Machine

/-- The outcome of a step of the device. -/
abbrev Out := Host.Outcome State Fault Refusal

/-! ### Time -/

/-- Record the time an operand tells: the interval before it passes in the present state. -/
def State.atTime (s : State) (t : Nat) : State :=
  if t ≤ s.now then s
  else
    let s1 := (s.timers t).pmcCycles (t - s.now)
    -- local time stands still while the clocks of the AON blocks are stopped (R626)
    { s1 with now := t, ptp.atNow := if s.aonClocked then s.ptp.atNow else s.ptp.atNow + (t - s.now) }

/-- PTP local time in nanoseconds since the epoch: it advances with the crystal under the servo's rate correction
(R404). -/
def State.localNs (s : State) : Nat :=
  let d := s.now - s.ptp.atNow
  ((s.ptp.base : Int) + d + ((d : Int) * s.ptp.rate) / 1000000000000).toNat

/-- The fresh free value, and the state that has used it. -/
def State.fresh (s : State) : Nat × State := (Config.freeValue s.freeCtr, { s with freeCtr := s.freeCtr + 1 })

/-! ### Memory -/

/-- What a byte that nothing has written reads as (notes/assumptions/3). -/
def memDefault : Byte := 0

def State.rdByte (s : State) (a : Nat) : Byte := Tab.at s.mem memDefault a

def State.wrByte (s : State) (a : Nat) (b : Byte) : State := { s with mem := Tab.store s.mem memDefault a b }

def State.rdBytes (s : State) (a n : Nat) : List Byte := (List.range n).map (fun k => s.rdByte (a + k))

def State.wrBytes (s : State) (a : Nat) : List Byte → State
  | [] => s
  | b :: bs => (s.wrByte a b).wrBytes (a + 1) bs

/-- The first poisoned granule of a byte range (R533, R554), granules being 8 bytes. -/
def State.poisonIn (s : State) (a n : Nat) : Option Nat :=
  (s.poison.filter (fun g => decide (g < a + n) && decide (a < g + 8))).head?

/-- Whether a granule is written whole by a range. -/
def coversGranule (a n g : Nat) : Bool := decide (a ≤ g) && decide (g + 8 ≤ a + n)

/-- Write bytes as a bus master does: a granule written whole is poisoned no longer (R533). -/
def State.busWrite (s : State) (a : Nat) (bs : List Byte) : State :=
  let s := s.wrBytes a bs
  { s with poison := s.poison.filter (fun g => !coversGranule a bs.length g) }

/-- Base of DRAM (R12). -/
def dramBase : Nat := 0x1000000000

/-- Usable DRAM in bytes (R2, R12). -/
def State.dramSize (s : State) : Nat := Config.dramUsableGiB s.otp.grade * 2 ^ 30

/-! Owners of reserved DRAM: an object's FIFO (R159), an output's alignment line (R190), its convolution storage and its long-scheme addition (R231), a receive
stream's rings (R365), an effect instance's window (R459). -/

def ownFifo (k : Nat) : Nat := k
def ownConv (o : Nat) : Nat := 1024 + o
def ownLong (o : Nat) : Nat := 1536 + o
def ownRing (n : Nat) : Nat := 2048 + n
def ownWindow (i : Nat) : Nat := 2304 + i
def ownLine (o : Nat) : Nat := 4096 + o

/-- Bytes of an object's FIFO, of an output's alignment line and convolution storage, and of the long-scheme addition (R159, R190,
R231). -/
def lineBytes : Nat := 8320 * 4
def fifoBytes : Nat := 375 * 1024
def convBytes : Nat := 540 * 1024
def longBytes : Nat := 2016 * 1024

/-- The ranges `a … a+n-1` and `b … b+m-1` share a byte. -/
def overlaps (a n b m : Nat) : Bool := decide (0 < n) && decide (0 < m) && decide (a < b + m) && decide (b < a + n)

/-- A range lies in usable DRAM and overlaps no DRAM the device has reserved, the retirement pool of the RK-8640 among it (R556, R591;
notes/assumptions/37). -/
def State.dramFree (s : State) (a n : Nat) : Bool :=
  decide (dramBase ≤ a) && decide (a + n ≤ dramBase + s.dramSize) &&
    !(s.otp.grade == .rk8640 && overlaps a n 0x11BE400000 0x1C00000) && !s.dmc.reserved.any (fun e => overlaps a n e.2.1 e.2.2)

/-- An owner's DRAM is free again. -/
def State.unreserve (s : State) (owner : Nat) : State := { s with dmc.reserved := Tab.del s.dmc.reserved owner }

/-- Reserve DRAM anew for an owner. No chapter says where: the base is a free value among the places that are free
(notes/assumptions/37). -/
def State.reserveNew (s : State) (owner size : Nat) : State :=
  let (v, s) := s.fresh
  let s := s.unreserve owner
  let a := dramBase + 64 * (v % ((s.dramSize - size) / 64))
  let ends := dramBase :: s.dmc.reserved.map (fun e => (e.2.1 + e.2.2 + 63) / 64 * 64)
  let at_ := if s.dramFree a size then a else (ends.find? (fun b => s.dramFree b size)).getD a
  { s with dmc.reserved := Tab.put s.dmc.reserved owner (at_, size) }

/-- Reserve DRAM for an owner that has none. -/
def State.reserve (s : State) (owner size : Nat) : State :=
  if (Tab.look s.dmc.reserved owner).isSome then s else s.reserveNew owner size

/-! ### Render rate and folio (R30) -/

/-- Rate code 0 to 3. -/
def State.rateCode (s : State) : Nat := s.fld Reg.SYS_RENDER_CFG Fl.SYS_RENDER_CFG_RATE

/-- Render rate in Hz of a rate code. -/
def rateHz : Nat → Nat
  | 0 => 44100
  | 1 => 48000
  | 2 => 88200
  | _ => 96000

def State.fs (s : State) : Nat := rateHz s.rateCode

def RCfg.fs (c : RCfg) : Nat := rateHz (c.fld Reg.SYS_RENDER_CFG Fl.SYS_RENDER_CFG_RATE)

/-- Whether the rate is one of the double rates. -/
def State.doubleRate (s : State) : Bool := decide (2 ≤ s.rateCode)

/-- Folio size in samples of a folio code. -/
def folioOf : Nat → Nat
  | 0 => 16
  | 1 => 32
  | _ => 64

def State.folioLen (s : State) : Nat := folioOf (s.fld Reg.SYS_RENDER_CFG Fl.SYS_RENDER_CFG_FOLIO)

/-- The present slot: the index of the folio being captured, `⌊t/F⌋` (R15, R16). -/
def State.slot (s : State) : Nat := s.sys.mediaTime / s.folioLen

/-! ### The event log (R589) -/

/-- The newest `n` of a list whose last element is newest. -/
def newest {α : Type} (n : Nat) (l : List α) : List α := l.drop (l.length - n)

/-- Write an event-log entry and copy it to MRAM (R589). -/
def State.logEvent (s : State) (code sev arg : Nat) : State :=
  let t := s.localNs
  let e : Event := ⟨t % 1000000000, t / 1000000000 % 2 ^ 32, code, sev, false, arg % 2 ^ 32⟩
  let s := s.irq Reg.CMD_IRQ_STAT Fl.CMD_IRQ_STAT_EVENT
  { s with cmd.log := newest 256 (s.cmd.log ++ [(e, true)]), cmd.logMram := newest 64 (s.cmd.logMram ++ [e]) }

/-- Write an entry whose severity no chapter states: one of the three, free. -/
def State.logEventFree (s : State) (code arg : Nat) : State :=
  let (v, s) := s.fresh
  s.logEvent code (v % 3) arg

/-- The 16 bytes of an entry (R589). -/
def Event.bytes (e : Event) : List Byte :=
  by4 e.ns ++ by4 e.sec ++ by2 e.code ++ by1 (e.sev + 128 * b2n e.restored) ++ by1 0 ++ by4 e.arg

/-- `EVT` of the HSP status (R572): an unread entry of severity at least `CMD_CFG.IRQ_SEV`. -/
def State.evt (s : State) : Bool :=
  let v := s.fld Reg.CMD_CFG Fl.CMD_CFG_IRQ_SEV
  decide (v < 3) && s.cmd.log.any (fun e => e.2 && decide (v ≤ e.1.sev))

end Sys2Proof.Machine
end

