-- ==== Sys2Proof/Machine/Compact.lean ====
section
/-!
DEFINITION. Compaction of the scene journal (R612): which records a later one makes needless. A *setting* is one command's effect on one
object that it names.
-/

namespace Sys2Proof

open Machine

/-- Objects that are configured and removed by commands of their own. -/
inductive ObjKind where
  | slot
  | output
  | rx
  | tx
  | fx
  deriving DecidableEq, Repr

/-- Commands whose parameters begin with a range of outputs (R218, R240, R275). -/
def rangeOps : List Nat := [0x0702, 0x0703, 0x0705, 0x0707, 0x0803, 0x0907]

/-- The objects a record names: their kind, the first and the count. -/
def JRec.objs (r : JRec) : Option (ObjKind × Nat × Nat) :=
  if [0x0402, 0x0403, 0x0404].contains r.opcode then some (.slot, u16 r.params 0, 1)
  else if [0x0701, 0x0704].contains r.opcode then some (.output, u16 r.params 0, 1)
  else if rangeOps.contains r.opcode || [0x0802, 0x0804, 0x0906].contains r.opcode then some (.output, u16 r.params 0, u16 r.params 2)
  else if r.opcode = 0x0310 then some (.rx, u16 r.params 0, 1)
  else if r.opcode = 0x0311 then some (.tx, u16 r.params 0, 1)
  else if r.opcode = 0x0D01 ∨ r.opcode = 0x0D02 then some (.fx, u8 r.params 0, 1)
  else none

/-- A record that removes the object it names. -/
def JRec.removes (r : JRec) : Bool :=
  r.opcode == 0x0403 || ([0x0701, 0x0310, 0x0311].contains r.opcode && u8 r.params 2 == 1) ||
    (r.opcode == 0x0D01 && u8 r.params 1 == 1)

/-- A record names object `k` of a kind. -/
def JRec.names (r : JRec) (kind : ObjKind) (k : Nat) : Bool :=
  r.objs.any (fun o => o.1 == kind && decide (o.2.1 ≤ k) && decide (k < o.2.1 + o.2.2))

/-- Commands that set all that they set of the object whose name is the leading bytes of their parameters, and how many bytes those are. -/
def prefixOps : List (Nat × Nat) :=
  [(0x0010, 0), (0x0040, 0), (0x0102, 1), (0x0201, 0), (0x0202, 1), (0x0203, 0), (0x0204, 0), (0x0205, 0), (0x0210, 0),
   (0x0301, 1), (0x0304, 2), (0x0310, 2), (0x0311, 2), (0x0401, 0), (0x0402, 2), (0x0404, 2), (0x0407, 0), (0x0501, 0),
   (0x0502, 0), (0x0503, 2), (0x0601, 0), (0x0701, 2), (0x0706, 1), (0x0708, 0), (0x0901, 0), (0x0904, 0), (0x0A01, 2),
   (0x0A04, 2), (0x0A05, 0), (0x0A06, 1), (0x0A07, 0), (0x0A08, 0), (0x0A09, 1), (0x0B01, 1), (0x0B02, 1), (0x0C01, 0),
   (0x0C02, 0), (0x0D01, 1), (0x0F01, 0), (0x0F40, 1), (0x0F41, 0), (0x0F50, 0), (0x0F60, 0), (0x1001, 1)]

/-- The settings of a record, among those of its opcode. None: a record that stages, commits or measures, which stays. -/
def JRec.settings (r : JRec) : List Nat :=
  if rangeOps.contains r.opcode then
    (List.range (u16 r.params 2)).flatMap (fun i =>
      let o := u16 r.params 0 + i
      if r.opcode = 0x0702 then
        (if u16 r.params 4 = 0x7FFF then [] else [2 * o]) ++ (if u16 r.params 6 = 0x7FFF then [] else [2 * o + 1])
      else [o])
  else if r.opcode = 0x0041 then (List.range 16).filter (fun i => (u32 r.params 0).testBit i)
  else if r.opcode = 0x0704 then (List.range (u8 r.params 3)).map (fun i => 20 * u16 r.params 0 + u8 r.params 2 + i)
  else if r.opcode = 0x0D02 then
    (List.range (u16 r.params 4 / 8)).map (fun i => 0x10000 * u8 r.params 0 + u16 r.params 2 / 8 + i)
  else
    match prefixOps.find? (fun e => e.1 == r.opcode) with
    | some e => [leVal (r.params.take e.2)]
    | none => []

/-- Commands whose check may look at what a command has set: the order that replay requires. -/
def looksAt : Nat → List Nat
  | 0x0201 => [0x0202, 0x0203, 0x0204]
  | 0x0202 => [0x0203]
  | 0x0203 => [0x0204]
  | 0x0301 => [0x0302, 0x0303, 0x0304, 0x0307]
  | 0x0310 => [0x0A01]
  | 0x0311 => [0x0701, 0x0A04, 0x0D01]
  | 0x0401 => [0x0503]
  | 0x0402 => [0x0404]
  | 0x0701 => [0x0702, 0x0703, 0x0704, 0x0705, 0x0707, 0x0801, 0x0802, 0x0803, 0x0804, 0x0903, 0x0906, 0x0907]
  | 0x0803 => [0x0801, 0x0802, 0x0804]
  | 0x0A05 => [0x0B01]
  | 0x0B01 => [0x0B02, 0x0701, 0x0A04]
  | 0x0D01 => [0x0D02]
  | 0x1001 => [0x1001]
  | _ => []

/-- What stands between a record and a later one for the same setting keeps the earlier one needed. -/
def JRec.keeps (r b : JRec) : Bool :=
  b.crcOk && (r.opcode == 0x0010 || ((looksAt r.opcode).contains b.opcode &&
    (match r.objs, b.objs with
      | some x, some y => x.1 != y.1 || (decide (x.2.1 < y.2.1 + y.2.2) && decide (y.2.1 < x.2.1 + x.2.2))
      | _, _ => true)))

/-- Setting `k` of a record is set anew by a later one of `ls`, with nothing between that needs the earlier. -/
def JRec.superseded (r : JRec) (ls : List JRec) (k : Nat) : Bool :=
  let between := ls.takeWhile (fun q => !(q.crcOk && q.opcode == r.opcode && q.settings.contains k))
  decide (between.length < ls.length) && !between.any r.keeps

/-- Object `k` that a record names is removed later. An output whose configuration a loaded image was checked against stays until then
(R238). -/
def JRec.undone (r : JRec) (ls : List JRec) (kind : ObjKind) (k : Nat) : Bool :=
  let between := ls.takeWhile (fun q => !(q.crcOk && q.removes && q.names kind k))
  decide (between.length < ls.length) && !(r.opcode == 0x0701 && between.any (fun q => q.opcode == 0x0801))

/-- An object's removal stays where the configuration before it stays. -/
def removalStays (before : List JRec) (q : JRec) : Bool :=
  q.opcode == 0x0701 &&
    (before.dropWhile (fun r => !(r.opcode == 0x0701 && !r.removes && r.params.take 2 == q.params.take 2))).any (fun r => r.opcode == 0x0801)

/-- Runs of consecutive numbers of an ascending list: first and count. -/
def runsOf : List Nat → List (Nat × Nat)
  | [] => []
  | k :: ks =>
    match runsOf ks with
    | (f, n) :: rs => if k + 1 = f then (k, n + 1) :: rs else (k, 1) :: (f, n) :: rs
    | [] => [(k, 1)]

/-- What stays of a record over a range: its outputs that still need it. -/
def JRec.pieces (r : JRec) (ls : List JRec) : List JRec :=
  let outs := (List.range (u16 r.params 2)).map (u16 r.params 0 + ·)
  let mine (o : Nat) : List Nat := r.settings.filter (fun k => (if r.opcode = 0x0702 then k / 2 else k) == o)
  let need := outs.filter (fun o => !r.undone ls .output o && (mine o).any (fun k => !r.superseded ls k))
  if need = outs then [r]
  else (runsOf need).map (fun x => { r with params := by2 x.1 ++ by2 x.2 ++ r.params.drop 4 })

/-- Modes whose `MODE_SET` counts at a restoration (R613). -/
def countedMode (r : JRec) : Bool := r.crcOk && r.opcode == 0x0002 && [mIDLE, mRENDER, mMEASURE, mSERVICE].contains (u8 r.params 0)

/-- What stays of a record, with those before it and those after. -/
def JRec.compacted (r : JRec) (before ls : List JRec) : List JRec :=
  if !r.crcOk then []
  else if r.opcode = 0x0002 then (if countedMode r && !ls.any countedMode then [r] else [])
  else if r.removes then (if removalStays before r then [r] else [])
  else if rangeOps.contains r.opcode then r.pieces ls
  else if r.objs.any (fun o => o.2.2 == 1 && r.undone ls o.1 o.2.1) then []
  else if !r.settings.isEmpty && r.settings.all (fun k => r.superseded ls k) then []
  else [r]

/-- The records still needed, in their order (R612): `before` are those already passed. -/
def compactFrom (before : List JRec) : List JRec → List JRec
  | [] => []
  | r :: rs => r.compacted before rs ++ compactFrom (before ++ [r]) rs

/-- The compacted journal. -/
def compact (rs : List JRec) : List JRec := compactFrom [] rs

end Sys2Proof
end

