-- ==== Sys2Proof/Machine/Dsp.lean ====
section
/-!
DEFINITION. Fixed-point arithmetic of the data plane: levels in 0.01 dB, saturation to Q5.27 (R6), the raised-cosine weights
of crossfades, and the interpolator's coefficients (R169).
-/

namespace Sys2Proof.Machine

/-- Whether `m / 2 ≤ 2^fb · 10^(x/2000)`, decided exactly. -/
def halfBelow (fb : Nat) (x : Int) (m : Nat) : Bool :=
  if 0 ≤ x then decide (m ^ 2000 ≤ 2 ^ (2000 * (fb + 1)) * 10 ^ x.toNat)
  else decide (m ^ 2000 * 10 ^ (-x).toNat ≤ 2 ^ (2000 * (fb + 1)))

/-- The largest `n` whose `n − ½` does not exceed the value, searched from the top bit. -/
def levelBits (fb : Nat) (x : Int) : Nat → Nat → Nat
  | 0, n => n
  | k + 1, n =>
    let c := n + 2 ^ k
    levelBits fb x k (if halfBelow fb x (2 * c - 1) then c else n)

/-- `10^(x/2000)`, x in 0.01 dB, rounded to `fb` fraction bits; mute (-32768) gives 0. For levels below +120 dB. -/
def levelQ (fb : Nat) (x : Int) : Nat := if x = -32768 then 0 else levelBits fb x (fb + 20) 0

/-- Saturate to Q5.27, at ±(16 − 2⁻²⁷) (R177, R189; everywhere else notes/assumptions/34). -/
def sat27 (x : Int) : Int := clampI (-(2 ^ 31 - 1)) (2 ^ 31 - 1) x

/-- Multiply a Q5.27 sample by an unsigned factor of `fb` fraction bits; rounded, ties away, saturated. -/
def mulQ (fb : Nat) (x : Int) (g : Nat) : Int := sat27 (rndShr (x * g) fb)

/-- `round(2^23 · sin²(π·j/128))` for j = 1 to 64. -/
def sin2Table : List Nat :=
  [5052, 20197, 45397, 80592, 125698, 180605, 245182, 319272, 402698, 495258, 596729, 706868, 825407, 952063,
   1086530, 1228483, 1377582, 1533466, 1695760, 1864074, 2038001, 2217123, 2401008, 2589213, 2781286, 2976762,
   3175171, 3376036, 3578872, 3783190, 3988499, 4194304, 4400109, 4605418, 4809736, 5012572, 5213437, 5411846,
   5607322, 5799395, 5987600, 6171485, 6350607, 6524534, 6692848, 6855142, 7011026, 7160125, 7302078, 7436545,
   7563201, 7681740, 7791879, 7893350, 7985910, 8069336, 8143426, 8208003, 8262910, 8308016, 8343211, 8368411,
   8383556, 8388608]

/-- The weight of sample `i` of a crossfade over `F` samples (R157, R175). -/
def fadeW (f i : Nat) : Nat := nth sin2Table ((i + 1) * (64 / f) - 1) 0

/-- A crossfade of two samples at sample `i` of `F`. -/
def crossfade (f i : Nat) (a b : Int) : Int :=
  let w : Int := fadeW f i
  sat27 (rndShr ((2 ^ 23 - w) * a + w * b) 23)

/-! ### The interpolator's coefficients (R169), in Q1.22 -/

/-- Phases 0 to 15. -/
def interp0 : List (List Int) :=
  [[0, 0, 0, 4194304, 0, 0, 0, 0],
   [-1488, 4827, -14382, 4194424, 14523, -4867, 1504, -237],
   [-2960, 9614, -28623, 4194314, 29189, -9775, 3024, -479],
   [-4417, 14361, -42722, 4193973, 43997, -14722, 4560, -726],
   [-5857, 19066, -56680, 4193403, 58946, -19708, 6112, -978],
   [-7280, 23730, -70494, 4192602, 74035, -24732, 7679, -1236],
   [-8687, 28352, -84166, 4191572, 89264, -29794, 9261, -1498],
   [-10078, 32932, -97693, 4190312, 104632, -34894, 10859, -1766],
   [-11452, 37469, -111077, 4188824, 120138, -40031, 12472, -2039],
   [-12809, 41962, -124314, 4187104, 135782, -45203, 14099, -2317],
   [-14150, 46411, -137407, 4185159, 151561, -50412, 15742, -2600],
   [-15473, 50816, -150353, 4182982, 167477, -55655, 17398, -2888],
   [-16780, 55177, -163153, 4180576, 183527, -60932, 19070, -3181],
   [-18069, 59492, -175805, 4177943, 199711, -66244, 20755, -3479],
   [-19341, 63762, -188310, 4175082, 216028, -71588, 22454, -3783],
   [-20595, 67987, -200667, 4171992, 232477, -76965, 24167, -4092]]

/-- Phases 16 to 31. -/
def interp1 : List (List Int) :=
  [[-21833, 72165, -212876, 4168675, 249057, -82373, 25894, -4405],
   [-23052, 76296, -224935, 4165131, 265767, -87813, 27634, -4724],
   [-24254, 80381, -236846, 4161361, 282606, -93283, 29387, -5048],
   [-25439, 84419, -248607, 4157364, 299573, -98783, 31153, -5376],
   [-26606, 88409, -260218, 4153142, 316667, -104311, 32931, -5710],
   [-27755, 92351, -271678, 4148693, 333888, -109868, 34722, -6049],
   [-28886, 96245, -282989, 4144020, 351233, -115453, 36526, -6392],
   [-30000, 100090, -294148, 4139124, 368702, -121064, 38341, -6741],
   [-31096, 103887, -305157, 4134003, 386294, -126701, 40168, -7094],
   [-32173, 107635, -316014, 4128658, 404008, -132364, 42007, -7453],
   [-33233, 111334, -326720, 4123092, 421842, -138051, 43856, -7816],
   [-34275, 114983, -337274, 4117304, 439795, -143762, 45717, -8184],
   [-35299, 118583, -347676, 4111293, 457867, -149496, 47589, -8557],
   [-36305, 122132, -357926, 4105062, 476056, -155252, 49471, -8934],
   [-37292, 125631, -368024, 4098611, 494360, -161029, 51363, -9316],
   [-38262, 129080, -377969, 4091940, 512779, -166827, 53266, -9703]]

/-- Phases 32 to 47. -/
def interp2 : List (List Int) :=
  [[-39214, 132479, -387762, 4085052, 531311, -172645, 55178, -10095],
   [-40147, 135826, -397403, 4077945, 549956, -178481, 57099, -10491],
   [-41063, 139123, -406891, 4070621, 568711, -184336, 59030, -10891],
   [-41960, 142369, -416227, 4063082, 587576, -190208, 60969, -11297],
   [-42839, 145563, -425410, 4055326, 606549, -196096, 62917, -11706],
   [-43700, 148706, -434440, 4047356, 625628, -201999, 64873, -12120],
   [-44543, 151798, -443318, 4039173, 644813, -207918, 66837, -12538],
   [-45369, 154838, -452043, 4030776, 664103, -213849, 68809, -12961],
   [-46176, 157826, -460616, 4022169, 683495, -219794, 70788, -13388],
   [-46965, 160762, -469037, 4013351, 702988, -225750, 72774, -13819],
   [-47736, 163646, -477305, 4004322, 722582, -231718, 74767, -14254],
   [-48489, 166478, -485421, 3995085, 742273, -237695, 76766, -14693],
   [-49224, 169259, -493385, 3985639, 762062, -243682, 78771, -15136],
   [-49941, 171987, -501196, 3975985, 781947, -249677, 80782, -15583],
   [-50641, 174662, -508857, 3966129, 801926, -255679, 82798, -16034],
   [-51323, 177286, -516365, 3956065, 821997, -261687, 84820, -16489]]

/-- Phases 48 to 63. -/
def interp3 : List (List Int) :=
  [[-51986, 179857, -523722, 3945797, 842159, -267700, 86846, -16947],
   [-52633, 182376, -530929, 3935331, 862411, -273718, 88876, -17410],
   [-53261, 184842, -537984, 3924658, 882752, -279739, 90911, -17875],
   [-53872, 187256, -544888, 3913789, 903178, -285763, 92949, -18345],
   [-54466, 189618, -551643, 3902720, 923690, -291788, 94990, -18817],
   [-55042, 191928, -558247, 3891451, 944285, -297813, 97035, -19293],
   [-55600, 194185, -564701, 3879987, 964962, -303838, 99082, -19773],
   [-56142, 196390, -571006, 3868328, 985719, -309861, 101131, -20255],
   [-56666, 198543, -577162, 3856474, 1006555, -315881, 103182, -20741],
   [-57173, 200643, -583169, 3844428, 1027467, -321897, 105235, -21230],
   [-57662, 202691, -589028, 3832191, 1048455, -327909, 107288, -21722],
   [-58135, 204688, -594739, 3819762, 1069516, -333915, 109343, -22216],
   [-58591, 206632, -600303, 3807147, 1090650, -339914, 111397, -22714],
   [-59030, 208525, -605719, 3794342, 1111853, -345905, 113452, -23214],
   [-59452, 210365, -610989, 3781351, 1133126, -351887, 115506, -23716],
   [-59858, 212154, -616112, 3768175, 1154465, -357858, 117560, -24222]]

/-- Phases 64 to 79. -/
def interp4 : List (List Int) :=
  [[-60247, 213892, -621090, 3754816, 1175869, -363819, 119612, -24729],
   [-60619, 215578, -625923, 3741277, 1197336, -369768, 121662, -25239],
   [-60975, 217212, -630611, 3727556, 1218865, -375703, 123711, -25751],
   [-61315, 218795, -635154, 3713655, 1240454, -381623, 125757, -26265],
   [-61639, 220328, -639555, 3699580, 1262101, -387529, 127800, -26782],
   [-61947, 221809, -643812, 3685326, 1283805, -393417, 129840, -27300],
   [-62238, 223240, -647926, 3670898, 1305562, -399288, 131876, -27820],
   [-62514, 224620, -651899, 3656297, 1327373, -405140, 133908, -28341],
   [-62774, 225950, -655731, 3641524, 1349234, -410971, 135936, -28864],
   [-63019, 227229, -659422, 3626583, 1371145, -416782, 137959, -29389],
   [-63248, 228458, -662972, 3611473, 1393102, -422570, 139976, -29915],
   [-63462, 229638, -666384, 3596197, 1415105, -428335, 141987, -30442],
   [-63660, 230768, -669656, 3580753, 1437152, -434076, 143993, -30970],
   [-63844, 231848, -672791, 3565151, 1459240, -439791, 145991, -31500],
   [-64012, 232880, -675788, 3549381, 1481368, -445478, 147983, -32030],
   [-64166, 233862, -678649, 3533457, 1503533, -451138, 149966, -32561]]

/-- Phases 80 to 95. -/
def interp5 : List (List Int) :=
  [[-64305, 234796, -681374, 3517371, 1525735, -456769, 151942, -33092],
   [-64429, 235681, -683963, 3501127, 1547971, -462369, 153910, -33624],
   [-64539, 236518, -686418, 3484732, 1570238, -467938, 155868, -34157],
   [-64634, 237307, -688740, 3468181, 1592536, -473474, 157818, -34690],
   [-64716, 238048, -690928, 3451478, 1614863, -478976, 159757, -35222],
   [-64783, 238742, -692984, 3434625, 1637215, -484443, 161687, -35755],
   [-64837, 239388, -694909, 3417627, 1659592, -489874, 163605, -36288],
   [-64876, 239988, -696704, 3400479, 1681991, -495267, 165513, -36820],
   [-64902, 240541, -698369, 3383189, 1704411, -500622, 167409, -37353],
   [-64915, 241048, -699904, 3365754, 1726849, -505937, 169293, -37884],
   [-64915, 241508, -701312, 3348181, 1749304, -511211, 171164, -38415],
   [-64901, 241923, -702593, 3330467, 1771773, -516443, 173023, -38945],
   [-64874, 242293, -703747, 3312614, 1794255, -521631, 174868, -39474],
   [-64834, 242617, -704776, 3294628, 1816747, -526775, 176699, -40002],
   [-64782, 242897, -705680, 3276508, 1839248, -531873, 178515, -40529],
   [-64717, 243132, -706461, 3258256, 1861755, -536924, 180317, -41054]]

/-- Phases 96 to 111. -/
def interp6 : List (List Int) :=
  [[-64640, 243323, -707119, 3239874, 1884267, -541927, 182104, -41578],
   [-64551, 243471, -707655, 3221363, 1906781, -546880, 183875, -42100],
   [-64449, 243575, -708070, 3202727, 1929295, -551783, 185630, -42621],
   [-64336, 243635, -708365, 3183967, 1951808, -556634, 187368, -43139],
   [-64211, 243654, -708541, 3165084, 1974318, -561432, 189088, -43656],
   [-64074, 243629, -708600, 3146082, 1996821, -566176, 190792, -44170],
   [-63926, 243563, -708541, 3126959, 2019317, -570864, 192477, -44681],
   [-63767, 243455, -708366, 3107722, 2041803, -575495, 194143, -45191],
   [-63596, 243306, -708076, 3088368, 2064277, -580069, 195791, -45697],
   [-63415, 243116, -707672, 3068902, 2086737, -584583, 197419, -46200],
   [-63223, 242885, -707155, 3049328, 2109181, -589037, 199026, -46701],
   [-63020, 242615, -706526, 3029640, 2131608, -593429, 200614, -47198],
   [-62807, 242304, -705786, 3009850, 2154014, -597759, 202180, -47692],
   [-62583, 241954, -704935, 2989954, 2176397, -602025, 203725, -48183],
   [-62350, 241566, -703976, 2969952, 2198757, -606225, 205249, -48669],
   [-62107, 241138, -702909, 2949855, 2221090, -610360, 206749, -49152]]

/-- Phases 112 to 127. -/
def interp7 : List (List Int) :=
  [[-61854, 240673, -701736, 2929656, 2243395, -614426, 208227, -49631],
   [-61591, 240170, -700456, 2909360, 2265669, -618424, 209682, -50106],
   [-61319, 239629, -699072, 2888970, 2287911, -622351, 211113, -50577],
   [-61037, 239052, -697584, 2868487, 2310118, -626208, 212519, -51043],
   [-60747, 238438, -695993, 2847913, 2332288, -629992, 213901, -51504],
   [-60448, 237788, -694301, 2827251, 2354419, -633702, 215258, -51961],
   [-60140, 237103, -692509, 2806502, 2376509, -637338, 216589, -52412],
   [-59823, 236382, -690618, 2785668, 2398557, -640897, 217894, -52859],
   [-59498, 235627, -688628, 2764751, 2420559, -644379, 219172, -53300],
   [-59165, 234837, -686541, 2743754, 2442514, -647783, 220423, -53735],
   [-58824, 234013, -684359, 2722680, 2464419, -651107, 221647, -54165],
   [-58475, 233156, -682082, 2701531, 2486273, -654351, 222842, -54590],
   [-58118, 232266, -679711, 2680304, 2508074, -657512, 224009, -55008],
   [-57754, 231343, -677248, 2659007, 2529819, -660590, 225147, -55420],
   [-57382, 230388, -674693, 2637638, 2551507, -663584, 226256, -55826],
   [-57003, 229401, -672048, 2616203, 2573134, -666493, 227335, -56225]]

/-- Phases 128 to 143. -/
def interp8 : List (List Int) :=
  [[-56618, 228384, -669314, 2594700, 2594700, -669314, 228384, -56618],
   [-56225, 227335, -666493, 2573134, 2616203, -672048, 229401, -57003],
   [-55826, 226256, -663584, 2551507, 2637638, -674693, 230388, -57382],
   [-55420, 225147, -660590, 2529819, 2659007, -677248, 231343, -57754],
   [-55008, 224009, -657512, 2508074, 2680304, -679711, 232266, -58118],
   [-54590, 222842, -654351, 2486273, 2701531, -682082, 233156, -58475],
   [-54165, 221647, -651107, 2464419, 2722680, -684359, 234013, -58824],
   [-53735, 220423, -647783, 2442514, 2743754, -686541, 234837, -59165],
   [-53300, 219172, -644379, 2420559, 2764751, -688628, 235627, -59498],
   [-52859, 217894, -640897, 2398557, 2785668, -690618, 236382, -59823],
   [-52412, 216589, -637338, 2376509, 2806502, -692509, 237103, -60140],
   [-51961, 215258, -633702, 2354419, 2827251, -694301, 237788, -60448],
   [-51504, 213901, -629992, 2332288, 2847913, -695993, 238438, -60747],
   [-51043, 212519, -626208, 2310118, 2868487, -697584, 239052, -61037],
   [-50577, 211113, -622351, 2287911, 2888970, -699072, 239629, -61319],
   [-50106, 209682, -618424, 2265669, 2909360, -700456, 240170, -61591]]

/-- Phases 144 to 159. -/
def interp9 : List (List Int) :=
  [[-49631, 208227, -614426, 2243395, 2929656, -701736, 240673, -61854],
   [-49152, 206749, -610360, 2221090, 2949855, -702909, 241138, -62107],
   [-48669, 205249, -606225, 2198757, 2969952, -703976, 241566, -62350],
   [-48183, 203725, -602025, 2176397, 2989954, -704935, 241954, -62583],
   [-47692, 202180, -597759, 2154014, 3009850, -705786, 242304, -62807],
   [-47198, 200614, -593429, 2131608, 3029640, -706526, 242615, -63020],
   [-46701, 199026, -589037, 2109181, 3049328, -707155, 242885, -63223],
   [-46200, 197419, -584583, 2086737, 3068902, -707672, 243116, -63415],
   [-45697, 195791, -580069, 2064277, 3088368, -708076, 243306, -63596],
   [-45191, 194143, -575495, 2041803, 3107722, -708366, 243455, -63767],
   [-44681, 192477, -570864, 2019317, 3126959, -708541, 243563, -63926],
   [-44170, 190792, -566176, 1996821, 3146082, -708600, 243629, -64074],
   [-43656, 189088, -561432, 1974318, 3165084, -708541, 243654, -64211],
   [-43139, 187368, -556634, 1951808, 3183967, -708365, 243635, -64336],
   [-42621, 185630, -551783, 1929295, 3202727, -708070, 243575, -64449],
   [-42100, 183875, -546880, 1906781, 3221363, -707655, 243471, -64551]]

/-- Phases 160 to 175. -/
def interp10 : List (List Int) :=
  [[-41578, 182104, -541927, 1884267, 3239874, -707119, 243323, -64640],
   [-41054, 180317, -536924, 1861755, 3258256, -706461, 243132, -64717],
   [-40529, 178515, -531873, 1839248, 3276508, -705680, 242897, -64782],
   [-40002, 176699, -526775, 1816747, 3294628, -704776, 242617, -64834],
   [-39474, 174868, -521631, 1794255, 3312614, -703747, 242293, -64874],
   [-38945, 173023, -516443, 1771773, 3330467, -702593, 241923, -64901],
   [-38415, 171164, -511211, 1749304, 3348181, -701312, 241508, -64915],
   [-37884, 169293, -505937, 1726849, 3365754, -699904, 241048, -64915],
   [-37353, 167409, -500622, 1704411, 3383189, -698369, 240541, -64902],
   [-36820, 165513, -495267, 1681991, 3400479, -696704, 239988, -64876],
   [-36288, 163605, -489874, 1659592, 3417627, -694909, 239388, -64837],
   [-35755, 161687, -484443, 1637215, 3434625, -692984, 238742, -64783],
   [-35222, 159757, -478976, 1614863, 3451478, -690928, 238048, -64716],
   [-34690, 157818, -473474, 1592536, 3468181, -688740, 237307, -64634],
   [-34157, 155868, -467938, 1570238, 3484732, -686418, 236518, -64539],
   [-33624, 153910, -462369, 1547971, 3501127, -683963, 235681, -64429]]

/-- Phases 176 to 191. -/
def interp11 : List (List Int) :=
  [[-33092, 151942, -456769, 1525735, 3517371, -681374, 234796, -64305],
   [-32561, 149966, -451138, 1503533, 3533457, -678649, 233862, -64166],
   [-32030, 147983, -445478, 1481368, 3549381, -675788, 232880, -64012],
   [-31500, 145991, -439791, 1459240, 3565151, -672791, 231848, -63844],
   [-30970, 143993, -434076, 1437152, 3580753, -669656, 230768, -63660],
   [-30442, 141987, -428335, 1415105, 3596197, -666384, 229638, -63462],
   [-29915, 139976, -422570, 1393102, 3611473, -662972, 228458, -63248],
   [-29389, 137959, -416782, 1371145, 3626583, -659422, 227229, -63019],
   [-28864, 135936, -410971, 1349234, 3641524, -655731, 225950, -62774],
   [-28341, 133908, -405140, 1327373, 3656297, -651899, 224620, -62514],
   [-27820, 131876, -399288, 1305562, 3670898, -647926, 223240, -62238],
   [-27300, 129840, -393417, 1283805, 3685326, -643812, 221809, -61947],
   [-26782, 127800, -387529, 1262101, 3699580, -639555, 220328, -61639],
   [-26265, 125757, -381623, 1240454, 3713655, -635154, 218795, -61315],
   [-25751, 123711, -375703, 1218865, 3727556, -630611, 217212, -60975],
   [-25239, 121662, -369768, 1197336, 3741277, -625923, 215578, -60619]]

/-- Phases 192 to 207. -/
def interp12 : List (List Int) :=
  [[-24729, 119612, -363819, 1175869, 3754816, -621090, 213892, -60247],
   [-24222, 117560, -357858, 1154465, 3768175, -616112, 212154, -59858],
   [-23716, 115506, -351887, 1133126, 3781351, -610989, 210365, -59452],
   [-23214, 113452, -345905, 1111853, 3794342, -605719, 208525, -59030],
   [-22714, 111397, -339914, 1090650, 3807147, -600303, 206632, -58591],
   [-22216, 109343, -333915, 1069516, 3819762, -594739, 204688, -58135],
   [-21722, 107288, -327909, 1048455, 3832191, -589028, 202691, -57662],
   [-21230, 105235, -321897, 1027467, 3844428, -583169, 200643, -57173],
   [-20741, 103182, -315881, 1006555, 3856474, -577162, 198543, -56666],
   [-20255, 101131, -309861, 985719, 3868328, -571006, 196390, -56142],
   [-19773, 99082, -303838, 964962, 3879987, -564701, 194185, -55600],
   [-19293, 97035, -297813, 944285, 3891451, -558247, 191928, -55042],
   [-18817, 94990, -291788, 923690, 3902720, -551643, 189618, -54466],
   [-18345, 92949, -285763, 903178, 3913789, -544888, 187256, -53872],
   [-17875, 90911, -279739, 882752, 3924658, -537984, 184842, -53261],
   [-17410, 88876, -273718, 862411, 3935331, -530929, 182376, -52633]]

/-- Phases 208 to 223. -/
def interp13 : List (List Int) :=
  [[-16947, 86846, -267700, 842159, 3945797, -523722, 179857, -51986],
   [-16489, 84820, -261687, 821997, 3956065, -516365, 177286, -51323],
   [-16034, 82798, -255679, 801926, 3966129, -508857, 174662, -50641],
   [-15583, 80782, -249677, 781947, 3975985, -501196, 171987, -49941],
   [-15136, 78771, -243682, 762062, 3985639, -493385, 169259, -49224],
   [-14693, 76766, -237695, 742273, 3995085, -485421, 166478, -48489],
   [-14254, 74767, -231718, 722582, 4004322, -477305, 163646, -47736],
   [-13819, 72774, -225750, 702988, 4013351, -469037, 160762, -46965],
   [-13388, 70788, -219794, 683495, 4022169, -460616, 157826, -46176],
   [-12961, 68809, -213849, 664103, 4030776, -452043, 154838, -45369],
   [-12538, 66837, -207918, 644813, 4039173, -443318, 151798, -44543],
   [-12120, 64873, -201999, 625628, 4047356, -434440, 148706, -43700],
   [-11706, 62917, -196096, 606549, 4055326, -425410, 145563, -42839],
   [-11297, 60969, -190208, 587576, 4063082, -416227, 142369, -41960],
   [-10891, 59030, -184336, 568711, 4070621, -406891, 139123, -41063],
   [-10491, 57099, -178481, 549956, 4077945, -397403, 135826, -40147]]

/-- Phases 224 to 239. -/
def interp14 : List (List Int) :=
  [[-10095, 55178, -172645, 531311, 4085052, -387762, 132479, -39214],
   [-9703, 53266, -166827, 512779, 4091940, -377969, 129080, -38262],
   [-9316, 51363, -161029, 494360, 4098611, -368024, 125631, -37292],
   [-8934, 49471, -155252, 476056, 4105062, -357926, 122132, -36305],
   [-8557, 47589, -149496, 457867, 4111293, -347676, 118583, -35299],
   [-8184, 45717, -143762, 439795, 4117304, -337274, 114983, -34275],
   [-7816, 43856, -138051, 421842, 4123092, -326720, 111334, -33233],
   [-7453, 42007, -132364, 404008, 4128658, -316014, 107635, -32173],
   [-7094, 40168, -126701, 386294, 4134003, -305157, 103887, -31096],
   [-6741, 38341, -121064, 368702, 4139124, -294148, 100090, -30000],
   [-6392, 36526, -115453, 351233, 4144020, -282989, 96245, -28886],
   [-6049, 34722, -109868, 333888, 4148693, -271678, 92351, -27755],
   [-5710, 32931, -104311, 316667, 4153142, -260218, 88409, -26606],
   [-5376, 31153, -98783, 299573, 4157364, -248607, 84419, -25439],
   [-5048, 29387, -93283, 282606, 4161361, -236846, 80381, -24254],
   [-4724, 27634, -87813, 265767, 4165131, -224935, 76296, -23052]]

/-- Phases 240 to 255. -/
def interp15 : List (List Int) :=
  [[-4405, 25894, -82373, 249057, 4168675, -212876, 72165, -21833],
   [-4092, 24167, -76965, 232477, 4171992, -200667, 67987, -20595],
   [-3783, 22454, -71588, 216028, 4175082, -188310, 63762, -19341],
   [-3479, 20755, -66244, 199711, 4177943, -175805, 59492, -18069],
   [-3181, 19070, -60932, 183527, 4180576, -163153, 55177, -16780],
   [-2888, 17398, -55655, 167477, 4182982, -150353, 50816, -15473],
   [-2600, 15742, -50412, 151561, 4185159, -137407, 46411, -14150],
   [-2317, 14099, -45203, 135782, 4187104, -124314, 41962, -12809],
   [-2039, 12472, -40031, 120138, 4188824, -111077, 37469, -11452],
   [-1766, 10859, -34894, 104632, 4190312, -97693, 32932, -10078],
   [-1498, 9261, -29794, 89264, 4191572, -84166, 28352, -8687],
   [-1236, 7679, -24732, 74035, 4192602, -70494, 23730, -7280],
   [-978, 6112, -19708, 58946, 4193403, -56680, 19066, -5857],
   [-726, 4560, -14722, 43997, 4193973, -42722, 14361, -4417],
   [-479, 3024, -9775, 29189, 4194314, -28623, 9614, -2960],
   [-237, 1504, -4867, 14523, 4194424, -14382, 4827, -1488]]

/-- The coefficients of every phase. -/
def interpTable : List (List Int) :=
  interp0 ++ interp1 ++ interp2 ++ interp3 ++ interp4 ++ interp5 ++ interp6 ++ interp7 ++ interp8 ++ interp9 ++
    interp10 ++ interp11 ++ interp12 ++ interp13 ++ interp14 ++ interp15

/-- The coefficients of one phase. -/
def interpRow (ph : Nat) : List Int := nth interpTable ph []

/-- Add up a list of integers. -/
def sumI (l : List Int) : Int := l.foldl (· + ·) 0

/-- Element-wise sum of two blocks. -/
def addBlk (a b : List Int) : List Int := List.zipWith (· + ·) a b

/-- A block of zeros. -/
def zeros (n : Nat) : List Int := List.replicate n 0

end Sys2Proof.Machine
end

