-- ==== Sys2Proof/Machine/Float.lean ====
section
/-!
DEFINITION. Arithmetic in IEEE 754 binary32 with round-to-nearest-even (R77): each operation forms the exact result and
rounds it once.
-/

namespace Sys2Proof

open Machine

/-- Round a non-negative rational to an integer, ties to even. -/
def rneNat (num den : Nat) : Nat :=
  let q := num / den
  let r := num % den
  if 2 * r < den then q else if den < 2 * r then q + 1 else q + q % 2

/-- The rational `num/den · 2^ex` rounded to binary32 (magnitudes beyond the largest do not arise). -/
def F32.ofMag (num den : Nat) (ex : Int) : Nat × Int :=
  if num = 0 then (0, 0)
  else
    -- scale so that the quotient has 24 bits, but not below the least exponent
    let k0 : Int := (num.log2 : Int) - den.log2 - 23
    let q0 := if 0 ≤ k0 then num / (den * 2 ^ k0.toNat) else num * 2 ^ (-k0).toNat / den
    let k1 := if q0 < 2 ^ 23 then k0 - 1 else k0
    let k := max k1 (-149 - ex)
    let m := if 0 ≤ k then rneNat num (den * 2 ^ k.toNat) else rneNat (num * 2 ^ (-k).toNat) den
    if m = 2 ^ 24 then (2 ^ 23, ex + k + 1) else if m = 0 then (0, 0) else (m, ex + k)

/-- An exact value `n/d · 2^ex` as binary32. -/
def F32.mk' (n : Int) (d : Nat) (ex : Int) : F32 :=
  let r := F32.ofMag n.natAbs d ex
  ⟨if n < 0 then -(r.1 : Int) else r.1, r.2⟩

namespace F32

def ofInt (n : Int) : F32 := mk' n 1 0
def ofRat (n : Int) (d : Nat) : F32 := mk' n d 0
def zero : F32 := ⟨0, 0⟩
def one : F32 := ofInt 1

/-- Bring two values to one exponent: exact. -/
def align (a b : F32) : Int × Int × Int :=
  let e := min a.ex b.ex
  (a.man * 2 ^ (a.ex - e).toNat, b.man * 2 ^ (b.ex - e).toNat, e)

def add (a b : F32) : F32 :=
  let r := align a b
  mk' (r.1 + r.2.1) 1 r.2.2
def neg (a : F32) : F32 := ⟨-a.man, a.ex⟩
def sub (a b : F32) : F32 := add a (neg b)
def mul (a b : F32) : F32 := mk' (a.man * b.man) 1 (a.ex + b.ex)
/-- Division; the callers exclude a zero divisor. -/
def div (a b : F32) : F32 :=
  if b.man = 0 then zero
  else mk' (if b.man < 0 then -a.man else a.man) b.man.natAbs (a.ex - b.ex)
def lt (a b : F32) : Bool :=
  let r := align a b
  decide (r.1 < r.2.1)
def le (a b : F32) : Bool := !lt b a
def maxF (a b : F32) : F32 := if lt a b then b else a
def minF (a b : F32) : F32 := if lt b a then b else a
def abs (a : F32) : F32 := ⟨a.man.natAbs, a.ex⟩
def isZero (a : F32) : Bool := a.man == 0

/-- Square root: enough bits of the exact root, with a sticky bit for what is left. -/
def sqrt (a : F32) : F32 :=
  if a.man ≤ 0 then zero
  else
    let odd := (a.ex % 2).toNat
    let m := a.man.toNat * 2 ^ odd * 2 ^ 60
    let r := isqrt m
    mk' ((2 * r + if r * r = m then 0 else 1 : Nat) : Int) 1 ((a.ex - odd) / 2 - 31)

/-- `a · s` rounded to the nearest integer, ties away from zero. -/
def roundScaled (a : F32) (s : Nat) : Int :=
  if 0 ≤ a.ex then a.man * 2 ^ a.ex.toNat * s else rndDiv (a.man * s) (2 ^ (-a.ex).toNat)

/-- `⌊a⌋`. -/
def floor (a : F32) : Int :=
  if 0 ≤ a.ex then a.man * 2 ^ a.ex.toNat else a.man / (2 ^ (-a.ex).toNat : Int)

end F32

/-! ### Vectors -/

namespace V3

def sub (a b : V3) : V3 := ⟨a.x.sub b.x, a.y.sub b.y, a.z.sub b.z⟩
def add (a b : V3) : V3 := ⟨a.x.add b.x, a.y.add b.y, a.z.add b.z⟩
def smul (k : F32) (a : V3) : V3 := ⟨k.mul a.x, k.mul a.y, k.mul a.z⟩
def dot (a b : V3) : F32 := ((a.x.mul b.x).add (a.y.mul b.y)).add (a.z.mul b.z)
def cross (a b : V3) : V3 :=
  ⟨(a.y.mul b.z).sub (a.z.mul b.y), (a.z.mul b.x).sub (a.x.mul b.z), (a.x.mul b.y).sub (a.y.mul b.x)⟩
def norm (a : V3) : F32 := (dot a a).sqrt
def normalise (a : V3) : V3 :=
  let n := norm a
  ⟨a.x.div n, a.y.div n, a.z.div n⟩
def ofInts (x y z : Int) : V3 := ⟨F32.ofInt x, F32.ofInt y, F32.ofInt z⟩
def plusY : V3 := ofInts 0 1 0

end V3

end Sys2Proof
end

