-- ==== Sys2Proof/Machine/Fixed.lean ====
section
/-!
DEFINITION. Values the chapters give by formula, worked out in fixed point with 100 fraction bits and rounded once: the
weights of long crossfades (R194, R242), the fades of R206, limiter releases (R202); and the binary64 operations from which
the crossover's coefficients are derived (R197; notes/assumptions/35).
-/

namespace Sys2Proof.Machine

/-- One, with 100 fraction bits. -/
def fxOne : Int := 2 ^ 100

/-- π with 100 fraction bits. -/
def fxPi : Int := 3982441812995697363688351113952

def fxMul (a b : Int) : Int := rndShr (a * b) 100

/-- `a / b` for positive `b`. -/
def fxDiv (a b : Int) : Int := rndDiv (a * fxOne) b.toNat

/-- An alternating power series in `x²`: each term is the last times `-x²/d`. -/
def fxSeries (x2 : Int) : List Nat → Int → Int → Int
  | [], _, acc => acc
  | d :: ds, t, acc =>
    let t := -(rndDiv (fxMul t x2) d)
    fxSeries x2 ds t (acc + t)

def fxSin (x : Int) : Int := fxSeries (fxMul x x) ((List.range 24).map (fun (k : Nat) => (2 * k + 2) * (2 * k + 3))) x x
def fxCos (x : Int) : Int :=
  fxSeries (fxMul x x) ((List.range 24).map (fun (k : Nat) => (2 * k + 1) * (2 * k + 2))) fxOne fxOne

/-- `e^(-x)` for `x` in [0, 1]. -/
def fxExpNeg (x : Int) : Int :=
  ((List.range 30).foldl (fun (a : Int × Int) (k : Nat) =>
    let t := -(rndDiv (fxMul a.1 x) (k + 1))
    (t, a.2 + t)) (fxOne, fxOne)).2

/-- ln 2 and ln 10 with 100 fraction bits. -/
def fxLn2 : Int := 878668439483319573618263538048
def fxLn10 : Int := 2918873375210475425442079017697

/-- `e^y` as `v · 2^k` with `v` in [1, 2) and 100 fraction bits. -/
def fxExp (y : Int) : Int × Int :=
  let k := y / fxLn2
  (fxExpNeg (k * fxLn2 - y), k)

/-- The sum of `z^(2k+1)/(2k+1)` over `n` terms, their signs alternating where `alt` says so. -/
def fxOdd (alt : Bool) (n : Nat) (z : Int) : Int :=
  let z2 := if alt then -(fxMul z z) else fxMul z z
  ((List.range n).foldl (fun (a : Int × Int) (k : Nat) => (fxMul a.1 z2, a.2 + rndDiv a.1 (2 * k + 1))) (z, 0)).2

/-- The logarithm of `man · 2^ex`, for a positive `man`. -/
def fxLn (man : Nat) (ex : Int) : Int :=
  let b := man.log2 + 1
  let m : Int := rndDiv ((man : Int) * fxOne) (2 ^ b)
  2 * fxOdd false 36 (fxDiv (m - fxOne) (m + fxOne)) + (ex + b) * fxLn2

/-- A fixed-point square root. -/
def fxSqrt (x : Int) : Int := isqrt (x.toNat * 2 ^ 100)

/-- The arc tangent of `x` in [0, 1]: the angle is halved three times. -/
def fxAtan1 (x : Int) : Int :=
  let half (t : Int) : Int := fxDiv t (fxOne + fxSqrt (fxOne + fxMul t t))
  8 * fxOdd true 20 (half (half (half x)))

/-- The arc tangent of a non-negative `x`. -/
def fxAtan (x : Int) : Int :=
  if x ≤ fxOne then fxAtan1 x else rndDiv fxPi 2 - fxAtan1 (fxDiv fxOne x)

/-- The cosine of `n/d` of a turn, exact at every quarter. -/
def fxCosTurn (n d : Nat) : Int :=
  let m := min (n % d) (d - n % d)
  let quarter (m d : Nat) : Int :=
    if m = 0 then fxOne
    else if 4 * m = d then 0
    else if 8 * m ≤ d then fxCos (rndDiv (2 * fxPi * m) d)
    else fxSin (rndDiv (fxPi * (d - 4 * m : Nat)) (2 * d))
  if 4 * m ≤ d then quarter m d else -(quarter (d - 2 * m) (2 * d))

/-- The sine of `n/d` of a turn. -/
def fxSinTurn (n d : Nat) : Int := fxCosTurn (4 * n + 3 * d) (4 * d)

/-- `sin²(π·k/(2n))` for `k ≤ n`. -/
def fxSin2 (k n : Nat) : Int :=
  let s := fxSin (rndDiv (fxPi * k) (2 * n))
  fxMul s s

/-- `round(2^23·sin²(π·k/(2n)))`. -/
def sin2W (k n : Nat) : Nat := (rndShr (fxSin2 k n) 77).toNat

/-- Sample `i` of a fade-out over `F` samples: ½(1 + cos(π(i+1)/F)) of a sample; rounded once. -/
def fadeOut (f i : Nat) (x : Int) : Int := sat27 (rndShr (x * (fxOne - fxSin2 (i + 1) f)) 100)

/-- Sample `i` of a fade-in. -/
def fadeIn (f i : Nat) (x : Int) : Int := sat27 (rndShr (x * fxSin2 (i + 1) f) 100)

/-- A crossfade weighted by `w` in Q1.23, rounded once. -/
def blendW (w : Nat) (a b : Int) : Int := rndShr ((2 ^ 23 - (w : Int)) * a + (w : Int) * b) 23

/-! ### Binary64 (R197): a value is `man · 2^ex` with a `man` of at most 53 bits -/

/-- The rational `n/d · 2^ex` in binary64, ties to even (no value here is near the ends of the format). -/
def d64 (n : Int) (d : Nat) (ex : Int) : Int × Int :=
  if n = 0 then (0, 0)
  else
    let a := n.natAbs
    let k0 : Int := (a.log2 : Int) - d.log2 - 52
    let q0 := if 0 ≤ k0 then a / (d * 2 ^ k0.toNat) else a * 2 ^ (-k0).toNat / d
    let k := if q0 < 2 ^ 52 then k0 - 1 else k0
    let m : Int := if 0 ≤ k then rneNat a (d * 2 ^ k.toNat) else rneNat (a * 2 ^ (-k).toNat) d
    (if n < 0 then -m else m, ex + k)

def d64Mul (a b : Int × Int) : Int × Int := d64 (a.1 * b.1) 1 (a.2 + b.2)
def d64Add (a b : Int × Int) : Int × Int :=
  let e := min a.2 b.2
  d64 (a.1 * 2 ^ (a.2 - e).toNat + b.1 * 2 ^ (b.2 - e).toNat) 1 e
def d64Neg (a : Int × Int) : Int × Int := (-a.1, a.2)
/-- Division by a positive value. -/
def d64Div (a b : Int × Int) : Int × Int := d64 a.1 b.1.toNat (a.2 - b.2)
def d64One : Int × Int := (1, 0)
/-- π and √2 in binary64. -/
def d64Pi : Int × Int := (7074237752028440, -51)
def d64Sqrt2 : Int × Int := (6369051672525773, -52)
/-- A binary64 value with 100 fraction bits. -/
def d64Fx (a : Int × Int) : Int := if 0 ≤ a.2 + 100 then a.1 * 2 ^ (a.2 + 100).toNat else rndShr a.1 (-(a.2 + 100)).toNat
/-- The tangent of a small positive value, rounded once. -/
def d64Tan (a : Int × Int) : Int × Int := d64 (fxSin (d64Fx a)) (fxCos (d64Fx a)).toNat 0
/-- A binary64 value in Q23.40, ties away from zero. -/
def d64Q40 (a : Int × Int) : Int := if 0 ≤ a.2 + 40 then a.1 * 2 ^ (a.2 + 40).toNat else rndShr a.1 (-(a.2 + 40)).toNat

/-- `round(2^23·(1 − exp(−1/(τ·fs))))`, τ in ms (R202). -/
def releaseK (ms fs : Nat) : Nat := (rndShr (fxOne - fxExpNeg (rndDiv (1000 * fxOne) (ms * fs))) 77).toNat

end Sys2Proof.Machine
end

