-- ==== Sys2Proof/Machine/Elem.lean ====
section
/-!
DEFINITION. Elementary functions in binary32 (R77): the exact value, worked out with 100 fraction bits and rounded once. The spec gives
their formulas and not their last bit, which is free by one unit wherever the value is no binary32 number (notes/assumptions/30).
-/

namespace Sys2Proof.F32

open Machine

/-- The value `v · 2^(ex − 100)` in binary32, as function `fn` gives it. -/
def ofFx (fn : Nat) (v ex : Int) : F32 :=
  let r := mk' v 1 (ex - 100)
  -- the fixed-point value may miss an exact one by its own last bits
  let exact := decide (ex - 100 ≤ r.ex) && decide ((r.man * 2 ^ (r.ex - (ex - 100)).toNat - v).natAbs < 2 ^ 10)
  if exact then r else mk' (r.man + clampI (-1) 1 (Config.lastBit fn v ex)) 1 r.ex

/-- With 100 fraction bits. -/
def toFx (a : F32) : Int := if 0 ≤ a.ex + 100 then a.man * 2 ^ (a.ex + 100).toNat else rndShr a.man (-(a.ex + 100)).toNat

/-- Cosine and sine of `n/d` of a turn. -/
def cosTurn (n d : Nat) : F32 := ofFx 0 (fxCosTurn n d) 0
def sinTurn (n d : Nat) : F32 := ofFx 1 (fxSinTurn n d) 0

/-- A non-negative angle in degrees as a fraction of a turn. -/
def turn (a : F32) : Nat × Nat :=
  if 0 ≤ a.ex then (a.man.toNat * 2 ^ a.ex.toNat, 360) else (a.man.toNat, 360 * 2 ^ (-a.ex).toNat)

/-- Cosine and sine of a non-negative angle in degrees. -/
def cosDeg (a : F32) : F32 := cosTurn a.turn.1 a.turn.2
def sinDeg (a : F32) : F32 := sinTurn a.turn.1 a.turn.2

/-- The arc tangent of a non-negative value, in degrees. -/
def atanDeg (a : F32) : F32 := ofFx 2 (fxDiv (180 * fxAtan a.toFx) fxPi) 0

/-- `e^x`. -/
def exp (a : F32) : F32 :=
  if a.isZero then one else
  let r := fxExp a.toFx
  ofFx 3 r.1 r.2

/-- `x^y` for a positive `x`. -/
def pow (x y : F32) : F32 :=
  let l := fxLn x.man.toNat x.ex * y.man
  let r := fxExp (if 0 ≤ y.ex then l * 2 ^ y.ex.toNat else rndShr l (-y.ex).toNat)
  ofFx 4 r.1 r.2

/-- `x^(e/1000)` for a positive `x`: one operation, rounded once. -/
def powMilli (x : F32) (e : Nat) : F32 :=
  if e = 0 then one
  else if e = 1000 then x
  else if e = 2000 then mul x x
  else pow x (ofRat e 1000)

/-- `x^(−e/1000)` for a positive `x`: one operation, rounded once. -/
def invMilli (x : F32) (e : Nat) : F32 :=
  if e = 0 then one
  else if e = 1000 then one.div x
  else if e = 2000 then mk' 1 (x.man.natAbs * x.man.natAbs) (-(2 * x.ex))
  else pow x (ofRat (-e) 1000)

/-- `10^(g/2000)` of a level in 0.01 dB: 0 for mute (-32768). -/
def level (g : Int) : F32 :=
  if g = -32768 then zero
  else if g = 0 then one
  else
    let r := fxExp (rndDiv (fxLn10 * g) 2000)
    ofFx 5 r.1 r.2

end Sys2Proof.F32
end

