-- ==== Sys2Proof/Machine/Shell.lean ====
section
/-!
DEFINITION. What every command packet goes through (Command Protocol and Ports): the checks of R581 in order, the tags of
R583, the nonces of R584, the roles of R585, the targets of R441, the journal of R612, and the reply of R579. A
command's own chapter gives the body, which answers with a `CmdRes`.
-/

namespace Sys2Proof

open Machine

/-! ### Packets -/

def Packet.auth (p : Packet) : Bool := p.flags.testBit 0
def Packet.role (p : Packet) : Nat := bitsN p.flags 2 1

/-- Header and parameters, the bytes the tag covers (R583). -/
def Packet.covered (p : Packet) (opcode : Nat) : List Byte :=
  by2 opcode ++ by2 p.seq ++ by2 p.plen ++ by1 p.flags ++ by1 p.target ++ by8 p.nonce ++ p.params

/-- The packet as it is written to a port (R578). -/
def Packet.raw (p : Packet) (opcode : Nat) : List Byte := p.covered opcode ++ p.tag

/-- The packet with an op byte of its parameters forced to the value its row stands for. -/
def Packet.withOp (p : Packet) (off v : Nat) : Packet := { p with params := setNth p.params off (BitVec.ofNat 8 v) }

/-- Most parameter bytes a port takes (R570). -/
def portMax (port : Nat) : Nat := if port = 2 then 256 else 8200

/-- Framing of R578 and the port limit of R570. -/
def Packet.framed (p : Packet) : Bool :=
  p.plen == p.params.length && p.tag.length == (if p.auth then 16 else 0) && decide (p.params.length ≤ portMax p.port)

end Sys2Proof

namespace Sys2Proof.Machine

/-! ### Status codes (R580) -/

def stOK : Nat := 0x0000
def stBUSY : Nat := 0x0001
def stBAD_OPCODE : Nat := 0x0002
def stBAD_PARAM : Nat := 0x0003
def stBAD_LENGTH : Nat := 0x0004
def stNOT_IN_MODE : Nat := 0x0005
def stAUTH_FAIL : Nat := 0x0006
def stNO_RESOURCE : Nat := 0x0007
def stTIMEOUT : Nat := 0x0008
def stHW_FAULT : Nat := 0x0009
def stSTALE : Nat := 0x000A
def stPEER_UNAVAILABLE : Nat := 0x000B
def stVERIFY_FAIL : Nat := 0x000C
def stREFUSED_BUSY : Nat := 0x000D
def stQFULL : Nat := 0x000E

/-- What the tables of commands give each command. -/
structure CmdSpec where
  opcode : Nat
  /-- Least role that may issue it: 0 ADMIN, 1 OPERATOR, 2 MONITOR. -/
  role : Nat
  /-- Its default target is the pair (R441, R683). -/
  pair : Bool
  /-- Parameter bytes: least and greatest. -/
  lo : Nat
  hi : Nat
  /-- Modes in which it is accepted. -/
  modes : List Nat
  /-- Recorded in the scene journal at its commit (R612). -/
  journ : Bool
  /-- Changes state that both units of a pair hold, so it enters the command log (R441). -/
  logs : Bool
  /-- It takes target 0 alone. -/
  ownOnly : Bool

/-- What a command's body answers. -/
inductive CmdRes where
  /-- Done: the new state and the result bytes. -/
  | ok (s : State) (res : List Byte)
  /-- Refused by the command's own checks, with the state as the refusal leaves it. -/
  | fail (s : State) (status : Nat) (res : List Byte)
  /-- Accepted as a long operation (R586). -/
  | long (s : State) (args : List Nat)
  /-- Accepted; the reply comes with a later event. -/
  | hold (s : State) (kind arg : Nat)
  /-- Done, the reply included: what follows the reply has been applied too. -/
  | done (s : State)

/-- Modes in which firmware runs commands: all but HALT, BOOT and SAFE (R598). -/
def fwModes : List Nat := [mLOAD, mIDLE, mRENDER, mSTANDBY, mRESYNC, mMEASURE, mSERVICE, mUPDATE, mFAULT]

/-- A command's row of its chapter's table. -/
def cmdRow (opcode role : Nat) (pair : Bool) (lo hi : Nat) (modes : List Nat) (journ : Bool) : CmdSpec :=
  ⟨opcode, role, pair, lo, hi, modes, journ, journ, false⟩

/-- Modes IDLE and SERVICE. -/
def idleModes : List Nat := [mIDLE, mSERVICE]

/-! ### The pair and the Tether -/

def State.paired (s : State) : Bool := s.sys.straps.pairEn
def State.holds (s : State) : Bool := !s.paired || s.flag Reg.TTH_STAT Fl.TTH_STAT_HOLDS
def State.linkUp (s : State) : Bool := s.flag Reg.TTH_STAT Fl.TTH_STAT_LINK_UP

/-! Pair states of R430. -/

def psSOLO : Nat := 0
def psWAIT : Nat := 1
def psACTIVE : Nat := 2
def psSTANDBY : Nat := 3
def psUNSYNC : Nat := 4
def psRESYNC : Nat := 5
def psFENCED : Nat := 6

def State.pstate (s : State) : Nat := s.fld Reg.TTH_STAT Fl.TTH_STAT_PSTATE

/-- Tether frame type of a command-log entry, of a forwarded command and of the rest (R423). -/
def tfMIRROR : Nat := 1
def tfSCHED : Nat := 2
def tfCMDLOG : Nat := 3
def tfSNAP : Nat := 4
def tfDIGEST : Nat := 5
def tfCONTROL : Nat := 6
def tfFORWARD : Nat := 7

/-- Bytes of a frame with its header, padding and CRC (R422). -/
def frameLen (b : List Byte) : Nat := 20 + ceilDiv b.length 8 * 8

/-- The newest frames that fit in the retransmission buffer (R424). -/
def keepTx : Nat → List TFrame → List TFrame
  | _, [] => []
  | n, f :: fs => if frameLen f.body ≤ n then f :: keepTx (n - frameLen f.body) fs else []

/-- Send a Tether frame, where the link is up (R422). -/
def State.tether (s : State) (kind : Nat) (body : List Byte) : State :=
  if s.linkUp then
    let f : TFrame := ⟨kind, 0, s.pair.txSeq, (s.pair.rxSeq + 2 ^ 32 - 1) % 2 ^ 32, s.pstate, s.mode, body⟩
    { s with pair.tx := keepTx (2 ^ 20) (f :: s.pair.tx), pair.txSeq := (s.pair.txSeq + 1) % 2 ^ 32 }
  else s

/-! ### Replies -/

/-- Key of a role, where one is set. -/
def State.key (s : State) (role : Nat) : Option (List Byte) := if role < 3 then Tab.look s.cmd.keys role else none

/-- Ports beyond those of R570: a command that the peer forwards, judged where it arrived (R441), and one that the command log
brings, whose reply the active sends (R443). -/
def portPeer : Nat := 3
def portLog : Nat := 4

/-- Whether authentication is mandatory on a port (R582). -/
def State.authNeeded (s : State) (port : Nat) : Bool :=
  match port with
  | 0 => s.otp.authHsp
  | 1 => true
  | 2 => s.otp.authTwi
  | _ => false

/-- Step 2 of R581. -/
def State.authOk (s : State) (p : Packet) (opcode : Nat) : Bool :=
  if p.port = portPeer then true
  else if p.auth then
    match s.key p.role with
    | none => false
    | some k => p.tag == (hmacSha256 k (p.covered opcode)).take 16
  else !s.authNeeded p.port && s.fld Reg.CMD_CFG Fl.CMD_CFG_NOAUTH_ROLE != 3

/-- The role a packet runs with (R582). -/
def State.effRole (s : State) (p : Packet) : Nat :=
  if p.port = portPeer then 0
  else if p.auth then p.role else s.fld Reg.CMD_CFG Fl.CMD_CFG_NOAUTH_ROLE

/-- A reply less its tag (R579). -/
def replyHead (opcode seq status : Nat) (res : List Byte) : List Byte :=
  by2 opcode ++ by2 seq ++ by2 status ++ by2 res.length ++ res

/-- The reply with its tag: none for a packet without one; 16 zero bytes after a failure at step 2; else the keyed tag
of R583. A framing failure under a role with no key has no tag the spec gives: 16 free bytes. -/
def State.replyBytes (s : State) (p : Packet) (opcode status : Nat) (res : List Byte) (zeroTag : Bool) :
    State × List Byte :=
  let h := replyHead opcode p.seq status res
  if !p.auth then (s, h)
  else if zeroTag then (s, h ++ List.replicate 16 0#8)
  else
    match s.key p.role with
    | some k => (s, h ++ (hmacSha256 k (h ++ by8 p.nonce)).take 16)
    | none =>
      let (v, s) := s.fresh
      (s, h ++ leBytes 16 v)

/-- Whether a port's replies are suppressed now (R582). -/
def State.muted (s : State) (port : Nat) : Bool :=
  match Tab.look s.cmd.muted port with
  | some e => decide (s.now < e)
  | none => false

/-- Index of the last-accepted table (R584). -/
def lastIdx (port role : Nat) : Nat := 4 * port + role

/-- Put reply bytes on a port (R441, R571, R574, R575). -/
def State.send (s : State) (port : Nat) (src : NetSrc) (bs : List Byte) : State :=
  match port with
  | 0 => { s with cmd.hspReply := some bs }
  | 1 => { s with cmd.netOut := s.cmd.netOut ++ [⟨src, bs⟩] }
  | 2 => { s with cmd.twiReply := some bs }
  | 3 => s.tether tfFORWARD bs
  | _ => s

/-- Put reply bytes on a port unless its replies are suppressed. -/
def State.emit (s : State) (port : Nat) (src : NetSrc) (bs : List Byte) : State :=
  if s.muted port then s else s.send port src bs

/-- Keep the reply for retransmissions (R584). -/
def State.keepReply (s : State) (p : Packet) (opcode : Nat) (bs : List Byte) : State :=
  if p.auth then
    match Tab.look s.cmd.last (lastIdx p.port p.role) with
    | some l =>
      if l.nonce = p.nonce ∧ l.opcode = opcode ∧ l.seq = p.seq then
        { s with cmd.last := Tab.put s.cmd.last (lastIdx p.port p.role) { l with reply := some bs } }
      else s
    | none => s
  else s

/-- Count an `AUTH_FAIL` reply, and suppress the port's replies after 16 within 1 s (R582). -/
def State.authFailed (s : State) (p : Packet) : State :=
  let s := s.bump Reg.CMD_AUTH_FAIL
  if s.muted p.port then s
  else
    let ts := s.now :: (Tab.at s.cmd.fails [] p.port).filter (fun t => decide (s.now < t + 1000000000))
    if 16 ≤ ts.length then
      { s with cmd.fails := Tab.del s.cmd.fails p.port, cmd.muted := Tab.put s.cmd.muted p.port (s.now + 1000000000) }
    else { s with cmd.fails := Tab.put s.cmd.fails p.port ts }

/-- Build, keep and send a reply. -/
def State.reply (s : State) (p : Packet) (opcode status : Nat) (res : List Byte) : State :=
  let (s, bs) := s.replyBytes p opcode status res false
  (s.keepReply p opcode bs).emit p.port p.src bs

/-- Reply to a packet that failed at step 2 (R583): the tag is 16 zero bytes. -/
def State.replyNoTag (s : State) (p : Packet) (opcode status : Nat) (res : List Byte) : State :=
  let (s, bs) := s.replyBytes p opcode status res true
  -- the reply that reaches the limit of R582 is still sent: the silence follows it
  s.send p.port p.src bs

/-- Refuse authentication. -/
def State.refuseAuth (s : State) (p : Packet) (opcode : Nat) (res : List Byte) (step2 : Bool) : State :=
  let quiet := s.muted p.port
  let s := if step2 then s.irq Reg.CMD_IRQ_STAT Fl.CMD_IRQ_STAT_AUTH_FAIL else s
  let s := s.authFailed p
  if quiet then s
  else if step2 then s.replyNoTag p opcode stAUTH_FAIL res
  else
    let (s, bs) := s.replyBytes p opcode stAUTH_FAIL res false
    (s.keepReply p opcode bs).send p.port p.src bs

/-! ### Targets (R441) -/

/-- The target after the default is put in (R441, R683). -/
def effTarget (sp : CmdSpec) (p : Packet) : Nat :=
  let t := if p.target = 0xFF then (if sp.pair then 2 else 0) else p.target
  -- a forwarded command has reached the peer it named
  if p.port = portPeer ∧ t = 1 then 0 else t

/-- Whether the peer, as last reported, is a standby that applies the command log. -/
def State.peerStandby (s : State) : Bool :=
  s.paired && s.linkUp && s.fld Reg.TTH_PEER_INFO Fl.TTH_PEER_INFO_PSTATE == psSTANDBY

/-- Whether accepted commands go to the peer's command log: a standby's, or a unit's that resyncs and so is to hold the same state
(R434, R441). -/
def State.peerLogs (s : State) : Bool :=
  s.paired && s.linkUp && (s.fld Reg.TTH_PEER_INFO Fl.TTH_PEER_INFO_PSTATE == psSTANDBY ||
    s.fld Reg.TTH_PEER_INFO Fl.TTH_PEER_INFO_PSTATE == psRESYNC)

/-- Whether a command of this row, sent by this packet, is one to log. -/
def logged (sp : CmdSpec) (p : Packet) : Bool := effTarget sp p == 2 && sp.logs

/-- Where a packet runs: here, at the peer, or nowhere (status). -/
inductive Where where
  | here
  | peer
  | refuse (status : Nat)

def State.route (s : State) (sp : CmdSpec) (p : Packet) : Where :=
  match (if sp.ownOnly && effTarget sp p != 0 then 3 else effTarget sp p) with
  | 0 => .here
  | 1 => if s.paired && s.linkUp then .peer else .refuse stPEER_UNAVAILABLE
  | 2 => if s.holds then .here else if s.linkUp then .peer else .refuse stPEER_UNAVAILABLE
  | _ => .refuse stBAD_PARAM

/-! ### The responders (R577, R608) -/

/-- Opcodes the SAFE-domain responder executes: the four of R577, and `RTC_SET` as R643 says of it. -/
def safeOps : List Nat := [0x0001, 0x0002, 0x0A08, 0x0A09, 0x0105]

/-- Opcodes the recovery responder executes. -/
def recoveryOps : List Nat := [0x0001, 0x0E20, 0x0E21]

/-- Whether the boot ROM's recovery responder answers (R608). -/
def State.recovery (s : State) : Bool :=
  (s.mode == mBOOT && s.sys.firm.waitHsp) ||
    (s.mode == mFAULT && s.fld Reg.SYS_MODE Fl.SYS_MODE_PREV == mBOOT)

/-- Whether the control domain is ON, or draining and still ON (R634, R640). -/
def State.ctrlOn (s : State) : Bool :=
  let v := s.fld (Reg.PWR_DOM_STAT 2) Fl.PWR_DOM_STAT_STATE
  v == 2 || v == 4

/-- Whether a port answers at all (R576, R577, R598, R634); HSP's slave lies in the STRM domain (R624). -/
def State.answers (s : State) (port : Nat) : Bool :=
  if s.mode = mHALT then false
  else if s.mode = mSAFE then port == 2
  else if s.cmd.ctrlDown || !s.ctrlOn then false
  else if port == 0 && s.fld (Reg.PWR_DOM_STAT 6) Fl.PWR_DOM_STAT_STATE != 2 then false
  else if s.mode = mBOOT then s.sys.firm.waitHsp && (port == 0 || port == 2)
  else if s.recovery then port == 0 || port == 2
  else true

/-- Step 9 of R581. -/
def State.modeOk (s : State) (sp : CmdSpec) : Bool :=
  if s.mode = mSAFE then safeOps.contains sp.opcode
  else if s.recovery then recoveryOps.contains sp.opcode
  else sp.modes.contains s.mode

/-! ### The checks of R581 -/

/-- The verdict on a packet. -/
inductive Verdict where
  /-- Steps 2 or 7 failed: refuse authentication. -/
  | authFail (step2 : Bool)
  | refuse (status : Nat)
  /-- A retransmission (R584). -/
  | replay (held : Option (List Byte))
  | busy
  | forward
  | run

/-- The nonce check (R584). -/
def State.nonceCheck (s : State) (p : Packet) (opcode : Nat) : Option Verdict :=
  if !p.auth || opcode == 0x0032 || p.port == portPeer then none
  else if Tab.at s.cmd.nonces 0 p.role < p.nonce then none
  else
    match Tab.look s.cmd.last (lastIdx p.port p.role) with
    | some l =>
      if l.nonce = p.nonce ∧ l.opcode = opcode ∧ l.seq = p.seq then some (.replay l.reply)
      else some (.refuse stSTALE)
    | none => some (.refuse stSTALE)

/-- Checks 4 to 9 of R581; the opcode is always assigned, since a row of the table named it. -/
def State.lateChecks (s : State) (sp : CmdSpec) (p : Packet) : Verdict :=
  if s.cmd.longOp.isSome || s.cmd.peerBusy.isSome then .busy
  else if bitsN p.flags 7 3 ≠ 0 then .refuse stBAD_PARAM
  else
    match s.route sp p with
    | .refuse st => .refuse st
    | w =>
      if sp.role < s.effRole p then .authFail false
      else
        match w with
        | .peer => .forward
        | _ =>
          if p.params.length < sp.lo ∨ sp.hi < p.params.length then .refuse stBAD_LENGTH
          else if s.modeOk sp then .run
          else .refuse stNOT_IN_MODE

/-- The first check that fails (R581). -/
def State.check (s : State) (sp : CmdSpec) (p : Packet) : Verdict :=
  if !p.framed then .refuse stBAD_LENGTH
  else if !s.authOk p sp.opcode then .authFail true
  else
    match s.nonceCheck p sp.opcode with
    | some v => v
    | none => s.lateChecks sp p

/-- Accept the nonce of an authenticated packet and remember the packet (R584). -/
def State.acceptNonce (s : State) (p : Packet) (opcode : Nat) : State :=
  if p.auth && opcode != 0x0032 && p.port != portPeer && p.framed && s.authOk p opcode && (s.nonceCheck p opcode).isNone then
    { s with
      cmd.nonces := Tab.put s.cmd.nonces p.role p.nonce
      cmd.last := Tab.put s.cmd.last (lastIdx p.port p.role) ⟨p.nonce, opcode, p.seq, none⟩ }
  else s

/-- Append a record to the scene journal (R612). -/
def State.record (s : State) (opcode : Nat) (params hash : List Byte) : State :=
  { s with jnl.recs := s.jnl.recs ++ [⟨opcode, s.slot % 2 ^ 32, params, hash, true⟩] }

/-- Log an accepted command to the standby, in the CMDLOG layout of R423 (R441). -/
def State.logToStandby (s : State) (p : Packet) (opcode : Nat) : State :=
  let s := s.tether tfCMDLOG (by4 s.pair.logSeq ++ by4 s.slot ++ by2 stOK ++ by2 opcode ++ by1 p.port ++
    leBytes 3 0 ++ p.raw opcode)
  { s with pair.logSeq := (s.pair.logSeq + 1) % 2 ^ 32 }

/-- After a command's body succeeded: journal, command log, reply or wait for the standby (R441, R612). -/
def State.finishOk (s : State) (sp : CmdSpec) (p : Packet) (res : List Byte) : State :=
  let s := if sp.journ then s.record sp.opcode p.params [] else s
  let s := if logged sp p && s.peerLogs then s.logToStandby p sp.opcode else s
  if logged sp p && s.peerStandby then
    { s with cmd.held := some ⟨sp.opcode, p, 0, (s.pair.txSeq + 2 ^ 32 - 1) % 2 ^ 32, stOK, res, false⟩ }
  else s.reply p sp.opcode stOK res

/-- Run a body and send what it answers. -/
def State.runBody (s : State) (sp : CmdSpec) (p : Packet) (body : State → CmdRes) : State :=
  match body (s.bump Reg.CMD_RX) with
  | .ok s res => s.finishOk sp p res
  | .fail s st res => s.reply p sp.opcode st res
  | .long s args =>
    let s := if logged sp p && s.peerLogs then s.logToStandby p sp.opcode else s
    { s with cmd.longOp := some ⟨sp.opcode, p, p.time, args, sp.journ⟩ }
  | .hold s kind arg => { s with cmd.held := some ⟨sp.opcode, p, kind, arg, stOK, [], sp.journ⟩ }
  | .done s => s

/-- A long operation completes (R587): journal, `DONE`, reply. -/
def State.finishLong (s : State) (status : Nat) (res hash : List Byte) : State :=
  match s.cmd.longOp with
  | some o =>
    let s := { s with cmd.longOp := none, cmd.done := true }
    let s := s.irq Reg.CMD_IRQ_STAT Fl.CMD_IRQ_STAT_DONE
    let s := if o.journ && status == stOK then s.record o.opcode o.pkt.params hash else s
    s.reply o.pkt o.opcode status res
  | none => s

/-- The held command of a kind gets its reply (R438, R441, R563, R635). -/
def State.finishHeld (s : State) (kind status : Nat) (res : List Byte) : State :=
  match s.cmd.held with
  | some h =>
    if h.kind = kind then
      let s := if h.journ && status == stOK then s.record h.opcode h.pkt.params [] else s
      { s with cmd.held := none }.reply h.pkt h.opcode status res
    else s
  | none => s

/-- The `BUSY` result (R586). Progress is not fixed by the spec: a free byte. -/
def State.busyReply (s : State) (p : Packet) (opcode : Nat) : State :=
  let s := s.bump Reg.CMD_BUSY
  match s.cmd.longOp with
  | some o =>
    let (v, s) := s.fresh
    s.reply p opcode stBUSY (by2 o.opcode ++ by1 v ++ by1 o.pkt.port)
  | none =>
    match s.cmd.peerBusy with
    | some (op, pr, port) => s.reply p opcode stBUSY (by2 op ++ by1 pr ++ by1 (port + 0x80))
    | none => s.reply p opcode stBUSY []

/-- Act on a verdict. -/
def State.settle (s : State) (v : Verdict) (sp : CmdSpec) (p : Packet) (body : State → CmdRes) : State :=
  match v with
  | .authFail true => s.refuseAuth p sp.opcode [] true
  | .authFail false => s.refuseAuth p sp.opcode [0x01#8] false
  | .refuse st =>
    let s := if st = stSTALE then s.bump Reg.CMD_STALE else s
    s.reply p sp.opcode st []
  | .replay (some bs) => (s.bump Reg.CMD_REPLAY).emit p.port p.src bs
  | .replay none => s.bump Reg.CMD_REPLAY
  | .busy => s.busyReply p sp.opcode
  | .forward =>
    { s.tether tfFORWARD (p.raw sp.opcode) with cmd.held := some ⟨sp.opcode, p, 4, 0, stOK, [], false⟩ }
  | .run => (if s.mode = mSAFE then s.logEventFree 0x1783 sp.opcode else s).runBody sp p body

/-- Check a packet and act on the verdict. -/
def State.process (s : State) (sp : CmdSpec) (p : Packet) (body : State → CmdRes) : State :=
  (s.acceptNonce p sp.opcode).settle (s.check sp p) sp p body

/-- Whether the interpreter can start a packet of a port now: no command waits for its reply, and on HSP the last
reply has been read (R573, R586). -/
def State.canStart (s : State) (port : Nat) : Bool :=
  s.cmd.held.isNone && (port != 0 || s.cmd.hspReply.isNone)

/-- Keep a packet in its port's buffer, or drop it where the buffer is full (R573, R574, R575). -/
def State.buffer (s : State) (port : Nat) (r : RawPkt) : State :=
  match port with
  | 0 =>
    if 2 ≤ s.cmd.hspRx.length then s.bump Reg.CMD_HSP_OVR else { s with cmd.hspRx := s.cmd.hspRx ++ [r] }
  | 1 =>
    if 8 ≤ s.cmd.netRx.length then s.bump Reg.CMD_NET_DROP else { s with cmd.netRx := s.cmd.netRx ++ [r] }
  | 2 => if s.cmd.twiRx.isSome then s else { s with cmd.twiRx := some r }
  | _ => { s with cmd.peerRx := s.cmd.peerRx ++ [r] }

/-- A command packet arrives whole on its port and runs, or waits, or meets no one who answers. -/
def runPacket (sp : CmdSpec) (p : Packet) (body : State → CmdRes) (s : State) : Out :=
  let s := s.atTime p.time
  if !s.answers p.port then .next s
  else
    let s := s.irq Reg.CMD_IRQ_STAT Fl.CMD_IRQ_STAT_RX
    if s.canStart p.port then .next (s.process sp p body)
    else .next (s.buffer p.port ⟨p.src, p.raw sp.opcode, p.time⟩)

end Sys2Proof.Machine
end

