-- ==== Sys2Proof/Machine/Resets.lean ====
section
/-!
DEFINITION. What a domain reset or the loss of a domain's power does to the state (R604, R624, R625): registers return to
their reset values but for RWS bits (R9), the logic starts anew, and SRAM contents are lost.
-/

namespace Sys2Proof.Machine

/-- The domain of a register: its block's, but the bypass registers and the words of ports 14 and 15 lie in SAFE
(R304, R333), and the rein's CAUSE in AON with the rein logic. -/
def regDomain (a : Nat) : Nat :=
  if 0x40E0C000 ≤ a ∧ a < 0x40E0D000 then dSAFE
  else if Reg.TDM_CFG 14 ≤ a ∧ a < Reg.TDM_CFG 16 then dSAFE
  else if a = Reg.TTH_REIN_STAT ∨ a = Reg.TTH_STAT then dAON
  else blockDomain (blockIdx a)

/-- Bits of a register kept through warm, domain and unit resets: RWS (R9), all words of ports 14 and 15 (R333), and the
GPIO registers (R619). -/
def keptMask (a : Nat) : Nat :=
  if (Reg.TDM_CFG 14 ≤ a ∧ a < Reg.TDM_CFG 16) ∨ blockIdx a = 25 then 0xFFFFFFFF
  else
    match regRow a with
    | some (r, _, _) => r.rws
    | none => 0

/-- Reset the registers that satisfy a test. -/
def State.resetRegs (s : State) (p : Nat → Bool) : State :=
  s.regs.foldl
    (fun t e => if p e.1 then t.wr e.1 (merge (regReset s.otp.grade e.1).toNat (keptMask e.1) e.2.toNat) else t) s

/-- The domain of a memory address of R12, where the region is a memory. -/
def memDomain (a : Nat) : Option Nat :=
  if 0x1000000 ≤ a ∧ a < 0x1200000 then some dCTRL
  else if 0x10000000 ≤ a ∧ a < 0x10800000 then some dFAB0
  else if 0x10800000 ≤ a ∧ a < 0x11200000 then some dCONV
  else if 0x11200000 ≤ a ∧ a < 0x11800000 then some dFAB0
  else if 0x11800000 ≤ a ∧ a < 0x11900000 then some dFXCA
  else if 0x11900000 ≤ a ∧ a < 0x11A00000 then some dFXCB
  else if 0x80000000 ≤ a ∧ a < 0x82000000 then some dMRAM
  else if 0x90000000 ≤ a ∧ a < 0xA0000000 then some dCTRL
  else if dramBase ≤ a ∧ a < dramBase + 0x1C0000000 then some dDRAM
  else none

/-- Whether a memory keeps its contents without power: MRAM and flash. -/
def nonVolatile (a : Nat) : Bool := decide (0x80000000 ≤ a) && decide (a < 0xA0000000)

/-- Lose the contents of the volatile memories that satisfy a test; a byte that has lost its contents reads as one that
nothing has written. -/
def State.loseMem (s : State) (p : Nat → Bool) : State :=
  { s with
    mem := s.mem.filter (fun c => nonVolatile c.1 || !p c.1)
    poison := s.poison.filter (fun a => nonVolatile a || !p a) }

/-! ### The Spine at a reset (R522, R524) -/

/-- Push an entry into the Spine error log (R523). -/
def State.spnLog (s : State) (e : SpnErr) : State :=
  if 16 ≤ s.spn.log.length then
    (s.setFlag Reg.SPN_ERR_STAT Fl.SPN_ERR_STAT_OVF true).irq Reg.SPN_IRQ_STAT Fl.SPN_IRQ_STAT_LOG_OVF
  else { s with spn.log := s.spn.log ++ [e] }

/-- The Spine answers a request with an error (R521). -/
def State.decErr (s : State) (e : SpnErr) : State :=
  ((s.bump Reg.SPN_DECERR).irq Reg.SPN_IRQ_STAT Fl.SPN_IRQ_STAT_DECERR).spnLog e

/-- The outstanding transactions of some targets end with cause 5 (R521, R522), in ascending master ID (R523): a read with
zero data, a write with its further beats dropped. -/
def State.abortTargets (s : State) (ts : List Nat) : State :=
  let hit := s.spn.txns.filter (fun x => ts.contains x.target)
  if hit.isEmpty then s
  else
    let s := { s with spn.txns := s.spn.txns.filter (fun x => !ts.contains x.target) }
    let ord := (List.range 32).flatMap (fun m => hit.filter (fun x => x.master == m))
    let s := ord.foldl
      (fun s x =>
        let s := (s.bump Reg.SPN_TGT_ABORT).decErr ⟨x.write, 5, x.target, x.master, x.addr⟩
        { s with spn.resp := some ⟨x.master, true, if x.write then [] else List.replicate x.size 0#8⟩ }) s
    s.irq Reg.SPN_IRQ_STAT Fl.SPN_IRQ_STAT_TGT_RST

/-- Beats of a transaction of `size` bytes from `addr`. -/
def beatsOf (addr size : Nat) : Nat := (addr % 32 + size + 31) / 32

/-- A master is reset with transactions outstanding (R524): the port drains, and the beats its reads still bring are
discarded. What its writes have performed stays; the rest of them changes nothing. -/
def State.masterReset (s : State) (m : Nat) : State :=
  let mine := s.spn.txns.filter (fun x => x.master == m)
  if mine.isEmpty then s
  else
    let disc := (mine.map (fun x => if x.write then 0 else beatsOf (x.addr + x.doneBytes) (x.size - x.doneBytes))).sum
    (s.count Reg.SPN_RST_DISC disc).setFlag (Reg.SPN_MST_STAT m) Fl.SPN_MST_STAT_DRAIN true

/-- The targets whose only domain is `d`, and of T6 none, since two domains share it (R624). -/
def domainTargets (d : Nat) : List Nat :=
  (List.range 16).filter (fun t => targetDomains t == [d])

/-- A target of a transaction lies in a domain. T6 is shared: cores 0 to 3 lie in FXCA (R528). -/
def txnInDomain (x : SpnTxn) (d : Nat) : Bool :=
  if x.target = 6 then (if x.addr < 0x11900000 then d == dFXCA else d == dFXCB) else (targetDomains x.target).contains d

/-- The Spine at a domain's reset: its masters drain, and transactions at its targets end. -/
def State.spineReset (s : State) (d : Nat) : State :=
  let s := ((List.range 32).filter (fun m => masterDomain m == d)).foldl (fun s m => s.masterReset m) s
  let ts := if d = dFXCA ∨ d = dFXCB then [] else domainTargets d
  let s := s.abortTargets ts
  if s.spn.txns.any (fun x => x.target == 6 && txnInDomain x d) then s.abortTargets [6] else s

/-- Keep the entries of a table whose key satisfies a test, and take the others from another table. -/
def Tab.takeIf {α : Type} (t u : Tab α) (p : Nat → Bool) : Tab α :=
  (u.filter (fun e => p e.1)).foldl (fun t e => Tab.put t e.1 e.2) (t.filter (fun e => !p e.1))

/-- MAC `m`'s part of the MAC state, taken from another state. -/
def MacSt.takeMac (s t : MacSt) (m : Nat) : MacSt :=
  let b32 (k : Nat) : Bool := k / 32 == m
  let b8 (k : Nat) : Bool := k / 8 == m
  { rxq := Tab.takeIf s.rxq t.rxq b32, txq := Tab.takeIf s.txq t.txq b8, sending := Tab.takeIf s.sending t.sending (· == m),
    backoff := s.backoff.filter (· != m), pause := Tab.takeIf s.pause t.pause (· == m), txts := Tab.takeIf s.txts t.txts (· == m),
    staged := Tab.takeIf s.staged t.staged b32, prior := Tab.takeIf s.prior t.prior (· == m), stats := Tab.takeIf s.stats t.stats b32, wire := Tab.takeIf s.wire t.wire (· == m) }

/-- The mixer's part that lies in OUTMIX; the bypass lies in SAFE (R304). -/
def MixSt.takeMix (s t : MixSt) : MixSt :=
  { t with act := s.act, bypFrame := s.bypFrame, bypAt := s.bypAt, ann := s.ann, duck := s.duck, duckRec := s.duckRec }

/-- The command ports' part that lies in CTRL; keys, nonces and the newest events lie in MRAM. -/
def CmdSt.takeCmd (s t : CmdSt) : CmdSt :=
  { s with last := t.last, hspRx := t.hspRx, hspReply := t.hspReply, netRx := t.netRx, twiRx := t.twiRx, twiReply := t.twiReply, peerRx := t.peerRx, 
           longOp := t.longOp, held := t.held, done := t.done, fails := t.fails, muted := t.muted }

/-- The controller's part; the retirements and their journal are not logic. -/
def DmcSt.takeDmc (s t : DmcSt) : DmcSt := { t with retired := s.retired, journal := s.journal, reserved := s.reserved }

/-- What a domain's owners have reserved is free when they start anew (R159, R231, R365, R459). -/
def State.dropReserved (s : State) (d : Nat) : State :=
  let mine (k : Nat) : Bool :=
    match d with
    | 6 => decide (k < ownConv 0) || (decide (ownRing 0 ≤ k) && decide (k < ownWindow 0))
    | 10 => decide (ownLong 0 ≤ k) && decide (k < ownRing 0)
    | 11 => decide (ownConv 0 ≤ k) && decide (k < ownRing 0)
    | 14 => decide (ownWindow 0 ≤ k)
    | _ => false
  { s with dmc.reserved := s.dmc.reserved.filter (fun e => !mine e.1) }

/-- The parts of State that lie in a domain, taken from another state. -/
def State.takeLogic (s t : State) (d : Nat) : State :=
  match d with
  | 2 => { s with cmd := s.cmd.takeCmd t.cmd }
  | 3 => { s with mac := s.mac.takeMac t.mac 0 }
  | 4 => { s with mac := s.mac.takeMac t.mac 1 }
  | 5 => { s with mac := s.mac.takeMac t.mac 2 }
  | 6 => { s with strm := t.strm, oms := t.oms, plan.quotas := t.plan.quotas }
  | 7 => { s with plan.layout := t.plan.layout, plan.spkOver := t.plan.spkOver }
  | 8 => { s with fab := t.fab, dp.ing := t.dp.ing }
  | 10 => { s with conv := t.conv }
  | 11 =>
    { s with out := { t.out with judged := s.out.judged, missRun := s.out.missRun }, mix := s.mix.takeMix t.mix,
             plan.eq := t.plan.eq, plan.mixG := t.plan.mixG }
  | 12 => { s with tdm.ports := Tab.takeIf s.tdm.ports t.tdm.ports (fun q => decide (q < 14)) }
  | 13 => { s with meas := t.meas }
  | 14 => { s with fx := t.fx }
  | 15 => { s with fx.cores := Tab.takeIf s.fx.cores t.fx.cores (fun c => decide (4 ≤ c)) }
  | 16 => { s with dmc := s.dmc.takeDmc t.dmc }
  | _ => s

/-- A copy ends without having completed (R503): cause 1 error answer, 2 poisoned data, 3 channel reset. -/
def State.dmaFail (s : State) (c cause : Nat) : State :=
  let s := (s.setFlag (Reg.STBL_DMA_STAT c) Fl.STBL_DMA_STAT_BUSY false).setFld (Reg.STBL_DMA_STAT c) Fl.STBL_DMA_STAT_CAUSE cause
  { s.irq Reg.STBL_IRQ_STAT Fl.STBL_IRQ_STAT_DMA_ERR with stbl.dma := Tab.del s.stbl.dma c }

/-- The tickets that a domain's engines hold or run are dropped. -/
def State.dropDomain (s : State) (d : Nat) : State :=
  let mine (e : Nat × Placed) : Bool := engineDomain e.1 == d
  let s := { s with
    stbl.running := s.stbl.running.filter (fun e => !mine e)
    stbl.stall0 := s.stbl.stall0.filter (fun e => !mine e)
    stbl.stall1 := s.stbl.stall1.filter (fun e => !mine e) }
  if d = dCTRL then (s.stbl.dma.map (·.1)).foldl (fun s c => s.dmaFail c 3) s else s

/-- Start the logic of a domain anew. A Tether without its lanes is down. -/
def State.resetLogic (s : State) (d : Nat) : State :=
  let s := ((s.takeLogic State.reset d).dropReserved d).dropDomain d
  if d = dTTH then
    let s := (s.setFlag Reg.TTH_STAT Fl.TTH_STAT_LINK_UP false).setFlag Reg.TTH_STAT Fl.TTH_STAT_LANE_DEG false
    { s with pair.tx := [], pair.txSeq := 0, pair.rxSeq := 0, pair.nak := false }
  else s

/-- A domain reset (R604): logic and SRAM contents of one power domain. DRAM is no SRAM and keeps its contents. -/
def State.resetDomain (s : State) (d : Nat) : State :=
  let s := s.spineReset d
  let s := s.resetRegs (fun a => regDomain a == d)
  let s := s.loseMem (fun a => memDomain a == some d && d != dDRAM)
  s.resetLogic d

/-- A domain loses its power (R625): SRAM lost, registers at reset values; the DRAM dies lose their contents too. -/
def State.powerOff (s : State) (d : Nat) : State :=
  let s := s.resetDomain d
  let s := if d = dDRAM then s.loseMem (fun a => memDomain a == some dDRAM) else s
  s.setDom d pOFF

end Sys2Proof.Machine
end

