-- ==== Sys2Proof/Machine/Modes.lean ====
section
/-!
DEFINITION. Changing mode (R599, R600), self-fencing (R418), ending a long operation (R588), and entry to SAFE and FAULT
(R601, R602).
-/

namespace Sys2Proof.Machine

/-- The unit is eligible to claim the rein (R430): of the modes of `WAIT`, IDLE and an auto-resumed RENDER. -/
def State.mayHold (s : State) : Bool :=
  (s.pstate == psWAIT && (s.mode == mIDLE || s.mode == mRENDER)) || s.pstate == psSTANDBY || s.pstate == psUNSYNC ||
    s.pstate == psRESYNC

/-- Keep the time since which the unit has been eligible (R416). -/
def State.noteElig (s : State) : State :=
  { s with pair.eligAt := if s.mayHold then some (s.pair.eligAt.getD s.now) else none }

/-- Firmware that reaches IDLE or RENDER clears the boot tries of the slot it came from (R610). -/
def State.clearTries (s : State) : State :=
  if s.flag Reg.SYS_BOOT_STAT Fl.SYS_BOOT_STAT_HSP_BOOT then s
  else if s.sys.firm.slot = 0 then { s with sys.firm.triesA := 0 }
  else { s with sys.firm.triesB := 0 }

/-- A transition completes: `SYS_MODE` changes in that cycle (R600). -/
def State.setMode (s : State) (m : Nat) : State :=
  if s.mode = m then s.setFlag Reg.SYS_MODE Fl.SYS_MODE_TRANSIT false
  else
    let old := s.mode
    let s := s.setFld Reg.SYS_MODE Fl.SYS_MODE_PREV old
    let s := s.setFld Reg.SYS_MODE Fl.SYS_MODE_MODE m
    let s := s.setFlag Reg.SYS_MODE Fl.SYS_MODE_TRANSIT false
    let s := s.irq Reg.SYS_IRQ_STAT Fl.SYS_IRQ_STAT_MODE
    -- a DCO word still moving is reached at once outside the render modes (R397); RENDER disarms a relock (R406)
    let s := if [mRENDER, mSTANDBY, mRESYNC, mMEASURE].contains m then s else { s with clk.slewFrom := s.clk.word }
    let s := if m = mRENDER then s.setFlag Reg.PTP_STAT Fl.PTP_STAT_RELOCK_ARMED false else s
    -- modes without a data plane stop it at once
    let s := if [mHALT, mBOOT, mLOAD, mUPDATE, mSAFE, mFAULT].contains m then { s with dp.on := false } else s
    let s := if m = mIDLE ∨ m = mRENDER then s.clearTries else s
    { s with sys.modeAt := none, sys.refWait := false }.noteElig

def State.setPstate (s : State) (v : Nat) : State := (s.setFld Reg.TTH_STAT Fl.TTH_STAT_PSTATE v).noteElig

/-- Release the gated outputs and the rein (R418). -/
def State.dropRein (s : State) : State :=
  let s := s.setFlag Reg.TTH_STAT Fl.TTH_STAT_HOLDS false
  s.setFlag Reg.TTH_STAT Fl.TTH_STAT_DRIVING false

/-- The peer is ready (R418), as `TTH_STAT.PEER_READY` reports. -/
def State.peerReady (s : State) : Bool := s.flag Reg.TTH_STAT Fl.TTH_STAT_PEER_READY

/-- The fencing itself. -/
def State.doFence (s : State) (cause : Nat) : State :=
  let s := (s.dropRein).setPstate psFENCED
  let s := s.setFld Reg.TTH_REIN_STAT Fl.TTH_REIN_STAT_CAUSE cause
  (s.bump Reg.TTH_FENCE).irq Reg.TTH_IRQ_STAT Fl.TTH_IRQ_STAT_FENCE

/-- A fence cause arises (R418). Solo, the pair's rules do not apply (R412). A holder without a ready peer keeps the rein
for causes 3 to 5, logs the cause and counts the skip. -/
def State.selfFence (s : State) (cause : Nat) : State :=
  if !s.paired then s
  else if s.holds && decide (3 ≤ cause) && !s.peerReady then
    (s.bump Reg.TTH_FENCE_SKIP).logEventFree 0x1502 cause
  else s.doFence cause

/-- A long operation ends without a reply (R588). -/
def State.abandonLong (s : State) : State :=
  match s.cmd.longOp with
  | some o => { s.logEventFree 0x1780 o.opcode with cmd.longOp := none, meas.sweep := none }
  | none => s

/-- Every domain other than AON and SAFE goes OFF (R601, R626). -/
def State.allOff (s : State) : State :=
  (List.range 17).foldl (fun s k => s.powerOff (k + 2)) s

/-- Entry to SAFE with a cause of R601. `SAFE_N` and `AMP_EN` follow from the mode (see Pins). -/
def State.enterSafe (s : State) (cause : Nat) : State :=
  if s.mode = mHALT ∨ s.mode = mSAFE then s
  else
    let s := (s.abandonLong).selfFence 4
    let s := s.setMode mSAFE
    let s := s.setFld Reg.SYS_SAFE_STAT Fl.SYS_SAFE_STAT_CAUSE cause
    let s := s.logEvent (0x0090 + cause) 2 0
    s.allOff

/-- Entry to FAULT (R602). -/
def State.enterFault (s : State) : State :=
  if s.mode = mHALT ∨ s.mode = mSAFE ∨ s.mode = mFAULT then s
  else ((s.abandonLong).selfFence 4).setMode mFAULT

/-- The mode in which the data plane acts: on a standby and in resync the active's (R443). -/
def State.actMode (s : State) : Nat :=
  if s.mode = mSTANDBY ∨ s.mode = mRESYNC then s.fld Reg.TTH_PEER_INFO Fl.TTH_PEER_INFO_MODE else s.mode

/-- The data plane runs (R598). -/
def State.planeOn (s : State) : Bool := [mRENDER, mSTANDBY, mRESYNC, mMEASURE].contains s.mode

end Sys2Proof.Machine
end

