-- ==== Sys2Proof/Machine/Live.lean ====
section
/-!
DEFINITION. Registers whose value is a view of other state: what a read returns (without its side effects), for every
register of the map.
-/

namespace Sys2Proof.Machine

/-- Aliases are enabled in these modes (R544). -/
def State.aliasOn (s : State) : Bool := [mBOOT, mLOAD, mSERVICE, mFAULT].contains s.mode

/-- RTC seconds (R639): counted since the instant they were set. -/
def State.rtcNow (s : State) : Nat := (s.pwr.rtc + (s.now - s.pwr.rtcNow) / 1000000000) % 2 ^ 48

/-- Spine target of an address, where some region of R12 holds it (R513). -/
def spnTarget (g : Grade) (a : Nat) : Option Nat :=
  if a < 0x40000 then some 0
  else if 0x1000000 ≤ a ∧ a < 0x1200000 then some 1
  else if 0x10000000 ≤ a ∧ a < 0x10800000 then some 2
  else if 0x10800000 ≤ a ∧ a < 0x10D00000 then some 3
  else if 0x10D00000 ≤ a ∧ a < 0x11200000 then some 4
  else if 0x11200000 ≤ a ∧ a < 0x11800000 then some 5
  else if 0x11800000 ≤ a ∧ a < 0x11A00000 then some 6
  else if 0x20000000 ≤ a ∧ a < 0x40000000 then some 14
  else if 0x40000000 ≤ a ∧ a < 0x41A00000 then some 7
  else if 0x60000000 ≤ a ∧ a < 0x80000000 then some 15
  else if 0x80000000 ≤ a ∧ a < 0x82000000 then some 8
  else if 0x90000000 ≤ a ∧ a < 0xA0000000 then some 9
  else if dramBase ≤ a ∧ a < dramBase + Config.dramUsableGiB g * 2 ^ 30 then some (10 + (a - dramBase) / 64 / 7 % 4)
  else none

/-- A domain answers on the Spine unless it is in RET or OFF (R521); the DRAM domain answers in RET too, since a request wakes it
(R561, R625). -/
def State.domReachable (s : State) (d : Nat) : Bool :=
  d == dAON || d == dSAFE || (s.domState d != pOFF && (s.domState d != pRET || d == dDRAM))

/-- Views of the SPN block. -/
def State.liveSpn (s : State) (a : Nat) : Nat :=
  if a = Reg.SPN_STAT then min s.spn.txns.length 511
  else if a = Reg.SPN_ERR_STAT then s.rd a + s.spn.log.length
  else if Reg.SPN_MST_STAT 0 ≤ a ∧ a < Reg.SPN_MST_STAT 32 then
    let m := (a - Reg.SPN_MST_STAT 0) / 4
    let dem := if s.dmc.throttles.any (fun x => x.master == m) then s.fld Reg.DMC_RH Fl.DMC_RH_DEMOTE else 0
    s.rd a + dem <<< 24 + countIf s.spn.txns (fun x => x.master == m)
  else if Reg.SPN_TGT_STAT 0 ≤ a ∧ a < Reg.SPN_TGT_STAT 16 then
    let t := (a - Reg.SPN_TGT_STAT 0) / 4
    let parked := if s.otp.grade = .rk8640 then Tab.at s.spn.granted 0 t
      else s.fld (Reg.SPN_TGT_CFG t) Fl.SPN_TGT_CFG_PARK
    maskBit 31 ((targetDomains t).any (fun d => !s.domReachable d)) + parked <<< 16 +
      countIf s.spn.txns (fun x => x.target == t)
  else s.rd a

/-- Bank ID and row of an SRAM address (R528). -/
def sramBank (a : Nat) : Option (Nat × Nat) :=
  let inter (base first n : Nat) : Option (Nat × Nat) :=
    let k := (a - base) / 32
    some (first + k % n, k / n)
  if 0x1000000 ≤ a ∧ a < 0x1200000 then
    some ((a - 0x1000000) / 0x20000, (a - 0x1000000) % 0x20000 / 32)
  else if 0x10000000 ≤ a ∧ a < 0x10800000 then inter 0x10000000 16 64
  else if 0x10800000 ≤ a ∧ a < 0x10D00000 then inter 0x10800000 80 40
  else if 0x10D00000 ≤ a ∧ a < 0x11200000 then inter 0x10D00000 120 40
  else if 0x11200000 ≤ a ∧ a < 0x11600000 then inter 0x11200000 160 32
  else if 0x11600000 ≤ a ∧ a < 0x11800000 then inter 0x11600000 192 16
  else if 0x11800000 ≤ a ∧ a < 0x11A00000 then
    some (208 + (a - 0x11800000) / 0x8000, (a - 0x11800000) % 0x8000 / 32)
  else none

/-- Address of the first byte of a bank's row (R528). -/
def bankAddr (bank row : Nat) : Nat :=
  let inter (base first n : Nat) : Nat := base + 32 * (row * n + (bank - first))
  if bank < 16 then 0x1000000 + bank * 0x20000 + row * 32
  else if bank < 80 then inter 0x10000000 16 64
  else if bank < 120 then inter 0x10800000 80 40
  else if bank < 160 then inter 0x10D00000 120 40
  else if bank < 192 then inter 0x11200000 160 32
  else if bank < 208 then inter 0x11600000 192 16
  else 0x11800000 + (bank - 208) * 0x8000 + row * 32

/-- Rows in a bank (R528). -/
def bankRows (bank : Nat) : Nat := if bank < 208 then 4096 else 1024

/-- Domain of a bank. -/
def bankDomain (bank : Nat) : Nat := (memDomain (bankAddr bank 0)).getD dAON

/-- A bank is populated in the grade: those of fused-off effect cores are not (R528). -/
def bankPresent (g : Grade) (bank : Nat) : Bool :=
  decide (bank < 208) || (decide (bank < 272) && decide ((bank - 208) / 8 < Config.fxCores g))

/-- Spare rows used in a bank. -/
def State.sparesUsed (s : State) (bank : Nat) : Nat := countIf s.memc.repairs (fun r => r.bank == bank)

/-- Views of the MEM block. -/
def State.liveMem (s : State) (a : Nat) : Nat :=
  if a = Reg.MEM_CFG then setBitN (s.rd a) 29 s.aliasOn
  else if a = Reg.MEM_ERR_STAT then s.rd a + s.memc.list.length <<< 8 + s.memc.log.length
  else s.rd a

/-- Retirement-pool rows of a grade (R556): the first of the 256. -/
def poolBase (g : Grade) : Nat := match g with | .rk8640 => 65280 | _ => 32512

/-- Free pool rows in a bank of a channel. -/
def State.poolFree (s : State) (chan bank : Nat) : Nat :=
  256 - countIf s.dmc.retired (fun r => r.chan == chan && r.bank == bank)

/-- Views of the DMC block. -/
def State.liveDmc (s : State) (a : Nat) : Nat :=
  if a = Reg.DMC_ERR_STAT then s.rd a + s.dmc.list.length <<< 8 + s.dmc.log.length
  else if Reg.DMC_CH_STAT 0 ≤ a ∧ a < Reg.DMC_CH_STAT 4 then
    let c := (a - Reg.DMC_CH_STAT 0) / 4
    let free := (List.range 16).foldl (fun m b => min m (s.poolFree c b)) 256
    setBitsN (s.rd a) 19 12 (min free 255) + min 32 (countIf s.spn.txns (fun x => x.target == 10 + c))
  else s.rd a

/-- Views of the PMC block: counters read modulo 2^48 (R645). -/
def State.livePmc (s : State) (a : Nat) : Nat :=
  let o := a % 0x100000
  if 0x1000 ≤ o ∧ o < 0x1000 + 0x20 * 208 then
    let k := (o - 0x1000) / 32
    let chained := k % 2 == 1 && (s.rd (Reg.PMC_SEL (k - 1))).testBit 29
    if o % 32 = 8 then (if chained then s.rd a else Tab.at s.pmc.cnt 0 k % 2 ^ 32)
    else if o % 32 = 16 then (if chained then s.rd a else Tab.at s.pmc.snap 0 k % 2 ^ 32)
    else if o % 32 = 24 then setBitN (s.rd a) 30 chained
    else s.rd a
  else s.rd a

/-- The command block's status (R596); progress is not fixed by the spec and its field holds what was last stored. -/
def State.liveCmd (s : State) (a : Nat) : Nat :=
  if a = Reg.CMD_STAT then
    match s.cmd.longOp with
    | some o => 2 ^ 31 + maskBit 30 s.cmd.peerBusy.isSome + o.pkt.port <<< 24 + bitsN (s.rd a) 23 16 <<< 16 + o.opcode
    | none => maskBit 30 s.cmd.peerBusy.isSome
  else s.rd a

/-- Views of the SEC block: the fuses (R616). -/
def State.liveSec (s : State) (a : Nat) : Nat :=
  let keySet := (List.range 4).foldl (fun m i => m + maskBit i (Tab.look s.otp.keyHash i).isSome) 0
  if a = Reg.SEC_FUSE then
    maskBit 31 s.otp.authHsp + maskBit 30 s.otp.authTwi + maskBit 29 s.otp.jtagLock + maskBit 28 s.otp.dbgOff +
      (s.otp.revoke % 16) <<< 24 + keySet <<< 20
  else if a = Reg.SEC_FLOOR_LO then s.otp.floor % 2 ^ 32
  else if a = Reg.SEC_FLOOR_HI then s.otp.floor / 2 ^ 32 % 2 ^ 32
  else if a = Reg.SEC_UID_LO then s.otp.uid % 2 ^ 32
  else if a = Reg.SEC_UID_HI then s.otp.uid / 2 ^ 32 % 2 ^ 32
  else if a = Reg.SEC_JTAG_STAT then
    maskBit 31 (s.sys.jtagOpen || (!s.otp.jtagLock && !s.otp.dbgOff)) + maskBit 30 s.sys.testEn + bitsN (s.rd a) 3 0
  else if Reg.SEC_KEYHASH 0 0 ≤ a ∧ a < Reg.SEC_KEYHASH 4 0 then
    let i := (a - Reg.SEC_KEYHASH 0 0) / 0x40
    let w := (a - Reg.SEC_KEYHASH 0 0) % 0x40 / 4
    match Tab.look s.otp.keyHash i with
    | some h => if w < 12 then u32 h (4 * w) else 0
    | none => 0
  else s.rd a

/-- Blown fuses of the rollback floor. -/
def State.floor (s : State) : Nat := countIf (List.range 64) (fun j => s.otp.floor.testBit j)

/-- Views of the SYS block. -/
def State.liveSys (s : State) (a : Nat) : Nat :=
  if a = Reg.SYS_IRQ_SUM then (List.range 26).foldl (fun m b => m + maskBit b (s.blockIrq b)) 0
  else if a = Reg.SYS_MEDIA_TIME_LO then s.sys.mediaTime % 2 ^ 32
  else if a = Reg.SYS_BOOT_STAT then setBitsN (s.rd a) 7 0 s.floor
  else if a = Reg.SYS_RST_CAUSE then
    setBitsN (s.rd a) 7 4 (min 15 (countIf s.sys.wdogTimes (fun t => decide (s.now < t + 60000000000))))
  else s.rd a

/-- Views of the PWR block. -/
def State.livePwr (s : State) (a : Nat) : Nat :=
  if Reg.PWR_DOM_CFG 0 ≤ a ∧ a < Reg.PWR_DOM_CFG 19 then
    let d := (a - Reg.PWR_DOM_CFG 0) / 16
    if a % 16 = 8 then
      let ms := if s.idle d && s.domState d != pOFF then (s.now - Tab.at s.pwr.active 0 d) / 1000000 else 0
      s.rd a + maskBit 28 (s.idle d) + maskBit 27 (s.locked d) + min ms 0xFFFF
    else if d < 2 then 0
    else s.rd a
  else if a = Reg.PWR_STAT then
    setBitsN (s.rd a) 18 0 ((List.range 19).foldl (fun m d =>
      m + maskBit d (if d < 2 then true else s.domState d == pON)) 0)
  else if a = Reg.PWR_RTC_LO then s.rtcNow % 2 ^ 32
  else s.rd a

/-- Views of the STBL block (R509, R510). -/
def State.liveStbl (s : State) (a : Nat) : Nat :=
  if a = Reg.STBL_STAT then s.inFlight <<< 16 + s.poolUsed
  else if Reg.STBL_Q_STAT 0 ≤ a ∧ a < Reg.STBL_Q_STAT 64 then s.rd a + s.qCount ((a - Reg.STBL_Q_STAT 0) / 4)
  else if Reg.STBL_FLOW_STAT 0 ≤ a ∧ a < Reg.STBL_FLOW_STAT 32 then
    let f := (a - Reg.STBL_FLOW_STAT 0) / 4
    Tab.at s.stbl.frontier 0 f <<< 16 + (Tab.at s.stbl.ahead [] f).length
  else if Reg.STBL_ENG_STAT 0 ≤ a ∧ a < Reg.STBL_ENG_STAT 32 then
    let e := (a - Reg.STBL_ENG_STAT 0) / 4
    let stalls := b2n (Tab.look s.stbl.stall0 e).isSome + b2n (Tab.look s.stbl.stall1 e).isSome
    s.rd a + stalls <<< 28 +
      (match Tab.look s.stbl.running e with | some x => 2 ^ 30 + x.q <<< 22 | none => 0)
  else s.rd a

/-- Folios left in the present phase of a swap (R250). -/
def State.swapRemain (s : State) (w : Swap) : Nat :=
  if w.phase = 2 then 32 - w.xf
  else if w.phase = 1 then w.start + w.len - s.out.judged
  else w.start - s.out.judged

/-- Views of the CONV block (R250). -/
def State.liveConv (s : State) (a : Nat) : Nat :=
  if a = Reg.CONV_CAPS then
    576 <<< 20 + (128 / Config.gradeDiv s.otp.grade / (if s.doubleRate then 2 else 1)) <<< 8 + Config.convEngines s.otp.grade
  else if a = Reg.CONV_SWAP_STAT then
    match s.conv.swap with
    | some w => 2 ^ 31 + w.phase <<< 29 + w.g <<< 20 + (w.groups.length - 1) <<< 16 + min (s.swapRemain w) 65535
    | none => 0
  else s.rd a

/-- Views of the OUT block: `SUB` mirrors the speaker's type (R190); the safe mask rules the amplifier pins in SAFE (R210). -/
def State.liveOut (s : State) (a : Nat) : Nat :=
  if Reg.OUT_CFG 0 ≤ a ∧ a < Reg.OUT_CFG 512 ∧ a % 32 = 0 then
    let o := (a - Reg.OUT_CFG 0) / 32
    let sub := match s.plan.layout with
      | some l => ((l.speakers[o]?).map (·.sub)).getD false
      | none => false
    setBitN (s.rd a) 30 (sub && (s.rd a).testBit 31)
  else if a = Reg.OUT_AMP_STAT then
    if s.mode = mSAFE ∨ s.mode = mHALT then setBitsN (s.rd a) 15 0 (s.rd Reg.SYS_SAFE_CFG % 65536) else s.rd a
  else s.rd a

/-- The media clock runs. -/
def State.mediaRuns (s : State) : Bool := !s.sys.mediaStopped && s.mode != mSAFE && s.mode != mHALT

/-- The bypass PLL follows the media clock (R299): the render rate belongs to the family of the bypass rate. -/
def State.follow (s : State) : Bool :=
  s.flag Reg.MIX_BYP_CFG Fl.MIX_BYP_CFG_EN && s.mediaRuns &&
    (s.rateCode % 2 == 0) == s.flag Reg.MIX_BYP_CFG Fl.MIX_BYP_CFG_RATE

/-- D1 is locked to its reference (R283, R306): a word clock while qualified, the media clock while it runs, the crystal. -/
def State.d1Lock (s : State) : Bool :=
  let r := s.capCfg.fld Reg.MIX_DOM_CFG Fl.MIX_DOM_CFG_D1_REF
  if r < 2 then !s.mix.d1Hold && s.fld (Reg.CLK_REF_STAT (r + 1)) Fl.CLK_REF_STAT_STATE == 3
  else r == 3 || s.mediaRuns

/-- Views of the MIX block. -/
def State.liveMix (s : State) (a : Nat) : Nat :=
  if a = Reg.MIX_DOM_STAT then s.rd a + maskBit 1 s.mix.d1Hold + maskBit 0 s.d1Lock
  else if a = Reg.MIX_BYP_STAT then
    s.rd a + maskBit 8 s.follow + s.mix.act.foldl (fun m e => m + maskBit e.1 (decide (e.1 < 8))) 0
  else s.rd a

/-- What a read of a register returns, less its side effects. -/
def State.view (s : State) (a : Nat) : Nat :=
  match blockIdx a with
  | 0 => s.liveSys a
  | 1 => s.livePwr a
  | 11 => s.liveOut a
  | 12 => s.liveConv a
  | 14 => s.liveMix a
  | 17 => s.liveStbl a
  | 18 => s.liveSpn a
  | 19 => s.liveMem a
  | 20 => s.liveDmc a
  | 22 => s.livePmc a
  | 23 => s.liveCmd a
  | 24 => s.liveSec a
  | _ => s.rd a

/-- The words of a list of registers, little-endian, as queries return them. -/
def State.viewBytes (s : State) (as : List Nat) : List Byte := as.flatMap (fun a => by4 (s.view a))

end Sys2Proof.Machine
end

