-- ==== Sys2Proof/Machine/Memory.lean ====
section
/-!
DEFINITION. On-Chip Memory: errors and poison (R530 to R534), the Groomer (R535 to R539), spare-row repair (R540 to R542)
and the commands of R548.
-/

namespace Sys2Proof.Machine

/-- Push an entry into the memory error log (R546, with the overflow rule of R523). -/
def State.memLog (s : State) (cause bank row addr : Nat) : State :=
  if 16 ≤ s.memc.log.length then
    (s.setFlag Reg.MEM_ERR_STAT Fl.MEM_ERR_STAT_OVF true).irq Reg.MEM_IRQ_STAT Fl.MEM_IRQ_STAT_LOG_OVF
  else { s with memc.log := s.memc.log ++ [⟨cause, bank, row, addr⟩] }

/-- Place a row in the repair list (R541). -/
def State.memListRow (s : State) (bank row cause : Nat) : State :=
  if s.memc.list.any (fun e => e.1 == bank && e.2.1 == row) then s
  else if 16 ≤ s.memc.list.length then s.memLog 5 bank row (bankAddr bank row)
  else { s with memc.list := s.memc.list ++ [(bank, row, cause)] }

/-- A single-bit error is corrected (R531). -/
def State.memCorrected (s : State) : State := (s.bump Reg.MEM_CE).irq Reg.MEM_IRQ_STAT Fl.MEM_IRQ_STAT_CE

/-- A transient uncorrectable error (R532). -/
def State.memTransient (s : State) (addr : Nat) : State :=
  let s := (s.bump Reg.MEM_UE_TRANS).irq Reg.MEM_IRQ_STAT Fl.MEM_IRQ_STAT_UE_TRANS
  match sramBank addr with
  | some (b, r) => s.memLog 0 b r addr
  | none => s

/-- A granule becomes poisoned, and its data zero (R532, R554). -/
def State.poisonGranule (s : State) (addr : Nat) : State :=
  let g := addr / 8 * 8
  let s := s.wrBytes g (List.replicate 8 0#8)
  if s.poison.contains g then s else { s with poison := s.poison ++ [g] }

/-- The audio memories whose lasting errors fail the health check (R534, R418): window, head stores, frame and folio. -/
def audioSram (a : Nat) : Bool := decide (0x10000000 ≤ a) && decide (a < 0x11800000)

/-- A lasting error (R532): poison, count, log, repair list, and the health check of R534. -/
def State.memLasting (s : State) (addr : Nat) : State :=
  match sramBank addr with
  | none => s
  | some (b, r) =>
    let s := s.poisonGranule addr
    let s := (s.bump Reg.MEM_UE_LAST).irq Reg.MEM_IRQ_STAT Fl.MEM_IRQ_STAT_UE_LAST
    let s := { s with memc.lasting := Tab.upd s.memc.lasting 0 b (· + 1) }
    let s := (s.memLog 1 b r (addr / 8 * 8)).memListRow b r 0
    if audioSram addr then s.selfFence 4 else s

/-- Repair a row (R540, R541): a free spare of its bank takes it, or the bank has none left. -/
def State.repairRow (s : State) (bank row cause : Nat) : State :=
  let used := s.sparesUsed bank
  let s := { s with memc.list := s.memc.list.filter (fun e => !(e.1 == bank && e.2.1 == row)) }
  if 4 ≤ used then
    let s := s.irq Reg.MEM_IRQ_STAT Fl.MEM_IRQ_STAT_SPARE_OUT
    (s.memLog 4 bank row (bankAddr bank row)).logEventFree 0x1305 (bank * 65536 + row)
  else
    let rep : MemRepair := ⟨bank, row, used, cause⟩
    let s := { s with memc.repairs := s.memc.repairs ++ [rep], memc.journal := s.memc.journal ++ [rep] }
    let s := (s.bump Reg.MEM_REPAIRS).irq Reg.MEM_IRQ_STAT Fl.MEM_IRQ_STAT_REPAIRED
    s.memLog 3 bank row (bankAddr bank row)

/-- Reapply the repair journal at boot (R542): an entry that names a spare already used in its bank, or a bank beyond
271, is ignored and logged. -/
def State.reapplyRepairs (s : State) : State :=
  s.memc.journal.foldl
    (fun s e =>
      if 271 < e.bank || s.memc.repairs.any (fun r => r.bank == e.bank && r.spare == e.spare) then
        s.memLog 3 (e.bank % 512) e.row 0
      else { s with memc.repairs := s.memc.repairs ++ [e] })
    { s with memc.repairs := [] }

/-! ### The Groomer -/

/-- Regions of 256 bytes in the 28 MiB (R535). -/
def groomRegions : Nat := 114688

/-- Address of a region, in ascending order over the regions of R528. -/
def regionAddr (r : Nat) : Nat :=
  if r < 8192 then 0x1000000 + r * 256 else 0x10000000 + (r - 8192) * 256

/-- Advance to the next region; the visit wraps at the end of a pass. -/
def State.nextRegion (s : State) : State :=
  let r := s.fld Reg.MEM_GRM_STAT Fl.MEM_GRM_STAT_REGION
  let s := { s with memc.aborts := 0, memc.retryAt := none }
  if r + 1 < groomRegions then s.setFld Reg.MEM_GRM_STAT Fl.MEM_GRM_STAT_REGION (r + 1)
  else
    let s := s.setFld Reg.MEM_GRM_STAT Fl.MEM_GRM_STAT_REGION 0
    s.setFld Reg.MEM_GRM_STAT Fl.MEM_GRM_STAT_PASSES (s.fld Reg.MEM_GRM_STAT Fl.MEM_GRM_STAT_PASSES + 1)

/-- Errors the save phase meets: granule of the region (0 to 31) and kind (0 corrected, 1 transient, 2 lasting). -/
def State.groomSave (s : State) (base : Nat) (ue : List (Nat × Nat)) : State :=
  ue.foldl
    (fun s e =>
      let a := base + 8 * (e.1 % 32)
      match e.2 with
      | 0 => s.memCorrected
      | 1 => s.memTransient a
      | _ => s.memLasting a) s

/-- Cell faults the March test finds: rows 0 to 7 of the region (R538). -/
def State.groomFaults (s : State) (base : Nat) (rows : List Nat) : State :=
  rows.foldl
    (fun s k =>
      let a := base + 32 * (k % 8)
      match sramBank a with
      | some (b, r) =>
        let s := (s.bump Reg.MEM_GRM_FAULT).irq Reg.MEM_IRQ_STAT Fl.MEM_IRQ_STAT_GRM_FAULT
        (s.memLog 2 b r a).memListRow b r 1
      | none => s) s

/-- The Groomer runs: enabled, and the clocks of the MEM block not stopped (R535, R626). -/
def State.groomOn (s : State) : Bool :=
  s.flag Reg.MEM_CFG Fl.MEM_CFG_GRM_EN && s.mode != mSAFE && s.mode != mHALT

/-- One step on the present region (R535 to R538). -/
def State.groomStep (s : State) (ue : List (Nat × Nat)) (rows : List Nat) : State :=
  let base := regionAddr (s.fld Reg.MEM_GRM_STAT Fl.MEM_GRM_STAT_REGION)
  match memDomain base with
  | none => s.nextRegion
  | some d =>
    if s.domOn d then
      let s := s.groomSave base ue
      if ue.any (fun e => decide (2 ≤ e.2)) then s.nextRegion
      else ((s.groomFaults base rows).bump Reg.MEM_GRM_STEPS).nextRegion
    else (s.bump Reg.MEM_GRM_SKIP).nextRegion

/-- `GROOMER_STEP` (R535). -/
def execGroomerStep (ue : List (Nat × Nat)) (rows : List Nat) (t : Nat) (s : State) : Out :=
  let s := s.atTime t
  if s.groomOn && s.memc.retryAt.isNone then .next (s.groomStep ue rows) else .next s

/-- `GROOMER_ABORT` (R537): a demand access met a borrowed region; memory is as before the step. -/
def execGroomerAbort (t : Nat) (s : State) : Out :=
  let s := s.atTime t
  if !s.groomOn || s.memc.retryAt.any (fun r => decide (s.now < r)) then .next s
  else
    let s := s.bump Reg.MEM_GRM_ABORT
    let lim := max 1 (s.fld Reg.MEM_GRM_CFG Fl.MEM_GRM_CFG_MAX_ABORT)
    if lim ≤ s.memc.aborts + 1 then .next (s.bump Reg.MEM_GRM_SKIP).nextRegion
    else
      let back := max 1 (s.fld Reg.MEM_GRM_CFG Fl.MEM_GRM_CFG_BACKOFF)
      .next { s with memc.aborts := s.memc.aborts + 1, memc.retryAt := some (s.now + back * 10000) }

/-- `GROOMER_RETRY` (R537): the aborted step runs again once `BACKOFF` has passed. -/
def execGroomerRetry (ue : List (Nat × Nat)) (rows : List Nat) (t : Nat) (s : State) : Out :=
  let s := s.atTime t
  match s.memc.retryAt with
  | some r => if s.groomOn && decide (r ≤ s.now) then .next (s.groomStep ue rows) else .next s
  | none => .next s

/-- `ROW_REPAIR` (R540, R541): with `AUTO_REPAIR` set, a listed row is repaired. -/
def execRowRepair (bank row t : Nat) (s : State) : Out :=
  let s := s.atTime t
  match s.memc.list.find? (fun e => e.1 == bank && e.2.1 == row) with
  | some e => if s.flag Reg.MEM_CFG Fl.MEM_CFG_AUTO_REPAIR then .next (s.repairRow bank row e.2.2) else .next s
  | none => .next s

/-! ### Commands (R548) -/

def specMemCfgSet : CmdSpec := cmdRow 0x0F50 0 false 8 8 fwModes true
def cmdMemCfgSet (p : Packet) (s : State) : CmdRes :=
  if rsvOk Reg.MEM_CFG (u32 p.params 0) && rsvOk Reg.MEM_GRM_CFG (u32 p.params 4) then
    .ok ((s.cfgWrite Reg.MEM_CFG (u32 p.params 0)).cfgWrite Reg.MEM_GRM_CFG (u32 p.params 4)) []
  else .fail s stBAD_PARAM []
/-- `MEM_CFG_SET` (R548). -/
def execMemCfgSet (p : Packet) (s : State) : Out := runPacket specMemCfgSet p (cmdMemCfgSet p) s

def specMemtest : CmdSpec := cmdRow 0x0F51 0 false 0 0 fwModes false
def cmdMemtest (_p : Packet) (s : State) : CmdRes := .long s []
/-- `MEMTEST` (R548): a long operation. -/
def execMemtest (p : Packet) (s : State) : Out := runPacket specMemtest p (cmdMemtest p) s

/-- Regions of each domain (R528, R535). -/
def domainRegions : List (Nat × Nat) :=
  [(dCTRL, 8192), (dFAB0, 57344), (dCONV, 40960), (dFXCA, 4096), (dFXCB, 4096)]

/-- The full pass ends; `ext` names the faulty rows found, bank and row as uint16 each. -/
def finMemtest (s : State) (ext : List Byte) : State × Nat × List Byte :=
  let faults := (List.range (ext.length / 4)).map (fun k => (u16 ext (4 * k), u16 ext (4 * k + 2)))
  let on := faults.filter (fun e => s.domOn (bankDomain e.1))
  let skipped := domainRegions.foldl (fun n e => if s.domOn e.1 then n else n + e.2) 0
  let s := on.foldl (fun s e => s.groomFaults (bankAddr e.1 e.2) [0]) s
  let s := (s.count Reg.MEM_GRM_STEPS (groomRegions - skipped)).count Reg.MEM_GRM_SKIP skipped
  let s := s.setFld Reg.MEM_GRM_STAT Fl.MEM_GRM_STAT_PASSES (s.fld Reg.MEM_GRM_STAT Fl.MEM_GRM_STAT_PASSES + 1)
  (s, stOK, by4 on.length ++ by4 skipped)

def specMemRepair : CmdSpec := cmdRow 0x0F52 0 false 8 8 fwModes false
def cmdMemRepair (p : Packet) (s : State) : CmdRes :=
  let op := u8 p.params 0
  let bank := u16 p.params 2
  let row := u16 p.params 4
  if 1 < op ∨ !zeroAt p.params 1 1 ∨ !zeroAt p.params 6 2 then .fail s stBAD_PARAM []
  else if op = 0 then .long s [0]
  else if !bankPresent s.otp.grade bank ∨ bankRows bank ≤ row then .fail s stBAD_PARAM []
  else if 4 ≤ s.sparesUsed bank then .fail s stNO_RESOURCE []
  else .long s [1, bank, row]
/-- `MEM_REPAIR` op 0 (R540). -/
def execMemRepairListed (p : Packet) (s : State) : Out :=
  runPacket specMemRepair (p.withOp 0 0) (cmdMemRepair (p.withOp 0 0)) s
/-- `MEM_REPAIR` op 1 (R540). -/
def execMemRepairRow (p : Packet) (s : State) : Out :=
  runPacket specMemRepair (p.withOp 0 1) (cmdMemRepair (p.withOp 0 1)) s

/-- The repairs of a `MEM_REPAIR` complete. -/
def finMemRepair (s : State) (args : List Nat) : State × Nat × List Byte :=
  let before := s.memc.repairs.length
  let s :=
    match args with
    | [1, bank, row] => s.repairRow bank row 2
    | _ => s.memc.list.foldl (fun s e => s.repairRow e.1 e.2.1 e.2.2) s
  (s, stOK, by4 (s.memc.repairs.length - before))

def specMemQuery : CmdSpec := cmdRow 0x0F53 2 false 0 0 fwModes false
def cmdMemQuery (_p : Packet) (s : State) : CmdRes :=
  .ok s (s.viewBytes [Reg.MEM_CFG, Reg.MEM_GRM_STAT, Reg.MEM_ERR_STAT] ++
    (List.range 272).flatMap (fun b => by1 (if bankPresent s.otp.grade b then s.sparesUsed b else 0xFF)))
/-- `MEM_QUERY` (R548). -/
def execMemQuery (p : Packet) (s : State) : Out := runPacket specMemQuery p (cmdMemQuery p) s

/-- Pop the oldest error-log entry (R546, R523): the value of `MEM_ERRLOG`, with the address latched. -/
def State.memPop (s : State) : State × Nat :=
  match s.memc.log with
  | [] => (s, 0)
  | e :: es =>
    (({ s with memc.log := es }).wr Reg.MEM_ERRLOG_ADDR e.addr,
      2 ^ 31 + e.cause <<< 28 + e.bank <<< 16 + e.row % 4096)

/-- Pop up to `n` entries: their words, and how many there were. -/
def State.memPops : Nat → State → State × Nat × List Byte
  | 0, s => (s, 0, [])
  | n + 1, s =>
    if s.memc.log.isEmpty then (s, 0, [])
    else
      let (s, w) := s.memPop
      let a := s.rd Reg.MEM_ERRLOG_ADDR
      let (s, k, bs) := State.memPops n s
      (s, k + 1, by4 w ++ by4 a ++ bs)

def specMemErrRead : CmdSpec := cmdRow 0x0F54 2 false 4 4 fwModes false
def cmdMemErrRead (p : Packet) (s : State) : CmdRes :=
  let n := u8 p.params 0
  if n = 0 ∨ 16 < n ∨ !zeroAt p.params 1 3 then .fail s stBAD_PARAM []
  else
    let (s, k, bs) := State.memPops n s
    .ok s (by1 k ++ bs)
/-- `MEM_ERR_READ` (R548). -/
def execMemErrRead (p : Packet) (s : State) : Out := runPacket specMemErrRead p (cmdMemErrRead p) s

/-- The MEM counters in offset order (R547). -/
def memCounters : List Nat :=
  [Reg.MEM_CE, Reg.MEM_UE_TRANS, Reg.MEM_UE_LAST, Reg.MEM_POISON_RD, Reg.MEM_GRM_STEPS, Reg.MEM_GRM_ABORT,
    Reg.MEM_GRM_SKIP, Reg.MEM_GRM_FAULT, Reg.MEM_REPAIRS]

def specMemStats : CmdSpec := cmdRow 0x0F55 2 false 0 0 fwModes false
def cmdMemStats (_p : Packet) (s : State) : CmdRes :=
  let (s, bs) := s.takeCounters memCounters
  .ok s bs
/-- `MEM_STATS` (R548). -/
def execMemStats (p : Packet) (s : State) : Out := runPacket specMemStats p (cmdMemStats p) s

/-- `MEM_ERRLOG_POP` (R546): a read of `MEM_ERRLOG`. -/
def execMemErrlogPop (t : Nat) (s : State) : Out :=
  let r := (s.atTime t).memPop
  .next (r.1.readReturns r.2)

/-- Latch the status of a bank into `MEM_BANK_STAT` (R546). -/
def State.memBankSel (s : State) (v : Nat) : State :=
  let b := v % 512
  let s := s.wr Reg.MEM_BANK_SEL b
  let here := bankPresent s.otp.grade b && s.domOn (bankDomain b)
  let used := s.sparesUsed b
  s.wr Reg.MEM_BANK_STAT (maskBit 31 here + maskBit 30 (decide (b < 272) && decide (4 ≤ used)) + used <<< 16 +
    min (Tab.at s.memc.lasting 0 b) 0xFFFF)

/-- `MEM_BANK_SEL` (R546): a write of a bank ID. -/
def execMemBankSel (v t : Nat) (s : State) : Out := .next ((s.atTime t).memBankSel v)

end Sys2Proof.Machine
end

