-- ==== Sys2Proof/Machine/Dram.lean ====
section
/-!
DEFINITION. DRAM Controller: address decode (R550), errors (R553 to R555), retirement (R556, R557), failure (R558), refresh
and row hammer (R559, R560), self-refresh (R561), set points and calibration (R562 to R564) and the commands of R569.
-/

namespace Sys2Proof.Machine

/-- Where a usable address lies (R550). -/
structure DramLoc where
  chan : Nat
  bank : Nat
  row : Nat
  col : Nat

/-- The decode of R550 of a usable address offset. -/
def dramLoc (u : Nat) : DramLoc :=
  let g := u / 64 / 7
  let k := u / 64 % 7
  let h := g / 4
  ⟨g % 4, h / 4 % 16, h / 64, h % 4 * 512 + k * 64 + u % 64⟩

/-- Offset of the first usable byte of a row: the inverse of R550. -/
def dramRowBase (chan bank row : Nat) : Nat := ((row * 64 + bank * 4) * 4 + chan) * 448

/-- Bytes at the controller's check line: byte `8k + j` of it holds the check byte of granule j of data line k (R550). -/
def dramCheckCol (l : DramLoc) : Nat := l.col / 512 * 512 + 448 + 8 * (l.col % 512 / 64) + l.col % 64 / 8

/-- Usable address of column `col` of a row. -/
def dramAddr (chan bank row col : Nat) : Nat :=
  dramBase + dramRowBase chan bank row + col / 512 * 1792 + col % 512

/-- Push an entry into the DRAM error log (R566, R523). -/
def State.dmcLog (s : State) (cause chan bank master row addr : Nat) : State :=
  if 16 ≤ s.dmc.log.length then
    (s.setFlag Reg.DMC_ERR_STAT Fl.DMC_ERR_STAT_OVF true).irq Reg.DMC_IRQ_STAT Fl.DMC_IRQ_STAT_LOG_OVF
  else { s with dmc.log := s.dmc.log ++ [⟨cause, chan, bank, master, row, addr⟩] }

/-- No master is named (R566). -/
def noMaster : Nat := 0x3F

/-- The row an access reaches: a retired row's pool row (R556). -/
def State.physRow (s : State) (chan bank row : Nat) : Nat :=
  match s.dmc.retired.find? (fun r => r.chan == chan && r.bank == bank && r.row == row) with
  | some r => r.pool
  | none => row

/-- Rows of the retirement pool (R556). -/
def inPool (g : Grade) (row : Nat) : Bool := decide (poolBase g ≤ row) && decide (row < poolBase g + 256)

/-- List a row for retirement (R557). -/
def State.dmcListRow (s : State) (chan bank row : Nat) : State :=
  if inPool s.otp.grade (s.physRow chan bank row) then s
  else if s.dmc.list.any (fun e => e.1 == chan && e.2.1 == bank && e.2.2 == row) then s
  else if 16 ≤ s.dmc.list.length then
    s.dmcLog 4 chan bank noMaster row (dramRowBase chan bank row % 2 ^ 32)
  else { s with dmc.list := s.dmc.list ++ [(chan, bank, row)] }

/-- The first pool row of a bank that holds no retired row. -/
def State.freePoolRow (s : State) (chan bank : Nat) : Option Nat :=
  ((List.range 256).map (· + poolBase s.otp.grade)).find?
    (fun w => !s.dmc.retired.any (fun r => r.chan == chan && r.bank == bank && r.pool == w))

/-- Retire a row (R556), or report that its bank's pool is used up (R557). The cause is that of the journal entry. -/
def State.retireRow (s : State) (chan bank row cause : Nat) : State :=
  let s := { s with dmc.list := s.dmc.list.filter (fun e => !(e.1 == chan && e.2.1 == bank && e.2.2 == row)) }
  if inPool s.otp.grade (s.physRow chan bank row) then s
  else
    match s.freePoolRow chan bank with
    | none =>
      let s := s.irq Reg.DMC_IRQ_STAT Fl.DMC_IRQ_STAT_POOL_OUT
      s.dmcLog 3 chan bank noMaster row (dramRowBase chan bank row % 2 ^ 32)
    | some w =>
      let r : DmcRetire := ⟨chan, bank, row, w, cause⟩
      let s := { s with dmc.retired := s.dmc.retired ++ [r], dmc.journal := s.dmc.journal ++ [r] }
      let s := (s.bump Reg.DMC_RETIRED).irq Reg.DMC_IRQ_STAT Fl.DMC_IRQ_STAT_RETIRED
      s.dmcLog 2 chan bank noMaster row (dramRowBase chan bank row % 2 ^ 32)

/-- An unrepairable failure (R558): the cause is latched and the device enters SAFE. -/
def State.dramFail (s : State) (cause : Nat) : State :=
  (s.setFld Reg.DMC_STAT Fl.DMC_STAT_FAIL_CAUSE cause).enterSafe 4

/-- A single-bit error is corrected and written back (R553). -/
def State.dmcCorrected (s : State) : State := (s.bump Reg.DMC_CE).irq Reg.DMC_IRQ_STAT Fl.DMC_IRQ_STAT_CE

/-- A transient uncorrectable error (R554). -/
def State.dmcTransient (s : State) (addr : Nat) : State :=
  let l := dramLoc (addr - dramBase)
  (s.bump Reg.DMC_UE_TRANS).dmcLog 0 l.chan l.bank noMaster l.row ((addr - dramBase) % 2 ^ 32)

/-- A lasting error (R554), and the rate test of R558. -/
def State.dmcLasting (s : State) (addr : Nat) : State :=
  let l := dramLoc (addr - dramBase)
  let s := s.poisonGranule addr
  let s := (s.bump Reg.DMC_UE_LAST).irq Reg.DMC_IRQ_STAT Fl.DMC_IRQ_STAT_UE_LAST
  let s := (s.dmcLog 1 l.chan l.bank noMaster l.row ((addr - dramBase) % 2 ^ 32)).dmcListRow l.chan l.bank l.row
  let b := 16 * l.chan + l.bank
  let ts := s.now :: (Tab.at s.dmc.errTimes [] b).filter (fun t => decide (s.now < t + 1000000000))
  let s := { s with dmc.errTimes := Tab.put s.dmc.errTimes b ts }
  if 16 ≤ ts.length then s.dramFail 3 else s

/-- The controller runs: its domain is powered (R626). -/
def State.dramPowered (s : State) : Bool := s.domState dDRAM != pOFF

/-! ### Row hammer (R560) -/

/-- Index of a row in the activation table. -/
def actIdx (chan bank row : Nat) : Nat := (chan * 16 + bank) * 65536 + row

/-- An activation of a row for a master. -/
def State.activate (s : State) (master chan bank row : Nat) : State :=
  let i := actIdx chan bank row
  let n := Tab.at s.dmc.acts 0 i + 1
  if s.fld Reg.DMC_RH Fl.DMC_RH_THRESH < n then
    let s := { s with dmc.acts := Tab.del s.dmc.acts i }
    let keep := s.dmc.throttles.filter (fun t => !(t.master == master && t.chan == chan && t.bank == bank))
    let s := if master = noMaster then s else { s with dmc.throttles := keep ++ [⟨master, chan, bank, 2⟩] }
    let s := (s.bump Reg.DMC_RH_EVENTS).irq Reg.DMC_IRQ_STAT Fl.DMC_IRQ_STAT_RH
    s.dmcLog 5 chan bank master row (dramRowBase chan bank row % 2 ^ 32)
  else { s with dmc.acts := Tab.put s.dmc.acts i n }

/-- `REFRESH_WINDOW` (R560): the window of a bank begins. -/
def execRefreshWindow (chan bank t : Nat) (s : State) : Out :=
  let s := s.atTime t
  let lo := actIdx chan bank 0
  let tick (x : DmcThrottle) : DmcThrottle :=
    if x.chan = chan ∧ x.bank = bank then { x with windows := x.windows - 1 } else x
  .next { s with
    dmc.acts := s.dmc.acts.filter (fun e => !(decide (lo ≤ e.1) && decide (e.1 < lo + 65536)))
    dmc.throttles := (s.dmc.throttles.map tick).filter (fun x => x.windows != 0) }

/-- `REFRESH` (R559): due for a bank. With a request in the channel's queue for the bank it is postponed, at most 8
times. -/
def execRefresh (chan bank t : Nat) (s : State) : Out :=
  let s := s.atTime t
  let i := 16 * chan + bank
  let queued := s.spn.txns.any (fun x => x.target == 10 + chan && (dramLoc (x.addr - dramBase)).bank == bank)
  let n := Tab.at s.dmc.postponed 0 i
  if !s.dramPowered || s.flag Reg.DMC_STAT Fl.DMC_STAT_SELF_REF then .next s
  else if queued && decide (n < 8) then .next { s with dmc.postponed := Tab.put s.dmc.postponed i (n + 1) }
  else .next { s with dmc.postponed := Tab.del s.dmc.postponed i }

/-! ### Self-refresh (R561) -/

/-- `SELF_REFRESH_ENTRY` (R561): the entry that the idle timer started. `abort` tells that a request reached a queue before
the entry command. -/
def execSelfRefreshEntry (abort : Bool) (t : Nat) (s : State) : Out :=
  let s := s.atTime t
  if s.domState dDRAM != pENTER then .next s
  else if abort || s.spineBusy dDRAM then
    .next { (s.bump Reg.DMC_SR_ABORT).setDom dDRAM pON with pwr.active := Tab.put s.pwr.active dDRAM s.now }
  else
    let s := (s.bump Reg.DMC_SR_ENTRY).setFlag Reg.DMC_STAT Fl.DMC_STAT_SELF_REF true
    .next (((s.setDom dDRAM pRET).bump Reg.PWR_RET_ENTRY))

/-- The DRAM domain leaves self-refresh for ON. -/
def State.selfRefreshExit (s : State) : State :=
  let s := s.setFlag Reg.DMC_STAT Fl.DMC_STAT_SELF_REF false
  { (s.setDom dDRAM pON).bump Reg.PWR_WAKE with pwr.active := Tab.put s.pwr.active dDRAM s.now }

/-- `SELF_REFRESH_EXIT` (R561): a held request causes exit. -/
def execSelfRefreshExit (t : Nat) (s : State) : Out :=
  let s := s.atTime t
  if s.flag Reg.DMC_STAT Fl.DMC_STAT_SELF_REF then .next s.selfRefreshExit else .next s

/-! ### Set points, temperature and calibration -/

/-- The set point a commanded code gives: the automatic drop holds code 0 at code 1 (R562). -/
def State.fspFor (s : State) (code : Nat) : Nat := if code = 0 ∧ s.dmc.thermDrop = true then 1 else code

/-- An automatic change of set point. -/
def State.thermChange (s : State) (code : Nat) : State :=
  let s := s.setFld Reg.DMC_STAT Fl.DMC_STAT_FSP_NOW code
  (s.bump Reg.DMC_THERM).irq Reg.DMC_IRQ_STAT Fl.DMC_IRQ_STAT_THERM

/-- `DRAM_THERMAL` (R562): the hottest die reads `temp` °C (int8). -/
def execDramThermal (temp : Int) (t : Nat) (s : State) : Out :=
  let s := s.atTime t
  if !s.dramPowered then .next s else
  let s := s.setFld Reg.DMC_STAT Fl.DMC_STAT_TEMP (ofS 8 temp)
  let s := s.setFlag Reg.DMC_STAT Fl.DMC_STAT_HOT (decide (85 < temp))
  let cool := if temp ≤ 85 then (match s.dmc.coolSince with | some c => some c | none => some s.now) else none
  let s := { s with dmc.coolSince := cool }
  let code := s.fld Reg.DMC_STAT Fl.DMC_STAT_FSP_NOW
  if 95 ≤ temp ∧ code = 0 then .next { s.thermChange 1 with dmc.thermDrop := true }
  else
    match cool with
    | some c =>
      if s.dmc.thermDrop = true ∧ c + 10000000000 ≤ s.now then
        let s := { s with dmc.thermDrop := false }
        if s.fld Reg.DMC_CFG Fl.DMC_CFG_FSP = 0 then .next (s.thermChange 0) else .next s
      else .next s
    | none => .next s

/-- `CALIBRATION` (R564) of a channel. `forced`: no window came within 256 ms. `outs`: how many of the results, the first
and its repeat, lay outside the trained range. -/
def execCalibration (chan : Nat) (forced : Bool) (outs t : Nat) (s : State) : Out :=
  let s := s.atTime t
  if !s.dramPowered || s.flag Reg.DMC_STAT Fl.DMC_STAT_SELF_REF then .next s
  else
    let s := if forced then s.bump Reg.DMC_CAL_FORCED else s
    let s := s.setFlag (Reg.DMC_CH_STAT chan) Fl.DMC_CH_STAT_CAL_RETRY (decide (1 ≤ outs))
    if 2 ≤ outs then .next ((s.setFlag (Reg.DMC_CH_STAT chan) Fl.DMC_CH_STAT_UP false).dramFail 2) else .next s

/-- `DRAM_FAILURE` (R558): cause 1 a channel failed training, 2 lost calibration, 3 the lasting-error rate. -/
def execDramFailure (cause t : Nat) (s : State) : Out :=
  let s := s.atTime t
  if s.dramPowered = true ∧ 1 ≤ cause ∧ cause ≤ 3 then .next (s.dramFail cause) else .next s

/-- Training ends (R563): the channels are in service, and a deferred change of set point is carried out. -/
def State.dramTrained (s : State) : State :=
  let s := s.setFlag Reg.DMC_STAT Fl.DMC_STAT_TRAINING false
  let s := (List.range 4).foldl (fun s c => s.setFlag (Reg.DMC_CH_STAT c) Fl.DMC_CH_STAT_UP true) s
  let s := s.setFld Reg.DMC_STAT Fl.DMC_STAT_FSP_NOW (s.fspFor (s.fld Reg.DMC_CFG Fl.DMC_CFG_FSP))
  if s.flag Reg.DMC_STAT Fl.DMC_STAT_DEFER then
    (s.setFlag Reg.DMC_STAT Fl.DMC_STAT_DEFER false).finishHeld 5 stOK []
  else s

/-- `ROW_RETIRE` (R556, R557): with `AUTO_RETIRE` set, a listed row is retired. -/
def execRowRetire (chan bank row t : Nat) (s : State) : Out :=
  let s := s.atTime t
  if s.flag Reg.DMC_CFG Fl.DMC_CFG_AUTO_RETIRE && s.dmc.list.contains (chan, bank, row) then
    .next (s.retireRow chan bank row 0)
  else .next s

/-! ### Commands (R569) -/

def specDmcCfgSet : CmdSpec := cmdRow 0x0F60 0 false 8 8 fwModes true
def cmdDmcCfgSet (p : Packet) (s : State) : CmdRes :=
  let cfg := u32 p.params 0
  let rh := u32 p.params 4
  if bitsN cfg 30 2 ≠ 0 ∨ bitsN rh 31 16 < 256 then .fail s stBAD_PARAM []
  else .ok ((s.setFld Reg.DMC_CFG Fl.DMC_CFG_AUTO_RETIRE (bitsN cfg 31 31)).wr Reg.DMC_RH rh) []
/-- `DMC_CFG_SET` (R569). -/
def execDmcCfgSet (p : Packet) (s : State) : Out := runPacket specDmcCfgSet p (cmdDmcCfgSet p) s

def specDramRetire : CmdSpec := cmdRow 0x0F61 0 false 8 8 fwModes false
def cmdDramRetire (p : Packet) (s : State) : CmdRes :=
  let op := u8 p.params 0
  let chan := u8 p.params 1
  let bank := u8 p.params 2
  let row := u16 p.params 4
  if 1 < op ∨ !zeroAt p.params 3 1 ∨ !zeroAt p.params 6 2 then .fail s stBAD_PARAM []
  else if op = 0 then .long s [0]
  else if 4 ≤ chan ∨ 16 ≤ bank ∨ poolBase s.otp.grade ≤ row then .fail s stBAD_PARAM []
  else if s.poolFree chan bank = 0 then .fail s stNO_RESOURCE []
  else .long s [1, chan, bank, row]
/-- `DRAM_RETIRE` op 0 (R556). -/
def execDramRetireListed (p : Packet) (s : State) : Out :=
  runPacket specDramRetire (p.withOp 0 0) (cmdDramRetire (p.withOp 0 0)) s
/-- `DRAM_RETIRE` op 1 (R556). -/
def execDramRetireRow (p : Packet) (s : State) : Out :=
  runPacket specDramRetire (p.withOp 0 1) (cmdDramRetire (p.withOp 0 1)) s

/-- The retirements of a `DRAM_RETIRE` complete. -/
def finDramRetire (s : State) (args : List Nat) : State × Nat × List Byte :=
  let before := s.dmc.retired.length
  let s :=
    match args with
    | [1, chan, bank, row] => s.retireRow chan bank row 1
    | _ => s.dmc.list.foldl (fun s e => s.retireRow e.1 e.2.1 e.2.2 0) s
  (s, stOK, by4 (s.dmc.retired.length - before))

def specDmcFreqSet : CmdSpec := cmdRow 0x0F62 0 false 4 4 [mIDLE, mSERVICE, mUPDATE, mFAULT] false
def cmdDmcFreqSet (p : Packet) (s : State) : CmdRes :=
  let code := u8 p.params 0
  if 2 < code ∨ !zeroAt p.params 1 3 then .fail s stBAD_PARAM []
  else
    let s := s.setFld Reg.DMC_CFG Fl.DMC_CFG_FSP code
    if s.flag Reg.DMC_STAT Fl.DMC_STAT_TRAINING then .hold (s.setFlag Reg.DMC_STAT Fl.DMC_STAT_DEFER true) 5 code
    else .ok (s.setFld Reg.DMC_STAT Fl.DMC_STAT_FSP_NOW (s.fspFor code)) []
/-- `DMC_FREQ_SET` (R562). -/
def execDmcFreqSet (p : Packet) (s : State) : Out := runPacket specDmcFreqSet p (cmdDmcFreqSet p) s

def specDmcQuery : CmdSpec := cmdRow 0x0F63 2 false 0 0 fwModes false
def cmdDmcQuery (_p : Packet) (s : State) : CmdRes :=
  .ok s (s.viewBytes ([Reg.DMC_CFG, Reg.DMC_RH, Reg.DMC_STAT, Reg.DMC_ERR_STAT] ++ (List.range 4).map Reg.DMC_CH_STAT))
/-- `DMC_QUERY` (R569). -/
def execDmcQuery (p : Packet) (s : State) : Out := runPacket specDmcQuery p (cmdDmcQuery p) s

/-- Pop the oldest error-log entry (R566, R523). -/
def State.dmcPop (s : State) : State × Nat :=
  match s.dmc.log with
  | [] => (s, 0)
  | e :: es =>
    (({ s with dmc.log := es }).wr Reg.DMC_ERRLOG_ADDR e.addr,
      2 ^ 31 + e.cause <<< 28 + e.chan <<< 26 + e.bank <<< 22 + e.master <<< 16 + e.row)

def State.dmcPops : Nat → State → State × Nat × List Byte
  | 0, s => (s, 0, [])
  | n + 1, s =>
    if s.dmc.log.isEmpty then (s, 0, [])
    else
      let (s, w) := s.dmcPop
      let a := s.rd Reg.DMC_ERRLOG_ADDR
      let (s, k, bs) := State.dmcPops n s
      (s, k + 1, by4 w ++ by4 a ++ bs)

def specDmcErrRead : CmdSpec := cmdRow 0x0F64 2 false 4 4 fwModes false
def cmdDmcErrRead (p : Packet) (s : State) : CmdRes :=
  let n := u8 p.params 0
  if n = 0 ∨ 16 < n ∨ !zeroAt p.params 1 3 then .fail s stBAD_PARAM []
  else
    let (s, k, bs) := State.dmcPops n s
    .ok s (by1 k ++ bs)
/-- `DMC_ERR_READ` (R569). -/
def execDmcErrRead (p : Packet) (s : State) : Out := runPacket specDmcErrRead p (cmdDmcErrRead p) s

/-- The DMC counters in offset order (R568). -/
def dmcCounters : List Nat :=
  [Reg.DMC_CE, Reg.DMC_UE_TRANS, Reg.DMC_UE_LAST, Reg.DMC_POISON_RD, Reg.DMC_RETIRED, Reg.DMC_RH_EVENTS,
    Reg.DMC_SR_ABORT, Reg.DMC_SR_ENTRY, Reg.DMC_THERM, Reg.DMC_CAL_FORCED]

def specDmcStats : CmdSpec := cmdRow 0x0F65 2 false 0 0 fwModes false
def cmdDmcStats (_p : Packet) (s : State) : CmdRes :=
  let (s, bs) := s.takeCounters dmcCounters
  .ok s bs
/-- `DMC_STATS` (R569). -/
def execDmcStats (p : Packet) (s : State) : Out := runPacket specDmcStats p (cmdDmcStats p) s

/-- `DMC_ERRLOG_POP` (R566): a read of `DMC_ERRLOG`. -/
def execDmcErrlogPop (t : Nat) (s : State) : Out :=
  let r := (s.atTime t).dmcPop
  .next (r.1.readReturns r.2)

end Sys2Proof.Machine
end

