-- ==== Sys2Proof/Machine/Power.lean ====
section
/-!
DEFINITION. Power Domains: waking (R630 to R632), automatic entry (R628, R629), drains (R635), the RTC and the commands of
R643. The control-domain reset of R604 stands here, since `PWR_DOM_SET` op 3 can make it.
-/

namespace Sys2Proof.Machine

/-- The control domain is reset (R604, R588, R25): rendering continues, and no command is answered until firmware has been
loaded again. -/
def State.ctrlReset (s : State) : State :=
  let s := (s.abandonLong).resetDomain dCTRL
  { s with cmd.ctrlDown := true }

/-- The domains of R633: never OFF in RENDER, STANDBY, RESYNC and MEASURE. -/
def State.planeDomains (s : State) : List Nat :=
  [dSTRM, dGEO, dFAB0, dFAB1, dCONV, dOUTMIX, dTDM, dDRAM] ++ (if s.paired then [dTTH] else [])

def State.planeHolds (s : State) (d : Nat) : Bool :=
  [mRENDER, mSTANDBY, mRESYNC, mMEASURE].contains s.mode && s.planeDomains.contains d

/-- A domain returns to ON, with its timer restarted. -/
def State.domUp (s : State) (d : Nat) : State :=
  let s := (s.setDom d pON).bump Reg.PWR_WAKE
  { s with pwr.active := Tab.put s.pwr.active d s.now }

/-- Wake a domain (R630, R631): from RET it returns to ON, from OFF it waits for its restoration (R632). -/
def State.wake (s : State) (d : Nat) (src : Bool) : State :=
  let st := s.domState d
  if domainPresent s.otp.grade d && (st == pRET || st == pOFF || st == pENTER) then
    let s := if src then s.irq Reg.PWR_IRQ_STAT Fl.PWR_IRQ_STAT_WAKE else s
    if st = pOFF then s.setDom d pWAKING
    else if d = dDRAM then s.selfRefreshExit
    else s.domUp d
  else s

/-- Wake every domain of a list. -/
def State.wakeAll (s : State) (ds : List Nat) (src : Bool) : State := ds.foldl (fun s d => s.wake d src) s

/-- A claim of the rein wakes every domain with `AUTO_RET` set, and restarts its timers (R631). -/
def State.wakeAuto (s : State) : State :=
  let ds := ((List.range 17).map (· + 2)).filter (fun d =>
    domainPresent s.otp.grade d && s.flag (Reg.PWR_DOM_CFG d) Fl.PWR_DOM_CFG_AUTO_RET)
  let s := s.wakeAll ds true
  { s with pwr.active := ds.foldl (fun t d => if s.domState d = pON then Tab.put t d s.now else t) s.pwr.active }

/-- A domain enters RET (R625); DRAM's is self-refresh (R561). -/
def State.enterRet (s : State) (d : Nat) : State :=
  let s := (s.setDom d pRET).bump Reg.PWR_RET_ENTRY
  let s := if d = dDRAM then (s.bump Reg.DMC_SR_ENTRY).setFlag Reg.DMC_STAT Fl.DMC_STAT_SELF_REF true else s
  { s with
    pwr.retAt := Tab.put s.pwr.retAt d s.now
    pwr.offLim := Tab.put s.pwr.offLim d (max 1 (s.fld (Reg.PWR_DOM_OFFT d) Fl.PWR_DOM_OFFT_OFF_MS)) }

/-- A domain enters OFF (R625). -/
def State.enterOff (s : State) (d : Nat) : State := (s.powerOff d).bump Reg.PWR_OFF_ENTRY

/-- Domains that have timers: neither AON nor SAFE, and present (R624, R640). -/
def State.timed (s : State) (d : Nat) : Bool := decide (2 ≤ d) && decide (d < 19) && domainPresent s.otp.grade d

/-- `RET_TIMER` (R628, R629). `act`: activity arises in the same cycle. -/
def execRetTimer (d t : Nat) (act : Bool) (s : State) : Out :=
  let s := s.atTime t
  let lim := Tab.at s.pwr.retLim (max 10 (s.fld (Reg.PWR_DOM_CFG d) Fl.PWR_DOM_CFG_RET_US)) d
  if s.timed d && s.domState d == pON && s.flag (Reg.PWR_DOM_CFG d) Fl.PWR_DOM_CFG_AUTO_RET && s.idle d &&
      decide (lim * 1000 ≤ s.now - Tab.at s.pwr.active 0 d) then
    if act then .next { s.bump Reg.PWR_ABORT with pwr.active := Tab.put s.pwr.active d s.now }
    else if d = dDRAM then .next (s.setDom d pENTER)
    else .next (s.enterRet d)
  else .next s

/-- `OFF_TIMER` (R628). -/
def execOffTimer (d t : Nat) (s : State) : Out :=
  let s := s.atTime t
  let lim := Tab.at s.pwr.offLim (max 1 (s.fld (Reg.PWR_DOM_OFFT d) Fl.PWR_DOM_OFFT_OFF_MS)) d
  if s.timed d && d != dCTRL && d != dDRAM && s.domState d == pRET &&
      s.flag (Reg.PWR_DOM_CFG d) Fl.PWR_DOM_CFG_AUTO_OFF && !s.locked d && !s.planeHolds d &&
      decide (lim * 1000000 ≤ s.now - Tab.at s.pwr.retAt 0 d) then
    .next (s.enterOff d)
  else .next s

/-! ### Drains (R635) -/

/-- Enter the state a drain was for, and reply. -/
def State.drained (s : State) (x : PwrDrain) : State :=
  let s := { s with pwr.drain := none }
  let s := if x.goal = pRET then s.enterRet x.dom else s.enterOff x.dom
  s.finishHeld 2 stOK []

/-- `DRAIN_COMPLETE` (R635). The command that waits does not keep CTRL from falling idle. -/
def rowDrainComplete (t : Nat) (s : State) : Out :=
  let s := s.atTime t
  match s.pwr.drain with
  | some x =>
    let v := { s with cmd.held := none }
    if v.idle x.dom then .next (s.drained x) else .next s
  | none => .next s

/-- `DRAIN_TIMEOUT` (R635). -/
def rowDrainTimeout (t : Nat) (s : State) : Out :=
  let s := s.atTime t
  match s.pwr.drain with
  | some x =>
    let lim := max 10 (s.fld Reg.PWR_CFG Fl.PWR_CFG_DRAIN_TIMEOUT)
    if lim * 1000 ≤ s.now - x.since then
      let s := { s.setDom x.dom pON with pwr.drain := none }
      let s := (s.bump Reg.PWR_REFUSED).irq Reg.PWR_IRQ_STAT Fl.PWR_IRQ_STAT_REFUSED
      .next (s.finishHeld 2 stREFUSED_BUSY [])
    else .next s
  | none => .next s

/-! ### Commands (R643) -/

def specPwrDomSet : CmdSpec := cmdRow 0x0101 0 false 4 4 fwModes false

/-- `PWR_DOM_SET` (R643): the checks shared by its ops, then the op. -/
def cmdPwrDomSet (p : Packet) (s : State) : CmdRes :=
  let d := u8 p.params 0
  let op := u8 p.params 1
  if 3 < op ∨ !zeroAt p.params 2 2 ∨ d < 2 ∨ !s.timed d ∨ (op = 2 ∧ (d = dCTRL ∨ d = dDRAM)) then
    .fail s stBAD_PARAM []
  else if 1 ≤ op ∧ s.planeHolds d = true then .fail s stNOT_IN_MODE []
  else if op = 0 then .ok (s.wake d true) []
  else if op = 3 then
    if d = dCTRL then .done ((s.reply p 0x0101 stOK []).ctrlReset) else .ok (s.resetDomain d) []
  else
    let goal := if op = 1 then pRET else pOFF
    let st := s.domState d
    if st = goal ∨ st = pOFF then .ok s []
    else if st = pRET then .ok (s.enterOff d) []
    else if s.idle d && d != dCTRL then .ok (if goal = pRET then s.enterRet d else s.enterOff d) []
    else .hold { s.setDom d pDRAIN with pwr.drain := some ⟨d, goal, s.now⟩ } 2 d

/-- `PWR_DOM_SET` op 0. -/
def execPwrDomOn (p : Packet) (s : State) : Out := runPacket specPwrDomSet (p.withOp 1 0) (cmdPwrDomSet (p.withOp 1 0)) s
/-- `PWR_DOM_SET` op 1. -/
def execPwrDomRet (p : Packet) (s : State) : Out := runPacket specPwrDomSet (p.withOp 1 1) (cmdPwrDomSet (p.withOp 1 1)) s
/-- `PWR_DOM_SET` op 2. -/
def execPwrDomOff (p : Packet) (s : State) : Out := runPacket specPwrDomSet (p.withOp 1 2) (cmdPwrDomSet (p.withOp 1 2)) s
/-- `PWR_DOM_SET` op 3. -/
def execPwrDomReset (p : Packet) (s : State) : Out :=
  runPacket specPwrDomSet (p.withOp 1 3) (cmdPwrDomSet (p.withOp 1 3)) s

def specPwrCfgSet : CmdSpec := cmdRow 0x0102 0 false 16 16 fwModes true
def cmdPwrCfgSet (p : Packet) (s : State) : CmdRes :=
  let d := u8 p.params 0
  let cfg := u32 p.params 4
  let off := u32 p.params 8
  let glob := u32 p.params 12
  if !zeroAt p.params 1 3 ∨ 18 < d ∨ !domainPresent s.otp.grade d ∨ !rsvOk (Reg.PWR_DOM_CFG d) cfg ∨
      !rsvOk (Reg.PWR_DOM_OFFT d) off ∨ !rsvOk Reg.PWR_CFG glob ∨ 10000000 < bitsN cfg 23 0 ∨ 600000 < off ∨
      10000 < bitsN glob 15 0 then .fail s stBAD_PARAM []
  else
    let s :=
      if d < 2 then s
      else
        let c := if d = dCTRL ∨ d = dDRAM then setBitN cfg 30 false else cfg
        (s.wr (Reg.PWR_DOM_CFG d) c).wr (Reg.PWR_DOM_OFFT d) off
    .ok (s.wr Reg.PWR_CFG glob) []
/-- `PWR_CFG_SET` (R643). -/
def execPwrCfgSet (p : Packet) (s : State) : Out := runPacket specPwrCfgSet p (cmdPwrCfgSet p) s

def specPwrQuery : CmdSpec := cmdRow 0x0103 2 false 0 0 fwModes false
def cmdPwrQuery (_p : Packet) (s : State) : CmdRes :=
  .ok s (s.viewBytes (Reg.PWR_STAT :: (List.range 19).map Reg.PWR_DOM_STAT))
/-- `PWR_QUERY` (R643). -/
def execPwrQuery (p : Packet) (s : State) : Out := runPacket specPwrQuery p (cmdPwrQuery p) s

/-- The PWR counters in offset order (R642). -/
def pwrCounters : List Nat := [Reg.PWR_RET_ENTRY, Reg.PWR_OFF_ENTRY, Reg.PWR_WAKE, Reg.PWR_REFUSED, Reg.PWR_ABORT]

def specPwrStats : CmdSpec := cmdRow 0x0104 2 false 0 0 fwModes false
def cmdPwrStats (_p : Packet) (s : State) : CmdRes :=
  let (s, bs) := s.takeCounters pwrCounters
  .ok s bs
/-- `PWR_STATS` (R643). -/
def execPwrStats (p : Packet) (s : State) : Out := runPacket specPwrStats p (cmdPwrStats p) s

def specRtcSet : CmdSpec := cmdRow 0x0105 0 false 16 16 (fwModes ++ [mSAFE]) false
def cmdRtcSet (p : Packet) (s : State) : CmdRes :=
  let sec := u64 p.params 0
  if 2 ^ 48 ≤ sec ∨ !zeroAt p.params 12 4 then .fail s stBAD_PARAM []
  else .ok ({ s with pwr.rtc := sec, pwr.rtcNow := s.now }.wr Reg.PWR_RTC_ALARM (u32 p.params 8)) []
/-- `RTC_SET` (R643). -/
def execRtcSet (p : Packet) (s : State) : Out := runPacket specRtcSet p (cmdRtcSet p) s

/-- A read of `PWR_RTC_LO` latches the high half (R639). -/
def State.latchRtc (s : State) : State := s.wr Reg.PWR_RTC_HI (s.rtcNow / 2 ^ 32)

/-- `PWR_RTC_LO_READ` (R639). -/
def execPwrRtcLoRead (t : Nat) (s : State) : Out :=
  let s := s.atTime t
  .next (s.latchRtc.readReturns (s.rtcNow % 2 ^ 32))

end Sys2Proof.Machine
end

