-- ==== Sys2Proof/Machine/Spine.lean ====
section
/-!
DEFINITION. The Spine Crossbar: its commands (R527), the error-log pop (R523) and the end of a reset master's drain (R524).
Transactions themselves stand in Bus.lean.
-/

namespace Sys2Proof.Machine

/-- `MASTER_DRAIN_DONE` (R524): the outstanding count of a reset master reaches zero. -/
def execMasterDrainDone (m t : Nat) (s : State) : Out :=
  let s := s.atTime t
  if s.flag (Reg.SPN_MST_STAT m) Fl.SPN_MST_STAT_DRAIN then
    let s := { s with spn.txns := s.spn.txns.filter (fun x => x.master != m) }
    let s := s.setFlag (Reg.SPN_MST_STAT m) Fl.SPN_MST_STAT_DRAIN false
    .next (s.irq Reg.SPN_IRQ_STAT Fl.SPN_IRQ_STAT_MST_RST)
  else .next s

/-! ### Commands (R527) -/

def specSpnQosSet : CmdSpec := cmdRow 0x0F40 0 true 8 8 fwModes true
def cmdSpnQosSet (p : Packet) (s : State) : CmdRes :=
  let m := u8 p.params 0
  if 31 < m ∨ !zeroAt p.params 1 3 ∨ !rsvOk (Reg.SPN_MST_CFG m) (u32 p.params 4) then .fail s stBAD_PARAM []
  else .ok (s.wr (Reg.SPN_MST_CFG m) (u32 p.params 4)) []
/-- `SPN_QOS_SET` (R527). -/
def execSpnQosSet (p : Packet) (s : State) : Out := runPacket specSpnQosSet p (cmdSpnQosSet p) s

def specSpnCfgSet : CmdSpec := cmdRow 0x0F41 0 true 20 20 fwModes true
def cmdSpnCfgSet (p : Packet) (s : State) : CmdRes :=
  if !rsvOk Reg.SPN_CFG (u32 p.params 0) ∨ (List.range 16).any (fun t => decide (31 < u8 p.params (4 + t))) then
    .fail s stBAD_PARAM []
  else
    .ok ((List.range 16).foldl (fun s t => s.wr (Reg.SPN_TGT_CFG t) (u8 p.params (4 + t)))
      (s.wr Reg.SPN_CFG (u32 p.params 0))) []
/-- `SPN_CFG_SET` (R527). -/
def execSpnCfgSet (p : Packet) (s : State) : Out := runPacket specSpnCfgSet p (cmdSpnCfgSet p) s

def specSpnQuery : CmdSpec := cmdRow 0x0F42 2 false 0 0 fwModes false
def cmdSpnQuery (_p : Packet) (s : State) : CmdRes :=
  .ok s (s.viewBytes ([Reg.SPN_STAT, Reg.SPN_ERR_STAT] ++ (List.range 32).map Reg.SPN_MST_STAT ++
    (List.range 16).map Reg.SPN_TGT_STAT))
/-- `SPN_QUERY` (R527). -/
def execSpnQuery (p : Packet) (s : State) : Out := runPacket specSpnQuery p (cmdSpnQuery p) s

/-- Pop the oldest error-log entry (R523, R525). -/
def State.spnPop (s : State) : State × Nat :=
  match s.spn.log with
  | [] => (s, 0)
  | e :: es =>
    (({ s with spn.log := es }).wr Reg.SPN_ERRLOG_ADDR e.addr,
      2 ^ 31 + maskBit 30 e.write + e.cause <<< 26 + e.target <<< 20 + e.master <<< 8 + e.addr / 2 ^ 32 % 256)

def State.spnPops : Nat → State → State × Nat × List Byte
  | 0, s => (s, 0, [])
  | n + 1, s =>
    if s.spn.log.isEmpty then (s, 0, [])
    else
      let (s, w) := s.spnPop
      let a := s.rd Reg.SPN_ERRLOG_ADDR
      let (s, k, bs) := State.spnPops n s
      (s, k + 1, by4 w ++ by4 a ++ bs)

def specSpnErrRead : CmdSpec := cmdRow 0x0F43 2 false 4 4 fwModes false
def cmdSpnErrRead (p : Packet) (s : State) : CmdRes :=
  let n := u8 p.params 0
  if n = 0 ∨ 16 < n ∨ !zeroAt p.params 1 3 then .fail s stBAD_PARAM []
  else
    let (s, k, bs) := State.spnPops n s
    .ok s (by1 k ++ bs)
/-- `SPN_ERR_READ` (R527). -/
def execSpnErrRead (p : Packet) (s : State) : Out := runPacket specSpnErrRead p (cmdSpnErrRead p) s

/-- The SPN counters in offset order (R526). -/
def spnCounters : List Nat :=
  [Reg.SPN_DECERR, Reg.SPN_HOLD_ORD, Reg.SPN_HOLD_CAP, Reg.SPN_AGED, Reg.SPN_RST_DISC, Reg.SPN_TGT_ABORT]

def specSpnStats : CmdSpec := cmdRow 0x0F44 2 false 0 0 fwModes false
def cmdSpnStats (_p : Packet) (s : State) : CmdRes :=
  let (s, bs) := s.takeCounters spnCounters
  .ok s bs
/-- `SPN_STATS` (R527). -/
def execSpnStats (p : Packet) (s : State) : Out := runPacket specSpnStats p (cmdSpnStats p) s

/-- `SPN_ERRLOG_POP` (R523): a read of `SPN_ERRLOG`. -/
def execSpnErrlogPop (t : Nat) (s : State) : Out :=
  let r := (s.atTime t).spnPop
  .next (r.1.readReturns r.2)

end Sys2Proof.Machine
end

