-- ==== Sys2Proof/Machine/Pmc.lean ====
section
/-!
DEFINITION. Performance Counters: reading and latching (R649, R650), reprogramming (R652), snapshots and freezing (R653 to
R655), bandwidth windows (R656) and the commands of R660.
-/

namespace Sys2Proof.Machine

/-- A counter pair is chained: the even index `k` selects `CHAIN` (R650). -/
def State.chained (s : State) (k : Nat) : Bool := k % 2 == 0 && (s.rd (Reg.PMC_SEL k)).testBit 29

/-- The value of a counter modulo 2^48. -/
def State.pmcVal (s : State) (k : Nat) : Nat := Tab.at s.pmc.cnt 0 k % 2 ^ 48

/-- `COUNTER_WRAP` (R650): a counter that has reached 2^48 wraps, setting its sticky bit or carrying. -/
def execCounterWrap (k t : Nat) (s : State) : Out :=
  let s := s.atTime t
  let v := Tab.at s.pmc.cnt 0 k
  if v < 2 ^ 48 then .next s
  else
    let s := { s with pmc.cnt := Tab.put s.pmc.cnt k (v - 2 ^ 48) }
    if s.chained k then .next (s.pmcPlus (k + 1) 1)
    else .next ((s.setFlag (Reg.PMC_STATK k) Fl.PMC_STATK_STICKY true).irq Reg.PMC_IRQ_STAT Fl.PMC_IRQ_STAT_WRAP)

/-- A read of `PMC_CNT_LO[k]` latches (R649, R650). -/
def State.latchCnt (s : State) (k : Nat) : State :=
  if k % 2 = 1 ∧ s.chained (k - 1) = true then s
  else
    let s := s.wr (Reg.PMC_CNT_HI k) (s.pmcVal k / 2 ^ 32)
    if s.chained k then
      (s.wr (Reg.PMC_CNT_LO (k + 1)) (s.pmcVal (k + 1))).wr (Reg.PMC_CNT_HI (k + 1)) (s.pmcVal (k + 1) / 2 ^ 32)
    else s

/-- A read of `PMC_SNAP_LO[k]` latches (R653). -/
def State.latchSnap (s : State) (k : Nat) : State :=
  let v (j : Nat) := Tab.at s.pmc.snap 0 j
  if k % 2 = 1 ∧ s.chained (k - 1) = true then s
  else
    let s := s.wr (Reg.PMC_SNAP_HI k) (v k / 2 ^ 32)
    if s.chained k then
      (s.wr (Reg.PMC_SNAP_LO (k + 1)) (v (k + 1))).wr (Reg.PMC_SNAP_HI (k + 1)) (v (k + 1) / 2 ^ 32)
    else s

/-- `PMC_CNT_LO_READ` (R649). -/
def execPmcCntLoRead (k t : Nat) (s : State) : Out :=
  let s := s.atTime t
  .next ((s.latchCnt k).readReturns (s.livePmc (Reg.PMC_CNT_LO k)))
/-- `PMC_SNAP_LO_READ` (R653). -/
def execPmcSnapLoRead (k t : Nat) (s : State) : Out :=
  let s := s.atTime t
  .next ((s.latchSnap k).readReturns (s.livePmc (Reg.PMC_SNAP_LO k)))

/-- Set a counter to zero. -/
def State.pmcZero (s : State) (k : Nat) : State := { s with pmc.cnt := Tab.del s.pmc.cnt k }

/-- A write of `PMC_SEL[k]` (R650, R652, R659); an index with no counter ignores it (R644). -/
def State.pmcSelWrite (s : State) (k v : Nat) : State :=
  if !counterPresent k then s
  else
    let upper := k % 2 == 1 && s.chained (k - 1)
    let w := setBitN v 31 false
    let s := s.wr (Reg.PMC_SEL k) (if k % 2 = 1 then setBitN w 29 false else w)
    if v.testBit 31 && !upper then
      let s := s.pmcZero k
      if s.chained k then s.pmcZero (k + 1) else s
    else s

/-- A write of `PMC_MMASK[k]` (R652). -/
def State.pmcMaskWrite (s : State) (k v : Nat) : State := if counterPresent k then s.wr (Reg.PMC_MMASK k) v else s

/-- `PMC_SEL_WRITE` (R652). -/
def execPmcSelWrite (k v t : Nat) (s : State) : Out := .next ((s.atTime t).pmcSelWrite k v)
/-- `PMC_MMASK_WRITE` (R652). -/
def execPmcMmaskWrite (k v t : Nat) (s : State) : Out := .next ((s.atTime t).pmcMaskWrite k v)

/-- Every counter and sticky bit to zero (R652). -/
def State.pmcClearAll (s : State) : State :=
  let s := { s with pmc.cnt := [] }
  (List.range 208).foldl (fun s k => s.setFlag (Reg.PMC_STATK k) Fl.PMC_STATK_STICKY false) s

/-- The counters freeze (R655). -/
def State.pmcFreeze (s : State) : State :=
  (s.setFlag Reg.PMC_STAT Fl.PMC_STAT_FROZEN true).irq Reg.PMC_IRQ_STAT Fl.PMC_IRQ_STAT_FREEZE

/-- Counting resumes (R655). -/
def State.pmcRun (s : State) : State := s.setFlag Reg.PMC_STAT Fl.PMC_STAT_FROZEN false

/-- Local time as the words of `PTP_TIME_*`. -/
def State.timeWords (s : State) : Nat × Nat × Nat :=
  let t := s.localNs
  let sec := t / 1000000000
  (t % 1000000000, sec % 2 ^ 32, sec / 2 ^ 32 % 2 ^ 16)

/-- A trigger (R653, R655): `src` is the mask recorded in `PMC_STAT.SRC`. -/
def State.pmcTrigger (s : State) (src : Nat) : State :=
  let s := { s with pmc.snap := List.map (fun (e : Nat × Nat) => (e.1, e.2 % 2 ^ 48)) s.pmc.cnt }
  let (ns, lo, hi) := s.timeWords
  let s := ((s.wr Reg.PMC_SNAP_TIME_NS ns).wr Reg.PMC_SNAP_TIME_SLO lo).wr Reg.PMC_SNAP_TIME_SHI hi
  let s := s.setFld Reg.PMC_STAT Fl.PMC_STAT_SRC src
  let s := s.setFld Reg.PMC_STAT Fl.PMC_STAT_SEQ (s.fld Reg.PMC_STAT Fl.PMC_STAT_SEQ + 1)
  let s := s.irq Reg.PMC_IRQ_STAT Fl.PMC_IRQ_STAT_SNAP
  if s.flag Reg.PMC_CFG Fl.PMC_CFG_FREEZE_ON_TRIG then s.pmcFreeze else s

/-- `CLR_ALL` (R652). -/
def execClrAll (t : Nat) (s : State) : Out := .next (s.atTime t).pmcClearAll
/-- `RUN` (R655). -/
def execRun (t : Nat) (s : State) : Out := .next (s.atTime t).pmcRun
/-- `FREEZE` (R655). -/
def execFreeze (t : Nat) (s : State) : Out := .next (s.atTime t).pmcFreeze
/-- `SNAP_TRIGGER` (R653). -/
def execSnapTrigger (t : Nat) (s : State) : Out := .next ((s.atTime t).pmcTrigger 1)

/-- `PMC_SNAP_PIN` (R653): a rising edge, with its effect three cycles later. -/
def execPmcSnapPin (t : Nat) (s : State) : Out :=
  let s := s.atTime t
  if s.aonClocked && s.flag Reg.PMC_CFG Fl.PMC_CFG_PIN_EN then .next (s.pmcTrigger 2) else .next s

/-- The armed match time in nanoseconds of local time (R653). -/
def State.pmcMatchNs (s : State) : Nat :=
  (s.rd Reg.PMC_MATCH_SLO + s.rd Reg.PMC_MATCH_SHI % 2 ^ 16 * 2 ^ 32) * 1000000000 + s.rd Reg.PMC_MATCH_NS

/-- `PMC_MATCH` (R653). -/
def execPmcMatch (t : Nat) (s : State) : Out :=
  let s := s.atTime t
  if s.aonClocked && s.flag Reg.PMC_CFG Fl.PMC_CFG_MATCH_EN && decide (s.pmcMatchNs ≤ s.localNs) then
    .next ((s.pmcTrigger 4).setFlag Reg.PMC_CFG Fl.PMC_CFG_MATCH_EN false)
  else .next s

/-- The actions of `PMC_CTL` (R652 to R655), all in one cycle: the snapshot takes the values at the start of the cycle.
`FREEZE` and `RUN` together have no stated order: one of the two, free. -/
def State.pmcCtl (s : State) (v : Nat) : State :=
  let s := if v.testBit 0 then s.pmcTrigger 1 else s
  let s := if v.testBit 3 then s.pmcClearAll else s
  if v.testBit 1 && v.testBit 2 then
    let (f, s) := s.fresh
    if f % 2 = 0 then s.pmcFreeze else s.pmcRun
  else if v.testBit 1 then s.pmcFreeze
  else if v.testBit 2 then s.pmcRun
  else s

/-! ### Bandwidth windows (R656) -/

/-- Bytes moved through a port. -/
def State.bwBytes (s : State) (p n : Nat) : State := { s with pmc.bytes := Tab.put s.pmc.bytes p (Tab.at s.pmc.bytes 0 p + n) }

/-- Start the windows anew. -/
def State.bwRestart (s : State) : State := { s with pmc.bytes := [], pmc.winAt := s.now }

/-- Write `PMC_BW_CFG`: setting `EN` or changing `WIN_US` restarts the windows. -/
def State.bwCfgWrite (s : State) (v : Nat) : State :=
  let old := s.rd Reg.PMC_BW_CFG
  let s := s.wr Reg.PMC_BW_CFG v
  if (!old.testBit 31 && v.testBit 31) || bitsN old 19 0 != bitsN v 19 0 then s.bwRestart else s

/-- `BANDWIDTH_WINDOW` (R656): a window ends. -/
def execBandwidthWindow (t : Nat) (s : State) : Out :=
  let s := s.atTime t
  let len := max 1 (s.fld Reg.PMC_BW_CFG Fl.PMC_BW_CFG_WIN_US) * 1000
  if s.aonClocked && s.flag Reg.PMC_BW_CFG Fl.PMC_BW_CFG_EN && decide (s.pmc.winAt + len ≤ s.now) then
    let s := (List.range 54).foldl
      (fun s p =>
        let v := min (Tab.at s.pmc.bytes 0 p / 16) 0xFFFFFFFF
        (s.wr (Reg.PMC_BW p) v).wr (Reg.PMC_BW_PEAK p) (max v (s.rd (Reg.PMC_BW_PEAK p)))) s
    .next { s with pmc.bytes := [], pmc.winAt := s.pmc.winAt + len }
  else .next s

/-! ### Commands (R660) -/

def specPmcCfgSet : CmdSpec := cmdRow 0x0F01 0 false 40 40 fwModes true
def cmdPmcCfgSet (p : Packet) (s : State) : CmdRes :=
  let cfg := u32 p.params 0
  let bw := u32 p.params 4
  let wins := (List.range 4).map (fun k => u64 p.params (8 + 8 * k))
  if !rsvOk Reg.PMC_CFG cfg ∨ !rsvOk Reg.PMC_BW_CFG bw ∨ 1000000 < bitsN bw 19 0 ∨
      wins.any (fun a => decide (2 ^ 40 ≤ a)) then .fail s stBAD_PARAM []
  else
    let s := (s.wr Reg.PMC_CFG cfg).bwCfgWrite bw
    .ok ((List.range 4).foldl
      (fun s k =>
        let a := nth wins k 0
        let w := k / 2
        let j := k % 2 * 2
        (s.wr (Reg.PMC_WIN w j) (a % 2 ^ 32)).wr (Reg.PMC_WIN w (j + 1)) (a / 2 ^ 32)) s) []
/-- `PMC_CFG_SET` (R660). -/
def execPmcCfgSet (p : Packet) (s : State) : Out := runPacket specPmcCfgSet p (cmdPmcCfgSet p) s

def specPmcSelSet : CmdSpec := cmdRow 0x0F02 0 false 4 2044 fwModes false
def cmdPmcSelSet (p : Packet) (s : State) : CmdRes :=
  let k := u8 p.params 0
  let n := u8 p.params 1
  if p.params.length ≠ 4 + 8 * n then .fail s stBAD_LENGTH []
  else if n = 0 ∨ 16 < n ∨ 207 < k + n - 1 ∨ !zeroAt p.params 2 2 then .fail s stBAD_PARAM []
  else
    .ok ((List.range n).foldl
      (fun s i => (s.pmcSelWrite (k + i) (u32 p.params (4 + 8 * i))).pmcMaskWrite (k + i) (u32 p.params (8 + 8 * i))) s) []
/-- `PMC_SEL_SET` (R660). -/
def execPmcSelSet (p : Packet) (s : State) : Out := runPacket specPmcSelSet p (cmdPmcSelSet p) s

def specPmcCtlSet : CmdSpec := cmdRow 0x0F03 0 false 20 20 fwModes false
def cmdPmcCtlSet (p : Packet) (s : State) : CmdRes :=
  let v := u32 p.params 0
  let sec := u64 p.params 4
  let ns := u32 p.params 12
  if 15 < v ∨ 2 ^ 48 ≤ sec ∨ 1000000000 ≤ ns ∨ !zeroAt p.params 16 4 then .fail s stBAD_PARAM []
  else
    let s := s.pmcCtl v
    if sec = 0 ∧ ns = 0 then .ok s []
    else
      let s := ((s.wr Reg.PMC_MATCH_NS ns).wr Reg.PMC_MATCH_SLO sec).wr Reg.PMC_MATCH_SHI (sec / 2 ^ 32)
      .ok (s.setFlag Reg.PMC_CFG Fl.PMC_CFG_MATCH_EN true) []
/-- `PMC_CTL_SET` (R660). -/
def execPmcCtlSet (p : Packet) (s : State) : Out := runPacket specPmcCtlSet p (cmdPmcCtlSet p) s

/-- The role of the read commands (R657, R660). -/
def State.pmcRole (s : State) : Nat := if s.flag Reg.PMC_CFG Fl.PMC_CFG_USER_EN then 2 else 0

def specPmcRead (s : State) : CmdSpec := cmdRow 0x0F04 s.pmcRole false 4 4 fwModes false
def cmdPmcRead (p : Packet) (s : State) : CmdRes :=
  let k := u8 p.params 0
  let n := u8 p.params 1
  let src := u8 p.params 2
  if 207 < k ∨ n = 0 ∨ 208 - k < n ∨ 1 < src ∨ !zeroAt p.params 3 1 then .fail s stBAD_PARAM []
  else
    .ok s (s.viewBytes [Reg.PMC_STAT, Reg.PMC_SNAP_TIME_NS, Reg.PMC_SNAP_TIME_SLO, Reg.PMC_SNAP_TIME_SHI] ++
      (List.range n).flatMap (fun i => by8 (if src = 0 then s.pmcVal (k + i) else Tab.at s.pmc.snap 0 (k + i))))
/-- `PMC_READ` (R660). -/
def execPmcRead (p : Packet) (s : State) : Out := runPacket (specPmcRead s) p (cmdPmcRead p) s

def specPmcBwRead (s : State) : CmdSpec := cmdRow 0x0F05 s.pmcRole false 0 0 fwModes false
def cmdPmcBwRead (_p : Packet) (s : State) : CmdRes :=
  let bs := s.viewBytes (Reg.PMC_BW_CFG :: (List.range 54).map Reg.PMC_BW ++ (List.range 54).map Reg.PMC_BW_PEAK)
  .ok ((List.range 54).foldl (fun s p => s.wr (Reg.PMC_BW_PEAK p) 0) s) bs
/-- `PMC_BW_READ` (R660). -/
def execPmcBwRead (p : Packet) (s : State) : Out := runPacket (specPmcBwRead s) p (cmdPmcBwRead p) s

end Sys2Proof.Machine
end

