-- ==== Sys2Proof/Machine/Stable.lean ====
section
/-!
DEFINITION. The Stable Scheduler: entry (R492, R493), stalls (R495 to R499), flows (R500) and the decision trace (R505,
R506).
-/

namespace Sys2Proof.Machine

/-! ### Tickets -/

/-- Type codes of R491. -/
def tkINGRESS : Nat := 1
def tkGEO : Nat := 2
def tkFAB : Nat := 3
def tkHEAD : Nat := 4
def tkTAIL : Nat := 5
def tkPHA : Nat := 6
def tkPHB : Nat := 7
def tkMIX : Nat := 8
def tkEGRESS : Nat := 9
def tkMEAS : Nat := 10
def tkFX : Nat := 11
def tkDMA : Nat := 0x10
def tkMARK : Nat := 0x20

/-- Class of a hardware ticket type (R494). -/
def kindClass : Nat → Nat
  | 1 => 0
  | 2 => 1
  | 3 => 2
  | 4 => 3
  | 5 => 3
  | 6 => 4
  | 7 => 4
  | 8 => 5
  | 9 => 6
  | 10 => 7
  | 11 => 8
  | _ => 15

/-- A hardware ticket: unordered, ungated, for any engine of its class. -/
def hwTicket (kind folio item : Nat) : Ticket :=
  { kind := kind, cls := kindClass kind, eng := 255, flow := 255, seq := 0, epoch := 0, prio := 0, folio := folio,
    gate := 255, gateSeq := 0, item := item, urgent := none, args := [] }

/-! ### Decision trace (R505, R506) -/

/-- Event codes of R505. -/
def evDISPATCH : Nat := 0
def evCOMPLETE : Nat := 1
def evSQUASH : Nat := 2
def evRELEASE : Nat := 3
def evDROP : Nat := 4
def evDISPLACE : Nat := 5

/-- Records that the trace's destination holds (R506). -/
def State.trcCap (s : State) : Nat :=
  if s.flag Reg.STBL_TRC_CFG Fl.STBL_TRC_CFG_DEST then max 1 (s.rd Reg.STBL_TRC_SIZE / 32) else 2048

/-- Write the words of a record at its place. -/
def State.trcStore (s : State) (i : Nat) (bs : List Byte) : State :=
  if s.flag Reg.STBL_TRC_CFG Fl.STBL_TRC_CFG_DEST then
    let base := s.rd Reg.STBL_TRC_BASE_LO + s.rd Reg.STBL_TRC_BASE_HI % 256 * 2 ^ 32
    s.busWrite (base + 32 * i) bs
  else (List.range 8).foldl (fun s w => s.wr (Reg.STBL_RING (8 * i + w)) (u32 bs (4 * w))) s

/-- Write one trace record (R505): event, queue, engine (255 for none), ticket, and the handle or argument field. -/
def State.trace (s : State) (ev q e : Nat) (k : Ticket) (word cycles : Nat) : State :=
  let cfg := s.rd Reg.STBL_TRC_CFG
  let qm := s.rd Reg.STBL_TRC_QMASK_LO + s.rd Reg.STBL_TRC_QMASK_HI * 2 ^ 32
  if !cfg.testBit 31 || !cfg.testBit (23 + ev) || !qm.testBit q || s.stbl.trcStopped then s
  else
    let t := s.localNs
    let (w, s) :=
      if k.kind = tkGEO ∨ ev = evSQUASH then (word, s)
      else if tkDMA ≤ k.kind then (u16 k.args 0, s)
      else s.fresh
    let bs := by4 (t % 1000000000) ++ by2 (t / 1000000000) ++ by1 ev ++ by1 q ++ by1 e ++ by1 k.kind ++ by1 k.flow ++
      by1 k.epoch ++ by2 k.seq ++ by2 w ++ by4 k.folio ++ by4 cycles ++ by2 s.inFlight ++ List.replicate 6 0#8
    let i := s.rd Reg.STBL_TRC_WPTR
    -- whether the write buffer of a trace in DRAM is full is not fixed (R506; notes/assumptions/74)
    let (full, s) := if cfg.testBit 30 then s.fresh else (0, s)
    if full % 2 = 1 then (s.bump Reg.STBL_TRC_LOST).irq Reg.STBL_IRQ_STAT Fl.STBL_IRQ_STAT_TRC_LOST
    else if i + 1 < s.trcCap then (s.trcStore i bs).wr Reg.STBL_TRC_WPTR (i + 1)
    else
      let s := (s.trcStore i bs).irq Reg.STBL_IRQ_STAT Fl.STBL_IRQ_STAT_TRC_FULL
      if cfg.testBit 29 then { s.wr Reg.STBL_TRC_WPTR (i + 1) with stbl.trcStopped := true } else s.wr Reg.STBL_TRC_WPTR 0

/-- Handle of the object slot of a geometry ticket. -/
def State.handleOf (s : State) (slot : Nat) : Nat :=
  match Tab.look s.oms.slots slot with
  | some o => o.gen * 1024 + slot
  | none => slot

/-! ### Entry (R492, R493) -/

/-- A ticket may enter a queue (R492, R510). -/
def State.room (s : State) (q : Nat) : Bool :=
  let c := s.qCount q
  s.flag (Reg.STBL_Q_CFG q) Fl.STBL_Q_CFG_EN && decide (c < s.fld (Reg.STBL_Q_CFG q) Fl.STBL_Q_CFG_LIMIT) &&
    (decide (c < s.fld (Reg.STBL_Q_CFG q) Fl.STBL_Q_CFG_RESV) || decide (s.poolUsed < 256))

/-- Whether a re-evaluation or fill ticket goes before another ticket of Q1 (R129). -/
def urgentBefore (a b : Ticket) : Bool :=
  match a.urgent, b.urgent with
  | some _, none => true
  | some pa, some pb =>
    decide (a.folio < b.folio) ||
      (a.folio == b.folio && (decide (pb < pa) || (pa == pb && decide (a.item < b.item))))
  | _, _ => false

/-- Put a ticket in its place: entry order, but for R129. -/
def placeTicket (k : Ticket) : List Ticket → List Ticket
  | [] => [k]
  | x :: xs => if urgentBefore k x then k :: x :: xs else x :: placeTicket k xs

/-- A ticket enters a queue that has room. -/
def State.enter (s : State) (q : Nat) (k : Ticket) : State :=
  let k := { k with prio := s.fld (Reg.STBL_Q_CFG q) Fl.STBL_Q_CFG_PRIO }
  let s := { s with stbl.queues := Tab.put s.stbl.queues q (placeTicket k (Tab.at s.stbl.queues [] q)) }
  let s := s.bump Reg.STBL_ISSUED
  let peak := max (s.qCount q) (s.fld (Reg.STBL_Q_STAT q) Fl.STBL_Q_STAT_PEAK)
  s.setFld (Reg.STBL_Q_STAT q) Fl.STBL_Q_STAT_PEAK peak

/-- A hardware generator issues a ticket, or waits with it (R493). -/
def State.issue (s : State) (q : Nat) (k : Ticket) : State :=
  let s := { s with dp.issued := s.dp.issued ++ [(k.kind, k.folio, k.item)] }
  let w := Tab.at s.stbl.waiting [] q
  if w.isEmpty && s.room q then s.enter q k
  else { s with stbl.waiting := Tab.put s.stbl.waiting q (placeTicket k w) }

def State.issueAll (s : State) (q : Nat) (ks : List Ticket) : State := ks.foldl (fun s k => s.issue q k) s

/-- Enter waiting tickets while the queue has room. -/
def State.drainWaiting : Nat → State → Nat → State
  | 0, s, _ => s
  | n + 1, s, q =>
    match Tab.at s.stbl.waiting [] q with
    | [] => s
    | k :: ks =>
      if s.room q then
        let s := { s with stbl.waiting := if ks.isEmpty then Tab.del s.stbl.waiting q else Tab.put s.stbl.waiting q ks }
        State.drainWaiting n (s.enter q k) q
      else s

/-- `GENERATOR_RESUME` (R493): the generator of a queue waited `cycles` cycles, and room appears. -/
def execGeneratorResume (q cycles t : Nat) (s : State) : Out :=
  let s := s.atTime t
  let w := Tab.at s.stbl.waiting [] q
  if w.isEmpty then .next s
  else
    let c := s.stbl.waitCyc + cycles
    let s := { s.count Reg.STBL_HW_STALL (c / 1024) with stbl.waitCyc := c % 1024 }
    .next (State.drainWaiting w.length s q)

/-! ### Eligibility (R496, R498) -/

/-- The next sequence to release in a flow. -/
def State.frontier (s : State) (f : Nat) : Nat := Tab.at s.stbl.frontier 0 f

/-- The first unfetched folio (R126): the present slot's, but on a standby whose fetch waits, that folio (R143). -/
def State.unfetched (s : State) : Nat :=
  match s.dp.waitTick with
  | some (n, _) => min n s.slot
  | none => s.slot

/-- A geometry ticket is stale (R498): another epoch, or its folio fetched. -/
def State.stale (s : State) (k : Ticket) : Bool :=
  k.kind == tkGEO &&
    (match Tab.look s.oms.slots k.item with
     | some o => o.epoch != k.epoch || decide (k.folio < s.unfetched)
     | none => true)

/-- Work of a folio of a kind is done: all that was issued has completed. -/
def State.allDone (s : State) (kind folio : Nat) : Bool :=
  (s.dp.issued.filter (fun x => x.1 == kind && x.2.1 == folio)).all (fun x => s.dp.complete.contains x)

def State.itemDone (s : State) (kind folio item : Nat) : Bool := s.dp.complete.contains (kind, folio, item)

/-- The kind under which the root's write of a folio is marked complete. -/
def tkROOT : Nat := 0x40

/-- A lower folio of the same object waits, for its generator too, or lies in a stall (R128). -/
def State.geoBlocked (s : State) (k : Ticket) : Bool :=
  let earlier (j : Ticket) : Bool := j.kind == tkGEO && j.item == k.item && j.epoch == k.epoch && decide (j.folio < k.folio)
  (Tab.at s.stbl.queues [] 1).any earlier || (Tab.at s.stbl.waiting [] 1).any earlier || s.stbl.stall0.any (fun e => earlier e.2.tk) ||
    s.stbl.stall1.any (fun e => earlier e.2.tk)

/-- The item of a tail ticket: the first folio that needs its block (R227), whether it is the block's first ticket, the
class and the group. -/
def tailItem (need first cls grp : Nat) : Nat := (need * 8 + first * 4 + cls) * 32 + grp
def tailNeed (item : Nat) : Nat := item / 256
def tailFirst (item : Nat) : Bool := item / 128 % 2 == 1
def tailClass (item : Nat) : Nat := item / 32 % 4

/-- The chains of every group and the render-domain mixer have completed folio `n` (R191). -/
def State.chainsDone (s : State) (n : Nat) : Bool :=
  s.itemDone tkROOT n 0 && s.itemDone tkMIX n 0 &&
    (s.dp.issued.filter (fun x => x.1 == tkPHA && x.2.1 == n)).all (fun x => s.dp.complete.contains (tkPHB, n, x.2.2))

/-- The internal gates of the hardware flows are open (R491, R496): each kind waits for the work it reads. -/
def State.gateOpen (s : State) (k : Ticket) : Bool :=
  if k.kind = tkGEO then !s.geoBlocked k
  else if k.kind = tkFAB then s.allDone tkINGRESS k.folio && s.allDone tkFAB (k.folio - 1)
  else if k.kind = tkPHA then
    (s.dp.complete.contains (tkROOT, k.folio, 0) && s.itemDone tkMIX k.folio 0 && s.allDone tkINGRESS k.folio)
  else if k.kind = tkHEAD then
    -- every tail block that this folio needs is complete (R227)
    s.itemDone tkPHA k.folio k.item &&
      (s.dp.issued.filter (fun x => x.1 == tkTAIL && x.2.2 % 32 == k.item && decide (tailNeed x.2.2 ≤ k.folio))).all
        (fun x => s.dp.complete.contains x)
  else if k.kind = tkTAIL then
    -- the first ticket of a block waits for phase A of the block's last folio, which slot k.folio + 1 processes
    !tailFirst k.item || s.itemDone tkPHA k.folio (k.item % 32) || decide (k.folio + 1 < s.slot)
  else if k.kind = tkFX then s.allDone tkINGRESS k.folio && (decide (k.item < 16) || s.itemDone tkMIX k.folio 0)
  else if k.kind = tkPHB then s.itemDone tkHEAD k.folio k.item
  else if k.kind = tkMIX then s.allDone tkINGRESS k.folio && s.allDone tkFX (k.folio - 1)
  else if k.kind = tkEGRESS then s.chainsDone k.folio
  else true

/-- A ticket is eligible (R496). -/
def State.eligible (s : State) (k : Ticket) : Bool :=
  s.gateOpen k && (k.gate == 255 || decide (1 ≤ (s.frontier k.gate + 65536 - k.gateSeq) % 65536 ∧
      (s.frontier k.gate + 65536 - k.gateSeq) % 65536 < 32768)) &&
    (k.flow == 255 || decide ((k.seq + 65536 - s.frontier k.flow) % 65536 < 64)) && !s.stale k

/-! ### Completion and flows (R500) -/

/-- The tickets of a flow that are released in a row from sequence `x` on (R500). -/
def releasable : Nat → List HeldTk → Nat → List HeldTk
  | 0, _, _ => []
  | n + 1, held, x =>
    match held.find? (fun h => h.tk.seq == x) with
    | some h => h :: releasable n held ((x + 1) % 65536)
    | none => []

/-- Put a released ticket among those of the same cycle: by engine, then by queue (R505). -/
def orderHeld (h : HeldTk) : List HeldTk → List HeldTk
  | [] => [h]
  | x :: xs => if h.e < x.e ∨ (h.e = x.e ∧ h.q < x.q) then h :: x :: xs else x :: orderHeld h xs

/-- Release the consecutive completed sequences of a flow. -/
def State.advanceFlow (s : State) (f : Nat) : State :=
  let held := Tab.at s.stbl.ahead [] f
  let out := releasable 64 held (s.frontier f)
  if out.isEmpty then s
  else
    let left := held.filter (fun h => !out.contains h)
    let s := { s with
      stbl.frontier := Tab.put s.stbl.frontier f ((s.frontier f + out.length) % 65536)
      stbl.ahead := if left.isEmpty then Tab.del s.stbl.ahead f else Tab.put s.stbl.ahead f left }
    (out.foldr orderHeld []).foldl (fun s h => s.trace evRELEASE h.q h.e h.tk 0 0) s

/-- A completed ticket of an ordered flow is released, or held ahead of the frontier (R500). Flows 0 and 1 are released at
the tick (R501). -/
def State.flowDone (s : State) (q e : Nat) (k : Ticket) : State :=
  if k.flow = 255 then s
  else
    let s := { s with stbl.ahead := Tab.put s.stbl.ahead k.flow (Tab.at s.stbl.ahead [] k.flow ++ [⟨e, q, k⟩]) }
    if k.flow < 2 then s else s.advanceFlow k.flow

/-- Drop a ticket (R498). -/
def State.dropTicket (s : State) (q e : Nat) (k : Ticket) : State :=
  let s := s.bump Reg.STBL_DROP
  let s :=
    if k.folio < s.unfetched then s.bump Reg.GEO_LATE_DONE else s.bump Reg.GEO_STL_DROP
  s.trace evDROP q e k (s.handleOf k.item) 0

/-- Start what stall 0 of an engine holds, dropping a stale ticket (R495, R498); `onStart` is what starting does. -/
def State.startNext (onStart : State → Nat → Ticket → State) : Nat → State → Nat → State
  | 0, s, _ => s
  | n + 1, s, e =>
    if (Tab.look s.stbl.running e).isSome then s
    else
      match Tab.look s.stbl.stall0 e with
      | none => s
      | some x =>
        let s := { s with
          stbl.stall0 := (match Tab.look s.stbl.stall1 e with
            | some y => Tab.put s.stbl.stall0 e y
            | none => Tab.del s.stbl.stall0 e)
          stbl.stall1 := Tab.del s.stbl.stall1 e }
        if s.stale x.tk then State.startNext onStart n (s.dropTicket x.q e x.tk) e
        else
          let s := { s with stbl.running := Tab.put s.stbl.running e { x with since := s.now } }
          onStart s e x.tk

/-- The ticket an engine runs, where it is of one of the given kinds. -/
def State.runningOn (s : State) (e : Nat) (kinds : List Nat) : Option Placed :=
  match Tab.look s.stbl.running e with
  | some x => if kinds.contains x.tk.kind then some x else none
  | none => none

/-- The running ticket of an engine completes: the engine is free, the place in its queue too. -/
def State.finishTicket (s : State) (e : Nat) (x : Placed) : State :=
  let s := { s with stbl.running := Tab.del s.stbl.running e }
  let s := s.bump Reg.STBL_DONE
  let s := { s with dp.complete := s.dp.complete ++ [(x.tk.kind, x.tk.folio, x.tk.item)] }
  let s := s.trace evCOMPLETE x.q e x.tk (s.handleOf x.tk.item) (s.now - x.since)
  s.flowDone x.q e x.tk

/-! ### Filling the stalls (R495, R497) -/

/-- A ticket can go to an engine of a class. -/
def fits (cls e : Nat) (k : Ticket) : Bool := k.cls == cls && (k.eng == 255 || k.eng == e)

/-- Work of the mixer on D0, which has priority over D1's and D2's (R288). -/
def Ticket.mixD0 (k : Ticket) : Bool := k.kind == tkMIX && k.item == 0

/-- The first eligible ticket for an engine among the first four of a queue that have its class; of the mixer's, D0's first. -/
def State.pickFrom (s : State) (cls e q : Nat) : Option Ticket :=
  let ks := (((Tab.at s.stbl.queues [] q).filter (fits cls e)).take 4).filter (fun k => s.eligible k)
  (ks.find? Ticket.mixD0).or ks.head?

/-- Queue priorities, from highest. -/
def State.prio (s : State) (q : Nat) : Nat := s.fld (Reg.STBL_Q_CFG q) Fl.STBL_Q_CFG_PRIO

/-- Queues in the order they are served for a class: by priority, and round-robin among equals (R495). -/
def State.serveOrder (s : State) (cls : Nat) : List Nat :=
  let from' := Tab.at s.stbl.served 63 cls
  let ring := (List.range 64).map (fun i => (from' + 1 + i) % 64)
  (List.range 8).flatMap (fun p => ring.filter (fun q => s.prio q == 7 - p))

/-- The ticket that the Stable places next for an engine: its queue and itself. -/
def State.pick (s : State) (cls e : Nat) : Option (Nat × Ticket) :=
  (s.serveOrder cls).findSome? (fun q => (s.pickFrom cls e q).map (fun k => (q, k)))

/-- Whether an engine can be given tickets: present, its domain ON, its unit not draining (R494, R499, R635). -/
def State.engineOn (s : State) (e : Nat) : Bool :=
  enginePresent s.otp.grade e && (s.domState (engineDomain e) == pON || engineDomain e == dAON)

/-- No engine of a class that is ON has room in its stalls (R630). -/
def State.classFull (s : State) (cls : Nat) : Bool :=
  (classEngines cls).all (fun e => !s.engineOn e || ((Tab.look s.stbl.stall0 e).isSome && (Tab.look s.stbl.stall1 e).isSome))

/-- An eligible ticket wants an engine of domain `d` (R630): where any of its class would do, none that is ON has room. -/
def State.ticketWakes (s : State) (d : Nat) : Bool :=
  s.stbl.queues.any (fun q => q.2.any (fun k => s.eligible k &&
    (if k.eng = 255 then s.classFull k.cls && (classEngines k.cls).any (fun e => engineDomain e == d && enginePresent s.otp.grade e)
     else engineDomain k.eng == d)))

/-- `DOMAIN_WAKE` (R630, R631). `src`: 0 a ticket that waits for an engine of the domain, 1 a request to DRAM, 2 any
source of R631. -/
def execDomainWake (d src t : Nat) (s : State) : Out :=
  let s := s.atTime t
  if s.mode = mSAFE ∨ s.mode = mHALT then .next s
  else if src = 0 then .next (if s.ticketWakes d then s.wake d false else s)
  else if src = 1 then (if d = dDRAM then .next (s.wake d false) else .next s)
  else .next (s.wake d true)

/-- Remove the first ticket equal to `k` from a list. -/
def removeTicket (k : Ticket) : List Ticket → List Ticket
  | [] => []
  | x :: xs => if x = k then xs else x :: removeTicket k xs

/-- Take a ticket out of its queue. -/
def State.unqueue (s : State) (q : Nat) (k : Ticket) : State :=
  let l := removeTicket k (Tab.at s.stbl.queues [] q)
  { s with stbl.queues := if l.isEmpty then Tab.del s.stbl.queues q else Tab.put s.stbl.queues q l }

/-- Place a ticket in the first empty stall of an engine. -/
def State.placeIn (s : State) (e q : Nat) (k : Ticket) : State :=
  let x : Placed := ⟨q, k, s.now⟩
  let s := { s.unqueue q k with stbl.served := Tab.put s.stbl.served k.cls q }
  let s :=
    match Tab.look s.stbl.stall0 e with
    | some y =>
      -- D0 goes ahead of D1 and D2 (R288)
      if k.mixD0 && y.tk.kind == tkMIX && !y.tk.mixD0 then
        { s with stbl.stall0 := Tab.put s.stbl.stall0 e x, stbl.stall1 := Tab.put s.stbl.stall1 e y }
      else { s with stbl.stall1 := Tab.put s.stbl.stall1 e x }
    | none => { s with stbl.stall0 := Tab.put s.stbl.stall0 e x }
  s.trace evDISPATCH q e k (s.handleOf k.item) 0

/-- Drop the stale tickets among those a fill looks at (R498). -/
def State.sweepStale (s : State) (cls : Nat) : State :=
  if cls = 1 then
    ((Tab.at s.stbl.queues [] 1).filter (fun k => s.stale k)).foldl
      (fun s k => (s.unqueue 1 k).dropTicket 1 255 k) s
  else s

/-- Return the ticket of stall 1 to the head of its queue for one of higher priority (R497). -/
def State.displace (s : State) (e : Nat) : State :=
  match Tab.look s.stbl.stall1 e with
  | none => s
  | some y =>
    match s.pick y.tk.cls e with
    | some (q, _) =>
      if s.prio y.q < s.prio q then
        let s := { s with
          stbl.stall1 := Tab.del s.stbl.stall1 e
          stbl.queues := Tab.put s.stbl.queues y.q (y.tk :: Tab.at s.stbl.queues [] y.q) }
        (s.bump Reg.STBL_DISPLACE).trace evDISPLACE y.q e y.tk (s.handleOf y.tk.item) 0
      else s
    | none => s

/-- Markers complete when they are dispatched (R491). -/
def State.runMarkers (s : State) : State :=
  (List.range 64).foldl
    (fun s q =>
      match (Tab.at s.stbl.queues [] q).find? (fun k => k.kind == tkMARK && s.eligible k) with
      | some k =>
        let s := ((s.unqueue q k).trace evDISPATCH q 255 k 0 0).bump Reg.STBL_DONE
        (s.trace evCOMPLETE q 255 k 0 0).flowDone q 255 k
      | none => s) s

/-- `STALL_FILL` for a class (R495): one ticket is placed, in the first engine that has an empty stall, or one is
displaced where none has. -/
def State.fill (onStart : State → Nat → Ticket → State) (s : State) (cls : Nat) : State :=
  if cls = 15 then s.runMarkers
  else
    let s := s.sweepStale cls
    let es := (classEngines cls).filter (fun e => s.engineOn e)
    let empty := es.filter (fun e => (Tab.look s.stbl.stall0 e).isNone || (Tab.look s.stbl.stall1 e).isNone)
    match empty.findSome? (fun e => (s.pick cls e).map (fun x => (e, x))) with
    | some (e, q, k) => State.startNext onStart 3 (s.placeIn e q k) e
    | none => if empty.isEmpty then es.foldl (fun s e => s.displace e) s else s

/-- Fill tickets are squashed: the tickets of an object are dropped from the stalls at once (R498). -/
def State.sweepStalls (s : State) : State :=
  let drop (s : State) (e : Nat) : State :=
    let s :=
      match Tab.look s.stbl.stall1 e with
      | some y => if s.stale y.tk then ({ s with stbl.stall1 := Tab.del s.stbl.stall1 e }).dropTicket y.q e y.tk else s
      | none => s
    match Tab.look s.stbl.stall0 e with
    | some x =>
      if s.stale x.tk then
        let s := { s with
          stbl.stall0 := (match Tab.look s.stbl.stall1 e with
            | some y => Tab.put s.stbl.stall0 e y
            | none => Tab.del s.stbl.stall0 e)
          stbl.stall1 := Tab.del s.stbl.stall1 e }
        s.dropTicket x.q e x.tk
      else s
    | none => s
  [1, 2, 3, 4].foldl drop s

/-- A ticket waits for an engine: in a queue, with its generator, or in a stall. -/
def State.unbegun (s : State) (k : Ticket) : Bool :=
  s.stbl.queues.any (fun e => e.2.contains k) || s.stbl.waiting.any (fun e => e.2.contains k) ||
    s.stbl.stall0.any (fun e => e.2.tk == k) || s.stbl.stall1.any (fun e => e.2.tk == k)

/-- Take away the tickets of a kind that satisfy a test and have not begun. -/
def State.cancelTickets (s : State) (p : Ticket → Bool) : State :=
  let keep (l : List Ticket) : List Ticket := l.filter (fun k => !p k)
  let lists (t : Tab (List Ticket)) : Tab (List Ticket) :=
    (t.map (fun (e : Nat × List Ticket) => (e.1, keep e.2))).filter (fun e => !e.2.isEmpty)
  let all := s.stbl.stall0.map (·.1)
  let s1 := s.stbl.stall1.filter (fun e => !p e.2.tk)
  let s0 := s.stbl.stall0.filter (fun e => !p e.2.tk)
  -- a stall 1 whose engine's stall 0 has emptied moves up
  let up := s1.filter (fun e => all.contains e.1 && (Tab.look s0 e.1).isNone)
  { s with
    stbl.queues := lists s.stbl.queues
    stbl.waiting := lists s.stbl.waiting
    stbl.stall0 := up.foldl (fun t e => Tab.put t e.1 e.2) s0
    stbl.stall1 := s1.filter (fun e => !up.contains e) }

/-- The tickets a reset unit holds or runs are dropped (R606). -/
def State.dropEngine (s : State) (e : Nat) : State :=
  { s with
    stbl.running := Tab.del s.stbl.running e
    stbl.stall0 := Tab.del s.stbl.stall0 e
    stbl.stall1 := Tab.del s.stbl.stall1 e }

end Sys2Proof.Machine
end

