-- ==== Sys2Proof/Machine/Objects.lean ====
section
/-!
DEFINITION. The trajectory and state of an object at a folio boundary (R52, R55, R61 to R63, R75, R130), and when it needs
frames (R126).
-/

namespace Sys2Proof.Machine

/-- Attributes after `OBJ_CONFIG` or `RELEASE` (R45). -/
def Attr.init : Attr := ⟨0, 0, 128, 0, 1000, 0xFFFF, 0xFFFF, 0, 20000⟩

/-- State of an object that no update has touched (R50, R52). Gain 0 dB, spread 0 and size 0 stand where the spec states no
initial value (notes/assumptions/31). -/
def ObjState.init : ObjState := ⟨false, [], 0, 0, 0, Attr.init⟩

/-- Silence: the binding of a slot that none has been bound to. -/
def Binding.none : Binding := ⟨0, 0, 0, -32768⟩

/-! ### Applying updates -/

/-- Place a position target: targets stand in boundary order, at most two after the last segment, and a segment of the
same record keeps the record's trajectory (R61; notes/assumptions/32). -/
def addPose (ts : List Track) (t : Track) : List Track :=
  if ts.any (fun x => x.seg.isSome && x.bnd == t.bnd) then ts
  else
    let others := ts.filter (fun x => x.seg.isNone && x.bnd != t.bnd)
    let before := others.filter (fun x => decide (x.bnd < t.bnd))
    let after := others.filter (fun x => decide (t.bnd < x.bnd))
    newest 2 (before ++ [t] ++ after)

/-- Apply an update at its target boundary. -/
def applyUpd (st : ObjState) (bnd : Nat) (u : Update) : ObjState :=
  match u.body with
  | .pose pos gain spread size =>
    { st with
      tracks := (match pos with | some p => addPose st.tracks ⟨bnd, u.ts, p, none⟩ | none => st.tracks)
      gain := gain.getD st.gain
      spread := spread.getD st.spread
      size := size.getD st.size }
  | .segment g => { st with tracks := [⟨bnd, u.ts, g.p, some g⟩] }
  | .attr a => { st with attr := a }
  | .activate => { st with active := true, tracks := [] }
  | .release => ObjState.init
  | .input _ => st

/-- Apply the updates of a record in order of acceptance. -/
def applyUps (st : ObjState) (bnd : Nat) (us : List Update) : ObjState := us.foldl (fun st u => applyUpd st bnd u) st

/-- Pending updates with their boundaries, restricted to those visible to folio `n` (R130), with one more put in last. -/
def Slot.visible (o : Slot) (n : Option Nat) (extra : Option (Nat × Update)) : List PRec :=
  let keep (r : PRec) : PRec :=
    { r with ups := r.ups.filter (fun u => match n with | some n => decide (u.vis ≤ n) | none => true) }
  let base := o.pend.map keep
  match extra with
  | none => base
  | some (b, u) =>
    if base.any (fun r => r.bnd == b) then
      base.map (fun r => if r.bnd = b then { r with ups := r.ups ++ [u] } else r)
    else
      base.filter (fun r => decide (r.bnd < b)) ++ [⟨b, [u]⟩] ++ base.filter (fun r => decide (b < r.bnd))

/-- State at a boundary: the applied state with every record up to it. -/
def stateAt (app : ObjState) (rs : List PRec) (b : Nat) : ObjState :=
  (rs.filter (fun r => decide (r.bnd ≤ b))).foldl (fun st r => applyUps st r.bnd r.ups) app

/-- Whether a record ends the run of position targets. -/
def PRec.resets (r : PRec) : Bool :=
  r.ups.any (fun u => match u.body with | .segment _ => true | .activate => true | .release => true | _ => false)

/-- The position a record sets, if any: its last. -/
def PRec.posTarget (r : PRec) : Option P3 :=
  r.ups.foldl (fun acc u => match u.body with | .pose (some p) _ _ _ => some p | _ => acc) none

/-- The next position target after a boundary, before any record that ends the run (R61, rule 2). -/
def nextTarget : List PRec → Option (Nat × P3)
  | [] => none
  | r :: rs =>
    if r.resets then none
    else
      match r.posTarget with
      | some p => some (r.bnd, p)
      | none => nextTarget rs

/-! ### Positions (R61, R62) -/

/-- A position in binary32. -/
def P3.f (p : P3) : V3 := V3.ofInts p.x p.y p.z

/-- Trajectory parameters: folio size, rate, `OMS_VEL.GAP_MS`, `OMS_CFG.POSE_RUN`. -/
structure TrackCfg where
  f : Nat
  fs : Nat
  gapMs : Nat
  poseRun : Nat

/-- Rule 1: position on a segment. -/
def segPos (c : TrackCfg) (bnd ts : Nat) (g : Seg) (b : Nat) : V3 :=
  let b := if g.dur = 0 then b else min b (bnd + g.dur * c.f)
  let tau := (F32.ofInt ((b : Int) - ts)).div (F32.ofInt c.fs)
  let half := F32.ofRat 1 2
  let t2 := tau.mul tau
  let one (p v a : Int) : F32 :=
    ((F32.ofInt p).add ((F32.ofInt v).mul tau)).add ((half.mul (F32.ofInt a)).mul t2)
  ⟨one g.p.x g.v.x g.a.x, one g.p.y g.v.y g.a.y, one g.p.z g.v.z g.a.z⟩

/-- Rule 2: between two targets. -/
def lerpPos (b0 : Nat) (p0 : P3) (b1 : Nat) (p1 : P3) (b : Nat) : V3 :=
  let r := (F32.ofInt ((b : Int) - b0)).div (F32.ofInt ((b1 : Int) - b0))
  let one (a c : Int) : F32 := (F32.ofInt a).add ((F32.ofInt (c - a)).mul r)
  ⟨one p0.x p1.x, one p0.y p1.y, one p0.z p1.z⟩

/-- Rule 3: beyond the newest target. -/
def runPos (c : TrackCfg) (t1 t2 : Track) (b : Nat) : V3 :=
  let dt : Int := (t2.ts : Int) - t1.ts
  if dt ≤ 0 ∨ (c.gapMs * c.fs : Nat) < dt * 1000 then t2.pos.f
  else
    let fs := F32.ofInt c.fs
    let sec := (F32.ofInt dt).div fs
    let e := (F32.ofInt ((min b (t2.bnd + c.poseRun * c.f) : Nat) - (t2.bnd : Int)))
    let one (p1 p2 : Int) : F32 := (F32.ofInt p2).add ((((F32.ofInt (p2 - p1)).div sec).mul e).div fs)
    ⟨one t1.pos.x t2.pos.x, one t1.pos.y t2.pos.y, one t1.pos.z t2.pos.z⟩

/-- The position at boundary `b`, from the targets up to it and the records after it. -/
def posAt (c : TrackCfg) (tracks : List Track) (later : List PRec) (b : Nat) : Option V3 :=
  match tracks.getLast? with
  | none => none
  | some t2 =>
    match t2.seg with
    | some g => some (segPos c t2.bnd t2.ts g b)
    | none =>
      if b ≤ t2.bnd then some t2.pos.f
      else
        match nextTarget later with
        | some (b1, p1) => some (lerpPos t2.bnd t2.pos b1 p1 b)
        | none =>
          match tracks with
          | [t1, _] => some (runPos c t1 t2 b)
          | _ => some t2.pos.f

/-- Clamp a coordinate to ±10 000 000 mm, and whether it was clamped (R62). -/
def clampCoord (x : F32) : F32 × Bool :=
  let m := F32.ofInt 10000000
  if m.lt x then (m, true) else if x.lt m.neg then (m.neg, true) else (x, false)

def clampPos (p : V3) : V3 × Bool :=
  let (x, a) := clampCoord p.x
  let (y, b) := clampCoord p.y
  let (z, c) := clampCoord p.z
  (⟨x, y, z⟩, a || b || c)

def State.trackCfg (s : State) : TrackCfg :=
  ⟨s.folioLen, s.fs, max 1 (s.fld Reg.OMS_VEL Fl.OMS_VEL_GAP_MS), s.fld Reg.OMS_CFG Fl.OMS_CFG_POSE_RUN⟩

/-- State and clamped position of an object at the closing boundary of folio `n`, from what is visible to that folio. -/
def State.objAt (s : State) (o : Slot) (n : Nat) (extra : Option (Nat × Update)) : ObjState × Option V3 × Bool :=
  let b := (n + 1) * s.folioLen
  let rs := o.visible (some n) extra
  let st := stateAt o.app rs b
  if st.active then
    match posAt s.trackCfg st.tracks (rs.filter (fun r => decide (b < r.bnd))) b with
    | some p =>
      let (p, c) := clampPos p
      (st, some p, c)
    | none => (st, none, false)
  else (st, none, false)

/-! ### When frames are needed (R126) -/

/-- The object is active at a boundary, or a `RELEASE` applies, or has just applied, exactly there. -/
def Slot.needsAt (o : Slot) (b : Nat) : Bool :=
  let st := stateAt o.app (o.visible none none) b
  let prev := stateAt o.app ((o.visible none none).filter (fun r => decide (r.bnd < b))) b
  st.active || o.relAt == some b ||
    (prev.active && o.pend.any (fun r => r.bnd == b && r.ups.any (fun u => u.body == .release)))

/-- The object needs a frame for folio `n`. -/
def State.needsFrame (s : State) (o : Slot) (n : Nat) : Bool := o.needsAt ((n + 1) * s.folioLen)

def State.slotAt (s : State) (k : Nat) : Option Slot := Tab.look s.oms.slots k

def State.setSlot (s : State) (k : Nat) (o : Slot) : State := { s with oms.slots := Tab.put s.oms.slots k o }

end Sys2Proof.Machine
end

