-- ==== Sys2Proof/Machine/Mesh.lean ====
section
/-!
DEFINITION. Exact geometry over the layout's integer coordinates: the direction index of R90 and the fitted lines and planes of R83
and R96.
-/

namespace Sys2Proof

/-- The axis or normal where the least-squares fit of R96 has no single answer (notes/assumptions/33). -/
opaque Config.arrayFit : Bool → List (Int × Int × Int) → V3

end Sys2Proof

namespace Sys2Proof.Machine

/-! ### Integer vectors -/

def P3.zero : P3 := ⟨0, 0, 0⟩
def P3.tup (p : P3) : Int × Int × Int := (p.x, p.y, p.z)
def crossI (a b : P3) : P3 := ⟨a.y * b.z - a.z * b.y, a.z * b.x - a.x * b.z, a.x * b.y - a.y * b.x⟩
def addI (a b : P3) : P3 := ⟨a.x + b.x, a.y + b.y, a.z + b.z⟩
def subI (a b : P3) : P3 := ⟨a.x - b.x, a.y - b.y, a.z - b.z⟩
def mulI (k : Int) (a : P3) : P3 := ⟨k * a.x, k * a.y, k * a.z⟩
def dotI (a b : P3) : Int := a.x * b.x + a.y * b.y + a.z * b.z
/-- Squared length: of a position, the squared distance from the reference point. -/
def P3.sq (p : P3) : Int := dotI p p

/-! ### Cells of the direction index (R90) -/

/-- Sine and cosine of azimuth `k · 5.625°`, with 100 fraction bits; x = y at 45° exactly. -/
def azSinCos (k : Nat) : Int × Int :=
  let s (j : Nat) : Int := if j = 16 then fxOne else fxSin (rndDiv (fxPi * j) 32)
  let j := k % 16
  match k / 16 % 4 with
  | 0 => (s j, s (16 - j))
  | 1 => (s (16 - j), -(s j))
  | 2 => (-(s j), -(s (16 - j)))
  | _ => (-(s (16 - j)), s j)

/-- Positive where a direction lies less than half a turn past azimuth `k · 5.625°`, 0 on it, opposite it, and on the axis. -/
def azSide (k : Nat) (x y : Int) : Int :=
  let c := azSinCos k
  x * c.2 - y * c.1

/-- The azimuth cell of a horizontal direction: 0 on the axis. -/
def azCell (x y : Int) : Nat :=
  if x = 0 ∧ y = 0 then 0
  else ((List.range 64).find? (fun k => decide (0 ≤ azSide k x y) && decide (azSide (k + 1) x y < 0))).getD 0

/-- The cell of a unit direction: azimuth and elevation. The components are binary32 numbers, brought to one exponent. -/
def cellOf (u : V3) : Nat × Nat :=
  let e := min u.x.ex u.y.ex
  (azCell (u.x.man * 2 ^ (u.x.ex - e).toNat) (u.y.man * 2 ^ (u.y.ex - e).toNat),
   min 63 (((u.z.add F32.one).mul (F32.ofInt 32)).floor.toNat))

/-- The part of a spherical polygon, given by its corners, on the side of a plane through the z axis. -/
def clipSide (f : P3 → Int) (ps : List P3) : List P3 :=
  ((ps.zip (ps.drop 1 ++ ps.take 1)).flatMap (fun e =>
    let a := f e.1
    let b := f e.2
    let cut : List P3 := if (0 < a ∧ b < 0) ∨ (a < 0 ∧ 0 < b) then [subI (mulI a.natAbs e.2) (mulI (-(b.natAbs : Int)) e.1)] else []
    (if 0 ≤ a then [e.1] else []) ++ cut))

/-- Compare a direction's sine of elevation with `(k − 32)/32`: negative, zero or positive. -/
def elevSide (k : Nat) (p : P3) : Int :=
  let t : Int := (k : Int) - 32
  let sq (v : Int) : Int := v * v.natAbs
  1024 * sq p.z - sq t * p.sq

/-- The highest and the lowest direction of an edge's great circle, where they lie on the edge. -/
def edgePeaks (a b : P3) : List P3 :=
  let n := crossI a b
  let h := subI ⟨0, 0, n.sq⟩ (mulI n.z n)
  [h, mulI (-1) h].filter (fun q => decide (0 < q.sq) && decide (0 ≤ dotI (crossI a q) n) && decide (0 ≤ dotI (crossI q b) n))

/-- A direction lies in a triangle's patch, boundary included. -/
def inPatch (a b c q : P3) : Bool :=
  let d := dotI a (crossI b c)
  let g (v : Int) : Bool := if 0 ≤ d then decide (0 ≤ v) else decide (v ≤ 0)
  g (dotI q (crossI b c)) && g (dotI q (crossI c a)) && g (dotI q (crossI a b))

/-- A triangle's patch meets a cell, boundaries included: the patch is clipped to the cell's azimuths, and what is left, being connected,
reaches the cell's elevations where it reaches down to their upper limit and up to their lower. -/
def meetsCell (a b c : P3) (az el : Nat) : Bool :=
  let ps := clipSide (fun p => -(azSide (az + 1) p.x p.y)) (clipSide (fun p => azSide az p.x p.y) [a, b, c])
  let peaks := (ps.zip (ps.drop 1 ++ ps.take 1)).flatMap (fun e => edgePeaks e.1 e.2)
  let poles := [(⟨0, 0, 1⟩ : P3), ⟨0, 0, -1⟩].filter (inPatch a b c)
  let all := ps ++ peaks ++ poles
  all.any (fun p => decide (0 ≤ elevSide el p)) && all.any (fun p => decide (elevSide (el + 1) p ≤ 0))

/-! ### Fits (R83, R96) -/

/-- A symmetric 3 × 3 matrix of integers. -/
structure Sym3 where
  xx : Int
  yy : Int
  zz : Int
  xy : Int
  xz : Int
  yz : Int

/-- The scatter of points about their centroid, times their number. -/
def scatter (ps : List P3) : Sym3 :=
  let n : Int := ps.length
  let s := ps.foldl addI P3.zero
  let m (f g : P3 → Int) : Int := n * (ps.map (fun p => f p * g p)).sum - f s * g s
  ⟨m (·.x) (·.x), m (·.y) (·.y), m (·.z) (·.z), m (·.x) (·.y), m (·.x) (·.z), m (·.y) (·.z)⟩

/-- The adjugate: its dominant direction is that of least scatter. -/
def Sym3.adj (a : Sym3) : Sym3 :=
  ⟨a.yy * a.zz - a.yz * a.yz, a.xx * a.zz - a.xz * a.xz, a.xx * a.yy - a.xy * a.xy, a.xz * a.yz - a.xy * a.zz,
   a.xy * a.yz - a.xz * a.yy, a.xy * a.xz - a.yz * a.xx⟩

def Sym3.sqr (a : Sym3) : Sym3 :=
  ⟨a.xx * a.xx + a.xy * a.xy + a.xz * a.xz, a.xy * a.xy + a.yy * a.yy + a.yz * a.yz, a.xz * a.xz + a.yz * a.yz + a.zz * a.zz,
   a.xx * a.xy + a.xy * a.yy + a.xz * a.yz, a.xx * a.xz + a.xy * a.yz + a.xz * a.zz, a.xy * a.xz + a.yy * a.yz + a.yz * a.zz⟩

/-- Keep 200 bits of the largest entry. -/
def Sym3.trim (a : Sym3) : Sym3 :=
  let k := (a.xx + a.yy + a.zz).natAbs.log2 - 200
  let t (v : Int) : Int := v / 2 ^ k
  ⟨t a.xx, t a.yy, t a.zz, t a.xy, t a.xz, t a.yz⟩

/-- The power `2^k` of a matrix, scaled. -/
def Sym3.power : Nat → Sym3 → Sym3
  | 0, a => a
  | k + 1, a => Sym3.power k a.sqr.trim

/-- The dominant direction of a matrix of positive diagonal: the column of the largest diagonal entry of a high power; none where there is
no scatter. -/
def Sym3.dominant (a : Sym3) : Option P3 :=
  let m := Sym3.power 14 a.trim
  if m.xx + m.yy + m.zz ≤ 0 then none
  else if m.yy ≤ m.xx ∧ m.zz ≤ m.xx then some ⟨m.xx, m.xy, m.xz⟩
  else if m.zz ≤ m.yy then some ⟨m.xy, m.yy, m.yz⟩
  else some ⟨m.xz, m.yz, m.zz⟩

/-- An integer direction as a unit vector in binary32. -/
def P3.unit (p : P3) : V3 :=
  let n : Int := isqrt p.sq.toNat
  let one (v : Int) : F32 := F32.ofFx 6 (fxDiv v n) 0
  ⟨one p.x, one p.y, one p.z⟩

/-- The least-squares line's direction, from the first point toward the last (R96). -/
def fitAxis (ps : List P3) : V3 :=
  match (scatter ps).dominant with
  | some d => (if dotI d (subI (ps.getLastD P3.zero) (ps.headD P3.zero)) < 0 then mulI (-1) d else d).unit
  | none => Config.arrayFit false (ps.map P3.tup)

/-- The least-squares plane's normal, toward the reference point (R96). -/
def fitNormal (ps : List P3) : V3 :=
  match (scatter ps).adj.dominant with
  | some d => (if 0 < dotI d (ps.foldl addI P3.zero) then mulI (-1) d else d).unit
  | none => Config.arrayFit true (ps.map P3.tup)

end Sys2Proof.Machine
end

