-- ==== Sys2Proof/Machine/Panning.lean ====
section
/-!
DEFINITION. The panning laws: from an object's state at a boundary to its gain frame (Geometry Engines and Panning Laws,
R87 to R110), in binary32 (R77).
-/

namespace Sys2Proof.Machine

/-! ### Frame flags (R109) -/

def ffQUOTA : Nat := 0
def ffDCLAMP : Nat := 1
def ffMESH_OUT : Nat := 2
def ffFALLBACK : Nat := 3
def ffEMPTY : Nat := 4
def ffWF_FRONT : Nat := 5
def ffNEAR : Nat := 6

/-! ### The layout -/

def Layout.spk (l : Layout) (i : Nat) : Speaker := nth l.speakers i ⟨⟨0, 0, 0⟩, false, true, 0⟩

/-- No layout: no speaker is eligible (R86, R102). -/
def noLayout : Layout := ⟨0, 0, 0, [], [], []⟩

/-- Zone bits of a speaker: none means zone 0 (R79). -/
def Speaker.zoneBits (x : Speaker) : Nat := if x.zones = 0 then 1 else x.zones

/-- A speaker is disabled, by its load flag or by command (R87, R122). -/
def RCfg.spkDisabled (c : RCfg) (i : Nat) (x : Speaker) : Bool := Tab.at c.plan.spkOver x.disabled i

def RCfg.outConf (c : RCfg) (o : Nat) : Bool := c.flag (Reg.OUT_CFG o) Fl.OUT_CFG_CONF

/-- A speaker is eligible for an object (R87), SUB speakers apart. -/
def RCfg.usable (c : RCfg) (l : Layout) (a : Attr) (i : Nat) : Bool :=
  let x := l.spk i
  decide (i < l.speakers.length) && c.outConf i && !c.spkDisabled i x && (x.zoneBits &&& a.zoneIncl) != 0 &&
    (x.zoneBits &&& a.zoneExcl) == 0

/-- The eligible FULL speakers. -/
def RCfg.fulls (c : RCfg) (l : Layout) (a : Attr) : List Nat :=
  (List.range l.speakers.length).filter (fun i => c.usable l a i && !(l.spk i).sub)

/-- The speaker of a list nearest to a point, ties to the lower index (R101). -/
def nearestSpk (l : Layout) (p : V3) (is : List Nat) : Option Nat :=
  (is.foldl
    (fun (best : Option (Nat × F32)) i =>
      let d := (V3.sub p (l.spk i).pos.f).norm
      match best with
      | none => some (i, d)
      | some (_, bd) => if d.lt bd then some (i, d) else best) none).map (·.1)

/-- What a panning law gives: speakers with their raw gains in ascending index, flags, and the position that later steps
use. -/
structure Pan where
  raws : List (Nat × F32)
  flags : Nat
  pos : V3

def flagBit (k : Nat) : Nat := 2 ^ k

/-- The nearest eligible speaker takes the whole signal (R94, R95, R101), or the frame is empty (R102). -/
def panNearest (l : Layout) (full : List Nat) (p : V3) (flags : Nat) (count : Bool) : Pan :=
  match nearestSpk l p full with
  | some i => ⟨[(i, F32.one)], flags ||| (if count then flagBit ffFALLBACK else 0), p⟩
  | none => ⟨[], flags ||| flagBit ffEMPTY, p⟩

/-! ### Mesh panning -/

/-- Unit direction of a speaker. -/
def Layout.dir (l : Layout) (i : Nat) : V3 := (l.spk i).pos.f.normalise

/-- The determinant of a triangle's direction matrix (R83, R90). -/
def Layout.triDet (l : Layout) (t : Nat × Nat × Nat) : F32 := (l.dir t.1).dot ((l.dir t.2.1).cross (l.dir t.2.2))

/-- Gains of a direction in a triangle: u · L⁻¹ (R90). -/
def Layout.triGains (l : Layout) (t : Nat × Nat × Nat) (u : V3) : F32 × F32 × F32 :=
  let a := l.dir t.1
  let b := l.dir t.2.1
  let c := l.dir t.2.2
  let inv := F32.one.div (l.triDet t)
  (u.dot ((b.cross c).smul inv), u.dot ((c.cross a).smul inv), u.dot ((a.cross b).smul inv))

/-- −2⁻¹². -/
def meshEps : F32 := F32.ofRat (-1) 4096

def min3 (g : F32 × F32 × F32) : F32 := (g.1.minF g.2.1).minF g.2.2

/-- A cell lists a triangle (R90, step 2). -/
def Layout.listed (l : Layout) (cell : Nat × Nat) (t : Nat × Nat × Nat) : Bool :=
  meetsCell (l.spk t.1).pos (l.spk t.2.1).pos (l.spk t.2.2).pos cell.1 cell.2

/-- The triangle for a direction (R90, R91), its gains, and whether the direction lies outside the mesh: only the triangles listed for the
direction's cell can contain it. -/
def Layout.findTri (l : Layout) (u : V3) : Option ((Nat × Nat × Nat) × (F32 × F32 × F32) × Bool) :=
  let gs := l.tris.map (fun t => (t, l.triGains t u))
  match gs.find? (fun x => l.listed (cellOf u) x.1 && meshEps.le (min3 x.2)) with
  | some (t, g) => some (t, g, false)
  | none =>
    (gs.foldl
      (fun (best : Option ((Nat × Nat × Nat) × (F32 × F32 × F32))) x =>
        match best with
        | none => some x
        | some y => if (min3 y.2).lt (min3 x.2) then some x else best) none).map (fun x => (x.1, x.2, true))

/-- Power-normalise three gains, negative ones set to 0 (R90, R91, R93). -/
def triNorm (g : F32 × F32 × F32) : F32 × F32 × F32 :=
  let z (x : F32) : F32 := x.maxF F32.zero
  let (a, b, c) := (z g.1, z g.2.1, z g.2.2)
  let n := (((a.mul a).add (b.mul b)).add (c.mul c)).sqrt
  if n.isZero then (F32.zero, F32.zero, F32.zero) else (a.div n, b.div n, c.div n)

/-- Effective spread in degrees (R92). -/
def spreadEff (spread size : Nat) (d : F32) (dmin : Nat) : F32 :=
  let full := F32.ofInt 180
  let tSize :=
    if d.isZero then full
    else if size = 0 then F32.zero
    else (F32.ofInt 2).mul (F32.atanDeg ((F32.ofInt size).div ((F32.ofInt 2).mul d)))
  let tNear := full.mul (F32.one.sub (d.div (F32.ofInt dmin)))
  (((F32.ofRat spread 100).maxF tSize).maxF tNear).minF full

/-- The virtual sources (R93). -/
def virtualSources (u : V3) (s : F32) : List V3 :=
  if s.isZero then [u]
  else
    let e := if (F32.cosTurn 1 360).lt u.z.abs then V3.plusY else V3.ofInts 0 0 1
    let e1 := (e.cross u).normalise
    let e2 := u.cross e1
    let th := s.div (F32.ofInt 2)
    u :: (List.range 7).map (fun (k : Nat) =>
      (u.smul th.cosDeg).add (((e1.smul (F32.cosTurn k 7)).add (e2.smul (F32.sinTurn k 7))).smul th.sinDeg))

/-- Sum a gain into a table of speakers. -/
def addGain (t : Tab F32) (i : Nat) (g : F32) : Tab F32 := Tab.put t i ((Tab.at t F32.zero i).add g)

/-- Mesh panning (R90 to R94). Where every gain is 0 and no speaker is eligible, the frame carries EMPTY and no FALLBACK
(notes/assumptions/33). -/
def panMesh (c : RCfg) (l : Layout) (e : Eval) (p : V3) (flags : Nat) : Pan :=
  let dmin := max 1 (c.fld Reg.GEO_NEAR Fl.GEO_NEAR_DMIN_MM)
  let full := c.fulls l e.attr
  let srcs := virtualSources e.dir (spreadEff e.spread e.size p.norm dmin)
  let found := srcs.filterMap (fun v => l.findTri v)
  let flags := if found.any (fun x => x.2.2) then flags ||| flagBit ffMESH_OUT else flags
  let sum := found.foldl
    (fun t x =>
      let g := triNorm x.2.1
      addGain (addGain (addGain t x.1.1 g.1) x.1.2.1 g.2.1) x.1.2.2 g.2.2) []
  let raws := sum.filter (fun x => full.contains x.1 && F32.zero.lt x.2)
  if raws.isEmpty then panNearest l full p flags true else ⟨raws, flags, p⟩

/-! ### Distance and direct panning -/

/-- Distance panning (R95). -/
def panDistance (c : RCfg) (l : Layout) (e : Eval) (p : V3) : Pan :=
  let full := c.fulls l e.attr
  let beta := ((F32.ofInt e.size).div (F32.ofInt 2)).maxF (F32.ofInt (max 1 (c.fld Reg.GEO_NEAR Fl.GEO_NEAR_DBLUR_MM)))
  let near := full.filterMap (fun i =>
    let d := (V3.sub p (l.spk i).pos.f).norm
    if d.le (F32.ofInt e.attr.radius) then
      let d' := ((d.mul d).add (beta.mul beta)).sqrt
      some (i, d'.invMilli e.attr.rolloff)
    else none)
  if near.isEmpty then panNearest l full p 0 true else ⟨near, 0, p⟩

/-- Direct panning (R101). -/
def panDirect (c : RCfg) (l : Layout) (e : Eval) (p : V3) : Pan :=
  let k := e.attr.speaker
  if k ≠ 0xFFFF ∧ c.usable l e.attr k = true then ⟨[(k, F32.one)], 0, p⟩
  else panNearest l (c.fulls l e.attr) p 0 (k != 0xFFFF)

/-! ### Wavefront panning -/

def SpkArray.positions (x : SpkArray) (l : Layout) : List P3 := x.elems.map (fun i => (l.spk i).pos)

/-- Centroid of an array's elements. -/
def centroid (ps : List P3) : V3 :=
  let n := F32.ofInt ps.length
  let sum (f : P3 → Int) : F32 := (F32.ofInt ((ps.map f).sum)).div n
  ⟨sum (·.x), sum (·.y), sum (·.z)⟩

/-- Normal of an array (R96): of a line, the part of (reference point − centroid) perpendicular to the axis. -/
def SpkArray.normal (x : SpkArray) (l : Layout) : V3 :=
  let ps := x.positions l
  if x.plane then fitNormal ps
  else
    let ax := fitAxis ps
    let toRef := (centroid ps).smul (F32.ofInt (-1))
    (toRef.sub (ax.smul (toRef.dot ax))).normalise

/-- First index of a block of `w` in `n`, centred on `c` and shifted inside (R97). -/
def blockStart (c w n : Nat) : Nat := min (c - (w - 1) / 2) (n - w)

/-- Taper weight along one axis (R98), with the aperture's extent on that axis (notes/assumptions/34). -/
def taperAt (i w t : Nat) : F32 :=
  let t' := min t (w / 2)
  let k := min i (w - 1 - i)
  if k < t' then
    (F32.ofRat 1 2).mul (F32.one.sub (F32.cosTurn (k + 1) (2 * (t' + 1))))
  else F32.one

/-- Index of the element nearest to a point, ties to the lower index. -/
def nearestElem (ps : List P3) (x : V3) : Nat :=
  let ds := ps.map (fun p => (V3.sub x p.f).norm)
  let best := ds.foldl (fun (acc : Option F32) d => match acc with
    | none => some d
    | some b => some (if d.lt b then d else b)) none
  match best with
  | some b => ds.findIdx (fun d => d == b)
  | none => 0

/-- Wavefront panning (R96 to R100); none where the layout lacks the array. An element at p' itself has no φ: it is dropped
(notes/assumptions/33). -/
def panWavefront (c : RCfg) (l : Layout) (q : Nat) (e : Eval) (p : V3) : Option Pan :=
  match l.arrays[e.attr.array]? with
  | none => none
  | some x =>
    let ps := x.positions l
    let n := x.normal l
    let ca := centroid ps
    let h := n.dot (ca.sub p)
    let mn := F32.ofInt (max 1 (c.fld Reg.GEO_WF_MIN Fl.GEO_WF_MIN_MIN_MM))
    let front := h.lt mn
    let p' := if front then p.sub (n.smul (mn.sub h)) else p
    let rel := p'.sub ca
    let foot :=
      if x.plane then p'.sub (n.smul (rel.dot n)) else ca.add ((fitAxis ps).smul (rel.dot (fitAxis ps)))
    let ci := nearestElem ps foot
    let wr := if x.plane then min (min x.rows 8) q else 1
    let wc := if x.plane then min x.cols (min q 64 / wr) else min (min q 64) ps.length
    let cols := if x.plane then x.cols else ps.length
    let rows := if x.plane then x.rows else 1
    let r0 := blockStart (ci / cols) wr rows
    let c0 := blockStart (ci % cols) wc cols
    let full := c.fulls l e.attr
    let ks := (List.range wr).flatMap (fun i => (List.range wc).map (fun j => (i, j)))
    let raws := ks.filterMap (fun ij =>
      let k := (r0 + ij.1) * cols + (c0 + ij.2)
      let spk := nth x.elems k 0
      let v := (nth ps k P3.zero).f.sub p'
      let r := v.norm
      let cphi := (n.dot v).div r
      let rm := r.div (F32.ofInt 1000)
      let w := (if x.plane then taperAt ij.1 wr x.taper else F32.one).mul (taperAt ij.2 wc x.taper)
      let g := (w.mul cphi).div (if x.plane then rm else rm.sqrt)
      if full.contains spk && F32.zero.lt g && !r.isZero then some (spk, g) else none)
    let flags := (if front then flagBit ffWF_FRONT else 0) ||| (if wr * wc < rows * cols then flagBit ffQUOTA else 0) |||
      (if raws.isEmpty then flagBit ffEMPTY else 0)
    some ⟨raws.foldl (fun t x => Tab.put t x.1 x.2) [], flags, p'⟩

/-! ### Quota, level, delay, air (R103 to R108) -/

/-- Keep the `q` largest raw gains, ties to the lower output (R103). -/
def quotaCut (q : Nat) (raws : List (Nat × F32)) : List (Nat × F32) :=
  raws.filter (fun x => decide (countIf raws (fun y => x.2.lt y.2 || (!y.2.lt x.2 && decide (y.1 < x.1))) < q))

/-- Normalise: to unit power, or to unit amplitude sum in wavefront mode (R94, R95, R99). -/
def normaliseGains (power : Bool) (gs : List (Nat × F32)) : List (Nat × F32) :=
  let n :=
    if power then (gs.foldl (fun a x => a.add (x.2.mul x.2)) F32.zero).sqrt
    else gs.foldl (fun a x => a.add x.2) F32.zero
  gs.map (fun x => (x.1, x.2.div n))

/-- Distance attenuation A(d) (R104). -/
def RCfg.attenuation (c : RCfg) (d : F32) : F32 :=
  let r := F32.ofInt (max 1 (c.fld Reg.GEO_DATT_REF Fl.GEO_DATT_REF_REF_MM))
  if d.le r then F32.one else (r.div d).powMilli (c.fld Reg.GEO_DATT Fl.GEO_DATT_EXP)

/-- Delay in 1/256 samples, and whether it saturated (R106). -/
def RCfg.delayOf (c : RCfg) (fs : Nat) (len : F32) : Nat × Bool :=
  let x := (((len.sub (F32.ofInt (c.rd Reg.GEO_DREF % 2 ^ 24))).maxF F32.zero).mul (F32.ofInt fs)).div
    (F32.ofInt (10 * c.fld Reg.GEO_CFG Fl.GEO_CFG_SOUND_MPS))
  if (F32.ofRat 16777215 256).lt x then (16777215, true) else ((x.roundScaled 256).toNat, false)

/-- 2π in binary32. -/
def twoPi : F32 := F32.ofRat 6283185307 1000000000

/-- The air field (R108). -/
def RCfg.airOf (c : RCfg) (fs : Nat) (options : Nat) (d : F32) : Nat :=
  if options.testBit 0 then
    let r := F32.ofInt (max 1 (c.rd Reg.GEO_AIR % 2 ^ 24))
    let k := if d.le r then F32.one else r.div d
    let fc := ((F32.ofInt 20000).mul k).maxF (F32.ofInt 1000)
    let a := F32.one.sub (F32.exp ((twoPi.neg.mul fc).div (F32.ofInt fs)))
    let v := (a.roundScaled 65536).toNat
    if 65536 ≤ v then 0 else v
  else 0

/-- The raw gains of an object by its mode (R89, step 2), and the frame's panning mode: wavefront or not. -/
def RCfg.pan (c : RCfg) (l : Layout) (q : Nat) (e : Eval) (p : V3) : Pan × Option SpkArray :=
  match e.attr.mode with
  | 1 => (panDistance c l e p, none)
  | 2 =>
    match panWavefront c l q e p with
    | some x => (x, l.arrays[e.attr.array]?)
    | none => (panMesh c l e p (flagBit ffFALLBACK), none)
  | 3 => (panDirect c l e p, none)
  | _ => (panMesh c l e p 0, none)

/-- The gain frame of an evaluation (R89, R109, R110). -/
def RCfg.frame (c : RCfg) (fs q handle : Nat) (e : Eval) : GFrame :=
  let empty : GFrame := ⟨handle, e.epoch, e.folio, 0, 0, []⟩
  match e.pos with
  | some p =>
    if e.active then
      let (pan, arr) := c.pan (c.plan.layout.getD noLayout) q e p
      let p := pan.pos
      let d := p.norm
      let cut := if arr.isSome then pan.raws else quotaCut q pan.raws
      let overQ := arr.isNone && decide (q < pan.raws.length)
      let trim := match arr with | some x => F32.level x.trim | none => F32.one
      let each := (normaliseGains arr.isNone cut).filterMap (fun x =>
        let g := ((x.2.mul (F32.level e.gain)).mul (c.attenuation d)).mul trim
        let v := min (g.roundScaled 32768).toNat 0xFFFF
        if v = 0 then none
        else
          let di := (p.sub (((c.plan.layout.getD noLayout).spk x.1).pos.f)).norm
          let len :=
            if e.attr.mode = 1 ∨ arr.isSome = true then di
            else if c.flag Reg.GEO_OPT Fl.GEO_OPT_MESH_DLY then d else F32.zero
          let dl := c.delayOf fs len
          some ((x.1, v, dl.1), dl.2))
      let flags := pan.flags ||| (if e.near then flagBit ffNEAR else 0) ||| (if overQ then flagBit ffQUOTA else 0) |||
        (if each.any (·.2) then flagBit ffDCLAMP else 0)
      ⟨handle, e.epoch, e.folio, c.airOf fs e.attr.options d, flags, each.map (·.1)⟩
    else empty
  | none => empty

/-- A frame's bytes (R109, R110). -/
def GFrame.bytes (f : GFrame) : List Byte :=
  by2 f.handle ++ by1 f.entries.length ++ by1 f.epoch ++ by4 f.folio ++ by2 f.air ++ by2 f.flags ++ by4 0 ++
    f.entries.flatMap (fun x => by8 (x.1 + x.2.1 * 2 ^ 16 + x.2.2 * 2 ^ 32))

end Sys2Proof.Machine
end

