-- ==== Sys2Proof/Machine/RunAhead.lean ====
section
/-!
DEFINITION. Run-ahead (Run-Ahead and Squash): tickets, evaluations, visibility of updates, squashes, and the application of
records at a tick.
-/

namespace Sys2Proof.Machine

/-! ### Schedule records (R426) -/

def srTICK : Nat := 0x10
def srHOLD : Nat := 0x11
def srSUBST : Nat := 0x12
def srBRIDGE : Nat := 0x13
def srDUCK : Nat := 0x14
def srUPDATE : Nat := 0x15
def srSEAL : Nat := 0x16

/-- The active mirrors folio `n` to its peer (R425, R427): the link is up, it decides for the folio, and the peer is a
standby, or resyncs and has been cut over to. -/
def State.mirrors (s : State) (n : Nat) : Bool :=
  let peer := s.fld Reg.TTH_PEER_INFO Fl.TTH_PEER_INFO_PSTATE
  s.paired && s.linkUp && s.decidesAt n &&
    (s.pair.turn.isSome || (s.pstate == psACTIVE &&
      (peer == psSTANDBY || peer == psUNSYNC || (peer == psRESYNC && s.pair.cut.any (fun c => decide (c ≤ n))))))

/-- The bytes of a schedule record (R426). -/
def schedRec (kind folio : Nat) (body : List Byte) : List Byte :=
  by1 kind ++ by1 ((8 + body.length) / 8) ++ by2 0 ++ by4 folio ++ body

/-- Send a schedule record, where this unit mirrors; those of a tick's folio wait for its MIRROR frames (R427). -/
def State.sched (s : State) (kind folio : Nat) (body : List Byte) : State :=
  if s.mirrors (if kind = srUPDATE then s.slot else folio) then
    let r := schedRec kind folio body
    if kind = srHOLD ∨ kind = srSUBST ∨ kind = srBRIDGE ∨ kind = srDUCK then { s with pair.recs := s.pair.recs ++ [(kind, r)] }
    else s.tether tfSCHED r
  else s

/-- Runs of at most `n` neighbours. -/
def runsOf {α : Type} (n : Nat) : Nat → List α → List (List α)
  | 0, _ => []
  | _, [] => []
  | k + 1, l => l.take n :: runsOf n k (l.drop n)

/-- The MIRROR frames of a source's channels over a block (R423): kind, domain, index, block, and the samples by channel. -/
def State.mirrorOut (s : State) (kind dom idx blk : Nat) (chans : List (List Int)) : State :=
  let f := s.folioLen
  let per := 8176 / (4 * f)
  let gs := runsOf per chans.length chans
  ((List.range gs.length).zip gs).foldl
    (fun s g => s.tether tfMIRROR (by1 kind ++ by1 dom ++ by2 idx ++ by4 blk ++ by1 (g.1 * per) ++ by1 g.2.length ++ by1 f ++
      leBytes 5 0 ++ g.2.flatMap (fun xs => xs.flatMap si4))) s

/-- The channels of a source among captured inputs: those that have samples, from 0 on. -/
def chansOf (t : Tab (List Int)) (first n : Nat) : List (List Int) :=
  (List.range n).filterMap (fun j => Tab.look t (first + j))

/-! ### Parameters -/

def State.horizon (s : State) : Nat := s.fld Reg.GEO_CFG Fl.GEO_CFG_HORIZON

/-- Folios of a glide that starts in a folio's configuration (R24, R113, R139). -/
def RCfg.glideLen (c : RCfg) : Nat := max 1 (c.fld Reg.GEO_CFG Fl.GEO_CFG_GLIDE)

/-- The largest horizon that `GEO_CFG` can hold (R113). -/
def maxHorizon : Nat := 8

/-- The configuration that the frame for folio `n` is evaluated with (R24, R134). -/
def State.evalCfg (s : State) (n : Nat) : RCfg :=
  if n < s.slot then s.procCfg else if n = s.slot then s.capCfg else s.live

/-! ### Tickets -/

/-- Geometry tickets of an object that wait or lie in a stall or run. -/
def State.geoTickets (s : State) (k : Nat) : List Ticket :=
  (Tab.at s.stbl.queues [] 1 ++ Tab.at s.stbl.waiting [] 1 ++ s.stbl.stall0.map (·.2.tk) ++ s.stbl.stall1.map (·.2.tk) ++
    s.stbl.running.map (·.2.tk)).filter (fun t => t.kind == tkGEO && t.item == k)

/-- A ticket or a frame of the present epoch exists for folio `n`. -/
def State.geoHas (s : State) (k : Nat) (o : Slot) (n : Nat) : Bool :=
  (s.geoTickets k).any (fun t => t.folio == n && t.epoch == o.epoch) ||
    o.store.any (fun f => f.folio == n && f.epoch == o.epoch)

/-- A geometry ticket for folio `n` of slot `k`. -/
def geoTicket (k : Nat) (o : Slot) (n : Nat) (urgent : Bool) : Ticket :=
  { hwTicket tkGEO n k with epoch := o.epoch, urgent := if urgent then some o.app.attr.prio else none }

/-- Folios from `v` and below `lim` that the object needs (R126, R682). -/
def State.window (s : State) (o : Slot) (v lim : Nat) : List Nat :=
  ((List.range (lim - v)).map (· + v)).filter (fun n => s.needsFrame o n && decide (s.dp.first ≤ n + 1))

/-- Issue fill tickets for the folios of the window that have none (R682). -/
def State.fillTickets (s : State) (k : Nat) : State :=
  match s.slotAt k with
  | some o =>
    if s.dp.on && !o.deferred then
      s.issueAll 1 (((s.window o s.unfetched (s.slot + s.horizon)).filter (fun n => !s.geoHas k o n)).map (fun n => geoTicket k o n true))
    else s
  | none => s

/-- Issue the edge ticket of a tick (R126, R127 step 4). -/
def State.edgeTicket (s : State) (k : Nat) : State :=
  match s.slotAt k with
  | some o =>
    let n := s.slot + s.horizon - 1
    if s.dp.on && s.needsFrame o n && !s.geoHas k o n && decide (s.dp.first ≤ n + 1) then s.issue 1 (geoTicket k o n false)
    else s
  | none => s

/-! ### Evaluation (R128, R133) -/

/-- Near-field distance. -/
def RCfg.dmin (c : RCfg) : F32 := F32.ofInt (max 1 (c.fld Reg.GEO_NEAR Fl.GEO_NEAR_DMIN_MM))

/-- The direction used at an evaluation, and whether the object is in the near field (R92). -/
def heldDir (c : RCfg) (p : V3) (prev : V3) : V3 × Bool :=
  if (p.norm).lt c.dmin then (prev, true) else (p.normalise, false)

/-- Direction of the boundary before folio `n`: of the latest evaluation of an earlier folio, else of the latest fetched
frame, else +y (R92). -/
def Slot.prevDir (o : Slot) (n : Nat) : V3 :=
  match ((o.evals.filter (fun e => decide (e.folio < n) && e.pos.isSome)).foldl
      (fun (b : Option Eval) e => match b with
        | some x => if x.folio < e.folio then some e else b
        | none => some e) none) with
  | some e => e.dir
  | none => o.dirHeld.getD V3.plusY

/-- An engine starts a geometry ticket: it reads the object's records (R128). -/
def State.startEval (s : State) (k : Ticket) : State :=
  match s.slotAt k.item with
  | none => s
  | some o =>
    let (st, pos, clamped) := s.objAt o k.folio none
    let (dir, near) := match pos with
      | some p => heldDir (s.evalCfg k.folio) p (o.prevDir k.folio)
      | none => (o.prevDir k.folio, false)
    let e : Eval := { folio := k.folio, epoch := k.epoch, active := st.active, pos := pos, gain := st.gain,
                      spread := st.spread, size := st.size, attr := st.attr, dir := dir, near := near }
    let s := if clamped then (s.bump Reg.OMS_CLAMP).irq Reg.OMS_IRQ_STAT Fl.OMS_IRQ_STAT_CLAMP else s
    s.setSlot k.item { o with
      evals := o.evals.filter (fun x => x.folio != k.folio) ++ [e]
      clamps := o.clamps + b2n clamped }

/-- A copy of R502 as its ticket's arguments give it: source, destination, length. -/
def Ticket.copy (k : Ticket) : DmaRun :=
  ⟨leVal (slice k.args 0 5), leVal (slice k.args 5 5), u32 k.args 10, 0⟩

/-- DMA channel `c` starts a copy (R504). -/
def State.startDma (s : State) (c : Nat) (k : Ticket) : State :=
  let s := s.wr (Reg.STBL_DMA_STAT c) (2 ^ 31 + k.flow * 2 ^ 16 + k.seq)
  let s := ((s.wr (Reg.STBL_DMA_ERR_LO c) 0).wr (Reg.STBL_DMA_ERR_HI c) 0).wr (Reg.STBL_DMA_BYTES c) 0
  { s with stbl.dma := Tab.put s.stbl.dma c k.copy }

/-- What starting a ticket does: a geometry ticket reads state when it starts, a copy takes its channel's status block. -/
def State.onStart (s : State) (e : Nat) (k : Ticket) : State :=
  if k.kind = tkGEO then s.startEval k else if k.kind = tkDMA then s.startDma (e - 24) k else s

/-- The quota in force for a folio (R24, R69). -/
def RCfg.quota (c : RCfg) (k : Nat) : Nat := Tab.at c.plan.quotas 1 k

/-- Where a frame lies in the frame store (R12, R109): no chapter gives its place there, which is free (notes/assumptions/82). -/
def frameAddr (k n : Nat) : Nat := 0x11200000 + 16 * (Config.framePlace k n % 262112)

/-- Engine `e` completes an evaluation (R75, R136). -/
def State.geoDone (s : State) (e : Nat) : State :=
  match s.runningOn e [tkGEO] with
  | none => s
  | some x =>
    let k := x.tk
    let s := (s.finishTicket e x).bump Reg.GEO_EVALS
    let s :=
      match s.slotAt k.item with
      | none => s.bump Reg.GEO_STALE_WR
      | some o =>
        -- of an old epoch and a fetched folio: the later test alone (notes/assumptions/49)
        if k.folio < s.unfetched then s.bump Reg.GEO_LATE_DONE
        else if k.epoch ≠ o.epoch then s.bump Reg.GEO_STALE_WR
        else
          match o.evals.find? (fun v => v.folio == k.folio) with
          | none => s
          | some v =>
            let c := s.evalCfg k.folio
            let f := c.frame s.fs (c.quota k.item) (o.gen * 1024 + k.item) { v with epoch := o.epoch }
            (s.setSlot k.item { o with store := o.store.filter (fun g => g.folio != k.folio) ++ [f] }).busWrite
              (frameAddr k.item k.folio) f.bytes
    State.startNext State.onStart 3 s e

/-- `STALL_FILL` (R495). -/
def execStallFill (cls t : Nat) (s : State) : Out := .next ((s.atTime t).fill State.onStart cls)

/-! ### Squashes (R132 to R135) -/

/-- The started frames of an object (R132). -/
def State.started (s : State) (o : Slot) : List Eval :=
  o.evals.filter (fun e => decide (s.unfetched ≤ e.folio) && e.epoch == o.epoch)

/-- Positions differ by more than `tol` mm in a coordinate. -/
def differs (tol : Nat) (a b : Option V3) : Bool :=
  match a, b with
  | some p, some q =>
    let t := F32.ofInt tol
    t.lt (p.x.sub q.x).abs || t.lt (p.y.sub q.y).abs || t.lt (p.z.sub q.z).abs
  | none, none => false
  | _, _ => true

/-- Whether an accepted update contradicts the started frames (R132). -/
def State.contradicts (s : State) (o : Slot) (bnd : Nat) (u : Update) : Bool :=
  let es := s.started o
  let tol := s.fld Reg.GEO_CFG Fl.GEO_CFG_SPEC_TOL
  let moved := es.any (fun e => differs tol (s.objAt o e.folio (some (bnd, u))).2.1 e.pos)
  match u.body with
  | .pose pos gain spread size =>
    (pos.isSome && moved) ||
      es.any (fun e => gain.any (· != e.gain) || spread.any (· != e.spread) || size.any (· != e.size))
  | .segment _ => moved
  | .attr a => es.any (fun e => e.attr != a)
  | .activate => !es.isEmpty
  | .release => !es.isEmpty
  | .input _ => false

/-- Carry a ticket of an unfetched folio below `v` to the new epoch (R135). -/
def carry (k v old new : Nat) (t : Ticket) : Ticket :=
  if t.kind = tkGEO ∧ t.item = k ∧ t.epoch = old ∧ t.folio < v then { t with epoch := new } else t

def carryPlaced (k v old new : Nat) (t : Tab Placed) : Tab Placed :=
  t.map (fun e => (e.1, { e.2 with tk := carry k v old new e.2.tk }))

/-- A squash with visibility folio `v` (R135); the window ends below `lim`. -/
def State.squash (s : State) (k v lim : Nat) : State :=
  match s.slotAt k with
  | none => s
  | some o =>
    let new := (o.epoch + 1) % 256
    let cv := carry k v o.epoch new
    let o' := { o with
      epoch := new
      advances := o.advances + 1
      evals := (o.evals.filter (fun e => decide (e.folio < v))).map (fun e =>
        if s.unfetched ≤ e.folio ∧ e.epoch = o.epoch then { e with epoch := new } else e)
      store := o.store.map (fun f => if f.folio < v ∧ f.epoch = o.epoch then { f with epoch := new } else f) }
    let s := { s.setSlot k o' with
      stbl.queues := s.stbl.queues.map (fun (q : Nat × List Ticket) => if q.1 = 1 then (q.1, q.2.map cv) else q)
      stbl.waiting := s.stbl.waiting.map (fun (q : Nat × List Ticket) => if q.1 = 1 then (q.1, q.2.map cv) else q)
      stbl.stall0 := carryPlaced k v o.epoch new s.stbl.stall0
      stbl.stall1 := carryPlaced k v o.epoch new s.stbl.stall1
      stbl.running := carryPlaced k v o.epoch new s.stbl.running }
    let s := s.bump Reg.GEO_SQUASH
    let s := s.trace evSQUASH 1 255 (geoTicket k o' v false) (s.handleOf k) 0
    let ns := s.window o' v lim
    let s := s.count Reg.GEO_REEVAL ns.length
    (s.issueAll 1 (ns.map (fun n => geoTicket k o' n true))).sweepStalls

/-- A squash is put off to the next tick (R135). -/
def State.deferSquash (s : State) (k : Nat) (o : Slot) : State :=
  (s.setSlot k { o with deferred := true }).bump Reg.GEO_SQ_DEFER

/-- No more epoch advances of an object take effect in this slot (R135). -/
def Slot.advancesSpent (o : Slot) : Bool := decide (16 ≤ o.advances) || o.deferred

/-- A change listed in R88 commits: every object that needs frames, within the reach of the largest horizon, is squashed (R134). -/
def State.squashAll (s : State) : State :=
  if s.dp.on then
    (s.oms.slots.map (·.1)).foldl
      (fun s k =>
        match s.slotAt k with
        | some o =>
          if !((List.range (maxHorizon + 1)).map (· + s.slot)).any (fun n => s.needsFrame o n) then s
          else if o.advancesSpent then s.deferSquash k o
          else s.squash k (s.slot + 1) (s.slot + s.horizon)
        | none => s) s
  else s

/-! ### Acceptance (R54 to R58, R131) -/

/-- Folios before the closing boundaries at which pending `ACTIVATE` records apply: the first that each makes the object need (R126). -/
def State.activations (s : State) (o : Slot) : List Nat :=
  (o.pend.filter (fun r => r.ups.any (fun u => u.body == .activate))).map (fun r => r.bnd / s.folioLen - 1)

/-- The first folio that the object needs from the first unfetched one on; that one itself where it needs none (R126). -/
def State.firstNeeded (s : State) (o : Slot) : Nat :=
  let n := s.unfetched
  if s.needsFrame o n then n
  else
    match (s.activations o).filter (fun m => decide (n ≤ m)) with
    | [] => n
    | m :: ms => ms.foldl min m

/-- The lowest folio of an object whose evaluation has not started (R131). -/
def State.lowestFree (s : State) (o : Slot) : Nat :=
  let es := s.started o
  let n := s.firstNeeded o
  (((List.range (es.length + 1)).map (· + n)).find? (fun n => !es.any (fun e => e.folio == n))).getD n

/-- Whether an update enters a frame (R59). -/
def Upd.enters : Upd → Bool
  | .input _ => false
  | _ => true

/-- Where an update goes among the pending records (R54, R55, R57). -/
inductive Placing where
  | merge
  | fresh
  | coalesce
  | drop
  deriving DecidableEq, Repr

def PRec.lives (r : PRec) : Bool := r.ups.any (fun u => u.body == .activate || u.body == .release)

def Slot.placing (o : Slot) (bnd : Nat) : Placing :=
  if o.pend.any (fun r => r.bnd == bnd) then .merge
  else if o.pend.length < 8 then .fresh
  else
    match o.pend.getLast? with
    | some r => if r.lives then .drop else .coalesce
    | none => .fresh

/-- Records in boundary order with one more. -/
def insertRec (r : PRec) (rs : List PRec) : List PRec :=
  match rs.find? (fun x => x.bnd == r.bnd) with
  | some _ => rs.map (fun x => if x.bnd = r.bnd then { x with ups := x.ups ++ r.ups } else x)
  | none => rs.filter (fun x => decide (x.bnd < r.bnd)) ++ [r] ++ rs.filter (fun x => decide (r.bnd < x.bnd))

/-- Put an update into its record, or make the record. -/
def Slot.put (o : Slot) (bnd : Nat) (u : Update) : Slot := { o with pend := insertRec ⟨bnd, [u]⟩ o.pend }

/-- Where eight records are pending, the newest gives up its fields to the new one's boundary (R57): they are on time, or late, as it
is. -/
def Slot.coalesced (o : Slot) (how : Placing) (bnd : Nat) (late : Bool) : Slot :=
  match how with
  | .coalesce =>
    let last := (o.pend.getLast?.map (·.ups)).getD []
    { o with pend := insertRec ⟨bnd, last.map (fun u => { u with late := late })⟩ o.pend.dropLast }
  | _ => o

/-- Whether the record at a boundary carries what enters a frame (R59). -/
def Slot.entersAt (o : Slot) (bnd : Nat) : Bool := o.pend.any (fun r => r.bnd == bnd && r.ups.any (fun u => u.body.enters))

/-- Records that a `RELEASE` discards (R52): of the old generation, after its boundary. -/
def Slot.discards (o : Slot) (bnd : Nat) : List PRec :=
  o.pend.filter (fun r => decide (bnd < r.bnd) && r.ups.any (fun u => u.gen == o.gen))

/-- What acceptance does to the slot's state (R51, R52). -/
def Slot.effects (o : Slot) (ts : Nat) (b : Upd) : Slot :=
  match b with
  | .activate => if o.state = 3 then { o with tAct := ts, queued := true } else { o with tAct := ts, state := 1 }
  | .release => { o with gen := (o.gen + 1) % 64, state := 3, tRel := ts, queued := false }
  | _ => o

/-- Squash, confirm or leave: the visibility folio of an update (R131 to R135), judged before it is put in place. -/
def State.judge (s : State) (k : Nat) (o : Slot) (bnd : Nat) (u : Update) : State × Nat × Bool :=
  let v := if o.deferred then s.slot else s.lowestFree (o.put bnd u)
  if (s.started o).isEmpty ∨ u.body.enters = false then (s, v, false)
  else if s.contradicts o bnd u then
    if o.advancesSpent then (s.deferSquash k o, s.slot, false) else (s, s.slot, true)
  else (s.bump Reg.GEO_CONFIRM, v, false)

/-- What a newly placed update asks of run-ahead: a squash from folio `v` on, or the fill tickets of an `ACTIVATE` (R135, R682). -/
def State.afterPut (s : State) (k v : Nat) (hit : Bool) (body : Upd) : State :=
  if hit then s.squash k v (s.slot + s.horizon) else if body = .activate then s.fillTickets k else s

/-- Records that a `RELEASE` discards are counted (R52). -/
def State.countGone (s : State) (gone : List PRec) : State :=
  if gone.isEmpty then s else (s.count Reg.OMS_STALE gone.length).irq Reg.OMS_IRQ_STAT Fl.OMS_IRQ_STAT_STALE

/-- An entry is accepted for slot `k` (R51 to R58, R131 to R135): its boundary, its update, and the bytes of the entry. A `SEGMENT`
counts once as merged or coalesced (notes/assumptions/46). -/
def State.accept (s : State) (k bnd : Nat) (ts gen : Nat) (body : Upd) (raw : List Byte) : State :=
  match s.slotAt k with
  | none => s
  | some o =>
    let how := o.placing bnd
    let s :=
      match how with
      | .merge => s.bump Reg.OMS_MERGE
      | .fresh => s
      | _ => (s.bump Reg.OMS_COALESCE).irq Reg.OMS_IRQ_STAT Fl.OMS_IRQ_STAT_COALESCE
    if how = .drop then s
    else
      let late := decide (bnd ≤ s.slot * s.folioLen)
      let o := o.coalesced how bnd late
      let gone := if body = .release then o.discards bnd else []
      let s := s.countGone gone
      let o := { o with pend := o.pend.filter (fun r => !gone.contains r) }
      let s := s.setSlot k o
      let glides := late && (body.enters || (how == .coalesce && o.entersAt bnd))
      let s := if glides then (s.bump Reg.OMS_LATE).irq Reg.OMS_IRQ_STAT Fl.OMS_IRQ_STAT_LATE else s
      let u : Update := ⟨ts, gen, 0, late, body⟩
      let (s, v, hit) := s.judge k o bnd u
      let o := (s.slotAt k).getD o
      let o := (o.put bnd { u with vis := v }).effects ts body
      let o := { o with lastVis := v, glideAt := if glides then some s.slot else o.glideAt }
      let s := s.setSlot k o
      let s := s.sched srUPDATE (if late then s.slot else bnd / s.folioLen)
        (by2 (gen * 1024 + k) ++ by2 0 ++ by4 v ++ raw)
      s.afterPut k v hit body

/-! ### Application (R48, R52, R58) -/

/-- Parameter bytes of an `OBJ_BIND` of a binding (R47, R71). -/
def bindBytes (k : Nat) (b : Binding) : List Byte :=
  by2 k ++ by1 b.kind ++ by1 0 ++ by2 b.source ++ by2 b.chan ++ si2 b.trim ++ List.replicate 20 0#8

/-- Slot state after a record applies (R50, R51): an `ACTIVATE` whose `RELEASE` has been accepted leaves the slot ENDING. -/
def Slot.afterApply (o : Slot) (u : Update) : Slot :=
  match u.body with
  | .activate => { o with state := if o.state = 3 then 3 else 2 }
  | .release => { o with state := if o.queued then 1 else 0, queued := false }
  | _ => o

/-- A binding takes effect from folio `n` (R48), in place of another of the same folio (notes/assumptions/47). -/
def Slot.bind (o : Slot) (n : Nat) (b : Binding) : Slot :=
  { o with binds := newest 4 (o.binds.filter (fun x => decide (x.1 < n)) ++ [(n, b)] ++ o.binds.filter (fun x => decide (n < x.1))) }

/-- The folio from which an `INPUT` that applies at the tick opening slot `m` binds: that slot's, or, where it was late, the first that was
unfetched (R48, R60). -/
def bindFolio (m : Nat) (u : Update) : Nat := if u.late then m - 1 else m

/-- A `RELEASE` in the record ends a time of activity (R126). -/
def PRec.releases (r : PRec) : Bool := r.ups.any (fun u => u.body == .release)

/-- One record applies at the tick that opens the slot (R58): an `INPUT` binds, and is recorded in the scene journal (R48). -/
def State.applyRec (s : State) (k : Nat) (r : PRec) : State :=
  match s.slotAt k with
  | none => s
  | some o =>
    let o := r.ups.foldl
      (fun o u =>
        let o := o.afterApply u
        match u.body with
        | .input b => o.bind (bindFolio s.slot u) b
        | _ => o) o
    let s := s.setSlot k { o with
      app := applyUps o.app r.bnd r.ups
      lastBnd := some r.bnd
      relAt := if r.releases && o.app.active then some r.bnd else o.relAt }
    r.ups.foldl
      (fun s u => match u.body with
        | .input b => s.record 0x0404 (bindBytes k b) []
        | _ => s) s

/-- A binding of `OBJ_BIND` that takes effect at this tick's folio is recorded in the scene journal (R48, R71). -/
def State.recordBinds (s : State) (k : Nat) : State :=
  match s.slotAt k with
  | some o =>
    (o.binds.filter (fun b => b.1 == s.slot && decide (0 < b.1))).foldl (fun s b => s.record 0x0404 (bindBytes k b.2) []) s
  | none => s

/-- Every record due applies (R127, step 2), in boundary order; an on-time record that enters a frame cuts the glide
(R59, R141). -/
def State.applyDue (s : State) (k : Nat) : State :=
  match s.slotAt k with
  | none => s
  | some o =>
    let b := s.slot * s.folioLen
    let due := o.pend.filter (fun r => decide (r.bnd ≤ b))
    if due.isEmpty then s
    else
      let cut := due.any (fun r => r.ups.any (fun u => u.body.enters && !u.late))
      let o := { o with
        pend := o.pend.filter (fun r => decide (b < r.bnd))
        glide := if cut then none else o.glide
        glideAt := if cut then none else o.glideAt }
      due.foldl (fun s r => s.applyRec k r) (s.setSlot k o)

/-- Carry out a deferred squash (R127, step 1; R135). -/
def State.runDeferred (s : State) (k : Nat) : State :=
  match s.slotAt k with
  | none => s
  | some o =>
    let s := s.setSlot k { o with deferred := false, advances := 0 }
    if o.deferred then s.squash k (s.slot - 1) (s.slot - 1 + s.horizon) else s

/-! ### Commands (R145, R146) -/

def specGeoRaQuery : CmdSpec := cmdRow 0x0507 2 false 2 2 fwModes false

/-- Frames of the window that would be accepted (R136). -/
def State.readyFrames (s : State) (k : Nat) (o : Slot) : Nat :=
  countIf o.store (fun f => decide (s.unfetched ≤ f.folio) && decide (f.folio < s.slot + s.horizon) && f.epoch == o.epoch &&
    f.handle == o.gen * 1024 + k)

/-- Folios that a glide still runs, and whether it runs. -/
def State.glideLeft (s : State) (o : Slot) : Nat :=
  match o.glide with
  | some g => g.first + g.len - max s.slot g.first
  | none => 0

def cmdGeoRaQuery (p : Packet) (s : State) : CmdRes :=
  let k := u16 p.params 0
  match s.slotAt k with
  | none => .fail s stBAD_PARAM []
  | some o =>
    let left := s.glideLeft o
    .ok s (by1 o.epoch ++ by1 o.advances ++ by1 (s.readyFrames k o) ++
      by1 (b2n o.deferred + 2 * b2n o.held + 4 * b2n (decide (0 < left))) ++ by2 (min o.holdRun 65535) ++ by1 left ++
      by1 0 ++ by4 s.slot ++ by4 o.lastVis)
/-- `GEO_RA_QUERY` (R145). -/
def execGeoRaQuery (p : Packet) (s : State) : Out := runPacket specGeoRaQuery p (cmdGeoRaQuery p) s

/-- The run-ahead counters in offset order (R144). -/
def raCounters : List Nat :=
  [Reg.GEO_SQUASH, Reg.GEO_SQ_DEFER, Reg.GEO_CONFIRM, Reg.GEO_STL_DROP, Reg.GEO_STALE_WR, Reg.GEO_LATE_DONE,
   Reg.GEO_REFUSED, Reg.GEO_REEVAL]

def specGeoRaStats : CmdSpec := cmdRow 0x0508 2 false 0 0 fwModes false
def cmdGeoRaStats (_p : Packet) (s : State) : CmdRes :=
  let (s, bs) := s.takeCounters raCounters
  .ok s bs
/-- `GEO_RA_STATS` (R146). -/
def execGeoRaStats (p : Packet) (s : State) : Out := runPacket specGeoRaStats p (cmdGeoRaStats p) s

/-- `GLIDE_END` (R140): a glide whose last folio has been fetched is over. -/
def execGlideEnd (k t : Nat) (s : State) : Out :=
  let s := s.atTime t
  match s.slotAt k with
  | some o =>
    match o.glide with
    | some g => if g.first + g.len ≤ s.slot then .next (s.setSlot k { o with glide := none }) else .next s
    | none => .next s
  | none => .next s

end Sys2Proof.Machine
end

