-- ==== Sys2Proof/Machine/Metadata.lean ====
section
/-!
DEFINITION. Object Metadata: the messages of R39 to R47, the life of a slot (R50 to R57), and the commands of R69 to R74.
-/

namespace Sys2Proof.Machine

/-! ### Budgets (R2, R27) -/

/-- The limit of a budget at a rate. -/
def budgetLimit (g : Grade) (double : Bool) (i : Nat) : Nat :=
  let h (n : Nat) : Nat := if double then n / 2 else n
  match i with
  | 0 => h (Config.objects g)
  | 1 => h (Config.outputs g)
  | 2 => h (Config.crosspoints g)
  | 3 => 2097152
  | 4 => h (128 / Config.gradeDiv g)
  | 5 => 256
  | 6 => 256
  | 7 => 1536
  | _ => 1024

def State.limit (s : State) (i : Nat) : Nat := budgetLimit s.otp.grade s.doubleRate i

/-- Samples of a window class (R69). -/
def classLen (c : Nat) : Nat := 512 * 2 ^ c

/-! ### Entries -/

/-- What a check of an entry finds: a counter to count it in. -/
abbrev Entry := Except Nat Upd

def inRange (x lo hi : Int) : Bool := decide (lo ≤ x) && decide (x ≤ hi)

/-- A level: within a range, or mute. -/
def levelOk (x hi : Int) : Bool := x == -32768 || inRange x (-12000) hi

/-- Three coordinates at an offset. -/
def xyz (e : List Byte) (off : Nat) : P3 := ⟨i32 e off, i32 e (off + 4), i32 e (off + 8)⟩

def P3.within (p : P3) (m : Int) : Bool := inRange p.x (-m) m && inRange p.y (-m) m && inRange p.z (-m) m

/-- `POSE` (R43). -/
def decodePose (e : List Byte) : Option Upd :=
  let f := u8 e 1
  let p := xyz e 4
  let g := i16 e 16
  let sp := u16 e 18
  let sz := u32 e 20
  if f = 0 ∨ 16 ≤ f ∨ !zeroAt e 24 8 ∨ (f.testBit 0 && !p.within 10000000) ∨ (f.testBit 1 && !levelOk g 600) ∨
      (f.testBit 2 && decide (18000 < sp)) ∨ (f.testBit 3 && decide (1000000 < sz)) then none
  else
    some (.pose (if f.testBit 0 then some p else none) (if f.testBit 1 then some g else none)
      (if f.testBit 2 then some sp else none) (if f.testBit 3 then some sz else none))

/-- `SEGMENT` (R44). -/
def decodeSegment (a b : List Byte) : Option Upd :=
  let p := xyz a 4
  let v := xyz a 16
  let acc := xyz b 4
  if u8 a 1 ≠ 0 ∨ u8 b 1 ≠ 0 ∨ !zeroAt a 30 2 ∨ !zeroAt b 16 16 ∨ !p.within 10000000 ∨ !v.within 1000000 ∨
      !acc.within 1000000 then none
  else some (.segment ⟨p, v, acc, u16 a 28⟩)

/-- The fields of an `ATTR` entry from byte 4 on (R45). -/
def decodeAttrBody (e : List Byte) (off : Nat) : Option Attr :=
  let a : Attr := ⟨u8 e off, u8 e (off + 1), u8 e (off + 2), u8 e (off + 3), u16 e (off + 4), u16 e (off + 6),
    u16 e (off + 8), u16 e (off + 10), u32 e (off + 12)⟩
  if 3 < a.mode ∨ 3 < a.options ∨ 31 < a.array ∨ a.rolloff < 500 ∨ 2000 < a.rolloff ∨
      (511 < a.speaker ∧ a.speaker ≠ 0xFFFF) ∨ a.radius < 1 ∨ 10000000 < a.radius then none
  else some a

/-- `ATTR` (R45). -/
def decodeAttr (e : List Byte) : Option Upd :=
  if u8 e 1 ≠ 0 ∨ !zeroAt e 20 12 then none else (decodeAttrBody e 4).map .attr

/-- `ACTIVATE` and `RELEASE` (R46). -/
def decodePlain (e : List Byte) (u : Upd) : Option Upd := if u8 e 1 ≠ 0 ∨ !zeroAt e 4 28 then none else some u

/-- A binding from bytes 4 to 31 of an `INPUT` entry (R47). -/
def decodeBinding (b : List Byte) : Option Binding :=
  let x : Binding := ⟨u8 b 0, u16 b 2, u16 b 4, i16 b 6⟩
  let ok :=
    match x.kind with
    | 0 => x.source == 0 && x.chan == 0
    | 1 => decide (x.source < 256) && decide (x.chan < 64)
    | 2 => decide (x.source < 16) && decide (x.chan < 32)
    | 3 => decide (x.source < 256) && x.chan == 0
    | 4 => decide (x.source < 256) && x.chan == 0
    | _ => false
  if ok && u8 b 1 == 0 && levelOk x.trim 1200 && zeroAt b 8 20 then some x else none

/-- `INPUT` (R47). -/
def decodeInput (e : List Byte) : Option Upd :=
  if u8 e 1 ≠ 0 then none else (decodeBinding (slice e 4 28)).map .input

/-- A single entry other than a segment half. -/
def decodeEntry (e : List Byte) : Option Upd :=
  match u8 e 0 with
  | 1 => decodePose e
  | 3 => decodeAttr e
  | 4 => decodePlain e .activate
  | 5 => decodePlain e .release
  | 6 => decodeInput e
  | _ => none

/-! ### Acceptance (R42, R51, R56) -/

/-- The verdict of R51: `none` accepts, else the counter. A time before the activation time is stale in every state. -/
def Slot.verdict (o : Slot) (u : Upd) (h t : Nat) (hsp : Bool) : Option Nat :=
  if h ≠ o.gen ∨ t < o.tAct then some Reg.OMS_STALE
  else
    match u with
    | .activate =>
      if o.state = 0 then none
      else if o.state = 3 ∧ o.queued = false then (if o.tRel ≤ t then none else some Reg.OMS_INACTIVE)
      else some Reg.OMS_REACT
    | .release => if o.state = 1 ∨ o.state = 2 then none else some Reg.OMS_INACTIVE
    | .input _ =>
      if o.state = 1 ∨ o.state = 2 ∨ (o.state = 3 ∧ o.queued = true) ∨ (o.state = 0 ∧ hsp = true) then none
      else some Reg.OMS_INACTIVE
    | _ =>
      if o.state = 1 ∨ o.state = 2 ∨ (o.state = 3 ∧ o.queued = true) then none else some Reg.OMS_INACTIVE

/-- Count dropped entries (R41, R64). -/
def State.dropEntries (s : State) (reg n : Nat) : State :=
  let s := s.count reg n
  if reg = Reg.OMS_BADENT then s.irq Reg.OMS_IRQ_STAT Fl.OMS_IRQ_STAT_BADENT
  else if reg = Reg.OMS_STALE then s.irq Reg.OMS_IRQ_STAT Fl.OMS_IRQ_STAT_STALE
  else s

/-- An entry that has passed its own checks: `halves` is how many 32-byte entries it takes. -/
def State.takeEntry (s : State) (hsp : Bool) (ts : Nat) (u : Upd) (handle halves : Nat) (raw : List Byte) : State :=
  let k := handle % 1024
  let g := handle / 1024
  match s.slotAt k with
  | none => s.dropEntries Reg.OMS_INACTIVE halves
  | some o =>
    if s.limit 0 ≤ k then s.dropEntries Reg.OMS_INACTIVE halves
    else
      let b := ceilDiv ts s.folioLen * s.folioLen
      if o.lastBnd.any (fun l => decide (b < l)) then s.dropEntries Reg.OMS_OBSOLETE halves
      else
        match o.verdict u g ts hsp with
        | some r => s.dropEntries r halves
        | none => s.accept k b ts g u raw

/-- The entries of a message in order (R41, R44). -/
def takeEntries (hsp : Bool) (ts : Nat) : List (List Byte) → State → State
  | [], s => s
  | e :: es, s =>
    if u8 e 0 = 2 then
      match es with
      | [] => s.dropEntries Reg.OMS_BADENT 1
      | f :: fs =>
        if u8 f 0 = 0x82 ∧ u16 f 2 = u16 e 2 then
          match decodeSegment e f with
          | some u => takeEntries hsp ts fs (s.takeEntry hsp ts u (u16 e 2) 2 (e ++ f))
          | none => takeEntries hsp ts fs (s.dropEntries Reg.OMS_BADENT 2)
        else takeEntries hsp ts (f :: fs) (s.dropEntries Reg.OMS_BADENT 1)
    else if u8 e 0 = 6 ∧ hsp = false then takeEntries hsp ts es (s.dropEntries Reg.OMS_DENIED 1)
    else
      match decodeEntry e with
      | some u => takeEntries hsp ts es (s.takeEntry hsp ts u (u16 e 2) 1 e)
      | none => takeEntries hsp ts es (s.dropEntries Reg.OMS_BADENT 1)

/-- Cut a message's entries. -/
def entriesOf (bs : List Byte) (n : Nat) : List (List Byte) := (List.range n).map (fun i => slice bs (16 + 32 * i) 32)

/-- Drop a message (R36, R38, R40). -/
def State.omsDrop (s : State) : State := (s.bump Reg.OMS_DROP).irq Reg.OMS_IRQ_STAT Fl.OMS_IRQ_STAT_DROP

/-- A unit that follows ignores OMS from its own ports, without counting it (R38). -/
def State.omsIgnored (s : State) : Bool := !s.decidesAt s.slot

/-- A message waits for the parser: in order of completion, and in the order of the paths where messages complete in one cycle (R37). -/
def State.queueOms (s : State) (m : OmsMsg) : State :=
  let first (x : OmsMsg) : Bool := decide (x.time < m.time) || (x.time == m.time && decide (x.path ≤ m.path))
  { s with oms.rx := s.oms.rx.filter first ++ [m] ++ s.oms.rx.filter (fun x => !first x) }

/-- The UDP port of OMS for a datagram that started to arrive at a time (R65). -/
def State.omsPortAt (s : State) (start : Nat) : Nat :=
  (((s.oms.ports.filter (fun x => decide (start < x.1))).getLast?).map (·.2)).getD (s.fld Reg.OMS_CFG Fl.OMS_CFG_UDP_PORT)

/-- Write `OMS_CFG`; the port before stays in force for datagrams that have started to arrive (R65). -/
def State.omsCfgWrite (s : State) (v : Nat) : State :=
  let old := s.fld Reg.OMS_CFG Fl.OMS_CFG_UDP_PORT
  let s := s.cfgWrite Reg.OMS_CFG v
  if s.fld Reg.OMS_CFG Fl.OMS_CFG_UDP_PORT = old then s else { s with oms.ports := ((s.now, old) :: s.oms.ports).take 8 }

/-- The parser takes a message (R38, R40). -/
def State.parseOms (s : State) (m : OmsMsg) : State :=
  let bs := m.bytes
  if s.omsIgnored then s
  else if s.pair.turn.isNone = true ∧ s.mode ≠ mIDLE ∧ s.mode ≠ mRENDER ∧ s.mode ≠ mMEASURE then s.omsDrop
  else
    let n := u16 bs 2
    let badSession := s.flag Reg.OMS_CFG Fl.OMS_CFG_SESS_EN && u32 bs 4 != s.rd Reg.OMS_SESSION
    if bs.length < 16 ∨ u8 bs 0 ≠ 1 ∨ u8 bs 1 ≠ 1 ∨ n = 0 ∨ 255 < n ∨ bs.length ≠ 16 + 32 * n ∨ badSession = true then
      s.omsDrop
    else
      let ts := u64 bs 8
      if s.sys.mediaTime + 8 * s.fs < ts then
        (s.bump Reg.OMS_EARLY).irq Reg.OMS_IRQ_STAT Fl.OMS_IRQ_STAT_DROP
      else takeEntries (m.path == 0) ts (entriesOf bs n) (s.bump Reg.OMS_RX_MSG)

/-- A path is enabled (R65): 0 HSP, 1 port A, 2 port B. -/
def State.omsPath (s : State) (path : Nat) : Bool :=
  match path with
  | 0 => s.flag Reg.OMS_CFG Fl.OMS_CFG_HSP_EN
  | 1 => s.flag Reg.OMS_CFG Fl.OMS_CFG_MA_EN
  | _ => s.flag Reg.OMS_CFG Fl.OMS_CFG_MB_EN

/-- `OMS_MESSAGE` (R37, R40): the parser takes the message whose reception completed first. -/
def execOmsMessage (t : Nat) (s : State) : Out :=
  let s := s.atTime t
  match s.oms.rx with
  | [] => .next s
  | m :: ms => .next ({ s with oms.rx := ms }.parseOms m)

/-! ### Window memory (R160) -/

/-- Base of window memory (R12). -/
def winBase : Nat := 0x10000000

/-- The lowest `n` free pages of the 4096. -/
def State.freePages (s : State) (n : Nat) : List Nat :=
  let used := s.oms.slots.flatMap (fun o => o.2.pages)
  ((List.range 4096).filter (fun p => !used.contains p)).take n

/-- A slot as `OBJ_CONFIG` in slot `n − 1` leaves it (R24, R50): it takes part from folio `n`. -/
def Slot.init (n quota cls : Nat) (pages : List Nat) : Slot :=
  { quota := quota, cls := cls, gen := 0, state := 0, tAct := 0, tRel := 0, queued := false, pend := [], lastBnd := none,
    app := ObjState.init, binds := [], clamps := 0, epoch := 0, advances := 0, deferred := false, evals := [],
    store := [], fetched := none, dirHeld := none, held := false, holdRun := 0, glide := none, glideAt := none,
    lastVis := 0, relAt := none, since := n, ends := none, was := [(n, cls, pages)], pages := pages, air := 0, fifo := [],
    xps := [], bulk := 0, shown := (0, 0), work := none,
    entered := false, nextXps := none, need := 0xFF, clampNow := false, refillDef := false, dopplerOn := false,
    nClamps := 0, clampLogAt := none }

/-! ### Commands -/

def specObjConfig : CmdSpec := cmdRow 0x0402 0 true 8 8 fwModes true

def cmdObjConfig (p : Packet) (s : State) : CmdRes :=
  let k := u16 p.params 0
  let q := u8 p.params 2
  let c := u8 p.params 3
  if 1023 < k ∨ q < 1 ∨ 64 < q ∨ 4 < c ∨ !zeroAt p.params 4 4 then .fail s stBAD_PARAM []
  else
    let old := s.slotAt k
    let others := s.oms.slots.filter (fun o => o.1 != k)
    let objs := others.length + 1
    let xps := (others.map (fun o => o.2.quota)).sum + q
    let wins := (others.map (fun o => classLen o.2.cls)).sum + classLen c
    let set (o : Slot) : CmdRes :=
      .ok ({ s.setSlot k { o with quota := q } with plan.quotas := Tab.put s.plan.quotas k q }.reserve (ownFifo k) fifoBytes) []
    match old with
    | some o =>
      if o.cls ≠ c ∧ o.state ≠ 0 then .fail s stBAD_PARAM []
      else if s.limit 2 < xps then .fail s stNO_RESOURCE (by1 2)
      else if s.limit 3 < wins then .fail s stNO_RESOURCE (by1 3)
      else if o.cls = c then set o
      else
        let ps := (s.setSlot k { o with pages := [] }).freePages (2 ^ c)
        set { o with cls := c, pages := ps, was := o.was ++ [(s.slot + 1, o.cls, o.pages)] }
    | none =>
      if s.limit 0 < objs then .fail s stNO_RESOURCE (by1 0)
      else if s.limit 2 < xps then .fail s stNO_RESOURCE (by1 2)
      else if s.limit 3 < wins then .fail s stNO_RESOURCE (by1 3)
      else set (Slot.init (s.slot + 1) q c (s.freePages (2 ^ c)))
/-- `OBJ_CONFIG` (R69). -/
def execObjConfig (p : Packet) (s : State) : Out := runPacket specObjConfig p (cmdObjConfig p) s

/-- Slot `k` is deconfigured from folio `n` on (R24, R70): the fabric keeps it for the folios before, where the data plane runs. -/
def State.departs (s : State) (k : Nat) (o : Slot) (n : Nat) : State :=
  let s := { s with oms.slots := Tab.del s.oms.slots k, plan.quotas := Tab.del s.plan.quotas k }.unreserve (ownFifo k)
  if s.dp.on && decide (o.since < n) then
    { s with fab.gone := Tab.put s.fab.gone (1024 * (1 + n % 4) + k) { o with ends := some n } }
  else s

def specObjDeconfig : CmdSpec := cmdRow 0x0403 0 true 4 4 fwModes true
def cmdObjDeconfig (p : Packet) (s : State) : CmdRes :=
  let k := u16 p.params 0
  match s.slotAt k with
  | none => .fail s stBAD_PARAM []
  | some o =>
    if !zeroAt p.params 2 2 ∨ o.state ≠ 0 then .fail s stBAD_PARAM []
    else .ok (s.departs k o (s.slot + 1)) []
/-- `OBJ_DECONFIG` (R70). -/
def execObjDeconfig (p : Packet) (s : State) : Out := runPacket specObjDeconfig p (cmdObjDeconfig p) s

/-- `OBJ_BIND` is journalled when it applies (R48), not at its commit. -/
def specObjBind : CmdSpec := { cmdRow 0x0404 1 true 30 30 fwModes true with journ := false }
def cmdObjBind (p : Packet) (s : State) : CmdRes :=
  let k := u16 p.params 0
  match s.slotAt k, decodeBinding (slice p.params 2 28) with
  | some o, some b => .ok (s.setSlot k (o.bind (s.slot + 1) b)) []
  | _, _ => .fail s stBAD_PARAM []
/-- `OBJ_BIND` (R71). -/
def execObjBind (p : Packet) (s : State) : Out := runPacket specObjBind p (cmdObjBind p) s

/-- The `OMS_OBJ_STAT` word of a slot (R67). -/
def State.objStat (s : State) (k : Nat) : Nat :=
  match s.slotAt k with
  | some o => (o.gen * 1024 + k) <<< 16 + o.pend.length <<< 12 + 8 + 4 * b2n (!o.app.tracks.isEmpty) + o.state
  | none => k <<< 16

/-- The binding in force at folio `n` (R48). -/
def Slot.bindAt (o : Slot) (n : Nat) : Binding :=
  ((o.binds.filter (fun b => decide (b.1 ≤ n))).getLast?.map (·.2)).getD Binding.none

def specObjQuery : CmdSpec := cmdRow 0x0405 2 false 2 2 fwModes false
def cmdObjQuery (p : Packet) (s : State) : CmdRes :=
  let k := u16 p.params 0
  match s.slotAt k with
  | none => if 1023 < k then .fail s stBAD_PARAM [] else .ok s (by4 (s.objStat k) ++ List.replicate 20 0#8)
  | some o =>
    let b := o.bindAt s.slot
    .ok s (by4 (s.objStat k) ++ by8 o.tAct ++ by1 o.quota ++ by1 o.cls ++ by1 b.kind ++ by1 0 ++ by2 b.source ++
      by2 b.chan ++ by4 (min o.clamps 0xFFFFFFFF))
/-- `OBJ_QUERY` (R72). -/
def execObjQuery (p : Packet) (s : State) : Out := runPacket specObjQuery p (cmdObjQuery p) s

/-- The OMS counters in offset order (R68). -/
def omsCounters : List Nat :=
  [Reg.OMS_RX_MSG, Reg.OMS_DROP, Reg.OMS_EARLY, Reg.OMS_BADENT, Reg.OMS_INACTIVE, Reg.OMS_STALE, Reg.OMS_REACT,
   Reg.OMS_DENIED, Reg.OMS_MERGE, Reg.OMS_OBSOLETE, Reg.OMS_COALESCE, Reg.OMS_LATE, Reg.OMS_CLAMP]

def specOmsStats : CmdSpec := cmdRow 0x0406 2 false 0 0 fwModes false
def cmdOmsStats (_p : Packet) (s : State) : CmdRes :=
  let (s, bs) := s.takeCounters omsCounters
  .ok s bs
/-- `OMS_STATS` (R73). -/
def execOmsStats (p : Packet) (s : State) : Out := runPacket specOmsStats p (cmdOmsStats p) s

def specOmsCfgSet : CmdSpec := cmdRow 0x0407 0 true 12 12 fwModes true
def cmdOmsCfgSet (p : Packet) (s : State) : CmdRes :=
  let a := u32 p.params 0
  let b := u32 p.params 4
  if !rsvOk Reg.OMS_CFG a ∨ !rsvOk Reg.OMS_VEL b then .fail s stBAD_PARAM []
  else .ok (((s.omsCfgWrite a).wr Reg.OMS_VEL b).wr Reg.OMS_SESSION (u32 p.params 8)) []
/-- `OMS_CFG_SET` (R74). -/
def execOmsCfgSet (p : Packet) (s : State) : Out := runPacket specOmsCfgSet p (cmdOmsCfgSet p) s

/-- Write a slot to `OMS_OBJ_SEL` (R67). -/
def State.latchObj (s : State) (v : Nat) : State :=
  let k := v % 1024
  let t := match s.slotAt k with | some o => o.tAct | none => 0
  (((s.wr Reg.OMS_OBJ_SEL k).wr Reg.OMS_OBJ_STAT (s.objStat k)).wr Reg.OMS_OBJ_ACT_LO (t % 2 ^ 32)).wr
    Reg.OMS_OBJ_ACT_HI (t / 2 ^ 32 % 2 ^ 32)

/-- `OMS_OBJ_SEL` (R67). -/
def execOmsObjSel (v t : Nat) (s : State) : Out := .next ((s.atTime t).latchObj v)

end Sys2Proof.Machine
end

