-- ==== Sys2Proof/Machine/Geo.lean ====
section
/-!
DEFINITION. The layout image (R78 to R83) and the commands of Geometry Engines and Panning Laws (R119 to R125).
-/

namespace Sys2Proof.Machine

/-! ### The layout image -/

/-- A failed check of R83: table code, record index, check number. -/
abbrev LayoutErr := Nat × Nat × Nat

/-- One array record at an offset: the record, its size, its raw fields. -/
structure RawArr where
  off : Nat
  kind : Nat
  taper : Nat
  rows : Nat
  cols : Nat
  trim : Int
  spacing : Nat
  elems : List Nat
  size : Nat

def rawArr (b : List Byte) (off : Nat) : RawArr :=
  let rows := u16 b (off + 2)
  let cols := u16 b (off + 4)
  let n := rows * cols
  { off := off, kind := u8 b off, taper := u8 b (off + 1), rows := rows, cols := cols, trim := i16 b (off + 6),
    spacing := u32 b (off + 8), elems := (List.range (min n 512)).map (fun i => u16 b (off + 16 + 2 * i)),
    size := 16 + (2 * n + 3) / 4 * 4 }

def rawArrs (b : List Byte) : Nat → Nat → List RawArr
  | 0, _ => []
  | k + 1, off =>
    let r := rawArr b off
    r :: rawArrs b k (off + r.size)

/-- Header fields used below. -/
structure LayHdr where
  ns : Nat
  nt : Nat
  na : Nat
  nz : Nat
  so : Nat
  tofs : Nat
  ao : Nat
  zo : Nat
  len : Nat

def layHdr (b : List Byte) : LayHdr :=
  ⟨u16 b 6, u16 b 8, u8 b 10, u8 b 11, u32 b 16, u32 b 20, u32 b 24, u32 b 28, u32 b 32⟩

/-- Whether two ranges, given as offset and length, overlap. -/
def rangesMeet (a b : Nat × Nat) : Bool :=
  decide (0 < a.2) && decide (0 < b.2) && decide (a.1 < b.1 + b.2) && decide (b.1 < a.1 + a.2)

def anyPair {α : Type} (f : α → α → Bool) : List α → Bool
  | [] => false
  | x :: xs => xs.any (f x) || anyPair f xs

/-- Check 1 of R83. -/
def layCheck1 (b : List Byte) : Bool :=
  let h := layHdr b
  let arrs := rawArrs b h.na h.ao
  let ranges := [(0, 64), (h.so, 32 * h.ns), (h.tofs, 8 * h.nt), (h.ao, (arrs.map (·.size)).sum), (h.zo, 16 * h.nz)]
  decide (64 ≤ b.length) && u32 b 0 == 0x594C4B52 && u16 b 4 == 1 && decide (1 ≤ h.ns) && decide (h.ns ≤ 512) &&
    decide (h.nt ≤ 2048) && decide (h.na ≤ 32) && decide (h.nz ≤ 16) && h.len == b.length &&
    [h.so, h.tofs, h.ao, h.zo].all (fun o => o % 4 == 0) &&
    ranges.all (fun r => r.2 == 0 || decide (r.1 + r.2 ≤ b.length)) && !anyPair rangesMeet ranges

def asciiAt (b : List Byte) (off len : Nat) : Bool := (slice b off len).all (fun x => decide (x.toNat < 128))

/-- Check 2: a speaker record (R79). -/
def spkRangeOk (b : List Byte) (o : Nat) : Bool :=
  (xyz b o).within 10000000 && inRange (i16 b (o + 12)) (-18000) 17999 && inRange (i16 b (o + 14)) (-9000) 9000 &&
    decide (u8 b (o + 16) ≤ 1) && decide (u8 b (o + 17) ≤ 1) && asciiAt b (o + 20) 12

/-- Check 2: an array record (R81). -/
def arrRangeOk (b : List Byte) (r : RawArr) : Bool :=
  decide (r.kind ≤ 1) && decide (r.taper ≤ 16) &&
    (if r.kind = 0 then r.rows == 1 else decide (2 ≤ r.rows) && decide (r.rows ≤ 64)) &&
    decide (2 ≤ r.cols) && decide (r.cols ≤ 512) && inRange r.trim (-2400) 2400 && decide (10 ≤ r.spacing) &&
    decide (r.spacing ≤ 10000) && zeroAt b (r.off + 12) 4 &&
    zeroAt b (r.off + 16 + 2 * (r.rows * r.cols)) (r.size - 16 - 2 * (r.rows * r.cols))

/-- Record indices of a table that fail a test: the first, as an error. -/
def firstBad (table check n : Nat) (ok : Nat → Bool) : Option LayoutErr :=
  ((List.range n).find? (fun i => !ok i)).map (fun i => (table, i, check))

def layCheck2 (b : List Byte) : Option LayoutErr :=
  let h := layHdr b
  let arrs := rawArrs b h.na h.ao
  (if zeroAt b 36 28 then none else some (0, 0, 2)) <|>
    firstBad 1 2 h.ns (fun i => spkRangeOk b (h.so + 32 * i)) <|>
    firstBad 2 2 h.nt (fun i => zeroAt b (h.tofs + 8 * i + 6) 2) <|>
    firstBad 3 2 h.na (fun i => match arrs[i]? with | some r => arrRangeOk b r | none => true) <|>
    firstBad 4 2 h.nz (fun i => asciiAt b (h.zo + 16 * i) 16)

/-- The layout a payload describes. -/
def layoutOf (b : List Byte) : Layout :=
  let h := layHdr b
  { id := u32 b 12, zones := h.nz, len := h.len
    speakers := (List.range h.ns).map (fun i =>
      let o := h.so + 32 * i
      ⟨xyz b o, u8 b (o + 16) == 1, (u8 b (o + 17)).testBit 0, u16 b (o + 18)⟩)
    tris := (List.range h.nt).map (fun i =>
      let o := h.tofs + 8 * i
      (u16 b o, u16 b (o + 2), u16 b (o + 4)))
    arrays := (rawArrs b h.na h.ao).map (fun r => ⟨r.kind == 1, r.taper, r.rows, r.cols, r.trim, r.elems⟩) }

def Layout.isFull (l : Layout) (i : Nat) : Bool := decide (i < l.speakers.length) && !(l.spk i).sub


/-- Check 4. -/
def Layout.triOk (l : Layout) (t : Nat × Nat × Nat) : Bool :=
  let vs := [t.1, t.2.1, t.2.2]
  vs.all (fun i => l.isFull i && decide (10000 ≤ (l.spk i).pos.sq)) && t.1 != t.2.1 && t.1 != t.2.2 && t.2.1 != t.2.2

/-- Check 5. -/
def Layout.detOk (l : Layout) (t : Nat × Nat × Nat) : Bool := (F32.ofRat 1 1000).le (l.triDet t).abs

/-- Two triangles have the same vertices (check 6). -/
def sameTri (a b : Nat × Nat × Nat) : Bool :=
  let w := [b.1, b.2.1, b.2.2]
  w.contains a.1 && w.contains a.2.1 && w.contains a.2.2

/-- Check 7: no cell lists more than 32 triangles. -/
def Layout.cellsFit (l : Layout) : Bool :=
  decide (l.tris.length ≤ 32) ||
    (List.range 64).all (fun az => (List.range 64).all (fun el => decide (countIf l.tris (l.listed (az, el)) ≤ 32)))

def nodupNat : List Nat → Bool
  | [] => true
  | x :: xs => !xs.contains x && nodupNat xs

/-- Check 8. -/
def Layout.arrOk (l : Layout) (x : SpkArray) : Bool :=
  let n := x.rows * x.cols
  decide (2 ≤ n) && decide (n ≤ 512) && nodupNat x.elems && x.elems.all (fun i => l.isFull i)

/-- Distance of a point from an array's fitted line or plane. -/
def SpkArray.distTo (x : SpkArray) (l : Layout) (p : V3) : F32 :=
  let ps := x.positions l
  let v := p.sub (centroid ps)
  if x.plane then (v.dot (fitNormal ps)).abs
  else
    let ax := fitAxis ps
    (v.sub (ax.smul (v.dot ax))).norm

/-- Check 9. -/
def Layout.arrFlat (l : Layout) (x : SpkArray) : Bool :=
  (x.positions l).all (fun p => (x.distTo l p.f).le (F32.ofInt 50))

/-- Check 10: neighbours along a row or a column. -/
def Layout.arrSpaced (l : Layout) (x : SpkArray) (spacing : Nat) : Bool :=
  let ps := x.positions l
  let ok (i j : Nat) : Bool :=
    let d := (subI (nth ps i P3.zero) (nth ps j P3.zero)).sq * 100
    decide ((81 * spacing * spacing : Nat) ≤ d) && decide (d ≤ (121 * spacing * spacing : Nat))
  (List.range x.rows).all (fun r => (List.range x.cols).all (fun c =>
    let k := r * x.cols + c
    (decide (x.cols ≤ c + 1) || ok k (k + 1)) && (decide (x.rows ≤ r + 1) || ok k (k + x.cols))))

/-- Check 11. -/
def Layout.arrAway (l : Layout) (x : SpkArray) : Bool := (F32.ofInt 500).le (x.distTo l ⟨F32.zero, F32.zero, F32.zero⟩)

/-- The checks of R83 in their order (R85, item 3). Check 7 is of a cell and names no record: triangle 0 stands for it
(notes/assumptions/33). -/
def layoutErr (b : List Byte) : Option LayoutErr :=
  if !layCheck1 b then some (0, 0, 1)
  else
    match layCheck2 b with
    | some e => some e
    | none =>
      let h := layHdr b
      let l := layoutOf b
      let raws := rawArrs b h.na h.ao
      let tri (i : Nat) := nth l.tris i (0, 0, 0)
      let arr (f : SpkArray → Bool) (i : Nat) : Bool := match l.arrays[i]? with | some x => f x | none => true
      firstBad 2 4 h.nt (fun i => l.triOk (tri i)) <|>
        firstBad 2 5 h.nt (fun i => l.detOk (tri i)) <|>
        firstBad 2 6 h.nt (fun i => !(l.tris.take i).any (sameTri (tri i))) <|>
        (if l.cellsFit then none else some (2, 0, 7)) <|>
        firstBad 3 8 h.na (arr l.arrOk) <|>
        firstBad 3 9 h.na (arr l.arrFlat) <|>
        firstBad 3 10 h.na (fun i => arr (fun x => l.arrSpaced x ((raws[i]?.map (·.spacing)).getD 0)) i) <|>
        firstBad 3 11 h.na (arr l.arrAway)

/-- The loaded layout's status words (R115). -/
def layoutStat : Option Layout → Nat
  | some l => 2 ^ 31 + l.zones <<< 26 + l.arrays.length <<< 20 + (l.speakers.length - 1)
  | none => 0

/-- A layout is in place of the previous one, whole (R85); enabled and disabled speakers follow its load flags (R122). -/
def State.setLayout (s : State) (l : Option Layout) : State :=
  let s := { s with plan.layout := l, plan.spkOver := [] }
  let s := s.wr Reg.GEO_LAYOUT_ID (match l with | some l => l.id | none => 0)
  (s.wr Reg.GEO_LAYOUT_STAT (layoutStat l)).irq Reg.GEO_IRQ_STAT Fl.GEO_IRQ_STAT_LAYOUT

/-! ### Commands -/

/-- Speakers of the loaded layout. -/
def State.speakers (s : State) : Nat := match s.plan.layout with | some l => l.speakers.length | none => 0

def specLayoutQuery : CmdSpec := cmdRow 0x0408 2 false 0 0 fwModes false
def cmdLayoutQuery (_p : Packet) (s : State) : CmdRes :=
  let (nt, dis, len) :=
    match s.plan.layout with
    | some l =>
      (l.tris.length, countIf (List.range l.speakers.length) (fun i => s.live.spkDisabled i (l.spk i)), l.len)
    | none => (0, 0, 0)
  .ok s (by4 (s.rd Reg.GEO_LAYOUT_ID) ++ by4 (s.rd Reg.GEO_LAYOUT_STAT) ++ by2 nt ++ by2 dis ++ by4 len)
/-- `LAYOUT_QUERY` (R119). -/
def execLayoutQuery (p : Packet) (s : State) : Out := runPacket specLayoutQuery p (cmdLayoutQuery p) s

/-- The registers of `GEO_CFG_SET` in order (R120). -/
def geoCfgRegs : List Nat :=
  [Reg.GEO_CFG, Reg.GEO_DATT, Reg.GEO_DATT_REF, Reg.GEO_NEAR, Reg.GEO_AIR, Reg.GEO_WF_MIN, Reg.GEO_DREF, Reg.GEO_OPT]

def between (lo hi x : Nat) : Bool := decide (lo ≤ x) && decide (x ≤ hi)

/-- The ranges of R113 and R114. -/
def geoCfgOk (v : Nat → Nat) : Bool :=
  between 30000 40000 (bitsN (v 0) 31 16) && between 1 8 (bitsN (v 0) 3 0) &&
    decide (v 1 ≤ 2000) && between 1 10000000 (v 2) && decide (1 ≤ bitsN (v 3) 31 16) && decide (1 ≤ bitsN (v 3) 15 0) &&
    between 1 10000000 (v 4) && decide (1 ≤ v 5) && decide (v 6 ≤ 10000000)

def specGeoCfgSet : CmdSpec := cmdRow 0x0501 0 true 32 32 fwModes true
def cmdGeoCfgSet (p : Packet) (s : State) : CmdRes :=
  let v (i : Nat) : Nat := u32 p.params (4 * i)
  let idx := geoCfgRegs.zipIdx
  if idx.any (fun x => !rsvOk x.1 (v x.2)) ∨ !geoCfgOk v then .fail s stBAD_PARAM []
  else .ok ((idx.foldl (fun s x => s.wr x.1 (v x.2)) s).squashAll) []
/-- `GEO_CFG_SET` (R120). -/
def execGeoCfgSet (p : Packet) (s : State) : Out := runPacket specGeoCfgSet p (cmdGeoCfgSet p) s

/-- Speed of sound in 0.01 m/s at a temperature in 0.01 °C (R107). -/
def soundAt (t : Int) : Nat := (isqrt (66260 * 66260 * (27315 + t).toNat / 27315) + 1) / 2

def specGeoTempSet : CmdSpec := cmdRow 0x0502 1 true 4 4 fwModes true
def cmdGeoTempSet (p : Packet) (s : State) : CmdRes :=
  let t := i16 p.params 0
  if !inRange t (-2000) 5000 ∨ !zeroAt p.params 2 2 then .fail s stBAD_PARAM []
  else
    let v := soundAt t
    .ok ((s.setFld Reg.GEO_CFG Fl.GEO_CFG_SOUND_MPS v).squashAll) (by2 v)
/-- `GEO_TEMP_SET` (R121). -/
def execGeoTempSet (p : Packet) (s : State) : Out := runPacket specGeoTempSet p (cmdGeoTempSet p) s

def specGeoSpkEnable : CmdSpec := cmdRow 0x0503 1 true 4 4 fwModes true
def cmdGeoSpkEnable (p : Packet) (s : State) : CmdRes :=
  let i := u16 p.params 0
  let op := u8 p.params 2
  if s.speakers ≤ i ∨ 1 < op ∨ u8 p.params 3 ≠ 0 then .fail s stBAD_PARAM []
  else .ok ({ s with plan.spkOver := Tab.put s.plan.spkOver i (op == 0) }.squashAll) []
/-- `GEO_SPK_ENABLE` (R122). -/
def execGeoSpkEnable (p : Packet) (s : State) : Out :=
  runPacket specGeoSpkEnable (p.withOp 2 1) (cmdGeoSpkEnable (p.withOp 2 1)) s
/-- `GEO_SPK_ENABLE` with byte 2 = 0 (R122). -/
def execGeoSpkDisable (p : Packet) (s : State) : Out :=
  runPacket specGeoSpkEnable (p.withOp 2 0) (cmdGeoSpkEnable (p.withOp 2 0)) s

def specGeoFrameQuery : CmdSpec := cmdRow 0x0504 2 false 2 2 fwModes false
def cmdGeoFrameQuery (p : Packet) (s : State) : CmdRes :=
  let k := u16 p.params 0
  if 1023 < k ∨ s.limit 0 ≤ k then .fail s stBAD_PARAM []
  else
    match Tab.look s.oms.frames k with
    | some f => .ok s f.bytes
    | none => .ok s (GFrame.bytes ⟨s.handleOf k, 0, 0, 0, flagBit ffEMPTY, []⟩)
/-- `GEO_FRAME_QUERY` (R123). -/
def execGeoFrameQuery (p : Packet) (s : State) : Out := runPacket specGeoFrameQuery p (cmdGeoFrameQuery p) s

def specGeoEval : CmdSpec := cmdRow 0x0506 2 false 48 48 fwModes false
/-- The evaluation stands for no folio, so its folio field is a free value (R124). Its ticket of Q32 to Q47 runs within the command
(notes/assumptions/49). -/
def cmdGeoEval (p : Packet) (s : State) : CmdRes :=
  let b := p.params
  let k := u16 b 0
  let pos := xyz b 4
  let g := i16 b 16
  let sp := u16 b 18
  let sz := u32 b 20
  match s.slotAt k, decodeAttrBody b 24 with
  | some o, some a =>
    if s.limit 0 ≤ k ∨ u16 b 2 ≠ 0 ∨ !pos.within 10000000 ∨ !levelOk g 600 ∨ 18000 < sp ∨ 1000000 < sz ∨
        !zeroAt b 40 8 then .fail s stBAD_PARAM []
    else
      let c := s.live
      let (dir, near) := heldDir c pos.f V3.plusY
      let e : Eval := ⟨0, o.epoch, true, some pos.f, g, sp, sz, a, dir, near⟩
      let f := c.frame s.fs o.quota (o.gen * 1024 + k) e
      let (v, s) := s.fresh
      .ok s (GFrame.bytes { f with folio := v })
  | _, _ => .fail s stBAD_PARAM []
/-- `GEO_EVAL` (R124). -/
def execGeoEval (p : Packet) (s : State) : Out := runPacket specGeoEval p (cmdGeoEval p) s

/-- The GEO counters in offset order (R117). -/
def geoCounters : List Nat :=
  [Reg.GEO_EVALS, Reg.GEO_QUOTA, Reg.GEO_DCLAMP, Reg.GEO_MESH_OUT, Reg.GEO_FALLBACK, Reg.GEO_EMPTY, Reg.GEO_WF_FRONT,
   Reg.GEO_NEAR_FRM]

def specGeoStats : CmdSpec := cmdRow 0x0505 2 false 0 0 fwModes false
def cmdGeoStats (_p : Packet) (s : State) : CmdRes :=
  let (s, bs) := s.takeCounters geoCounters
  .ok s bs
/-- `GEO_STATS` (R125). -/
def execGeoStats (p : Packet) (s : State) : Out := runPacket specGeoStats p (cmdGeoStats p) s

/-- Write a speaker index to `GEO_SPK_SEL` (R116). -/
def State.latchSpk (s : State) (v : Nat) : State :=
  let i := v % 512
  let w :=
    match s.plan.layout with
    | some l =>
      if i < l.speakers.length then
        let x := l.spk i
        x.zoneBits <<< 16 + 16 * b2n (l.arrays.any (fun a => a.elems.contains i)) + 8 * b2n (s.live.outConf i) +
          4 * b2n (s.live.spkDisabled i x) + 2 * b2n x.sub + 1
      else 0
    | none => 0
  (s.wr Reg.GEO_SPK_SEL i).wr Reg.GEO_SPK_STAT w

/-- `GEO_SPK_SEL` (R116). -/
def execGeoSpkSel (v t : Nat) (s : State) : Out := .next ((s.atTime t).latchSpk v)

end Sys2Proof.Machine
end

