-- ==== Sys2Proof/Machine/Fabric.lean ====
section
/-!
DEFINITION. The Render Fabric: the fetch and the work of each object (R136 to R141, R163 to R168, R171), object entry (R157,
R158), windows (R161, R165), accumulation (R170 to R176), the root (R177) and abandonment (R154).
-/

namespace Sys2Proof.Machine

/-! ### Sources -/

/-- Key of a source in the folio buffers: kind, index and channel as a binding names them (R47). -/
def srcKey (kind source chan : Nat) : Nat := kind * 2 ^ 20 + source * 64 + chan

/-- Samples of a source in a folio; a source that delivers nothing is silent. -/
def State.ingress (s : State) (n key : Nat) : List Int :=
  Tab.at (Tab.at s.dp.ing [] n) (zeros s.folioLen) key

def State.putIngress (s : State) (n key : Nat) (xs : List Int) : State :=
  { s with dp.ing := Tab.put s.dp.ing n (Tab.put (Tab.at s.dp.ing [] n) key xs) }

/-- The folio of a binding that entry of folio `n` takes: a mixer bus is one folio behind (R157). -/
def State.bound (s : State) (n : Nat) (b : Binding) : List Int :=
  match b.kind with
  | 0 => zeros s.folioLen
  | 3 => if n = 0 then zeros s.folioLen else s.ingress (n - 1) (srcKey 3 b.source 0)
  | k => s.ingress n (srcKey k b.source b.chan)

/-! ### Delays -/

/-- A delay state in 16.16 rounded to 1/256 sample, ties to the larger (R173). -/
def readDelay (d : Nat) : Nat := (d + 128) / 256

/-- Slew limit in 2⁻¹⁶ (R174, R180). -/
def RCfg.slew (c : RCfg) : Nat := max 1 (c.fld Reg.FAB_CFG Fl.FAB_CFG_DELAY_SLEW)

def clampStep (sig : Nat) (x : Int) : Int := clampI (-(sig : Int)) sig x

/-- The delay sweep with Doppler on (R174): per-sample states, the end state, and whether the limit acted. The rounded τ is not
negative, so that its ties go up. -/
def sweep (f sig d0 d1 : Nat) : List Nat × Nat × Bool :=
  let tau (i : Nat) : Int := rndDiv ((d0 : Int) * f + ((d1 : Int) - d0) * i) f
  let r := (List.range f).foldl
    (fun (acc : List Nat × Int × Bool) i =>
      let step := tau i - acc.2.1
      let c := clampStep sig step
      let d := acc.2.1 + c
      (acc.1 ++ [d.toNat], d, acc.2.2 || c != step)) ([], (d0 : Int), false)
  let last := (d1 : Int) - r.2.1
  let c := clampStep sig last
  (r.1, (r.2.1 + c).toNat, r.2.2 || c != last)

/-- Start and end read delays of a crosspoint over a folio (R164), and its end state. -/
def XpWork.ends (x : XpWork) (f sig : Nat) (doppler hold : Bool) : List Nat × Nat :=
  if hold then ([readDelay x.d0], x.d0)
  else if doppler then
    let e := (sweep f sig x.d0 x.d1).2.1
    ([readDelay x.d0, readDelay e], e)
  else ([readDelay x.d0, readDelay x.d1], readDelay x.d1 * 256)

/-! ### The fetch (R136 to R141) -/

/-- A frame's entries as committed states. -/
def GFrame.xps (f : GFrame) : List Xp := f.entries.map (fun e => ⟨e.1, e.2.1 * 256, e.2.2 * 256⟩)

def findXp (xs : List Xp) (o : Nat) : Option Xp := xs.find? (fun x => x.out == o)

/-- Outputs of two lists, ascending. -/
def outsOf (a b : List Xp) : List Nat :=
  ((a ++ b).foldl (fun t x => Tab.put t x.out ()) ([] : Tab Unit)).map (·.1)

/-- A crosspoint that a side lacks: gain 0 at the other side's delay (R140, R171). -/
def sideXp (a b : List Xp) (o : Nat) : Xp :=
  match findXp a o with
  | some x => x
  | none => ⟨o, 0, ((findXp b o).map (·.delay)).getD 0⟩

/-- The boundary state that a glide aims folio `j + i` at (R140). -/
def glideTo (st v : List Xp) (i g : Nat) : List Xp :=
  (outsOf st v).map (fun o =>
    let a := sideXp st v o
    let b := sideXp v st o
    let at' (x y : Nat) : Nat := (x + rndDiv (((y : Int) - x) * (i + 1 : Nat)) g).toNat
    ⟨o, at' a.gain b.gain, at' a.delay b.delay⟩)

/-- The crosspoints of a folio: from the committed state to the target (R171). -/
def workTo (st target : List Xp) : List XpWork :=
  (outsOf st target).map (fun o =>
    let a := sideXp st target o
    let b := sideXp target st o
    ⟨o, a.gain, a.delay, b.gain, b.delay⟩)

/-! A key below 1024 names a configured slot. A slot that is deconfigured has a key above for the folios that still need it (R24). -/

/-- A slot as the fabric sees it, by key. -/
def State.fabSlot (s : State) (k : Nat) : Option Slot := if k < 1024 then s.slotAt k else Tab.look s.fab.gone k

def State.putFab (s : State) (k : Nat) (o : Slot) : State :=
  if k < 1024 then s.setSlot k o else { s with fab.gone := Tab.put s.fab.gone k o }

/-- Keys of all slots the fabric holds. -/
def State.fabKeys (s : State) : List Nat := s.oms.slots.map (·.1) ++ s.fab.gone.map (·.1)

/-- The slot takes part in folio `n` (R24). -/
def Slot.inFolio (o : Slot) (n : Nat) : Bool := decide (o.since ≤ n) && o.ends.all (fun e => decide (n < e))

/-- The slots that folio `n` covers, in slot order. -/
def State.folioSlots (s : State) (n : Nat) : List Nat :=
  ((s.fabKeys.filter (fun k => (s.fabSlot k).any (fun o => o.inFolio n))).foldl
    (fun t k => Tab.put t (k % 1024) k) ([] : Tab Nat)).map (·.2)

/-- Change every slot the fabric holds. -/
def State.mapFab (s : State) (g : Slot → Slot) : State :=
  { s with
    oms.slots := s.oms.slots.map (fun (e : Nat × Slot) => (e.1, g e.2))
    fab.gone := s.fab.gone.map (fun (e : Nat × Slot) => (e.1, g e.2)) }

/-- The class and pages that a slot has for folio `n` (R24, R69). -/
def Slot.asOf (o : Slot) (n : Nat) : Slot :=
  match o.was.find? (fun e => decide (n < e.1)) with
  | some (_, c, ps) => { o with cls := c, pages := ps }
  | none => o

/-- The handle of a slot, by key. -/
def Slot.handle (o : Slot) (k : Nat) : Nat := o.gen * 1024 + k % 1024

/-- A frame that the fetch accepts (R136). -/
def Slot.accepted (o : Slot) (k n : Nat) : Option GFrame :=
  o.store.find? (fun f => f.folio == n && f.epoch == o.epoch && f.handle == o.handle k)

/-- Count the flags of a fetched frame (R111, R112). -/
def State.countFlags (s : State) (f : GFrame) : State :=
  [(ffQUOTA, Reg.GEO_QUOTA, Fl.GEO_IRQ_STAT_QUOTA), (ffDCLAMP, Reg.GEO_DCLAMP, Fl.GEO_IRQ_STAT_DCLAMP),
   (ffMESH_OUT, Reg.GEO_MESH_OUT, Fl.GEO_IRQ_STAT_MESH_OUT), (ffFALLBACK, Reg.GEO_FALLBACK, Fl.GEO_IRQ_STAT_FALLBACK),
   (ffEMPTY, Reg.GEO_EMPTY, Fl.GEO_IRQ_STAT_EMPTY), (ffWF_FRONT, Reg.GEO_WF_FRONT, Fl.GEO_IRQ_STAT_WF_FRONT),
   (ffNEAR, Reg.GEO_NEAR_FRM, Fl.GEO_IRQ_STAT_NEAR)].foldl
    (fun s x => if f.flags.testBit x.1 then (s.bump x.2.1).irq Reg.GEO_IRQ_STAT x.2.2 else s) s

/-- What the fetch decides for an object: hold, target, air field; the refill comes after. -/
structure Fetched where
  hold : Bool
  target : List Xp
  air : Nat

/-- Advance an object's glide to folio `n`: its target (R140). -/
def Slot.glided (o : Slot) (n : Nat) (v : List Xp) : List Xp :=
  match o.glide with
  | some g => if n < g.first + g.len then glideTo g.start v (n - g.first) g.len else v
  | none => v

/-- Start a glide at folio `n` from the committed state. -/
def Slot.startGlide (o : Slot) (n len : Nat) : Slot := { o with glide := some ⟨n, len, o.xps⟩, glideAt := none }

/-- The direction that R92 holds after folio `n`, of which no frame was fetched. -/
def State.passDir (s : State) (n : Nat) (o : Slot) : Option V3 :=
  match (s.objAt o n none).2.1 with
  | some p => if (p.norm).lt (s.evalCfg n).dmin then o.dirHeld else some p.normalise
  | none => o.dirHeld

/-- A hold (R138). -/
def State.holdOne (s : State) (k n : Nat) (o : Slot) : State × Fetched :=
  let s := (s.bump Reg.FAB_HOLD).irq Reg.FAB_IRQ_STAT Fl.FAB_IRQ_STAT_HOLD
  let s := s.sched srHOLD n (by2 (o.handle k) ++ leBytes 6 0)
  let o := { o with held := true, holdRun := o.holdRun + 1, glide := none, glideAt := none, dirHeld := s.passDir n o }
  (s.putFab k o, ⟨true, o.xps, (o.fetched.map (·.air)).getD 0⟩)

/-- A frame is fetched for folio `n` (R109, R123). -/
def State.takeFrame (s : State) (k n : Nat) (o : Slot) (f : GFrame) : State × Fetched :=
  let s := s.countFlags f
  let late := o.glideAt.any (fun j => decide (j ≤ n))
  let dir := match o.evals.find? (fun e => e.folio == n) with
    | some e => if e.pos.isSome then some e.dir else o.dirHeld
    | none => o.dirHeld
  let o := if late || o.held then o.startGlide n s.procCfg.glideLen else o
  let o := { o with fetched := some f, held := false, holdRun := 0, dirHeld := dir }
  let s := { s.putFab k o with oms.frames := Tab.put s.oms.frames (k % 1024) f }
  (s, ⟨false, o.glided n f.xps, f.air⟩)

/-- The fetch of one object for folio `n` (R136 to R141). `holds`: on a standby, the handles whose hold the active
recorded (R143). -/
def State.fetchOne (s : State) (k n : Nat) (holds : Option (List Nat)) : State × Option Fetched :=
  match s.fabSlot k with
  | none => (s, none)
  | some o =>
    if s.needsFrame o n then
      let got := o.accepted k n
      let s := if got.isNone && o.store.any (fun f => f.folio == n) then s.bump Reg.GEO_REFUSED else s
      let hold := match holds with
        | some hs => hs.contains (o.handle k)
        | none => got.isNone
      match hold, got with
      | false, some f =>
        let (s, x) := s.takeFrame k n o f
        (s, some x)
      | _, _ =>
        let (s, x) := s.holdOne k n o
        (s, some x)
    else
      let late := o.glideAt.any (fun j => decide (j ≤ n))
      let o := if late || (o.held && !o.xps.isEmpty) then o.startGlide n s.procCfg.glideLen else o
      let o := { o with held := false, holdRun := 0 }
      (s.putFab k o, some ⟨false, o.glided n [], 0⟩)

/-! ### Bulk delay and refills (R163 to R167) -/

/-- Usable span in samples (R163). -/
def spanOf (w f : Nat) : Nat := w - f - 8

/-- A read fits (R163): delays in 1/256 sample. -/
def fitsWin (w f b d : Nat) : Bool := decide ((b + 3) * 256 ≤ d) && decide (d ≤ (b + w - f - 4) * 256)

/-- The bulk delay that R164 asks for, and whether the class is too small. -/
def bulkFor (w f b : Nat) (ds : List Nat) : Nat × Bool :=
  if ds.all (fitsWin w f b) then (b, false)
  else
    let lo := ds.foldl min (ds.headD 0)
    let hi := ds.foldl max 0
    let sw := spanOf w f * 256
    if hi - lo ≤ sw then (lo / 256 - 3 - min 256 ((sw - (hi - lo)) / 512), false) else (lo / 256 - 3, true)

/-- Samples to write beyond a folio's own when the bulk delay moves (R165, R166). -/
def refillOf (w f b0 b1 : Nat) : Nat := min w (((f : Int) + b0 - b1).natAbs) - f

/-- Build the work of one object from what was fetched (R151, R164 to R167). The bool grants a refill. -/
def objWork (c : RCfg) (f n : Nat) (o : Slot) (x : Fetched) (xs : List XpWork) (grant : Bool) : ObjWork :=
  let o := o.asOf n
  let w := classLen o.cls
  let dop := o.app.attr.options.testBit 1
  let ds := xs.flatMap (fun y => (y.ends f c.slew dop x.hold).1)
  let (b, small) := bulkFor w f o.bulk ds
  let lo := ds.foldl min (ds.headD 0)
  let hi := ds.foldl max 0
  { folio := n, hold := x.hold, doppler := dop, air := x.air, bOld := o.bulk, bNew := if grant then b else o.bulk,
    deferred := !grant, clamp := grant && small, dLo := lo, dHi := hi, xps := xs }

/-- The entries of a target for configured outputs, and how many were discarded (R171). -/
def RCfg.keepConf (c : RCfg) (xs : List Xp) : List Xp × Nat :=
  let ok := xs.filter (fun x => c.outConf x.out)
  (ok, xs.length - ok.length)

/-- Entry sample of time `u` of an object whose latest entered folio ends before time `endT`. -/
def Slot.entrySample (o : Slot) (endT : Int) (u : Int) : Int :=
  if endT ≤ u then 0 else nth o.fifo (endT - 1 - u).toNat 0

/-- Address of window sample `a` of an object (R160, R161). -/
def Slot.winAddr (o : Slot) (a : Nat) : Nat := winBase + nth o.pages (a / 512) 0 * 2048 + a % 512 * 4

/-- Window address of time `u`. -/
def Slot.timeAddr (o : Slot) (u : Int) : Nat := o.winAddr (u % (classLen o.cls : Int)).toNat

/-- Write entry samples of the times `from … from+count-1` into the window (R165). -/
def State.feedWindow (s : State) (o : Slot) (endT first : Int) (count : Nat) : State :=
  (List.range count).foldl
    (fun s (i : Nat) =>
      let u := first + i
      s.busWrite (o.timeAddr u) (si4 (o.entrySample endT u))) s

/-- A class or a slot that is new at folio `n` (R24, R69): its bulk delay is 0, and its window holds the entry samples that R163 asks
for before the folio's own feed. -/
def State.switchWindow (s : State) (k n : Nat) : State :=
  match s.fabSlot k with
  | none => s
  | some o =>
    if o.was.any (fun e => decide (e.1 ≤ n)) then
      let o := { o with was := o.was.filter (fun e => decide (n < e.1)), bulk := 0 }
      let w := classLen (o.asOf n).cls
      let endT : Int := n * s.folioLen
      (s.putFab k o).feedWindow (o.asOf n) endT (endT - w) w
    else s

/-- Fetch for every object of folio `n`, with the refills granted in slot order after the last granted (R166). -/
def State.fetchAll (s : State) (n : Nat) (holds : Option (List Nat)) : State :=
  let c := s.procCfg
  let f := s.folioLen
  let all := s.folioSlots n
  let ks := all.filter (fun k => decide (s.fab.granted < k % 1024)) ++ all.filter (fun k => decide (k % 1024 ≤ s.fab.granted))
  let s := all.foldl (fun s k => s.switchWindow k n) s
  -- the fetch itself goes in slot order, the refills in theirs
  let r := all.foldl
    (fun (acc : State × Tab Fetched) k =>
      match acc.1.fetchOne k n holds with
      | (s, some x) =>
        let (ok, disc) := if x.hold then (x.target, 0) else c.keepConf x.target
        (s.count Reg.FAB_OUT_DISC disc, Tab.put acc.2 k { x with target := ok })
      | (s, none) => (s, acc.2)) (s, [])
  let res := ks.foldl
    (fun (acc : State × Nat) k =>
      let s := acc.1
      match s.fabSlot k, Tab.look r.2 k with
      | some o, some x =>
        let xs := workTo o.xps x.target
        let w := classLen (o.asOf n).cls
        let full := objWork c f n o x xs true
        let need := refillOf w f o.bulk full.bNew
        let ok := decide (need ≤ acc.2)
        let work := if ok then full else objWork c f n o x xs false
        let s :=
          if ok then
            let s := s.count Reg.FAB_REFILL need
            if 0 < need then { s with fab.granted := k % 1024 } else s
          else (s.bump Reg.FAB_REFILL_DEFER).irq Reg.FAB_IRQ_STAT Fl.FAB_IRQ_STAT_REFILL_DEFER
        (s.putFab k { o with work := some work, entered := false, nextXps := none, refillDef := !ok,
                              dopplerOn := work.doppler }, if ok then acc.2 - need else acc.2)
      | _, _ => acc) (r.1, 4096 * f)
  { res.1 with fab.folio := some n }

/-- Issue the fabric tickets of folio `n` (R151). -/
def State.fabTickets (s : State) (n : Nat) : State :=
  let ks := s.folioSlots n
  s.issueAll 2 (((List.range 64).filter (fun j => ks.any (fun k => k % 1024 / 16 == j))).map (fun j => hwTicket tkFAB n j))

/-! ### Object entry (R157, R158) -/

/-- The trimmed samples of a binding (R157, step 1). -/
def trimmed (b : Binding) (xs : List Int) : List Int := xs.map (fun x => mulQ 21 x (levelQ 21 b.trim))

/-- The samples that enter for folio `n`, before the air filter (R157, steps 1 and 2). -/
def State.entryOf (s : State) (o : Slot) (n : Nat) : List Int :=
  let f := s.folioLen
  let now := o.bindAt n
  let new := trimmed now (s.bound n now)
  if o.binds.any (fun b => b.1 == n) ∧ 0 < n then
    let old := o.bindAt (n - 1)
    let prev := trimmed old (s.bound n old)
    (List.range f).map (fun i => crossfade f i (nth prev i 0) (nth new i 0))
  else new

/-- The air-absorption filter (R158). -/
def airFilter (a : Nat) (y : Int) : List Int → List Int
  | [] => []
  | x :: xs =>
    let z := if a = 0 then x else sat27 (y + rndShr (a * (x - y)) 16)
    z :: airFilter a z xs

/-- Object entry and window feed of one object (R153, R157, R165). -/
def State.enterObject (s : State) (k : Nat) : State :=
  match s.fabSlot k with
  | none => s
  | some o =>
    match o.work with
    | none => s
    | some x =>
      if o.entered then s
      else
        let f := s.folioLen
        let w := classLen (o.asOf x.folio).cls
        let xs := airFilter x.air o.air (s.entryOf o x.folio)
        let o := { o with
          air := xs.getLast?.getD o.air
          fifo := (xs.reverse ++ o.fifo).take 96000
          entered := true
          bulk := x.bNew }
        let endT : Int := (x.folio + 1) * f
        let hi : Int := endT - x.bNew
        let hi0 : Int := endT - f - x.bOld
        let sh := hi - hi0
        let cnt := min w sh.natAbs
        let first := if 0 ≤ sh then hi - cnt else hi - w
        (s.putFab k o).feedWindow (o.asOf x.folio) endT first cnt

/-! ### Accumulation (R167 to R176) -/

/-- A window sample as a tap reads it; poisoned data counts 0 (R176). -/
def State.tap (s : State) (o : Slot) (u : Int) : Int :=
  let a := o.timeAddr u
  if (s.poisonIn a 4).isSome then 0 else toS 32 (leVal (s.rdBytes a 4))

/-- A read delay as the window allows it (R166 to R168), and whether it was set down, or rounded under R168. -/
def clampRead (w f b d : Nat) : Nat × Bool × Bool :=
  if b = 0 ∧ d < 768 then ((d + 128) / 256 * 256, false, true)
  else if d < (b + 3) * 256 then ((b + 3) * 256, false, false)
  else if (b + w - f - 4) * 256 < d then ((b + w - f - 4) * 256, true, false)
  else (d, false, false)

/-- The interpolated value at a read delay for output time `t` (R170). -/
def State.interp (s : State) (o : Slot) (t : Int) (d : Nat) : Int :=
  let n : Int := d / 256
  let q := interpRow (d % 256)
  if d % 256 = 0 then s.tap o (t - n)
  else sat27 (rndShr (sumI ((List.range 8).map (fun k => nth q k 0 * s.tap o (t - n + 3 - k)))) 22)

/-- What a crosspoint adds over a folio. -/
structure XpDone where
  /-- Products in Q16.31, by sample. -/
  adds : List Int
  last : Xp
  keep : Bool
  slewed : Bool
  faded : Bool
  short : Bool
  down : Bool

/-- Gain of sample `i` (R172). -/
def XpWork.gain (x : XpWork) (f i : Nat) : Int := x.g0 + rndDiv (((x.g1 : Int) - x.g0) * i) f

/-- One crosspoint over a folio (R171 to R176). -/
def State.runXp (s : State) (sig : Nat) (o : Slot) (wk : ObjWork) (x : XpWork) : XpDone :=
  let f := s.folioLen
  let w := classLen o.cls
  let t0 : Int := wk.folio * f
  let cr := clampRead w f wk.bNew
  let prod (i : Nat) (y : Int) : Int := rndShr (x.gain f i * y) 19
  let fin (e : Nat) : Xp := ⟨x.out, x.g1, e⟩
  let keep := decide (0 < x.g1)
  if !wk.hold && wk.doppler then
    let (ds, e, sl) := sweep f sig x.d0 x.d1
    let rs := ds.map (fun d => cr (readDelay d))
    ⟨(List.range f).map (fun i => prod i (s.interp o (t0 + i) (nth rs i (0, false, false)).1)), fin e, keep, sl, false,
      rs.any (·.2.2), rs.any (·.2.1)⟩
  else
    let a := readDelay x.d0
    let b := if wk.hold then a else readDelay x.d1
    let ra := cr a
    let rb := cr b
    if a = b then
      ⟨(List.range f).map (fun i => prod i (s.interp o (t0 + i) rb.1)), fin (if wk.hold then x.d0 else b * 256), keep,
        false, false, rb.2.2, rb.2.1⟩
    else
      ⟨(List.range f).map (fun i =>
          prod i (crossfade f i (s.interp o (t0 + i) ra.1) (s.interp o (t0 + i) rb.1))), fin (b * 256), keep,
        false, true, ra.2.2 || rb.2.2, ra.2.1 || rb.2.1⟩

/-- The class that would suffice (R167): 0xF when none does. -/
def needClass (f span : Nat) : Nat :=
  ((List.range 5).find? (fun c => decide (span ≤ (classLen c - f - 8) * 256))).getD 0xF

/-- The latch, count and log entry of a class too small (R167). -/
def State.classClamp (s : State) (k : Nat) (o : Slot) (need : Nat) : State :=
  let slot := k % 1024
  let s := (s.bump Reg.FAB_CLAMP).irq Reg.FAB_IRQ_STAT Fl.FAB_IRQ_STAT_CLAMP
  let s := s.wr Reg.FAB_CLAMP_LAST (2 ^ 31 + need <<< 16 + slot)
  let due := match o.clampLogAt with
    | some t => decide (t + 10000000000 ≤ s.now)
    | none => true
  let s := if due then s.logEventFree 0x0A01 slot else s
  s.putFab k { o with need := need, clampNow := true, nClamps := min (o.nClamps + 1) 0xFFFFFFFF,
                       clampLogAt := if due then some s.now else o.clampLogAt }

/-- Accumulate the crosspoints of one object (R153, stage 2). -/
def State.accumObject (s : State) (k : Nat) : State :=
  match s.fabSlot k with
  | none => s
  | some o =>
    match o.work with
    | none => s
    | some wk =>
      let f := s.folioLen
      let sig := s.procCfg.slew
      let rs := wk.xps.map (fun x => s.runXp sig (o.asOf wk.folio) wk x)
      let s := s.count Reg.FAB_SLEW (countIf rs (·.slewed))
      let s := s.count Reg.FAB_XFADE (countIf rs (·.faded))
      let s := s.count Reg.FAB_SHORTD (countIf rs (·.short))
      let acc := (wk.xps.zip rs).foldl
        (fun acc y => ((List.range f).zip y.2.adds).foldl
          (fun acc z => Tab.put acc (y.1.out * f + z.1) (Tab.at acc 0 (y.1.out * f + z.1) + z.2)) acc) s.fab.acc
      let o := { o with nextXps := some ((rs.filter (·.keep)).map (·.last)), clampNow := false }
      let s := { s.putFab k o with fab.acc := acc }
      if wk.clamp && rs.any (·.down) then s.classClamp k o (needClass f (wk.dHi - wk.dLo)) else s

/-- The objects of a group with work for folio `n`. -/
def State.groupSlots (s : State) (j n : Nat) : List Nat :=
  s.fabKeys.filter (fun k => k % 1024 / 16 == j && (s.fabSlot k).any (fun o => o.work.any (fun x => x.folio == n)))

/-- Errors that reads of the quire accumulators meet (R148, R530 to R532): the accumulator, and 0 for one that is corrected, 1 for a
transient one, else a lasting one. A lasting error zeroes one quire's part of the sum, and no rule says how the sum is spread over the
quires, so the sum that is left is free. The bank list of R528 names no bank of a quire: no log entry and no repair. -/
def State.quireErrors (s : State) (ecc : List (Nat × Nat)) : State :=
  ecc.foldl
    (fun s e =>
      match e.2 with
      | 0 => (s.bump Reg.MEM_CE).irq Reg.MEM_IRQ_STAT Fl.MEM_IRQ_STAT_CE
      | 1 => (s.bump Reg.MEM_UE_TRANS).irq Reg.MEM_IRQ_STAT Fl.MEM_IRQ_STAT_UE_TRANS
      | _ =>
        let s := (s.bump Reg.MEM_UE_LAST).irq Reg.MEM_IRQ_STAT Fl.MEM_IRQ_STAT_UE_LAST
        { s with
          fab.acc := Tab.put s.fab.acc e.1 (Config.freeInt s.freeCtr)
          freeCtr := s.freeCtr + 1 }) s

/-- `FAB_TICKET_DONE` (R153): engine `e` completes a group; `reads` is what it met in the quire store. -/
def execFabTicketDone (e : Nat) (reads : QuireReads) (t : Nat) (s : State) : Out :=
  let s := s.atTime t
  match s.runningOn e [tkFAB] with
  | none => .next s
  | some x =>
    let s := (s.count Reg.FAB_BANK_STALL reads.stalls).quireErrors reads.ecc
    let s :=
      if s.fab.folio = some x.tk.folio then
        let ks := s.groupSlots x.tk.item x.tk.folio
        let s := ks.foldl (fun s k => s.enterObject k) s
        ks.foldl (fun s k => s.accumObject k) s
      else s
    let s := s.finishTicket e x
    .next (State.startNext State.onStart 3 s e)

/-! ### The root (R177) and abandonment (R154) -/

/-- Outputs configured for the folio being processed. -/
def State.procOutputs (s : State) : List Nat := (List.range 512).filter (fun o => s.procCfg.outConf o)

/-- Record the completion time of a folio (R181). -/
def State.fabDone (s : State) (cycles : Nat) : State :=
  let c := min cycles 0xFFFFFFFF
  (s.wr Reg.FAB_DONE c).wr Reg.FAB_DONE_MAX (max c (s.rd Reg.FAB_DONE_MAX))

/-- Phase-A tickets of folio `n` are issued once the root has written it and the render-domain mixer has completed it
(R191). -/
def State.tryPha (s : State) (n : Nat) : State :=
  if s.dp.complete.contains (tkROOT, n, 0) && s.itemDone tkMIX n 0 && !s.dp.issued.any (fun x => x.1 == tkPHA && x.2.1 == n) then
    let os := s.procOutputs
    s.issueAll 5 (((List.range 32).filter (fun j => os.any (fun o => o / 16 == j))).map (fun j => hwTicket tkPHA n j))
  else s

/-- The crosspoints of an object reach the end of folio `n` (R153, R183). -/
def Slot.committed (o : Slot) : Slot :=
  match o.nextXps, o.work with
  | some xs, some wk => { o with xps := xs, nextXps := none, work := none, shown := (wk.bNew, min (wk.dHi - wk.dLo) 0xFFFFFF) }
  | _, _ => o

/-- `ROOT_WRITE` (R153, R177): the partial sums are reduced and the crosspoints' states committed; `reads` is what the
reduction's reads met. -/
def execRootWrite (reads : RootReads) (s : State) : Out :=
  let s := s.atTime reads.time
  match s.fab.folio with
  | none => .next s
  | some n =>
    if !s.allDone tkFAB n ∨ s.slot ≠ n + 1 then .next s
    else
      let s := s.quireErrors reads.ecc
      let f := s.folioLen
      let raw := s.procOutputs.map (fun o =>
        (o, (List.range f).map (fun i => rndShr (Tab.at s.fab.acc 0 (o * f + i)) 4)))
      let sats := (raw.map (fun x => countIf x.2 (fun y => sat27 y != y))).sum
      let s := if 0 < sats then (s.count Reg.FAB_SAT sats).irq Reg.FAB_IRQ_STAT Fl.FAB_IRQ_STAT_SAT else s
      let s := { s with
        fab.root := some (n, raw.map (fun (x : Nat × List Int) => (x.1, x.2.map sat27)))
        fab.acc := []
        fab.folio := none
        dp.complete := s.dp.complete ++ [(tkROOT, n, 0)] }
      .next (((s.mapFab Slot.committed).fabDone (s.now - s.dp.tickNow)).tryPha n)

/-- The fabric folio in work is abandoned (R154): its entries and feeds complete, its sums are cleared, the crosspoints keep their
states, and its tickets that have not begun are no longer waited for. -/
def State.abandonFab (s : State) : State :=
  match s.fab.folio with
  | none => s
  | some n =>
    let mine (k : Ticket) : Bool := k.kind == tkFAB && k.folio == n
    let s := s.fabKeys.foldl (fun s k => s.enterObject k) s
    let s := s.cancelTickets mine
    let s := { s with
      fab.acc := []
      fab.folio := none
      dp.issued := s.dp.issued.filter (fun x => !(x.1 == tkFAB && x.2.1 == n && !s.stbl.running.any (fun e => mine e.2.tk && e.2.tk.item == x.2.2))) }
    let s := s.mapFab (fun o => { o with nextXps := none, work := none })
    ((s.bump Reg.FAB_ABANDON).irq Reg.FAB_IRQ_STAT Fl.FAB_IRQ_STAT_ABANDON).fabDone 0xFFFFFFFF

/-- `FAB_ABANDON` (R154): slot n+1 has ended. -/
def execFabAbandon (t : Nat) (s : State) : Out :=
  let s := s.atTime t
  match s.fab.folio with
  | some n => if n + 2 ≤ s.slot then .next s.abandonFab else .next s
  | none => .next s

/-! ### Commands -/

def specFabCfgSet : CmdSpec := cmdRow 0x0601 0 true 4 4 fwModes true
def cmdFabCfgSet (p : Packet) (s : State) : CmdRes :=
  let v := u32 p.params 0
  if !rsvOk Reg.FAB_CFG v then .fail s stBAD_PARAM [] else .ok (s.wr Reg.FAB_CFG v) []
/-- `FAB_CFG_SET` (R185). -/
def execFabCfgSet (p : Packet) (s : State) : Out := runPacket specFabCfgSet p (cmdFabCfgSet p) s

def specFabObjQuery : CmdSpec := cmdRow 0x0602 2 false 2 2 fwModes false
def cmdFabObjQuery (p : Packet) (s : State) : CmdRes :=
  match s.slotAt (u16 p.params 0) with
  | none => .fail s stBAD_PARAM []
  | some o =>
    .ok s (by4 o.shown.1 ++ by4 o.shown.2 ++ by1 o.cls ++ by1 o.need ++
      by1 (b2n o.clampNow + 2 * b2n o.refillDef + 4 * b2n o.held + 8 * b2n o.dopplerOn) ++ by1 0 ++ by4 o.nClamps)
/-- `FAB_OBJ_QUERY` (R186). -/
def execFabObjQuery (p : Packet) (s : State) : Out := runPacket specFabObjQuery p (cmdFabObjQuery p) s

/-- The FAB counters in offset order (R184). -/
def fabCounters : List Nat :=
  [Reg.FAB_HOLD, Reg.FAB_CLAMP, Reg.FAB_SAT, Reg.FAB_REFILL, Reg.FAB_REFILL_DEFER, Reg.FAB_XFADE, Reg.FAB_SLEW,
   Reg.FAB_SHORTD, Reg.FAB_ABANDON, Reg.FAB_BANK_STALL, Reg.FAB_OUT_DISC]

def specFabStats : CmdSpec := cmdRow 0x0603 2 false 0 0 fwModes false
def cmdFabStats (_p : Packet) (s : State) : CmdRes :=
  let (s, bs) := s.takeCounters fabCounters
  .ok s bs
/-- `FAB_STATS` (R187). -/
def execFabStats (p : Packet) (s : State) : Out := runPacket specFabStats p (cmdFabStats p) s

def specFabInterpTable : CmdSpec := cmdRow 0x0604 2 false 2 2 fwModes false
def cmdFabInterpTable (p : Packet) (s : State) : CmdRes :=
  let first := u8 p.params 0
  let n := if u8 p.params 1 = 0 then 256 else u8 p.params 1
  if 256 < first + n then .fail s stBAD_PARAM []
  else .ok s ((List.range n).flatMap (fun i => (interpRow (first + i)).flatMap si4))
/-- `FAB_INTERP_TABLE` (R188). -/
def execFabInterpTable (p : Packet) (s : State) : Out := runPacket specFabInterpTable p (cmdFabInterpTable p) s

/-- Write a slot to `FAB_OBJ_SEL` (R183). -/
def State.latchFab (s : State) (v : Nat) : State :=
  let k := v % 1024
  let (b, d) := match s.slotAt k with | some o => o.shown | none => (0, 0)
  ((s.wr Reg.FAB_OBJ_SEL k).wr Reg.FAB_OBJ_BULK b).wr Reg.FAB_OBJ_SPAN d

/-- `FAB_OBJ_SEL` (R183). -/
def execFabObjSel (v t : Nat) (s : State) : Out := .next ((s.atTime t).latchFab v)

/-- A read of `FAB_CLAMP_LAST` clears it (R182). -/
def execFabClampLastRead (t : Nat) (s : State) : Out :=
  let s := s.atTime t
  .next ((s.wr Reg.FAB_CLAMP_LAST 0).readReturns (s.rd Reg.FAB_CLAMP_LAST))

end Sys2Proof.Machine
end

