-- ==== Sys2Proof/Machine/Stim.lean ====
section
/-!
DEFINITION. What the measurement block puts into an output chain: the stimulus of MEASURE (R263 to R265) and the in-show
probe (R269, R270).
-/

namespace Sys2Proof.Machine

/-- The hash of R205. -/
def ditherHash (t o : Nat) : Nat :=
  let w : Nat := 2 ^ 32
  let v := Nat.xor (Nat.xor (t % w * 0x9E3779B9 % w) (t / w % w)) (o * 0x85EBCA6B % w)
  let v := Nat.xor v (v / 2 ^ 16)
  let v := v * 0x7FEB352D % w
  let v := Nat.xor v (v / 2 ^ 15)
  let v := v * 0x846CA68B % w
  Nat.xor v (v / 2 ^ 16)

/-- `10^(g/2000)` of a level in 0.01 dB, with 100 fraction bits. -/
def fxGain (g : Int) : Int :=
  let r := fxExp (rndDiv (fxLn10 * g) 2000)
  if 0 ≤ r.2 then r.1 * 2 ^ r.2.toNat else rndShr r.1 (-r.2).toNat

/-- Group delay of a decimation preset in output samples (R259). -/
def presetDelay (p : Nat) : Nat := if p = 0 then 17 else if p = 1 then 43 else if p = 2 then 101 else 202

/-! ### Stimuli (R264, R265) -/

/-- Feedback taps of a maximum-length sequence. -/
def mlsTaps : Nat → List Nat
  | 12 => [12, 11, 10, 4]
  | 13 => [13, 12, 11, 8]
  | 14 => [14, 13, 12, 2]
  | 15 => [15, 14]
  | 16 => [16, 15, 13, 4]
  | 17 => [17, 14]
  | _ => [18, 11]

/-- One step of the register: bit `m` leaves, the feedback enters as bit 1. -/
def mlsStep (m r : Nat) : Nat :=
  let fb := (mlsTaps m).foldl (fun b k => xor b (r.testBit (k - 1))) false
  r * 2 % 2 ^ m + b2n fb

/-- The register after `k` steps. -/
def mlsAt (m : Nat) : Nat → Nat
  | 0 => 2 ^ m - 1
  | k + 1 => mlsStep m (mlsAt m k)

/-- Samples of one repetition: stimulus and tail, or one period. -/
def Sweep.period (w : Sweep) (fs : Nat) : Nat := if w.kind = 1 then 2 ^ w.dur - 1 else w.dur * fs / 10 + w.tail * fs / 1000

/-- Samples of the whole stimulus after the pre-roll. -/
def Sweep.length (w : Sweep) (fs : Nat) : Nat := (if w.kind = 1 then w.reps + 1 else w.reps) * w.period fs

/-- The 5 ms cos² fades of a sweep at sample `k` of `n`. -/
def sweepFade (fs n k : Nat) (x : Int) : Int :=
  let up := if 200 * k < fs then rndShr (x * fxSin2 (200 * k) fs) 100 else x
  let rest := n - k
  if 200 * rest < fs then rndShr (up * fxSin2 (200 * rest) fs) 100 else up

/-- The exponential sweep of unit peak at sample `j` (R264), in Q5.27: the exact value rounded, its last bit free
(notes/assumptions/30). -/
def Sweep.sine (w : Sweep) (fs j : Nat) : Int :=
  let n := w.dur * fs / 10
  let l := fxLn w.f2 0 - fxLn w.f1 0
  let e := fxExp (rndDiv (l * j) n)
  -- in turns: f1·T/ln(f2/f1)·(e^(…) − 1)
  let turns := rndDiv (fxDiv (e.1 * 2 ^ e.2.toNat - fxOne) l * (w.f1 * w.dur : Nat)) 10
  let v := fxSinTurn (turns % fxOne).toNat fxOne.toNat
  rndShr v 73 + (if v % 2 ^ 73 = 0 then 0 else clampI (-1) 1 (Config.lastBit 20 v j))

/-- The base value of R269 at a media time and output index, in 2⁻¹⁶. -/
def probeBase (t o : Nat) : Int :=
  let v := ditherHash t (o + 0x200)
  ((v % 65536 : Nat) : Int) + (v / 65536 : Nat) - 65535

/-- The pink-weighted sequence of R269 at a media time and output index. -/
def pinkAt (t o : Nat) : Int := Config.pinkWeight (fun k => if k ≤ t then probeBase (t - k) o else 0)

/-- The stimulus at sample `k` from its start (R264). -/
def Sweep.sample (w : Sweep) (fs k : Nat) : Int :=
  if w.length fs ≤ k then 0
  else
    let a := levelQ 27 w.level
    let j := k % w.period fs
    let n := w.dur * fs / 10
    match w.kind with
    | 0 => if n ≤ j then 0 else sweepFade fs n j (mulQ 27 (w.sine fs j) a)
    | 1 => if (mlsAt w.dur j).testBit (w.dur - 1) = Config.mlsOnePositive then a else -(a : Int)
    | _ => if n ≤ j then 0 else mulQ 27 (pinkAt (w.start + k) 0x1FF) a

/-- The stimulus over folio `n`, where output `o` is measured; a sample of the folio leaves `2·F` later. -/
def State.stimulus (s : State) (n o : Nat) : List Int :=
  let f := s.folioLen
  match s.meas.sweep with
  | some w =>
    if w.out = o then
      (List.range f).map (fun i =>
        if (n + 2) * f + i < w.start then 0 else sat27 (w.sample s.fs ((n + 2) * f + i - w.start)))
    else zeros f
  | none => zeros f

/-- A part of the chain of output `o` is bypassed by the sweep's flags (R263): bit 0 stages 4 to 6, bit 1 stage 3. -/
def State.sweepBypass (s : State) (o bit : Nat) : Bool :=
  s.dp.mode == mMEASURE && s.meas.sweep.any (fun w => w.out == o && w.flags.testBit bit)

/-! ### The probe (R269, R270) -/

/-- Groups that have members, ascending. -/
def RCfg.prbGroups (c : RCfg) : List Nat := (List.range 16).filter (fun g => c.plan.groupOf.any (fun e => e.2 == g))

/-- Samples per group of the rotation (R271). -/
def RCfg.prbPeriod (c : RCfg) : Nat := c.fld Reg.MEAS_PRB_CFG Fl.MEAS_PRB_CFG_INTEG_S * c.fs

/-- The group that runs at a media time: the rotation is a fixed function of it (R271). -/
def RCfg.groupAt (c : RCfg) (t : Nat) : Option Nat :=
  let gs := c.prbGroups
  if !c.flag Reg.MEAS_PRB_CFG Fl.MEAS_PRB_CFG_EN || gs.isEmpty || c.prbPeriod == 0 then none else gs[t / c.prbPeriod % gs.length]?

/-- The group of an output runs at a media time. -/
def RCfg.runsAt (c : RCfg) (o t : Nat) : Bool :=
  match Tab.look c.plan.groupOf o with
  | some g => c.groupAt t == some g
  | none => false

/-- Probing is on for an output of a group: also on a standby, whose data plane acts as in RENDER (R269). -/
def State.probing (s : State) (o : Nat) : Bool :=
  s.dp.mode == mRENDER && s.procCfg.flag Reg.MEAS_PRB_CFG Fl.MEAS_PRB_CFG_EN && (Tab.look s.procCfg.plan.groupOf o).isSome

/-- The programme power after a sample: a one-pole average over 1 s of full scale squared, with 100 fraction bits (R270). -/
def powerNext (fs : Nat) (p x : Int) : Int :=
  Config.powerRound (p + fxMul (fxOne - fxExpNeg (rndDiv fxOne fs)) (x * x * 2 ^ 46 - p))

/-- The probe level P from a power: `DEPTH` dB below it, with 100 fraction bits (R270). -/
def probeLevel (depth : Nat) (p : Int) : Int := fxMul (fxSqrt p) (fxGain (-100 * depth))

/-- -80 dBFS. -/
def quietLevel : Int := fxGain (-8000)

/-- The probe over a folio given s6, at the samples where its group runs. `t0` is the media time at which the folio's first sample leaves. -/
def probeFolio (c : RCfg) (fs n t0 o : Nat) (p0 : Int) (s6 : List Int) : ProbeNow :=
  let depth := c.fld Reg.MEAS_PRB_CFG Fl.MEAS_PRB_CFG_DEPTH
  let fixed := c.flag Reg.MEAS_PRB_CFG Fl.MEAS_PRB_CFG_QUIET_ACT
  let step (a : ProbeNow) (y : Nat × Int) : ProbeNow :=
    let p := powerNext fs a.power y.2
    let lvl := probeLevel depth p
    let on := c.runsAt o (t0 + y.1)
    let stops := on && decide (lvl < quietLevel) && !fixed
    let lvl := max lvl quietLevel
    let live := on && !stops
    let v := if live then rndShr (pinkAt (t0 + y.1) o * lvl) 100 else 0
    { a with xs := v :: a.xs, quiet := a.quiet || stops, power := p,
             lo := if live && (decide (lvl < a.lo) || a.lo == 0) then lvl else a.lo, hi := if live then max a.hi lvl else a.hi }
  let r := ((List.range s6.length).zip s6).foldl step ⟨n, [], false, p0, 0, 0⟩
  { r with xs := r.xs.reverse }

end Sys2Proof.Machine
end

