-- ==== Sys2Proof/Machine/Output.lean ====
section
/-!
DEFINITION. The loudspeaker output chain: sections (R192 to R194), bed feed and bass management (R195 to R198), alignment
(R199), gain (R201), the limiter (R202, R203), silence detection (R209), monitoring (R214), and the commands of R218.
-/

namespace Sys2Proof.Machine

/-! ### Sections (R192 to R194) -/

def Hist.zero : Hist := ⟨0, 0, 0, 0⟩

/-- Saturate a section's output in Q5.43, at the limit of every saturation of the chain (R189). -/
def sat43 (x : Int) : Int := clampI (-((2 ^ 31 - 1) * 2 ^ 16)) ((2 ^ 31 - 1) * 2 ^ 16) x

/-- One sample through a section: the next history, the output in Q5.43, and whether it saturated (R192). -/
def Coef.tick (c : Coef) (h : Hist) (x : Int) : Hist × Int × Bool :=
  let r := rndShr ((c.b0 * x + c.b1 * h.x1 + c.b2 * h.x2) * 2 ^ 16 - c.a1 * h.y1 - c.a2 * h.y2) 40
  let y := sat43 r
  (⟨x, h.x1, y, h.y1⟩, y, y != r)

/-- A filter over samples: outputs in Q5.43 with their saturation, and the history it ends with. A bypass passes the
samples and keeps its state at zero. -/
def runFilter (c : Option Coef) (h : Hist) (xs : List Int) : List (Int × Bool) × Hist :=
  match c with
  | none => (xs.map (fun x => (x * 2 ^ 16, false)), Hist.zero)
  | some c =>
    let r := xs.foldl (fun (a : List (Int × Bool) × Hist) x =>
      let o := c.tick a.2 x
      ((o.2.1, o.2.2) :: a.1, o.1)) ([], h)
    (r.1.reverse, r.2)

def Sec.init (c : Option Coef) : Sec := ⟨c, Hist.zero, none, 0, 0⟩

/-- The last folio of a section's crossfade is done, and the crossfade has not been ended yet (R194). -/
def Sec.done (q : Sec) : Bool := q.old.isSome && decide (q.len ≤ q.doneF)

/-- A crossfade whose last folio is done ends (R194). -/
def Sec.finish (q : Sec) : Sec := if q.done then { q with old := none } else q

/-- A changed target starts a crossfade over `x` folios unless one runs: the queued change is the target itself. -/
def Sec.retarget (x : Nat) (c : Option Coef) (q : Sec) : Sec :=
  if q.old.isSome || q.run == c then q else ⟨c, q.hist, some (q.run, q.hist), 0, x⟩

/-- A section over one folio: its next state, the outputs in Q5.43 (a crossfade's rounded to Q5.27), and the number of
saturated samples. -/
def Sec.folio (f : Nat) (q : Sec) (xs : List Int) : Sec × List Int × Nat :=
  let (ys, h) := runFilter q.run q.hist xs
  match q.old with
  | none =>
    let sat := countIf ys (fun y => y.2 || sat27 (rndShr y.1 16) != rndShr y.1 16)
    ({ q with hist := h }, ys.map (·.1), sat)
  | some (co, ho) =>
    let (os, ho) := runFilter co ho xs
    let r := (List.range f).map (fun i =>
      let w : Int := sin2W (q.doneF * f + i + 1) (q.len * f)
      let y := nth ys i (0, false)
      let o := nth os i (0, false)
      let v := rndShr ((2 ^ 23 - w) * o.1 + w * y.1) 39
      (sat27 v * 2 ^ 16, o.2 || y.2 || sat27 v != v))
    ({ q with hist := h, old := some (co, ho), doneF := q.doneF + 1 }, r.map (·.1), countIf r (·.2))

/-- What a section passes on: its output rounded to Q5.27. -/
def passOn (ys : List Int) : List Int := ys.map (fun y => sat27 (rndShr y 16))

/-- A section with its target over one folio: a crossfade that is done ends, and a changed target starts one. -/
def Sec.run1 (f x : Nat) (q : Sec) (c : Option Coef) (xs : List Int) : Sec × List Int × Nat := (q.finish.retarget x c).folio f xs

/-- A cascade of sections over one folio, each with its target: the next states, the last outputs in Q5.43, and saturated
samples. -/
def cascade (f x : Nat) (qs : List (Sec × Option Coef)) (xs : List Int) : List Sec × List Int × Nat :=
  qs.foldl
    (fun (a : List Sec × List Int × Nat) (q : Sec × Option Coef) =>
      let (q1, ys, sat) := q.1.run1 f x q.2 (passOn a.2.1)
      (a.1 ++ [q1], ys, a.2.2 + sat)) ([], xs.map (· * 2 ^ 16), 0)

/-! ### Configuration of an output -/

/-- Output `o` is fed by a SUB speaker of the layout (R190). -/
def RCfg.isSub (c : RCfg) (o : Nat) : Bool :=
  match c.plan.layout with
  | some l => ((l.speakers[o]?).map (·.sub)).getD false
  | none => false

def RCfg.inBm (c : RCfg) (o : Nat) : Bool := c.flag (Reg.OUT_CFG o) Fl.OUT_CFG_BM_EN
def RCfg.bmGrp (c : RCfg) (o : Nat) : Nat := c.fld (Reg.OUT_CFG o) Fl.OUT_CFG_BM_GRP
def RCfg.eqXf (c : RCfg) : Nat := max 1 (c.fld Reg.OUT_GCFG Fl.OUT_GCFG_EQ_XF)
def RCfg.gainRamp (c : RCfg) : Nat := max 1 (c.fld Reg.OUT_GCFG Fl.OUT_GCFG_GAIN_RAMP)

/-- Coefficients of a section in force. -/
def RCfg.eqAt (c : RCfg) (o q : Nat) : Option Coef := Tab.look c.plan.eq (20 * o + q)

/-- Low-pass and high-pass coefficients of a crossover (R197), each formula in binary64 from left to right (DEDUCED:
notes/assumptions/35). -/
def xover (fs fc : Nat) : Coef × Coef :=
  let k := d64Tan (d64Div (d64Mul d64Pi (fc, 0)) (fs, 0))
  let k2 := d64Mul k k
  let rk := d64Mul d64Sqrt2 k
  let nu := d64Div d64One (d64Add (d64Add d64One rk) k2)
  let twice (x : Int × Int) : Int × Int := (2 * x.1, x.2)
  let a1 := d64Q40 (d64Mul (twice (d64Add k2 (d64Neg d64One))) nu)
  let a2 := d64Q40 (d64Mul (d64Add (d64Add d64One (d64Neg rk)) k2) nu)
  let l := d64Q40 (d64Mul k2 nu)
  let h := d64Q40 nu
  (⟨l, d64Q40 (d64Mul (twice k2) nu), l, a1, a2⟩, ⟨h, d64Q40 (d64Neg (twice nu)), h, a1, a2⟩)

def RCfg.xover (c : RCfg) (g : Nat) : Coef × Coef := Machine.xover c.fs (c.fld (Reg.OUT_BM g) Fl.OUT_BM_FC)

/-- High-pass target of an output: that of its group where it is a main. -/
def RCfg.hpOf (c : RCfg) (o : Nat) : Option Coef := if c.inBm o && !c.isSub o then some (c.xover (c.bmGrp o)).2 else none

/-- The state of an output's chain on entry to RENDER, or when it is first configured (R192, R199, R202). -/
def ChainSt.init (c : RCfg) (o : Nat) : ChainSt :=
  let g := levelQ 23 (c.fldS (Reg.OUT_GAIN o) Fl.OUT_GAIN_GAIN)
  let b := levelQ 23 (c.fldS (Reg.OUT_GAIN o) Fl.OUT_GAIN_BED_GAIN)
  let inv := c.flag (Reg.OUT_CFG o) Fl.OUT_CFG_INVERT
  { secs := (List.range 20).map (fun q => Sec.init (c.eqAt o q)), hp := List.replicate 2 (Sec.init (c.hpOf o)),
    line := [], delay := c.fld (Reg.OUT_ALIGN o) Fl.OUT_ALIGN_DELAY, gain := g, pol := inv, gainT := g, polT := inv,
    ramp := none, bed := b, bedT := b, bedRamp := none, lim := 2 ^ 23, xh := [],
    look := c.flag (Reg.OUT_CFG o) Fl.OUT_CFG_LIM_EN && c.flag (Reg.OUT_CFG o) Fl.OUT_CFG_LOOK, s4 := [], last8 := [] }

def OutCh.init (c : RCfg) (o : Nat) : OutCh :=
  { cur := ChainSt.init c o, nxt := none, s5 := [], silRun := 0, silent := false, silCfg := c.rd (Reg.OUT_SIL o),
    silAt := none, minG := 2 ^ 23, peak := 0 }

/-- The chain of an output in the folio being processed. -/
def State.chain (s : State) (o : Nat) : OutCh := (Tab.look s.out.ch o).getD (OutCh.init s.procCfg o)

def State.setChain (s : State) (o : Nat) (x : OutCh) : State := { s with out.ch := Tab.put s.out.ch o x }

/-! ### Ramps (R201) -/

/-- Value and polarity at sample `j` of a ramp over `n` samples toward `(v, p)`. -/
def GRamp.value (r : GRamp) (n v : Nat) (p : Bool) (j : Nat) : Nat × Bool :=
  let lin (a b : Nat) (i m : Nat) : Nat := ((a : Int) + rndDiv (((b : Int) - a) * i) m).toNat
  if r.p0 = p then (lin r.v0 v (j + 1) n, p)
  else if j + 1 ≤ n / 2 then (lin r.v0 0 (j + 1) (n / 2), r.p0)
  else (lin 0 v (j + 1 - n / 2) (n - n / 2), p)

/-- A ramp over one folio: the ramp that is left, and value and polarity of each sample. -/
def rampFolio (f : Nat) (r : Option GRamp) (v : Nat) (p : Bool) : Option GRamp × List (Nat × Bool) :=
  match r with
  | none => (none, List.replicate f (v, p))
  | some r =>
    let xs := (List.range f).map (fun i => r.value (r.len * f) v p (r.doneF * f + i))
    (if r.doneF + 1 < r.len then some { r with doneF := r.doneF + 1 } else none, xs)

/-- The bed gain of a folio: the chain with its ramp started and advanced, and each sample's gain. -/
def ChainSt.bedFolio (c : RCfg) (f o : Nat) (x : ChainSt) : ChainSt × List Nat :=
  let v := levelQ 23 (c.fldS (Reg.OUT_GAIN o) Fl.OUT_GAIN_BED_GAIN)
  let r := if v = x.bedT then x.bedRamp else some ⟨x.bed, false, 0, c.gainRamp⟩
  let (r', vs) := rampFolio f r v false
  ({ x with bedT := v, bedRamp := r', bed := (vs.getLast?.map (·.1)).getD v }, vs.map (·.1))

/-- Gain and polarity of a folio. -/
def ChainSt.gainFolio (c : RCfg) (f o : Nat) (x : ChainSt) : ChainSt × List (Nat × Bool) :=
  let v := levelQ 23 (c.fldS (Reg.OUT_GAIN o) Fl.OUT_GAIN_GAIN)
  let p := c.flag (Reg.OUT_CFG o) Fl.OUT_CFG_INVERT
  let r := if v = x.gainT ∧ p = x.polT then x.ramp else some ⟨x.gain, x.pol, 0, c.gainRamp⟩
  let (r', vs) := rampFolio f r v p
  let z := vs.getLast?.getD (v, p)
  ({ x with gainT := v, polT := p, ramp := r', gain := z.1, pol := z.2 }, vs)

/-! ### Stages 1 to 4 -/

/-- The fabric's sum for an output in the folio the root wrote last (R177). -/
def State.rootOf (s : State) (n o : Nat) : List Int :=
  match s.fab.root with
  | some (m, t) => if m = n then Tab.at t (zeros s.folioLen) o else zeros s.folioLen
  | none => zeros s.folioLen

/-- Value of a ramp under R292 at sample `j` from its present place; after its end it holds. -/
def Ramp1.at' (r : Ramp1) (j : Nat) : Int :=
  if r.len ≤ r.pos + j then r.v1 else r.v0 + rndShr ((r.v1 - r.v0) * sin2W (r.pos + j + 1) r.len) 23

def Duck.idle : Duck := ⟨false, ⟨2 ^ 23, 2 ^ 23, 0, 0⟩⟩

/-- The duck gain of an output at sample `j` of the folio in work (R303): the smallest of the sets that map it. -/
def State.duckGain (s : State) (o j : Nat) : Int :=
  (List.range 4).foldl
    (fun m k =>
      if (s.rd (Reg.MIX_DUCK_MAP k (o / 32))).testBit (o % 32) then min m ((Tab.at s.mix.duck Duck.idle k).ramp.at' j)
      else m) (2 ^ 23)

/-- Stage 1 before ducking (R189, R195): s1, saturated samples, and the chain with its bed ramp advanced. -/
def State.stage1a (s : State) (n o : Nat) (x : ChainSt) : List Int × Nat × ChainSt :=
  let c := s.procCfg
  let f := s.folioLen
  let a := s.rootOf n o
  let (x, gs) := x.bedFolio c f o
  if c.flag (Reg.OUT_CFG o) Fl.OUT_CFG_BED_EN then
    let b := s.ingress n (srcKey 3 (c.fld (Reg.OUT_CFG o) Fl.OUT_CFG_BED_BUS) 0)
    let r := (List.range f).map (fun i => nth a i 0 + rndShr (nth b i 0 * nth gs i 0) 23)
    (r.map sat27, countIf r (fun v => sat27 v != v), x)
  else (a, 0, x)

/-- Stage 1 of an output (R189, R263, R303). -/
def State.stage1 (s : State) (n o : Nat) (x : ChainSt) : List Int × Nat × ChainSt :=
  if s.dp.mode = mMEASURE then (s.stimulus n o, 0, x)
  else
    let (a, sat, x) := s.stage1a n o x
    ((List.range s.folioLen).map (fun i =>
      let d := s.duckGain o i
      if d = 2 ^ 23 then nth a i 0 else rndShr (nth a i 0 * d) 23), sat, x)

/-- The outputs of a bass-management group: its mains, or its subs (R196). -/
def State.bmOuts (s : State) (g : Nat) (sub : Bool) : List Nat :=
  s.procOutputs.filter (fun o => s.procCfg.inBm o && s.procCfg.bmGrp o == g && s.procCfg.isSub o == sub)

/-- One group over folio `n` (R196 to R198): its next state, L_g and saturated samples. -/
def State.bmRun (s : State) (n g : Nat) : BmGrp × List Int × Nat :=
  let c := s.procCfg
  let f := s.folioLen
  let mains := s.bmOuts g false
  let hasSub := !(s.bmOuts g true).isEmpty
  let lp := (c.xover g).1
  let b := (Tab.look s.out.bm g).getD ⟨List.replicate 2 (Sec.init (some lp)), hasSub⟩
  if mains.isEmpty then ({ b with had := hasSub }, zeros f, 0)
  else
    let sum := mains.foldl (fun a o => addBlk a (s.stage1 n o (s.chain o).cur).1) (zeros f)
    -- the sections take the exact sum: no rounding before the first
    let (q, qs) := match b.lp with
      | q :: qs => (q, qs)
      | [] => (Sec.init (some lp), [])
    let (q1, ys, sat0) := q.run1 f c.eqXf (some lp) sum
    let (rest, zs, sat1) := cascade f c.eqXf (qs.map (fun q => (q, some lp))) (passOn ys)
    let send := levelQ 23 (c.fldS (Reg.OUT_BM g) Fl.OUT_BM_SEND)
    let r := zs.map (fun z => rndShr (z * send) 39)
    (⟨q1 :: rest, hasSub⟩, r.map sat27, sat0 + sat1 + countIf r (fun v => sat27 v != v))

/-- Count saturated samples of the chain (R189). -/
def State.outSat (s : State) (k : Nat) : State :=
  if k = 0 then s else (s.count Reg.OUT_SAT k).irq Reg.OUT_IRQ_STAT Fl.OUT_IRQ_STAT_SAT

/-- The groups of folio `n`, once per folio: also one without outputs, which has no sub. -/
def State.bmPrepare (s : State) (n : Nat) : State :=
  if s.out.bmNxt.any (fun x => x.1 == n) then s
  else
    let rs := (List.range 32).map (fun g => (g, s.bmRun n g))
    let s := s.outSat ((rs.map (fun r => r.2.2.2)).sum)
    { s with out.bmNxt := some (n, rs.map (fun r => (r.1, r.2.1)), rs.map (fun r => (r.1, r.2.2.1))) }

/-- Stage 2 of an output (R196): s2, the main's high-pass sections and saturated samples. In the first folio after entry no
change of case is in progress. -/
def State.stage2 (s : State) (o : Nat) (x : ChainSt) (s1 : List Int) : List Int × List Sec × Nat :=
  let c := s.procCfg
  let f := s.folioLen
  if !c.inBm o then (s1, x.hp, 0)
  else
    let g := c.bmGrp o
    let now := (s.out.bmNxt.bind (fun t => Tab.look t.2.1 g)).any (·.had)
    let had := ((Tab.look s.out.bm g).map (·.had)).getD now
    let mixIn (a b : List Int) : List Int :=
      if now = had then (if now then b else a)
      else (List.range f).map (fun i =>
        if now then crossfade f i (nth a i 0) (nth b i 0) else crossfade f i (nth b i 0) (nth a i 0))
    if c.isSub o then
      let l := (s.out.bmNxt.map (fun t => Tab.at t.2.2 (zeros f) g)).getD (zeros f)
      let r := addBlk s1 l
      (mixIn s1 (r.map sat27), x.hp, if now || had then countIf r (fun v => sat27 v != v) else 0)
    else
      let hp := (c.hpOf o)
      let qs := x.hp.map (fun q => if q.run.isNone then (Sec.init hp, hp) else (q, hp))
      let (hs, ys, sat) := cascade f c.eqXf qs s1
      (mixIn s1 (passOn ys), hs, sat)

/-- Sample `i` of the newest folio, `d` samples earlier. -/
def backAt (line : List Int) (f i d : Nat) : Int := nth line (f - 1 - i + d) 0

/-- Length of the alignment line (R190), and of the history that the delay lines and staging of every class reach back (R230, R231). -/
def alignLen : Nat := 8320
def s4Len (long : Bool) (f : Nat) : Nat := (if long then 98304 else 24576) + f

/-- Stages 1 to 4 of one output (phase A). -/
def State.phaseA (s : State) (n o : Nat) (long : Bool) : State :=
  let c := s.procCfg
  let f := s.folioLen
  let ch := s.chain o
  let (s1, sat1, x) := s.stage1 n o ch.cur
  let (s2, hp, sat2) := s.stage2 o x s1
  let line := (s2.reverse ++ x.line).take alignLen
  let d := c.fld (Reg.OUT_ALIGN o) Fl.OUT_ALIGN_DELAY
  let s3 := (List.range f).map (fun i =>
    if s.sweepBypass o 1 then nth s2 i 0
    else if d = x.delay then backAt line f i d else crossfade f i (backAt line f i x.delay) (backAt line f i d))
  let qs := (List.range 16).map (fun q => (nth x.secs q (Sec.init none), c.eqAt o q))
  let skip := s.sweepBypass o 0
  let (peq, ys, sat4) := if skip then (x.secs.take 16, s3.map (· * 2 ^ 16), 0) else cascade f c.eqXf qs s3
  let x := { x with hp := hp, line := line, delay := d, secs := peq ++ x.secs.drop 16,
                    s4 := ((passOn ys).reverse ++ x.s4).take (s4Len long f) }
  (s.outSat (sat1 + sat2 + sat4)).setChain o { ch with nxt := some x, s5 := [] }

/-! ### Stages 6 to 8 -/

/-- Limiter constants of an output (R202): the threshold in Q5.27 and the release. -/
def RCfg.limT (c : RCfg) (o : Nat) : Nat := levelQ 27 (c.fldS (Reg.OUT_LIM o) Fl.OUT_LIM_THRESH)
def RCfg.limK (c : RCfg) (o : Nat) : Nat := releaseK (max 1 (c.fld (Reg.OUT_LIM o) Fl.OUT_LIM_REL_MS)) c.fs

/-- `r[i]` of R202. -/
def limR (t : Nat) (x : Int) : Nat := if x = 0 then 2 ^ 23 else min (2 ^ 23) (t * 2 ^ 23 / x.natAbs)

/-- The gain recursion of R202 over the least gains allowed. -/
def limGains (k : Nat) : Nat → List Nat → List Nat
  | _, [] => []
  | g, a :: as =>
    let up := g + (rndShr ((2 ^ 23 - (g : Int)) * k) 23).toNat
    let g' := min a up
    g' :: limGains k g' as

/-- `a[i]` of R203 over a folio, from the 32 samples before it and its own. -/
def limAhead (rs : List Nat) : List Nat :=
  let hs := (List.range (rs.length - 16)).map (fun i => ((rs.drop i).take 17).foldl min (2 ^ 23))
  (List.range (hs.length - 16)).map (fun i => ((hs.drop i).take 17).foldl (· + ·) 0 / 17)

/-- One path of stage 8 over a folio: its samples and gains (R202, R203). `xh`: the 32 newest earlier inputs. -/
def limPath (look : Bool) (t k g : Nat) (xh xs : List Int) : List (Int × Nat) :=
  let past := (xh ++ List.replicate (32 - xh.length) 0).reverse
  let clip (v : Int) : Int := clampI (-(t : Int)) t v
  if look then
    let gs := limGains k g (limAhead ((past ++ xs).map (limR t)))
    (((past ++ xs).drop 16).zip gs).map (fun y => (clip (rndShr (y.1 * y.2) 23), y.2))
  else
    let gs := limGains k g (xs.map (limR t))
    (xs.zip gs).map (fun y => (clip (rndShr (y.1 * y.2) 23), y.2))

/-- Stage 8 over a folio: s8 and the gains, with the chain's limiter advanced. -/
def ChainSt.limit (c : RCfg) (f o : Nat) (x : ChainSt) (s7 : List Int) : ChainSt × List Int × List Nat :=
  let on := c.flag (Reg.OUT_CFG o) Fl.OUT_CFG_LIM_EN
  let look := on && c.flag (Reg.OUT_CFG o) Fl.OUT_CFG_LOOK
  let t := c.limT o
  let k := c.limK o
  let path (l : Bool) : List (Int × Nat) :=
    if on || l then limPath l t k x.lim x.xh s7 else s7.map (fun y => (y, 2 ^ 23))
  let new := path look
  let out :=
    if look = x.look then new.map (·.1)
    else (List.range f).map (fun i => crossfade f i (nth (path x.look) i (0, 0)).1 (nth new i (0, 0)).1)
  ({ x with lim := (new.getLast?.map (·.2)).getD x.lim, look := look, xh := (s7.reverse ++ x.xh).take 32, last8 := out },
    out, new.map (·.2))

/-- Stage 6 of one output: trim sections (R189). -/
def ChainSt.trim (c : RCfg) (f o : Nat) (x : ChainSt) (s5 : List Int) : ChainSt × List Int × Nat :=
  let qs := (List.range 4).map (fun q => (nth x.secs (16 + q) (Sec.init none), c.eqAt o (16 + q)))
  let (trim, ys, sat6) := cascade f c.eqXf qs s5
  ({ x with secs := x.secs.take 16 ++ trim }, passOn ys, sat6)

/-- Stages 7 and 8 of one output: the chain, s8, its gains, and saturated samples. -/
def ChainSt.final (c : RCfg) (f o : Nat) (x : ChainSt) (s6 : List Int) : ChainSt × List Int × List Nat × Nat :=
  let (x, gs) := x.gainFolio c f o
  let r := (s6.zip gs).map (fun y => rndShr (if y.2.2 then -(y.1 * y.2.1) else y.1 * y.2.1) 23)
  let (x, s8, g) := x.limit c f o (r.map sat27)
  (x, s8, g, countIf r (fun v => sat27 v != v))

/-- Add the probe to s6 (R270). -/
def State.addProbe (s : State) (n o : Nat) (s6 : List Int) : State × List Int × Nat :=
  if s.probing o then
    let x := probeFolio s.procCfg s.fs n ((n + 2) * s.folioLen) o (Tab.at s.meas.power 0 o) s6
    let s := if x.quiet then s.bump Reg.MEAS_PRB_QUIET else s
    let r := addBlk s6 x.xs
    ({ s with meas.probe := Tab.put s.meas.probe o x }, r.map sat27, countIf r (fun y => sat27 y != y))
  else (s, s6, 0)

/-! ### Silence (R209, R211) -/

/-- Configured outputs. -/
def State.outputs (s : State) : List Nat := (List.range 512).filter (fun o => s.live.outConf o)

/-- Buses of a domain (R282). -/
def domSize (d : Nat) : Nat := if d = 0 then 256 else if d = 1 then 64 else 32

/-- Every configured output and every watched bus is silent (R211). -/
def State.allSilent (s : State) : Bool :=
  (s.outputs.all (fun o => (Tab.look s.out.ch o).any (·.silent))) &&
    (List.range 3).all (fun d => (List.range (domSize d)).all (fun b =>
      !s.flag (Reg.MIX_BUS_CFG d b) Fl.MIX_BUS_CFG_SIL_EN || (Tab.look s.mix.doms d).any (fun m => (Tab.look m.sil b).any (·.silent))))

/-- The hint to the power controller (R211, R637). -/
def State.setHint (s : State) (b : Bool) : State :=
  if s.flag Reg.OUT_AMP_STAT Fl.OUT_AMP_STAT_IDLE_HINT = b then s
  else
    let s := s.setFlag Reg.OUT_AMP_STAT Fl.OUT_AMP_STAT_IDLE_HINT b
    (s.setFlag Reg.PWR_STAT Fl.PWR_STAT_HINT b).irq Reg.PWR_IRQ_STAT Fl.PWR_IRQ_STAT_HINT

/-- The hint follows what is silent: wherever an output or a watched bus comes, goes, falls silent or sounds (R211). -/
def State.refreshHint (s : State) : State := s.setHint s.allSilent

def State.silBit (s : State) (o : Nat) (b : Bool) : State :=
  s.wr (Reg.OUT_SIL_STAT (o / 32)) (setBitN (s.rd (Reg.OUT_SIL_STAT (o / 32))) (o % 32) b)

/-- An output leaves silence. -/
def State.silExit (s : State) (o : Nat) (x : OutCh) : State :=
  if x.silent then
    let s := (s.bump Reg.OUT_SIL_EXIT).irq Reg.OUT_IRQ_STAT Fl.OUT_IRQ_STAT_SIL_EXIT
    ((s.silBit o false).setChain o { x with silent := false, silRun := 0 }).refreshHint
  else s.setChain o { x with silRun := 0 }

/-- Entry to RENDER restarts every detector (R209). -/
def State.silRestart (s : State) : State :=
  s.out.ch.foldl (fun s (e : Nat × OutCh) => s.silExit e.1 { s.chain e.1 with silAt := none }) s

/-- Whether an output's detector runs, and the silence threshold of a level word. -/
def silThresh (v : Int) : Nat := levelQ 27 v

/-- The detector over the samples of a judged folio; none: a missed folio, which counts as below the threshold. Phase B decides what it
sees; the verdict takes effect with the folio, at the tick from which the pins follow it (R208 to R210; DEDUCED, notes/assumptions/53). -/
def State.silFolio (s : State) (n o : Nat) (xs : Option (List Int)) : State :=
  let c := s.procCfg
  let x := s.chain o
  if x.silAt = some n then s
  else
    let s := if x.silCfg = c.rd (Reg.OUT_SIL o) then s else s.silExit o { x with silCfg := c.rd (Reg.OUT_SIL o) }
    let x := { s.chain o with silAt := some n }
    if !c.flag (Reg.OUT_SIL o) Fl.OUT_SIL_EN then s.setChain o { x with silRun := 0 }
    else
      let t : Int := silThresh (c.fldS (Reg.OUT_SIL o) Fl.OUT_SIL_THRESH)
      let ys := xs.getD []
      if ys.any (fun y => decide (t ≤ y.natAbs)) then
        let s := s.silExit o x
        let run := (ys.reverse.takeWhile (fun y => decide ((y.natAbs : Int) < t))).length
        s.setChain o { s.chain o with silRun := run }
      else s.setChain o { x with silRun := x.silRun + s.folioLen }

/-- An output is due to become silent. -/
def State.silDue (s : State) (o : Nat) : Bool :=
  let x := s.chain o
  let c := s.procCfg
  c.outConf o && c.flag (Reg.OUT_SIL o) Fl.OUT_SIL_EN && !x.silent &&
    decide (c.fld (Reg.OUT_SIL o) Fl.OUT_SIL_HOLD * s.fs ≤ x.silRun) && x.silCfg == c.rd (Reg.OUT_SIL o)

/-- An output becomes silent. -/
def State.silEnter (s : State) (o : Nat) : State :=
  let s := (s.bump Reg.OUT_SIL_ENTER).irq Reg.OUT_IRQ_STAT Fl.OUT_IRQ_STAT_SIL_ENTER
  ((s.silBit o true).setChain o { s.chain o with silent := true }).refreshHint

/-! ### Tickets of the chain (R191) -/

/-- The filters of an output. -/
def OutFir.empty : OutFir := ⟨false, 0, none, none, false, []⟩

def State.firOf (s : State) (o : Nat) : OutFir := (Tab.look s.conv.fir o).getD OutFir.empty

/-- The filters of an output in folio `n`: one deconfigured keeps them through the folios that the change does not reach (R24). -/
def State.firAt (s : State) (o n : Nat) : OutFir :=
  match Tab.look s.conv.gone o with
  | some (e, x) => if n < e then x else s.firOf o
  | none => s.firOf o

/-- Whether an output has the long scheme (R240). -/
def State.longOut (s : State) (o : Nat) : Bool := (s.firOf o).long

/-- Configured outputs of a group of 16. -/
def State.grpOuts (s : State) (j : Nat) : List Nat := s.procOutputs.filter (fun o => o / 16 == j)

/-- `OUT_PHASE_A_DONE` (R191): engine `e` completes stages 1 to 4 of a group; its convolution may start. -/
def execOutPhaseADone (e t : Nat) (s : State) : Out :=
  let s := s.atTime t
  match s.runningOn e [tkPHA] with
  | none => .next s
  | some x =>
    let n := x.tk.folio
    let s :=
      if n + 1 = s.slot then
        let s := (s.grpOuts x.tk.item).foldl (fun s o => s.phaseA n o (s.firAt o n).long) (s.bmPrepare n)
        s.issue 3 (hwTicket tkHEAD n x.tk.item)
      else s
    let s := s.finishTicket e x
    .next (State.startNext State.onStart 3 s e)

/-- Stages 6 to 8 of one output in folio `n`. -/
def State.phaseB (s : State) (n o : Nat) : State :=
  let ch := s.chain o
  match ch.nxt with
  | none => s
  | some x =>
    let (x, s6, sat6) := if s.sweepBypass o 0 then (x, (x.s4.take s.folioLen).reverse, 0)
      else x.trim s.procCfg s.folioLen o ch.s5
    let (s, s6, sat) := s.addProbe n o s6
    let (x, s8, gs, sat7) := x.final s.procCfg s.folioLen o s6
    let s := s.outSat (sat6 + sat + sat7)
    let g := gs.foldl min (2 ^ 23)
    let s := if g < 2 ^ 23 then (s.bump Reg.OUT_LIM_ACT).irq Reg.OUT_IRQ_STAT Fl.OUT_IRQ_STAT_LIM else s
    let pk := s8.foldl (fun m y => max m y.natAbs) 0
    s.setChain o { ch with nxt := some x, minG := min ch.minG g, peak := max ch.peak pk }

/-- `OUT_PHASE_B_DONE` (R191): engine `e` completes stages 6 to 9 of a group. -/
def execOutPhaseBDone (e t : Nat) (s : State) : Out :=
  let s := s.atTime t
  match s.runningOn e [tkPHB] with
  | none => .next s
  | some x =>
    let n := x.tk.folio
    let s := if n + 1 = s.slot then (s.grpOuts x.tk.item).foldl (fun s o => s.phaseB n o) s else s
    let s := s.finishTicket e x
    .next (State.startNext State.onStart 3 s e)

/-- A section's crossfade over `X` folios has ended: count it and drop the old filter (R194). -/
def State.eqFinish (s : State) (o q : Nat) : State :=
  match Tab.look s.out.ch o with
  | none => s
  | some ch =>
    let sec := nth ch.cur.secs q (Sec.init none)
    if sec.done then (s.bump Reg.OUT_EQ_XF).setChain o { ch with cur := { ch.cur with secs := setNth ch.cur.secs q sec.finish } }
    else s

/-- Crossfades of a chain or a group that are done and have not been counted. -/
def secsDone (l : List Sec) : Nat := countIf l Sec.done

/-- Count each crossfade that is done and that no `EQ_CROSSFADE_END` has ended: the states in which they stand are about to be replaced
(R194). -/
def State.eqCount (s : State) : State :=
  s.count Reg.OUT_EQ_XF ((s.out.ch.map (fun (e : Nat × OutCh) => secsDone e.2.cur.secs + secsDone e.2.cur.hp)).sum +
    (s.out.bm.map (fun (e : Nat × BmGrp) => secsDone e.2.lp)).sum)

/-- `EQ_CROSSFADE_END` (R194) of section `q` of output `o`. -/
def execEqCrossfadeEnd (o q t : Nat) (s : State) : Out := .next ((s.atTime t).eqFinish o q)

/-! ### Commit and miss of a folio (R206, R207) -/

/-- The folio completes: its stage-8 samples reach the silence detectors, and every chain takes its next state. -/
def State.chainsCommit (s : State) (n : Nat) : State :=
  let cfg := s.procCfg
  let s := s.procOutputs.foldl (fun s o => s.silFolio n o ((s.chain o).nxt.map (·.last8))) s.eqCount
  let keep := s.out.ch.filter (fun e => cfg.outConf e.1)
  { s with
    out.ch := keep.map (fun (e : Nat × OutCh) => (e.1, { e.2 with cur := e.2.nxt.getD e.2.cur, nxt := none, s5 := [] }))
    out.bm := (s.out.bmNxt.map (fun t => t.2.1.foldl (fun b e => Tab.put b e.1 e.2) s.out.bm)).getD s.out.bm
    out.bmNxt := none
    mix.duck := s.mix.duck.map (fun (d : Nat × Duck) =>
      (d.1, { d.2 with ramp := { d.2.ramp with pos := min d.2.ramp.len (d.2.ramp.pos + s.folioLen) } })) }

/-- The state of a chain after a missed folio (R207, R247): the alignment line and stage 5 take zeros, the rest keeps its
value. -/
def ChainSt.missed (f : Nat) (long : Bool) (x : ChainSt) : ChainSt :=
  { x with line := (zeros f ++ x.line).take alignLen, s4 := (zeros f ++ x.s4).take (s4Len long f) }

/-- The folio is missed. -/
def State.chainsMiss (s : State) (n : Nat) : State :=
  let f := s.folioLen
  s.procOutputs.foldl
    (fun s o =>
      let ch := s.chain o
      let s := s.setChain o { ch with cur := ch.cur.missed f (s.firAt o n).long, nxt := none, s5 := [] }
      s.silFolio n o none) { s with out.bmNxt := none }

/-! ### Commands (R218) -/

def specOutConfig : CmdSpec := cmdRow 0x0701 0 true 16 16 fwModes true
def specOutGainSet : CmdSpec := cmdRow 0x0702 1 true 8 8 fwModes true
def specOutAlignSet : CmdSpec := cmdRow 0x0703 1 true 8 8 fwModes true
def specOutEqSet : CmdSpec := cmdRow 0x0704 1 true 4 8200 fwModes true
def specOutLimSet : CmdSpec := cmdRow 0x0705 0 true 8 8 fwModes true
def specOutBmSet : CmdSpec := cmdRow 0x0706 0 true 4 4 fwModes true
def specOutSilSet : CmdSpec := cmdRow 0x0707 0 true 8 8 fwModes true
def specOutAmpSet : CmdSpec := cmdRow 0x0708 1 true 4 4 fwModes true
def specOutQuery : CmdSpec := cmdRow 0x0709 2 false 2 2 fwModes false
def specOutEqQuery : CmdSpec := cmdRow 0x070A 2 false 2 2 fwModes false
def specOutStats : CmdSpec := cmdRow 0x070B 2 false 0 0 fwModes false

/-- A destination word has a kind, port and channel that exist (R215). -/
def destOk (v : Nat) : Bool :=
  let kind := bitsN v 31 30
  let port := bitsN v 23 16
  let ch := bitsN v 5 0
  rsvOk (Reg.OUT_DEST 0) v && decide (kind < 3) && (kind != 1 || (decide (port < 16) && decide (ch < 32)))

/-- The announcement bypass owns a port-15 slot (R301). -/
def State.bypassOwns (s : State) (slot : Nat) : Bool := decide (slot < 32) && s.flag (Reg.MIX_BYP_OUT slot) Fl.MIX_BYP_OUT_EN

/-- Some bus names a destination (R286). -/
def State.busNames (s : State) (v : Nat) : Bool :=
  (List.range 3).any (fun d => (List.range (domSize d)).any (fun b => s.rd (Reg.MIX_BUS_DEST d b) == v))

/-- A destination is free for output `o` (R204, R286). -/
def State.destFree (s : State) (o v : Nat) : Bool :=
  let kind := bitsN v 31 30
  kind == 0 ||
    (!(s.outputs.any (fun q => q != o && s.rd (Reg.OUT_DEST q) == v)) && !s.busNames v &&
      !(kind == 1 && bitsN v 23 16 == 15 && s.bypassOwns (bitsN v 5 0)))

/-- Words of an output's block (R215). -/
def outWords (o : Nat) : List Nat :=
  [Reg.OUT_CFG o, Reg.OUT_DEST o, Reg.OUT_GAIN o, Reg.OUT_ALIGN o, Reg.OUT_LIM o, Reg.OUT_SIL o]

/-- Deconfigure an output: its words, sections, filters and reserved DRAM go (R190, R231); the folios that the change does not reach yet
keep their filters (R24). -/
def State.outRemove (s : State) (o : Nat) : State :=
  let s := (outWords o).foldl (fun s a => s.setReg a (regReset s.otp.grade a)) s
  let s := { s with
    plan.eq := s.plan.eq.filter (fun e => e.1 / 20 != o)
    conv.gone := match Tab.look s.conv.fir o with
      | some x => Tab.put s.conv.gone o (s.slot + 1, x)
      | none => s.conv.gone
    conv.fir := Tab.del s.conv.fir o
    conv.head := Tab.del s.conv.head o
    conv.headNew := Tab.del s.conv.headNew o }
  let s := [ownLine o, ownConv o, ownLong o].foldl (fun s k => s.unreserve k) s
  ((s.silBit o false).squashAll).refreshHint

def cmdOutConfig (p : Packet) (s : State) : CmdRes :=
  let b := p.params
  let o := u16 b 0
  let op := u8 b 2
  let cfg := setBitsN (u32 b 4) 31 30 0
  let dest := u32 b 8
  if u8 b 3 ≠ 0 ∨ !zeroAt b 12 4 ∨ 512 ≤ o ∨ 2 ≤ op ∨ !rsvOk (Reg.OUT_CFG 0) cfg ∨ !destOk dest then
    .fail s stBAD_PARAM []
  else if op = 1 then
    if s.live.outConf o then .ok (s.outRemove o) [] else .done (s.reply p 0x0701 stOK [])
  else if !s.destFree o dest then .fail s stBAD_PARAM []
  else
    let new := !s.live.outConf o
    if new ∧ s.limit 1 < s.outputs.length + 1 then .fail s stNO_RESOURCE [1#8]
    else
      let s := (s.wr (Reg.OUT_CFG o) (cfg + 2 ^ 31)).wr (Reg.OUT_DEST o) dest
      let s := ((s.reserve (ownLine o) lineBytes).reserve (ownConv o) convBytes).refreshHint
      .ok (if new then s.squashAll else s) []
/-- `OUT_CONFIG` with op 0 (R190, R204, R218). -/
def execOutConfig (p : Packet) (s : State) : Out :=
  runPacket specOutConfig (p.withOp 2 0) (cmdOutConfig (p.withOp 2 0)) s
/-- `OUT_CONFIG` with op 1 (R218). -/
def execOutDeconfig (p : Packet) (s : State) : Out :=
  runPacket specOutConfig (p.withOp 2 1) (cmdOutConfig (p.withOp 2 1)) s

/-- The range of a command: first and count (R218, R255). -/
def rangeOk (b : List Byte) : Bool :=
  let n := u16 b 2
  decide (u16 b 0 < 512) && decide (1 ≤ n) && decide (u16 b 0 + n ≤ 512)

/-- Apply a change to every configured output of a range. -/
def State.eachOut (s : State) (b : List Byte) (g : Nat → State → State) : State :=
  forRange (u16 b 0) (u16 b 2) (fun o s => if s.live.outConf o then g o s else s) s

/-- A gain operand: a level, mute, or unchanged. -/
def gainOk (x : Int) : Bool := x == 0x7FFF || levelOk x 1200

def cmdOutGainSet (p : Packet) (s : State) : CmdRes :=
  let b := p.params
  let g := i16 b 4
  let d := i16 b 6
  if !rangeOk b ∨ !gainOk g ∨ !gainOk d then .fail s stBAD_PARAM []
  else
    .ok (s.eachOut b (fun o s =>
      let s := if g = 0x7FFF then s else s.setFld (Reg.OUT_GAIN o) Fl.OUT_GAIN_GAIN (ofS 16 g)
      if d = 0x7FFF then s else s.setFld (Reg.OUT_GAIN o) Fl.OUT_GAIN_BED_GAIN (ofS 16 d))) []
/-- `OUT_GAIN_SET` (R195, R201). -/
def execOutGainSet (p : Packet) (s : State) : Out := runPacket specOutGainSet p (cmdOutGainSet p) s

def cmdOutAlignSet (p : Packet) (s : State) : CmdRes :=
  let b := p.params
  if !rangeOk b ∨ 8192 < u16 b 4 ∨ u16 b 6 ≠ 0 then .fail s stBAD_PARAM []
  else .ok (s.eachOut b (fun o s => s.wr (Reg.OUT_ALIGN o) (u16 b 4))) []
/-- `OUT_ALIGN_SET` (R199). -/
def execOutAlignSet (p : Packet) (s : State) : Out := runPacket specOutAlignSet p (cmdOutAlignSet p) s

/-- Coefficients of a 48-byte record (R218). -/
def recCoef (b : List Byte) (off : Nat) : Coef :=
  ⟨i64 b (off + 8), i64 b (off + 16), i64 b (off + 24), i64 b (off + 32), i64 b (off + 40)⟩

/-- The checks of R192 and R193 on coefficients. -/
def Coef.ok (c : Coef) : Bool :=
  let small (x : Int) : Bool := decide (x.natAbs < 32 * 2 ^ 40)
  small c.b0 && small c.b1 && small c.b2 && small c.a1 && small c.a2 &&
    decide (c.a2.natAbs < 2 ^ 40) && decide ((c.a1.natAbs : Int) < 2 ^ 40 + c.a2)

/-- A record of `OUT_EQ_SET` is acceptable: reserved bits 0 and coefficients that R193 admits, also where it asks for
bypass. -/
def eqRecOk (b : List Byte) (off : Nat) : Bool :=
  decide (u8 b off < 2) && zeroAt b (off + 1) 7 && (recCoef b off).ok

/-- Put a section's coefficients, or bypass it. -/
def State.putEq (s : State) (o q : Nat) (c : Option Coef) : State :=
  { s with plan.eq := match c with
    | some c => Tab.put s.plan.eq (20 * o + q) c
    | none => Tab.del s.plan.eq (20 * o + q) }

/-- AUTOTRIM controls an output (R275). -/
def State.autotrim (s : State) (o : Nat) : Bool := s.meas.trimOn.contains o

/-- `OUT_EQ_SET` by the host, or by the firmware's AUTOTRIM, which owns the trim sections (R194, R276). -/
def cmdOutEqBy (firmware : Bool) (p : Packet) (s : State) : CmdRes :=
  let b := p.params
  let o := u16 b 0
  let q := u8 b 2
  let m := u8 b 3
  if b.length ≠ 4 + 48 * m then .fail s stBAD_LENGTH []
  else if 512 ≤ o ∨ m = 0 ∨ 20 < q + m ∨ !s.live.outConf o ∨
      !((List.range m).all (fun i => eqRecOk b (4 + 48 * i))) then .fail s stBAD_PARAM []
  else if firmware = false ∧ s.autotrim o ∧ 16 < q + m then .fail s stBAD_PARAM [1#8]
  else
    .ok (forRange 0 m (fun i s =>
      s.putEq o (q + i) (if u8 b (4 + 48 * i) = 1 then none else some (recCoef b (4 + 48 * i)))) s) []
def cmdOutEqSet (p : Packet) (s : State) : CmdRes := cmdOutEqBy false p s
/-- `OUT_EQ_SET` (R192 to R194). -/
def execOutEqSet (p : Packet) (s : State) : Out := runPacket specOutEqSet p (cmdOutEqSet p) s

def cmdOutLimSet (p : Packet) (s : State) : CmdRes :=
  let b := p.params
  if !rangeOk b ∨ !inRange (i16 b 4) (-4000) 2400 ∨ u16 b 6 = 0 ∨ 5000 < u16 b 6 then .fail s stBAD_PARAM []
  else .ok (s.eachOut b (fun o s => s.wr (Reg.OUT_LIM o) (u16 b 4 * 65536 + u16 b 6))) []
/-- `OUT_LIM_SET` (R202). -/
def execOutLimSet (p : Packet) (s : State) : Out := runPacket specOutLimSet p (cmdOutLimSet p) s

def cmdOutBmSet (p : Packet) (s : State) : CmdRes :=
  let b := p.params
  let g := u8 b 0
  let fc := u8 b 1
  let x := i16 b 2
  if 32 ≤ g ∨ fc < 40 ∨ 200 < fc ∨ !(x == -32768 || inRange x (-2400) 1200) then .fail s stBAD_PARAM []
  else .ok (s.wr (Reg.OUT_BM g) (u16 b 2 * 65536 + fc)) []
/-- `OUT_BM_SET` (R197, R198). -/
def execOutBmSet (p : Packet) (s : State) : Out := runPacket specOutBmSet p (cmdOutBmSet p) s

def cmdOutSilSet (p : Packet) (s : State) : CmdRes :=
  let b := p.params
  let v := u16 b 6
  if !rangeOk b ∨ !inRange (i16 b 4) (-10000) (-4000) ∨ bitsN v 14 10 ≠ 0 ∨ bitsN v 9 0 = 0 ∨ 600 < bitsN v 9 0 then
    .fail s stBAD_PARAM []
  else .ok (s.eachOut b (fun o s => s.wr (Reg.OUT_SIL o) (u16 b 4 * 65536 + v))) []
/-- `OUT_SIL_SET` (R209). -/
def execOutSilSet (p : Packet) (s : State) : Out := runPacket specOutSilSet p (cmdOutSilSet p) s

def cmdOutAmpSet (p : Packet) (s : State) : CmdRes :=
  let v := u32 p.params 0
  if (List.range 16).any (fun k => v / 4 ^ k % 4 == 3) then .fail s stBAD_PARAM []
  else .ok (s.wr Reg.OUT_AMP_CTRL v) []
/-- `OUT_AMP_SET` (R210). -/
def execOutAmpSet (p : Packet) (s : State) : Out := runPacket specOutAmpSet p (cmdOutAmpSet p) s

/-- Write an output index to `OUT_MON_SEL` (R214): latch its measurements and restart them. -/
def State.latchMon (s : State) (v : Nat) : State :=
  let o := v % 512
  let x := Tab.look s.out.ch o
  let s := s.wr Reg.OUT_MON_SEL o
  let s := s.wr Reg.OUT_MON_GR ((x.map (·.minG)).getD (2 ^ 23))
  let s := s.wr Reg.OUT_MON_PEAK ((x.map (·.peak)).getD 0)
  match x with
  | some x => s.setChain o { x with minG := 2 ^ 23, peak := 0 }
  | none => s

/-- `OUT_MON_SEL` (R214). -/
def execOutMonSel (v t : Nat) (s : State) : Out := .next ((s.atTime t).latchMon v)

def cmdOutQuery (p : Packet) (s : State) : CmdRes :=
  let o := u16 p.params 0
  if 512 ≤ o then .fail s stBAD_PARAM []
  else
    let s := s.latchMon o
    .ok s (s.viewBytes (outWords o) ++ by8 0 ++ by4 (s.rd Reg.OUT_MON_GR) ++ by4 (s.rd Reg.OUT_MON_PEAK))
/-- `OUT_QUERY` (R214, R218). -/
def execOutQuery (p : Packet) (s : State) : Out := runPacket specOutQuery p (cmdOutQuery p) s

/-- A section as a 48-byte record. -/
def eqRec (c : Option Coef) : List Byte :=
  match c with
  | none => by1 1 ++ leBytes 47 0
  | some c => leBytes 8 0 ++ ([c.b0, c.b1, c.b2, c.a1, c.a2].flatMap (fun x => leBytes 8 (ofS 64 x)))

def cmdOutEqQuery (p : Packet) (s : State) : CmdRes :=
  let o := u16 p.params 0
  if 512 ≤ o then .fail s stBAD_PARAM []
  else .ok s ((List.range 20).flatMap (fun q => eqRec (if s.live.outConf o then s.live.eqAt o q else none)))
/-- `OUT_EQ_QUERY` (R218). -/
def execOutEqQuery (p : Packet) (s : State) : Out := runPacket specOutEqQuery p (cmdOutEqQuery p) s

/-- The OUT counters in offset order (R216, R217). -/
def outCounters : List Nat :=
  [Reg.OUT_SAT, Reg.OUT_LIM_ACT, Reg.OUT_EQ_XF, Reg.OUT_SIL_ENTER, Reg.OUT_SIL_EXIT, Reg.OUT_NODEST]

def cmdOutStats (_p : Packet) (s : State) : CmdRes :=
  let (s, bs) := s.takeCounters outCounters
  .ok s bs
/-- `OUT_STATS` (R217). -/
def execOutStats (p : Packet) (s : State) : Out := runPacket specOutStats p (cmdOutStats p) s

/-! ### Formats (R6, R205) -/

/-- A Q5.27 sample in a format of `w` bits: with the dither of media time `t` and output `o` where asked, saturated at full scale, then
rounded; and whether it saturated (R6, R205). The dither is in units of 2⁻¹⁶ LSB. -/
def toFormat (w : Nat) (dither : Bool) (t o : Nat) (x : Int) : Int × Bool :=
  let v := ditherHash t o
  let d : Int := if dither then (v % 65536 : Nat) + (v / 65536 : Nat) - 65535 else 0
  -- x / 2^(28-w) LSB, plus d / 2^16 LSB, in units of 2⁻²⁸ LSB
  let r := x * 2 ^ w + d * 2 ^ 12
  let y := clampI (-(2 ^ (w - 1) : Int) * 2 ^ 28) ((2 ^ (w - 1) - 1) * 2 ^ 28) r
  (rndShr y 28, y != r)

end Sys2Proof.Machine
end

