-- ==== Sys2Proof/Machine/Conv.lean ====
section
/-!
DEFINITION. Room Correction Convolution: the filter sets (R234 to R239), stage 5 (R221 to R227), the grouped swap (R241 to
R246), poisoned data (R248), and the commands of R255.
-/

namespace Sys2Proof.Machine

/-! ### Taps (R235) -/

/-- A binary32 pattern as an integer of 2⁻¹⁴⁹. -/
def tapInt (w : Nat) : Int :=
  let e := bitsN w 30 23
  let m := bitsN w 22 0
  let v : Int := if e = 0 then m else (2 ^ 23 + m) * 2 ^ (e - 1)
  if w.testBit 31 then -v else v

/-- The binary32 pattern of a value. -/
def f32Bits (x : F32) : Nat :=
  let n := x.man.natAbs
  let sg := if x.man < 0 then 2 ^ 31 else 0
  if n = 0 then 0
  else
    let e : Int := x.ex + n.log2 + 127
    if 1 ≤ e then sg + e.toNat * 2 ^ 23 + (n * 2 ^ (23 - n.log2) - 2 ^ 23)
    else sg + (n * 2 ^ (x.ex + 149).toNat)

/-- A Q1.31 tap in binary32, ties to even. -/
def q31Bits (w : Nat) : Nat := f32Bits (F32.ofRat (toS 32 w) (2 ^ 31))

def State.setFir (s : State) (o : Nat) (x : OutFir) : State := { s with conv.fir := Tab.put s.conv.fir o x }

def OutFir.active (x : OutFir) : Option FirSet := if x.actB then x.b else x.a
def OutFir.staged (x : OutFir) : Option FirSet := if x.actB then x.a else x.b
def OutFir.setStaged (x : OutFir) (v : Option FirSet) : OutFir := if x.actB then { x with a := v } else { x with b := v }
def OutFir.setActive (x : OutFir) (v : Option FirSet) : OutFir := if x.actB then { x with b := v } else { x with a := v }

/-- A set can act: non-empty and of the present rate code (R234). -/
def FirSet.usable (x : Option FirSet) (rate : Nat) : Bool := x.any (fun v => v.rate == rate)

/-! ### Partitions (R222 to R224) -/

/-- A class, 0 head to 3 long: partition length, partitions, first tap and hop (R222). -/
def clsP (f c : Nat) : Nat := match c with | 0 => f | 1 => 256 | 2 => 2048 | _ => 16384
def clsParts (f c : Nat) : Nat := match c with | 0 => 1024 / f | 1 => 12 | 2 => 6 | _ => 3
def clsO (c : Nat) : Nat := match c with | 0 => 0 | 1 => 1024 | 2 => 4096 | _ => 16384
def clsH (f c : Nat) : Nat := match c with | 0 => f | 1 => 256 | 2 => 2048 | _ => 8192

/-- Value `k` of the transform of a block of `n` samples, with 100 more fraction bits: real and imaginary part. -/
def binOf (n k : Nat) (xs : List Int) : Int × Int :=
  ((List.range xs.length).zip xs).foldl
    (fun (a : Int × Int) y => (a.1 + y.2 * fxCosTurn (k * y.1) n, a.2 - y.2 * fxSinTurn (k * y.1) n)) (0, 0)

/-- Packed value `k` of a spectrum (R223): value 0 holds the two real ends. -/
def packedOf (n k : Nat) (xs : List Int) : Int × Int := if k = 0 then ((binOf n 0 xs).1, (binOf n (n / 2) xs).1) else binOf n k xs

/-- What packed value `k` of two spectra gives sample `i` of the unscaled inverse transform of their product (R224), times 2³⁰⁰. -/
def packedPart (n k i : Nat) (h x : Int × Int) : Int :=
  if k = 0 then (h.1 * x.1 + (if i % 2 = 0 then 1 else -1) * (h.2 * x.2)) * fxOne
  else 2 * ((h.1 * x.1 - h.2 * x.2) * fxCosTurn (k * i) n - (h.1 * x.2 + h.2 * x.1) * fxSinTurn (k * i) n)

/-- The taps that a set's spectra come from, in 2⁻¹⁴⁹: those its latest transform met poisoned are zero (R235, R248). -/
def FirSet.ints (q : FirSet) : List Int :=
  ((List.range q.taps.length).zip q.taps).map (fun y => if q.cut.contains y.1 then 0 else tapInt y.2)

/-- Taps of partition `j` of class `c`; a tap beyond the end is 0 (R223). -/
def FirSet.part (q : FirSet) (f c j : Nat) : List Int :=
  let xs := (q.ints.drop (clsO c + j * clsP f c)).take (clsP f c)
  xs ++ zeros (clsP f c - xs.length)

/-- Packed value `k` of the coefficient spectrum H_j of class `c` (R223), times N, in 2⁻²⁴⁹. -/
def FirSet.spec (q : FirSet) (f c j k : Nat) : Int × Int := packedOf (2 * clsP f c) k (q.part f c j)

/-- Sample `a` of the input of class `c`, from the history whose newest sample is `top - 1`: the long class has none before its start
(R233). -/
def OutFir.input (x : OutFir) (s4 : List Int) (top : Nat) (c : Nat) (a : Int) : Int :=
  if a < 0 ∨ (top : Int) ≤ a ∨ (c = 3 ∧ a < x.longFrom) then 0 else nth s4 (top - 1 - a.toNat) 0

/-- The segment of hop `q` of class `c`: the newest N samples (R224), without pairs that were read as zero. -/
def OutFir.segment (x : OutFir) (s4 : List Int) (top f c : Nat) (q : Int) : List Int :=
  let n := 2 * clsP f c
  let a0 := (q + 1) * clsH f c - n
  (List.range n).map (fun (i : Nat) =>
    if x.dips.any (fun d => d.kind == 1 && d.cls == c && d.hop == q && d.idx == i / 2) then 0 else x.input s4 top c (a0 + i))

/-- Samples of folio `m` or later still take in the hop of a zeroed value. -/
def Dip.inReach (d : Dip) (f m : Nat) : Bool := decide ((m : Int) * f ≤ (d.hop + 1) * clsH f d.cls + 98304)

/-- Partition `j` in sample `i` of hop `k` of class `c`, in 2⁻¹⁴⁹: the product without the packed values that count as zero. -/
def OutFir.partSum (x : OutFir) (v : FirSet) (s4 : List Int) (top f c j : Nat) (k : Int) (i fol : Nat) : Int :=
  let n := 2 * clsP f c
  let q := k - j * (clsP f c / clsH f c : Nat)
  let seg := x.segment s4 top f c q
  let hs := v.part f c j
  let whole := sumI ((List.range (clsP f c)).map (fun t => nth hs t 0 * nth seg (i - t) 0))
  let lost := ((v.nulls.filter (fun z => z.cls == c && z.part == j && decide (z.since ≤ fol))).map (·.idx)) ++
    ((x.dips.filter (fun d => d.kind == 0 && d.cls == c && d.hop == q && decide (d.since ≤ k))).map (·.idx))
  let ks := (lost.foldl (fun (t : Tab Unit) y => Tab.put t y ()) []).map (·.1)
  whole - rndDiv (sumI (ks.map (fun y => packedPart n y i (v.spec f c j y) (packedOf n y seg)))) (n * 2 ^ 300)

/-- The contribution of class `c` to sample `a` (R224), in 2⁻¹⁴⁹. -/
def OutFir.classSum (x : OutFir) (v : FirSet) (s4 : List Int) (top f c a : Nat) : Int :=
  let k : Int := ((a : Int) - clsO c) / clsH f c
  let p := (((a : Int) - clsO c) % clsH f c).toNat
  if x.dips.any (fun d => d.kind == 2 && d.cls == c && d.hop == k && d.idx == p / 2) then 0
  else sumI ((List.range (clsParts f c)).map (fun j => x.partSum v s4 top f c j k (2 * clsP f c - clsH f c + p) (a / f)))

/-! ### Stage 5 (R221, R225) -/

/-- The exact sum of taps and inputs at a sample whose history is `past`, newest first. Taps from 16 384 on see inputs from the long
class's start only (R233). -/
def OutFir.plainSum (x : OutFir) (v : FirSet) (past : List Int) (a : Nat) : Int :=
  let lim := if x.long then max 16384 (a + 1 - x.longFrom) else 16384
  (v.ints.zip (past.take (min lim 65536))).foldl (fun (s : Int) y => s + y.1 * y.2) 0

/-- Samples of stage 5 for one set over folio `n`: the exact sum within 2⁻¹⁹ of full scale, rounded to Q5.27 and saturated; of a silent
history exactly zero. Where no value counts as zero, the classes add up to the sum of all taps. -/
def firFolio (f n : Nat) (x : OutFir) (v : FirSet) (s4 : List Int) : List (Int × Bool) :=
  let top := (n + 1) * f
  let silent := s4.all (· == 0)
  (List.range f).map (fun i =>
    let a := n * f + i
    let sum := if v.nulls.isEmpty && x.dips.isEmpty then x.plainSum v (s4.drop (f - 1 - i)) a
      else sumI ((List.range (if x.long then 4 else 3)).map (fun c => x.classSum v s4 top f c a))
    let e := if silent then 0 else clampI (-256) 256 (Config.convErr v.taps s4 f (a % 8192) x.long)
    let r := rndShr sum 149 + e
    (sat27 r, sat27 r != r))

/-- Stage 5 of one set; an empty or dormant set is the unit impulse (R242). -/
def State.firSide (s : State) (f n : Nat) (x : OutFir) (v : Option FirSet) (s4 : List Int) : List (Int × Bool) :=
  match v with
  | some q => if q.rate = s.rateCode then firFolio f n x q s4 else (s4.take f).reverse.map (fun y => (y, false))
  | none => (s4.take f).reverse.map (fun y => (y, false))

/-- The swap's group in progress holds an output. -/
def State.swapping (s : State) (o : Nat) : Bool := s.conv.swap.any (fun w => (nth w.groups w.g []).contains o)

/-- Stage 5 of an output over folio `n`. -/
def State.stage5 (s : State) (n o : Nat) : State :=
  let f := s.folioLen
  let ch := s.chain o
  match ch.nxt with
  | none => s
  | some x =>
    let q := s.firAt o n
    let old := s.firSide f n q q.active x.s4
    let r :=
      match s.conv.swap with
      | some w =>
        if w.phase = 2 ∧ s.swapping o = true then
          let new := s.firSide f n q q.staged x.s4
          (List.range f).map (fun i =>
            let a := nth old i (0, false)
            let b := nth new i (0, false)
            let v := blendW (sin2W (w.xf * f + i + 1) (32 * f)) a.1 b.1
            (sat27 v, a.2 || b.2 || sat27 v != v))
        else old
      | none => old
    (s.outSat (countIf r (·.2))).setChain o { ch with s5 := r.map (·.1) }

/-! ### Head slots (R229, R242) -/

/-- A free head slot; which of them the device takes is open (notes/assumptions/36), the lowest here. -/
def State.freeHead (s : State) : Nat :=
  ((List.range 576).find? (fun k => !s.conv.head.any (fun e => e.2 == k) && !s.conv.headNew.any (fun e => e.2 == k))).getD 0

/-- The head slot of an output follows whether a FIR is in force: its active set is not empty and of the present rate. -/
def State.settleHead (s : State) (o : Nat) : State :=
  if FirSet.usable (s.firOf o).active s.rateCode then
    if (Tab.look s.conv.head o).isSome then s else { s with conv.head := Tab.put s.conv.head o s.freeHead }
  else { s with conv.head := Tab.del s.conv.head o }

/-- The lead-in copies the new head spectra of a group into free head slots. -/
def State.copyHeads (s : State) (outs : List Nat) : State :=
  outs.foldl
    (fun s o =>
      if FirSet.usable (s.firOf o).staged s.rateCode then { s with conv.headNew := Tab.put s.conv.headNew o s.freeHead } else s) s

/-- After the crossfade an output exchanges its sets and points to its new head slot; the old one is free. -/
def State.swapSets (s : State) (o : Nat) : State :=
  let s := s.setFir o { s.firOf o with actB := !(s.firOf o).actB }
  let s := { s with
    conv.head := match Tab.look s.conv.headNew o with
      | some k => Tab.put s.conv.head o k
      | none => s.conv.head
    conv.headNew := Tab.del s.conv.headNew o }
  s.settleHead o

/-! ### The swap (R241 to R246) -/

/-- History of the long class is complete for folio `n` (R233). -/
def OutFir.historyAt (x : OutFir) (f n : Nat) : Bool := decide (65536 + x.longFrom ≤ n * f)

/-- Where a group starts: its lead-in's first folio, and whether it must wait for history first (R243). -/
def State.groupStart (s : State) (outs : List Nat) (a len : Nat) : Nat × Bool :=
  let f := s.folioLen
  let late := outs.filter (fun o => (s.firOf o).long && !(s.firOf o).historyAt f (a + len))
  let a' := late.foldl (fun m o => max m (ceilDiv ((s.firOf o).longFrom + 65536) f - len)) a
  (a', !late.isEmpty)

/-- Begin group `g` of a swap with its lead-in due at folio `a`. -/
def State.beginGroup (s : State) (w : Swap) (g a : Nat) : State :=
  let outs := nth w.groups g []
  let (a', waits) := s.groupStart outs a w.len
  let s := { s with conv.swap := some { w with g := g, start := a', xf := 0, phase := if waits then 3 else 1 } }
  if waits then (s.bump Reg.CONV_HIST_WAIT).irq Reg.CONV_IRQ_STAT Fl.CONV_IRQ_STAT_HIST_WAIT else s.copyHeads outs

/-- A commit has completed (R249). -/
def State.swapIrq (s : State) : State := s.irq Reg.CONV_IRQ_STAT Fl.CONV_IRQ_STAT_SWAP_DONE

/-- The group's crossfade is done: its outputs exchange their sets; the next group starts, or the commit is complete. -/
def State.endGroup (s : State) (w : Swap) : State :=
  let outs := (nth w.groups w.g []).filter s.live.outConf
  let s := outs.foldl (fun s o => s.swapSets o) s
  let s := (s.bump Reg.CONV_SWAP_GRP).count Reg.CONV_SWAP_OUT outs.length
  let s := s.irq Reg.CONV_IRQ_STAT Fl.CONV_IRQ_STAT_GROUP_DONE
  if w.g + 1 < w.groups.length then s.beginGroup w (w.g + 1) (s.conv.doneAt + 1)
  else { s.swapIrq with conv.swap := none }

/-- A waiting group whose lead-in is due at the folio in work starts it. -/
def State.swapWait (s : State) : State :=
  match s.conv.swap with
  | some w =>
    if w.phase = 3 ∧ w.start + 1 ≤ s.slot then
      ({ s with conv.swap := some { w with phase := 1 } } : State).copyHeads (nth w.groups w.g [])
    else s
  | none => s

/-- A group whose lead-in or crossfade is done moves on. -/
def State.swapPhase (s : State) : State :=
  match s.conv.swap with
  | some w =>
    if w.phase = 2 ∧ 32 ≤ w.xf then s.endGroup w
    else if w.phase = 1 ∧ w.start + w.len + 1 ≤ s.slot then { s with conv.swap := some { w with phase := 2 } }
    else s
  | none => s

/-- Everything that is due before stage 5 of the folio in work. -/
def State.swapDue (s : State) : State := s.swapPhase.swapWait.swapPhase

/-- A crossfade folio of the swap is complete (R246: a missed one does not count), once. -/
def State.swapFolioDone (s : State) (n : Nat) : State :=
  match s.conv.swap with
  | some w =>
    if w.phase = 2 ∧ w.start + w.len ≤ n ∧ w.xf < 32 ∧ s.conv.doneAt ≠ n then
      { s with conv.swap := some { w with xf := w.xf + 1 }, conv.doneAt := n }
    else s
  | none => s

/-- The last folio of a group's crossfade is complete in the slot in which it is processed: the group ends in that slot, the one after the
folio's own (R245). -/
def State.swapLast (s : State) (n : Nat) : State :=
  if s.conv.swap.any (fun w => w.phase == 2 && w.xf == 31) then (s.swapFolioDone n).swapPhase else s

/-- `SWAP_GROUP_PHASE` (R242). -/
def execSwapGroupPhase (t : Nat) (s : State) : Out := .next (s.atTime t).swapPhase

/-- `HISTORY_WAIT_END` (R243). -/
def execHistoryWaitEnd (t : Nat) (s : State) : Out := .next (s.atTime t).swapWait

/-! ### Tickets (R226, R227, R248, R252) -/

/-- Count a poisoned read of the convolution (R248). -/
def State.poisonRead (s : State) (k : Nat) : State :=
  if k = 0 then s else (s.count Reg.CONV_POISON k).irq Reg.CONV_IRQ_STAT Fl.CONV_IRQ_STAT_POISON

/-- What a ticket of class `cls` met of poisoned data (R248): the output, what, and where. What 0: a spectrum of the active set, 1: of the
staged set, at 65536·partition + packed index, from the samples of folio `since` on. Of a tail class's hop `hop` also 2: the delay line's
spectrum of an earlier hop, at 65536·(hops back) + packed index; 3: a pair of samples of the input ring, by its place in the segment; 4: a
pair of the output buffer. -/
def State.convPoison (s : State) (cls since : Nat) (hop : Int) (x : Nat × Nat × Nat) : State :=
  let s := s.poisonRead 1
  let q := s.firOf x.1
  let w := x.2.2
  let mark (v : FirSet) : FirSet := { v with damaged := true, nulls := v.nulls ++ [⟨cls, w / 65536, w % 65536, since⟩] }
  let dip (d : Dip) : State := if cls = 0 then s else s.setFir x.1 { q with dips := q.dips ++ [d] }
  match x.2.1 with
  | 0 => (s.setFir x.1 (q.setActive (q.active.map mark))).logEventFree 0x0C03 x.1
  | 1 => (s.setFir x.1 (q.setStaged (q.staged.map mark))).logEventFree 0x0C03 x.1
  | 2 => dip ⟨0, cls, hop - (w / 65536 : Nat), w % 65536, hop⟩
  | 3 => dip ⟨1, cls, hop, w, hop⟩
  | _ => dip ⟨2, cls, hop, w, hop⟩

/-- `HEAD_TICKET_DONE` (R226): engine `e` completes stage 5 of a group; phase B may start. -/
def execHeadTicketDone (e : Nat) (poison : List (Nat × Nat × Nat)) (t : Nat) (s : State) : Out :=
  let s := s.atTime t
  match s.runningOn e [tkHEAD] with
  | none => .next s
  | some x =>
    let n := x.tk.folio
    let s := poison.foldl (fun s y => s.convPoison 0 n 0 y) s
    let s :=
      if n + 1 = s.slot then
        let s := (s.grpOuts x.tk.item).foldl (fun s o => s.stage5 n o) s.swapDue
        s.issue 5 (hwTicket tkPHB n x.tk.item)
      else s
    let s := (s.finishTicket e x).bump Reg.CONV_HEAD_TKT
    let s :=
      if n + 1 = s.slot ∧ s.allDone tkHEAD n = true ∧ s.allDone tkPHA n = true then
        let c := min (s.now - s.dp.tickNow) 0xFFFFFFFF
        (s.wr Reg.CONV_DONE c).wr Reg.CONV_DONE_MAX (max c (s.rd Reg.CONV_DONE_MAX))
      else s
    .next (State.startNext State.onStart 3 s e)

/-- Classes of tail partitions (R222): first tap and hop. -/
def tailO (c : Nat) : Nat := if c = 0 then 1024 else if c = 1 then 4096 else 16384
def tailH (c : Nat) : Nat := if c = 0 then 256 else if c = 1 then 2048 else 8192

/-- `D_c` of R227. -/
def tailD (f c : Nat) : Nat := (tailO c - tailH c) / f

/-- The tail tickets of slot `m` (R227): per class and group, one for each block in its D_c slots. -/
def State.tailTickets (s : State) (m : Nat) : State :=
  let f := s.folioLen
  let os := s.procOutputs
  let grps := (List.range 32).filter (fun j => os.any (fun o => o / 16 == j))
  let ks := grps.flatMap (fun j => (List.range 3).flatMap (fun c =>
    if c = 2 ∧ !(os.any (fun o => o / 16 == j && (s.firAt o (m - 1)).long && decide ((s.firAt o (m - 1)).longFrom < m * f))) then []
    else
      -- blocks end with folios h·k − 1; those with f+1 ≤ m ≤ f+D
      let h := tailH c / f
      let d := tailD f c
      ((List.range (d / h + 1)).map (fun i => m / h * h - i * h)).filterMap (fun e =>
        if 0 < e ∧ s.dp.first < e ∧ e ≤ m ∧ m < e + d then
          some (hwTicket tkTAIL (m - 1) (tailItem (e + d) (b2n (e == m)) c j))
        else none)))
  s.issueAll 4 ks

/-- Bytes of DRAM that tail class `c` moves per output sample (R232): coefficients; delay line and staging. -/
def tailCoefBytes (c : Nat) : Nat := if c = 0 then 96 else 48
def tailLineBytes (c : Nat) : Nat := if c = 0 then 96 + 20 else if c = 1 then 48 + 20 else 48 + 28

/-- Bytes that a tail block of output `o` moves: a FIR in force brings its coefficients, and a running group those of its new set (R232,
R233, R246). -/
def State.tailBytes (s : State) (c o : Nat) : Nat :=
  let sets := b2n (FirSet.usable (s.firOf o).active s.rateCode) + b2n (s.swapping o && (Tab.look s.conv.headNew o).isSome)
  if c = 2 ∧ s.longOut o = false then 0 else tailH c * (sets * tailCoefBytes c + tailLineBytes c)

/-- The DRAM traffic of a tail ticket of group `j`, as master 23 (R219, R232): ticket `i` of its block's `d`, which share it evenly. -/
def State.tailTraffic (s : State) (c j i d : Nat) : State :=
  let all := ((s.grpOuts j).map (fun o => s.tailBytes c o)).sum
  s.bwBytes 23 (all * (i + 1) / d - all * i / d)

/-- `TAIL_TICKET_DONE` (R227): engine `e` completes part of a tail block. -/
def execTailTicketDone (e : Nat) (poison : List (Nat × Nat × Nat)) (t : Nat) (s : State) : Out :=
  let s := s.atTime t
  match s.runningOn e [tkTAIL] with
  | none => .next s
  | some x =>
    let c := tailClass x.tk.item
    let d := tailD s.folioLen c
    let first := tailNeed x.tk.item - d
    let hop : Int := (first * s.folioLen / tailH c : Nat) - 1
    let s := poison.foldl (fun s y => s.convPoison (c + 1) (tailNeed x.tk.item) hop y) s
    let s := s.tailTraffic c (x.tk.item % 32) (x.tk.folio + 1 - first) d
    let s := (s.finishTicket e x).bump Reg.CONV_TAIL_TKT
    .next (State.startNext State.onStart 3 s e)

/-- Tail results missing when folio `n` needed them (R247): blocks with an incomplete ticket. -/
def State.tailLate (s : State) (n : Nat) : State :=
  let missing := s.dp.issued.filter (fun x => x.1 == tkTAIL && decide (tailNeed x.2.2 ≤ n) && !s.dp.complete.contains x)
  let blocks := missing.foldl (fun (t : Tab Unit) x => Tab.put t (setBitN x.2.2 7 false) ()) []
  if blocks.isEmpty then s
  else (s.count Reg.CONV_TAIL_LATE blocks.length).irq Reg.CONV_IRQ_STAT Fl.CONV_IRQ_STAT_TAIL_LATE

/-! ### The image (R236 to R239) -/

/-- A record of a FIR image. -/
structure FirRec where
  out : Nat
  count : Nat
  off : Nat

def firRecs (b : List Byte) : List FirRec :=
  (List.range (u16 b 6)).map (fun i =>
    let a := u32 b 16 + 16 * i
    ⟨u16 b a, u32 b (a + 4), u32 b (a + 8)⟩)

/-- The first record that fails a test, with the check's number. -/
def failRec (l : List FirRec) (chk : Nat) (bad : Nat → FirRec → Bool) : Option (Nat × Nat) :=
  ((List.range l.length).zip l).findSome? (fun x => if bad x.1 x.2 then some (x.1, chk) else none)

/-- The first check of R238 that fails: record index (0xFFFF the header) and check number. -/
def State.firErr (s : State) (b : List Byte) : Option (Nat × Nat) :=
  let n := u16 b 6
  let tab := u32 b 16
  let hdr := b.length < 32 ∨ u32 b 0 ≠ 0x53464B52 ∨ u16 b 4 ≠ 1 ∨ n = 0 ∨ 512 < n ∨ 1 < u8 b 8 ∨ 3 < u8 b 9 ∨
    tab % 4 ≠ 0 ∨ u32 b 20 ≠ b.length ∨ b.length < tab + 16 * n
  if hdr then some (0xFFFF, 1)
  else
    let rs := firRecs b
    let res (i : Nat) : Bool := zeroAt b (tab + 16 * i + 2) 2 && zeroAt b (tab + 16 * i + 12) 4
    (failRec rs 1 (fun _ r => r.off % 4 != 0 || decide (b.length < r.off + 4 * r.count))).orElse fun _ =>
    (if zeroAt b 10 2 && zeroAt b 24 8 then none else some (0xFFFF, 2)).orElse fun _ =>
    (failRec rs 2 (fun i _ => !res i)).orElse fun _ =>
    (if u8 b 9 = s.rateCode then none else some (0xFFFF, 3)).orElse fun _ =>
    (failRec rs 4 (fun i r => decide (511 < r.out) || !s.live.outConf r.out ||
      (rs.take i).any (fun q => q.out == r.out))).orElse fun _ =>
    (failRec rs 5 (fun _ r => r.count == 0 || decide ((if s.longOut r.out then 65536 else 16384) < r.count))).orElse fun _ =>
    (failRec rs 6 (fun _ r => u8 b 8 == 0 &&
      (List.range r.count).any (fun k => decide (131 ≤ bitsN (u32 b (r.off + 4 * k)) 30 23))))

/-! ### Retained taps in DRAM (R231, R235, R248) -/

/-- Address of tap `i` of a set of output `o` (0: A, 1: B): the first 16 384 lie in the output's storage, the rest in the long-scheme
addition; where within them is a free value. -/
def State.tapAddr (s : State) (o k i : Nat) : Nat :=
  let long := decide (16384 ≤ i)
  let r := Tab.at s.dmc.reserved (dramBase, 0) (if long then ownLong o else ownConv o)
  let size := 4 * (if long then 49152 else 16384)
  r.1 + 8 * (Config.tapsPlace o k long % ((r.2 - size) / 8 + 1)) + 4 * (if long then i - 16384 else i)

/-- Taps of a set that stand in poisoned granules. -/
def State.badTaps (s : State) (o k : Nat) (v : FirSet) : List Nat :=
  if s.poison.isEmpty then []
  else (List.range v.taps.length).filter (fun i => s.poison.contains (s.tapAddr o k i / 8 * 8))

/-- Poisoned granules that hold some of a set's taps. -/
def State.badGranules (s : State) (o k : Nat) (v : FirSet) : Nat :=
  if s.poison.isEmpty then 0
  else ((List.range v.taps.length).foldl (fun (t : Tab Unit) i =>
    if s.poison.contains (s.tapAddr o k i / 8 * 8) then Tab.put t (s.tapAddr o k i / 8) () else t) []).length

/-- Read a set's retained taps: poisoned ones count, and mark the set (R248). -/
def State.readTaps (s : State) (o k : Nat) : State :=
  let x := s.firOf o
  match (if k = 0 then x.a else x.b) with
  | none => s
  | some v =>
    let n := s.badGranules o k v
    if n = 0 then s
    else
      let s := s.poisonRead n
      let v := { v with damaged := true }
      (s.setFir o (if k = 0 then { x with a := some v } else { x with b := some v })).logEventFree 0x0C03 o

/-- A set is transformed anew from its retained taps (R33, R235): its spectra are whole again, but for what poisoned taps lack. -/
def State.retransform (s : State) (o k : Nat) : State :=
  let s := s.readTaps o k
  let x := s.firOf o
  let f (v : FirSet) : FirSet := { v with cut := s.badTaps o k v, nulls := [] }
  s.setFir o (if k = 0 then { x with a := x.a.map f } else { x with b := x.b.map f })

/-- Every output's sets are transformed anew. -/
def State.retransformAll (s : State) : State := (s.conv.fir.map (·.1)).foldl (fun s o => (s.retransform o 0).retransform o 1) s

/-- A set's taps are written: their granules are poisoned no longer (R248, R554). -/
def State.writeTaps (s : State) (o k n : Nat) : State :=
  if s.poison.isEmpty then s
  else
    let gs := (List.range n).map (fun i => s.tapAddr o k i / 8 * 8)
    { s with poison := s.poison.filter (fun g => !gs.contains g) }

/-- Replace the staged sets of the named outputs (R239). -/
def State.loadFir (s : State) (b : List Byte) : State :=
  (firRecs b).foldl
    (fun s r =>
      let raw := (List.range r.count).map (fun k => u32 b (r.off + 4 * k))
      let taps := if u8 b 8 = 0 then raw else raw.map q31Bits
      let s := s.setFir r.out ((s.firOf r.out).setStaged (some ⟨u32 b 12, u8 b 9, taps, false, [], []⟩))
      s.writeTaps r.out (b2n (!(s.firOf r.out).actB)) r.count) s

/-! ### Commands (R255) -/

/-- The modes of the set commands. -/
def firModes : List Nat := [mIDLE, mRENDER, mMEASURE, mSERVICE]

def specFirCommit : CmdSpec := cmdRow 0x0802 1 true 4 4 firModes true
def specFirScheme : CmdSpec := cmdRow 0x0803 0 true 8 8 firModes true
def specFirClear : CmdSpec := cmdRow 0x0804 0 true 4 4 firModes true
def specFirQuery : CmdSpec := cmdRow 0x0805 2 false 2 2 fwModes false
def specConvStats : CmdSpec := cmdRow 0x0806 2 false 0 0 fwModes false
def specFirExport : CmdSpec := cmdRow 0x0807 2 false 12 12 fwModes false

/-- Split a list into groups of `n`. -/
def chunk {α : Type} (n : Nat) : Nat → List α → List (List α)
  | 0, _ => []
  | k + 1, l => if l.isEmpty then [] else l.take n :: chunk n k (l.drop n)

/-- Outputs a commit takes (R241). -/
def State.commitOuts (s : State) (b : List Byte) : List Nat :=
  ((List.range (u16 b 2)).map (· + u16 b 0)).filter (fun o =>
    s.live.outConf o &&
      (FirSet.usable (s.firOf o).active s.rateCode || FirSet.usable (s.firOf o).staged s.rateCode))

def cmdFirCommit (p : Packet) (s : State) : CmdRes :=
  let b := p.params
  if !rangeOk b then .fail s stBAD_PARAM []
  else
    let os := s.commitOuts b
    if os.isEmpty then .ok s.swapIrq []
    else if s.actMode = mRENDER ∨ s.actMode = mMEASURE then
      let len := (if os.any s.longOut then 16384 else 4096) / s.folioLen
      let w : Swap := ⟨chunk 64 8 os, 0, 0, len, 0, 1⟩
      .long (s.beginGroup w 0 (s.slot + 1)) [0]
    else
      .ok ((os.foldl (fun s o => s.swapSets o) s).count Reg.CONV_SWAP_OUT os.length).swapIrq []
/-- `FIR_COMMIT` (R241 to R246). -/
def execFirCommit (p : Packet) (s : State) : Out := runPacket specFirCommit p (cmdFirCommit p) s

/-- A commit has ended (R245): nothing is left to do but to reply. -/
def finFirCommit (s : State) : Option (State × Nat × List Byte) := if s.conv.swap.isSome then none else some (s, stOK, [])

/-- Long-scheme outputs (R27, index 4). -/
def State.longCount (s : State) : Nat := countIf s.conv.fir (fun e => e.2.long && s.live.outConf e.1)

def cmdFirScheme (p : Packet) (s : State) : CmdRes :=
  let b := p.params
  let k := u8 b 4
  if !rangeOk b ∨ 1 < k ∨ !zeroAt b 5 3 then .fail s stBAD_PARAM []
  else
    let os := ((List.range (u16 b 2)).map (· + u16 b 0)).filter s.live.outConf
    if k = 0 ∧ os.any (fun o => (s.firOf o).a.any (fun x => decide (16384 < x.taps.length)) ||
        (s.firOf o).b.any (fun x => decide (16384 < x.taps.length))) then .fail s stBAD_PARAM []
    else
      let s' := os.foldl (fun s o =>
        let x := s.firOf o
        if x.long = (k == 1) then s
        else
          let s := s.setFir o { x with long := k == 1, longFrom := (s.slot + 1) * s.folioLen }
          if k = 1 then s.reserve (ownLong o) longBytes else s.unreserve (ownLong o)) s
      if s.limit 4 < s'.longCount then .fail s stNO_RESOURCE [4#8] else .ok s' []
/-- `FIR_SCHEME_SET` with scheme 1 (R240). -/
def execFirSchemeLong (p : Packet) (s : State) : Out :=
  runPacket specFirScheme (p.withOp 4 1) (cmdFirScheme (p.withOp 4 1)) s
/-- `FIR_SCHEME_SET` with scheme 0 (R240). -/
def execFirSchemeStandard (p : Packet) (s : State) : Out :=
  runPacket specFirScheme (p.withOp 4 0) (cmdFirScheme (p.withOp 4 0)) s

def cmdFirClear (p : Packet) (s : State) : CmdRes :=
  if !rangeOk p.params then .fail s stBAD_PARAM []
  else .ok (s.eachOut p.params (fun o s => s.setFir o ((s.firOf o).setStaged none))) []
/-- `FIR_CLEAR` (R255). -/
def execFirClear (p : Packet) (s : State) : Out := runPacket specFirClear p (cmdFirClear p) s

def tapsOf (x : Option FirSet) : Nat := (x.map (·.taps.length)).getD 0

/-- The `CONV_OUT_STAT` word of an output (R251). -/
def State.firStat (s : State) (o : Nat) : Nat :=
  if !s.live.outConf o then 0
  else
    let x := s.firOf o
    let use := FirSet.usable x.active s.rateCode
    2 ^ 31 + maskBit 7 (x.staged.any (·.damaged)) + maskBit 6 (x.long && x.historyAt s.folioLen s.slot) +
      maskBit 5 (s.swapping o) + maskBit 4 (x.active.any (·.damaged)) + maskBit 3 (x.active.isSome && !use) +
      maskBit 2 x.long + maskBit 1 x.actB + maskBit 0 (use && !s.swapping o)

/-- Write an output index to `CONV_OUT_SEL` (R251). -/
def State.latchConv (s : State) (v : Nat) : State :=
  let o := v % 512
  let x := s.firOf o
  let on := s.live.outConf o
  (((s.wr Reg.CONV_OUT_SEL o).wr Reg.CONV_OUT_STAT (s.firStat o)).wr Reg.CONV_OUT_TAPS_ACT
    (if on then tapsOf x.active else 0)).wr Reg.CONV_OUT_TAPS_STG (if on then tapsOf x.staged else 0)

/-- `CONV_OUT_SEL` (R251). -/
def execConvOutSel (v t : Nat) (s : State) : Out := .next ((s.atTime t).latchConv v)

def cmdFirQuery (p : Packet) (s : State) : CmdRes :=
  let o := u16 p.params 0
  if 512 ≤ o then .fail s stBAD_PARAM []
  else if !s.live.outConf o then .ok s (leBytes 20 0)
  else
    let x := s.firOf o
    .ok s (by4 (s.firStat o) ++ by4 (tapsOf x.active) ++ by4 (tapsOf x.staged) ++
      by4 ((x.active.map (·.id)).getD 0) ++ by4 ((x.staged.map (·.id)).getD 0))
/-- `FIR_QUERY` (R255). -/
def execFirQuery (p : Packet) (s : State) : Out := runPacket specFirQuery p (cmdFirQuery p) s

/-- The CONV counters in offset order (R254). -/
def convCounters : List Nat :=
  [Reg.CONV_HEAD_TKT, Reg.CONV_TAIL_TKT, Reg.CONV_SWAP_GRP, Reg.CONV_SWAP_OUT, Reg.CONV_TAIL_LATE, Reg.CONV_POISON,
   Reg.CONV_HIST_WAIT]

def cmdConvStats (_p : Packet) (s : State) : CmdRes :=
  let (s, bs) := s.takeCounters convCounters
  .ok s bs
/-- `CONV_STATS` (R255). -/
def execConvStats (p : Packet) (s : State) : Out := runPacket specConvStats p (cmdConvStats p) s

/-- The taps of a set as `FIR_EXPORT` writes them: poisoned ones as zero (R248). -/
def State.exportTaps (s : State) (o k : Nat) (x : FirSet) : List Byte :=
  let bad := s.badTaps o k x
  ((List.range x.taps.length).zip x.taps).flatMap (fun y => by4 (if bad.contains y.1 then 0 else y.2))

def cmdFirExport (p : Packet) (s : State) : CmdRes :=
  let b := p.params
  let o := u16 b 0
  let a := u64 b 4
  if 512 ≤ o ∨ 1 < u8 b 2 ∨ u8 b 3 ≠ 0 ∨ a % 64 ≠ 0 then .fail s stBAD_PARAM []
  else
    let v := if s.live.outConf o then (if u8 b 2 = 0 then (s.firOf o).active else (s.firOf o).staged) else none
    match v with
    | none => .ok s (by4 0)
    | some x =>
      if !s.dramFree a (4 * x.taps.length) then .fail s stBAD_PARAM []
      else
        let k := b2n ((u8 b 2 == 0) == (s.firOf o).actB)
        .ok ((s.readTaps o k).busWrite a (s.exportTaps o k x)) (by4 x.taps.length)
/-- `FIR_EXPORT` (R255). -/
def execFirExport (p : Packet) (s : State) : Out := runPacket specFirExport p (cmdFirExport p) s

end Sys2Proof.Machine
end

