-- ==== Sys2Proof/Machine/Mix.lean ====
section
/-!
DEFINITION. The mixer (R282 to R294), its bridges (R295 to R298), the configuration of the announcement bypass and ducking
(R299 to R303), and the commands of R310.
-/

namespace Sys2Proof.Machine

/-! ### Domains (R282 to R284) -/

def MixRun.init : MixRun := ⟨[], [], [], [], []⟩
def MixDom.init : MixDom := ⟨MixRun.init, none, 0, [], 0, 0, [], [], []⟩
def Bridge.init : Bridge := ⟨[], 0, 0, []⟩

def State.mixDom (s : State) (d : Nat) : MixDom := (Tab.look s.mix.doms d).getD MixDom.init
def State.setMixDom (s : State) (d : Nat) (x : MixDom) : State := { s with mix.doms := Tab.put s.mix.doms d x }

/-- D2 follows D0 (R284): `MIX_DOM_STAT.D2_LOCK`. -/
def State.d2Lock (s : State) : Bool := s.flag Reg.MIX_DOM_STAT Fl.MIX_DOM_STAT_D2_LOCK

/-- Sample rate of a domain under a configuration, at a render rate (R282). -/
def RCfg.domRate (c : RCfg) (fs d : Nat) : Nat :=
  let d1 := rateHz (c.fld Reg.MIX_DOM_CFG Fl.MIX_DOM_CFG_D1_RATE)
  if d = 0 then fs else if d = 1 then d1 else if c.fld Reg.MIX_DOM_CFG Fl.MIX_DOM_CFG_D2_REF = 0 then fs else d1

/-- Sample rate of a domain (R282), under R24. -/
def State.domRate (s : State) (d : Nat) : Nat := s.capCfg.domRate s.fs d

/-- Rate of the bypass clock (R299). -/
def State.bypRate (s : State) : Nat := if s.flag Reg.MIX_BYP_CFG Fl.MIX_BYP_CFG_RATE then 44100 else 48000

/-- The render rate is the bypass rate (R300). -/
def State.bypShares (s : State) : Bool := s.follow && s.fs == s.bypRate

/-! ### One block (R287, R292, R293) -/

def Ramp1.now (r : Ramp1) : Int := if r.pos = 0 then r.v0 else r.at' 0

/-- Keys of a gain table that lie in a domain. -/
def domKeys (d : Nat) (t : Tab Int) : List (Nat × Int) :=
  (t.filter (fun e => e.1 / 65536 == d)).map (fun e => (e.1 % 65536, e.2))

/-- Take the gains of a configuration: nodes that change start a ramp from the value they have; the number of ramps. -/
def MixRun.takeGains (r : MixRun) (gs : List (Nat × Int)) (len : Nat) : MixRun × Nat :=
  let new : Tab Int := gs.foldl (fun t e => Tab.store t 0 e.1 e.2) []
  let keys := (new.map (·.1)) ++ ((r.gT.map (·.1)).filter (fun k => (Tab.look new k).isNone))
  keys.foldl
    (fun (a : MixRun × Nat) k =>
      let g := Tab.at new 0 k
      let g0 := Tab.at a.1.gT 0 k
      if g = g0 then a
      else
        let v0 := match Tab.look a.1.ramps k with
          | some x => x.now
          | none => g0 * 2 ^ 10
        ({ a.1 with gT := Tab.store a.1.gT 0 k g, ramps := Tab.put a.1.ramps k ⟨v0, g * 2 ^ 10, 0, len⟩ }, a.2 + 1))
    (r, 0)

/-- Take the source words of the inputs: one that changes starts a crossfade. -/
def MixRun.takeSrcs (r : MixRun) (ws : List (Nat × Nat)) (len : Nat) : MixRun :=
  ws.foldl
    (fun r w =>
      let old := Tab.at r.srcT 0 w.1
      if old = w.2 then r
      else { r with srcT := Tab.store r.srcT 0 w.1 w.2, srcX := Tab.put r.srcX w.1 ⟨old, 0, len⟩ }) r

/-- Samples of an input over a block. -/
def MixRun.input (r : MixRun) (f i : Nat) (src : Nat → List Int) : List Int :=
  let new := src (Tab.at r.srcT 0 i)
  match Tab.look r.srcX i with
  | none => new
  | some x =>
    let old := src x.old
    (List.range f).map (fun j =>
      if x.len ≤ x.pos + j then nth new j 0
      else sat27 (blendW (sin2W (x.pos + j + 1) x.len) (nth old j 0) (nth new j 0)))

/-- Gain of a node at sample `j` of the block, in Q3.23. -/
def MixRun.gain (r : MixRun) (k j : Nat) : Int :=
  match Tab.look r.ramps k with
  | some x => x.at' j
  | none => Tab.at r.gT 0 k * 2 ^ 10

/-- What a block gives: the state after it, its buses, saturated samples, and buses whose limiter reduced gain. -/
structure MixOut where
  run : MixRun
  buses : Tab (List Int)
  sats : Nat
  lims : Nat

/-- The limiter of a bus over Q16.31 sums (R202, R287): Q5.27 samples and gains. -/
def busLimit (t k g : Nat) (xs : List Int) : List (Int × Nat) :=
  let gs := limGains k g (xs.map (fun x => if x = 0 then 2 ^ 23 else min (2 ^ 23) (t * 2 ^ 27 / x.natAbs)))
  (xs.zip gs).map (fun y => (clampI (-(t : Int)) t (rndShr (y.1 * y.2) 27), y.2))

/-- One bus over a block. -/
def MixRun.bus (c : RCfg) (d f fs : Nat) (r : MixRun) (ins : Tab (List Int)) (b : Nat) : List Int × Nat × Nat × Bool :=
  let ks := ((r.gT.map (·.1)) ++ ((r.ramps.map (·.1)).filter (fun k => (Tab.look r.gT k).isNone))).filter (fun k => k / 256 == b)
  let sum := (List.range f).map (fun j =>
    sumI (ks.map (fun k => rndShr (nth (Tab.at ins [] (k % 256)) j 0 * r.gain k j) 19)))
  if c.flag (Reg.MIX_BUS_CFG d b) Fl.MIX_BUS_CFG_LIM_EN then
    let t := levelQ 27 (c.fldS (Reg.MIX_BUS_CFG d b) Fl.MIX_BUS_CFG_LIM_THRESH)
    let ys := busLimit t (releaseK 100 fs) (Tab.at r.lim (2 ^ 23) b) sum
    (ys.map (fun y => sat27 y.1), countIf ys (fun y => sat27 y.1 != y.1), (ys.getLast?.map (·.2)).getD (2 ^ 23),
      ys.any (fun y => decide (y.2 < 2 ^ 23)))
  else
    let ys := sum.map (fun x => rndShr x 4)
    (ys.map sat27, countIf ys (fun y => sat27 y != y), 2 ^ 23, false)

/-- Advance ramps and crossfades by a block; those that have ended go. -/
def MixRun.advance (f : Nat) (r : MixRun) : MixRun :=
  { r with
    ramps := (r.ramps.map (fun (e : Nat × Ramp1) => (e.1, { e.2 with pos := e.2.pos + f }))).filter (fun e => decide (e.2.pos < e.2.len))
    srcX := (r.srcX.map (fun (e : Nat × SrcFade) => (e.1, { e.2 with pos := e.2.pos + f }))).filter (fun e => decide (e.2.pos < e.2.len)) }

/-- One block of a domain's matrix. -/
def MixRun.block (c : RCfg) (d f fs : Nat) (r : MixRun) (src : Nat → List Int) : MixOut :=
  let ks : List Nat := (r.gT.map (fun (e : Nat × Int) => e.1)) ++ (r.ramps.map (fun (e : Nat × Ramp1) => e.1))
  let ins := (ks.map (· % 256)).foldl
    (fun (t : Tab (List Int)) i => if (Tab.look t i).isSome then t else Tab.put t i (r.input f i src)) []
  let bs := ((ks.map (· / 256)) ++ (r.lim.map (fun (e : Nat × Nat) => e.1))).foldl
    (fun (t : Tab Unit) b => Tab.put t b ()) []
  let rs := bs.map (fun (b : Nat × Unit) => (b.1, MixRun.bus c d f fs r ins b.1))
  { run := { r.advance f with lim := rs.foldl (fun t x => Tab.store t (2 ^ 23) x.1 x.2.2.2.1) r.lim }
    buses := rs.map (fun x => (x.1, x.2.1))
    sats := (rs.map (fun x => x.2.2.1)).sum
    lims := countIf rs (fun x => x.2.2.2.2) }

/-! ### Sources (R285) -/

/-- The source sample `k` of a bridge: 0 before its delay line began; none where it is not there yet. -/
def Bridge.at' (b : Bridge) (k : Int) : Option Int :=
  if (b.next : Int) ≤ k then none else some (nth b.hist ((b.next : Int) - 1 - k).toNat 0)

/-- Sample `i` of a bridge's destination block `n` (R296): 64 source samples, of which silence gives silence. -/
def Bridge.out (b : Bridge) (c n i : Nat) (v : BrgConv) : Int :=
  let p := v.pos + 4 * v.ratio * i
  let w := (List.range 64).map (fun (j : Nat) => b.at' (p / 2 ^ 32 - j))
  if w.all (· == some 0) then 0
  else sat27 (Config.asrc c n v.fade v.ratio (p % 2 ^ 32).toNat i (w.filterMap id))

/-- Samples of a bridge channel for destination block `n` (R296, R297). -/
def State.bridgeOut (s : State) (c n : Nat) : List Int :=
  match Tab.look s.mix.bridges c with
  | some b =>
    match Tab.look b.conv n with
    | some v => (List.range s.folioLen).map (fun i => b.out c n i v)
    | none => zeros s.folioLen
  | none => zeros s.folioLen

/-- A bridge channel delivers to a domain. -/
def RCfg.bridgeTo (c : RCfg) (k d : Nat) : Bool :=
  decide (k < 64) && c.flag (Reg.MIX_BRG k) Fl.MIX_BRG_EN && c.fld (Reg.MIX_BRG k) Fl.MIX_BRG_DST_DOM == d

/-- Samples of a source word for block `n` of domain `d`. -/
def State.mixSource (s : State) (c : RCfg) (d n w : Nat) : List Int :=
  let f := s.folioLen
  let k := bitsN w 17 8
  let ch := bitsN w 5 0
  let cap (key : Nat) : List Int :=
    if d = 0 then s.ingress n key else Tab.at (Tab.at (s.mixDom d).inb [] n) (zeros f) key
  match bitsN w 31 28 with
  | 1 => if d = 0 then cap (srcKey 1 k ch) else zeros f
  | 2 => cap (srcKey 2 k ch)
  | 3 => if d = 0 then cap (srcKey 4 k 0) else zeros f
  | 4 => if c.bridgeTo k d then s.bridgeOut k n else zeros f
  | 5 => if d = 0 ∧ s.out.missRun = 0 then
      (match Tab.look s.out.ch k with
        | some x => if x.cur.last8.isEmpty then zeros f else x.cur.last8
        | none => zeros f)
    else zeros f
  | 6 => if d = 0 ∧ s.bypShares = true then cap (srcKey 6 k 0) else zeros f
  | 7 => if d = 2 then cap (srcKey 7 k 0) else zeros f
  | _ => zeros f

/-- Ramp length in samples (R292, R306). -/
def RCfg.mixRamp (c : RCfg) : Nat := clampI 16 4096 (c.fld Reg.MIX_GCFG Fl.MIX_GCFG_RAMP) |>.toNat

/-- Compute block `n` of domain `d` under a configuration; and the ramps that start in it. -/
def State.mixBlock (s : State) (c : RCfg) (d n : Nat) : State × MixOut × Nat :=
  let f := s.folioLen
  let (r, k) := (s.mixDom d).run.takeGains (domKeys d c.plan.mixG) c.mixRamp
  let r := r.takeSrcs ((List.range (domSize d)).map (fun i => (i, c.rd (Reg.MIX_SRC d i)))) c.mixRamp
  let o := MixRun.block c d f (s.domRate d) r (s.mixSource c d n)
  let s := if 0 < o.sats then (s.count Reg.MIX_SAT o.sats).irq Reg.MIX_IRQ_STAT Fl.MIX_IRQ_STAT_SAT else s
  let s := if 0 < o.lims then (s.count Reg.MIX_LIM_ACT o.lims).irq Reg.MIX_IRQ_STAT Fl.MIX_IRQ_STAT_LIM else s
  (s, o, k)

/-! ### Silence of buses (R294) -/

def BusSil.init : BusSil := ⟨0, false, 0⟩

/-- What a bus's detector runs under. -/
def RCfg.busSilCfg (c : RCfg) (d b : Nat) : Nat :=
  c.rd Reg.MIX_SIL_CFG * 2 + b2n (c.flag (Reg.MIX_BUS_CFG d b) Fl.MIX_BUS_CFG_SIL_EN)

def State.putBusSil (s : State) (d b : Nat) (x : BusSil) : State :=
  let m := s.mixDom d
  s.setMixDom d { m with sil := Tab.put m.sil b x }

/-- A bus leaves silence. -/
def State.busSilExit (s : State) (d b : Nat) (x : BusSil) : State :=
  if x.silent then
    (((s.bump Reg.MIX_SIL_EXIT).irq Reg.MIX_IRQ_STAT Fl.MIX_IRQ_STAT_SIL_EXIT).putBusSil d b
      { x with silent := false, run := 0 }).refreshHint
  else s.putBusSil d b { x with run := 0 }

/-- The detector of a bus over a block; none: a missed folio. -/
def State.busSilBlock (s : State) (c : RCfg) (d b : Nat) (xs : Option (List Int)) : State :=
  let x := Tab.at (s.mixDom d).sil BusSil.init b
  let cfg := c.busSilCfg d b
  let s := if x.cfg = cfg then s else s.busSilExit d b { x with cfg := cfg }
  let x := Tab.at (s.mixDom d).sil BusSil.init b
  if !c.flag (Reg.MIX_BUS_CFG d b) Fl.MIX_BUS_CFG_SIL_EN then s
  else
    let t : Int := levelQ 27 (c.fldS Reg.MIX_SIL_CFG Fl.MIX_SIL_CFG_THRESH)
    let ys := xs.getD []
    if ys.any (fun y => decide (t ≤ y.natAbs)) then
      let s := s.busSilExit d b x
      s.putBusSil d b { x with silent := false, run := (ys.reverse.takeWhile (fun y => decide ((y.natAbs : Int) < t))).length }
    else s.putBusSil d b { x with run := x.run + s.folioLen }

/-- The detectors of a domain's watched buses over a block. -/
def State.busSilAll (s : State) (c : RCfg) (d : Nat) (buses : Option (Tab (List Int))) : State :=
  (List.range (domSize d)).foldl
    (fun s b =>
      if c.flag (Reg.MIX_BUS_CFG d b) Fl.MIX_BUS_CFG_SIL_EN || (Tab.look (s.mixDom d).sil b).isSome then
        s.busSilBlock c d b (buses.map (fun t => Tab.at t [] b))
      else s) s

/-- Every bus's detector starts afresh (R22, R209, R294). -/
def State.busSilRestart (s : State) : State :=
  [0, 1, 2].foldl (fun s d => ((s.mixDom d).sil.map (·.1)).foldl
    (fun s b => s.busSilExit d b (Tab.at (s.mixDom d).sil BusSil.init b)) s) s

/-- `SILENCE_ENTER` (R209, R294): of output `k` where `d` is 3, else of bus `k` of domain `d`. -/
def execSilenceEnter (d k t : Nat) (s : State) : Out :=
  let s := s.atTime t
  if d = 3 then
    if s.silDue k then
      .next (s.silEnter k)
    else .next s
  else
    let x := Tab.at (s.mixDom d).sil BusSil.init k
    if s.flag (Reg.MIX_BUS_CFG d k) Fl.MIX_BUS_CFG_SIL_EN ∧ x.silent = false ∧
        s.fld Reg.MIX_SIL_CFG Fl.MIX_SIL_CFG_HOLD * s.domRate d ≤ x.run then
      let s := (s.bump Reg.MIX_SIL_ENTER).irq Reg.MIX_IRQ_STAT Fl.MIX_IRQ_STAT_SIL_ENTER
      .next (s.putBusSil d k { x with silent := true }).refreshHint
    else .next s

/-! ### Blocks (R288, R295) -/

/-- Source samples that a bridge's delay line keeps. -/
def bridgeLen (f : Nat) : Nat := 64 + 16 * f

/-- A block of source samples enters a bridge's delay line, which begins anew where blocks have not followed one another. -/
def Bridge.feed (b : Bridge) (f blk : Nat) (xs : List Int) : Bridge :=
  { b with
    hist := (xs.reverse ++ (if b.next = blk * f then b.hist else [])).take (bridgeLen f)
    next := (blk + 1) * f }

/-- Give block `blk` of a domain's buses to the bridges that take them; none: zeros (R290). -/
def State.feedBridges (s : State) (c : RCfg) (d blk : Nat) (buses : Option (Tab (List Int))) : State :=
  let f := s.folioLen
  let put (t : Tab Bridge) (k : Nat) : Tab Bridge :=
    if c.flag (Reg.MIX_BRG k) Fl.MIX_BRG_EN && c.fld (Reg.MIX_BRG k) Fl.MIX_BRG_SRC_DOM == d then
      let xs := (buses.map (fun u => Tab.at u (zeros f) (c.fld (Reg.MIX_BRG k) Fl.MIX_BRG_BUS))).getD (zeros f)
      Tab.put t k (((Tab.look t k).getD Bridge.init).feed f blk xs)
    else t
  { s with mix.bridges := (List.range 64).foldl put s.mix.bridges }

/-- A bridge of a configuration runs between domains that are not locked (R296). -/
def State.bridgeFree (s : State) (c : RCfg) (k : Nat) : Bool :=
  let a := c.fld (Reg.MIX_BRG k) Fl.MIX_BRG_SRC_DOM
  let b := c.fld (Reg.MIX_BRG k) Fl.MIX_BRG_DST_DOM
  let media := c.fld Reg.MIX_DOM_CFG Fl.MIX_DOM_CFG_D1_REF == 2
  let tied (x y : Nat) : Bool :=
    (x == 0 && y == 2 && s.d2Lock) || (x == 0 && y == 1 && media) || (x == 1 && y == 2 && !s.d2Lock) ||
      (x == 1 && y == 2 && media) || (x == 0 && y == 2 && media)
  c.flag (Reg.MIX_BRG k) Fl.MIX_BRG_EN && !tied a b && !tied b a

/-- Samples of domain `a` for one of domain `b`, in Q2.30 (R296): between D0 and a D1 that is not locked to it, as measured. -/
def State.bridgeRatio (s : State) (a b : Nat) : Nat :=
  let lead (d : Nat) : Nat := if d = 2 ∧ s.d2Lock = true then 0 else min d 1
  let r := s.rd Reg.MIX_D1_RATIO
  if lead a = lead b then 2 ^ 30
  else if s.capCfg.fld Reg.MIX_DOM_CFG Fl.MIX_DOM_CFG_D1_REF = 2 ∨ r = 0 then s.domRate a * 2 ^ 30 / s.domRate b
  else if lead b = 0 then r
  else 2 ^ 60 / r

/-- Where a domain stands now, in 2^-32 of its samples: its block in capture, and what has passed of it. -/
def State.domPos (s : State) (d : Nat) : Int :=
  let f := s.folioLen
  let m := s.mixDom d
  let b := if d = 0 ∨ (d = 2 ∧ s.d2Lock = true) then (s.slot, s.dp.tickNow) else (m.block, m.since)
  ((b.1 * f * 2 ^ 32 + min (f * 2 ^ 32 - 1) ((s.now - b.2) * s.domRate d * 2 ^ 32 / 1000000000) : Nat) : Int)

/-- The place that destination block `n` of domain `d`, which has just ended, takes of source domain `a`, with `dev` for the tracking
deviation in 2^-16 destination samples: 2·F destination samples back, of which the 64 taps reach 32 source samples further (R296). -/
def State.bridgePos (s : State) (a d n : Nat) (dev : Int) : Int :=
  let f := s.folioLen
  let r := s.bridgeRatio a d
  if s.d2Lock = true ∧ (a, d) ∈ [(0, 2), (2, 0)] then ((n : Int) - 2) * f * 2 ^ 32
  else s.domPos a - 3 * f * (4 * r) + dev * (4 * r) / 2 ^ 16

/-- A bridge has the conversion of a destination block, and its fade moves on (R297). -/
def Bridge.convert (b : Bridge) (n : Nat) (x : BrgConv) : Bridge :=
  { b with conv := Tab.put (b.conv.filter (fun e => decide (n ≤ e.1 + 4))) n x, phase := if b.phase = 1 then 2 else 0 }

/-- Bridge `k` for destination block `n`, which has just ended: its conversion, and the fade moves on (R296, R297). Between domains that
are not locked the tracking deviation is free, within 2 destination samples, or 16 while D1 has lost its reference
(notes/assumptions/62). -/
def State.placeBridge (s : State) (c : RCfg) (d n k : Nat) : State :=
  let a := c.fld (Reg.MIX_BRG k) Fl.MIX_BRG_SRC_DOM
  let b := (Tab.look s.mix.bridges k).getD Bridge.init
  let lim := if s.mix.d1Hold then 2 ^ 20 else 2 ^ 17
  let (v, s) := if s.bridgeFree c k then s.fresh else (lim, s)
  let x : BrgConv := ⟨b.phase, s.bridgeRatio a d, s.bridgePos a d n (((v % (2 * lim + 1) : Nat) : Int) - lim)⟩
  { s with mix.bridges := Tab.put s.mix.bridges k (b.convert n x) }

/-- The bridges into a domain whose block `n` has just ended. -/
def State.placeBridges (s : State) (c : RCfg) (d n : Nat) : State :=
  (List.range 64).foldl (fun s k => if c.bridgeTo k d then s.placeBridge c d n k else s) s

/-- Keep the newest blocks of a table by block number. -/
def keepFrom {α : Type} (n : Nat) (t : Tab α) : Tab α := t.filter (fun e => decide (n ≤ e.1))

/-- D0's bus folio `n` is computed. -/
def State.mixD0 (s : State) (n : Nat) : State :=
  let (s, o, k) := s.mixBlock s.procCfg 0 n
  let m := s.mixDom 0
  let s := s.setMixDom 0 { m with nxt := some o.run, starts := k, bus := Tab.put (keepFrom (n - 3) m.bus) n o.buses }
  o.buses.foldl (fun s b => s.putIngress n (srcKey 3 b.1 0) b.2) s

/-- What block `k` of D1 or D2 runs under: the configuration that was in force where it began (R291). -/
def State.blockCfg (s : State) (d k : Nat) : RCfg :=
  match Tab.look (s.mixDom d).cfgs k with
  | some x => ⟨s.otp.grade, x.regs, x.plan⟩
  | none => s.capCfg

/-- Block `k` of D1 or D2 is computed. -/
def State.mixD (s : State) (d k : Nat) : State :=
  let c := s.blockCfg d k
  let (s, o, r) := s.mixBlock c d k
  let m := s.mixDom d
  let s := (s.count Reg.MIX_RAMP r).setMixDom d
    { m with run := o.run, bus := Tab.put (keepFrom (k - 3) m.bus) k o.buses, inb := keepFrom k m.inb, cfgs := keepFrom k m.cfgs }
  (s.busSilAll c d (some o.buses)).feedBridges c d k (some o.buses)

/-- `MIXER_BLOCK_DONE` (R288): engine `e` completes a block; the ticket's item is the domain. -/
def execMixerBlockDone (e t : Nat) (s : State) : Out :=
  let s := s.atTime t
  match s.runningOn e [tkMIX] with
  | none => .next s
  | some x =>
    let n := x.tk.folio
    let s :=
      if x.tk.item = 0 then (if n + 1 = s.slot then s.mixD0 n else s)
      else s.mixD x.tk.item n
    let s := s.finishTicket e x
    let s := if x.tk.item = 0 ∧ n + 1 = s.slot then s.tryPha n else s
    .next (State.startNext State.onStart 3 s e)

/-- The D0 mixer's folio completes with the output folio: its state and ramps count, and its buses reach the silence detectors and
the bridges. -/
def State.mixCommit (s : State) (n : Nat) : State :=
  let c := s.procCfg
  let m := s.mixDom 0
  let s := (s.count Reg.MIX_RAMP m.starts).setMixDom 0 { m with run := m.nxt.getD m.run, nxt := none, starts := 0 }
  (s.busSilAll c 0 (Tab.look m.bus n)).feedBridges c 0 n (Tab.look m.bus n)

/-- The output folio is missed: so is the D0 mixer's, and whatever takes its buses takes zeros (R290). An effect ticket that has taken
them in slot n+1 keeps what it took (DEDUCED from R450 and R455, notes/assumptions/61). -/
def State.mixMiss (s : State) (n : Nat) : State :=
  let c := s.procCfg
  let s := s.setMixDom 0 { s.mixDom 0 with nxt := none, starts := 0 }
  let s := { s with dp.ing := Tab.put s.dp.ing n ((Tab.at s.dp.ing [] n).filter (fun e => e.1 / 2 ^ 20 != 3)) }
  (s.busSilAll c 0 none).feedBridges c 0 n none

/-- Mirror the TDM ports of a domain, and the microphones that D2 takes (R425). -/
def State.mirrorPorts (s : State) (d blk : Nat) (t : Tab (List Int)) : State :=
  if s.mirrors (if d = 0 then blk else s.slot) then
    let s := (List.range 16).foldl
      (fun s q =>
        let cs := chansOf t (srcKey 2 q 0) 32
        if cs.isEmpty then s else s.mirrorOut 1 d q blk cs) s
    if d = 2 then
      s.meas.mics.foldl
        (fun s m =>
          if (List.range 32).any (fun i => bitsN (s.capCfg.rd (Reg.MIX_SRC 2 i)) 31 28 == 7 &&
              bitsN (s.capCfg.rd (Reg.MIX_SRC 2 i)) 17 8 == m.1)
          then s.mirrorOut 2 2 m.1 blk [m.2.mixTap] else s) s
    else s
  else s

/-- The microphones' mixer taps are inputs of the D2 block that ends (R261, R285). -/
def State.takeMics (s : State) : State :=
  let m := s.mixDom 2
  let t := s.meas.mics.foldl (fun (t : Tab (List Int)) e => if e.2.mixTap.isEmpty then t else Tab.put t (srcKey 7 e.1 0) e.2.mixTap)
    (Tab.at m.inb [] m.block)
  s.setMixDom 2 { m with inb := Tab.put m.inb m.block t }

/-- A block of D1 or D2 ends: what the microphones and ports captured is its input, and the next block begins, under the configuration
of the folio being captured (R291). -/
def State.turnBlock (s : State) (d : Nat) : State :=
  let s := if d = 2 then s.takeMics else s
  let m := s.mixDom d
  let s := s.mirrorPorts d m.block (Tab.at m.inb [] m.block)
  s.setMixDom d { m with block := m.block + 1, since := s.now, cfgs := Tab.put m.cfgs (m.block + 1) s.cap }

/-- The block of a domain that has just ended is given to its mixer. -/
def State.issueBlock (s : State) (d : Nat) : State :=
  let k := (s.mixDom d).block - 1
  let s := s.placeBridges (s.blockCfg d k) d k
  if s.planeOn then s.issue 6 (hwTicket tkMIX k d) else
    s.setMixDom d { s.mixDom d with cfgs := keepFrom (k + 1) (s.mixDom d).cfgs, inb := keepFrom (k + 1) (s.mixDom d).inb }

/-- A block of D1 or D2 ends (R288, R295). -/
def State.blockEnd (s : State) (d : Nat) : State := (s.turnBlock d).issueBlock d

/-- `D1_HOLDOVER` (R283): the selected word-clock reference is disqualified. -/
def execD1Holdover (t : Nat) (s : State) : Out :=
  let s := s.atTime t
  if s.capCfg.fld Reg.MIX_DOM_CFG Fl.MIX_DOM_CFG_D1_REF < 2 ∧ s.mix.d1Hold = false then
    .next ((({ s with mix.d1Hold := true } : State).bump Reg.MIX_D1_HOLD).irq Reg.MIX_IRQ_STAT Fl.MIX_IRQ_STAT_D1_HOLD)
  else .next s

/-- `BRIDGE_SLIP` of channel `k` (R297). -/
def execBridgeSlip (k t : Nat) (s : State) : Out :=
  let s := s.atTime t
  if k < 64 ∧ s.bridgeFree s.capCfg k = true then
    let b := (Tab.look s.mix.bridges k).getD Bridge.init
    let s := { s with mix.bridges := Tab.put s.mix.bridges k { b with phase := 1 } }
    .next ((s.bump Reg.MIX_BRG_SLIP).irq Reg.MIX_IRQ_STAT Fl.MIX_IRQ_STAT_SLIP)
  else .next s

/-! ### Ducking (R303) and the amplifier pins (R210) -/

/-- Announcement inputs that are active (R302). -/
def State.annActive (s : State) : List Nat := s.mix.act.map (·.1)

/-- A duck set is engaged. -/
def State.ducking (s : State) (k : Nat) : Bool :=
  s.annActive.any (fun i => (s.fld (Reg.MIX_BYP_IN i) Fl.MIX_BYP_IN_DUCK).testBit k)

/-- Start the ramp of a set for the folio whose processing begins. -/
def State.duckStart (s : State) (k : Nat) (on : Bool) : State :=
  let d := Tab.at s.mix.duck Duck.idle k
  let cfg := s.rd (Reg.MIX_DUCK_CFG k)
  let len := if on then max 1 (bitsN cfg 15 8 * 10 * s.fs / 1000) else max 1 (bitsN cfg 7 0 * 100 * s.fs / 1000)
  let goal : Int := if on then levelQ 23 (s.fldS (Reg.MIX_DUCK_CFG k) Fl.MIX_DUCK_CFG_DEPTH) else 2 ^ 23
  let v := if d.ramp.pos = 0 then d.ramp.v0 else (({ d.ramp with pos := d.ramp.pos - 1 } : Ramp1).at' 0)
  { s with mix.duck := Tab.put s.mix.duck k ⟨on, ⟨v, goal, 0, len⟩⟩ }

/-- The duck sets at the tick from which folio `n` is processed: where this unit decides, a change of engagement starts a
ramp and is recorded; on a standby the record does (R303, R426). -/
def State.duckTick (s : State) (n : Nat) : State :=
  if s.leadsAt n = false then
    let s := s.mix.duckRec.foldl (fun s e => s.duckStart e.1 e.2) s
    { s with mix.duckRec := [] }
  else
    (List.range 4).foldl
      (fun s k =>
        let on := s.ducking k
        if (Tab.at s.mix.duck Duck.idle k).engaged = on then s
        else (s.duckStart k on).sched srDUCK n (by1 k ++ by1 (b2n on) ++ leBytes 6 0)) s

/-- A pin is demanded under mode 0 by outputs or buses that are not silent (R210, R294). -/
def State.ampDemand (s : State) (c : RCfg) (k : Nat) : Bool :=
  (List.range 512).any (fun o => c.outConf o && c.flag (Reg.OUT_CFG o) Fl.OUT_CFG_AMP_MAP &&
    c.fld (Reg.OUT_CFG o) Fl.OUT_CFG_AMP_GRP == k && !(Tab.look s.out.ch o).any (·.silent)) ||
  (List.range 3).any (fun d => (List.range (domSize d)).any (fun b =>
    c.flag (Reg.MIX_BUS_CFG d b) Fl.MIX_BUS_CFG_AMP_MAP && c.fld (Reg.MIX_BUS_CFG d b) Fl.MIX_BUS_CFG_AMP_GRP == k &&
      !(c.flag (Reg.MIX_BUS_CFG d b) Fl.MIX_BUS_CFG_SIL_EN && (Tab.at (s.mixDom d).sil BusSil.init b).silent)))

/-- A pin is demanded by the announcement bypass (R302). -/
def State.annDemand (s : State) (k : Nat) : Bool :=
  s.annActive.any (fun i => (s.fld (Reg.MIX_BYP_IN i) Fl.MIX_BYP_IN_AMP).testBit k)

/-- At a tick the pins take up what is silent, under the configuration of the folio that leaves (R210). -/
def State.ampLatch (s : State) (c : RCfg) : State :=
  { s with out.ampSil := (List.range 16).foldl (fun v k => v + maskBit k (s.ampDemand c k)) 0 }

/-- Drive the `AMP_EN` pins (R210): between ticks only the announcement bypass moves one. -/
def State.ampLevels (s : State) (c : RCfg) : State :=
  let m := c.rd Reg.OUT_AMP_CTRL
  let v := (List.range 16).foldl (fun v k =>
    let on := match m / 4 ^ k % 4 with
      | 1 => true
      | 2 => false
      | _ => s.out.ampSil.testBit k || s.annDemand k
    v + maskBit k on) 0
  s.setFld Reg.OUT_AMP_STAT Fl.OUT_AMP_STAT_LEVEL v

/-! ### Bit clocks (R312) -/

/-- Bits of a slot width code. -/
def slotBits (w : Nat) : Nat := if w = 0 then 16 else if w = 1 then 24 else 32

/-- Bit clock of a format at a rate, in Hz. -/
def bclkHz (fmt rate : Nat) : Nat := bitsN fmt 5 0 * slotBits (bitsN fmt 15 14) * rate

/-- The first enabled port of a domain whose bit clock would exceed 50 MHz at a rate. -/
def State.tooFast (s : State) (inDom : Nat → Bool) (rate : Nat) : Option Nat :=
  (List.range 14).find? (fun q => s.flag (Reg.TDM_CFG q) Fl.TDM_CFG_EN && inDom (s.fld (Reg.TDM_CFG q) Fl.TDM_CFG_DOM) &&
    decide (50000000 < bclkHz (s.rd (Reg.TDM_FMT q)) rate))

/-! ### Commands (R310) -/

def specMixSrcSet : CmdSpec := cmdRow 0x0A01 0 true 8 8 fwModes true
def specMixNodeStage : CmdSpec := cmdRow 0x0A02 1 true 4 8200 fwModes true
def specMixCommit : CmdSpec := cmdRow 0x0A03 1 true 4 4 fwModes true
def specMixBusSet : CmdSpec := cmdRow 0x0A04 0 true 12 12 fwModes true
def specMixDomSet : CmdSpec :=
  cmdRow 0x0A05 0 true 4 4 [mLOAD, mIDLE, mRENDER, mSTANDBY, mRESYNC, mSERVICE, mUPDATE, mFAULT] true
def specMixBridgeSet : CmdSpec := cmdRow 0x0A06 0 true 8 8 fwModes true
def specMixSilSet : CmdSpec := cmdRow 0x0A07 0 true 4 4 fwModes true
def specBypSet : CmdSpec := cmdRow 0x0A08 0 true 164 164 (mSAFE :: fwModes) true
def specDuckSet : CmdSpec := cmdRow 0x0A09 0 true 72 72 (mSAFE :: fwModes) true
def specMixQuery : CmdSpec := cmdRow 0x0A0A 2 false 4 4 fwModes false
def specMixStats : CmdSpec := cmdRow 0x0A0B 2 false 0 0 fwModes false

/-- A source word is admitted in a domain (R285, R307). -/
def srcWordOk (d v : Nat) : Bool :=
  let k := bitsN v 31 28
  let i := bitsN v 17 8
  let ch := bitsN v 5 0
  rsvOk (Reg.MIX_SRC 0 0) v &&
    (match k with
      | 0 => true
      | 1 => d == 0 && decide (i < 256)
      | 2 => decide (i < 16) && decide (ch < 32)
      | 3 => d == 0 && decide (i < 256) && ch == 0
      | 4 => decide (i < 64) && ch == 0
      | 5 => d == 0 && decide (i < 512) && ch == 0
      | 6 => d == 0 && decide (i < 8) && ch == 0
      | 7 => d == 2 && decide (i < 16) && ch == 0
      | _ => false)

def cmdMixSrcSet (p : Packet) (s : State) : CmdRes :=
  let b := p.params
  let d := u8 b 0
  let i := u8 b 1
  if 3 ≤ d ∨ domSize d ≤ i ∨ u16 b 2 ≠ 0 ∨ !srcWordOk d (u32 b 4) then .fail s stBAD_PARAM []
  else .ok (s.wr (Reg.MIX_SRC d i) (u32 b 4)) []
/-- `MIX_SRC_SET` (R285, R293). -/
def execMixSrcSet (p : Packet) (s : State) : Out := runPacket specMixSrcSet p (cmdMixSrcSet p) s

def cmdMixNodeStage (p : Packet) (s : State) : CmdRes :=
  let b := p.params
  let d := u8 b 0
  let bus := u8 b 1
  let first := u8 b 2
  let m := if u8 b 3 = 0 then 256 else u8 b 3
  if b.length ≠ 4 + 2 * m then .fail s stBAD_LENGTH []
  else if 3 ≤ d ∨ domSize d ≤ bus ∨ domSize d < first + m then .fail s stBAD_PARAM []
  else
    let st := (List.range m).foldl
      (fun (t : Tab Int) i => Tab.store t 0 (65536 * d + 256 * bus + first + i) (i16 b (4 + 2 * i))) s.mix.staged
    .ok { s with mix.staged := st } []
/-- `MIX_NODE_STAGE` (R291). -/
def execMixNodeStage (p : Packet) (s : State) : Out := runPacket specMixNodeStage p (cmdMixNodeStage p) s

/-- The gains of the domains of a mask from one table, the rest from another. -/
def takeDoms (mask : Nat) (a b : Tab Int) : Tab Int :=
  (a.filter (fun e => mask.testBit (e.1 / 65536))).foldl (fun t e => Tab.put t e.1 e.2)
    (b.filter (fun e => !mask.testBit (e.1 / 65536)))

def cmdMixCommit (p : Packet) (s : State) : CmdRes :=
  let b := p.params
  let op := u8 b 0
  let m := u8 b 1
  if 1 < op ∨ 8 ≤ m ∨ u16 b 2 ≠ 0 then .fail s stBAD_PARAM []
  else if op = 0 then .ok { s with plan.mixG := takeDoms m s.mix.staged s.plan.mixG } []
  else .ok { s with mix.staged := takeDoms m s.plan.mixG s.mix.staged } []
/-- `MIX_COMMIT` with op 0 (R291). -/
def execMixCommit (p : Packet) (s : State) : Out := runPacket specMixCommit (p.withOp 0 0) (cmdMixCommit (p.withOp 0 0)) s
/-- `MIX_COMMIT` with op 1 (R291). -/
def execMixDiscard (p : Packet) (s : State) : Out := runPacket specMixCommit (p.withOp 0 1) (cmdMixCommit (p.withOp 0 1)) s

/-- A bus destination is free (R286, R301). -/
def State.busDestFree (s : State) (d b v : Nat) : Bool :=
  let kind := bitsN v 31 30
  kind == 0 ||
    (!s.outputs.any (fun o => s.rd (Reg.OUT_DEST o) == v) &&
      !((List.range 3).any (fun e => (List.range (domSize e)).any (fun c =>
        !(e == d && c == b) && s.rd (Reg.MIX_BUS_DEST e c) == v))) &&
      !(kind == 1 && bitsN v 23 16 == 15 && s.bypassOwns (bitsN v 5 0)))

def cmdMixBusSet (p : Packet) (s : State) : CmdRes :=
  let b := p.params
  let d := u8 b 0
  let k := u8 b 1
  let cfg := u32 b 4
  let dest := u32 b 8
  if 3 ≤ d ∨ domSize d ≤ k ∨ u16 b 2 ≠ 0 ∨ !rsvOk (Reg.MIX_BUS_CFG 0 0) cfg ∨ !destOk dest ∨
      (bitsN dest 31 30 = 2 ∧ d ≠ 0) ∨ !inRange (toS 16 cfg) (-4000) 2400 ∨ !s.busDestFree d k dest then
    .fail s stBAD_PARAM []
  else .ok ((s.wr (Reg.MIX_BUS_CFG d k) cfg).wr (Reg.MIX_BUS_DEST d k) dest).refreshHint []
/-- `MIX_BUS_SET` (R286, R287, R294). -/
def execMixBusSet (p : Packet) (s : State) : Out := runPacket specMixBusSet p (cmdMixBusSet p) s

def cmdMixDomSet (p : Packet) (s : State) : CmdRes :=
  let v := u32 p.params 0
  let rate := rateHz (bitsN v 3 2)
  let d2on1 := bitsN v 7 6 == 1
  let r2 := if d2on1 then rate else s.fs
  if !rsvOk Reg.MIX_DOM_CFG v ∨ 1 < bitsN v 7 6 ∨ (s.tooFast (· == 1) rate).isSome = true ∨
      (s.tooFast (· == 2) r2).isSome = true then .fail s stBAD_PARAM []
  else
    .ok (s.wr Reg.MIX_DOM_CFG v) []
/-- The domains take up the configuration of the folio whose capture begins (R24, R283, R284): D2 follows D0 or D1, and a D1 that has
changed its reference holds over no longer. -/
def State.takeDomains (s : State) (old : Snap) : State :=
  let was : RCfg := ⟨s.otp.grade, old.regs, old.plan⟩
  let c := s.capCfg
  let lock := c.fld Reg.MIX_DOM_CFG Fl.MIX_DOM_CFG_D2_REF == 0
  let left := s.d2Lock && !lock
  let s := s.setFlag Reg.MIX_DOM_STAT Fl.MIX_DOM_STAT_D2_LOCK lock
  let s := if left then s.irq Reg.MIX_IRQ_STAT Fl.MIX_IRQ_STAT_D2_UNLOCK else s
  if was.fld Reg.MIX_DOM_CFG Fl.MIX_DOM_CFG_D1_REF = c.fld Reg.MIX_DOM_CFG Fl.MIX_DOM_CFG_D1_REF then s
  else { s with mix.d1Hold := false }

/-- `MIX_DOM_SET` (R283, R284): in force with the folio that follows its slot (R24). -/
def execMixDomSet (p : Packet) (s : State) : Out := runPacket specMixDomSet p (cmdMixDomSet p) s

def cmdMixBridgeSet (p : Packet) (s : State) : CmdRes :=
  let b := p.params
  let k := u8 b 0
  let v := u32 b 4
  let a := bitsN v 27 26
  let d := bitsN v 25 24
  if 64 ≤ k ∨ !zeroAt b 1 3 ∨ !rsvOk (Reg.MIX_BRG 0) v ∨ 3 ≤ a ∨ 3 ≤ d ∨ a = d ∨ domSize a ≤ bitsN v 7 0 then
    .fail s stBAD_PARAM []
  else .ok (s.wr (Reg.MIX_BRG k) v) []
/-- `MIX_BRIDGE_SET` (R295). -/
def execMixBridgeSet (p : Packet) (s : State) : Out := runPacket specMixBridgeSet p (cmdMixBridgeSet p) s

def cmdMixSilSet (p : Packet) (s : State) : CmdRes :=
  let v := u32 p.params 0
  if !rsvOk Reg.MIX_SIL_CFG v ∨ !inRange (toS 16 (v / 65536)) (-10000) (-4000) ∨ bitsN v 9 0 = 0 ∨ 600 < bitsN v 9 0 then
    .fail s stBAD_PARAM []
  else .ok (s.wr Reg.MIX_SIL_CFG v) []
/-- `MIX_SIL_SET` (R294). -/
def execMixSilSet (p : Packet) (s : State) : Out := runPacket specMixSilSet p (cmdMixSilSet p) s

/-- A port-15 slot is named by an output or a bus. -/
def State.slot15Named (s : State) (j : Nat) : Bool :=
  let v := 2 ^ 30 + 15 * 65536 + j
  s.outputs.any (fun o => s.rd (Reg.OUT_DEST o) == v) || s.busNames v

def bypInAt (b : List Byte) (k : Nat) : Nat := u32 b (4 + 4 * k)
def bypOutAt (b : List Byte) (j : Nat) : Nat := u32 b (36 + 4 * j)

/-- The values of a `BYP_SET` are admitted (R301, R308). -/
def State.bypOk (s : State) (b : List Byte) : Bool :=
  let cfg := u32 b 0
  rsvOk Reg.MIX_BYP_CFG cfg && bitsN cfg 23 16 != 0 && inRange (toS 16 cfg) (-8000) (-1000) &&
    (List.range 8).all (fun k => rsvOk (Reg.MIX_BYP_IN 0) (bypInAt b k)) &&
    (List.range 32).all (fun j => rsvOk (Reg.MIX_BYP_OUT 0) (bypOutAt b j) &&
      !((bypOutAt b j).testBit 31 && s.slot15Named j))

def cmdBypSet (p : Packet) (s : State) : CmdRes :=
  let b := p.params
  if !s.bypOk b then .fail s stBAD_PARAM []
  else
    let s := s.wr Reg.MIX_BYP_CFG (u32 b 0)
    let s := forRange 0 8 (fun k s => s.wr (Reg.MIX_BYP_IN k) (bypInAt b k)) s
    let s := forRange 0 32 (fun j s => s.wr (Reg.MIX_BYP_OUT j) (bypOutAt b j)) s
    let s := { s with mix.act := s.mix.act.filter (fun e => s.flag (Reg.MIX_BYP_IN e.1) Fl.MIX_BYP_IN_EN) }
    .ok (if s.mode = mSAFE then s else s.ampLevels s.emiCfg) []
/-- `BYP_SET` (R299 to R302). -/
def execBypSet (p : Packet) (s : State) : Out := runPacket specBypSet p (cmdBypSet p) s

def cmdDuckSet (p : Packet) (s : State) : CmdRes :=
  let b := p.params
  let k := u8 b 0
  let v := u32 b 4
  if 4 ≤ k ∨ !zeroAt b 1 3 ∨ !inRange (toS 16 (v / 65536)) (-6000) 0 ∨ bitsN v 15 8 = 0 ∨ bitsN v 7 0 = 0 then
    .fail s stBAD_PARAM []
  else .ok (forRange 0 16 (fun w s => s.wr (Reg.MIX_DUCK_MAP k w) (u32 b (8 + 4 * w))) (s.wr (Reg.MIX_DUCK_CFG k) v)) []
/-- `DUCK_SET` (R303). -/
def execDuckSet (p : Packet) (s : State) : Out := runPacket specDuckSet p (cmdDuckSet p) s

def cmdMixQuery (p : Packet) (s : State) : CmdRes :=
  let b := p.params
  let d := u8 b 0
  let k := u8 b 1
  if 3 ≤ d ∨ domSize d ≤ k ∨ u16 b 2 ≠ 0 then .fail s stBAD_PARAM []
  else
    let keys := (List.range (domSize d)).map (fun i => 65536 * d + 256 * k + i)
    let g := keys.map (fun i => Tab.at s.plan.mixG 0 i)
    .ok s (by4 (s.rd (Reg.MIX_BUS_CFG d k)) ++ by4 (s.rd (Reg.MIX_BUS_DEST d k)) ++ g.flatMap si2 ++
      by1 (b2n (g != keys.map (fun i => Tab.at s.mix.staged 0 i))))
/-- `MIX_QUERY` (R310). -/
def execMixQuery (p : Packet) (s : State) : Out := runPacket specMixQuery p (cmdMixQuery p) s

/-- The MIX counters in offset order (R309). -/
def mixCounters : List Nat :=
  [Reg.MIX_SAT, Reg.MIX_LIM_ACT, Reg.MIX_RAMP, Reg.MIX_BRG_SLIP, Reg.MIX_D1_HOLD, Reg.MIX_BYP_ACT, Reg.MIX_SIL_ENTER,
   Reg.MIX_SIL_EXIT]

def cmdMixStats (_p : Packet) (s : State) : CmdRes :=
  let (s, bs) := s.takeCounters mixCounters
  .ok s bs
/-- `MIX_STATS` (R309). -/
def execMixStats (p : Packet) (s : State) : Out := runPacket specMixStats p (cmdMixStats p) s

end Sys2Proof.Machine
end

