-- ==== Sys2Proof/Machine/Tdm.lean ====
section
/-!
DEFINITION. The TDM ports (R311 to R335) and the announcement bypass on ports 14 and 15 (R300 to R302).
-/

namespace Sys2Proof.Machine

def TdmDir.init (cfg fmt : Nat) : TdmDir := ⟨cfg, fmt, 0, 0, 0, [], [], []⟩
def TdmPort.init : TdmPort := ⟨0, none, none, false, 0, 16, 16, [], 0, 0, 0, []⟩

def State.tdmPort (s : State) (q : Nat) : TdmPort := Tab.at s.tdm.ports TdmPort.init q
def State.setTdmPort (s : State) (q : Nat) (x : TdmPort) : State := { s with tdm.ports := Tab.put s.tdm.ports q x }

/-! ### Where a port runs (R311, R331) -/

/-- A port's domain under a configuration: 3 is the bypass clock. -/
def RCfg.tdmDom (c : RCfg) (q : Nat) : Nat := if 14 ≤ q then 3 else c.fld (Reg.TDM_CFG q) Fl.TDM_CFG_DOM

/-- A port masters its clocks (R311, R313). -/
def RCfg.tdmMaster (c : RCfg) (q : Nat) : Bool := decide (14 ≤ q) || c.flag (Reg.TDM_CFG q) Fl.TDM_CFG_MASTER

/-- The configuration a direction of a port takes at a frame start (R322): the snapshot for a port in D0, else the live
registers. -/
def State.tdmCfg (s : State) (q : Nat) (snap : RCfg) : RCfg :=
  if q < 14 ∧ (s.live.tdmDom q = 0 ∨ snap.tdmDom q = 0) then snap else s.live

def State.tdmRxCfg (s : State) (q : Nat) : RCfg := s.tdmCfg q s.capCfg
def State.tdmTxCfg (s : State) (q : Nat) : RCfg := s.tdmCfg q s.emiCfg

/-- The modes in which ports 0 to 13 run. -/
def tdmModes : List Nat := [mIDLE, mRENDER, mSTANDBY, mRESYNC, mMEASURE, mSERVICE, mUPDATE]

/-- A port runs under a configuration. -/
def State.tdmRuns (s : State) (c : RCfg) (q : Nat) : Bool :=
  c.flag (Reg.TDM_CFG q) Fl.TDM_CFG_EN &&
    (if q < 14 then tdmModes.contains s.mode && s.domOn dTDM else s.flag Reg.MIX_BYP_CFG Fl.MIX_BYP_CFG_EN)

/-- The drivers are off by the rein (R319, R304). -/
def State.fencedPins (s : State) : Bool := s.paired && !s.flag Reg.TTH_STAT Fl.TTH_STAT_DRIVING

/-- Frames per second of a port. -/
def State.tdmRate (s : State) (c : RCfg) (q : Nat) : Nat := if 14 ≤ q then s.bypRate else s.domRate (c.tdmDom q)

def RCfg.tdmFmt (c : RCfg) (q : Nat) : Nat := c.rd (Reg.TDM_FMT q)

/-- Slots, bits of data, and bits in a frame of a format (R315). -/
def fmtSlots (f : Nat) : Nat := bitsN f 5 0
def fmtData (f : Nat) : Nat := bitsN f 13 8
def frameBits (f : Nat) : Nat := fmtSlots f * slotBits (bitsN f 15 14)

/-! ### Channel enables and zero crossings (R321 to R324) -/

/-- Start or stop a direction with its configuration; a change of `FMT`, `MASTER`, `DOM` or `GROUP` restarts it (R335). -/
def tdmDirFor (runs : Bool) (cfg fmt : Nat) (d : Option TdmDir) : Option TdmDir :=
  if !runs then none
  else
    match d with
    | none => some (TdmDir.init cfg fmt)
    | some x =>
      if x.fmt = fmt ∧ (x.cfg ^^^ cfg) &&& 0x77000000 = 0 then some { x with cfg := cfg }
      else some { TdmDir.init cfg fmt with stop := 2 }

/-- One frame passes of a direction that stands still. -/
def TdmDir.stand (d : TdmDir) : TdmDir := { d with stop := d.stop - 1 }

/-- Take the enables at a frame start: a change starts or replaces a wait, a change back cancels it (R324). -/
def TdmDir.enables (d : TdmDir) (frame en : Nat) : TdmDir :=
  (List.range 32).foldl
    (fun d j =>
      let b := en.testBit j
      if b = d.want.testBit j then d
      else if b = d.on.testBit j then { d with want := setBitN d.want j b, waits := Tab.del d.waits j }
      else { d with want := setBitN d.want j b, waits := Tab.put d.waits j ⟨b, frame⟩ }) d

/-- Frames of a wait's time-out (R323). -/
def TdmDir.zcFrames (d : TdmDir) (fs : Nat) : Nat := max 1 (bitsN d.cfg 9 0) * fs / 1000

/-- The wait of a channel times out: the change is made with a ramp. -/
def TdmDir.timeOut (d : TdmDir) (j : Nat) (w : ZcWait) : TdmDir :=
  { d with on := setBitN d.on j w.want, waits := Tab.del d.waits j, ramps := Tab.put d.ramps j ⟨w.want, 0⟩ }

/-- The gain law of R292 with length 16, on a sample. -/
def zcRampGain (up : Bool) (pos : Nat) (x : Int) : Int :=
  let w : Int := sin2W (pos + 1) 16
  rndShr (x * (if up then w else 2 ^ 23 - w)) 23

/-- A channel's sample of a frame: what passes, and whether its wait timed out at it (R321, R323). The sample before the first is no
sample, and 0 has a sign of its own (DEDUCED, notes/assumptions/64). -/
def TdmDir.sample (d : TdmDir) (fs frame j : Nat) (x : Int) : TdmDir × Int × Bool :=
  let zc := x == 0 || (Tab.look d.prev j).any (fun p => x.sign != p.sign)
  let (d, late) :=
    match Tab.look d.waits j with
    | none => (d, false)
    | some w =>
      if zc then
        ({ d with on := setBitN d.on j w.want, waits := Tab.del d.waits j, ramps := Tab.del d.ramps j }, false)
      else if d.zcFrames fs ≤ frame - w.since then (d.timeOut j w, true)
      else (d, false)
  let y :=
    match Tab.look d.ramps j with
    | some r => zcRampGain r.up r.pos x
    | none => if d.on.testBit j then x else 0
  let ramps :=
    match Tab.look d.ramps j with
    | some r => if 15 ≤ r.pos then Tab.del d.ramps j else Tab.put d.ramps j { r with pos := r.pos + 1 }
    | none => d.ramps
  ({ d with prev := Tab.put d.prev j x, ramps := ramps }, y, late)

/-- Count a time-out (R323). -/
def State.zcTimedOut (s : State) (late : Bool) : State :=
  if late then (s.bump Reg.TDM_ZC_TO).irq Reg.TDM_IRQ_STAT Fl.TDM_IRQ_STAT_ZC_TO else s

/-- The samples of a direction's slots in a frame. -/
def TdmDir.slots (d : TdmDir) (fs frame : Nat) (xs : List Int) : TdmDir × List Int × Nat :=
  (List.range (fmtSlots d.fmt)).foldl
    (fun (a : TdmDir × List Int × Nat) j =>
      let (d, y, late) := a.1.sample fs frame j (nth xs j 0)
      (d, a.2.1 ++ [y], a.2.2 + b2n late)) (d, [], 0)

/-! ### Received frames (R314, R316) -/

/-- A received word of `w` data bits in Q5.27. -/
def wordIn (w v : Nat) : Int := if w ≤ 28 then toS w v * 2 ^ (28 - w) else rndShr (toS w v) (w - 28)

/-- Put a sample into a table of blocks of samples. -/
def putSample (f i : Nat) (x : Int) (old : List Int) : List Int := setNth (if old.isEmpty then zeros f else old) i x

/-- Where a standby keeps what it receives itself, in case it must decide for the folio (R432). -/
def ownKey (k : Nat) : Nat := 8 * 2 ^ 20 + k

/-- Hand the received samples of a frame to the domain of the port: to the folio or block its edge belongs to (R314). A
standby renders from the mirror instead (R319). -/
def State.tdmDeliver (s : State) (dom q mt : Nat) (ys : List Int) : State :=
  let f := s.folioLen
  let own := !s.decidesAt (if dom = 0 then mt / f else s.slot)
  let put (t : Tab (List Int)) (e : Nat × Int) : Tab (List Int) :=
    let k := if own then ownKey (srcKey 2 q e.1) else srcKey 2 q e.1
    Tab.put t k (putSample f (mt % f) e.2 (Tab.at t [] k))
  let es := (List.range ys.length).zip ys
  if dom = 0 then
    { s with dp.ing := Tab.put s.dp.ing (mt / f) (es.foldl put (Tab.at s.dp.ing [] (mt / f))) }
  else if dom < 3 then
    let m := s.mixDom dom
    let b := if dom = 2 ∧ s.d2Lock = true then mt / f else m.block
    s.setMixDom dom { m with inb := Tab.put m.inb b (es.foldl put (Tab.at m.inb [] b)) }
  else s

/-! ### Announcements (R301, R302) -/

/-- The bypass clock's frame at which a port-14 or port-15 frame starts. -/
def State.bypTick (s : State) : State :=
  if s.mix.bypAt = s.now then s else { s with mix.bypFrame := s.mix.bypFrame + 1, mix.bypAt := s.now }

/-- An announcement input ceases to be active. -/
def State.annEnd (s : State) (k : Nat) : State :=
  let s := { s with mix.act := Tab.del s.mix.act k }
  if s.mode = mSAFE then s else s.ampLevels s.emiCfg

/-- `GATE_HOLD` has passed with every sample of input `k` below the threshold. -/
def State.gateOver (s : State) (k : Nat) : Bool :=
  match Tab.look s.mix.act k with
  | some t => decide (s.fld Reg.MIX_BYP_CFG Fl.MIX_BYP_CFG_GATE_HOLD * 100000000 ≤ s.now - t)
  | none => false

/-- A sample of announcement input `k`. -/
def State.annSample (s : State) (k : Nat) (x : Int) : State :=
  if levelQ 27 (s.fldS Reg.MIX_BYP_CFG Fl.MIX_BYP_CFG_GATE_THRESH) ≤ x.natAbs then
    let new := (Tab.look s.mix.act k).isNone
    let s := { s with mix.act := Tab.put s.mix.act k s.now }
    if new then
      let s := (s.bump Reg.MIX_BYP_ACT).irq Reg.MIX_IRQ_STAT Fl.MIX_IRQ_STAT_BYP_ACT
      if s.mode = mSAFE then s else s.ampLevels s.emiCfg
    else s
  else if s.gateOver k then s.annEnd k
  else s

/-- A port-14 frame: its announcement inputs, kept for the port-15 frame two later, and for D0 where it shares frames. -/
def State.annFrame (s : State) (mt : Nat) (ys : List Int) : State :=
  let f := s.folioLen
  let xs := (List.range 8).map (fun k =>
    if s.flag (Reg.MIX_BYP_IN k) Fl.MIX_BYP_IN_EN then nth ys (s.fld (Reg.MIX_BYP_IN k) Fl.MIX_BYP_IN_SLOT) 0 else 0)
  let n := s.mix.bypFrame
  let s := { s with mix.ann := Tab.put (keepFrom (n - 3) s.mix.ann) n xs }
  let s : State := (List.range 8).foldl
    (fun (s : State) k => if s.flag (Reg.MIX_BYP_IN k) Fl.MIX_BYP_IN_EN then s.annSample k (nth xs k 0) else s) s
  if s.bypShares then
    (List.range 8).foldl
      (fun (s : State) k =>
        let key := if s.decidesAt (mt / f) then srcKey 6 k 0 else ownKey (srcKey 6 k 0)
        s.putIngress (mt / f) key (putSample f (mt % f) (nth xs k 0) (Tab.at (Tab.at s.dp.ing [] (mt / f)) [] key))) s
  else s

/-- What an owned port-15 slot carries (R301). -/
def State.annOut (s : State) (j : Nat) : Int :=
  let xs := if s.mix.bypFrame < 2 then [] else Tab.at s.mix.ann [] (s.mix.bypFrame - 2)
  let m := s.fld (Reg.MIX_BYP_OUT j) Fl.MIX_BYP_OUT_IN_MASK
  let sum := sumI ((List.range 8).map (fun k => if m.testBit k then nth xs k 0 else 0))
  rndShr (sat27 sum * s.fldS (Reg.MIX_BYP_OUT j) Fl.MIX_BYP_OUT_GAIN) 13

/-! ### Transmitted frames (R314, R318, R327) -/

/-- The word that names a TDM slot as a destination (R204, R286). -/
def destWord (q j : Nat) : Nat := 2 ^ 30 + q * 2 ^ 16 + j

/-- What a slot of a port sends: a sample, and the output whose dither it takes with the sample's media time. -/
structure TdmSrc where
  x : Int
  out : Option (Nat × Nat)

/-- The media time whose dither a sample takes at emission media time `mt` (R205, R206): its own, the present one where the folio before
fades out in its place, none for a zero. -/
def Emission.ditherTime (e : Emission) (f mt : Nat) : Option Nat :=
  match e.kind with
  | 0 => some (mt - 2 * f)
  | 1 => some mt
  | _ => none

/-- The source of a D0 destination at emission media time `mt` (R314, R321, R374). -/
def State.d0Source (s : State) (c : RCfg) (dest mt : Nat) : TdmSrc :=
  let f := s.folioLen
  match if mt < 2 * f then none else Tab.look s.out.emit (mt / f - 2) with
  | none => ⟨0, none⟩
  | some e =>
    match (List.range 512).find? (fun o => c.outConf o && c.rd (Reg.OUT_DEST o) == dest) with
    | some o => ⟨nth (Tab.at e.outs [] o) (mt % f) 0, (e.ditherTime f mt).map (fun t => (o, t))⟩
    | none =>
      match (List.range 256).find? (fun b => c.rd (Reg.MIX_BUS_DEST 0 b) == dest) with
      | some b => ⟨nth (Tab.at e.buses [] b) (mt % f) 0, none⟩
      | none => ⟨0, none⟩

/-- The source of a slot of a port. -/
def State.tdmSource (s : State) (c : RCfg) (q j mt : Nat) : TdmSrc :=
  let f := s.folioLen
  let d := c.tdmDom q
  if d = 0 then s.d0Source c (destWord q j) mt
  else if d = 3 then
    if q = 15 ∧ s.bypassOwns j = true then ⟨s.annOut j, none⟩
    else if s.bypShares then s.d0Source s.emiCfg (destWord q j) mt
    else ⟨0, none⟩
  else
    let m := s.mixDom d
    let b := if d = 2 ∧ s.d2Lock = true then mt / f else m.block
    match (List.range (domSize d)).find? (fun i => c.rd (Reg.MIX_BUS_DEST d i) == destWord q j) with
    | some i => ⟨if b < 2 then 0 else nth (Tab.at (Tab.at m.bus [] (b - 2)) [] i) (mt % f) 0, none⟩
    | none => ⟨0, none⟩

/-- The slots of port 15 that the bypass owns (R320). -/
def State.ownedSlots (s : State) (q : Nat) : Nat :=
  if q = 15 then (List.range 32).foldl (fun m j => m + maskBit j (s.bypassOwns j)) 0 else 0

/-- The word of a slot, and whether an output's sample saturated (R205, R216). -/
def State.tdmWord (s : State) (w : Nat) (src : TdmSrc) (y : Int) : Int × Bool :=
  match src.out with
  | some (o, t) => toFormat w (s.emiCfg.flag (Reg.OUT_CFG o) Fl.OUT_CFG_DITHER) t o y
  | none => ((toFormat w false 0 0 y).1, false)

/-- The transmit side of a frame: `late` says that its samples have not reached the port by the launching edge of its
first owned slot. -/
def State.tdmTransmit (s : State) (q mt : Nat) (late : Bool) : State :=
  let x := s.tdmPort q
  match x.tx with
  | none => s.setTdmPort q { x with wire := [] }
  | some d =>
    if 0 < d.stop then s.setTdmPort q { x with wire := [], tx := some d.stand }
    else if x.lost then s.setTdmPort q { x with wire := [] }
    else
      let c := s.tdmTxCfg q
      let own := s.ownedSlots q
      let mask := c.rd (Reg.TDM_TX_MASK q) ||| own
      let d := d.enables x.frame (c.rd (Reg.TDM_TX_EN q) ||| own)
      let slots := List.range (fmtSlots d.fmt)
      let srcs := slots.map (fun j => s.tdmSource c q j mt)
      let w := fmtData d.fmt
      let words (u : Nat) (ys : List Int) : List (Nat × Int × Bool) :=
        (slots.filter (fun j => mask.testBit j)).map (fun j =>
          (j, s.tdmWord w (srcs.getD j ⟨0, none⟩) (rndShr (nth ys j 0 * u) 4)))
      let drive (ws : List (Nat × Int × Bool)) : Tab Int := if s.fencedPins then [] else ws.map (fun x => (x.1, x.2.1))
      if late then
        let u := x.u - 1
        let ws := words u (slots.map (fun j => Tab.at x.sent 0 j))
        let s := ((s.bump Reg.TDM_UNDER).irq Reg.TDM_IRQ_STAT Fl.TDM_IRQ_STAT_UNDER).outSat (countIf ws (·.2.2))
        s.setTdmPort q { x with u := u, tx := some d, missed := x.missed + countIf slots (fun j => mask.testBit j),
                                wire := drive ws }
      else
        let (d, ys, n) := d.slots (s.tdmRate c q) x.frame (srcs.map (·.x))
        let s := (s.count Reg.TDM_LATE_DISC x.missed)
        let s := forRange 0 n (fun _ s => s.zcTimedOut true) s
        let u := min 16 (x.u + 1)
        let ws := words u ys
        (s.outSat (countIf ws (·.2.2))).setTdmPort q
          { x with u := u, tx := some d, missed := 0, sent := slots.zip ys, wire := drive ws }

/-! ### A frame (R313 to R330) -/

/-- Well-formedness of a slave's frame, losses and recovery (R317, R328). -/
def TdmPort.clocks (x : TdmPort) (bad : Bool) : TdmPort :=
  if !x.lost then x
  else if bad then { x with good := 0 }
  else if x.good = 1 then { x with lost := false, good := 0, rise := 0 }
  else { x with good := x.good + 1 }

/-- The receive side of a frame. -/
def State.tdmReceive (s : State) (q mt : Nat) (din : List Nat) (bad : Bool) : State :=
  let x := s.tdmPort q
  match x.rx with
  | none => s
  | some d =>
    if 0 < d.stop then s.setTdmPort q { x with rx := some d.stand }
    else
      let c := s.tdmRxCfg q
      let d := d.enables x.frame (c.rd (Reg.TDM_RX_EN q))
      let dead := bad || x.lost
      let xs := (List.range (fmtSlots d.fmt)).map (fun j => if dead then 0 else wordIn (fmtData d.fmt) (nth din j 0))
      let (d, ys, n) := d.slots (s.tdmRate c q) x.frame xs
      let rise := if x.lost then x.rise else min 16 (x.rise + 1)
      let ys := ys.map (fun y => rndShr (y * rise) 4)
      -- through a slip the elastic store crossfades samples whose place in it the spec does not give (R329)
      let (ys, s) :=
        if x.slip = 0 then (ys, s)
        else ((List.range ys.length).map (fun k => sat27 (Config.freeInt (s.freeCtr + k))),
          { s with freeCtr := s.freeCtr + ys.length })
      let s := forRange 0 n (fun _ s => s.zcTimedOut true) s
      let s := s.setTdmPort q { x with rx := some d, rise := rise, slip := x.slip - 1 }
      let s := s.tdmDeliver (c.tdmDom q) q mt ys
      if q = 14 then s.annFrame mt ys else s

/-- `TDM_FRAME` (R313 to R330): a frame of port `q` starts. `mt` is the media time of its FSYNC leading edge, or for a domain
not locked to the media clock the place in the block in capture; `din` the received words by slot; `bclks` the bit-clock
periods since the previous edge; `fill` how far the elastic store lies from its centre, in frames. -/
def execTdmFrame (q mt : Nat) (din : List Nat) (bclks : Nat) (late : Bool) (fill : Int) (t : Nat) (s : State) : Out :=
  let s := s.atTime t
  let rc := s.tdmRxCfg q
  let tc := s.tdmTxCfg q
  let rxOn := s.tdmRuns rc q
  let txOn := s.tdmRuns tc q
  if 16 ≤ q ∨ (rxOn = false ∧ txOn = false) then .next { s with tdm.ports := Tab.del s.tdm.ports q }
  else
    let s := if 14 ≤ q then s.bypTick else s
    let x := s.tdmPort q
    let c := if rxOn then rc else tc
    let slave := !c.tdmMaster q
    let fmt := c.tdmFmt q
    let bad := slave && bclks != frameBits fmt
    let s := if bad then (s.bump Reg.TDM_FS_ERR).irq Reg.TDM_IRQ_STAT Fl.TDM_IRQ_STAT_FS_ERR else s
    let slips := slave && decide (s.folioLen / 2 < fill.natAbs)
    let s := if slips then (s.bump Reg.TDM_SLIP).irq Reg.TDM_IRQ_STAT Fl.TDM_IRQ_STAT_SLIP else s
    let s := s.setTdmPort q
      { x.clocks bad with
        frame := x.frame + 1
        rx := tdmDirFor rxOn (rc.rd (Reg.TDM_CFG q)) (rc.tdmFmt q) x.rx
        tx := tdmDirFor txOn (tc.rd (Reg.TDM_CFG q)) (tc.tdmFmt q) x.tx
        slip := if slips then 16 else x.slip
        bclks := if slave then bclks else frameBits fmt }
    .next ((s.tdmReceive q mt din bad).tdmTransmit q mt late)

/-- `TDM_CLOCK_LOST` (R317): no FSYNC leading edge for two frame periods. -/
def execTdmClockLost (q t : Nat) (s : State) : Out :=
  let s := s.atTime t
  let c := s.tdmRxCfg q
  let x := s.tdmPort q
  if 14 ≤ q ∨ s.tdmRuns c q = false ∨ c.tdmMaster q = true ∨ x.lost = true then .next s
  else
    let s := s.setTdmPort q { x with lost := true, good := 0, wire := [] }
    .next ((s.bump Reg.TDM_LOST).irq Reg.TDM_IRQ_STAT Fl.TDM_IRQ_STAT_LOST)

/-- `ZC_TIMEOUT` (R323): the wait of slot `j` of port `q` ends with a ramp; `tx` names the direction. -/
def execZcTimeout (q : Nat) (tx : Bool) (j t : Nat) (s : State) : Out :=
  let s := s.atTime t
  let x := s.tdmPort q
  let c := if tx then s.tdmTxCfg q else s.tdmRxCfg q
  match if tx then x.tx else x.rx with
  | none => .next s
  | some d =>
    match Tab.look d.waits j with
    | none => .next s
    | some w =>
      if x.frame + 1 < w.since + d.zcFrames (s.tdmRate c q) then .next s
      else
        let d := d.timeOut j w
        let s := s.setTdmPort q (if tx then { x with tx := some d } else { x with rx := some d })
        .next (s.zcTimedOut true)

/-- `GATE_HOLD_EXPIRY` of announcement input `k` (R302). -/
def execGateHoldExpiry (k t : Nat) (s : State) : Out :=
  let s := s.atTime t
  if s.gateOver k then .next (s.annEnd k) else .next s

/-! ### Commands (R335) -/

def specTdmPortSet : CmdSpec := cmdRow 0x0B01 0 true 12 12 fwModes true
def specTdmSlotSet : CmdSpec := cmdRow 0x0B02 1 true 16 16 fwModes true
def specTdmQuery : CmdSpec := cmdRow 0x0B03 2 false 4 4 fwModes false
def specTdmStats : CmdSpec := cmdRow 0x0B04 2 false 0 0 fwModes false

/-- Rate of a domain code of `TDM_CFG`. -/
def State.codeRate (s : State) (d : Nat) : Nat := if d = 3 then s.bypRate else s.live.domRate s.fs d

/-- A configuration and a format are admitted for a port (R312, R315, R326, R333). -/
def State.tdmOk (s : State) (q cfg fmt : Nat) : Bool :=
  let dom := bitsN cfg 29 28
  let sw := slotBits (bitsN fmt 15 14)
  rsvOk (Reg.TDM_CFG q) cfg && rsvOk (Reg.TDM_FMT q) fmt && (decide (14 ≤ q) || dom != 3) &&
    decide (bitsN cfg 9 0 ≤ 1000) && bitsN fmt 28 27 != 3 && bitsN fmt 15 14 != 3 &&
    decide (16 ≤ fmtData fmt) && decide (fmtData fmt ≤ sw) && decide (1 ≤ fmtSlots fmt) && decide (fmtSlots fmt ≤ 32) &&
    decide (bitsN fmt 20 16 < frameBits fmt) && decide (s.rd (Reg.TDM_TX_MASK q) < 2 ^ fmtSlots fmt) &&
    decide (bclkHz fmt (s.codeRate dom) ≤ 50000000) &&
    (!cfg.testBit 27 || (List.range 16).all (fun r =>
      r == q || !s.flag (Reg.TDM_CFG r) Fl.TDM_CFG_GRP_EN ||
        s.fld (Reg.TDM_CFG r) Fl.TDM_CFG_GROUP != bitsN cfg 26 24 || s.live.tdmDom r == dom))

def cmdTdmPortSet (p : Packet) (s : State) : CmdRes :=
  let b := p.params
  let q := u8 b 0
  let raw := u32 b 4
  let fmt := u32 b 8
  let cfg := if 14 ≤ q then setBitsN raw 30 28 7 else raw
  if 16 ≤ q ∨ !zeroAt b 1 3 ∨ !s.tdmOk q cfg fmt then .fail s stBAD_PARAM []
  else .ok ((s.wr (Reg.TDM_CFG q) cfg).wr (Reg.TDM_FMT q) fmt) []
/-- `TDM_PORT_SET` (R311 to R317, R326). -/
def execTdmPortSet (p : Packet) (s : State) : Out := runPacket specTdmPortSet p (cmdTdmPortSet p) s

def cmdTdmSlotSet (p : Packet) (s : State) : CmdRes :=
  let b := p.params
  let q := u8 b 0
  let own := s.ownedSlots q
  if 16 ≤ q ∨ !zeroAt b 1 3 ∨ 2 ^ fmtSlots (s.rd (Reg.TDM_FMT q)) ≤ u32 b 4 then .fail s stBAD_PARAM []
  else
    let keep (a v : Nat) : Nat := merge v own (s.rd a)
    let s1 := s.wr (Reg.TDM_TX_MASK q) (keep (Reg.TDM_TX_MASK q) (u32 b 4))
    let s2 := s1.wr (Reg.TDM_TX_EN q) (keep (Reg.TDM_TX_EN q) (u32 b 8))
    .ok (s2.wr (Reg.TDM_RX_EN q) (u32 b 12)) []
/-- `TDM_SLOT_SET` (R318 to R324). -/
def execTdmSlotSet (p : Packet) (s : State) : Out := runPacket specTdmSlotSet p (cmdTdmSlotSet p) s

/-- Views of the TDM block (R320, R324, R333). -/
def State.liveTdm (s : State) (a : Nat) : Nat :=
  if Reg.TDM_CFG 0 ≤ a ∧ a < Reg.TDM_CFG 16 then
    let q := (a - Reg.TDM_CFG 0) / 32
    let x := s.tdmPort q
    let waits (d : Option TdmDir) : Nat := (d.map (fun y => y.waits.foldl (fun m e => m ||| 2 ^ e.1) 0)).getD 0
    let c := s.tdmRxCfg q
    let runs := s.tdmRuns c q
    match a % 32 / 4 with
    | 2 | 3 => s.rd a ||| s.ownedSlots q
    | 5 => waits x.rx ||| waits x.tx
    | 6 => maskBit 31 (runs && !x.lost) + maskBit 30 (runs && x.lost) + maskBit 29 (runs && decide (x.u < 16)) +
        maskBit 28 s.fencedPins + (if runs then min 65535 (x.bclks * s.tdmRate c q / 1000) else 0)
    | _ => s.rd a
  else s.rd a

def cmdTdmQuery (p : Packet) (s : State) : CmdRes :=
  let b := p.params
  let q := u8 b 0
  if 16 ≤ q ∨ !zeroAt b 1 3 then .fail s stBAD_PARAM []
  else .ok s ((List.range 7).flatMap (fun k => by4 (s.liveTdm (Reg.TDM_CFG q + 4 * k))) ++ by4 0)
/-- `TDM_QUERY` (R335). -/
def execTdmQuery (p : Packet) (s : State) : Out := runPacket specTdmQuery p (cmdTdmQuery p) s

/-- The TDM counters in offset order (R334). -/
def tdmCounters : List Nat :=
  [Reg.TDM_UNDER, Reg.TDM_LOST, Reg.TDM_FS_ERR, Reg.TDM_SLIP, Reg.TDM_ZC_TO, Reg.TDM_LATE_DISC]

def cmdTdmStats (_p : Packet) (s : State) : CmdRes :=
  let (s, bs) := s.takeCounters tdmCounters
  .ok s bs
/-- `TDM_STATS` (R334). -/
def execTdmStats (p : Packet) (s : State) : Out := runPacket specTdmStats p (cmdTdmStats p) s

end Sys2Proof.Machine
end

