-- ==== Sys2Proof/Machine/Meas.lean ====
section
/-!
DEFINITION. Measurement and in-show monitoring: microphones (R256 to R262), sweeps (R263 to R268), probe results (R271,
R272), speaker health (R273, R274), AUTOTRIM (R275, R276) and the commands of R281.
-/

namespace Sys2Proof.Machine

/-! ### Microphones (R256 to R262) -/

/-- The microphone clocks are driven (R257). -/
def State.micsOn (s : State) (c : RCfg) : Bool :=
  s.domOn dMEAS && c.fld Reg.MEAS_PDM_CFG Fl.MEAS_PDM_CFG_CH_EN != 0 && !s.fencedPins && s.mediaRuns

/-- Coefficients of the offset filter: first order at 3 Hz (R261). -/
def offsetCoef (fs : Nat) : Coef :=
  ⟨2 ^ 40, -(2 ^ 40), 0, -(rndShr (fxExpNeg (rndDiv (6 * fxPi) fs)) 60), 0⟩

/-- The DC blocker over samples: the estimate and the outputs (R260). -/
def dcBlock (freeze : Bool) (e0 : Int) (xs : List Int) : Int × List Int :=
  let r := xs.foldl (fun (a : Int × List Int) x =>
    let e := if freeze then a.1 else a.1 + rndDiv (x - a.1) 32768
    (e, sat27 (x - e) :: a.2)) (e0, [])
  (r.1, r.2.reverse)

/-- Level at which a microphone clips (R262). -/
def clipLevel : Nat := levelQ 27 (-50)

/-- Frequency of the microphone clocks (R256): a multiple of the rate family's. -/
def RCfg.pdmHz (c : RCfg) : Nat :=
  (if c.fld Reg.SYS_RENDER_CFG Fl.SYS_RENDER_CFG_RATE % 2 = 0 then 2822400 else 3072000) *
    (if c.flag Reg.MEAS_PDM_CFG Fl.MEAS_PDM_CFG_CLK then 2 else 1)

/-- Decimation ratio: 32, 64 or 128 (R256). -/
def RCfg.pdmRatio (c : RCfg) : Nat := c.pdmHz / c.fs

/-- Order of a preset's CIC decimator (R259). -/
def cicOrder (p : Nat) : Nat := min (3 + p) 5

/-- The bits of microphone `m` over a folio, from what each data pin carried on its clock's rising and falling edges: even microphones are
taken on the rising edge of pin m/2, odd ones on the falling edge (R256). -/
def micBits (pdm : List (Nat × Nat × Nat)) (m : Nat) : Nat :=
  match pdm.find? (fun e => e.1 == m / 2) with
  | some e => if m % 2 = 0 then e.2.1 else e.2.2
  | none => 0

/-- Folios of PDM bits that a chain keeps: more than the longest group delay reaches back. -/
def pdmKeep : Nat := 64

/-- A microphone's chain over a folio of its PDM bits: decimation, DC blocker, taps (R259 to R261). A change of clock or preset restarts
it. -/
def MicCh.folio (c : RCfg) (f m : Nat) (old : Option MicCh) (bits : Nat) : MicCh :=
  let pdm := c.rd Reg.MEAS_PDM_CFG % 65536
  let preset := bitsN pdm 3 2
  let new : MicCh := ⟨pdm, [], 0, Hist.zero, Hist.zero, presetDelay preset, [], []⟩
  let x := (old.filter (fun x => x.cfg == pdm)).getD new
  let hist := (bits % 2 ^ (f * c.pdmRatio) :: x.pdm).take pdmKeep
  let xs := (List.range f).map (fun i => sat27 (Config.decimate (cicOrder preset) preset c.pdmRatio f i hist))
  let (e, ys) := dcBlock ((c.rd Reg.MEAS_DC).testBit m) x.dc xs
  let offOn := (c.rd Reg.MEAS_HPF).testBit m
  let windOn := (c.rd Reg.MEAS_HPF).testBit (16 + m)
  let (os, ho) := runFilter (if offOn then some (offsetCoef c.fs) else none) x.off ys
  let zs := passOn (os.map (·.1))
  let (ws, hw) := runFilter (if windOn then some (xover c.fs 80).2 else none) x.wind zs
  { x with
    pdm := hist
    dc := e
    off := ho
    wind := hw
    wait := x.wait - xs.length
    tap := zeros (min x.wait ys.length) ++ ys.drop x.wait
    mixTap := passOn (ws.map (·.1)) }

/-- Clipped samples of a microphone's tap (R262). -/
def State.micClip (s : State) (m : Nat) (x : MicCh) : State :=
  let n := countIf x.tap (fun y => decide (clipLevel ≤ y.natAbs))
  if n = 0 then s
  else
    let s := s.wr Reg.MEAS_CLIP (s.rd Reg.MEAS_CLIP ||| 2 ^ m)
    (s.count Reg.MEAS_CLIP_CNT n).irq Reg.MEAS_IRQ_STAT Fl.MEAS_IRQ_STAT_CLIP

/-- The microphones at the end of a block of D2, whose clock they run on (R256): `pdm` gives what each data pin carried. -/
def State.micTick (s : State) (c : RCfg) (pdm : List (Nat × Nat × Nat)) : State :=
  let en := c.fld Reg.MEAS_PDM_CFG Fl.MEAS_PDM_CFG_CH_EN
  if s.micsOn c then
    (List.range 16).foldl
      (fun s m =>
        if en.testBit m then
          let x := MicCh.folio c s.folioLen m (Tab.look s.meas.mics m) (micBits pdm m)
          ({ s with meas.mics := Tab.put s.meas.mics m x }).micClip m x
        else { s with meas.mics := Tab.del s.meas.mics m }) s
  else { s with meas.mics := [] }

/-- `D1_BLOCK_BOUNDARY` (R282): `F` samples of the D1 clock complete a block, with D1's rate as the device has measured it. A D2 that follows D1
completes its block too, and with it the microphones'. -/
def execD1BlockBoundary (x : D1Block) (t : Nat) (s : State) : Out :=
  let s := (s.atTime t).wr Reg.MIX_D1_RATIO x.ratio
  if s.d2Lock then .next (s.blockEnd 1)
  else .next (((((s.micTick s.capCfg x.pdm).turnBlock 1).turnBlock 2).issueBlock 1).issueBlock 2)

/-! ### Alignment of reference and response (R266) -/

/-- Output samples by which a response lags its reference: the preset's group delay, and 16 with look-ahead. -/
def State.micLag (s : State) (o : Nat) : Nat :=
  let c := s.emiCfg
  presetDelay (c.fld Reg.MEAS_PDM_CFG Fl.MEAS_PDM_CFG_PRESET) +
    (if c.flag (Reg.OUT_CFG o) Fl.OUT_CFG_LIM_EN && c.flag (Reg.OUT_CFG o) Fl.OUT_CFG_LOOK then 16 else 0)

/-- Skew per channel in ps: a sixteenth of a period of the microphone clock (R256, R258). -/
def State.micSkew (s : State) : Nat := (rndDiv 62500000000 s.capCfg.pdmHz).toNat

/-- Append the microphones' taps of folio `k` to captures that begin at media time `from_`. -/
def State.capture (s : State) (k from_ mask : Nat) (caps : Tab (List Int)) : Tab (List Int) :=
  let t0 := k * s.folioLen
  if t0 + s.folioLen ≤ from_ then caps
  else
    (bitsOf 16 mask).foldl
      (fun t m =>
        let ys := match Tab.look s.meas.mics m with
          | some x => x.tap
          | none => zeros s.folioLen
        Tab.put t m (Tab.at t [] m ++ ys.drop (from_ - t0))) caps


/-! ### Blocks and their tickets (R266, R267) -/

/-- Whole blocks of `n` samples, half overlapping, in a capture. -/
def blockCount (n len : Nat) : Nat := if len < n then 0 else 2 * (len - n) / n + 1

/-- A spectral ticket: block `b` of a sweep (item 0) or of an output's integration. -/
def measTicket (item b : Nat) : Ticket := hwTicket tkMEAS b item

/-- Sample `i` of a Hann window over `n` samples, with 100 fraction bits. The spec names the window; that it is the periodic one is
DEDUCED (notes/assumptions/38). -/
def hann (n i : Nat) : Int := rndDiv (fxOne - fxCosTurn i n) 2

/-- Block `b` of a capture: `n` samples, half overlapping. -/
def blockOfN (n b : Nat) (xs : List Int) : List Int := (xs.drop (b * (n / 2))).take n

/-- One bin of an estimate (R266) over blocks: Re H, Im H and the coherence as binary32 patterns. A bin without reference power gives
zeros. -/
def specBin (n k : Nat) (bs : List Nat) (x y : List Int) : List Nat :=
  let win (xs : List Int) : List Int := ((List.range n).zip xs).map (fun e => rndShr (e.2 * hann n e.1) 73)
  let t := bs.foldl
    (fun (a : Int × Int × Int × Int) b =>
      let u := binOf n k (win (blockOfN n b x))
      let v := binOf n k (win (blockOfN n b y))
      (a.1 + u.1 * u.1 + u.2 * u.2, a.2.1 + v.1 * v.1 + v.2 * v.2, a.2.2.1 + u.1 * v.1 + u.2 * v.2,
        a.2.2.2 + u.1 * v.2 - u.2 * v.1)) (0, 0, 0, 0)
  if t.1 = 0 then [0, 0, 0]
  else
    [Config.specRound 0 t.2.2.1 t.1 % 2 ^ 32, Config.specRound 1 t.2.2.2 t.1 % 2 ^ 32,
      Config.specRound 2 (t.2.2.1 * t.2.2.1 + t.2.2.2 * t.2.2.2) (t.1 * t.2.1) % 2 ^ 32]

/-- An estimate (R266): bins 0 to N/2, averaged over blocks. -/
def spectra (n : Nat) (bs : List Nat) (x y : List Int) : List Nat := (List.range (n / 2 + 1)).flatMap (fun k => specBin n k bs x y)

/-- A sample of some of the blocks is at the clip level (R262). -/
def clipIn (n : Nat) (bs : List Nat) (y : List Int) : Bool :=
  bs.any (fun b => (blockOfN n b y).any (fun v => decide (clipLevel ≤ v.natAbs)))

/-- Issue the tickets of usable blocks captured since, and drop blocks whose work has not begun while four more wait (R267). -/
def State.measBlocks (s : State) (item issued cnt : Nat) (drops : List Nat) (usable : Nat → Bool) : State × List Nat :=
  let new := ((List.range (cnt - issued)).map (· + issued)).filter usable
  let s := s.issueAll 8 (new.map (measTicket item))
  let late := (List.range cnt).filter (fun b =>
    decide (b + 4 < cnt) && !drops.contains b && s.unbegun (measTicket item b))
  let s := s.cancelTickets (fun k => k.kind == tkMEAS && k.item == item && late.contains k.folio)
  let s := if late.isEmpty then s
    else (s.count Reg.MEAS_BLK_DROP late.length).irq Reg.MEAS_IRQ_STAT Fl.MEAS_IRQ_STAT_DROP
  (s, drops ++ late)

/-- `MEAS_TICKET_DONE` (R267): engine `e` completes the spectral work of a block. -/
def execMeasTicketDone (e t : Nat) (s : State) : Out :=
  let s := s.atTime t
  match s.runningOn e [tkMEAS] with
  | none => .next s
  | some x => .next (State.startNext State.onStart 3 (s.finishTicket e x) e)

/-! ### Sweeps (R263 to R268) -/

/-- Transform size. -/
def sizeN (code : Nat) : Nat := if code = 0 then 8192 else if code = 1 then 16384 else 65536

/-- A maximum-length sequence's first period is settling (R265). -/
def Sweep.settle (w : Sweep) (fs : Nat) : Nat := if w.kind = 1 then w.period fs else 0

/-- Samples a sweep captures: all that follow the settling period. -/
def State.sweepLen (s : State) (w : Sweep) : Nat := w.length s.fs - w.settle s.fs

/-- Take the microphones' folio `k` into the sweep. -/
def State.sweepTick (s : State) (k : Nat) : State :=
  match s.meas.sweep with
  | none => s
  | some w =>
    let n := s.sweepLen w
    let from_ := w.start + w.settle s.fs + s.micLag w.out
    let caps := (s.capture k from_ w.mask w.caps).map (fun (e : Nat × List Int) => (e.1, e.2.take n))
    let cnt := blockCount (sizeN w.ncode) ((caps.head?.map (fun e => e.2.length)).getD 0)
    let (s, drops) := s.measBlocks 0 w.issued cnt w.drops (fun _ => true)
    { s with meas.sweep := some { w with caps := caps, issued := max w.issued cnt, drops := drops } }

/-- The output folio `n` is judged: the sweep's reference takes what was emitted of the stimulus. -/
def State.sweepJudge (s : State) (n : Nat) (ok : Bool) : State :=
  match s.meas.sweep with
  | none => s
  | some w =>
    let f := s.folioLen
    let t0 := (n + 2) * f
    let from_ := w.start + w.settle s.fs
    if t0 + f ≤ from_ then s
    else
      let xs := if ok then s.stimulus n w.out else zeros f
      { s with meas.sweep := some { w with ref := (w.ref ++ xs.drop (from_ - t0)).take (s.sweepLen w) } }

/-- One measurement record (R268). -/
def recordBytes (kind flags out mic rate n blocks delay skew start : Nat) (level : Int) (preset : Nat) (spec : List Nat) :
    List Byte :=
  let bins := n / 2 + 1
  let body := (List.range (3 * bins)).flatMap (fun i => by4 (nth spec i 0))
  let head := [0x52#8, 0x4B#8, 0x4D#8, 0x52#8] ++ by2 1 ++ by1 kind ++ by1 flags ++ by2 out ++ by1 mic ++ by1 rate ++ by4 n ++
    by4 blocks ++ by4 delay ++ by4 skew ++ by8 start ++ si2 level ++ by1 preset ++ by1 0 ++ by4 bins ++ by4 64 ++
    leBytes 16 0
  head ++ body ++ leBytes ((64 - (64 + 12 * bins) % 64) % 64) 0

/-- Bytes of a padded record. -/
def recordSize (n : Nat) : Nat := ceilDiv (64 + 12 * (n / 2 + 1)) 64 * 64

/-- Spectral work of some block is not done. -/
def State.measPending (s : State) (item : Nat) : Bool :=
  (s.stbl.running.any (fun e => e.2.tk.kind == tkMEAS && e.2.tk.item == item)) ||
    s.stbl.queues.any (fun e => e.2.any (fun k => k.kind == tkMEAS && k.item == item)) ||
    s.stbl.waiting.any (fun e => e.2.any (fun k => k.kind == tkMEAS && k.item == item)) ||
    s.stbl.stall0.any (fun e => e.2.tk.kind == tkMEAS && e.2.tk.item == item) ||
    s.stbl.stall1.any (fun e => e.2.tk.kind == tkMEAS && e.2.tk.item == item)

/-- The sweep has captured everything and its spectral work is done. -/
def State.sweepReady (s : State) (w : Sweep) : Bool :=
  let n := s.sweepLen w
  decide (n ≤ w.ref.length) && (bitsOf 16 w.mask).all (fun m => decide (n ≤ (Tab.at w.caps [] m).length)) &&
    !s.measPending 0

/-- Write the records of a sweep (R268). -/
def State.writeSweep (s : State) (w : Sweep) : State :=
  let n := sizeN w.ncode
  let ms := bitsOf 16 w.mask
  let bs := (List.range (blockCount n (s.sweepLen w))).filter (fun b => !w.drops.contains b)
  let s := (List.range ms.length).foldl
    (fun s i =>
      let m := nth ms i 0
      let y := Tab.at w.caps [] m
      let flags := 1 + 2 * b2n (clipIn n bs y) + 4 * b2n (!w.drops.isEmpty) + 8 * b2n (w.flags.testBit 0) +
        16 * b2n (w.flags.testBit 1)
      s.busWrite (w.addr + recordSize n * i)
        (recordBytes w.kind flags w.out m s.rateCode n bs.length (s.micLag w.out) (m * s.micSkew)
          (w.start + w.settle s.fs) w.level (s.fld Reg.MEAS_PDM_CFG Fl.MEAS_PDM_CFG_PRESET) (spectra n bs w.ref y))) s
  { s.count Reg.MEAS_REC_DONE ms.length with meas.sweep := none }

/-- The sweep's completion: nothing while it captures. -/
def finSweep (s : State) : Option (State × Nat × List Byte) :=
  match s.meas.sweep with
  | none => none
  | some w =>
    if s.sweepReady w then
      let k := (bitsOf 16 w.mask).length
      some ((s.writeSweep w).irq Reg.MEAS_IRQ_STAT Fl.MEAS_IRQ_STAT_SWEEP_DONE, stOK,
        by4 k ++ by4 (k * recordSize (sizeN w.ncode)))
    else none

/-- `SWEEP_DONE` (R268): the records are written and the long operation that asked for them is answered (R587). -/
def execSweepDone (t : Nat) (s : State) : Out :=
  let s := s.atTime t
  match finSweep s with
  | none => .next s
  | some (s, st, res) => .next (s.finishLong st res [])

/-! ### Probing (R269 to R272) -/

/-- Set an output's health status (R274): a change is counted and told. -/
def State.setHealth (s : State) (o v : Nat) : State :=
  let a := Reg.MEAS_HEALTH (o / 16)
  let k := 2 * (o % 16)
  let old := bitsN (s.rd a) (k + 1) k
  if old = v then s
  else
    let s := (s.wr a (setBitsN (s.rd a) (k + 1) k v)).bump Reg.MEAS_HEALTH_CHG
    if v = 2 then (s.irq Reg.MEAS_IRQ_STAT Fl.MEAS_IRQ_STAT_SHIFT).logEventFree 0x0D04 o
    else if v = 3 then (s.irq Reg.MEAS_IRQ_STAT Fl.MEAS_IRQ_STAT_FAIL).logEventFree 0x0D05 o
    else
      -- a change to `OK` or `UNKNOWN` has no interrupt field: its code lies from 0x80 upward and is not stated (R590)
      let (c, s) := s.fresh
      s.logEventFree (0x0D80 + c % 128) o

/-- Bands judged for an output (R273), as indices into the octave centres from 63 Hz. -/
def State.bandsOf (s : State) (o : Nat) : List Nat := if s.procCfg.isSub o then [0, 1] else [1, 2, 3, 4, 5, 6, 7, 8]

/-- Bins of an octave band at a rate: from its centre divided by √2 up to its centre times √2 (DEDUCED: an octave). -/
def bandBins (fs band : Nat) : List Nat :=
  let fc := nth [63, 125, 250, 500, 1000, 2000, 4000, 8000, 16000] band 0
  (List.range 4097).filter (fun k => decide ((fc * 8192) ^ 2 ≤ 2 * (k * fs) ^ 2) && decide ((k * fs) ^ 2 < 2 * (fc * 8192) ^ 2))

/-- A band's level (R273): the sum of |H|² over microphones and bins of enough coherence, in 2⁻²⁹⁸, and how many they are; nothing where
fewer than half qualify. -/
def PrbRes.band (r : PrbRes) (fs band coh : Nat) : Option (Nat × Nat) :=
  let all := r.spec.flatMap (fun e => (bandBins fs band).map (fun k => (nth e.2 (3 * k) 0, nth e.2 (3 * k + 1) 0, nth e.2 (3 * k + 2) 0)))
  let good := all.filter (fun v => decide ((coh : Int) * 2 ^ 149 ≤ tapInt v.2.2 * 256))
  if good.isEmpty ∨ 2 * good.length < all.length then none
  else some ((good.map (fun v => (tapInt v.1).natAbs ^ 2 + (tapInt v.2.1).natAbs ^ 2)).sum, good.length)

/-- Deviation of a band of an output from its baseline in 0.01 dB, with 100 fraction bits, where it is judged (R273). -/
def State.bandDev (s : State) (o band : Nat) : Option Int :=
  let coh := s.fld Reg.MEAS_HEALTH_CFG Fl.MEAS_HEALTH_CFG_MIN_COH
  match (Tab.look s.meas.res o).bind (fun r => r.band s.fs band coh), (Tab.look s.meas.base o).bind (fun b => b.band s.fs band coh) with
  | some (u, m), some (v, n) =>
    if v = 0 then some (Config.bandZero u)
    else if u = 0 then some (-(2 ^ 120))
    else some (fxDiv (1000 * (fxLn (u * n) 0 - fxLn (v * m) 0)) fxLn10)
  | _, _ => none

/-- The status a result gives (R274). -/
def State.healthOf (s : State) (o : Nat) : Nat :=
  let ds := (s.bandsOf o).filterMap (fun b => s.bandDev o b)
  let fail : Int := s.fld Reg.MEAS_HEALTH_CFG Fl.MEAS_HEALTH_CFG_FAIL_DB
  let shift : Int := s.fld Reg.MEAS_HEALTH_CFG Fl.MEAS_HEALTH_CFG_SHIFT_DB
  if ds.isEmpty then 0
  else if ds.any (fun d => decide (d < -(fail * fxOne))) then 3
  else if ds.any (fun d => decide (shift * fxOne < d.natAbs)) then 2
  else 1

/-- An output's result is no longer valid (R272). -/
def State.dropResult (s : State) (o : Nat) : State :=
  ({ s with
    meas.res := Tab.del s.meas.res o
    meas.integ := Tab.del s.meas.integ o
    meas.closing := Tab.del s.meas.closing o }).setHealth o 0

/-- No output has a valid result: on entry to RENDER and after a takeover (R272). -/
def State.dropResults (s : State) : State :=
  let s := (s.meas.res.map (·.1)).foldl (fun s o => s.dropResult o) s
  { s with meas.integ := [], meas.closing := [] }

/-- Outputs of a group. -/
def State.groupOuts (s : State) (g : Nat) : List Nat := (s.plan.groupOf.filter (fun e => e.2 == g)).map (·.1)

/-- Microphones of an output's group. -/
def RCfg.prbMask (c : RCfg) (o : Nat) : Nat := ((Tab.look c.plan.groupOf o).map (fun g => Tab.at c.plan.masks 0 g)).getD 0

/-- The item of an integration's tickets. -/
def Integ.item (g : Integ) (o : Nat) : Nat := 1 + o + 512 * g.tag

/-- An integration starts at an emission media time. -/
def State.newInteg (s : State) (o mask start : Nat) : Integ :=
  ⟨start, none, mask, [], [], 0, [], match Tab.look s.meas.closing o with | some g => 1 - g.tag | none => 0, 0, 0⟩

/-- Append the probe of a folio that leaves from `t0` on. -/
def Integ.take (g : Integ) (t0 : Nat) (xs : List (Int × Bool)) (lo hi : Int) : Integ :=
  { g with
    ref := g.ref ++ xs.drop (g.start - t0)
    lo := if lo = 0 then g.lo else if g.lo = 0 then lo else min g.lo lo
    hi := max g.hi hi }

/-- The probe of output `o` in folio `n`, judged: its samples, each with whether it counts. A missed folio, a stopped probe and a folio
without D2's lock (R258) pause the integration. -/
def State.probeOf (s : State) (c : RCfg) (n o : Nat) (ok : Bool) : List (Int × Bool) :=
  let t0 := (n + 2) * s.folioLen
  let x := (Tab.look s.meas.probe o).filter (fun e => e.folio == n && ok)
  (List.range s.folioLen).map (fun i =>
    match x with
    | some e => (nth e.xs i 0, !e.quiet && s.d2Lock && c.runsAt o (t0 + i))
    | none => (0, false))

/-- The probe of a judged folio enters an output's integration, which starts where its group's run starts. -/
def State.probeJudge1 (s : State) (c : RCfg) (n : Nat) (ok : Bool) (o : Nat) : State :=
  let f := s.folioLen
  let t0 := (n + 2) * f
  let xs := s.probeOf c n o ok
  let x := (Tab.look s.meas.probe o).filter (fun e => e.folio == n && ok)
  let (lo, hi) := (x.map (fun e => (e.lo, e.hi))).getD (0, 0)
  let s := match x with
    | some e => { s with meas.power := Tab.put s.meas.power o e.power }
    | none => s
  let old := (Tab.look s.meas.integ o).filter (fun g => g.mask == c.prbMask o)
  if s.mode ≠ mRENDER then s
  else
    match old, (List.range f).find? (fun i => c.runsAt o (t0 + i)) with
    | some g, _ => { s with meas.integ := Tab.put s.meas.integ o (g.take t0 xs lo hi) }
    | none, some i => { s with meas.integ := Tab.put s.meas.integ o ((s.newInteg o (c.prbMask o) (t0 + i)).take t0 xs lo hi) }
    | none, none => { s with meas.integ := Tab.del s.meas.integ o }

/-- The probes of a judged folio (R266, R271). An output that has left its group, or whose group the configuration no longer runs, ends its
integration without a result. -/
def State.probeJudge (s : State) (n : Nat) (ok : Bool) : State :=
  if s.dp.mode ≠ mRENDER then s
  else
    let c := s.procCfg
    let on := c.flag Reg.MEAS_PRB_CFG Fl.MEAS_PRB_CFG_EN
    let s := (c.plan.groupOf.map (·.1)).foldl (fun s o => s.probeJudge1 c n ok o) s
    { s with
      meas.integ := s.meas.integ.filter (fun e => on && (Tab.look c.plan.groupOf e.1).isSome)
      meas.probe := s.meas.probe.filter (fun e => e.2.folio != n) }

/-- Block `b` of an integration lies in samples that all count. -/
def Integ.usable (g : Integ) (b : Nat) : Bool := ((g.ref.drop (4096 * b)).take 8192).all (·.2)

/-- The microphones' folio `k` enters an integration, up to where it stops. -/
def State.integTick (s : State) (k o : Nat) (g : Integ) : State × Integ :=
  let caps := s.capture k (g.start + s.micLag o) g.mask g.caps
  let caps := match g.stop with
    | some e => caps.map (fun (y : Nat × List Int) => (y.1, y.2.take (e - g.start)))
    | none => caps
  let cnt := blockCount 8192 (min g.ref.length ((caps.head?.map (fun c => c.2.length)).getD 0))
  let (s, drops) := s.measBlocks (g.item o) g.issued cnt g.drops g.usable
  (s, { g with caps := caps, issued := max g.issued cnt, drops := drops })

/-- An output's integration ends (R272): its result replaces the previous one where enough of it was not paused. -/
def State.integDone (s : State) (o : Nat) (g : Integ) : State :=
  let s := { s.cancelTickets (fun k => k.kind == tkMEAS && k.item == g.item o) with meas.closing := Tab.del s.meas.closing o }
  if countIf g.ref (·.2) < s.fld Reg.MEAS_PRB_CFG Fl.MEAS_PRB_CFG_MIN_S * s.fs then s
  else
    let bs := (List.range (blockCount 8192 g.ref.length)).filter (fun b => g.usable b && !g.drops.contains b)
    let ys := (bitsOf 16 g.mask).map (fun m => (m, Tab.at g.caps [] m))
    let (v, s) := s.fresh
    -- 2000·log10 of a level with 100 fraction bits
    let dbfs (x : Int) : Int := if x ≤ 0 then -32768 else 2000 * (fxLn x.toNat (-100)) / fxLn10
    let r : PrbRes :=
      { mask := g.mask
        spec := ys.map (fun y => (y.1, spectra 8192 bs (g.ref.map (·.1)) y.2))
        blocks := bs.length
        delay := s.micLag o
        skew := s.micSkew
        start := g.start
        -- the mean of the probe's level, whose arithmetic the spec does not give: free between the least and the greatest
        level := clampI (dbfs g.lo) (dbfs g.hi + 1) (toS 16 (v % 65536))
        clip := ys.foldl (fun n y => n + maskBit y.1 (clipIn 8192 bs y.2)) 0
        drop := !g.drops.isEmpty
        preset := s.fld Reg.MEAS_PDM_CFG Fl.MEAS_PDM_CFG_PRESET
        rate := s.rateCode }
    let s := { s with meas.res := Tab.put s.meas.res o r }
    let s := (s.count Reg.MEAS_REC_DONE r.spec.length).irq Reg.MEAS_IRQ_STAT Fl.MEAS_IRQ_STAT_RESULT
    s.setHealth o (s.healthOf o)

/-- Every sample of an integration whose run is over has been captured, and its spectral work is done. -/
def State.integReady (s : State) (o : Nat) (g : Integ) : Bool :=
  let n := g.stop.getD 0 - g.start
  (bitsOf 16 g.mask).all (fun m => decide (n ≤ (Tab.at g.caps [] m).length)) && !s.measPending (g.item o)

/-- The microphones' folio `k` enters the integrations; those that are complete give their results. -/
def State.probeTick (s : State) (k : Nat) : State :=
  let s := s.meas.integ.foldl
    (fun s e =>
      let (s, g) := s.integTick k e.1 e.2
      { s with meas.integ := Tab.put s.meas.integ e.1 g }) s
  s.meas.closing.foldl
    (fun s e =>
      let (s, g) := s.integTick k e.1 e.2
      let s := { s with meas.closing := Tab.put s.meas.closing e.1 g }
      if s.integReady e.1 g then s.integDone e.1 g else s) s

/-- The run of a group is over at media time `mt` (R271): the integrations that started before it stop there; what an output's probe gives
from there on belongs to its next integration. -/
def State.closeGroup (s : State) (mt : Nat) : State :=
  s.meas.integ.foldl
    (fun s e =>
      let g := e.2
      if mt ≤ g.start then s
      else
        let old := { g with stop := some mt, ref := g.ref.take (mt - g.start) }
        let rest := g.ref.drop (mt - g.start)
        let s := { s with meas.closing := Tab.put s.meas.closing e.1 old }
        if s.emiCfg.runsAt e.1 mt then
          let new := { s.newInteg e.1 g.mask mt with ref := rest, lo := g.lo, hi := g.hi }
          { s with meas.integ := Tab.put s.meas.integ e.1 new }
        else { s with meas.integ := Tab.del s.meas.integ e.1 }) s

/-- `PROBE_GROUP_BOUNDARY` at media time `mt` (R271, R272). -/
def execProbeGroupBoundary (mt t : Nat) (s : State) : Out :=
  let s := s.atTime t
  let c := s.emiCfg
  if s.mode ≠ mRENDER ∨ c.flag Reg.MEAS_PRB_CFG Fl.MEAS_PRB_CFG_EN = false ∨ c.prbPeriod = 0 ∨ mt % c.prbPeriod ≠ 0 then .next s
  else .next (s.closeGroup mt)

/-- Leaving RENDER discards the partial integrations (R272). -/
def State.stopProbing (s : State) : State :=
  let s := s.cancelTickets (fun k => k.kind == tkMEAS && k.item != 0)
  { s with meas.integ := [], meas.closing := [], meas.probe := [] }

/-! ### AUTOTRIM (R275, R276) -/

/-- `10^(g/k)` for small `|g|/k`. -/
def fxPow10 (g : Int) (k : Nat) : Int :=
  let e := fxExpNeg (rndDiv (fxLn10 * g.natAbs) k)
  if 0 ≤ g then fxDiv fxOne e else e

/-- Coefficients of a trim section for a gain in 0.05 dB (R275): section 16 low shelf, 19 high shelf, else peaking. Each formula is worked out
in binary64 from left to right, and each elementary function is rounded once (DEDUCED: notes/assumptions/35). -/
def trimCoef (q : Nat) (g : Int) (fs : Nat) : Coef :=
  let ofFx (x : Int) : Int × Int := d64 x 1 (-100)
  let dbl (x : Int × Int) : Int × Int := (2 * x.1, x.2)
  let sub (x y : Int × Int) : Int × Int := d64Add x (d64Neg y)
  let a := ofFx (fxPow10 g 800)
  let ra := ofFx (fxPow10 g 1600)
  let f0 : Nat := if q = 16 then 200 else if q = 17 then 700 else if q = 18 then 2500 else 8000
  let w := d64Fx (d64Div (d64Mul (dbl d64Pi) (f0, 0)) (fs, 0))
  let c := ofFx (fxCos w)
  let sn := ofFx (fxSin w)
  let coef (b0 b1 b2 a0 a1 a2 : Int × Int) : Coef :=
    let r (x : Int × Int) : Int := d64Q40 (d64Div x a0)
    ⟨r b0, r b1, r b2, r a1, r a2⟩
  if q = 17 ∨ q = 18 then
    let al := d64Div sn (d64Mul (2, 0) (d64 9 10 0))
    let m2c := d64Neg (dbl c)
    coef (d64Add d64One (d64Mul al a)) m2c (sub d64One (d64Mul al a)) (d64Add d64One (d64Div al a)) m2c (sub d64One (d64Div al a))
  else
    let al := d64Div sn d64Sqrt2
    let k := d64Mul (dbl ra) al
    let p := d64Add a d64One
    let m := sub a d64One
    let pc := d64Mul p c
    let mc := d64Mul m c
    if q = 16 then
      coef (d64Mul a (d64Add (sub p mc) k)) (d64Mul (dbl a) (sub m pc)) (d64Mul a (sub (sub p mc) k))
        (d64Add (d64Add p mc) k) (d64Neg (dbl (d64Add m pc))) (sub (d64Add p mc) k)
    else
      coef (d64Mul a (d64Add (d64Add p mc) k)) (d64Neg (d64Mul (dbl a) (d64Add m pc))) (d64Mul a (sub (d64Add p mc) k))
        (d64Add (sub p mc) k) (dbl (sub m pc)) (sub (sub p mc) k)

/-- The gain in 0.05 dB whose coefficients a trim section holds; 0 where it holds none of AUTOTRIM's. -/
def State.trimGain (s : State) (o q : Nat) : Int :=
  match Tab.look s.plan.eq (20 * o + q) with
  | some c => (((List.range 121).map (fun (i : Nat) => (i : Int) - 60)).find? (fun g => trimCoef q g s.fs == c)).getD 0
  | none => 0

/-- Twice the deviation of a trim section's bands in 0.01 dB, with 100 fraction bits, where both are judged. -/
def State.trimDev2 (s : State) (o q : Nat) : Option Int :=
  let b := 2 * (q - 16) + 1
  if (s.bandsOf o).contains b && (s.bandsOf o).contains (b + 1) then
    match s.bandDev o b, s.bandDev o (b + 1) with
    | some x, some y => some (x + y)
    | _, _ => none
  else none

/-- The next gain of a section, in 0.05 dB: one step toward the negated deviation within ±3.00 dB. -/
def nextTrim (g dev2 : Int) : Int :=
  let t := clampI (-600 * fxOne) (600 * fxOne) (-dev2)
  if 10 * (g + 1) * fxOne ≤ t then g + 1 else if t ≤ 10 * (g - 1) * fxOne then g - 1 else g

/-- An `OUT_EQ_SET` out of the command log or the journal: one to trim sections that AUTOTRIM controls is a step of its own (R276), whose gain
and time the loop goes on from. -/
def cmdOutEqLogged (p : Packet) (s : State) : CmdRes :=
  match cmdOutEqBy true p s with
  | .ok s r =>
    let o := u16 p.params 0
    let q := u8 p.params 2
    if s.autotrim o then
      .ok (forRange q (u8 p.params 3) (fun i s =>
        if i < 16 then s
        else { s with meas.trim := Tab.put s.meas.trim (4 * o + (i - 16)) ⟨s.trimGain o i, some s.now⟩ }) s) r
    else .ok s r
  | x => x

/-- The meaning of a command that the log or the journal holds. -/
def loggedBody (opcode : Nat) (body : Packet → State → CmdRes) : Packet → State → CmdRes :=
  if opcode = 0x0704 then cmdOutEqLogged else body

/-- `AUTOTRIM_STEP` of section `q` of output `o` (R275, R276): the step goes through R194 as a command to the pair. -/
def execAutotrimStep (o q t : Nat) (s : State) : Out :=
  let s := s.atTime t
  let h := bitsN (s.rd (Reg.MEAS_HEALTH (o / 16))) (2 * (o % 16) + 1) (2 * (o % 16))
  let x := Tab.at s.meas.trim ⟨0, none⟩ (4 * o + (q - 16))
  let due := match x.stepped with
    | some t0 => decide (30000000000 ≤ s.now - t0)
    | none => true
  if q < 16 ∨ 20 ≤ q ∨ !s.autotrim o ∨ h = 0 ∨ h = 3 ∨ !due then .next s
  else
    match s.trimDev2 o q with
    | none => .next s
    | some d =>
      let g := nextTrim x.gain d
      if g = x.gain then .next s
      else
        let c := trimCoef q g s.fs
        let prm := by2 o ++ by1 q ++ by1 1 ++ eqRec (some c)
        let p : Packet := ⟨0, ⟨0, 0, 0, 0⟩, 0, prm.length, 0, 2, 0, prm, [], s.now⟩
        let s := { s.putEq o q (some c) with meas.trim := Tab.put s.meas.trim (4 * o + (q - 16)) ⟨g, some s.now⟩ }
        let s := s.record 0x0704 prm []
        .next (if s.peerStandby then s.logToStandby p 0x0704 else s)

/-! ### Commands (R281) -/

def specMeasPdmSet : CmdSpec := cmdRow 0x0901 0 true 12 12 fwModes true
def specMeasSweep : CmdSpec := cmdRow 0x0902 1 false 32 32 [mMEASURE] false
def specMeasPrbGroupSet : CmdSpec := cmdRow 0x0903 0 true 8 8 fwModes true
def specMeasPrbSet : CmdSpec := cmdRow 0x0904 0 true 8 8 fwModes true
def specMeasPrbResult : CmdSpec := cmdRow 0x0905 2 false 12 12 fwModes false
def specMeasPrbBaseline : CmdSpec := cmdRow 0x0906 0 true 4 4 fwModes true
def specAutotrimSet : CmdSpec := cmdRow 0x0907 0 true 8 8 fwModes true
def specMeasStats : CmdSpec := cmdRow 0x0908 2 false 0 0 fwModes false

def cmdMeasPdmSet (p : Packet) (s : State) : CmdRes :=
  let b := p.params
  if !rsvOk Reg.MEAS_PDM_CFG (u32 b 0) ∨ !rsvOk Reg.MEAS_DC (u32 b 4) ∨ !rsvOk Reg.MEAS_HPF (u32 b 8) then
    .fail s stBAD_PARAM []
  else .ok (((s.wr Reg.MEAS_PDM_CFG (u32 b 0)).wr Reg.MEAS_DC (u32 b 4)).wr Reg.MEAS_HPF (u32 b 8)) []
/-- `MEAS_PDM_SET` (R256 to R262). -/
def execMeasPdmSet (p : Packet) (s : State) : Out := runPacket specMeasPdmSet p (cmdMeasPdmSet p) s

/-- The sweep a command asks for. -/
def sweepOf (b : List Byte) : Sweep :=
  { out := u16 b 0, mask := u16 b 2, kind := u8 b 4, ncode := u8 b 5, flags := u8 b 6, reps := u8 b 7, level := i16 b 8,
    dur := u16 b 10, f1 := u16 b 12, f2 := u16 b 14, tail := u16 b 16, addr := u64 b 20, start := 0, ref := [], caps := [],
    issued := 0, drops := [] }

/-- A sweep's parameters are in range (R264, R281). -/
def State.sweepOk (s : State) (b : List Byte) : Bool :=
  let w := sweepOf b
  let size := (bitsOf 16 w.mask).length * recordSize (sizeN w.ncode)
  decide (w.out < 512) && decide (w.kind < 3) && decide (w.ncode < 3) && decide (w.flags < 4) && decide (1 ≤ w.reps) &&
    decide (w.reps ≤ 16) && inRange w.level (-6000) (-600) &&
    (if w.kind = 1 then decide (12 ≤ w.dur) && decide (w.dur ≤ 18) else decide (10 ≤ w.dur) && decide (w.dur ≤ 600)) &&
    decide (10 ≤ w.f1) && decide (w.f1 ≤ 1000) && decide (1000 ≤ w.f2) && decide (1000 * w.f2 ≤ 475 * s.fs) &&
    decide (w.tail ≤ 10000) && zeroAt b 18 2 && zeroAt b 28 4 && w.addr % 64 == 0 && s.dramFree w.addr size

def cmdMeasSweep (p : Packet) (s : State) : CmdRes :=
  let b := p.params
  let w := sweepOf b
  let pre := 3 * s.folioLen + presetDelay (s.fld Reg.MEAS_PDM_CFG Fl.MEAS_PDM_CFG_PRESET)
  if !s.d2Lock then .fail s stNOT_IN_MODE []
  else if !s.sweepOk b then .fail s stBAD_PARAM []
  else if s.fld Reg.MEAS_CFG Fl.MEAS_CFG_MAX_S * s.fs < pre + w.length s.fs then .fail s stBAD_PARAM [0x10#8]
  else .long { s with meas.sweep := some { w with start := (s.slot + 1) * s.folioLen + pre } } []
/-- `MEAS_SWEEP` (R263 to R268). -/
def execMeasSweep (p : Packet) (s : State) : Out := runPacket specMeasSweep p (cmdMeasSweep p) s

def cmdMeasPrbGroupSet (p : Packet) (s : State) : CmdRes :=
  let b := p.params
  let g := u8 b 0
  let mask := u16 b 2
  let r := b.drop 4
  if 16 ≤ g ∨ u8 b 1 ≠ 0 ∨ 4 < (bitsOf 16 mask).length ∨ !rangeOk r then .fail s stBAD_PARAM []
  else if 64 < u16 r 2 then .fail s stNO_RESOURCE []
  else
    let new := (List.range (u16 r 2)).map (· + u16 r 0)
    let old := s.groupOuts g
    let sameMask := Tab.at s.plan.masks 0 g == mask
    let changed := (old.filter (fun o => !new.contains o || !sameMask)) ++
      new.filter (fun o => !old.contains o)
    let s := changed.foldl (fun s o => s.dropResult o) s
    let kept := s.plan.groupOf.filter (fun e => e.2 != g)
    .ok { s with
      plan.groupOf := new.foldl (fun (t : Tab Nat) o => Tab.put t o g) kept
      plan.masks := Tab.put s.plan.masks g mask } []
/-- `MEAS_PRB_GROUP_SET` (R271, R272). -/
def execMeasPrbGroupSet (p : Packet) (s : State) : Out := runPacket specMeasPrbGroupSet p (cmdMeasPrbGroupSet p) s

def cmdMeasPrbSet (p : Packet) (s : State) : CmdRes :=
  let b := p.params
  let c := u32 b 0
  let h := u32 b 4
  let integ := bitsN c 25 16
  let depth := bitsN c 5 0
  if !rsvOk Reg.MEAS_PRB_CFG c ∨ integ < 10 ∨ 600 < integ ∨ bitsN c 15 6 < 10 ∨ integ < bitsN c 15 6 ∨ depth < 30 ∨
      60 < depth ∨ bitsN h 23 12 < 100 ∨ 3000 < bitsN h 23 12 ∨ bitsN h 11 0 < 50 ∨ 1200 < bitsN h 11 0 then
    .fail s stBAD_PARAM []
  else .ok ((s.wr Reg.MEAS_PRB_CFG c).wr Reg.MEAS_HEALTH_CFG h) []
/-- `MEAS_PRB_SET` (R270 to R274). -/
def execMeasPrbSet (p : Packet) (s : State) : Out := runPacket specMeasPrbSet p (cmdMeasPrbSet p) s

/-- The records of a probe result. -/
def PrbRes.records (o : Nat) (r : PrbRes) : List Byte :=
  r.spec.flatMap (fun e =>
    recordBytes 3 (1 + 2 * b2n (r.clip.testBit e.1) + 4 * b2n r.drop) o e.1 r.rate 8192 r.blocks r.delay (e.1 * r.skew)
      r.start r.level r.preset e.2)

def cmdMeasPrbResult (p : Packet) (s : State) : CmdRes :=
  let b := p.params
  let o := u16 b 0
  let addr := u64 b 4
  let n := ((Tab.look s.meas.res o).map (fun r => r.spec.length)).getD 0
  if 512 ≤ o ∨ u16 b 2 ≠ 0 ∨ addr % 64 ≠ 0 ∨ !s.dramFree addr (n * recordSize 8192) then .fail s stBAD_PARAM []
  else
    match Tab.look s.meas.res o with
    | some r => .ok (s.busWrite addr (r.records o)) (by4 n)
    | none => .ok s (by4 0)
/-- `MEAS_PRB_RESULT` (R268, R272). -/
def execMeasPrbResult (p : Packet) (s : State) : Out := runPacket specMeasPrbResult p (cmdMeasPrbResult p) s

def cmdMeasPrbBaseline (p : Packet) (s : State) : CmdRes :=
  let b := p.params
  if !rangeOk b then .fail s stBAD_PARAM []
  else
    let os := (List.range (u16 b 2)).map (· + u16 b 0)
    let base := os.foldl
      (fun (t : Tab PrbRes) o => match Tab.look s.meas.res o with
        | some r => Tab.put t o r
        | none => t) s.meas.base
    .ok { s with meas.base := base } (by2 (countIf os (fun o => (Tab.look s.meas.res o).isNone)))
/-- `MEAS_PRB_BASELINE` (R273). -/
def execMeasPrbBaseline (p : Packet) (s : State) : Out := runPacket specMeasPrbBaseline p (cmdMeasPrbBaseline p) s

def cmdAutotrimSet (p : Packet) (s : State) : CmdRes :=
  let b := p.params
  if !rangeOk b ∨ 1 < u8 b 4 ∨ !zeroAt b 5 3 then .fail s stBAD_PARAM []
  else
    let os := (List.range (u16 b 2)).map (· + u16 b 0)
    if u8 b 4 = 1 then
      let new := os.filter (fun o => !s.autotrim o)
      .ok { s with
        meas.trimOn := s.meas.trimOn ++ new
        meas.trim := new.foldl (fun (t : Tab Trim) o => (List.range 4).foldl (fun t i =>
          Tab.put t (4 * o + i) ⟨s.trimGain o (16 + i), (Tab.look s.meas.trim (4 * o + i)).bind (·.stepped)⟩) t) s.meas.trim } []
    else .ok { s with meas.trimOn := s.meas.trimOn.filter (fun o => !os.contains o) } []
/-- `AUTOTRIM_SET` with 1 (R275). -/
def execAutotrimEnable (p : Packet) (s : State) : Out :=
  runPacket specAutotrimSet (p.withOp 4 1) (cmdAutotrimSet (p.withOp 4 1)) s
/-- `AUTOTRIM_SET` with 0 (R276). -/
def execAutotrimDisable (p : Packet) (s : State) : Out :=
  runPacket specAutotrimSet (p.withOp 4 0) (cmdAutotrimSet (p.withOp 4 0)) s

/-- The MEAS counters in offset order (R280). -/
def measCounters : List Nat :=
  [Reg.MEAS_BLK_DROP, Reg.MEAS_CLIP_CNT, Reg.MEAS_PRB_QUIET, Reg.MEAS_REC_DONE, Reg.MEAS_HEALTH_CHG]

def cmdMeasStats (_p : Packet) (s : State) : CmdRes :=
  let (s, bs) := s.takeCounters measCounters
  .ok s bs
/-- `MEAS_STATS` (R280). -/
def execMeasStats (p : Packet) (s : State) : Out := runPacket specMeasStats p (cmdMeasStats p) s

/-- Views of the MEAS block (R278, R279). -/
def State.liveMeas (s : State) (a : Nat) : Nat :=
  if a = Reg.MEAS_SWP_STAT then
    match s.meas.sweep with
    | some w =>
      let done := ((w.caps.head?).map (fun e => e.2.length)).getD 0
      let per := max 1 (w.period s.fs)
      2 ^ 31 + w.out <<< 16 + ((if done = 0 then 0 else done / per + 1) % 256) <<< 8 +
        min 255 (done * 256 / max 1 (s.sweepLen w))
    | none => 0
  else if a = Reg.MEAS_PRB_STAT then
    let c := s.emiCfg
    match c.groupAt s.sys.mediaTime with
    | some g => if s.dp.on && s.dp.mode == mRENDER then g <<< 28 + s.sys.mediaTime % c.prbPeriod / c.fs % 1024 else 0
    | none => 0
  else s.rd a

end Sys2Proof.Machine
end

