-- ==== Sys2Proof/Machine/Clk.lean ====
section
/-!
DEFINITION. Clock References and Network Time: the monitors of the references, selection and holdover, the DCO word, alignment
of media time, the PTP engine, and the commands of R411.
-/

namespace Sys2Proof.Machine

/-! ### References (R385 to R389) -/

/-- Codes of R388. -/
def rsDIS : Nat := 0
def rsLOST : Nat := 1
def rsPEND : Nat := 2
def rsQUAL : Nat := 3
def rsDISQ : Nat := 4

def State.refEn (s : State) (r : Nat) : Bool := r == 5 || s.flag (Reg.CLK_REF_CFG r) Fl.CLK_REF_CFG_EN

/-- State of a reference: an enabled one that has entered no other state is `LOST` (R390). -/
def State.refState (s : State) (r : Nat) : Nat :=
  if r < 5 ∧ s.refEn r = true then max rsLOST (s.fld (Reg.CLK_REF_STAT r) Fl.CLK_REF_STAT_STATE) else rsDIS

def State.setRefState (s : State) (r v : Nat) : State :=
  let s := s.setFld (Reg.CLK_REF_STAT r) Fl.CLK_REF_STAT_STATE v
  if v = rsQUAL then s else s.setFlag (Reg.CLK_REF_STAT r) Fl.CLK_REF_STAT_DRIFT false

/-- A rate code belongs to the 48 kHz family. -/
def State.fam48 (s : State) : Bool := s.rateCode % 2 == 1

/-- A reference shares a family with the render rate (R386). -/
def State.familyOk (s : State) (r : Nat) : Bool :=
  if r = 1 ∨ r = 2 then
    let n := s.fld (Reg.CLK_REF_CFG r) Fl.CLK_REF_CFG_NOM
    n != 7 && (n % 2 == 0) == s.fam48
  else true

/-- Word-clock rates by `NOM`. -/
def nomHz (n : Nat) : Nat := nth [32000, 44100, 48000, 88200, 96000, 176400, 192000] n 48000

/-- An interval of log₂ seconds, as the 8-bit two's-complement code of `PTP_INTV`, in ns. -/
def logNs (c : Nat) : Nat :=
  let n := toS 8 c
  if 0 ≤ n then 1000000000 * 2 ^ n.toNat else 1000000000 / 2 ^ (-n).toNat

def State.ptpNs (s : State) (f : Fld) : Nat := logNs (s.fld Reg.PTP_INTV f)

/-- The wait after which a reference is lost: 3.5 nominal periods (R387); of reference 4 the period is a folio (R421). -/
def State.lossNs (s : State) (r : Nat) : Nat :=
  match r with
  | 0 => 7 * s.ptpNs Fl.PTP_INTV_SYNC / 2
  | 3 => 350
  | 4 => 3500000000 * s.folioLen / s.fs
  | _ => 3500000000 / nomHz (s.fld (Reg.CLK_REF_CFG r) Fl.CLK_REF_CFG_NOM)

/-- A reference gives edges. -/
def State.refActive (s : State) (r : Nat) : Bool := decide (rsPEND ≤ s.refState r)

/-- While the XO has failed, no active reference means SAFE (R394). -/
def State.xoCheck (s : State) : State :=
  if s.flag Reg.CLK_STAT Fl.CLK_STAT_XO_FAIL && !(List.range 5).any (fun r => s.refActive r) then s.enterSafe 2 else s

/-- A reference is lost (R387, R388). -/
def State.loseRef (s : State) (r : Nat) : State :=
  if s.refActive r then
    (((s.setRefState r rsLOST).bump Reg.CLK_REF_LOSS).irq Reg.CLK_IRQ_STAT Fl.CLK_IRQ_STAT_LOST).xoCheck
  else s

/-- An edge reaches a monitor (R387, R388). -/
def State.refEdge (s : State) (r t : Nat) : State :=
  if 5 ≤ r ∨ s.refEn r = false then s
  else
    let s := { s with clk.edgeAt := Tab.put s.clk.edgeAt r t }
    if s.refState r = rsLOST then { s.setRefState r rsPEND with clk.pendAt := Tab.put s.clk.pendAt r t } else s

/-- `REFERENCE_EDGE` (R387): an edge of reference `r`; with `pps`, a `PPS_IN` rising edge at reference 3 (R398). -/
def execReferenceEdge (r : Nat) (pps : Bool) (t : Nat) (s : State) : Out :=
  let s := s.atTime t
  if !s.aonClocked then .next s
  else
    let s := s.refEdge r t
    if pps && r == 3 && s.flag (Reg.CLK_REF_CFG 3) Fl.CLK_REF_CFG_PPS_EN then
      .next { s with clk.pps := some (t, s.sys.mediaTime) }
    else .next s

/-! ### PTP: loss of the master (R405) -/

/-- The selected master vanishes: local time goes on at the servo's last rate, and reference 0 is lost. -/
def State.masterGone (s : State) : State :=
  match s.ptp.master with
  | none => s
  | some a =>
    let s := { s with ptp.master := none, ptp.foreign := Tab.del s.ptp.foreign a.src, ptp.syncSeq := none, ptp.twoStep := none, ptp.lastSync := none }
    let s := s.setFlag Reg.PTP_STAT Fl.PTP_STAT_GM_PRESENT false
    (s.irq Reg.PTP_IRQ_STAT Fl.PTP_IRQ_STAT_GM_LOST).loseRef 0



/-- Qualification limits (R388), in 0.1 ppm, and the accept time in ns. -/
def State.acceptLim (s : State) : Nat := s.fld Reg.CLK_QUAL Fl.CLK_QUAL_ACCEPT
def State.rejectLim (s : State) : Nat := s.fld Reg.CLK_QUAL Fl.CLK_QUAL_REJECT
def State.acceptNs (s : State) : Nat := s.fld Reg.CLK_QUAL Fl.CLK_QUAL_ACCEPT_T * 100000000

def State.disqualify (s : State) (r : Nat) : State :=
  ((s.setRefState r rsDISQ).bump Reg.CLK_REF_DISQ).irq Reg.CLK_IRQ_STAT Fl.CLK_IRQ_STAT_DISQ

/-- One measurement of a reference, in 0.1 ppm (R387 to R389). -/
def State.measureRef (s : State) (r : Nat) (f : Int) (t : Nat) : State :=
  if !s.refActive r then s
  else
    let a := f.natAbs
    let s := s.setFld (Reg.CLK_REF_STAT r) Fl.CLK_REF_STAT_FOFF (ofS 16 (satS 16 f))
    let st := s.refState r
    if st = rsQUAL then
      if s.rejectLim < a then s.disqualify r
      else
        let d := decide (s.acceptLim < a)
        let s := if d && !s.flag (Reg.CLK_REF_STAT r) Fl.CLK_REF_STAT_DRIFT then
            s.irq Reg.CLK_IRQ_STAT Fl.CLK_IRQ_STAT_DRIFT else s
        s.setFlag (Reg.CLK_REF_STAT r) Fl.CLK_REF_STAT_DRIFT d
    else if st = rsDISQ then
      if a ≤ s.acceptLim then { s.setRefState r rsPEND with clk.pendAt := Tab.put s.clk.pendAt r t } else s
    else if s.rejectLim < a then s.disqualify r
    else if s.acceptLim < a then { s with clk.pendAt := Tab.put s.clk.pendAt r t }
    else if Tab.at s.clk.pendAt 0 r + s.acceptNs ≤ t then
      { (s.setRefState r rsQUAL).irq Reg.CLK_IRQ_STAT Fl.CLK_IRQ_STAT_QUAL with
        clk.qualAt := Tab.put s.clk.qualAt r t
        -- a word clock that requalifies ends D1's holdover (R283)
        mix.d1Hold := s.mix.d1Hold && s.capCfg.fld Reg.MIX_DOM_CFG Fl.MIX_DOM_CFG_D1_REF + 1 != r }
    else s

/-- `REFERENCE_MEASUREMENT` (R387, R388): the frequency offsets the monitors measure, in 0.1 ppm; of reference 0 it is the servo's
estimate. Frozen while the XO has failed (R394). -/
def execReferenceMeasurement (foff : List Int) (t : Nat) (s : State) : Out :=
  let s := s.atTime t
  if !s.aonClocked || s.flag Reg.CLK_STAT Fl.CLK_STAT_XO_FAIL then .next s
  else
    let f (s : State) (r : Nat) : Int := if r = 0 then rndDiv s.ptp.freq 100000 else nth foff r 0
    .next (forRange 0 5 (fun r s => s.measureRef r (f s r) t) s)

/-! ### The DCO word (R397) -/

/-- ±200 ppm in units of 2⁻⁴⁰. -/
def dcoMax : Int := 219902326

/-- The word in force: while the data plane runs it moves at 1 ppm per second. -/
def State.dcoWord (s : State) : Int :=
  if s.planeOn then
    let m : Int := ((s.now - s.clk.slewAt) * 2 ^ 40 / 1000000000000000 : Nat)
    s.clk.slewFrom + clampI (-m) m (s.clk.word - s.clk.slewFrom)
  else s.clk.word

/-- Put a word in force at once. -/
def State.putWord (s : State) (w : Int) : State :=
  let v := clampI (-dcoMax) dcoMax w
  { s with clk.word := v, clk.slewFrom := v, clk.slewAt := s.now }

/-! ### Alignment of media time (R398) -/

/-- Add a signed number of samples to media time. -/
def State.moveMedia (s : State) (d : Int) : State :=
  let add (n : Nat) : Nat := ((n : Int) + d).toNat
  { s with
    sys.mediaTime := add s.sys.mediaTime
    clk.pps := s.clk.pps.map (fun x => (x.1, add x.2))
    clk.marker := s.clk.marker.map (fun x => (x.1, add x.2)) }

/-- What would have to be added to media time to align it to the reference followed, where that carries time. Pulses are
present while the last is at most 3.5 s old. -/
def State.alignErr (s : State) : Option Int :=
  match s.clk.sel with
  | 0 =>
    if s.flag Reg.PTP_STAT Fl.PTP_STAT_STEPPED then
      some ((s.localNs * s.fs / 1000000000 : Nat) - (s.sys.mediaTime : Int))
    else none
  | 3 =>
    match s.clk.pps with
    | some (at_, mt) =>
      if s.flag (Reg.CLK_REF_CFG 3) Fl.CLK_REF_CFG_PPS_EN ∧ s.now < at_ + 3500000000 then
        let e : Int := (mt % s.fs : Nat)
        some (if 2 * e ≤ s.fs then -e else s.fs - e)
      else none
    | none => none
  | 4 => s.clk.marker.map (fun x => (x.1 : Int) - x.2)
  | _ => none

/-- Step media time where R398 has it stepped. -/
def State.alignMedia (s : State) : State :=
  match s.alignErr with
  | none => s
  | some e =>
    if e.natAbs ≤ 1 then { s with sys.aligned := true }
    else if s.flag Reg.CLK_CFG Fl.CLK_CFG_ALIGN && !s.planeOn then
      let s := (s.bump Reg.CLK_MT_STEP).irq Reg.CLK_IRQ_STAT Fl.CLK_IRQ_STAT_MT_STEP
      { s.moveMedia e with sys.aligned := true }
    else { s with sys.aligned := false }

/-! ### Selection (R391 to R396) -/

/-- The state register's codes beyond the references: the open DPLL and holdover. -/
def selOPEN : Nat := 14
def selHOLD : Nat := 15

def State.refGood (s : State) (r : Nat) : Bool := decide (r < 5) && s.refState r == rsQUAL && s.familyOk r

/-- The standby's clock is forced to reference 4 (R407). -/
def State.peerClock (s : State) : Bool := s.mode == mSTANDBY || s.mode == mRESYNC

/-- What R391 prefers. -/
def State.prefRef (s : State) : Nat :=
  let m := s.fld Reg.CLK_SEL Fl.CLK_SEL_MANUAL
  if s.peerClock then (if s.refGood 4 then 4 else selHOLD)
  else if m = 14 then selOPEN
  else if m = 5 then 5
  else if s.refGood m then m
  else
    match (List.range 5).find? (fun r => s.refGood r) with
    | some r => r
    | none => if s.clk.other then selHOLD else 5

/-- The choice of this evaluation (R391, R392). -/
def State.chooseRef (s : State) : Nat :=
  let p := s.prefRef
  let cur := s.clk.sel
  if s.clk.dirty ∨ s.peerClock = true ∨ s.refGood cur = false ∨ p = cur ∨ ¬p < 5 then p
  else if s.flag Reg.CLK_CFG Fl.CLK_CFG_REVERT ∧
      Tab.at s.clk.qualAt 0 p + s.fld Reg.CLK_CFG Fl.CLK_CFG_WTR_S * 1000000000 ≤ s.now then p
  else cur

/-- Show that no reference is followed: the spec gives `REF` no value then. -/
def State.noRef (s : State) : State :=
  let (v, s) := s.fresh
  s.setFld Reg.CLK_STAT Fl.CLK_STAT_REF (v % 16)

/-- Enter holdover on the averaged word (R393). -/
def State.enterHoldover (s : State) : State :=
  let h := s.clk.hist
  let w := if h.isEmpty then s.dcoWord else rndDiv h.sum h.length
  let s := (s.putWord w).noRef
  let s := (s.setFld Reg.CLK_STAT Fl.CLK_STAT_STATE 3).setFlag Reg.CLK_STAT Fl.CLK_STAT_PULLING false
  let s := (s.bump Reg.CLK_HOLDOVER).irq Reg.CLK_IRQ_STAT Fl.CLK_IRQ_STAT_HOLDOVER
  { s with clk.sel := selHOLD, clk.hist := [], clk.pull := 0 }

/-- Select a reference: the DPLL starts from the word in force and pulls the measured phase offset in (R396). -/
def State.selectRef (s : State) (r : Nat) (phase : Int) : State :=
  let s := (s.putWord s.dcoWord).setFld Reg.CLK_STAT Fl.CLK_STAT_REF r
  let s := (s.bump Reg.CLK_SWITCH).irq Reg.CLK_IRQ_STAT Fl.CLK_IRQ_STAT_SWITCH
  { s with clk.sel := r, clk.other := s.clk.other || r != 5, clk.hist := [], clk.lockAt := s.now, clk.pull := phase.natAbs }

/-- Open the DPLL (R397). -/
def State.openDpll (s : State) : State :=
  let s := ((s.putWord s.dcoWord).noRef).setFld Reg.CLK_STAT Fl.CLK_STAT_STATE 0
  { s.setFlag Reg.CLK_STAT Fl.CLK_STAT_PULLING false with clk.sel := selOPEN, clk.hist := [], clk.pull := 0 }

/-- One evaluation's work of the loop while a reference is followed (R395, R396): 10 ms remove `PHASE_SLEW` nanoseconds. -/
def State.runDpll (s : State) (phase ferr : Int) (new : Bool) : State :=
  let w := Config.dpllStep s.dcoWord phase ferr (s.fld Reg.CLK_DPLL Fl.CLK_DPLL_BW)
  let s := s.putWord w
  let s := s.wr Reg.CLK_PHASE_ERR (ofS 32 (satS 32 phase))
  let s := if new then s else { s with clk.pull := s.clk.pull - max 1 (s.fld Reg.CLK_CFG Fl.CLK_CFG_PHASE_SLEW) }
  let s := s.setFlag Reg.CLK_STAT Fl.CLK_STAT_PULLING (decide (0 < s.clk.pull))
  let s := if 1000 ≤ phase.natAbs ∨ 100 ≤ ferr.natAbs then { s with clk.lockAt := s.now } else s
  let st := if s.clk.sel = 5 then 0 else if s.clk.lockAt + 2000000000 ≤ s.now then 2 else 1
  { s.setFld Reg.CLK_STAT Fl.CLK_STAT_STATE st with clk.hist := (s.clk.word :: s.clk.hist).take 1000 }

/-- `REFERENCE_SELECTION` (R391 to R398): one evaluation, with the phase error (ns) and frequency error (ppb) the detector finds
against each reference. -/
def execReferenceSelection (phases ferrs : List Int) (t : Nat) (s : State) : Out :=
  let s := s.atTime t
  if !s.aonClocked then .next s
  else
    let c := s.chooseRef
    let new := c != s.clk.sel
    let s := if !new then s else if c = selHOLD then s.enterHoldover else if c = selOPEN then s.openDpll else s.selectRef c (nth phases c 0)
    let s := { s with clk.dirty := false }
    let s := if c ≤ 5 then s.runDpll (nth phases c 0) (nth ferrs c 0) new else s
    .next s.alignMedia

/-- `XO_FAIL` (R394). -/
def execXoFail (t : Nat) (s : State) : Out :=
  let s := s.atTime t
  if s.flag Reg.CLK_STAT Fl.CLK_STAT_XO_FAIL then .next s
  else
    let s := (s.setFlag Reg.CLK_STAT Fl.CLK_STAT_XO_FAIL true).bump Reg.CLK_XO_FAIL
    let s := { s.irq Reg.CLK_IRQ_STAT Fl.CLK_IRQ_STAT_XO_FAIL with clk.backup := true }
    .next s.xoCheck

/-- `XO_RETURN` (R394). -/
def execXoReturn (t : Nat) (s : State) : Out :=
  let s := s.atTime t
  .next { s.setFlag Reg.CLK_STAT Fl.CLK_STAT_XO_FAIL false with clk.backup := false }

/-! ### The PTP port (R401, R402) -/

def State.ptpOn (s : State) : Bool := s.aonClocked && s.flag Reg.PTP_CFG Fl.PTP_CFG_EN
def State.profile (s : State) : Nat := s.fld Reg.PTP_CFG Fl.PTP_CFG_PROFILE

/-- The port may take the master role: a standby runs slave-only (R402). -/
def State.mayMaster (s : State) : Bool := s.flag Reg.PTP_CFG Fl.PTP_CFG_MASTER_EN && !s.peerClock

def State.setPort (s : State) (v : Nat) : State := s.setFld Reg.PTP_STAT Fl.PTP_STAT_PORT_STATE v

/-- A change of grandmaster or of PTP port (R404). -/
def State.gmChanged (s : State) : State := (s.bump Reg.PTP_GM_CHG).irq Reg.PTP_IRQ_STAT Fl.PTP_IRQ_STAT_GM_CHG

/-- The port in use follows the links (R401). -/
def State.ptpFollowPort (s : State) : State :=
  let p := s.fld Reg.PTP_CFG Fl.PTP_CFG_PORT
  let a := s.fld Reg.PTP_CFG Fl.PTP_CFG_ALT_PORT
  let use := if s.flag (Reg.MAC_LINK_STAT p) Fl.MAC_LINK_STAT_UP ∨ a = 3 then p else a
  if !s.ptpOn || use == s.fld Reg.PTP_STAT Fl.PTP_STAT_PORT_USED then s
  else
    let s := s.setFld Reg.PTP_STAT Fl.PTP_STAT_PORT_USED use
    { s.gmChanged with ptp.alt := use != p, ptp.twoStep := none, ptp.lastSync := none, ptp.req := none }

/-- Own clockIdentity: the pair's on the holder of the rein (R402). -/
def State.ownClock (s : State) : Nat :=
  match s.pair.ident with
  | some d => if s.paired && s.holds then Config.clockId d.mac else Config.clockId (Config.unitMac 0)
  | none => Config.clockId (Config.unitMac 0)

/-- Own data set as announced (R402). -/
def State.ownAnn (s : State) : Ann :=
  let q := Config.ptpQuality (s.rd Reg.CLK_STAT)
  let c := s.ownClock
  { src := c * 65536 + 1, gm := c, prio1 := s.fld Reg.PTP_PRIO Fl.PTP_PRIO_PRIORITY1,
    cls := if s.mayMaster then s.fld Reg.PTP_PRIO Fl.PTP_PRIO_CLASS else 255, acc := q.1, var := q.2,
    prio2 := s.fld Reg.PTP_PRIO Fl.PTP_PRIO_PRIORITY2, steps := 0 }

/-- The data set's places in the comparison of the best master clock algorithm, first place first. -/
def annRank (a : Ann) : List Nat := [a.prio1, a.cls, a.acc, a.var, a.prio2, a.gm, a.steps, a.src]

/-- Lexicographic order. -/
def lexLt : List Nat → List Nat → Bool
  | a :: as, b :: bs => decide (a < b) || (a == b && lexLt as bs)
  | _, _ => false

def annBetter (a b : Ann) : Bool := lexLt (annRank a) (annRank b)

/-- Foreign masters that take part: the selected one, and those with the two Announce messages within four intervals that the
default algorithm asks for. -/
def State.candidates (s : State) : List Ann :=
  let w := 4 * s.ptpNs Fl.PTP_INTV_ANNOUNCE
  (s.ptp.foreign.filter (fun e =>
    (s.ptp.master.map (·.src)) == some e.2.ann.src ||
      ((s.profile == 3 || decide (2 ≤ e.2.seen)) && decide (s.now ≤ e.2.heard + w)))).map (·.2.ann)

/-- The best of them. -/
def bestAnn (l : List Ann) : Option Ann :=
  l.foldl (fun b a => match b with | some x => if annBetter a x then some a else some x | none => some a) none

/-- Follow a master: the port is uncalibrated until an offset from it is valid. -/
def State.followMaster (s : State) (a : Ann) : State :=
  let old := s.ptp.master
  let s := { s with ptp.master := some a }
  let s := (s.wr Reg.PTP_GM_LO (leVal (beBytes 8 a.gm |>.drop 4))).wr Reg.PTP_GM_HI (leVal ((beBytes 8 a.gm).take 4))
  let s := s.setFlag Reg.PTP_STAT Fl.PTP_STAT_GM_PRESENT true
  let s := if old.map (·.gm) = some a.gm then s else s.gmChanged
  if old.map (·.src) = some a.src then s
  else { s.setPort 8 with ptp.syncSeq := none, ptp.twoStep := none, ptp.lastSync := none }

/-- The port leaves the slave role without its master having vanished. -/
def State.unfollow (s : State) (port : Nat) : State :=
  { (s.setFlag Reg.PTP_STAT Fl.PTP_STAT_GM_PRESENT false).setPort port with
    ptp.master := none, ptp.syncSeq := none, ptp.twoStep := none, ptp.lastSync := none }

/-- The state decision of the best master clock algorithm (R401). -/
def State.bmca (s : State) : State :=
  match bestAnn s.candidates with
  | none => if s.mayMaster then s.unfollow 6 else s.unfollow 4
  | some b =>
    if s.mayMaster && annBetter s.ownAnn b then s.unfollow 6
    else if s.mayMaster && s.profile != 3 && decide (1 ≤ s.ownAnn.cls) && decide (s.ownAnn.cls ≤ 127) then s.unfollow 7
    else s.followMaster b

/-- `REFERENCE_LOST` (R387, R405): 3.5 nominal periods have passed since the last edge, or the Tether link is down. Of reference 0
the master is gone, and the best master clock algorithm decides anew. -/
def execReferenceLost (r t : Nat) (s : State) : Out :=
  let s := s.atTime t
  if !s.aonClocked || decide (5 ≤ r) || !s.refActive r ||
      !(decide (Tab.at s.clk.edgeAt 0 r + s.lossNs r ≤ t) || (r == 4 && !s.linkUp)) then .next s
  else if r = 0 then .next (s.masterGone.loseRef 0).bmca
  else .next (s.loseRef r)

/-- A message the engine drops before looking further (R403). -/
def State.ptpBad (s : State) (h : PtpHead) : Bool := h.bad || h.dom != s.fld Reg.PTP_CFG Fl.PTP_CFG_DOMAIN

def State.ptpDrop (s : State) : State := s.bump Reg.PTP_DROPPED

/-- `ANNOUNCE` (R401). -/
def execAnnounce (h : PtpHead) (a : Ann) (t : Nat) (s : State) : Out :=
  let s := s.atTime t
  if !s.ptpOn then .next s
  else if s.ptpBad h then .next s.ptpDrop
  else
    let a := { a with src := h.src }
    let w := 4 * s.ptpNs Fl.PTP_INTV_ANNOUNCE
    let seen := match Tab.look s.ptp.foreign h.src with
      | some f => if t ≤ f.heard + w then f.seen + 1 else 1
      | none => 1
    let s := { s.bump Reg.PTP_ANN_RX with ptp.foreign := Tab.put s.ptp.foreign h.src ⟨a, t, seen⟩ }
    .next s.bmca

/-- `ANNOUNCE_TIMEOUT` (R405): the announce receipt timeout of the selected master has passed. -/
def execAnnounceTimeout (t : Nat) (s : State) : Out :=
  let s := s.atTime t
  match s.ptp.master with
  | none => .next s
  | some a =>
    let heard := (Tab.look s.ptp.foreign a.src).map (·.heard)
    let wait := s.fld Reg.PTP_INTV Fl.PTP_INTV_ANN_TIMEOUT * s.ptpNs Fl.PTP_INTV_ANNOUNCE
    if !s.ptpOn || decide (t < heard.getD 0 + wait) then .next s else .next s.masterGone.bmca

/-! ### Local time (R404) -/

/-- Mean path delay in 2⁻¹⁶ ns (R403). -/
def State.mpd16 (s : State) : Int := rndDiv s.ptp.delays.sum (max 1 s.ptp.delays.length)

/-- Put local time at a value, running at a rate. -/
def State.setLocal (s : State) (ns : Nat) (rate : Int) : State :=
  { s with ptp.base := ns, ptp.atNow := s.now, ptp.rate := rate }

/-- The servo acts on an offset (ns): its correction is limited to `SLEW_MAX` (R404). -/
def State.servo (s : State) (off : Int) : State :=
  let lim := 100000 * max 1 (s.fld Reg.PTP_CFG Fl.PTP_CFG_SLEW_MAX)
  let c := Config.ptpCorr off.natAbs
  let limited := decide (lim < c)
  let corr : Int := (min c lim : Nat)
  let rate := s.ptp.freq - (if 0 < off then corr else if off < 0 then -corr else 0)
  let s := if limited && !s.flag Reg.PTP_STAT Fl.PTP_STAT_SLEWING then s.irq Reg.PTP_IRQ_STAT Fl.PTP_IRQ_STAT_SLEW else s
  let s := s.setFlag Reg.PTP_STAT Fl.PTP_STAT_SLEWING limited
  (s.setLocal s.localNs rate).wr Reg.PTP_RATE (ofS 32 (satS 32 rate))

/-- Step local time by an offset (R404, R406). -/
def State.stepLocal (s : State) (off : Int) : State :=
  let s := s.setLocal ((s.localNs : Int) - off).toNat s.ptp.rate
  let s := (s.setFlag Reg.PTP_STAT Fl.PTP_STAT_STEPPED true).setFlag Reg.PTP_STAT Fl.PTP_STAT_RELOCK_ARMED false
  s.irq Reg.PTP_IRQ_STAT Fl.PTP_IRQ_STAT_STEP

/-- A Sync is complete: master time `m` and local time `rx`, the one in 2⁻¹⁶ ns, the other in ns. Its offset is valid once a
path delay is known. -/
def State.syncDone (s : State) (m : Int) (rx : Nat) : State :=
  let s := match s.ptp.lastSync with
    | some (m0, r0) => { s with ptp.freq := Config.ptpFreq s.ptp.freq (m - m0) (65536 * ((rx : Int) - r0)) }
    | none => s
  let s := { s with ptp.lastSync := some (m, rx) }
  if s.ptp.delays.isEmpty then s
  else
    let off := rndDiv (65536 * (rx : Int) - m - s.mpd16) 65536
    let s := (s.wr Reg.PTP_OFFSET (ofS 32 (satS 32 off))).setPort 9
    if !s.flag Reg.PTP_STAT Fl.PTP_STAT_STEPPED || s.flag Reg.PTP_STAT Fl.PTP_STAT_RELOCK_ARMED then
      { (s.stepLocal off).servo 0 with ptp.lastSync := none }
    else s.servo off

/-- `SYNC` (R403): from the selected master, one-step with its origin time or two-step; `origin` in ns, `corr` in 2⁻¹⁶ ns, `rx` the
ingress timestamp of R350. A two-step Sync still waiting is discarded. -/
def execSync (h : PtpHead) (two : Bool) (origin corr : Int) (rx t : Nat) (s : State) : Out :=
  let s := s.atTime t
  if !s.ptpOn then .next s
  else if s.ptpBad h then .next s.ptpDrop
  else if s.ptp.master.map (·.src) ≠ some h.src then .next s
  else if s.ptp.syncSeq = some h.seq then .next s.ptpDrop
  else
    let s := { (s.bump Reg.PTP_SYNC_RX).refEdge 0 t with ptp.syncSeq := some h.seq, ptp.twoStep := none }
    if two then .next { s with ptp.twoStep := some (h.seq, rx, corr) }
    else .next (s.syncDone (65536 * origin + corr) rx)

/-- `FOLLOW_UP` (R403). -/
def execFollowUp (h : PtpHead) (origin corr : Int) (t : Nat) (s : State) : Out :=
  let s := s.atTime t
  if !s.ptpOn then .next s
  else if s.ptpBad h then .next s.ptpDrop
  else
    match s.ptp.twoStep with
    | some (q, rx, c) =>
      if q = h.seq ∧ s.ptp.master.map (·.src) = some h.src then
        .next ({ s with ptp.twoStep := none }.syncDone (65536 * origin + corr + c) rx)
      else .next s.ptpDrop
    | none => .next s.ptpDrop

/-- `DELAY_REQ_INTERVAL` (R401): the port sends a Delay_Req to its master, or a Pdelay_Req under profile 3, with the egress
timestamp of R350 where it was not lost (R351, R403). -/
def execDelayReqInterval (ts : Option Nat) (t : Nat) (s : State) : Out :=
  let s := s.atTime t
  if !s.ptpOn || !(s.profile == 3 || s.ptp.master.isSome) then .next s
  else
    let q := s.ptp.reqSeq
    let s := { s.bump Reg.PTP_DELAY_TX with ptp.reqSeq := (q + 1) % 65536, ptp.sent := s.ptp.sent ++ [⟨1, q⟩], ptp.req := ts.map (fun x => (q, x)) }
    if ts.isNone then .next ((s.bump Reg.PTP_TS_MISS).irq Reg.PTP_IRQ_STAT Fl.PTP_IRQ_STAT_TS_MISS) else .next s

/-- `DELAY_RESP` (R403): end-to-end, `t2` is when the master got the request; peer-to-peer, `t2` and `t3` are the peer's times and
`rx` the local ingress timestamp. `own`: it names this port as requester. -/
def execDelayResp (h : PtpHead) (own : Bool) (t2 t3 corr : Int) (rx t : Nat) (s : State) : Out :=
  let s := s.atTime t
  if !s.ptpOn then .next s
  else if s.ptpBad h then .next s.ptpDrop
  else
    match s.ptp.req with
    | some (q, t1) =>
      if !own || q != h.seq then .next s.ptpDrop
      else
        let s := { s.bump Reg.PTP_DELAY_RX with ptp.req := none }
        let d : Option Int :=
          if s.profile = 3 then some (rndDiv (65536 * ((rx : Int) - t1 - (t3 - t2)) - corr) 2)
          else s.ptp.lastSync.map (fun x => rndDiv ((65536 * (x.2 : Int) - x.1) + (65536 * (t2 - t1) - corr)) 2)
        match d with
        | some d =>
          let s := { s with ptp.delays := (d :: s.ptp.delays).take 16 }
          .next (s.wr Reg.PTP_MPD (rndDiv s.mpd16 65536).toNat)
        | none => .next s
    | none => .next s.ptpDrop

/-- `SYNC_INTERVAL` (R402): the master sends Sync, Follow_Up and Announce. -/
def execSyncInterval (t : Nat) (s : State) : Out :=
  let s := s.atTime t
  if !s.ptpOn || s.fld Reg.PTP_STAT Fl.PTP_STAT_PORT_STATE != 6 then .next s
  else
    let q := s.ptp.txSeq
    .next { s with ptp.txSeq := (q + 1) % 65536, ptp.sent := s.ptp.sent ++ [⟨0, q⟩, ⟨8, q⟩, ⟨11, q⟩] }

/-! ### Commands (R411) -/

def specClkCfgSet : CmdSpec := cmdRow 0x0201 0 true 12 12 fwModes true
def specClkRefSet : CmdSpec := cmdRow 0x0202 0 true 8 8 fwModes true
def specClkSelect : CmdSpec := cmdRow 0x0203 1 true 4 4 fwModes true
def specClkDcoSet : CmdSpec := cmdRow 0x0204 0 true 8 8 fwModes true
def specClkOutSet : CmdSpec := cmdRow 0x0205 0 true 4 4 fwModes true
def specClkQuery : CmdSpec := cmdRow 0x0206 2 false 0 0 fwModes false
def specClkStats : CmdSpec := cmdRow 0x0207 2 false 0 0 fwModes false
def specPtpCfgSet : CmdSpec := cmdRow 0x0210 0 true 16 16 fwModes true
/-- Modes of `PTP_RELOCK` (R406): not RENDER, STANDBY or RESYNC. -/
def relockModes : List Nat := [mLOAD, mIDLE, mMEASURE, mSERVICE, mUPDATE, mFAULT]
def specPtpRelock : CmdSpec := { cmdRow 0x0211 0 true 0 0 relockModes false with logs := true }
def specPtpQuery : CmdSpec := cmdRow 0x0212 2 false 0 0 fwModes false
def specPtpStats : CmdSpec := cmdRow 0x0213 2 false 0 0 fwModes false

/-- Values of `CLK_CFG`, `CLK_DPLL` and `CLK_QUAL` are in range (R390, R408, R411). -/
def clkCfgOk (c d q : Nat) : Bool :=
  let wtr := bitsN c 19 8
  let bw := bitsN d 9 0
  let acc := bitsN q 9 0
  let rej := bitsN q 21 12
  rsvOk Reg.CLK_CFG c && rsvOk Reg.CLK_DPLL d && rsvOk Reg.CLK_QUAL q && decide (wtr ≤ 3600) &&
    decide (5 ≤ bw) && decide (bw ≤ 1000) && bitsN q 31 24 != 0 && decide (2 ≤ rej) && decide (rej ≤ 1000) && decide (1 ≤ acc) &&
    decide (acc < rej)

def cmdClkCfgSet (p : Packet) (s : State) : CmdRes :=
  let v (k : Nat) : Nat := u32 p.params (4 * k)
  if clkCfgOk (v 0) (v 1) (v 2) then
    .ok (((s.wr Reg.CLK_CFG (v 0)).wr Reg.CLK_DPLL (v 1)).wr Reg.CLK_QUAL (v 2)) []
  else .fail s stBAD_PARAM []
/-- `CLK_CFG_SET` (R411). -/
def execClkCfgSet (p : Packet) (s : State) : Out := runPacket specClkCfgSet p (cmdClkCfgSet p) s

def cmdClkRefSet (p : Packet) (s : State) : CmdRes :=
  let b := p.params
  let r := u8 b 0
  let v := u32 b 4
  if 5 < r ∨ !zeroAt b 1 3 ∨ !rsvOk (Reg.CLK_REF_CFG r) v ∨ bitsN v 26 24 = 7 then .fail s stBAD_PARAM []
  else
    let s := s.wr (Reg.CLK_REF_CFG r) (if r = 5 then setBitN v 31 true else v)
    if 5 ≤ r then .ok s []
    else if !v.testBit 31 then .ok (s.setRefState r rsDIS) []
    else if s.fld (Reg.CLK_REF_STAT r) Fl.CLK_REF_STAT_STATE = rsDIS then .ok (s.setRefState r rsLOST) []
    else .ok s []
/-- `CLK_REF_SET` (R411). -/
def execClkRefSet (p : Packet) (s : State) : Out := runPacket specClkRefSet p (cmdClkRefSet p) s

def cmdClkSelect (p : Packet) (s : State) : CmdRes :=
  let v := u32 p.params 0
  if v ≤ 5 ∨ v = 14 ∨ v = 15 then .ok { s.wr Reg.CLK_SEL v with clk.dirty := true } []
  else .fail s stBAD_PARAM []
/-- `CLK_SELECT` (R391, R411). -/
def execClkSelect (p : Packet) (s : State) : Out := runPacket specClkSelect p (cmdClkSelect p) s

def cmdClkDcoSet (p : Packet) (s : State) : CmdRes :=
  let w := toS 64 (u64 p.params 0)
  if s.fld Reg.CLK_SEL Fl.CLK_SEL_MANUAL ≠ 14 then .fail s stNOT_IN_MODE []
  else if dcoMax < w ∨ w < -dcoMax then .fail s stBAD_PARAM []
  else if s.planeOn then .ok { s with clk.slewFrom := s.dcoWord, clk.slewAt := s.now, clk.word := w } []
  else .ok (s.putWord w) []
/-- `CLK_DCO_SET` (R397). -/
def execClkDcoSet (p : Packet) (s : State) : Out := runPacket specClkDcoSet p (cmdClkDcoSet p) s

/-- `CLK_OUT_CFG` is acceptable: no reserved code, and no 512·fs above 50 MHz (R400, R408). -/
def State.clkOutOk (s : State) (v : Nat) : Bool :=
  rsvOk Reg.CLK_OUT_CFG v && (List.range 4).all (fun k =>
    let f := bitsN v (4 * k + 3) (4 * k)
    decide (f < 8) && f % 4 != 3 && (f % 4 != 2 || decide (512 * s.live.domRate s.fs (f / 4) ≤ 50000000)))

def cmdClkOutSet (p : Packet) (s : State) : CmdRes :=
  let v := u32 p.params 0
  if s.clkOutOk v then .ok (s.wr Reg.CLK_OUT_CFG v) [] else .fail s stBAD_PARAM []
/-- `CLK_OUT_SET` (R400). -/
def execClkOutSet (p : Packet) (s : State) : Out := runPacket specClkOutSet p (cmdClkOutSet p) s

/-- Media time minus local time times fs in 1/256 sample (R399). -/
def State.mtErr (s : State) : Nat :=
  if s.flag Reg.PTP_STAT Fl.PTP_STAT_STEPPED then
    ofS 32 (satS 32 (256 * (s.sys.mediaTime : Int) - (s.localNs * s.fs * 256 / 1000000000 : Nat)))
  else 0x80000000

/-- Views of the CLK block (R397, R399, R407, R408). -/
def State.liveClk (s : State) (a : Nat) : Nat :=
  if a = Reg.CLK_MT_ERR then s.mtErr
  else if a = Reg.CLK_DCO_LO then ofS 64 s.dcoWord % 2 ^ 32
  else if Reg.CLK_REF_STAT 0 ≤ a ∧ a ≤ Reg.CLK_REF_STAT 5 then
    let r := (a - Reg.CLK_REF_STAT 0) / 4
    setBitN (setBitsN (s.rd a) 31 29 (s.refState r)) 27 (s.familyOk r)
  else if a = Reg.CLK_REF_CFG 5 then setBitN (s.rd a) 31 true
  else if a = Reg.CLK_STAT then setBitN (setBitN (s.rd a) 23 s.peerClock) 22 (decide (dcoMax ≤ s.dcoWord) || decide (s.dcoWord ≤ -dcoMax))
  else s.rd a

/-- Views of the PTP block (R410). -/
def State.livePtp (s : State) (a : Nat) : Nat := if a = Reg.PTP_TIME_NS then s.localNs % 1000000000 else s.rd a

/-- Local time as 12 bytes: nanoseconds, then seconds. -/
def State.localBytes (s : State) : List Byte := by4 (s.localNs % 1000000000) ++ by8 (s.localNs / 1000000000 % 2 ^ 48)

def cmdClkQuery (_p : Packet) (s : State) : CmdRes :=
  .ok s (by4 (s.liveClk Reg.CLK_STAT) ++ by4 (s.rd Reg.CLK_PHASE_ERR) ++ by4 s.mtErr ++ by8 (ofS 64 s.dcoWord) ++
    (List.range 6).flatMap (fun r => by4 (s.liveClk (Reg.CLK_REF_STAT r))))
/-- `CLK_QUERY` (R411). -/
def execClkQuery (p : Packet) (s : State) : Out := runPacket specClkQuery p (cmdClkQuery p) s

/-- The CLK and PTP counters in offset order (R408, R410). -/
def clkCounters : List Nat :=
  [Reg.CLK_SWITCH, Reg.CLK_HOLDOVER, Reg.CLK_REF_LOSS, Reg.CLK_REF_DISQ, Reg.CLK_MT_STEP, Reg.CLK_XO_FAIL]
def ptpCounters : List Nat :=
  [Reg.PTP_SYNC_RX, Reg.PTP_ANN_RX, Reg.PTP_DELAY_TX, Reg.PTP_DELAY_RX, Reg.PTP_GM_CHG, Reg.PTP_TS_MISS, Reg.PTP_DROPPED]

def cmdClkStats (_p : Packet) (s : State) : CmdRes :=
  let (s, bs) := s.takeCounters clkCounters
  .ok s bs
/-- `CLK_STATS` (R411). -/
def execClkStats (p : Packet) (s : State) : Out := runPacket specClkStats p (cmdClkStats p) s

/-- A profile's `DOMAIN` and `PTP_INTV` (R401). -/
def profileDefaults (k : Nat) : Nat × Nat := nth [(0, 0x01000003), (127, 0xFEFDFD03), (0, 0x01FD0003), (0, 0x00FD0003)] k (0, 0)

/-- An 8-bit signed code lies in a range. -/
def codeIn (lo hi : Int) (c : Nat) : Bool := decide (lo ≤ toS 8 c) && decide (toS 8 c ≤ hi)

/-- Values of the PTP configuration are in range (R410, R411). -/
def ptpCfgOk (c q i : Nat) : Bool :=
  rsvOk Reg.PTP_CFG c && rsvOk Reg.PTP_PRIO q && bitsN c 29 28 != 3 && bitsN c 25 24 != 3 &&
    (bitsN c 31 30 != 3 || bitsN c 29 28 == 2) && codeIn (-3) 4 (bitsN i 31 24) && codeIn (-7) 4 (bitsN i 23 16) &&
    codeIn (-7) 5 (bitsN i 15 8) && decide (2 ≤ bitsN i 7 0) && decide (bitsN i 7 0 ≤ 10)

/-- What a changed configuration does to the engine: switched on, its port listens; switched off, it is disabled (R410). -/
def State.ptpApply (s : State) (wasOn : Bool) : State :=
  let on := s.flag Reg.PTP_CFG Fl.PTP_CFG_EN
  if on && !wasOn then
    (s.setPort 4).setFld Reg.PTP_STAT Fl.PTP_STAT_PORT_USED (s.fld Reg.PTP_CFG Fl.PTP_CFG_PORT) |>.ptpFollowPort
  else if !on && wasOn then { s.unfollow 3 with ptp.foreign := [], ptp.req := none }
  else if on then s.ptpFollowPort.bmca
  else s

def cmdPtpCfgSet (p : Packet) (s : State) : CmdRes :=
  let b := p.params
  let c := u32 b 4
  let q := u32 b 8
  let i := u32 b 12
  if 1 < u8 b 0 ∨ !zeroAt b 1 3 ∨ !ptpCfgOk c q i then .fail s stBAD_PARAM []
  else
    let d := profileDefaults (bitsN c 31 30)
    let c := if u8 b 0 = 1 then setBitsN c 15 8 d.1 else c
    let i := if u8 b 0 = 1 then d.2 else i
    let was := s.flag Reg.PTP_CFG Fl.PTP_CFG_EN
    .ok ((((s.wr Reg.PTP_CFG c).wr Reg.PTP_PRIO q).wr Reg.PTP_INTV i).ptpApply was) []
/-- `PTP_CFG_SET` (R401 to R404). -/
def execPtpCfgSet (p : Packet) (s : State) : Out := runPacket specPtpCfgSet p (cmdPtpCfgSet p) s

def cmdPtpRelock (_p : Packet) (s : State) : CmdRes := .ok (s.setFlag Reg.PTP_STAT Fl.PTP_STAT_RELOCK_ARMED true) []
/-- `PTP_RELOCK` (R406). -/
def execPtpRelock (p : Packet) (s : State) : Out := runPacket specPtpRelock p (cmdPtpRelock p) s

def cmdPtpQuery (_p : Packet) (s : State) : CmdRes :=
  .ok s (by4 (s.rd Reg.PTP_STAT) ++ s.localBytes ++ by4 (s.rd Reg.PTP_OFFSET) ++ by4 (s.rd Reg.PTP_MPD) ++
    by4 (s.rd Reg.PTP_RATE) ++ by4 (s.rd Reg.PTP_GM_HI) ++ by4 (s.rd Reg.PTP_GM_LO))
/-- `PTP_QUERY` (R411). -/
def execPtpQuery (p : Packet) (s : State) : Out := runPacket specPtpQuery p (cmdPtpQuery p) s

def cmdPtpStats (_p : Packet) (s : State) : CmdRes :=
  let (s, bs) := s.takeCounters ptpCounters
  .ok s bs
/-- `PTP_STATS` (R411). -/
def execPtpStats (p : Packet) (s : State) : Out := runPacket specPtpStats p (cmdPtpStats p) s

/-! ### Latched reads (R31, R397, R410) -/

/-- Reading `SYS_MEDIA_TIME_LO` latches the high half. -/
def State.latchMedia (s : State) : State := s.wr Reg.SYS_MEDIA_TIME_HI (s.sys.mediaTime / 2 ^ 32 % 2 ^ 32)
/-- `MEDIA_TIME_LO_READ` (R31). -/
def execMediaTimeLoRead (t : Nat) (s : State) : Out :=
  let s := s.atTime t
  .next (s.latchMedia.readReturns (s.sys.mediaTime % 2 ^ 32))

/-- Reading `CLK_DCO_LO` latches the high half, sign-extended. -/
def State.latchDco (s : State) : State := s.wr Reg.CLK_DCO_HI (ofS 64 s.dcoWord / 2 ^ 32)
/-- `CLK_DCO_LO_READ` (R397). -/
def execClkDcoLoRead (t : Nat) (s : State) : Out :=
  let s := s.atTime t
  .next (s.latchDco.readReturns (s.liveClk Reg.CLK_DCO_LO))

/-- Reading `PTP_TIME_NS` latches the seconds of the same instant. -/
def State.latchPtp (s : State) : State :=
  let sec := s.localNs / 1000000000
  (s.wr Reg.PTP_TIME_SLO (sec % 2 ^ 32)).wr Reg.PTP_TIME_SHI (sec / 2 ^ 32 % 2 ^ 16)
/-- `PTP_TIME_NS_READ` (R410). -/
def execPtpTimeNsRead (t : Nat) (s : State) : Out :=
  let s := s.atTime t
  .next (s.latchPtp.readReturns (s.livePtp Reg.PTP_TIME_NS))

end Sys2Proof.Machine
end

