-- ==== Sys2Proof/Machine/Mac.lean ====
section
/-!
DEFINITION. The three MACs (R336 to R358): reception, rules, PAUSE, transmission, half duplex, timestamps, statistics and
MDIO.
-/

namespace Sys2Proof.Machine

/-! ### Ports -/

/-- Queues and rules of a MAC (R342, R346). -/
def macRxQueues (m : Nat) : Nat := if m = 2 then 8 else 32
def macTxQueues (m : Nat) : Nat := if m = 2 then 4 else 8
def macRules (m : Nat) : Nat := if m = 2 then 8 else 32
/-- Rules below this one are software's (R345). -/
def macFwRule (m : Nat) : Nat := if m = 2 then 4 else 24
/-- A receive queue goes to the stream engine (R343). -/
def toStream (m q : Nat) : Bool := m != 2 && decide (8 ≤ q)

def State.macDomain (_s : State) (m : Nat) : Nat := if m = 0 then dNETA else if m = 1 then dNETB else dMGMT

/-- A MAC runs: every mode except HALT and SAFE (R339). -/
def State.macOn (s : State) (m : Nat) : Bool :=
  decide (m < 3) && s.mode != mHALT && s.mode != mSAFE && s.domOn (s.macDomain m)

def State.macSpeed (s : State) (m : Nat) : Nat := s.fld (Reg.MAC_CFG m) Fl.MAC_CFG_SPEED
def State.macHalf (s : State) (m : Nat) : Bool := m == 2 && s.flag (Reg.MAC_CFG m) Fl.MAC_CFG_HALF
def State.macUp (s : State) (m : Nat) : Bool := s.flag (Reg.MAC_LINK_STAT m) Fl.MAC_LINK_STAT_UP

/-! ### Statistics (R357) -/

def State.macCount (s : State) (m k n : Nat) : State :=
  { s with mac.stats := Tab.store s.mac.stats 0 (32 * m + k) ((Tab.at s.mac.stats 0 (32 * m + k) + n) % 2 ^ 64) }

def State.macBump (s : State) (m k : Nat) : State := s.macCount m k 1

/-- `MAC_STAT_READ` of counter `k` (R357): the low half is read, the high half latched, the counter cleared. -/
def State.macStatRead (s : State) (m k : Nat) : State :=
  let v := Tab.at s.mac.stats 0 (32 * m + k)
  { s.wr (Reg.MAC_STAT_HI m k) (v / 2 ^ 32) with mac.stats := Tab.store s.mac.stats 0 (32 * m + k) 0 }

/-! ### Frame headers (R341) -/

/-- Header of a frame: tagged, VID, PCP, type, and where what follows the type begins. -/
structure FrameHead where
  tagged : Bool
  vid : Nat
  pcp : Nat
  etype : Nat
  off : Nat

def frameHead (b : List Byte) : FrameHead :=
  if be16 b 12 = 0x8100 then ⟨true, be16 b 14 % 4096, be16 b 14 / 8192, be16 b 16, 18⟩
  else ⟨false, 0, 0, be16 b 12, 14⟩

/-! ### Receive rules (R342 to R345) -/

/-- The six words of a rule. -/
def State.ruleWords (s : State) (m r : Nat) : List Nat := (List.range 6).map (fun i => s.rd (Reg.MAC_RULE_CTL m r + 4 * i))

def State.putRule (s : State) (m r : Nat) (ws : List Nat) : State :=
  forRange 0 6 (fun i s => s.wr (Reg.MAC_RULE_CTL m r + 4 * i) (nth ws i 0)) s

/-- A rule matches a frame. -/
def ruleMatches (ws : List Nat) (b : List Byte) : Bool :=
  let c := nth ws 0 0
  let vt := nth ws 1 0
  let da := nth ws 2 0 % 65536 * 2 ^ 32 + nth ws 3 0
  let mask := nth ws 4 0 % 65536 * 2 ^ 32 + nth ws 5 0
  let h := frameHead b
  let pm := bitsN c 22 20
  c.testBit 31 && (be48 b 0 &&& mask) == (da &&& mask) &&
    (match bitsN c 29 28 with
      | 0 => true
      | 1 => !h.tagged
      | 2 => h.tagged && h.vid == bitsN vt 11 0
      | _ => h.tagged) &&
    (h.pcp &&& pm) == (bitsN c 26 24 &&& pm) && (!c.testBit 27 || h.etype == bitsN vt 31 16)

/-- The present rules of a port, and the longest frame it takes. -/
def State.macNow (s : State) (m : Nat) : MacPrior :=
  ⟨s.now, s.fld (Reg.MAC_CFG m) Fl.MAC_CFG_MAX_LEN, (List.range (macRules m)).map (fun r => s.ruleWords m r)⟩

/-- Picoseconds per bit at a port's speed. -/
def State.bitPs (s : State) (m : Nat) : Nat :=
  if m = 2 then (match s.macSpeed m with | 0 => 100000 | 1 => 10000 | _ => 1000)
  else if s.macSpeed m = 1 then 40 else 100

/-- When a frame of `n` bytes that ends now began, preamble and SFD counted. -/
def State.frameStart (s : State) (m n : Nat) : Nat := s.now - ceilDiv ((n + 8) * 8 * s.bitPs m) 1000

/-- What a frame that began at a time runs under: no rule set and no length changes within a frame (R344, R355). -/
def State.macAt (s : State) (m start : Nat) : MacPrior :=
  (((Tab.at s.mac.prior [] m).filter (fun x => decide (start < x.till))).getLast?).getD (s.macNow m)

/-- Keep what frames that have begun run under, before it changes; the longest frame takes less than 10 ms. -/
def State.macKeep (s : State) (m : Nat) : State :=
  let l := s.macNow m :: (Tab.at s.mac.prior [] m).filter (fun x => decide (s.now < x.till + 10000000))
  { s with mac.prior := Tab.put s.mac.prior m l }

/-- The first of a port's rules that matches; rule 30 of a media MAC only while the unit holds the rein (R345). -/
def State.ruleFor (s : State) (m : Nat) (rules : List (List Nat)) (b : List Byte) : Option (Nat × List Nat) :=
  (((List.range (macRules m)).zip rules).find? (fun e =>
    ruleMatches e.2 b && (m == 2 || e.1 != 30 || s.holds)))

/-- Swap a port's staged rules into force (R344). -/
def State.ruleSwap (s : State) (m : Nat) : State :=
  forRange 0 (macFwRule m) (fun r s => s.putRule m r (Tab.at s.mac.staged [] (32 * m + r))) (s.macKeep m)

/-- The words of a firmware rule (R345). -/
def fwRule (da mask etype queue : Nat) : List Nat :=
  [2 ^ 31 + maskBit 27 (etype != 0) + queue, etype * 65536, da / 2 ^ 32, da % 2 ^ 32, mask / 2 ^ 32, mask % 2 ^ 32]

/-- Firmware loads its rules (R345); `ident` is the pair identity's address where one is set. -/
def State.loadFwRules (s : State) (ident : Option Nat) : State :=
  let all := 0xFFFFFFFFFFFF
  let media (s : State) (m : Nat) : State :=
    let s := s.putRule m 24 (fwRule (Config.unitMac m) all 0 8)
    let s := s.putRule m 25 (fwRule all all 0 0)
    let s := s.putRule m 26 (fwRule 0x011B19000000 all 0x88F7 1)
    let s := s.putRule m 27 (fwRule 0x0180C200000E all 0x88F7 1)
    let s := s.putRule m 28 (fwRule 0x01005E000000 0xFFFFFF800000 0 8)
    let s := s.putRule m 29 (fwRule 0x333300000000 0xFFFF00000000 0 8)
    match ident with
    | some a => s.putRule m 30 (if s.paired then fwRule a all 0 8 else [0, 0, 0, 0, 0, 0])
    | none => s.putRule m 30 [0, 0, 0, 0, 0, 0]
  let s := media (media s 0) 1
  let s := s.putRule 2 4 (fwRule (Config.unitMac 2) all 0 0)
  let s := s.putRule 2 5 (fwRule all all 0 0)
  let s := s.putRule 2 6 (fwRule 0x01005E000000 0xFFFFFF800000 0 1)
  s.putRule 2 7 (fwRule 0x333300000000 0xFFFF00000000 0 1)

/-! ### Timestamps (R350, R351) -/

/-- Ingress and egress constants; at 10 and 100 Mb/s the spec states none: a free value. -/
def State.tsConst (s : State) (m : Nat) (egress : Bool) : Int × State :=
  if m = 2 then
    if s.macSpeed m = 2 then (if egress then 176 else 312, s)
    else (Config.freeInt s.freeCtr, { s with freeCtr := s.freeCtr + 1 })
  else if s.macSpeed m = 1 then (if egress then 31 else 38, s)
  else (if egress then 74 else 91, s)

/-- Keep an egress timestamp, or lose it where the FIFO is full. -/
def State.storeStamp (s : State) (m tag stamp : Nat) : State :=
  let l := Tab.at s.mac.txts [] m
  if 64 ≤ l.length then
    ((s.setFlag (Reg.MAC_TXTS_STAT m) Fl.MAC_TXTS_STAT_OVF true).macBump m 22).irq (Reg.MAC_IRQ_STAT m) Fl.MAC_IRQ_STAT_TS_OVF
  else { s with mac.txts := Tab.put s.mac.txts m (l ++ [(tag % 65536, stamp)]) }

/-- Pop the timestamp FIFO into `W0` to `W3`. -/
def State.popStamp (s : State) (m : Nat) : State :=
  match Tab.at s.mac.txts [] m with
  | [] => forRange 0 4 (fun i s => s.wr (Reg.MAC_TXTS_W0 m + 4 * i) 0) s
  | (tag, t) :: l =>
    let s := { s with mac.txts := if l.isEmpty then Tab.del s.mac.txts m else Tab.put s.mac.txts m l }
    let sec := t / 1000000000
    (((s.wr (Reg.MAC_TXTS_W0 m) (2 ^ 31 + tag)).wr (Reg.MAC_TXTS_W1 m) (t % 1000000000)).wr (Reg.MAC_TXTS_W2 m)
      (sec % 2 ^ 32)).wr (Reg.MAC_TXTS_W3 m) (sec / 2 ^ 32 % 65536)

/-- `TXTS_POP` (R351). -/
def execTxtsPop (m t : Nat) (s : State) : Out :=
  let s := (s.atTime t).popStamp m
  .next (s.readReturns (s.rd (Reg.MAC_TXTS_W0 m)))

/-! ### Reception (R340) -/

/-- A MAC control frame (R349). -/
def State.controlFrame (s : State) (m : Nat) (b : List Byte) : State :=
  let h := frameHead b
  let da := be48 b 0
  if be16 b h.off = 1 ∧ (da = 0x0180C2000001 ∨ da = Config.unitMac m) then
    if s.macHalf m then s.macBump m 10
    else
    let s := (s.macBump m 10).irq (Reg.MAC_IRQ_STAT m) Fl.MAC_IRQ_STAT_PAUSE_RX
    let quanta := be16 b (h.off + 2)
    { s with mac.pause := if quanta = 0 then Tab.del s.mac.pause m
        else Tab.put s.mac.pause m (s.now + ceilDiv (quanta * 512 * s.bitPs m) 1000) }
  else s.macBump m 11

/-- Queue a frame that passed the checks before the last (R340, R342). -/
def State.queueFrame (s : State) (m q rule : Nat) (b : List Byte) (full : Bool) (cap mt : Nat) : State :=
  if full || !s.flag (Reg.MAC_RXQ m q) Fl.MAC_RXQ_EN then
    ((s.setFlag (Reg.MAC_RXQ m q) Fl.MAC_RXQ_DROP true).macBump m 8).irq (Reg.MAC_IRQ_STAT m) Fl.MAC_IRQ_STAT_QDROP
  else
    let s := (s.macBump m 0).macCount m 1 b.length
    let (k, s) := s.tsConst m false
    let stamp := ((cap : Int) - k + s.fldS (Reg.MAC_TS_ADJ m) Fl.MAC_TS_ADJ_ING_ADJ).toNat
    if toStream m q then
      let i := 32 * m + q
      { s with mac.rxq := Tab.put s.mac.rxq i (Tab.at s.mac.rxq [] i ++ [⟨b, rule, stamp, mt, s.frameStart m b.length⟩]) }
    else s

/-- `FRAME_RECEIVED` (R340): `bytes` run from the destination address to the FCS; `bad` tells a coding error, `odd` a
non-integral number of octets, `noRoom` that the FIFO could not hold the frame, `full` that its queue is full; `corr` and
`uncorr` count FEC codewords since the last frame; `cap` is the local time captured and `mt` the media time in 1/256
sample. -/
def execFrameReceived (m : Nat) (bytes : List Byte) (bad odd noRoom full : Bool) (corr uncorr cap mt t : Nat) (s : State) : Out :=
  let s := s.atTime t
  if !s.macOn m || !s.flag (Reg.MAC_CFG m) Fl.MAC_CFG_RX_EN then .next s
  else
    let s := if m = 2 then s else (s.macCount m 12 corr).macCount m 13 uncorr
    let n := bytes.length
    let s := s.bwBytes (48 + 2 * m) n
    let under := s.macAt m (s.frameStart m n)
    if noRoom then .next ((s.macBump m 9).irq (Reg.MAC_IRQ_STAT m) Fl.MAC_IRQ_STAT_FIFO_DROP)
    else if bad then .next (s.macBump m 5)
    else if n < 64 then .next (s.macBump m 2)
    else if under.maxLen < n then .next (s.macBump m 4)
    else if odd ∨ crc32 (bytes.take (n - 4)) ≠ u32 bytes (n - 4) then .next (s.macBump m 3)
    else if (frameHead bytes).etype = 0x8808 then .next (s.controlFrame m bytes)
    else
      match s.ruleFor m under.rules bytes with
      | some (r, ws) =>
        let c := nth ws 0 0
        if c.testBit 30 then .next (s.macBump m 7)
        else .next (s.queueFrame m (bitsN c 4 0) r bytes full cap mt)
      | none =>
        let s := s.macBump m 6
        if s.flag (Reg.MAC_CFG m) Fl.MAC_CFG_DFLT_DROP then .next s
        else .next (s.queueFrame m (s.fld (Reg.MAC_CFG m) Fl.MAC_CFG_DFLT_Q) 255 bytes full cap mt)

/-! ### PAUSE and links (R337, R349) -/

def State.macPaused (s : State) (m : Nat) : Bool :=
  match Tab.look s.mac.pause m with
  | some e => decide (s.now < e)
  | none => false

/-- `PAUSE_EXPIRY` (R349). -/
def execPauseExpiry (m t : Nat) (s : State) : Out :=
  let s := s.atTime t
  if s.macPaused m then .next s else .next { s with mac.pause := Tab.del s.mac.pause m }

/-- Set a port's `UP`; a change raises `LINK`. -/
def State.setUp (s : State) (m : Nat) (up : Bool) : State :=
  if s.macUp m = up then s
  else (s.setFlag (Reg.MAC_LINK_STAT m) Fl.MAC_LINK_STAT_UP up).irq (Reg.MAC_IRQ_STAT m) Fl.MAC_IRQ_STAT_LINK

/-- `LINK_CHANGE` (R337, R338): the conditions the PCS, the FEC and the reconciliation sublayer of a media port see, or the
in-band status of MAC M. -/
def execLinkChange (m : Nat) (lock hiBer localF remoteF fecLock inbUp : Bool) (inbSpeed : Nat) (inbFull : Bool) (t : Nat)
    (s : State) : Out :=
  let s := s.atTime t
  if !s.macOn m then .next s
  else if m = 2 then
    let s := s.setFld (Reg.MAC_LINK_STAT m) Fl.MAC_LINK_STAT_INB_SPEED inbSpeed
    let s := s.setFlag (Reg.MAC_LINK_STAT m) Fl.MAC_LINK_STAT_INB_FULL inbFull
    .next (s.setUp m inbUp).ptpFollowPort
  else
    let a := Reg.MAC_LINK_STAT m
    let began := (hiBer && !s.flag a Fl.MAC_LINK_STAT_HI_BER) || (localF && !s.flag a Fl.MAC_LINK_STAT_LOCAL_FAULT) ||
      (remoteF && !s.flag a Fl.MAC_LINK_STAT_REMOTE_FAULT)
    let s := ((((s.setFlag a Fl.MAC_LINK_STAT_BLOCK_LOCK lock).setFlag a Fl.MAC_LINK_STAT_HI_BER hiBer).setFlag a
      Fl.MAC_LINK_STAT_LOCAL_FAULT localF).setFlag a Fl.MAC_LINK_STAT_REMOTE_FAULT remoteF).setFlag a
      Fl.MAC_LINK_STAT_FEC_LOCK fecLock
    let s := if began then s.irq (Reg.MAC_IRQ_STAT m) Fl.MAC_IRQ_STAT_FAULT else s
    let fec := s.flag (Reg.MAC_CFG m) Fl.MAC_CFG_FEC && s.macSpeed m == 1
    .next (s.setUp m (lock && !hiBer && (!fec || fecLock) && !localF && !remoteF)).ptpFollowPort

/-! ### Transmission (R346 to R352) -/

/-- A frame as sent: padded to 60 bytes, with its FCS. -/
def framed (b : List Byte) : List Byte :=
  let x := b ++ List.replicate (60 - b.length) 0#8
  x ++ by4 (crc32 x)

/-- Count a frame whose last bit has left. -/
def State.macSettle (s : State) (m : Nat) : State :=
  match Tab.look s.mac.sending m with
  | some x =>
    match x.endAt with
    | some e =>
      if e ≤ s.now then
        let b := framed x.frame.bytes
        let s := ((s.macBump m 14).macCount m 15 b.length).bwBytes (49 + 2 * m) b.length
        let s := if x.cols = 1 then s.macBump m 17 else if 1 < x.cols then s.macBump m 18 else s
        { s with mac.sending := Tab.del s.mac.sending m, mac.wire := Tab.put s.mac.wire m b }
      else s
    | none => s
  | none => s

/-- A queue may start a frame now: served, not held by PAUSE nor by the rein (R346, R347, R349). -/
def State.txReady (s : State) (m q : Nat) : Bool :=
  let r := s.rd (Reg.MAC_TXQ m q)
  match Tab.at s.mac.txq [] (8 * m + q) with
  | [] => false
  | f :: _ =>
    r.testBit 31 && !(s.macPaused m && r.testBit 30) && !(s.fencedPins && (f.ident || (m != 2 && decide (q < 4))))

/-- A frame stands at the head of a transmit queue: while the link is not up it is discarded, whatever holds its queue (R348). -/
def State.txHead (s : State) (m q : Nat) : Bool := !(Tab.at s.mac.txq [] (8 * m + q)).isEmpty

/-- Begin to send a frame: its timestamp is taken when its first symbol leaves (R351). -/
def State.sendFrame (s : State) (m q cols cap : Nat) (f : TxFrame) (before deferred : Bool) : State :=
  let s := if deferred && !before && s.macHalf m then s.macBump m 21 else s
  let b := framed f.bytes
  let ends := s.now + ceilDiv ((b.length + 8) * 8 * s.bitPs m) 1000
  let s := { s with mac.sending := Tab.put s.mac.sending m ⟨q, f, before || deferred, cols, some ends⟩ }
  match f.tag with
  | some tag =>
    let (k, s) := s.tsConst m true
    s.storeStamp m tag ((cap : Int) + k + s.fldS (Reg.MAC_TS_ADJ m) Fl.MAC_TS_ADJ_EGR_ADJ).toNat
  | none => s

/-- Take the head of a transmit queue. -/
def State.txTake (s : State) (m q : Nat) : State :=
  let l := (Tab.at s.mac.txq [] (8 * m + q)).drop 1
  { s with mac.txq := if l.isEmpty then Tab.del s.mac.txq (8 * m + q) else Tab.put s.mac.txq (8 * m + q) l }

/-- `FRAME_TRANSMIT` (R346 to R348, R352): `deferred` says that half duplex had to defer, `cap` is the local time captured. -/
def execFrameTransmit (m : Nat) (deferred : Bool) (cap t : Nat) (s : State) : Out :=
  let s := (s.atTime t).macSettle m
  if !s.macOn m || !s.flag (Reg.MAC_CFG m) Fl.MAC_CFG_TX_EN || s.mac.backoff.contains m then .next s
  else
    match Tab.look s.mac.sending m with
    | some x =>
      match x.endAt with
      | some _ => .next s
      | none => .next (s.sendFrame m x.q x.cols cap x.frame x.defer deferred)
    | none =>
      match (List.range (macTxQueues m)).find? (fun q => s.txReady m q || (!s.macUp m && s.txHead m q)) with
      | none => .next s
      | some q =>
        match Tab.at s.mac.txq [] (8 * m + q) with
        | [] => .next s
        | f :: _ =>
          let s := s.txTake m q
          if !s.macUp m || decide (s.fld (Reg.MAC_CFG m) Fl.MAC_CFG_MAX_LEN < (framed f.bytes).length) then
            .next (s.macBump m 16)
          else .next (s.sendFrame m q 0 cap f false deferred)

/-- `COLLISION` (R352) `bits` bit times into the frame. -/
def execCollision (m bits t : Nat) (s : State) : Out :=
  let s := (s.atTime t).macSettle m
  match Tab.look s.mac.sending m with
  | none => .next s
  | some x =>
    if !s.macHalf m || x.endAt.isNone then .next s
    else if 512 ≤ bits then
      let s := { s with mac.sending := Tab.del s.mac.sending m }
      .next ((s.macBump m 19).irq (Reg.MAC_IRQ_STAT m) Fl.MAC_IRQ_STAT_LATE_COL)
    else if x.cols = 15 then
      let s := { s with mac.sending := Tab.del s.mac.sending m }
      .next ((s.macBump m 20).irq (Reg.MAC_IRQ_STAT m) Fl.MAC_IRQ_STAT_EXCESS_COL)
    else
      .next { s with
        mac.sending := Tab.put s.mac.sending m { x with cols := x.cols + 1, endAt := none }
        mac.backoff := m :: s.mac.backoff.filter (· != m) }

/-- `BACKOFF_EXPIRY` (R352). -/
def execBackoffExpiry (m t : Nat) (s : State) : Out :=
  let s := s.atTime t
  .next { s with mac.backoff := s.mac.backoff.filter (· != m) }

/-- Queue a frame for transmission. -/
def State.txPut (s : State) (m q : Nat) (f : TxFrame) : State :=
  { s with mac.txq := Tab.put s.mac.txq (8 * m + q) (Tab.at s.mac.txq [] (8 * m + q) ++ [f]) }

/-! ### MDIO (R338, R355) -/

/-- Start an MDIO frame with a value of `MACM_MDIO`. -/
def State.mdioGo (s : State) (v : Nat) : State := s.wr (Reg.MAC_MDIO 2) (setBitN (setBitsN v 17 16 0) 31 true)

/-- `MDIO_GO` with the value written (R355); a write while a frame runs starts none. -/
def execMdioGo (v t : Nat) (s : State) : Out :=
  let s := s.atTime t
  if s.flag (Reg.MAC_MDIO 2) Fl.MAC_MDIO_GO ∨ v.testBit 31 = false then .next s else .next (s.mdioGo v)

/-- `MDIO_FRAME_DONE` (R355): `data` is what the PHY returned; a command that waits for it is answered. -/
def rowMdioFrameDone (data t : Nat) (s : State) : Out :=
  let s := s.atTime t
  if !s.flag (Reg.MAC_MDIO 2) Fl.MAC_MDIO_GO then .next s
  else
    let op := s.fld (Reg.MAC_MDIO 2) Fl.MAC_MDIO_OP
    let read := if s.flag (Reg.MAC_MDIO 2) Fl.MAC_MDIO_C45 then op == 3 else op == 2
    let s := s.setFlag (Reg.MAC_MDIO 2) Fl.MAC_MDIO_GO false
    let s := if read then s.setFld (Reg.MAC_MDIO 2) Fl.MAC_MDIO_DATA data else s
    .next (s.finishHeld 1 stOK (by2 (s.fld (Reg.MAC_MDIO 2) Fl.MAC_MDIO_DATA)))

/-! ### Register side effects -/

/-- `MAC_STAT_READ` (R357). -/
def execMacStatRead (m k t : Nat) (s : State) : Out :=
  let s := (s.atTime t).macSettle m
  .next ((s.macStatRead m k).readReturns (Tab.at s.mac.stats 0 (32 * m + k) % 2 ^ 32))

/-- `MAC_RULE_GO` (R344). -/
def execMacRuleGo (m t : Nat) (s : State) : Out :=
  let s := s.atTime t
  if m < 3 then .next (s.ruleSwap m) else .next s

/-! ### Commands (R358) -/

def specNetPortSet : CmdSpec := cmdRow 0x0301 0 false 12 12 fwModes true
def specNetRuleSet : CmdSpec := cmdRow 0x0302 0 false 28 28 fwModes true
def specNetRuleCommit : CmdSpec := cmdRow 0x0303 0 false 4 4 fwModes true
def specNetTxqSet : CmdSpec := cmdRow 0x0304 0 false 8 8 fwModes true
def specNetLinkQuery : CmdSpec := cmdRow 0x0305 2 false 4 4 fwModes false
def specNetStats : CmdSpec := cmdRow 0x0306 2 false 4 4 fwModes false
def specNetMdio : CmdSpec := cmdRow 0x0307 0 false 8 8 fwModes true

def cmdNetPortSet (p : Packet) (s : State) : CmdRes :=
  let b := p.params
  let m := u8 b 0
  let cfg := u32 b 4
  let adj := u32 b 8
  let sp := bitsN cfg 19 18
  let len := bitsN cfg 13 0
  let bad := !rsvOk (Reg.MAC_CFG 0) cfg || decide (len < 1518) || decide (9216 < len) || bitsN adj 15 2 == 8192 ||
    (if m = 2 then sp == 3 || (cfg.testBit 17 && sp == 2) || decide (8 ≤ bitsN cfg 28 24) else decide (1 < sp))
  if 3 ≤ m ∨ !zeroAt b 1 3 ∨ bad then .fail s stBAD_PARAM []
  else
    -- fields that a port lacks ignore writes (R355)
    let cfg' := if m = 2 then setBitN cfg 16 false else setBitN cfg 17 false
    let adj' := if m = 2 then adj else setBitsN adj 1 0 0
    let moved := sp != s.macSpeed m || cfg'.testBit 16 != s.flag (Reg.MAC_CFG m) Fl.MAC_CFG_FEC
    let s := if len = s.fld (Reg.MAC_CFG m) Fl.MAC_CFG_MAX_LEN then s else s.macKeep m
    let s := (s.wr (Reg.MAC_CFG m) cfg').wr (Reg.MAC_TS_ADJ m) adj'
    .ok (if moved then (s.setUp m false).ptpFollowPort else s) []
/-- `NET_PORT_SET` (R336 to R339, R350). -/
def execNetPortSet (p : Packet) (s : State) : Out := runPacket specNetPortSet p (cmdNetPortSet p) s

def cmdNetRuleSet (p : Packet) (s : State) : CmdRes :=
  let b := p.params
  let m := u8 b 0
  let r := u8 b 1
  let ws := (List.range 6).map (fun i => u32 b (4 + 4 * i))
  let ok := (List.range 6).all (fun i => rsvOk (Reg.MAC_RULE_CTL 0 0 + 4 * i) (nth ws i 0))
  if 3 ≤ m ∨ macFwRule m ≤ r ∨ u16 b 2 ≠ 0 ∨ !ok ∨ macRxQueues m ≤ bitsN (nth ws 0 0) 4 0 then .fail s stBAD_PARAM []
  else .ok { s with mac.staged := Tab.put s.mac.staged (32 * m + r) ws } []
/-- `NET_RULE_SET` (R344, R345, R356). -/
def execNetRuleSet (p : Packet) (s : State) : Out := runPacket specNetRuleSet p (cmdNetRuleSet p) s

def cmdNetRuleCommit (p : Packet) (s : State) : CmdRes :=
  let b := p.params
  let mask := u8 b 0
  if 8 ≤ mask ∨ !zeroAt b 1 3 then .fail s stBAD_PARAM []
  else .ok (forRange 0 3 (fun m s => if mask.testBit m then s.ruleSwap m else s) s) []
/-- `NET_RULE_COMMIT` (R344): the swap lies between frames, before the next that arrives. -/
def execNetRuleCommit (p : Packet) (s : State) : Out := runPacket specNetRuleCommit p (cmdNetRuleCommit p) s

def cmdNetTxqSet (p : Packet) (s : State) : CmdRes :=
  let b := p.params
  let m := u8 b 0
  let q := u8 b 1
  if 3 ≤ m ∨ macTxQueues m ≤ q ∨ u16 b 2 ≠ 0 ∨ u32 b 4 % 2 ^ 28 ≠ 0 then .fail s stBAD_PARAM []
  else .ok (s.cfgWrite (Reg.MAC_TXQ m q) (u32 b 4)) []
/-- `NET_TXQ_SET` (R346, R349). -/
def execNetTxqSet (p : Packet) (s : State) : Out := runPacket specNetTxqSet p (cmdNetTxqSet p) s

/-- Views of the MAC blocks (R355, R357). -/
def State.liveMac (s : State) (a : Nat) : Nat :=
  let m := (a - Reg.MAC_IRQ_STAT 0) / 0x100000
  let o := a % 0x100000
  if o = 0x1C then
    match Tab.look s.mac.pause m with
    | some e => min 65535 (ceilDiv ((e - s.now) * 1000) (512 * s.bitPs m))
    | none => 0
  else if o = 0x30 then s.rd a + (Tab.at s.mac.txts [] m).length
  else if 0x80 ≤ o ∧ o < 0xA0 then s.rd a + maskBit 29 (s.macPaused m && (s.rd a).testBit 30)
  else if 0x100 ≤ o ∧ o < 0x180 then s.rd a + min 65535 (Tab.at s.mac.rxq [] (32 * m + (o - 0x100) / 4)).length
  else if 0x800 ≤ o ∧ o < 0x800 + 8 * 23 ∧ o % 8 = 0 then Tab.at s.mac.stats 0 (32 * m + (o - 0x800) / 8) % 2 ^ 32
  else s.rd a

def cmdNetLinkQuery (p : Packet) (s : State) : CmdRes :=
  let b := p.params
  let m := u8 b 0
  if 3 ≤ m ∨ !zeroAt b 1 3 then .fail s stBAD_PARAM []
  else .ok s ([Reg.MAC_CFG m, Reg.MAC_LINK_STAT m, Reg.MAC_PAUSE_STAT m, Reg.MAC_TXTS_STAT m].flatMap (fun a => by4 (s.liveMac a)))
/-- `NET_LINK_QUERY` (R358). -/
def execNetLinkQuery (p : Packet) (s : State) : Out := runPacket specNetLinkQuery p (cmdNetLinkQuery p) s

def cmdNetStats (p : Packet) (s : State) : CmdRes :=
  let b := p.params
  let m := u8 b 0
  if 3 ≤ m ∨ !zeroAt b 1 3 then .fail s stBAD_PARAM []
  else
    let s := s.macSettle m
    let res := (List.range 23).flatMap (fun k => by8 (Tab.at s.mac.stats 0 (32 * m + k)))
    .ok { s with mac.stats := s.mac.stats.filter (fun e => e.1 / 32 != m) } res
/-- `NET_STATS` (R357, R358). -/
def execNetStats (p : Packet) (s : State) : Out := runPacket specNetStats p (cmdNetStats p) s

def cmdNetMdio (p : Packet) (s : State) : CmdRes :=
  let b := p.params
  let v := u32 b 4
  let op := bitsN v 29 28
  if u8 b 0 ≠ 2 ∨ !zeroAt b 1 3 ∨ !rsvOk (Reg.MAC_MDIO 2) v ∨ v.testBit 31 = false ∨
      (if v.testBit 30 then op = 2 else op = 0 ∨ op = 3) then .fail s stBAD_PARAM []
  else .hold (s.mdioGo v) 1 0
/-- `NET_MDIO` (R338, R355, R358): the reply waits for the frame's end. -/
def execNetMdio (p : Packet) (s : State) : Out := runPacket specNetMdio p (cmdNetMdio p) s

end Sys2Proof.Machine
end

