-- ==== Sys2Proof/Machine/Strm.lean ====
section
/-!
DEFINITION. Media streams (R359 to R384): classification, placement, folio close, transmission, and the commands.
-/

namespace Sys2Proof.Machine

/-! ### Packets (R360, R362) -/

/-- An IP packet: version 6, source and destination as the 16-byte fields of R384, protocol, fragment marks (some fragment,
the first one), and payload. -/
structure IpPkt where
  v6 : Bool
  src : List Byte
  dst : List Byte
  proto : Nat
  frag : Bool
  first : Bool
  body : List Byte

/-- Pad an address to 16 bytes. -/
def addr16 (b : List Byte) : List Byte := b ++ List.replicate (16 - b.length) 0#8

/-- Walk IPv6 extension headers: protocol reached, fragment marks, and the rest. -/
def ip6Walk : Nat → Nat → List Byte → Bool × Bool → Nat × (Bool × Bool) × List Byte
  | 0, p, b, f => (p, f, b)
  | n + 1, p, b, f =>
    if p = 44 then ip6Walk n (u8 b 0) (b.drop 8) (true, decide (be16 b 2 / 8 = 0))
    else if p = 0 ∨ p = 43 ∨ p = 60 then ip6Walk n (u8 b 0) (b.drop (8 * (u8 b 1 + 1))) f
    else (p, f, b)

/-- The IP packet in a frame, where its type is IP. -/
def ipOf (b : List Byte) : Option IpPkt :=
  let h := frameHead b
  let x := (b.take (b.length - 4)).drop h.off
  if h.etype = 0x0800 ∧ u8 x 0 / 16 = 4 then
    let ihl := u8 x 0 % 16 * 4
    let fo := be16 x 6
    some ⟨false, addr16 (slice x 12 4), addr16 (slice x 16 4), u8 x 9, fo % 8192 != 0 || fo.testBit 13, fo % 8192 == 0,
      (x.take (be16 x 2)).drop ihl⟩
  else if h.etype = 0x86DD ∧ u8 x 0 / 16 = 6 then
    let (p, f, body) := ip6Walk 8 (u8 x 6) ((x.drop 40).take (be16 x 4)) (false, false)
    some ⟨true, slice x 8 16, slice x 24 16, p, f.1, f.2, body⟩
  else none

/-- Ones' complement sum of 16-bit words. -/
def onesSum : List Byte → Nat → Nat
  | [], a => a
  | [x], a => a + x.toNat * 256
  | x :: y :: r, a => onesSum r (a + x.toNat * 256 + y.toNat)

/-- Fold a sum to 16 bits. -/
def foldSum (x : Nat) : Nat :=
  let y := x % 65536 + x / 65536
  y % 65536 + y / 65536

/-- The pseudo-header of UDP. -/
def pseudo (v6 : Bool) (src dst : List Byte) (len : Nat) : List Byte :=
  if v6 then src ++ dst ++ beBytes 4 len ++ beBytes 4 17 else src.take 4 ++ dst.take 4 ++ beBytes 2 17 ++ beBytes 2 len

/-- A datagram's checksum is acceptable: right, or zero on IPv4 (R36, R362). -/
def udpOk (k : IpPkt) : Bool :=
  if be16 k.body 6 = 0 then !k.v6
  else foldSum (onesSum (pseudo k.v6 k.src k.dst (be16 k.body 4) ++ k.body.take (be16 k.body 4)) 0) == 0xFFFF

/-- An RTP packet: payload type, sequence, timestamp, SSRC, payload. -/
structure Rtp where
  pt : Nat
  seq : Nat
  ts : Nat
  ssrc : Nat
  body : List Byte

/-- Parse RTP: CSRC list, extension and padding are skipped (R359). -/
def rtpOf (b : List Byte) : Option Rtp :=
  if b.length < 12 ∨ u8 b 0 / 64 ≠ 2 then none
  else
    let x := b.drop (12 + 4 * (u8 b 0 % 16))
    let x := if (u8 b 0).testBit 4 then x.drop (4 + 4 * be16 x 2) else x
    let x := if (u8 b 0).testBit 5 then x.take (x.length - ((x.getLast?.map (·.toNat)).getD 0)) else x
    some ⟨u8 b 1 % 128, be16 b 2, be32 b 4, be32 b 8, x⟩

/-! ### Streams -/

def Leg.init : Leg := ⟨none, none, 0, false, 0, none, 0, 0, []⟩
def RxStream.init (c : RxCfg) (first : Nat) (past : Option RxPast) : RxStream :=
  ⟨c, first, past, none, [], 16, List.replicate c.chans 0, Leg.init, Leg.init, false, 0, 0, 0⟩

def RxCfg.leg (c : RxCfg) (l : Nat) : LegCfg := if l = 0 then c.a else c.b
def RxStream.leg (x : RxStream) (l : Nat) : Leg := if l = 0 then x.a else x.b
def RxStream.setLeg (x : RxStream) (l : Nat) (g : Leg) : RxStream := if l = 0 then { x with a := g } else { x with b := g }

def State.setRx (s : State) (n : Nat) (x : RxStream) : State := { s with strm.rx := Tab.put s.strm.rx n x }

/-- Modes in which the engine places and closes (R379). -/
def strmModes : List Nat := [mIDLE, mRENDER, mSTANDBY, mRESYNC, mMEASURE, mSERVICE]

/-- A sample in Q5.27 of a payload (R6). -/
def wireSample (l24 : Bool) (b : List Byte) (i : Nat) : Int :=
  if l24 then toS 24 (beVal (slice b (3 * i) 3)) * 16 else toS 16 (beVal (slice b (2 * i) 2)) * 4096

/-- The activity bit of a leg (R373). -/
def State.legBit (s : State) (n l : Nat) (on : Bool) : State :=
  let a := if l = 0 then Reg.STRM_RX_ACT_A (n / 32) else Reg.STRM_RX_ACT_B (n / 32)
  s.wr a (setBitN (s.rd a) (n % 32) on)

/-- Counting of sequence numbers (R368). -/
def seqStep (last : Option Nat) (q : Nat) : Option Nat × Nat × Bool :=
  match last with
  | none => (some q, 0, false)
  | some p =>
    let j := (q + 65536 - p) % 65536
    if j = 0 then (last, 0, false) else if j < 32768 then (some q, j - 1, false) else (last, 0, true)

/-- Place a checked packet of stream `n` on leg `l` (R366, R367, R373): `mt` is the receipt in 1/256 sample. -/
def State.placeRtp (s : State) (n l : Nat) (x : RxStream) (r : Rtp) (stamp mt : Nat) : State :=
  let c := x.cfg
  let f : Int := s.folioLen
  let ta : Int := (mt / 256 : Nat)
  let d : Int := toS 32 ((r.ts + 2 ^ 33 - c.tsOff - mt / 256) % 2 ^ 32)
  let m0 : Int := ta + d + c.offset
  let ks := (List.range c.size).map (fun (k : Nat) => (k, m0 + k))
  let isLate (m : Int) : Bool := decide (m < 0) || decide (m / f < s.slot)
  let isEarly (m : Int) : Bool := !isLate m && decide (3072 ≤ m - ta)
  let rest := ks.filter (fun k => !isLate k.2 && !isEarly k.2)
  let new := rest.filter (fun k => (Tab.look x.ring k.2.toNat).isNone)
  let late := ks.any (fun k => isLate k.2)
  let early := ks.any (fun k => isEarly k.2)
  let s := if late then (s.bump Reg.STRM_LATE).irq Reg.STRM_IRQ_STAT Fl.STRM_IRQ_STAT_LATE else s
  let s := if early then s.bump Reg.STRM_EARLY else s
  let s := if !rest.isEmpty && new.isEmpty then s.bump Reg.STRM_DUP else s
  let ring := new.foldl
    (fun (t : Tab (List Int)) k =>
      Tab.put t k.2.toNat ((List.range c.chans).map (fun ch => wireSample c.l24 r.body (k.1 * c.chans + ch)))) x.ring
  let g := x.leg l
  let whole := if rest.isEmpty then g.whole + 1 else 0
  let bad := whole == 16
  let s := if bad then s.irq Reg.STRM_IRQ_STAT Fl.STRM_IRQ_STAT_OFFSET_ERR else s
  -- margin of the earliest sample to the close of its folio
  let margin := ((m0 / f + 1) * f * 256 - (mt : Int)) * 1000000000 / (256 * s.fs)
  let other := (x.leg (1 - l)).recent.find? (fun e => e.1 == r.seq)
  let skew : Option Int := other.map (fun e => if l = 0 then (e.2 : Int) - stamp else (stamp : Int) - e.2)
  let s :=
    match skew with
    | some k =>
      if s.fld Reg.STRM_CFG Fl.STRM_CFG_SKEW_MS * 1000000 < k.natAbs then s.irq Reg.STRM_IRQ_STAT Fl.STRM_IRQ_STAT_SKEW else s
    | none => s
  let g := { g with
    whole := whole
    margin := some (match g.margin with | some y => min y margin | none => margin)
    recent := ((r.seq, stamp) :: g.recent).take 1024
    active := g.active || !rest.isEmpty
    last := if rest.isEmpty then g.last else s.now }
  let x := { x with ring := ring, offErr := x.offErr || bad, skew := skew.getD x.skew, lates := x.lates + b2n late }
  let s := s.setRx n (x.setLeg l g)
  if rest.isEmpty then s else s.legBit n l true

/-- A datagram for a leg (R362). -/
def State.rtpPacket (s : State) (n l : Nat) (x : RxStream) (k : IpPkt) (stamp mt : Nat) : State :=
  let c := x.cfg
  let bad (s : State) : State := s.bump Reg.STRM_BADPKT
  match rtpOf ((k.body.take (be16 k.body 4)).drop 8) with
  | none => bad s
  | some r =>
    if !udpOk k || r.pt != c.pt || r.body.length != c.size * c.chans * (if c.l24 then 3 else 2) then bad s
    else
      let g := x.leg l
      let other := match g.ssrc with
        | some v => v != r.ssrc
        | none => false
      let s := if other then (s.bump Reg.STRM_SSRC).irq Reg.STRM_IRQ_STAT Fl.STRM_IRQ_STAT_SSRC else s
      if other && c.lock then s
      else
        let (q, lost, back) := seqStep (if other then none else g.seq) r.seq
        let s := s.bump Reg.STRM_RX_PKT
        let s := s.count Reg.STRM_LOST lost
        let s := if back then s.bump Reg.STRM_REORDER else s
        let g := { g with ssrc := some r.ssrc, seq := q, pkts := g.pkts + 1, lost := g.lost + lost }
        s.placeRtp n l (x.setLeg l g) r stamp mt

/-- The enabled leg of a stream that a datagram on port `m` is for (R360); a removed stream takes packets to the end of its slot (R24). -/
def State.legFor (s : State) (m : Nat) (k : IpPkt) : Option (Nat × RxStream) :=
  let mine (e : Nat × RxStream) : Bool :=
    let g := e.2.cfg.leg m
    g.on && e.2.cfg.v6 == k.v6 && g.dst == k.dst && g.port == be16 k.body 2 && (!g.filter || g.src == k.src)
  (s.strm.rx.find? (fun e => e.2.gone.isNone && mine e)).or (s.strm.rx.find? (fun e => e.2.gone.any (fun g => decide (s.slot < g)) && mine e))

/-- A frame goes on to firmware, within the rate of R361. -/
def State.fwFrame (s : State) (m : Nat) : State :=
  let ms := s.now / 1000000
  let (w, n) := Tab.at s.strm.fw (0, 0) m
  let n := if w = ms then n else 0
  if max 1 (s.fld Reg.STRM_CFG Fl.STRM_CFG_FW_RATE) ≤ n then
    (s.bump Reg.STRM_FW_LIMIT).irq Reg.STRM_IRQ_STAT Fl.STRM_IRQ_STAT_FW_LIMIT
  else { s with strm.fw := Tab.put s.strm.fw m (ms, n + 1) }

/-- An OMS datagram on media port `m` (R36, R38, R65): discarded without a count on a path that is off, and on a unit that follows; dropped
where it is a fragment or its checksum is wrong. -/
def State.omsArrived (s : State) (m : Nat) (msg : Option (List Byte)) (at' : Nat) : State :=
  if !s.omsPath (m + 1) || s.omsIgnored then s
  else
    match msg with
    | none => s.omsDrop
    | some b => s.queueOms ⟨m + 1, b, at'⟩

/-- Classify a frame of media port `m` (R360). -/
def State.classify (s : State) (m : Nat) (f : RxFrame) : State :=
  let t := (frameHead f.bytes).etype
  if t ≠ 0x0800 ∧ t ≠ 0x86DD ∧ t ≠ 0x0806 then s.bump Reg.STRM_FOREIGN
  else if t = 0x0806 then s.fwFrame m
  else
    match ipOf f.bytes with
    | none => s.bump Reg.STRM_FOREIGN
    | some k =>
      let port := be16 k.body 2
      if k.proto = 1 ∨ k.proto = 2 ∨ k.proto = 58 then s.fwFrame m
      else if k.frag then
        if k.first ∧ k.proto = 17 ∧ port = s.omsPortAt f.start then s.omsArrived m none s.now else s.bump Reg.STRM_BADPKT
      else if k.proto ≠ 17 then s.bump Reg.STRM_FOREIGN
      else
        match s.legFor m k with
        | some (n, x) => if strmModes.contains s.mode then s.rtpPacket n m x k f.stamp f.mt else s
        | none =>
          if port = s.omsPortAt f.start then
            s.omsArrived m (if udpOk k then some ((k.body.take (be16 k.body 4)).drop 8) else none) s.now
          else if port = 319 ∨ port = 320 ∨ (port = s.fld Reg.CMD_CFG Fl.CMD_CFG_UDP_PORT ∧
              s.flag Reg.CMD_CFG (if m = 0 then Fl.CMD_CFG_NET_A else Fl.CMD_CFG_NET_B) = true) then s.fwFrame m
          else s.bump Reg.STRM_FOREIGN

/-- `STREAM_FRAME` (R343, R360): the engine takes the oldest frame of the lowest queue of port `m` that holds one. -/
def execStreamFrame (m t : Nat) (s : State) : Out :=
  let s := s.atTime t
  match (List.range 24).find? (fun q => !(Tab.at s.mac.rxq [] (32 * m + 8 + q)).isEmpty) with
  | none => .next s
  | some q =>
    let i := 32 * m + 8 + q
    match Tab.at s.mac.rxq [] i with
    | [] => .next s
    | f :: fs =>
      let s := { s with mac.rxq := if fs.isEmpty then Tab.del s.mac.rxq i else Tab.put s.mac.rxq i fs }
      if 2 ≤ m then .next s else .next (s.classify m f)

/-- `LEG_DOWN` (R373): leg `leg` of stream `n` has placed nothing for its activity time. -/
def execLegDown (n leg t : Nat) (s : State) : Out :=
  let s := s.atTime t
  match Tab.look s.strm.rx n with
  | none => .next s
  | some x =>
    let g := x.leg leg
    if 2 ≤ leg ∨ !(x.cfg.leg leg).on ∨ !g.active ∨ (s.now - g.last) * s.fs < max (1000000 * s.fs) (4 * x.cfg.size * 1000000000) then
      .next s
    else
      let s := (s.setRx n (x.setLeg leg { g with active := false })).legBit n leg false
      .next (s.irq Reg.STRM_IRQ_STAT Fl.STRM_IRQ_STAT_LEG_DOWN)

/-! ### Folio close (R369 to R371) -/

/-- A product with h[L] = sin²(πL/32), rounded. -/
def fadeLevel (l : Nat) (x : Int) : Int := sat27 (rndShr (x * fxSin2 l 16) 100)

/-- The level indices, last samples and outputs of a folio: the channels share the stream's valid bits. -/
def concealFolio (n f chans lv : Nat) (v : List Int) (ring : Tab (List Int)) : Nat × List Int × List (List Int) :=
  (List.range f).foldl
    (fun (a : Nat × List Int × List (List Int)) i =>
      match Tab.look ring (n * f + i) with
      | some x =>
        let l := min 16 (a.1 + 1)
        (l, x, a.2.2 ++ [x.map (fadeLevel l)])
      | none =>
        let l := a.1 - 1
        (l, a.2.1, a.2.2 ++ [a.2.1.map (fadeLevel l)])) (lv, v, [])
  |> fun r => (r.1, r.2.1, (List.range chans).map (fun c => r.2.2.map (fun x => nth x c 0)))

/-- Both legs of a stream are inactive. -/
def State.legsOff (s : State) (n : Nat) : State := (s.legBit n 0 false).legBit n 1 false

/-- A removed stream's entry goes with its last folio (R377). -/
def State.dropRx (s : State) (k : Nat) : State := ({ s with strm.rx := Tab.del s.strm.rx k } : State).legsOff k

/-- Close folio `n` of stream `k` for `chans` channels with what its ring holds: the samples, the level index and the last samples. -/
def State.closeWith (s : State) (n k chans lv : Nat) (v : List Int) (ring : Tab (List Int)) : State × Nat × List Int × Nat :=
  let f := s.folioLen
  let missing := (List.range f).filter (fun i => (Tab.look ring (n * f + i)).isNone)
  let (lv, v, outs) := concealFolio n f chans lv v ring
  let lost := missing.length * chans
  let s := (List.range chans).foldl (fun s c => s.putIngress n (srcKey 1 k c) (nth outs c [])) s
  if missing.isEmpty then (s, lv, v, 0)
  else
    let s := (s.count Reg.STRM_SUBST lost).irq Reg.STRM_IRQ_STAT Fl.STRM_IRQ_STAT_SUBST
    (s.sched srSUBST n (by2 k ++ leBytes 6 0 ++ by8 (missing.foldl (fun m i => m + 2 ^ i) 0)), lv, v, lost)

/-- Close folio `n` of one receive stream, where this unit decides. The folio that a change does not reach is its predecessor's, whose ring
the change has cleared; a stream that had none closes nothing of it (R24, R377). -/
def State.closeStream (s : State) (n k : Nat) (x : RxStream) : State :=
  let left := x.ring.filter (fun e => decide ((n + 1) * s.folioLen ≤ e.1))
  if x.gone.any (fun g => decide (g ≤ n)) then s.dropRx k
  else if n < x.first then
    let x' := { x with ring := left }
    match x.past with
    | some y =>
      let (s, _, _, lost) := s.closeWith n k y.chans y.level y.v []
      s.setRx k { x' with subst := x.subst + lost }
    | none => s.setRx k x'
  else
    let (s, lv, v, lost) := s.closeWith n k x.cfg.chans x.level x.v x.ring
    s.setRx k { x with ring := left, level := lv, v := v, subst := x.subst + lost }

/-- Close folio `n` of every receive stream (R369); a standby takes the mirror's contents and drops its own (R371). -/
def State.closeStreams (s : State) (n : Nat) : State :=
  if !strmModes.contains s.mode then s
  else
    s.strm.rx.foldl
      (fun s e =>
        match Tab.look s.strm.rx e.1 with
        | none => s
        | some x =>
          -- a standby takes the folio from the mirror, and keeps its own ring in case it must decide (R371, R432)
          if s.leadsAt n then s.closeStream n e.1 x
          else if x.gone.any (fun g => decide (g ≤ n)) then s.dropRx e.1
          else s.setRx e.1 { x with ring := x.ring.filter (fun y => decide (n * s.folioLen ≤ y.1)) }) s

/-! ### Transmission (R374 to R376) -/

/-- The entry that serves emitted folio `n`. -/
def TxStream.at' (x : TxStream) (n : Nat) : Option TxCfg := (x.cfgs.filter (fun e => decide (e.1 ≤ n))).getLast?.bind (·.2)

/-- Ones' complement checksum field. -/
def sumField (b : List Byte) : List Byte := beBytes 2 (0xFFFF - foldSum (onesSum b 0))

/-- MAC address of a multicast group (R376). -/
def groupMac (v6 : Bool) (d : List Byte) : Option Nat :=
  if v6 then (if u8 d 0 = 0xFF then some (0x333300000000 + be32 d 12) else none)
  else (if u8 d 0 / 16 = 14 then some (0x01005E000000 + be32 d 0 % 2 ^ 23) else none)

/-- Bits of a transmit stream's words (R374). -/
def TxCfg.bits (c : TxCfg) : Nat := if c.l24 then 24 else 16

/-- The words of a transmit packet's samples e to e + S − 1, interleaved by channel, and which of them saturated (R205, R374). -/
def State.txWords (s : State) (n e : Nat) (c : TxCfg) : List (Int × Bool) :=
  (List.range c.size).flatMap (fun i => (List.range c.chans).map (fun ch =>
    let src := s.d0Source s.emiCfg (2 ^ 31 + n * 2 ^ 16 + ch) (e + i)
    s.tdmWord c.bits src src.x))

/-- The payload of a transmit packet, big-endian (R359, R374). -/
def State.txPayload (s : State) (n e : Nat) (c : TxCfg) : List Byte :=
  (s.txWords n e c).flatMap (fun x => beBytes (c.bits / 8) (ofS c.bits x.1))

/-- Source addresses of what the unit sends for the pair (R374, R440). -/
def State.srcMac (s : State) (m : Nat) : Nat :=
  match s.pair.ident with
  | some i => if s.paired then i.mac else Config.unitMac m
  | none => Config.unitMac m

def State.srcIp (s : State) (v6 : Bool) (m : Nat) : List Byte :=
  match s.pair.ident with
  | some i => if s.paired then (if v6 then beBytes 16 i.ip6 else beBytes 4 i.ip4) else (Config.unitIp v6 m).take (if v6 then 16 else 4)
  | none => (Config.unitIp v6 m).take (if v6 then 16 else 4)

/-- A transmit packet as an Ethernet frame without FCS. -/
def State.txFrame (s : State) (n e m : Nat) (c : TxCfg) (dst : List Byte) (dmac : Nat) : List Byte :=
  let rtp := [0x80#8] ++ by1 c.pt ++ beBytes 2 ((e / c.size + c.seqBase) % 65536) ++ beBytes 4 ((e + c.tsOff) % 2 ^ 32) ++
    beBytes 4 c.ssrc ++ s.txPayload n e c
  let src := s.srcIp c.v6 m
  let len := 8 + rtp.length
  let udp0 := beBytes 2 c.sport ++ beBytes 2 c.dport ++ beBytes 2 len
  let sum := foldSum (onesSum (pseudo c.v6 (addr16 src) dst len ++ udp0 ++ [0#8, 0#8] ++ rtp) 0)
  let udp := udp0 ++ beBytes 2 (if sum = 0xFFFF then 0xFFFF else 0xFFFF - sum) ++ rtp
  let w := Config.ipWord n e
  let ip :=
    if c.v6 then beBytes 4 (6 * 2 ^ 28 + c.dscp * 2 ^ 22 + w % 2 ^ 20) ++ beBytes 2 len ++ by1 17 ++ by1 c.hops ++ addr16 src ++ dst
    else
      let h1 := [0x45#8] ++ by1 (4 * c.dscp) ++ beBytes 2 (20 + len) ++ beBytes 2 (w / 2 % 65536) ++ beBytes 2 (w % 2 * 2 ^ 14) ++
        by1 c.hops ++ by1 17
      let h2 := src.take 4 ++ dst.take 4
      h1 ++ sumField (h1 ++ h2) ++ h2
  beBytes 6 dmac ++ beBytes 6 (s.srcMac m) ++ (if c.tagged then beBytes 2 0x8100 ++ beBytes 2 c.tag else []) ++
    beBytes 2 (if c.v6 then 0x86DD else 0x0800) ++ ip ++ udp

/-- Queue a stream's packet on one port, or discard it for an unresolved destination. A unit without the rein forms the packet
and keeps it for a takeover within 50 µs (R375, R432). -/
def State.txLeg (s : State) (n e m : Nat) (c : TxCfg) (dst : List Byte) (res : Option Nat) : State :=
  let x := Tab.at s.strm.tx ⟨[], 0, 0⟩ n
  match (groupMac c.v6 dst).orElse (fun _ => res) with
  | none =>
    if !s.holds then s else
    let s := { s with strm.tx := Tab.put s.strm.tx n { x with nores := x.nores + 1 } }
    (s.bump Reg.STRM_TX_NORES).irq Reg.STRM_IRQ_STAT Fl.STRM_IRQ_STAT_TX_NORES
  | some dmac =>
    if !s.holds then
      { s with pair.recent := s.pair.recent.filter (fun (r : Nat × Nat × Nat × TxFrame) => decide (s.now < r.1 + 50000)) ++
          [(s.now, m, c.txq, ⟨s.txFrame n e m c dst dmac, none, s.pair.ident.isSome⟩)] }
    else
    let s := { s with strm.tx := Tab.put s.strm.tx n { x with queued := x.queued + 1 } }
    (s.bump Reg.STRM_TX_PKT).txPut m c.txq ⟨s.txFrame n e m c dst dmac, none, s.paired && s.pair.ident.isSome⟩

/-- `TX_PACKET` (R374, R375): the packet of stream `n` that starts at emission media time `e`; `resA` and `resB` are the MAC
addresses to which firmware has resolved unicast destinations. -/
def execTxPacket (n e : Nat) (resA resB : Option Nat) (t : Nat) (s : State) : Out :=
  let s := s.atTime t
  if !((if s.holds then [mIDLE, mRENDER, mMEASURE] else [mSTANDBY, mRESYNC]).contains s.mode) then .next s
  else
    match Tab.look s.strm.tx n with
    | none => .next s
    | some x =>
      match x.at' (e / s.folioLen - 2) with
      | none => .next s
      | some c =>
        if c.size = 0 ∨ e % c.size ≠ 0 then .next s
        else
          let s := s.outSat (countIf (s.txWords n e c) (·.2))
          let s := if c.portA then s.txLeg n e 0 c c.dstA resA else s
          .next (if c.portB then s.txLeg n e 1 c c.dstB resB else s)

/-! ### Commands (R384) -/

def specStrmRxSet : CmdSpec := cmdRow 0x0310 0 true 84 84 fwModes true
def specStrmTxSet : CmdSpec := cmdRow 0x0311 0 true 64 64 fwModes true
def specStrmRxQuery : CmdSpec := cmdRow 0x0312 2 false 4 4 fwModes false
def specStrmTxQuery : CmdSpec := cmdRow 0x0313 2 false 4 4 fwModes false
def specStrmStats : CmdSpec := cmdRow 0x0314 2 false 0 0 fwModes false

/-- A destination port that a stream may not take. -/
def State.portTaken (s : State) (v : Nat) : Bool :=
  v == 319 || v == 320 || v == s.fld Reg.CMD_CFG Fl.CMD_CFG_UDP_PORT || v == s.fld Reg.OMS_CFG Fl.OMS_CFG_UDP_PORT

/-- The receive entry of a command. -/
def rxCfgOf (b : List Byte) : RxCfg :=
  let f := u8 b 3
  { v6 := f.testBit 2, lock := f.testBit 3, l24 := u8 b 4 == 1, pt := u8 b 5, chans := u8 b 6, size := u8 b 7, offset := u16 b 8,
    tsOff := u32 b 16, a := ⟨f.testBit 0, u16 b 10, slice b 20 16, slice b 52 16, f.testBit 4⟩,
    b := ⟨f.testBit 1, u16 b 12, slice b 36 16, slice b 68 16, f.testBit 5⟩ }

/-- An IPv4 address is followed by zeros. -/
def addrOk (v6 : Bool) (a : List Byte) : Bool := v6 || zeroAt a 4 12

/-- Bytes of a tagged frame of a stream. -/
def strmFrame (v6 l24 : Bool) (chans size : Nat) : Nat :=
  14 + 4 + (if v6 then 40 else 20) + 8 + 12 + size * chans * (if l24 then 3 else 2) + 4

def State.fitsMax (s : State) (m n : Nat) : Bool := decide (n ≤ s.fld (Reg.MAC_CFG m) Fl.MAC_CFG_MAX_LEN)

/-- Largest link offset: 20 ms in samples. -/
def maxOffset (fs : Nat) : Nat := (rndDiv (fs : Int) 50).toNat

/-- A receive entry is admitted (R384). -/
def State.rxOk (s : State) (n : Nat) (b : List Byte) : Bool :=
  let c := rxCfgOf b
  let len := strmFrame c.v6 c.l24 c.chans c.size
  let legOk (m : Nat) : Bool :=
    let g := c.leg m
    !s.portTaken g.port && (!g.on || s.fitsMax m len &&
      !s.strm.rx.any (fun e => e.1 != n && e.2.gone.isNone && (e.2.cfg.leg m).on && (e.2.cfg.leg m).dst == g.dst &&
        e.2.cfg.v6 == c.v6 && (e.2.cfg.leg m).port == g.port))
  decide (n < 256) && decide (u8 b 3 < 64) && decide (u8 b 4 < 2) && decide (96 ≤ c.pt) && decide (c.pt ≤ 127) &&
    decide (1 ≤ c.chans) && decide (c.chans ≤ 64) && decide (1 ≤ c.size) && decide (c.size ≤ 96) &&
    decide (c.offset ≤ maxOffset s.fs) && zeroAt b 14 2 && addrOk c.v6 c.a.dst && addrOk c.v6 c.b.dst && addrOk c.v6 c.a.src &&
    addrOk c.v6 c.b.src && legOk 0 && legOk 1

/-- Streams and channels in use, leaving out one stream (R365). -/
def State.rxUse (s : State) (n : Nat) : Nat × Nat :=
  let l := s.strm.rx.filter (fun e => e.1 != n && e.2.gone.isNone)
  (l.length, (l.map (fun e => e.2.cfg.chans)).sum)

def TxStream.now (x : TxStream) : Option TxCfg := x.cfgs.getLast?.bind (·.2)

def State.txUse (s : State) (n : Nat) : Nat × Nat :=
  let l := (s.strm.tx.filter (fun e => e.1 != n)).filterMap (fun e => e.2.now)
  (l.length, (l.map (·.chans)).sum)

/-- DRAM of a receive stream: a ring of 4096 samples for each channel in wire format, and the valid map (R365). -/
def RxCfg.ringBytes (c : RxCfg) : Nat := c.chans * (4096 * if c.l24 then 3 else 2) + 512

/-- What the stream that is replaced leaves for the folio being captured. -/
def State.rxPast (s : State) (n : Nat) : Option RxPast :=
  match Tab.look s.strm.rx n with
  | some x => if s.slot < x.first then x.past else some ⟨x.cfg.chans, x.level, x.v⟩
  | none => none

def cmdStrmRxSet (p : Packet) (s : State) : CmdRes :=
  let b := p.params
  let n := u16 b 0
  let c := rxCfgOf b
  if 1 < u8 b 2 ∨ 256 ≤ n then .fail s stBAD_PARAM []
  else if u8 b 2 = 1 then
    match Tab.look s.strm.rx n with
    | some x =>
      if x.gone.isSome then .done (s.reply p 0x0310 stOK [])
      else .ok ((s.setRx n { x with gone := some (s.slot + 1) }).unreserve (ownRing n)) []
    | none => .done (s.reply p 0x0310 stOK [])
  else if !s.rxOk n b then .fail s stBAD_PARAM []
  else
    let u := s.rxUse n
    if s.limit 5 < u.1 + 1 then .fail s stNO_RESOURCE [5#8]
    else if s.limit 7 < u.2 + c.chans then .fail s stNO_RESOURCE [7#8]
    else .ok (((s.setRx n (RxStream.init c (s.slot + 1) (s.rxPast n))).legsOff n).reserveNew (ownRing n) c.ringBytes) []
/-- `STRM_RX_SET` with op 0 (R363, R377). -/
def execStrmRxSet (p : Packet) (s : State) : Out := runPacket specStrmRxSet (p.withOp 2 0) (cmdStrmRxSet (p.withOp 2 0)) s
/-- `STRM_RX_SET` with op 1 (R377). -/
def execStrmRxRemove (p : Packet) (s : State) : Out := runPacket specStrmRxSet (p.withOp 2 1) (cmdStrmRxSet (p.withOp 2 1)) s

/-- The transmit entry of a command. -/
def txCfgOf (b : List Byte) : TxCfg :=
  let f := u8 b 3
  { portA := f.testBit 0, portB := f.testBit 1, v6 := f.testBit 2, tagged := f.testBit 3, l24 := u8 b 4 == 1, pt := u8 b 5,
    chans := u8 b 6, size := u8 b 7, dscp := u8 b 8, hops := u8 b 9, txq := u8 b 10, tag := u16 b 12, sport := u16 b 14,
    dport := u16 b 16, ssrc := u32 b 20, tsOff := u32 b 24, seqBase := u16 b 28, dstA := slice b 32 16, dstB := slice b 48 16,
    raw := b }

/-- A transmit entry is admitted (R384). -/
def State.txOk (s : State) (b : List Byte) : Bool :=
  let c := txCfgOf b
  let len := strmFrame c.v6 c.l24 c.chans c.size
  decide (u8 b 3 < 16) && decide (u8 b 4 < 2) && decide (96 ≤ c.pt) && decide (c.pt ≤ 127) && decide (1 ≤ c.chans) &&
    decide (c.chans ≤ 64) && decide (1 ≤ c.size) && decide (c.size ≤ 96) && decide (c.dscp ≤ 63) && decide (1 ≤ c.hops) &&
    decide (c.txq ≤ 3) && u8 b 11 == 0 && !c.tag.testBit 12 && u16 b 18 == 0 && u16 b 30 == 0 && !s.portTaken c.dport &&
    addrOk c.v6 c.dstA && addrOk c.v6 c.dstB && (!c.portA || s.fitsMax 0 len) && (!c.portB || s.fitsMax 1 len)

def State.setTx (s : State) (n : Nat) (c : Option TxCfg) : State :=
  let x := Tab.at s.strm.tx ⟨[], 0, 0⟩ n
  { s with strm.tx := Tab.put s.strm.tx n { x with cfgs := x.cfgs ++ [(s.slot + 1, c)] } }

def cmdStrmTxSet (p : Packet) (s : State) : CmdRes :=
  let b := p.params
  let n := u16 b 0
  let have_ := (Tab.at s.strm.tx ⟨[], 0, 0⟩ n).now.isSome
  if 1 < u8 b 2 ∨ 256 ≤ n then .fail s stBAD_PARAM []
  else if u8 b 2 = 1 then (if have_ then .ok (s.setTx n none) [] else .done (s.reply p 0x0311 stOK []))
  else if !s.txOk b then .fail s stBAD_PARAM []
  else
    let u := s.txUse n
    if s.limit 6 < u.1 + 1 then .fail s stNO_RESOURCE [6#8]
    else if s.limit 8 < u.2 + (txCfgOf b).chans then .fail s stNO_RESOURCE [8#8]
    else .ok (s.setTx n (some (txCfgOf b))) []
/-- `STRM_TX_SET` with op 0 (R364, R377). -/
def execStrmTxSet (p : Packet) (s : State) : Out := runPacket specStrmTxSet (p.withOp 2 0) (cmdStrmTxSet (p.withOp 2 0)) s
/-- `STRM_TX_SET` with op 1 (R384). -/
def execStrmTxRemove (p : Packet) (s : State) : Out := runPacket specStrmTxSet (p.withOp 2 1) (cmdStrmTxSet (p.withOp 2 1)) s

/-- A margin as int32; with no packet since the last query the spec states no value: a free one. -/
def State.marginWord (s : State) (m : Option Int) : List Byte × State :=
  match m with
  | some x => (si4 (satS 32 x), s)
  | none =>
    let (v, s) := s.fresh
    (by4 v, s)

def cmdStrmRxQuery (p : Packet) (s : State) : CmdRes :=
  let b := p.params
  let n := u16 b 0
  match Tab.look s.strm.rx n with
  | none => .fail s stBAD_PARAM []
  | some x =>
    if u16 b 2 ≠ 0 ∨ x.gone.isSome then .fail s stBAD_PARAM []
    else
      let (ma, s) := s.marginWord x.a.margin
      let (mb, s) := s.marginWord x.b.margin
      let res := by4 (b2n x.a.active + 2 * b2n x.b.active + 4 * b2n x.offErr) ++ by4 (x.a.ssrc.getD 0) ++ by4 (x.b.ssrc.getD 0) ++
        ma ++ mb ++ si4 (satS 32 x.skew) ++ by4 x.a.pkts ++ by4 x.b.pkts ++ by4 x.a.lost ++ by4 x.b.lost ++ by4 x.subst ++
        by4 x.lates
      let clr (g : Leg) : Leg := { g with margin := none, pkts := 0, lost := 0 }
      .ok (s.setRx n { x with a := clr x.a, b := clr x.b, offErr := false, subst := 0, lates := 0 }) res
/-- `STRM_RX_QUERY` (R384). -/
def execStrmRxQuery (p : Packet) (s : State) : Out := runPacket specStrmRxQuery p (cmdStrmRxQuery p) s

def cmdStrmTxQuery (p : Packet) (s : State) : CmdRes :=
  let b := p.params
  let x := Tab.at s.strm.tx ⟨[], 0, 0⟩ (u16 b 0)
  match x.now with
  | none => .fail s stBAD_PARAM []
  | some c => if u16 b 2 ≠ 0 then .fail s stBAD_PARAM [] else .ok s (c.raw ++ by4 x.queued ++ by4 x.nores)
/-- `STRM_TX_QUERY` (R384). -/
def execStrmTxQuery (p : Packet) (s : State) : Out := runPacket specStrmTxQuery p (cmdStrmTxQuery p) s

/-- The STRM counters in offset order (R383). -/
def strmCounters : List Nat :=
  [Reg.STRM_RX_PKT, Reg.STRM_TX_PKT, Reg.STRM_BADPKT, Reg.STRM_FOREIGN, Reg.STRM_SSRC, Reg.STRM_LATE, Reg.STRM_EARLY,
   Reg.STRM_DUP, Reg.STRM_LOST, Reg.STRM_REORDER, Reg.STRM_SUBST, Reg.STRM_FW_LIMIT, Reg.STRM_TX_NORES]

def cmdStrmStats (_p : Packet) (s : State) : CmdRes :=
  let (s, bs) := s.takeCounters strmCounters
  .ok s bs
/-- `STRM_STATS` (R383). -/
def execStrmStats (p : Packet) (s : State) : Out := runPacket specStrmStats p (cmdStrmStats p) s

/-- Views of the STRM block (R381). -/
def State.liveStrm (s : State) (a : Nat) : Nat :=
  if a = Reg.STRM_STAT then (s.txUse 256).1 <<< 16 + (s.rxUse 256).1 else s.rd a

end Sys2Proof.Machine
end

