-- ==== Sys2Proof/Machine/FxCore.lean ====
section
/-!
DEFINITION. The effect cores (Effect Cores): encoding, addressing, the pipeline, loops, interrupts, and one meaning per
instruction.
-/

namespace Sys2Proof.Machine

/-! ### Encoding (R476 to R480) -/

/-- Format and opcode of a word: format · 256 + opcode. -/
def fxcCode (w : Nat) : Nat :=
  let f := bitsN w 63 62
  f * 256 + (if f = 0 then bitsN w 61 54 else bitsN w 61 56)

/-- A move field is legal (R466, R477, R480). -/
def moveOk (m : Nat) : Bool :=
  match bitsN m 15 14 with
  | 0 => m == 0
  | 3 => false
  | _ => !m.testBit 1 && (!m.testBit 0 || bitsN m 13 9 % 2 == 0) &&
      !(decide (4 ≤ bitsN m 4 2) && decide (bitsN m 4 2 ≤ 6) && decide (8 ≤ bitsN m 8 5))

/-- Fields of a format C word. -/
def fcD (w : Nat) : Nat := bitsN w 53 49
def fcX (w : Nat) : Nat := bitsN w 48 44
def fcY (w : Nat) : Nat := bitsN w 43 39
def fcA (w : Nat) : Nat := bitsN w 38 37

/-- A format C word is legal. -/
def compOk (w : Nat) : Bool :=
  let o := bitsN w 61 54
  let even := fcX w % 2 == 0 && fcY w % 2 == 0
  bitsN w 36 32 == 0 && moveOk (bitsN w 31 16) && moveOk (bitsN w 15 0) &&
    (if o = 4 ∨ o = 5 then even && fcA w == 0
    else if 6 ≤ o ∧ o ≤ 9 then even && fcA w % 2 == 0
    else decide (o ≤ 3) || (decide (0x10 ≤ o) && decide (o ≤ 0x17)) || (decide (0x20 ≤ o) && decide (o ≤ 0x30)))

/-- A word is legal as far as the word alone shows (R480); what R471, R473 and R475 add depends on the state. -/
def wordOk (w : Nat) : Bool :=
  let o := bitsN w 61 56
  match bitsN w 63 62 with
  | 0 => compOk w
  | 1 =>
    let r := bitsN w 55 51
    bitsN w 50 32 == 0 && (o == 1 || (decide (2 ≤ o) && decide (o ≤ 3) && decide (r < 16)) ||
      (decide (4 ≤ o) && decide (o ≤ 5) && decide (r < 8)) || o == 6 || o == 7)
  | 2 => decide (1 ≤ o) && decide (o ≤ 7) && decide (bitsN w 55 52 ≤ 8)
  | _ =>
    let d := bitsN w 55 48
    let r := bitsN w 47 40
    bitsN w 39 32 == 0 &&
      (match o with
        | 1 => decide (d ≤ 0x5B) && decide (r ≤ 0x5B)
        | 2 => decide (0x20 ≤ d) && decide (d ≤ 0x2F)
        | 3 => decide (d < 32)
        | 4 => decide (r < 32)
        | _ => false)

/-! ### Registers (R461, R462) -/

def rP (k : Nat) : Nat := 0x20 + k
def rM (k : Nat) : Nat := 0x30 + k
def rB (k : Nat) : Nat := 0x40 + k
def rL (k : Nat) : Nat := 0x48 + k
def rLC (k : Nat) : Nat := 0x50 + k
def rLS (k : Nat) : Nat := 0x52 + k
def rLE (k : Nat) : Nat := 0x54 + k
def rLNK : Nat := 0x56
def rIPC : Nat := 0x57
def rICSR : Nat := 0x58
def rICNT : Nat := 0x59
def rICMP : Nat := 0x5A
def rICAUSE : Nat := 0x5B

/-- Width of a register. -/
def regWidth (r : Nat) : Nat :=
  if 0x48 ≤ r ∧ r ≤ 0x4F then 17 else if 0x52 ≤ r ∧ r ≤ 0x57 then 15 else 32

/-- Writes of these registers by formats A and I are seen from the second word after (R472). -/
def delayedReg (r : Nat) : Bool := (decide (0x20 ≤ r) && decide (r ≤ 0x55)) || r == rICMP

def FxCore.rd (k : FxCore) (r : Nat) : Nat := if r = rICNT then k.cnt % 2 ^ 32 else Tab.at k.regs 0 r
def FxCore.rdS (k : FxCore) (r : Nat) : Int := toS 32 (k.rd r)
def FxCore.a (k : FxCore) (i : Nat) : Int := Tab.at k.acc 0 i

def putReg (t : Tab Nat) (r v : Nat) : Tab Nat := Tab.store t 0 r (v % 2 ^ regWidth r)

/-- Bits of `FXC_CSR`. -/
def csrSAT : Nat := 6
def csrAOV : Nat := 7
def csrCFOLD : Nat := 5
def csrIACT : Nat := 11

def FxCore.iact (k : FxCore) : Bool := k.csr.testBit csrIACT
def FxCore.hasVector (k : FxCore) : Bool := k.prog.vector != 0xFFFF

/-! ### Addressing (R466 to R468) -/

/-- Fold an offset into a buffer of `l` elements, and whether one length did not do. -/
def foldOff (l o : Int) : Int × Bool :=
  if l ≤ o then (if l ≤ o - l then ((o - l) % l, true) else (o - l, false))
  else if o < 0 then (if o + l < 0 then (((o + l) % l + l) % l, true) else (o + l, false))
  else (o, false)

/-- The `k`-bit reverse of a number. -/
def revBits (k n : Nat) : Nat := (List.range k).foldl (fun a i => a + maskBit (k - 1 - i) (n.testBit i)) 0

/-- The address a move uses, the pointer's new value, and whether `CFOLD` is set. -/
def FxCore.moveAddr (k : FxCore) (m : Nat) : Nat × Option Nat × Bool :=
  let p := bitsN m 8 5
  let sz : Nat := if m.testBit 0 then 8 else 4
  let v : Nat := k.rd (rP p)
  let mo := k.rdS (rM p)
  let plus (x : Int) : Nat := ofS 32 (v + x * sz)
  let b : Nat := k.rd (rB p)
  let lw := if k.rd (rL p) = 0 then 65536 else k.rd (rL p)
  let l := if m.testBit 0 then lw / 2 else lw
  let d : Int := (v : Int) - b
  let o := if d % sz = 0 ∧ 0 < l then d / sz else Config.fxOdd d l
  let circ (st : Int) : Nat × Option Nat × Bool :=
    let r := foldOff l (o + st)
    (v, some (ofS 32 (b + r.1 * sz)), r.2)
  match bitsN m 4 2 with
  | 0 => (v, none, false)
  | 1 => (v, some (plus 1), false)
  | 2 => (v, some (plus (-1)), false)
  | 3 => (v, some (plus mo), false)
  | 4 => circ 1
  | 5 => circ mo
  | 6 =>
    let n : Nat := Nat.log2 l
    let r (x : Int) : Nat := revBits n (ofS n x)
    let q : Nat := revBits n ((r o + r mo) % 2 ^ n)
    (v, some ((b + q * sz) % 2 ^ 32), false)
  | _ => (plus mo, none, false)

/-! ### Address space and protection (R457, R458) -/

/-- Where a core address leads: a Spine address, or a word of the PMC block. -/
inductive FxPlace where
  | local_ (a : Nat)
  | window (a : Nat)
  | pmc (a : Nat)

def FxInst.inOff (p : FxInst) : Nat := 8 * p.wc + p.di + p.dz
def FxInst.outOff (p : FxInst) : Nat := p.inOff + 256 * p.inputs.length
def FxInst.size (p : FxInst) : Nat := ceilDiv (p.outOff + 256 * p.nout) 4096 * 4096

/-- The MPU's verdict on an access of `n` bytes (R457, R458). -/
def FxInst.map (p : FxInst) (user : Bool) (a n : Nat) (write : Bool) : Option FxPlace :=
  let within (lo hi : Nat) : Bool := decide (lo ≤ a) && decide (a + n ≤ hi)
  if a % n ≠ 0 then none
  else if within 0 (8 * p.wc) || within p.inOff p.outOff then (if write then none else some (.local_ (p.base + a)))
  else if within (8 * p.wc) p.inOff || within p.outOff (p.outOff + 256 * p.nout) then some (.local_ (p.base + a))
  else if within 0x40000000 (0x40000000 + p.win) then some (.window (p.winAt + (a - 0x40000000)))
  else if within 0x70000000 0x70010000 && user && !write then some (.pmc (0x41600000 + (a - 0x70000000)))
  else none

/-- Read a word's or a pair's bytes. -/
def State.fxcRead (s : State) (q : FxPlace) (n : Nat) : State × List Byte :=
  match q with
  | .local_ a =>
    if (s.poisonIn a n).isSome then (s.bump Reg.MEM_POISON_RD, List.replicate n 0#8) else (s, s.rdBytes a n)
  | .window a =>
    if (s.poisonIn a n).isSome then
      ((s.bump Reg.FXC_POISON).irq Reg.FXC_IRQ_STAT Fl.FXC_IRQ_STAT_POISON, List.replicate n 0#8)
    else (s, s.rdBytes a n)
  | .pmc a =>
    (List.range (n / 4)).foldl (fun (r : State × List Byte) i =>
      let b := a + 4 * i
      let v := r.1.view b
      let o := b % 0x100000
      let k := (o - 0x1000) / 32
      let s := if 0x1000 ≤ o ∧ o < 0x1000 + 0x20 * 208 ∧ o % 32 = 8 then r.1.latchCnt k
        else if 0x1000 ≤ o ∧ o < 0x1000 + 0x20 * 208 ∧ o % 32 = 16 then r.1.latchSnap k else r.1
      (s, r.2 ++ by4 v)) (s, [])

/-- Write bytes: a poisoned granule that is not covered whole stays as it is (R533). -/
def State.fxcWrite (s : State) (q : FxPlace) (bs : List Byte) : State :=
  match q with
  | .local_ a => if (s.poisonIn a bs.length).isSome ∧ ¬bs.length = 8 then s else s.busWrite a bs
  | .window a => if (s.poisonIn a bs.length).isSome ∧ ¬bs.length = 8 then s else s.busWrite a bs
  | .pmc _ => s

/-! ### What a word does -/

/-- Where a word leads. -/
inductive FxFlow where
  | seq
  /-- Two delay slots, then the target, where the branch is taken. -/
  | delay (target : Option Nat)
  | fin
  | jump (pc : Nat)
  | trap (n : Nat)

/-- What a word computes: register writes the next word sees, writes it does not, exact accumulator results, the result and
overflow the flags come from, saturation, `FXC_CSR` as written, and where the word leads. -/
structure FxRes where
  now : List (Nat × Nat) := []
  later : List (Nat × Nat) := []
  acc : List (Nat × Int) := []
  flags : Option (Int × Bool) := none
  sat : Bool := false
  csr : Option Nat := none
  /-- The whole of `FXC_CSR` as `RTI` restores it. -/
  restore : Option Nat := none
  flow : FxFlow := .seq

/-- The pieces of a move: its place, load or store, register, element size, pointer update, fold. -/
structure FxMove where
  place : FxPlace
  store : Bool
  dreg : Nat
  size : Nat
  ptr : Option (Nat × Nat)
  fold : Bool

/-- A move field's move, or `none` where the MPU forbids it; no move at all is an empty list. -/
def FxCore.move (k : FxCore) (user : Bool) (m : Nat) : Option (List FxMove) :=
  let kind := bitsN m 15 14
  if kind = 0 then some []
  else
    let r := k.moveAddr m
    let sz := if m.testBit 0 then 8 else 4
    (k.prog.map user r.1 sz (kind == 2)).map (fun q =>
      [⟨q, kind == 2, bitsN m 13 9, sz, r.2.1.map (fun v => (rP (bitsN m 8 5), v)), r.2.2⟩])

/-- Loads of a list of moves: register writes. -/
def State.fxcLoads (s : State) (ms : List FxMove) : State × List (Nat × Nat) :=
  ms.foldl (fun (r : State × List (Nat × Nat)) m =>
    if m.store then r
    else
      let x := r.1.fxcRead m.place m.size
      (x.1, r.2 ++ (List.range (m.size / 4)).map (fun i => (m.dreg + i, u32 x.2 (4 * i))))) (s, [])

/-- Stores of a list of moves, with the registers as the word found them. -/
def State.fxcStores (s : State) (k : FxCore) (ms : List FxMove) : State :=
  ms.foldl (fun (s : State) m =>
    if m.store then s.fxcWrite m.place ((List.range (m.size / 4)).flatMap (fun i => by4 (k.rd (m.dreg + i)))) else s) s

/-- Wrap an accumulator. -/
def wrap72 (x : Int) : Int := toS 72 (ofS 72 x)

/-- Set bits of `FXC_CSR` from what a word did. -/
def csrAfter (csr : Nat) (r : FxRes) (aov fold : Bool) : Nat :=
  let keepScale (v : Nat) : Nat := if 9 ≤ v % 16 then setBitsN v 3 0 (csr % 16) else v
  let c := match r.csr with
    | some v => keepScale (merge csr 0x707EF v)
    | none => (r.restore.map (fun v => keepScale (v &&& 0x70FEF))).getD csr
  let c := match r.flags with
    | some (x, v) => setBitN (setBitN (setBitN c 10 (x == 0)) 9 (decide (x < 0))) 8 v
    | none => c
  let c := if r.sat then setBitN c csrSAT true else c
  let c := if aov then setBitN c csrAOV true else c
  if fold then setBitN c csrCFOLD true else c

/-- Apply delayed writes and the word's own: of two writes of one register, the spec does not say which prevails. -/
def mergeWrites (regs : Tab Nat) (late now : List (Nat × Nat)) : Tab Nat :=
  let put (t : Tab Nat) (l : List (Nat × Nat)) : Tab Nat := l.foldl (fun t x => putReg t x.1 x.2) t
  if Config.fxLateWins then put (put regs now) late else put (put regs late) now

/-- Same, where no register is written twice. -/
def applyWrites (regs : Tab Nat) (late now : List (Nat × Nat)) : Tab Nat :=
  let put (t : Tab Nat) (l : List (Nat × Nat)) : Tab Nat := l.foldl (fun t x => putReg t x.1 x.2) t
  if late.any (fun x => now.any (fun y => y.1 == x.1)) then mergeWrites regs late now else put (put regs late) now

/-- The loop end test of R470 at a word: loop-count writes and the next word. -/
def FxCore.loopTest (k : FxCore) : List (Nat × Nat) × Nat :=
  let hit (v : Nat) : Bool := k.rd (rLC v) != 0 && k.rd (rLE v) == k.pc
  let zero : List (Nat × Nat) × Nat :=
    if hit 0 then
      if 2 ≤ k.rd (rLC 0) then ([(rLC 0, k.rd (rLC 0) - 1)], k.rd (rLS 0)) else ([(rLC 0, 0)], k.pc + 1)
    else ([], k.pc + 1)
  if hit 1 then
    if 2 ≤ k.rd (rLC 1) then ([(rLC 1, k.rd (rLC 1) - 1)], k.rd (rLS 1))
    else ((rLC 1, 0) :: zero.1, zero.2)
  else zero

/-- An active level ends at one of the words from `pc` to `pc + n`. -/
def FxCore.endsWithin (k : FxCore) (n : Nat) : Bool :=
  [0, 1].any (fun v => k.rd (rLC v) != 0 && decide (k.pc ≤ k.rd (rLE v)) && decide (k.rd (rLE v) ≤ k.pc + n))

/-- What R471, R473 and R475 add to a word's legality. -/
def FxCore.stateOk (k : FxCore) (w : Nat) : Bool :=
  if bitsN w 63 62 = 2 then
    k.slots == 0 && !k.endsWithin 2 && (bitsN w 61 56 != 5 || (!k.iact && k.hasVector))
  else k.slots == 0 || !k.endsWithin 0

/-! ### Ends of a ticket (R452) -/

/-- Samples of a channel area: `F` words at 4·64·ch. -/
def State.fxcArea (s : State) (a f ch : Nat) : State × List Int :=
  (List.range f).foldl (fun (r : State × List Int) i =>
    let x := r.1.fxcRead (.local_ (a + 4 * (64 * ch + i))) 4
    (x.1, r.2 ++ [toS 32 (u32 x.2 0)])) (s, [])

/-- A ticket's cycles and words go into the core's registers (R484). -/
def State.fxcAccount (s : State) (c : Nat) (k : FxCore) : State :=
  let cyc := s.now - k.start
  let s := (s.wr (Reg.FXC_CORE_CYC c) cyc).wr (Reg.FXC_CORE_WORDS c) k.cnt
  let s := s.wr (Reg.FXC_CORE_CYC_MAX c) (max cyc (s.rd (Reg.FXC_CORE_CYC_MAX c)))
  let st := s.fx.stallCyc + (cyc - k.cnt - 4 * k.intrs)
  { s.count Reg.FXC_STALL (st / 1024) with fx.stallCyc := st % 1024, fx.cores := Tab.del s.fx.cores c }

/-- `FX_MEM_READ` waiting for the end of an instance's ticket (R487). -/
def heldFxMem : Nat := 6

/-- Bytes of an instance's data region that a packet asks for. -/
def State.fxMemBytes (s : State) (x : FxInst) (p : Packet) : List Byte :=
  let a := 8 * x.wc + u16 p.params 2
  let n := u16 p.params 4
  if x.load.isEmpty then s.rdBytes (x.base + a) n else slice (x.load ++ List.replicate x.dz 0#8) a n

/-- The engine is free again, and the Stable goes on. -/
def State.fxcRelease (s : State) (c : Nat) (k : FxCore) : State :=
  let s := match s.cmd.held with
    | some h => if h.kind = heldFxMem ∧ h.arg = k.inst then s.finishHeld heldFxMem stOK (s.fxMemBytes k.prog h.pkt) else s
    | none => s
  match s.runningOn (16 + c) [tkFX] with
  | some x => State.startNext State.onStart 3 (s.finishTicket (16 + c) x) (16 + c)
  | none => s

/-- `DONE` after its delay slots: the outputs enter as ingress of the next folio. -/
def State.fxcDone (s : State) (c : Nat) (k : FxCore) : State :=
  let f := s.folioLen
  let s := forRange 0 k.prog.nout (fun ch s =>
    let r := s.fxcArea (k.prog.base + k.prog.outOff) f ch
    r.1.putIngress (k.folio + 1) (srcKey 4 (k.prog.outBase + ch) 0) r.2) s
  ((s.bump Reg.FXC_TICKETS).fxcAccount c k).fxcRelease c k

/-- A ticket aborts with a cause: 1 budget, 2 MPU, 3 illegal (R452, R485). -/
def State.fxcAbort (s : State) (c : Nat) (k : FxCore) (cause : Nat) : State :=
  let s := forRange 0 k.prog.nout (fun ch s =>
    s.putIngress (k.folio + 1) (srcKey 4 (k.prog.outBase + ch) 0) (zeros s.folioLen)) s
  let s := (s.bump Reg.FXC_ABORT).irq Reg.FXC_IRQ_STAT Fl.FXC_IRQ_STAT_ABORT
  let n := min 8191 (s.fld (Reg.FXC_INST_ABORT k.inst) Fl.FXC_INST_ABORT_COUNT + 1)
  let s := s.wr (Reg.FXC_INST_ABORT k.inst) (cause * 2 ^ 28 + n * 2 ^ 15 + k.pc % 2 ^ 15)
  let quiet := match Tab.look s.fx.logged k.inst with
    | some t => decide (s.now < t + 10000000000)
    | none => false
  let s := if quiet then s else { s.logEventFree 0x1000 k.inst with fx.logged := Tab.put s.fx.logged k.inst s.now }
  (s.fxcAccount c k).fxcRelease c k

/-! ### One word -/

/-- Interrupt causes a word raises (R474). -/
def wordCauses (csr : Nat) (r : FxRes) (aov fold : Bool) : Nat :=
  (match r.flow with | .trap n => 1 + n * 256 | _ => 0) + maskBit 2 (r.sat && csr.testBit 16) +
    maskBit 3 (aov && csr.testBit 17) + maskBit 4 (fold && csr.testBit 18)

/-- The core after a word has retired, but for the end of a ticket. -/
def FxCore.retire (k : FxCore) (r : FxRes) (ms : List FxMove) (loads : List (Nat × Nat)) : FxCore :=
  let accs := r.acc.map (fun x => (x.1, wrap72 x.2))
  let aov := r.acc.any (fun x => wrap72 x.2 != x.2)
  let fold := ms.any (·.fold)
  let ptrs := ms.filterMap (·.ptr)
  let lt := if k.slots = 0 ∧ (match r.flow with | .seq => true | _ => false) = true then k.loopTest else ([], k.pc + 1)
  let regs := applyWrites k.regs k.pend (r.now ++ ptrs ++ lt.1)
  let csr := csrAfter k.csr r aov fold
  let cnt := k.cnt + 1
  -- delay slots and branches
  let k' := match k.slots with
    | 0 =>
      match r.flow with
      | .delay t => { k with slots := 2, target := t, pc := k.pc + 1 }
      | .fin => { k with slots := 2, target := none, ending := true, pc := k.pc + 1 }
      | .jump p => { k with pc := p }
      | .trap _ => { k with pc := k.pc + 1 }
      | .seq => { k with pc := lt.2 }
    | 1 => { k with slots := 0, target := none, pc := k.target.getD (k.pc + 1) }
    | n => { k with slots := n - 1, pc := k.pc + 1 }
  let hit := cnt % 2 ^ 32 == k.rd rICMP && k.rd rICMP != 0 && k.hasVector
  let raised := if k.iact ∨ k.hasVector = false then 0 else wordCauses csr r aov fold + maskBit 1 hit
  let held := k.held || (k.iact && hit)
  -- a match held in a handler is taken once RTI has resolved
  let free := !csr.testBit csrIACT && k'.slots == 0 && held
  { k' with
    regs := regs, acc := accs.foldl (fun t x => Tab.store t 0 x.1 x.2) k.acc, csr := csr, cnt := cnt
    pend := loads ++ r.later, causes := (k.causes ||| raised ||| maskBit 1 free), held := held && !free }

/-- A core can run its next word: no interrupt is due before it. -/
def FxCore.ready (k : FxCore) : Bool := k.causes == 0 || k.slots != 0

/-- The word at a core's program counter, where the MPU lets it be fetched. -/
def State.fxcFetch (s : State) (k : FxCore) : Option Nat :=
  if k.pc < k.prog.wc then
    let a := k.prog.base + 8 * k.pc
    some (if (s.poisonIn a 8).isSome then 0 else u64 (s.rdBytes a 8) 0)
  else none

/-- Run the next word of core `c` with the effect `f` of its instruction: legality, MPU, retirement, budget, end. -/
def State.fxcWord (s : State) (c : Nat) (k : FxCore) (w : Nat) (f : FxCore → Nat → FxRes) : State :=
  if !wordOk w || !k.stateOk w then s.fxcAbort c k 3
  else
    let user := s.flag Reg.PMC_CFG Fl.PMC_CFG_USER_EN
    let isC := bitsN w 63 62 == 0
    match (if isC then k.move user (bitsN w 31 16) else some []), (if isC then k.move user (bitsN w 15 0) else some []) with
    | some mx, some my =>
      let ms := mx ++ my
      let ld := s.fxcLoads ms
      let s := ld.1.fxcStores k ms
      let k' := k.retire (f k w) ms ld.2
      if k.prog.budget < k'.cnt then s.fxcAbort c { k' with pc := k.pc } 1
      else if k'.ending ∧ k'.slots = 0 then s.fxcDone c k'
      else { s with fx.cores := Tab.put s.fx.cores c k' }
    | _, _ => s.fxcAbort c k 2

end Sys2Proof.Machine
end

