-- ==== Sys2Proof/Machine/Fx.lean ====
section
/-!
DEFINITION. Effect instances: tickets, loading a program (R449, R454, R457, R481, R482), and the commands of R487.
-/

namespace Sys2Proof.Machine

/-! ### Instances -/

def State.fxEn (s : State) (i : Nat) : Bool := s.flag (Reg.FXC_INST_CFG i) Fl.FXC_INST_CFG_EN

/-- The program an instance runs for folio `n` (R487): the newest whose first folio has come; none once removed. -/
def State.fxProg (s : State) (i n : Nat) : Option FxInst :=
  ((Tab.at s.fx.insts [] i).filter (fun x => decide (x.first ≤ n))).getLast?.filter (fun x => x.ends.all (fun e => decide (n < e)))

/-- The newest program of an instance that is enabled. -/
def State.fxNow (s : State) (i : Nat) : Option FxInst := if s.fxEn i then (Tab.at s.fx.insts [] i).getLast? else none

/-- The tickets of folio `n` (R450), with their queues; an item above 15 waits for the D0 mixer. -/
def State.fxTickets (s : State) (n : Nat) : List (Nat × Ticket) :=
  (List.range 16).filterMap (fun i =>
    (s.fxProg i n).map (fun x =>
      (16 + i, { hwTicket tkFX n (i + 16 * b2n (x.inputs.any (fun y => y.1 == 3))) with eng := 16 + x.core })))

/-- Samples of an input for a folio (R450). -/
def State.fxInput (s : State) (n : Nat) (x : Nat × Nat × Nat) : List Int :=
  match x.1 with
  | 1 => s.ingress n (srcKey 1 x.2.1 x.2.2)
  | 2 => s.ingress n (srcKey 2 x.2.1 x.2.2)
  | 3 => s.ingress n (srcKey 3 x.2.1 0)
  | 4 => if s.procCfg.bridgeTo x.2.1 0 then s.bridgeOut x.2.1 n else zeros s.folioLen
  | _ => zeros s.folioLen

/-- Copy a program's code and data into its allocation, and zero the rest of it and its DRAM window (R457, R459). -/
def State.fxLoadIn (s : State) (x : FxInst) : State :=
  let s := s.busWrite x.base x.load
  let zeroed (s : State) (a n : Nat) : State :=
    { s with mem := s.mem.filter (fun y => decide (y.1 < a) || decide (a + n ≤ y.1))
             poison := s.poison.filter (fun y => !coversGranule a n y) }
  let s := zeroed s (x.base + 8 * x.wc + x.di) (x.size - 8 * x.wc - x.di)
  if 0 < x.win then zeroed s x.winAt x.win else s

/-- A program that waited for its first ticket is copied in (R487). -/
def State.fxBring (s : State) (i : Nat) (x : FxInst) : State :=
  if x.load.isEmpty then s
  else
    let s := s.fxLoadIn x
    let xs := (Tab.at s.fx.insts [] i).map (fun y => if y.first = x.first then { y with load := [] } else y)
    { s with fx.insts := Tab.put s.fx.insts i xs }

/-- Copy a program's inputs into its input area. -/
def State.fxCopyIn (s : State) (x : FxInst) (n : Nat) : State :=
  (x.inputs.zipIdx).foldl (fun (s : State) y =>
    s.busWrite (x.base + x.inOff + 256 * y.2) (((s.fxInput n y.1).take s.folioLen).flatMap (fun v => by4 (ofS 32 v)))) s

/-- Apply the staged parameter blocks that are due (R460). -/
def State.fxParams (s : State) (x : FxInst) (i n : Nat) : State :=
  let due := s.fx.staged.filter (fun y => y.inst == i && decide (y.folio ≤ n))
  let s := due.foldl (fun (s : State) y => s.busWrite (x.base + 8 * x.wc + x.pOff + y.off) y.bytes) s
  { s with fx.staged := s.fx.staged.filter (fun y => !(y.inst == i && decide (y.folio ≤ n))) }

/-- A core at the start of a ticket (R451). -/
def fxFresh (x : FxInst) (i n f start : Nat) : FxCore :=
  let rs := [(0x20, x.inOff), (0x21, x.outOff), (0x22, 8 * x.wc + x.pOff), (0, f), (1, n % 2 ^ 32), (2, x.inputs.length), (3, x.nout)]
  { inst := i, prog := x, folio := n, pc := x.entry, regs := rs.foldl (fun t y => putReg t y.1 y.2) [], acc := [],
    csr := x.scale, cnt := 0, slots := 0, target := none, ending := false, pend := [], causes := 0, held := false,
    late := false, start := start, intrs := 0 }

/-- `FX_TICKET_START` (R450, R451): the ticket the Stable has given core `c` starts. -/
def execFxTicketStart (c t : Nat) (s : State) : Out :=
  let s := s.atTime t
  match s.runningOn (16 + c) [tkFX], Tab.look s.fx.cores c with
  | some x, none =>
    let i := x.tk.item % 16
    match s.fxProg i x.tk.folio with
    | some g =>
      let s := ((s.fxBring i g).fxCopyIn g x.tk.folio).fxParams g i x.tk.folio
      .next { s with fx.cores := Tab.put s.fx.cores c (fxFresh { g with load := [] } i x.tk.folio s.folioLen x.since) }
    | none => .next (State.startNext State.onStart 3 (s.finishTicket (16 + c) x) (16 + c))
  | _, _ => .next s

/-- `FX_TICKET_ABORT` (R452): the next word of core `c` cannot run: it may not be fetched, is illegal, or moves where the MPU
forbids it. A word that exceeds the budget aborts in its own row, since it retires first. -/
def rowFxTicketAbort (c t : Nat) (s : State) : Out :=
  let s := s.atTime t
  match Tab.look s.fx.cores c with
  | some k =>
    if !k.ready then .next s
    else
      match s.fxcFetch k with
      | none => .next (s.fxcAbort c k 2)
      | some w =>
        let user := s.flag Reg.PMC_CFG Fl.PMC_CFG_USER_EN
        if !wordOk w || !k.stateOk w then .next (s.fxcAbort c k 3)
        else if bitsN w 63 62 == 0 && ((k.move user (bitsN w 31 16)).isNone || (k.move user (bitsN w 15 0)).isNone) then
          .next (s.fxcAbort c k 2)
        else .next s
  | none => .next s

/-- `FX_TICKET_LATE` (R455): core `c` still runs a ticket at the end of its slot. -/
def execFxTicketLate (c t : Nat) (s : State) : Out :=
  let s := s.atTime t
  match Tab.look s.fx.cores c with
  | some k =>
    if k.late ∨ s.slot < k.folio + 2 then .next s
    else
      let s := (s.bump Reg.FXC_LATE).irq Reg.FXC_IRQ_STAT Fl.FXC_IRQ_STAT_LATE
      .next { s with fx.cores := Tab.put s.fx.cores c { k with late := true } }
  | none => .next s

/-- `FX_INTERRUPT_ENTRY` (R474). -/
def execFxInterruptEntry (c t : Nat) (s : State) : Out :=
  let s := s.atTime t
  match Tab.look s.fx.cores c with
  | some k =>
    if k.ready then .next s
    else
      let regs := putReg (putReg (putReg k.regs rIPC k.pc) rICSR k.csr) rICAUSE
        (bitsN k.causes 4 0 + bitsN k.causes 11 8 * 256)
      let k' := { k with regs := regs, csr := setBitN k.csr csrIACT true, pc := k.prog.vector, causes := 0, intrs := k.intrs + 1 }
      .next { s.bump Reg.FXC_INTR with fx.cores := Tab.put s.fx.cores c k' }
  | none => .next s

/-- A core is reset: its ticket is dropped. -/
def State.fxcReset (s : State) (c : Nat) : State :=
  { s.dropEngine (16 + c) with fx.cores := Tab.del s.fx.cores c }

/-! ### Loading (R454, R457, R481, R482) -/

/-- The first header field of a program that is not acceptable (R482). -/
def fxHeaderBad (b : List Byte) : Option Nat :=
  let wc := u16 b 6
  let di := u32 b 8
  let dz := u32 b 12
  let win := u32 b 28
  let flag := u8 b 23 == 1
  let chk : List (Nat × Bool) :=
    [(0, decide (64 ≤ b.length) && u32 b 0 == 0x58464B52), (4, u16 b 4 == 1), (6, decide (1 ≤ wc) && decide (wc ≤ 30720)),
     (8, di % 8 == 0), (12, dz % 8 == 0), (16, decide (u16 b 16 < wc)),
     (18, u16 b 18 == 0xFFFF || decide (u16 b 18 < wc)), (20, decide (u8 b 20 ≤ 32)),
     (21, decide (1 ≤ u8 b 21) && decide (u8 b 21 ≤ 32)), (22, decide (u8 b 22 ≤ 8)), (23, decide (u8 b 23 < 2)),
     (24, decide (1 ≤ u32 b 24) && decide (u32 b 24 ≤ 4194303)),
     (28, if flag then win % 4096 == 0 && decide (4096 ≤ win) && decide (win ≤ 2 ^ 26) else win == 0),
     (32, u32 b 32 % 8 == 0 && decide (u32 b 32 + u32 b 36 ≤ di + dz)), (36, u32 b 36 % 8 == 0 && decide (u32 b 36 ≤ 4096)),
     (44, u32 b 44 % 8 == 0 && decide (u32 b 44 + 8 * wc ≤ b.length)),
     (48, u32 b 48 % 8 == 0 && decide (u32 b 48 + di ≤ b.length)), (52, zeroAt b 52 12)]
  (chk.find? (fun x => !x.2)).map (·.1)

/-- Σ (2 × BUDGET + 2048) of the instances of a core other than `i` (R454). -/
def State.fxLoad (s : State) (c i : Nat) : Nat :=
  (((List.range 16).filter (· != i)).filterMap (fun j => s.fxNow j)).foldl
    (fun n x => if x.core = c then n + 2 * x.budget + 2048 else n) 0

/-- Bytes allocated on a core by instances other than `i` (R457). -/
def State.fxUsed (s : State) (c i : Nat) : Nat :=
  (((List.range 16).filter (· != i)).filterMap (fun j => s.fxNow j)).foldl
    (fun n x => if x.core = c then n + x.size else n) 0

/-- Cycles of a slot (R454). -/
def slotCycles (f fs : Nat) : Nat := f * 1000000000 / fs

/-- Output channels of another enabled instance overlap a range (R487). -/
def State.fxOverlap (s : State) (i base n : Nat) : Bool :=
  (((List.range 16).filter (· != i)).filterMap (fun j => s.fxNow j)).any
    (fun x => decide (x.outBase < base + n) && decide (base < x.outBase + x.nout))

/-- The inputs a packet names, and whether each is acceptable. -/
def fxInputs (b : List Byte) : List (Nat × Nat × Nat) :=
  (List.range ((b.length - 24) / 4)).map (fun k => (u8 b (24 + 4 * k), u8 b (25 + 4 * k), u8 b (26 + 4 * k)))

def fxInputOk (x : Nat × Nat × Nat) : Bool :=
  match x.1 with
  | 0 => x.2.1 == 0 && x.2.2 == 0
  | 1 => decide (x.2.2 < 64)
  | 2 => decide (x.2.1 < 16) && decide (x.2.2 < 32)
  | 3 => x.2.2 == 0
  | 4 => decide (x.2.1 < 64) && x.2.2 == 0
  | _ => false

/-- Where the device places an allocation of a core's local memory: a free choice among the 4 KiB pages that no other instance takes, nor a
program that still runs; where those leave no room, among those of the instance's own earlier program as well. -/
def State.fxPlaceAt (s : State) (c i size : Nat) : Nat :=
  let free (own : Bool) : List Nat :=
    let taken := (s.fx.insts.filter (fun e => own || e.1 != i)).flatMap
      (fun e => e.2.filter (fun y => y.core == c && y.ends.all (fun x => decide (s.slot ≤ x))))
    (List.range 60).filter (fun k => decide (4096 * k + size ≤ 240 * 1024) &&
      !taken.any (fun y => overlaps (0x11800000 + 0x40000 * c + 4096 * k) size y.base y.size))
  let places := if (free true).isEmpty then free false else free true
  let v := Config.fxPlace c i size
  0x11800000 + 0x40000 * c + 4096 * nth places (v % places.length) (v % 60)

/-- The program a header and a packet describe. -/
def fxMake (s : State) (b h : List Byte) : FxInst :=
  let c := u8 b 2
  let x : FxInst :=
    { core := c, prio := u8 b 3, outBase := u8 b 4, inputs := fxInputs b, nout := u8 h 21, base := 0, wc := u16 h 6,
      di := u32 h 8, dz := u32 h 12, entry := u16 h 16, vector := u16 h 18, scale := u8 h 22, budget := u32 h 24,
      win := u32 h 28, winAt := 0, pOff := u32 h 32, pLen := u32 h 36, pid := u32 h 40, first := s.slot + 1, ends := none,
      load := slice h (u32 h 44) (8 * u16 h 6) ++ slice h (u32 h 48) (u32 h 8) }
  { x with base := s.fxPlaceAt c (u8 b 0) x.size }

/-- No ticket of an instance runs or is to come before its next program's first. -/
def State.fxIdle (s : State) (i : Nat) : Bool :=
  !s.dp.on || ((Tab.at s.fx.insts [] i).all (fun y => y.ends.any (fun e => decide (e < s.slot))) && !s.fx.cores.any (fun e => e.2.inst == i))

/-- Put a program in place and its registers (R449, R485). While an earlier program of the instance has tickets to run, the new one is
copied in when its first ticket starts. -/
def State.fxPut (s : State) (i : Nat) (x : FxInst) : State :=
  let s := s.unreserve (ownWindow i)
  let s := if 0 < x.win then s.reserveNew (ownWindow i) x.win else s
  let x := { x with winAt := (Tab.at s.dmc.reserved (0, 0) (ownWindow i)).1 }
  let idle := s.fxIdle i
  let s := if idle then s.fxLoadIn x else s
  let x := { x with load := if idle then [] else x.load }
  let cfg := 2 ^ 31 + x.prio * 2 ^ 28 + x.core * 2 ^ 24 + x.inputs.length * 2 ^ 18 + x.nout * 2 ^ 12 + x.outBase
  let s := ((s.wr (Reg.FXC_INST_CFG i) cfg).wr (Reg.FXC_INST_BUDGET i) x.budget).wr (Reg.FXC_INST_ID i) x.pid
  let s := s.setFld (Reg.STBL_Q_CFG (16 + i)) Fl.STBL_Q_CFG_PRIO x.prio
  { s with
    fx.insts := Tab.put s.fx.insts i ((if idle then [] else Tab.at s.fx.insts [] i) ++ [x])
    fx.staged := s.fx.staged.filter (fun y => y.inst != i || (!idle && decide (y.folio < x.first))) }

/-- Load a verified program payload for a packet: the state, the status and the result (R454, R457, R482, R487). -/
def State.fxInstall (s : State) (p : Packet) (h : List Byte) : State × Nat × List Byte :=
  let b := p.params
  let i := u8 b 0
  match fxHeaderBad h with
  | some off => (s, stBAD_PARAM, by2 off)
  | none =>
    let x := fxMake s b h
    if x.inputs.length ≠ u8 h 20 then (s, stBAD_LENGTH, [])
    else if 256 < x.outBase + x.nout ∨ s.fxOverlap i x.outBase x.nout = true then (s, stBAD_PARAM, [])
    else if slotCycles s.folioLen s.fs < 2 * (s.fxLoad x.core i + 2 * x.budget + 2048) then (s, stNO_RESOURCE, [BitVec.ofNat 8 (0x40 + x.core)])
    else if 240 * 1024 < s.fxUsed x.core i + x.size then (s, stNO_RESOURCE, [])
    else (s.fxPut i x, stOK, [])

/-- The first core whose instances do not fit a slot of a format (R454). -/
def State.fxTooFast (s : State) (f fs : Nat) : Option Nat :=
  (List.range 8).find? (fun c => decide (slotCycles f fs < 2 * s.fxLoad c 16))

/-! ### Commands (R487) -/

def fxModes : List Nat := [mIDLE, mRENDER, mMEASURE, mSERVICE]
def specFxInstanceSet : CmdSpec := cmdRow 0x0D01 0 true 24 152 fxModes true
def specFxParamSet : CmdSpec := cmdRow 0x0D02 1 true 8 1032 fwModes true
def specFxQuery : CmdSpec := cmdRow 0x0D03 2 false 4 4 fwModes false
def specFxStats : CmdSpec := cmdRow 0x0D04 2 false 0 0 fwModes false
def specFxMemRead : CmdSpec := cmdRow 0x0D05 2 false 8 8 fwModes false

def cmdFxInstanceSet (p : Packet) (s : State) : CmdRes :=
  let b := p.params
  let i := u8 b 0
  let addr := u64 b 8
  let len := u32 b 16
  if 1 < u8 b 1 ∨ 16 ≤ i then .fail s stBAD_PARAM []
  else if u8 b 1 = 1 then
    if b.length ≠ 24 then .fail s stBAD_LENGTH []
    else
      let s := ((s.wr (Reg.FXC_INST_CFG i) 0).wr (Reg.FXC_INST_BUDGET i) 0).wr (Reg.FXC_INST_ID i) 0
      let xs := (Tab.at s.fx.insts [] i).map (fun x => { x with ends := some (x.ends.getD s.slot) })
      .ok ({ s with fx.insts := Tab.put s.fx.insts i xs
                    fx.staged := s.fx.staged.filter (fun y => y.inst != i || decide (y.folio < s.slot)) }.unreserve (ownWindow i)) []
  else if (b.length - 24) % 4 ≠ 0 then .fail s stBAD_LENGTH []
  else if Config.fxCores s.otp.grade ≤ u8 b 2 ∨ 7 < u8 b 3 ∨ !zeroAt b 5 3 ∨ addr % 64 ≠ 0 ∨ !s.dramFree addr len ∨
      u32 b 20 ≠ 0 ∨ !(fxInputs b).all fxInputOk ∨ !(List.range ((b.length - 24) / 4)).all (fun k => u8 b (27 + 4 * k) == 0) then
    .fail s stBAD_PARAM []
  else .long s [addr, len]
/-- `FX_INSTANCE_SET` with op 0 (R449, R487): the image is checked and loaded when the long operation ends. -/
def execFxInstanceSet (p : Packet) (s : State) : Out := runPacket specFxInstanceSet (p.withOp 1 0) (cmdFxInstanceSet (p.withOp 1 0)) s
/-- `FX_INSTANCE_SET` with op 1 (R487). -/
def execFxInstanceRemove (p : Packet) (s : State) : Out :=
  runPacket specFxInstanceSet (p.withOp 1 1) (cmdFxInstanceSet (p.withOp 1 1)) s

def cmdFxParamSet (p : Packet) (s : State) : CmdRes :=
  let b := p.params
  let m := u16 b 4
  if b.length ≠ 8 + m then .fail s stBAD_LENGTH []
  else
    match s.fxNow (u8 b 0) with
    | none => .fail s stBAD_PARAM []
    | some x =>
      if u8 b 1 ≠ 0 ∨ u16 b 2 % 8 ≠ 0 ∨ m % 8 ≠ 0 ∨ 1024 < m ∨ u16 b 6 ≠ 0 ∨ x.pLen < u16 b 2 + m then .fail s stBAD_PARAM []
      else .ok { s with fx.staged := s.fx.staged ++ [⟨u8 b 0, s.slot + 1, u16 b 2, b.drop 8⟩] } []
/-- `FX_PARAM_SET` (R460). -/
def execFxParamSet (p : Packet) (s : State) : Out := runPacket specFxParamSet p (cmdFxParamSet p) s

/-- Views of the FXC block (R484). -/
def State.liveFxc (s : State) (a : Nat) : Nat :=
  if Reg.FXC_CORE_STAT 0 ≤ a ∧ a < Reg.FXC_CORE_STAT 8 then
    let c := (a - Reg.FXC_CORE_STAT 0) / 32
    if a % 32 = 0 then
      let free := 240 - s.fxUsed c 16 / 1024
      let run := match Tab.look s.fx.cores c with
        | some k => 2 ^ 30 + maskBit 29 k.iact + k.inst * 2 ^ 24
        | none => 0
      setBitsN (s.rd a) 8 0 free + run
    else if a % 32 = 4 then s.fxLoad c 16
    else s.rd a
  else s.rd a

def cmdFxQuery (p : Packet) (s : State) : CmdRes :=
  let i := u8 p.params 0
  if 16 ≤ i ∨ !zeroAt p.params 1 3 then .fail s stBAD_PARAM []
  else
    let c := s.fld (Reg.FXC_INST_CFG i) Fl.FXC_INST_CFG_CORE
    .ok s ((List.range 5).flatMap (fun k => by4 (s.rd (Reg.FXC_INST_CFG i + 4 * k))) ++ by4 (s.liveFxc (Reg.FXC_CORE_STAT c)))
/-- `FX_QUERY` (R487). -/
def execFxQuery (p : Packet) (s : State) : Out := runPacket specFxQuery p (cmdFxQuery p) s

/-- The FXC counters in offset order (R486). -/
def fxcCounters : List Nat :=
  [Reg.FXC_TICKETS, Reg.FXC_ABORT, Reg.FXC_LATE, Reg.FXC_INTR, Reg.FXC_POISON, Reg.FXC_STALL]

def cmdFxStats (_p : Packet) (s : State) : CmdRes :=
  let (s, bs) := s.takeCounters fxcCounters
  .ok s bs
/-- `FX_STATS` (R487). -/
def execFxStats (p : Packet) (s : State) : Out := runPacket specFxStats p (cmdFxStats p) s

def cmdFxMemRead (p : Packet) (s : State) : CmdRes :=
  let b := p.params
  match s.fxNow (u8 b 0) with
  | none => .fail s stBAD_PARAM []
  | some x =>
    if u8 b 1 ≠ 0 ∨ u16 b 2 % 8 ≠ 0 ∨ 4096 < u16 b 4 ∨ u16 b 6 ≠ 0 ∨ x.di + x.dz < u16 b 2 + u16 b 4 then
      .fail s stBAD_PARAM []
    else if s.fx.cores.any (fun e => e.2.inst == u8 b 0) then .hold s heldFxMem (u8 b 0)
    else .ok s (s.fxMemBytes x p)
/-- `FX_MEM_READ` (R487): copied between two of the instance's tickets, so the reply waits for one that runs. -/
def execFxMemRead (p : Packet) (s : State) : Out := runPacket specFxMemRead p (cmdFxMemRead p) s

end Sys2Proof.Machine
end

