-- ==== Sys2Proof/Machine/PairCore.lean ====
section
/-!
DEFINITION. Pair states (R430, R431), resync attempts (R434 to R436) and the comparison of digests (R429).
-/

namespace Sys2Proof.Machine

def State.rphase (s : State) : Nat := s.fld Reg.TTH_STAT Fl.TTH_STAT_RPHASE
def State.setRphase (s : State) (v : Nat) : State := s.setFld Reg.TTH_STAT Fl.TTH_STAT_RPHASE v
def State.setRun (s : State) (v : Nat) : State := s.setFld Reg.TTH_STAT Fl.TTH_STAT_RUN v

/-- The present run of mismatches. -/
def State.digRun (s : State) : Nat := s.fld Reg.TTH_STAT Fl.TTH_STAT_RUN

/-- The unit becomes `UNSYNC` (R429, R430). -/
def State.becomeUnsync (s : State) : State :=
  let s := ((s.setPstate psUNSYNC).setRphase 0).setMode mSTANDBY
  ((s.setRun 0).bump Reg.TTH_UNSYNC).irq Reg.TTH_IRQ_STAT Fl.TTH_IRQ_STAT_UNSYNC

/-- Forget what a standby has been told of folios, and what resync has brought. -/
def State.dropRecords (s : State) : State :=
  { s with pair.holds := [], pair.ticks := [], pair.seals := [], pair.digs := [], pair.peerDigs := [], pair.cut := none,
           pair.snap := [], pair.matched := 0, dp.waitTick := none, mix.duckRec := [] }

/-- Begin phase `ph` of a resync attempt (R434): the data plane stands still until the cutover. -/
def State.beginPhase (s : State) (ph : Nat) : State :=
  let s := (s.dropRecords).setRphase ph
  let s := (s.setFld Reg.TTH_RESYNC_STAT Fl.TTH_RESYNC_STAT_PASS 0).setFld Reg.TTH_RESYNC_STAT Fl.TTH_RESYNC_STAT_DIRTY_KB 0
  { s with dp.on := false }

/-- A unit starts to resync (R431). -/
def State.startResync (s : State) : State :=
  let s := s.wakeAll s.planeDomains true
  let s := (s.setPstate psRESYNC).setMode mRESYNC
  let s := s.setFld Reg.TTH_RESYNC_STAT Fl.TTH_RESYNC_STAT_ATTEMPT 1
  (s.setRun 0).beginPhase 1

/-- An attempt fails (R436): phase 2 restarts, or after the third attempt the unit becomes `UNSYNC`. -/
def State.failResync (s : State) : State :=
  let s := (s.bump Reg.TTH_RESYNC_FAIL).irq Reg.TTH_IRQ_STAT Fl.TTH_IRQ_STAT_RESYNC_FAIL
  let n := s.fld Reg.TTH_RESYNC_STAT Fl.TTH_RESYNC_STAT_ATTEMPT
  if 3 ≤ n then (s.dropRecords).becomeUnsync
  else (s.setFld Reg.TTH_RESYNC_STAT Fl.TTH_RESYNC_STAT_ATTEMPT (n + 1)).beginPhase 2

/-- Verify completes (R435). -/
def State.verified (s : State) : State :=
  let s := ((s.setPstate psSTANDBY).setMode mSTANDBY).setRphase 0
  ((s.setRun 0).bump Reg.TTH_RESYNC_OK).irq Reg.TTH_IRQ_STAT Fl.TTH_IRQ_STAT_RESYNC_DONE

/-- A digest has matched. -/
def State.digestOk (s : State) : State :=
  if s.pstate = psRESYNC then
    let s := { s with pair.matched := s.pair.matched + 1 }
    if 64 ≤ s.pair.matched then s.verified else s
  else s.setRun 0

/-- A digest differs (R429, R436). -/
def State.digestBad (s : State) : State :=
  let s := (s.bump Reg.TTH_DIG_MISMATCH).irq Reg.TTH_IRQ_STAT Fl.TTH_IRQ_STAT_DIVERGE
  if s.pstate = psRESYNC then s.failResync
  else
    let n := s.digRun + 1
    if 3 ≤ n then s.becomeUnsync else s.setRun n

/-- Compare the two digests of folio `n`, once both are there; a standby compares, and a unit that verifies. -/
def State.compareDigests (s : State) (n : Nat) : State :=
  if s.pstate = psSTANDBY ∨ (s.pstate = psRESYNC ∧ s.rphase = 3) then
    match Tab.look s.pair.digs n, Tab.look s.pair.peerDigs n with
    | some a, some b =>
      let s := s.wr Reg.TTH_DIG_FOLIO (n % 2 ^ 32)
      let s := { s with pair.digs := keepFrom (n + 1) s.pair.digs, pair.peerDigs := keepFrom (n + 1) s.pair.peerDigs }
      if a = b then s.digestOk else s.digestBad
    | _, _ => s
  else s

end Sys2Proof.Machine
end

