-- ==== Sys2Proof/Machine/Tick.lean ====
section
/-!
DEFINITION. The folio tick: judging output folios (R21, R206, R428, R501), starting and stopping the data plane (R22), and the
order of work at a tick (R127, R427).
-/

namespace Sys2Proof.Machine

/-! ### Judging an output folio (R21) -/

/-- Folio `n` is one of those the data plane captures (R22). -/
def State.owns (s : State) (n : Nat) : Bool :=
  s.dp.on && decide (s.dp.first ≤ n) && s.dp.last.all (fun l => decide (n ≤ l))

/-- Both egress tickets of folio `n` have completed (R501). -/
def State.folioComplete (s : State) (n : Nat) : Bool := s.itemDone tkEGRESS n 0 && s.itemDone tkEGRESS n 1

/-- D0 buses that have a destination. -/
def RCfg.destBuses (c : RCfg) (d : Nat) : List Nat :=
  (List.range (domSize d)).filter (fun b => c.rd (Reg.MIX_BUS_DEST d b) != 0)

/-- Samples of D0 bus `b` in folio `n`. -/
def State.busFolio (s : State) (n b : Nat) : List Int := Tab.at (Tab.at (s.mixDom 0).bus [] n) (zeros s.folioLen) b

/-- What the folio in work emits from stage 8 and the D0 buses under a fade law. -/
def State.emissionBy (s : State) (n kind : Nat) (g : Nat → Int → Int) : Emission :=
  let f := s.folioLen
  let law (xs : List Int) : List Int := (List.range f).map (fun i => g i (nth xs i 0))
  ⟨kind, s.procOutputs.map (fun o => (o, law (s.chain o).cur.last8)),
   (s.procCfg.destBuses 0).map (fun b => (b, law (s.busFolio n b)))⟩

/-- A complete folio: the first after a run fades in (R206). -/
def State.emitDone (s : State) (n : Nat) : Emission :=
  if s.out.missRun = 0 then s.emissionBy n 0 (fun _ x => x) else s.emissionBy n 0 (fadeIn s.folioLen)

/-- A missed folio: the previous one fades out, then zeros (R206). -/
def State.emitMiss (s : State) (n : Nat) : Emission :=
  if s.out.missRun = 0 then s.emissionBy (n - 1) 1 (fadeOut s.folioLen) else s.emissionBy n 2 (fun _ _ => 0)

/-- Keep what a folio emits. -/
def State.putEmission (s : State) (n : Nat) (e : Emission) : State :=
  { s with out.emit := Tab.put (keepFrom (n - 5) s.out.emit) n e }

/-- A destination exists (R204): its port is enabled, its stream configured. -/
def State.destExists (s : State) (c : RCfg) (v n : Nat) : Bool :=
  let k := bitsN v 23 16
  if v / 2 ^ 30 = 1 then c.flag (Reg.TDM_CFG k) Fl.TDM_CFG_EN && decide (bitsN v 5 0 < bitsN (c.rd (Reg.TDM_FMT k)) 5 0)
  else ((Tab.look s.strm.tx k).bind (fun x => x.at' n)).any (fun t => decide (bitsN v 5 0 < t.chans))

/-- Count the samples that leave for destinations that do not exist (R204). -/
def State.countNodest (s : State) (n : Nat) : State :=
  let c := s.procCfg
  let ds := s.procOutputs.map (fun o => c.rd (Reg.OUT_DEST o))
  let k := countIf ds (fun v => decide (1 ≤ v / 2 ^ 30) && !s.destExists c v n)
  if k = 0 then s else (s.count Reg.OUT_NODEST (k * s.folioLen)).irq Reg.OUT_IRQ_STAT Fl.OUT_IRQ_STAT_NODEST

/-- Release folio `n` in flow 0 or 1 (R501): an incomplete ticket is dropped, or its result discarded. -/
def State.releaseEgress (s : State) (n f : Nat) : State :=
  let mine (k : Ticket) : Bool := k.kind == tkEGRESS && k.folio == n && k.item == f
  let held := (Tab.at s.stbl.ahead [] f).filter (fun h => h.tk.seq != n % 65536)
  let tk : Ticket := { hwTicket tkEGRESS n f with flow := f, seq := n % 65536 }
  let s :=
    if s.itemDone tkEGRESS n f then s
    else
      let s := (s.bump Reg.STBL_REL_MISS).irq Reg.STBL_IRQ_STAT Fl.STBL_IRQ_STAT_REL_MISS
      let begun := s.stbl.running.any (fun e => mine e.2.tk)
      let s := s.cancelTickets mine
      let s := if begun then s else s.trace evDROP 7 255 tk 0 0
      { s with stbl.running := s.stbl.running.map (fun (e : Nat × Placed) =>
          if mine e.2.tk then (e.1, { e.2 with tk := { e.2.tk with flow := 255 } }) else e) }
  let s := { s with
    stbl.frontier := Tab.put s.stbl.frontier f ((n + 1) % 65536)
    stbl.ahead := if held.isEmpty then Tab.del s.stbl.ahead f else Tab.put s.stbl.ahead f held }
  s.trace evRELEASE 7 14 tk 0 0

/-- Count a missed folio and act on its run (R21). -/
def State.countMiss (s : State) (n : Nat) : State :=
  let run := s.out.missRun + 1
  let s := { (s.bump Reg.SYS_DL_MISS).setFlag Reg.SYS_DL_STAT Fl.SYS_DL_STAT_MISS true with out.missRun := run }
  let s := s.setFld Reg.SYS_DL_STAT Fl.SYS_DL_STAT_CONSEC (min run 255)
  let s := if run = 3 then (s.logEvent 0x0081 2 n).setFlag Reg.SYS_DL_STAT Fl.SYS_DL_STAT_FAULT_EV true else s
  if run = 64 then (s.setFlag Reg.SYS_DL_STAT Fl.SYS_DL_STAT_SAFE_TRIP true).enterSafe 3 else s

/-- The folio's own kinds of work, which end with its deadline (R154, R493). -/
def folioKinds : List Nat := [tkFAB, tkHEAD, tkPHA, tkPHB, tkEGRESS]

/-- A complete folio: its states are committed (R189 to R203, R290). -/
def State.folioKept (s : State) (n : Nat) : State :=
  let s := ((s.chainsCommit n).mixCommit n).swapFolioDone n
  let s := (s.putEmission n (s.emitDone n)).setFld Reg.SYS_DL_STAT Fl.SYS_DL_STAT_CONSEC 0
  { s with out.missRun := 0 }

/-- A missed folio (R21, R207, R247, R290): its unfinished work is discarded, the states keep their values. -/
def State.folioMissed (s : State) (n : Nat) : State :=
  let e := s.emitMiss n
  let s := if s.fab.folio.any (fun k => decide (k ≤ n)) then s.abandonFab else s
  let s := s.tailLate n
  let s := s.cancelTickets (fun k => k.folio == n && (folioKinds.contains k.kind || (k.kind == tkMIX && k.item == 0)))
  let s := (((s.chainsMiss n).mixMiss n).wr Reg.CONV_DONE 0xFFFFFFFF).wr Reg.CONV_DONE_MAX 0xFFFFFFFF
  (s.putEmission n e).countMiss n

/-- The bytes a digest covers (R428). -/
def State.digestBytes (s : State) (n : Nat) : List Byte :=
  let e := Tab.at s.out.emit ⟨2, [], []⟩ n
  let d2 := if s.d2Lock then
      (s.procCfg.destBuses 2).map (fun b => Tab.at (Tab.at (s.mixDom 2).bus [] n) (zeros s.folioLen) b)
    else []
  (e.outs.map (·.2) ++ e.buses.map (·.2) ++ d2).flatMap (fun xs => xs.flatMap si4)

/-- A pair's unit digests an output folio: one that mirrors sends it after the `SEAL` (R427), a standby compares it. -/
def State.sealFolio (s : State) (n : Nat) (ok : Bool) : State :=
  if !s.paired then s
  else
    let s := s.sched srSEAL n (by1 (b2n (!ok)) ++ leBytes 7 0)
    let d := crc64 (s.digestBytes n)
    if s.mirrors n then s.tether tfDIGEST (by8 n ++ by8 d)
    else if s.decidesAt n then s
    else ({ s with pair.digs := Tab.put s.pair.digs n d } : State).compareDigests n

/-- Output folio `n` is judged complete or missed (R21). -/
def State.judgeFolio (s : State) (n : Nat) (ok : Bool) : State :=
  let s := [0, 1].foldl (fun s f => s.releaseEgress n f) s
  let s := s.countNodest n
  let s := if ok then s.folioKept n else s.folioMissed n
  let s := { s with out.judged := n + 1 }
  let s := ((s.sweepJudge n ok).probeJudge n ok).sealFolio n ok
  -- the last folio before the data plane stops (R22)
  if s.dp.last = some n then { s with dp.on := false } else s

/-- Whether folio `n` is complete here: it was captured by a plane that still had its ticks (R681). -/
def State.ownResult (s : State) (n : Nat) : Bool := decide (s.dp.resume ≤ n) && s.folioComplete n

/-- Judge folio `n` with the outcome that a standby has been told, where it has been told one (R427). -/
def State.judgeAs (s : State) (n : Nat) (missed : Option Bool) : State :=
  if !s.owns n ∨ n < s.out.judged then s
  else
    let s := if missed.isNone && !s.decidesAt n then s.bump Reg.TTH_MIRROR_LATE else s
    s.judgeFolio n (s.ownResult n && !(missed.getD false))

/-- The folios due at the tick that opens slot `m`: a unit that decides judges folio m−2; another judges it once the `SEAL` is
there, and judges what is older in any case. -/
def State.judgeDue (s : State) (m : Nat) : State :=
  if !s.dp.on then s
  else ((List.range (m - 1 - s.out.judged)).map (· + s.out.judged)).foldl
    (fun s n =>
      let told := Tab.look s.pair.seals n
      if s.decidesAt n then s.judgeAs n (some (told.getD false))
      else if n + 2 < m ∨ told.isSome then s.judgeAs n told
      else s) s

/-! ### Starting and stopping (R22) -/

/-- A mixer that has taken the present gains and sources: what was committed while no folio was processed has no ramp left. -/
def MixRun.settled (c : RCfg) (d : Nat) : MixRun :=
  { MixRun.init with
    gT := (domKeys d c.plan.mixG).foldl (fun t e => Tab.store t 0 e.1 e.2) []
    srcT := (List.range (domSize d)).foldl (fun t i => Tab.store t 0 i (c.rd (Reg.MIX_SRC d i))) [] }

/-- An object slot with nothing of an earlier run of the data plane; the frame last fetched stays readable (R123). -/
def Slot.fresh (o : Slot) : Slot :=
  { o with
    since := 0
    ends := none
    was := []
    evals := []
    store := []
    dirHeld := none
    held := false
    holdRun := 0
    glide := none
    glideAt := none
    air := 0
    fifo := []
    xps := []
    bulk := 0
    work := none
    entered := false
    nextXps := none }

/-- All delay lines, windows, FIFOs and limiters as on entry to RENDER (R22). -/
def State.clearPlane (s : State) : State :=
  let c := s.live
  let win (a : Nat) : Bool := decide (winBase ≤ a) && decide (a < winBase + 2 ^ 23)
  let s := (s.loseMem win).eqCount.silRestart.busSilRestart
  let s := s.setMixDom 0 { s.mixDom 0 with run := MixRun.settled c 0, nxt := none, starts := 0, inb := [], bus := [] }
  { s with
    oms.slots := s.oms.slots.map (fun (e : Nat × Slot) => (e.1, e.2.fresh))
    fab := { s.fab with gone := [], acc := [], folio := none, left := 0, root := none }
    out.ch := s.out.ch.map (fun (e : Nat × OutCh) => (e.1, { e.2 with cur := ChainSt.init c e.1, nxt := none, s5 := [], silAt := none }))
    out.bm := []
    out.bmNxt := none
    conv.gone := []
    conv.fir := s.conv.fir.map (fun (e : Nat × OutFir) => (e.1, { e.2 with dips := [] }))
    out.emit := s.out.emit.filter (fun e => decide (e.1 ≤ s.slot))
    mix.bridges := s.mix.bridges.map (fun (e : Nat × Bridge) => (e.1, { e.2 with hist := [], next := 0, conv := [] }))
    meas.power := []
    meas.probe := [] }

/-- Fill tickets for every object (R682). -/
def State.fillAll (s : State) : State := (s.oms.slots.map (·.1)).foldl (fun s k => s.fillTickets k) s

/-- The data plane starts at a tick, to run in mode `m` from folio `first` on (R22, R682). -/
def State.startPlane (s : State) (m first : Nat) : State :=
  let s := s.cancelTickets (fun k => k.kind == tkGEO || k.kind == tkTAIL || folioKinds.contains k.kind)
  let s := s.clearPlane
  let s := s.setFld Reg.SYS_DL_STAT Fl.SYS_DL_STAT_CONSEC 0
  let s := { s with
    dp := { s.dp with on := true, mode := m, first := first, last := none, resume := 0, complete := [], issued := [], ing := [], waitTick := none }
    out.judged := first
    out.missRun := 0
    stbl.frontier := Tab.put (Tab.put s.stbl.frontier 0 (first % 65536)) 1 (first % 65536)
    stbl.ahead := Tab.del (Tab.del s.stbl.ahead 0) 1 }
  let s := if m = mRENDER then s.dropResults else s.stopProbing
  s.fillAll

/-- The data plane takes no folio after the one just captured (R22). -/
def State.stopPlane (s : State) : State :=
  { s.stopProbing with dp.last := some (s.slot - 1), dp.on := s.dp.on && decide (s.dp.first < s.slot) }

/-- A transition that completes at a tick (R600). On a standby the mode stays, and the data plane acts as in the active's
mode (R443). -/
def State.tickMode (s : State) : State :=
  match s.sys.modeAt with
  | none => s
  | some m =>
    if m = mRENDER ∨ m = mMEASURE then
      if s.mode = mSTANDBY then { s.startPlane m (s.slot + 1) with sys.modeAt := none } else s
    else
      let s := s.stopPlane
      if s.mode = mSTANDBY then { s with sys.modeAt := none } else s.setMode m

/-! ### Work at a tick -/

/-- A standby's frames for folio `n` are all there, but for those it is to hold (R143). -/
def State.framesReady (s : State) (n : Nat) (holds : List Nat) : Bool :=
  (s.folioSlots n).all (fun k =>
    match s.fabSlot k with
    | some o => !s.needsFrame o n || holds.contains (o.handle k) || (o.accepted k n).isSome
    | none => true)

/-- The bridges into D0 for folio `n` (R298): the ratio and phase of one from a domain that is not locked is recorded where this unit
decides, and is the recorded one elsewhere. The phase is the place in 2^-32 source samples (DESIGN CHOICE, notes/assumptions/62). -/
def State.bridgeTick (s : State) (n : Nat) : State :=
  let c := s.procCfg
  (List.range 64).foldl
    (fun s k =>
      let free := s.bridgeFree c k
      if !c.bridgeTo k 0 || (free && !s.leadsAt n) then s
      else
        let s := s.placeBridge c 0 n k
        match (Tab.look s.mix.bridges k).bind (fun b => Tab.look b.conv n) with
        | some v => if free then s.sched srBRIDGE n (by1 k ++ leBytes 3 0 ++ by4 v.ratio ++ by8 (ofS 64 v.pos)) else s
        | none => s) s

/-- Egress tickets of folio `n` (R501). -/
def State.egressTickets (s : State) (n : Nat) : State :=
  s.issueAll 7 ([0, 1].map (fun f => { hwTicket tkEGRESS n f with flow := f, seq := n % 65536 }))

/-- The tickets of folio `n` that the tick issues, all but the geometry's (R25, R151, R227, R288, R450). -/
def State.folioTickets (s : State) (n : Nat) : State :=
  let s := (s.fabTickets n).issue 6 (hwTicket tkMIX n 0)
  let s := (s.fxTickets n).foldl (fun s e => s.issue e.1 e.2) s
  (s.egressTickets n).tailTickets s.slot

/-- The fetch of a folio before the first: run-ahead alone (R126, R682). -/
def State.fetchOnly (s : State) (n : Nat) (holds : Option (List Nat)) : State :=
  (s.folioSlots n).foldl (fun s k => (s.fetchOne k n holds).1) s

/-- Fabric work on folio `n` begins: fetch, duck sets, bridges, tickets (R127 step 3, R151). -/
def State.openFolio (s : State) (n : Nat) (holds : Option (List Nat)) : State :=
  if s.owns n && decide (s.dp.resume ≤ n) then
    (((s.fetchAll n holds).duckTick n).bridgeTick n).folioTickets n
  else if s.dp.on && n + 1 == s.dp.first then s.fetchOnly n holds
  else s

/-- Fabric work on folio `n` never began, for want of its `TICK` or of a frame (R143, R427): every object is held, its entry and feed take
place, and the folio is abandoned (R154). -/
def State.missFabric (s : State) (n : Nat) : State :=
  let c := s.procCfg
  let s := (s.folioSlots n).foldl
    (fun s k =>
      let s := s.switchWindow k n
      match s.fabSlot k with
      | some o =>
        let x : Fetched := ⟨true, o.xps, (o.fetched.map (·.air)).getD 0⟩
        s.putFab k { o with work := some (objWork c s.folioLen n o x (workTo o.xps o.xps) false), entered := false, nextXps := none }
      | none => s) s
  { s with fab.folio := some n }.abandonFab

/-- The fabric's deadline (R154): at a tick, what the root has not written of the folio before the one that has ended is abandoned. -/
def State.closeFabric (s : State) : State :=
  let s := if s.fab.folio.any (fun n => decide (n + 2 ≤ s.slot)) then s.abandonFab else s
  match s.dp.waitTick with
  | some (n, _) => if s.owns n && decide (s.dp.resume ≤ n) && decide (n + 2 ≤ s.slot) then s.missFabric n else s
  | none => s

/-- Bindings that take effect are recorded, in every mode that the clock runs in (R48, R71). -/
def State.bindTick (s : State) : State := (s.oms.slots.map (·.1)).foldl (fun s k => s.recordBinds k) s

/-- Steps 1 and 2 of R127. -/
def State.applyTick (s : State) : State :=
  let ks := s.oms.slots.map (·.1)
  let s := ks.foldl (fun s k => s.runDeferred k) s
  ks.foldl (fun s k => s.applyDue k) s

/-- A standby begins work on the folio whose tick has passed, once its `TICK` has come and its frames are there (R143,
R427). A unit that has taken over waits for neither, and keeps to the records of a folio whose `TICK` has come (R432). -/
def State.tryFollow (s : State) : State :=
  match s.dp.waitTick with
  | none => s
  | some (n, applied) =>
    if s.decidesAt n || s.pair.ticks.contains n then
      let s := if applied then s else { s.applyTick with dp.waitTick := some (n, true) }
      if s.leadsAt n then { s with dp.waitTick := none }.openFolio n none
      else
        let hs := Tab.at s.pair.holds [] n
        if s.decidesAt n || s.framesReady n hs then { s with dp.waitTick := none }.openFolio n (some hs) else s
    else s

/-- Records of a kind waiting to be sent. -/
def State.recsOf (s : State) (kind : Nat) : List (List Byte) := (s.pair.recs.filter (fun r => r.1 == kind)).map (·.2)

/-- Pack records into frames of at most 8192 bytes. -/
def packRecs : List (List Byte) → List Byte → List (List Byte)
  | [], cur => if cur.isEmpty then [] else [cur]
  | r :: rs, cur => if 8192 < cur.length + r.length then cur :: packRecs rs r else packRecs rs (cur ++ r)

/-- The MIRROR frames of folio `n` (R423). -/
def State.mirrorFolio (s : State) (n : Nat) : State :=
  let s := s.strm.rx.foldl
    (fun s e => s.mirrorOut 0 0 e.1 n ((List.range e.2.cfg.chans).map (fun c => s.ingress n (srcKey 1 e.1 c)))) s
  s.mirrorPorts 0 n (Tab.at s.dp.ing [] n)

/-- What the active sends at the close of folio `n` (R427): MIRROR frames, then the records, then `TICK`; of the folio before the first,
which is fetched and not captured, no MIRROR frame. -/
def State.sendClose (s : State) (n : Nat) : State :=
  let rs := [srSUBST, srHOLD, srBRIDGE, srDUCK].map (fun k => s.recsOf k)
  let s := { s with pair.recs := [] }
  if s.mirrors n && (s.owns n || (s.dp.on && n + 1 == s.dp.first)) then
    let s := if s.owns n then s.mirrorFolio n else s
    let s := (packRecs rs.flatten []).foldl (fun s b => s.tether tfSCHED b) s
    let cnt (k : Nat) : List Byte := by2 (nth rs k []).length
    s.tether tfSCHED (schedRec srTICK n (cnt 1 ++ cnt 0 ++ cnt 2 ++ cnt 3))
  else s

/-- Streams and D0 port blocks close (R369): their Q0 tickets are issued, run and completed within the tick. -/
def State.ingressTick (s : State) (n : Nat) : State :=
  let s := s.closeStreams n
  let ports := countIf (List.range 14) (fun q => s.procCfg.flag (Reg.TDM_CFG q) Fl.TDM_CFG_EN && s.procCfg.tdmDom q == 0)
  let k := if s.dp.on then s.strm.rx.length + ports else 0
  (s.count Reg.STBL_ISSUED k).count Reg.STBL_DONE k

/-- What run-ahead keeps of an object from folio `n` on. -/
def Slot.pruned (o : Slot) (n : Nat) : Slot :=
  { o with evals := o.evals.filter (fun v => decide (n ≤ v.folio)), store := o.store.filter (fun g => decide (n ≤ g.folio)) }

/-- Drop what no later folio needs. -/
def State.pruneTick (s : State) (m : Nat) : State :=
  let old (x : Nat × Nat × Nat) : Bool := decide (x.2.1 + 4 < m)
  let left := s.dp.issued.filter (fun x => !old x || (x.1 == tkTAIL && !s.dp.complete.contains x))
  { s with
    dp.issued := left
    dp.complete := s.dp.complete.filter (fun x => !old x)
    dp.ing := keepFrom (m - 4) s.dp.ing
    pair.holds := keepFrom (m - 4) s.pair.holds
    pair.ticks := s.pair.ticks.filter (fun n => decide (m - 4 ≤ n))
    pair.seals := keepFrom (m - 4) s.pair.seals
    pair.digs := keepFrom (m - 8) s.pair.digs
    pair.peerDigs := keepFrom (m - 8) s.pair.peerDigs
    conv.gone := s.conv.gone.filter (fun (e : Nat × Nat × OutFir) => decide (m ≤ e.2.1 + 1))
    conv.fir := s.conv.fir.map (fun (e : Nat × OutFir) => (e.1, { e.2 with dips := e.2.dips.filter (fun d => d.inReach s.folioLen m) }))
    fx.insts := (s.fx.insts.map (fun (e : Nat × List FxInst) =>
        let past := (e.2.filter (fun x => decide (x.first + 4 ≤ m))).dropLast
        (e.1, e.2.filter (fun x => !past.contains x && !x.ends.any (fun g => decide (g + 4 < m)))))).filter (fun e => !e.2.isEmpty)
    oms.slots := s.oms.slots.map (fun (e : Nat × Slot) => (e.1, e.2.pruned (m - 2)))
    fab.gone := (s.fab.gone.filter (fun e => e.2.ends.any (fun x => decide (m ≤ x)))).map (fun (e : Nat × Slot) => (e.1, e.2.pruned (m - 2))) }

/-- The configuration moves on by a folio (R24). -/
def State.shiftConfig (s : State) : State :=
  ({ s with emi := s.proc, proc := s.cap, cap := ⟨s.regs, s.plan⟩ } : State).takeDomains s.cap

/-- The clock marker that the active inserts (R421). -/
def State.sendMarker (s : State) : State :=
  if s.paired && s.linkUp && s.pstate == psACTIVE then { s with pair.marker := some (s.sys.mediaTime % 2 ^ 56) } else s

/-- Modes in which the object table moves at every tick (R38, R598). -/
def tableModes : List Nat := [mIDLE, mRENDER, mSTANDBY, mRESYNC, mMEASURE, mSERVICE]

/-- The domain D2 that is locked to D0 ends a block (R284). -/
def State.d2Tick (s : State) (m : Nat) : State :=
  if s.d2Lock && s.planeOn then (s.setMixDom 2 { s.mixDom 2 with block := m - 1 }).blockEnd 2 else s

/-- The tick is noted, and a media clock that had stopped runs again (R681). -/
def State.noteTick (s : State) : State :=
  let m := s.slot
  let s := if s.sys.mediaStopped && s.dp.on then { s with dp.resume := m, out.judged := min s.out.judged m } else s
  { s with sys.lastTick := some s.sys.mediaTime, sys.mediaStopped := false, dp.tickNow := s.now }

/-- Steps 1 to 3 of R127 at the tick that ends slot `n`. A standby that follows the active applies records with the `TICK`,
which every update precedes (R427). -/
def State.tickFabric (s : State) (n : Nat) : State :=
  let leads := s.leadsAt n || !s.dp.on
  let s := if leads && tableModes.contains s.mode then s.applyTick else s
  if leads then s.openFolio n none else { s with dp.waitTick := some (n, false) }.tryFollow

/-- The work of the tick that opens slot `m`. -/
def State.tickWork (s : State) (m : Nat) (pdm : List (Nat × Nat × Nat)) : State :=
  let s := if s.d2Lock then s.micTick s.capCfg pdm else s
  let s := ((s.sweepTick (m - 1)).probeTick (m - 1)).shiftConfig
  let s := (s.tickMode.ingressTick (m - 1)).tickFabric (m - 1)
  let s := if s.dp.on && s.dp.last.isNone then (s.oms.slots.map (·.1)).foldl (fun s k => s.edgeTicket k) s else s
  let s := ((s.d2Tick m).sendClose (m - 1)).sendMarker
  let s := if s.dp.on then s.refreshHint else s
  ((s.ampLatch s.emiCfg).ampLevels s.emiCfg).pruneTick m

/-- Everything at the tick that opens the present slot; `pdm` is what the microphones' data pins carried in the folio that ends. -/
def State.folioTick (s : State) (pdm : List (Nat × Nat × Nat)) : State :=
  let s := (s.noteTick.bindTick.closeFabric).judgeDue s.slot
  if [mHALT, mBOOT, mLOAD, mSAFE, mFAULT].contains s.mode then s.shiftConfig else s.tickWork s.slot pdm

/-- Whether a tick is due: media time is a multiple of F, and this multiple has had no tick (R15). -/
def State.tickDue (s : State) : Bool := s.sys.mediaTime % s.folioLen == 0 && s.sys.lastTick != some s.sys.mediaTime

/-! ### Rows -/

/-- `DEADLINE_MISS` (R21): the tick that ends slot n+1 finds output folio n incomplete. -/
def execDeadlineMiss (t : Nat) (s : State) : Out :=
  let s := s.atTime t
  let n := s.out.judged
  if s.slot = n + 2 ∧ s.owns n = true ∧ s.ownResult n = false ∧ s.decidesAt n = true then .next (s.judgeFolio n false) else .next s

/-- `MISSING_FOLIO_TICK` (R681): a folio period passes on the crystal without the next tick. -/
def execMissingFolioTick (t : Nat) (s : State) : Out :=
  let s := s.atTime t
  let n := s.out.judged
  if (s.mode = mRENDER ∨ s.mode = mMEASURE) ∧ s.owns n = true ∧ s.sys.lastTick.isSome = true then
    .next ({ s with sys.mediaStopped := true, dp.resume := n + 1 }.judgeFolio n false)
  else .next s

/-- `MEDIA_CLOCK_PERIOD` (R14): one period of the media clock. -/
def execMediaClockPeriod (t : Nat) (s : State) : Out :=
  let s := s.atTime t
  .next { s with sys.mediaTime := (s.sys.mediaTime + 1) % 2 ^ 64 }

/-- Every domain the data plane uses is ON (R633). -/
def State.planePowered (s : State) : Bool := (s.planeDomains.filter (domainPresent s.otp.grade)).all s.domOn

/-- The reference that the restored `CLK_SEL` selects is qualified, and media time aligned to it (R614). A crystal or an open loop needs
neither; a reference that carries no time needs no alignment. -/
def State.refReady (s : State) : Bool :=
  let sel := s.clk.sel
  let timed := sel == 0 || sel == 4 || (sel == 3 && s.flag (Reg.CLK_REF_CFG 3) Fl.CLK_REF_CFG_PPS_EN)
  if s.fld Reg.CLK_SEL Fl.CLK_SEL_MANUAL = 5 ∨ s.fld Reg.CLK_SEL Fl.CLK_SEL_MANUAL = 14 then true
  else decide (sel < 5) && s.fld (Reg.CLK_REF_STAT sel) Fl.CLK_REF_STAT_STATE == 3 && (s.sys.aligned || !timed)

/-- The mode that a pending transition is to enter at a tick: a commanded one, or RENDER after a restored scene (R614). -/
def State.entryGoal (s : State) : Option Nat :=
  match s.sys.modeAt with
  | some m => some m
  | none => if s.sys.refWait && s.refReady then some mRENDER else none

/-- `RENDER_ENTRY` (R22, R600, R633): a pending transition into RENDER or MEASURE completes at the folio tick. -/
def execRenderEntry (t : Nat) (s : State) : Out :=
  let s := s.atTime t
  match s.entryGoal with
  | some m =>
    if (m = mRENDER ∨ m = mMEASURE) ∧ s.mode ≠ mSTANDBY ∧ s.sys.lastTick = some s.sys.mediaTime ∧ s.planePowered = true then
      .next ((s.setMode m).startPlane m (s.slot + 1))
    else .next s
  | none => .next s

/-- `GEO_TICKET_DONE` (R75, R136): geometry engine `e` completes an evaluation; a standby's fetch may have waited for it. -/
def execGeoTicketDone (e t : Nat) (s : State) : Out := .next ((s.atTime t).geoDone e).tryFollow

/-- `EGRESS_TICKET_DONE` (R500): the egress engine completes its ticket; flows 0 and 1 release at the tick (R501). -/
def execEgressTicketDone (e t : Nat) (s : State) : Out :=
  let s := s.atTime t
  match s.runningOn e [tkEGRESS] with
  | none => .next s
  | some x =>
    let s := s.finishTicket e x
    let n := x.tk.folio
    let s := if n + 1 = s.slot ∧ s.decidesAt n = true ∧ s.ownResult n = true then s.swapLast n else s
    .next (State.startNext State.onStart 3 s e)

end Sys2Proof.Machine
end

