-- ==== Sys2Proof/Machine/Format.lean ====
section
/-!
DEFINITION. The render rate and folio size (R29, R33) and the capacity budgets (R27, R34).
-/

namespace Sys2Proof.Machine

/-- What the present configuration reserves of a budget (R27). -/
def State.budgetUse (s : State) (i : Nat) : Nat :=
  match i with
  | 0 => s.oms.slots.length
  | 1 => s.outputs.length
  | 2 => (s.oms.slots.map (fun o => o.2.quota)).sum
  | 3 => (s.oms.slots.map (fun o => classLen o.2.cls)).sum
  | 4 => s.longCount
  | 5 => (s.rxUse 256).1
  | 6 => (s.txUse 256).1
  | 7 => (s.rxUse 256).2
  | _ => (s.txUse 256).2

/-- The first budget that the present configuration would exceed at a rate code (R29). -/
def State.overBudget (s : State) (rate : Nat) : Option Nat :=
  (List.range 9).find? (fun i => decide (budgetLimit s.otp.grade (decide (2 ≤ rate)) i < s.budgetUse i))

def specBudgetQuery : CmdSpec := cmdRow 0x0011 2 false 0 0 fwModes false
def cmdBudgetQuery (_p : Packet) (s : State) : CmdRes :=
  .ok s ((List.range 9).flatMap (fun i => by4 (s.budgetUse i) ++ by4 (s.limit i)))
/-- `BUDGET_QUERY` (R34). -/
def execBudgetQuery (p : Packet) (s : State) : Out := runPacket specBudgetQuery p (cmdBudgetQuery p) s

/-- The first enabled port that the new render rate would clock too fast (R312). -/
def State.formatPort (s : State) (rate : Nat) : Option Nat :=
  s.tooFast (fun d => d == 0 || (d == 2 && s.fld Reg.MIX_DOM_CFG Fl.MIX_DOM_CFG_D2_REF == 0)) (rateHz rate)

/-- The first enabled receive stream whose link offset would exceed 20 ms (R378). -/
def State.formatStream (s : State) (rate : Nat) : Option Nat :=
  (s.strm.rx.find? (fun e => e.2.gone.isNone && decide (maxOffset (rateHz rate) < e.2.cfg.offset))).map (·.1)

/-- Some active set becomes dormant under a rate code (R234). -/
def State.newlyDormant (s : State) (rate : Nat) : Bool :=
  s.conv.fir.any (fun e => s.live.outConf e.1 && e.2.active.any (fun q => q.rate == s.rateCode && q.rate != rate))

/-- The new rate and folio size are in force (R33). -/
def State.applyFormat (s : State) (rate folio : Nat) : State :=
  let dorm := s.newlyDormant rate
  let anew := folioOf folio != s.folioLen
  let s := (s.setFld Reg.SYS_RENDER_CFG Fl.SYS_RENDER_CFG_RATE rate).setFld Reg.SYS_RENDER_CFG Fl.SYS_RENDER_CFG_FOLIO folio
  let s := if dorm then s.irq Reg.CONV_IRQ_STAT Fl.CONV_IRQ_STAT_DORMANT else s
  let s := if anew then s.retransformAll else s
  (s.conv.fir.map (·.1)).foldl (fun s o => s.settleHead o) s

/-- Some output holds a FIR set. -/
def State.firLoaded (s : State) : Bool := s.conv.fir.any (fun e => e.2.a.isSome || e.2.b.isSome)

def specRenderFormatSet : CmdSpec := cmdRow 0x0010 0 true 4 4 idleModes true
def cmdRenderFormatSet (p : Packet) (s : State) : CmdRes :=
  let r := u8 p.params 0
  let c := u8 p.params 1
  if 3 < r ∨ 2 < c ∨ !zeroAt p.params 2 2 then .fail s stBAD_PARAM []
  else
    match s.overBudget r with
    | some i => .fail s stNO_RESOURCE (by1 i)
    | none =>
      match s.formatPort r with
      | some q => .fail s stBAD_PARAM (by1 (0x20 + q))
      | none =>
        match s.formatStream r with
        | some k => .fail s stBAD_PARAM (by1 0x30 ++ by2 k)
        | none =>
          match s.fxTooFast (folioOf c) (rateHz r) with
          | some k => .fail s stNO_RESOURCE (by1 (0x40 + k))
          | none =>
            if s.firLoaded && folioOf c != s.folioLen then .long s [r, c] else .ok (s.applyFormat r c) []
/-- `RENDER_FORMAT_SET` (R29, R33, R378, R454). -/
def execRenderFormatSet (p : Packet) (s : State) : Out := runPacket specRenderFormatSet p (cmdRenderFormatSet p) s

/-- The sets have been transformed anew (R33). -/
def finRenderFormat (s : State) (args : List Nat) : State × Nat × List Byte :=
  (s.applyFormat (nth args 0 0) (nth args 1 0), stOK, [])

end Sys2Proof.Machine
end

