-- ==== Sys2Proof/Machine/Pair.lean ====
section
/-!
DEFINITION. The Redundant Pair: the rein (R412 to R418), the Tether (R419 to R424), mirror and schedule records on a standby
(R425 to R427), takeover (R432), resync (R434 to R436), controlled switchover (R438), and the commands of R447.
-/

namespace Sys2Proof.Machine

/-! ### What the registers show (R445) -/

/-- Time since the last `REIN_IN` edge in nanoseconds; none where no edge has come. -/
def State.quietNs (s : State) : Option Nat := s.pair.edgeAt.map (fun e => s.now - e)

/-- `REIN_IN` is quiet for `d` nanoseconds (R413). -/
def State.quiet (s : State) (d : Nat) : Bool := s.quietNs.all (fun q => decide (d ≤ q))

/-- The unit acts as one whose `UNIT_ID` is 1 (R417). -/
def State.yields (s : State) : Bool := s.sys.straps.unitId == 1 || s.flag Reg.TTH_STAT Fl.TTH_STAT_ID_CONFLICT

/-- Registers of the block that show what State holds elsewhere. -/
def State.liveTth (s : State) (a : Nat) : Option Nat :=
  if a = Reg.TTH_STAT then
    let v := setBitN (s.rd a) Fl.TTH_STAT_PAIR_EN.lo s.sys.straps.pairEn
    some (setBitN v Fl.TTH_STAT_UNIT_ID.lo (s.sys.straps.unitId == 1))
  else if a = Reg.TTH_REIN_STAT then
    some (setBitsN (s.rd a) 15 0 (min 65535 ((s.quietNs.map (· / 10)).getD 65535)))
  else if a = Reg.TTH_COMPAT then some (s.sys.firm.compat % 65536)
  else none

/-! ### CONTROL frames and readiness -/

/-- Send a CONTROL frame (R423): a request and its number. A NAK that is due replaces a keep-alive (R424). -/
def State.control (s : State) (req arg : Nat) : State :=
  let nak := s.pair.nak && req == 0
  let r := if nak then 1 else req
  let v := if nak then s.pair.rxSeq else arg
  let s := s.tether tfCONTROL (by1 r ++ leBytes 3 0 ++ by4 v ++ by1 s.sys.straps.unitId ++ by2 s.sys.firm.compat ++ leBytes 5 0)
  { s with pair.ctlSent := s.now, pair.nak := s.pair.nak && !nak }

/-- The peer becomes ready or stops being ready (R418, R444). -/
def State.setReady (s : State) (b : Bool) : State :=
  if s.peerReady = b then s
  else (s.setFlag Reg.TTH_STAT Fl.TTH_STAT_PEER_READY b).irq Reg.TTH_IRQ_STAT Fl.TTH_IRQ_STAT_PEER

/-- `KEEP_ALIVE` (R424): 10 µs since the last CONTROL frame. -/
def execKeepAlive (t : Nat) (s : State) : Out :=
  let s := s.atTime t
  if s.paired ∧ s.linkUp = true ∧ s.pair.ctlSent + 10000 ≤ s.now then .next (s.control 0 0) else .next s

/-- `PEER_READY_LAPSE` (R418): no CONTROL frame for 50 µs. -/
def execPeerReadyLapse (t : Nat) (s : State) : Out :=
  let s := s.atTime t
  if s.pair.lastCtl.all (fun c => decide (c + 50000 < s.now)) then .next (s.setReady false) else .next s

/-! ### The link (R420, R424) -/

/-- `TETHER_UP` (R420): both lanes hold block lock and alignment; `rtt` is the round-trip time measured. A lane that returns to a
link that is up restarts nothing. -/
def execTetherUp (rtt t : Nat) (s : State) : Out :=
  let s := s.atTime t
  if !s.paired then .next s
  else
    let was := s.linkUp
    let s := ((s.setFlag Reg.TTH_LINK_STAT Fl.TTH_LINK_STAT_LANE0 true).setFlag Reg.TTH_LINK_STAT Fl.TTH_LINK_STAT_LANE1 true).setFlag
      Reg.TTH_LINK_STAT Fl.TTH_LINK_STAT_ALIGNED true
    let s := (s.setFld Reg.TTH_LINK_STAT Fl.TTH_LINK_STAT_RTT_NS (min rtt 65535)).setFlag Reg.TTH_STAT Fl.TTH_STAT_LANE_DEG false
    if was then .next s
    else
      let s := (s.setFlag Reg.TTH_STAT Fl.TTH_STAT_LINK_UP true).irq Reg.TTH_IRQ_STAT Fl.TTH_IRQ_STAT_LINK
      .next { s with pair.tx := [], pair.txSeq := 0, pair.rxSeq := 0, pair.nak := false, pair.lastRx := s.now, pair.ctlSent := s.now }

/-- The link goes down (R424, R429, R436, R439). -/
def State.tetherDown (s : State) : State :=
  if !s.linkUp then s
  else
    let s := (s.setFlag Reg.TTH_STAT Fl.TTH_STAT_LINK_UP false).setFlag Reg.TTH_STAT Fl.TTH_STAT_LANE_DEG false
    let s := ((s.setFlag Reg.TTH_LINK_STAT Fl.TTH_LINK_STAT_LANE0 false).setFlag Reg.TTH_LINK_STAT Fl.TTH_LINK_STAT_LANE1 false).setFlag
      Reg.TTH_LINK_STAT Fl.TTH_LINK_STAT_ALIGNED false
    let s := (s.bump Reg.TTH_LINK_DOWN).irq Reg.TTH_IRQ_STAT Fl.TTH_IRQ_STAT_LINK
    let s := { s with pair.tx := [], pair.txSeq := 0, pair.rxSeq := 0, pair.nak := false, pair.turn := none, pair.granted := false,
                      cmd.peerBusy := none }
    let s := s.loseRef 4
    let s := if s.pstate = psSTANDBY then s.becomeUnsync else if s.pstate = psRESYNC then s.failResync else { s with pair.cut := none }
    (s.finishHeld 4 stPEER_UNAVAILABLE []).finishHeld 3 stPEER_UNAVAILABLE []

/-- `TETHER_DOWN` (R424): no valid frame for 100 µs. -/
def rowTetherDown (t : Nat) (s : State) : Out :=
  let s := s.atTime t
  if s.pair.lastRx + 100000 ≤ s.now then .next s.tetherDown else .next s

/-- `LANE_FAIL` (R420): lane 0 or 1 loses block lock; the link goes on at half rate. -/
def execLaneFail (lane t : Nat) (s : State) : Out :=
  let s := s.atTime t
  if !s.paired ∨ s.linkUp = false ∨ 2 ≤ lane then .next s
  else
    let s := s.setFlag Reg.TTH_LINK_STAT (if lane = 0 then Fl.TTH_LINK_STAT_LANE0 else Fl.TTH_LINK_STAT_LANE1) false
    .next (s.setFlag Reg.TTH_STAT Fl.TTH_STAT_LANE_DEG true)

/-- `CLOCK_MARKER` (R421): `mt` is bits 55:0 of the active's media time at its tick. -/
def execClockMarker (mt t : Nat) (s : State) : Out :=
  let s := s.atTime t
  if s.paired ∧ s.linkUp = true ∧ s.aonClocked = true then
    .next ({ s with clk.marker := some (mt % 2 ^ 56, s.sys.mediaTime % 2 ^ 56) }.refEdge 4 t)
  else .next s

/-! ### Receiving frames (R424) -/

/-- Both units report one compatibility level (R436). -/
def State.compatEqual (s : State) : Bool := s.fld Reg.TTH_PEER_INFO Fl.TTH_PEER_INFO_COMPAT == s.sys.firm.compat % 65536

/-- The unit may start to resync (R431, R436). -/
def State.mayResync (s : State) : Bool :=
  s.linkUp && s.compatEqual &&
    (s.pstate == psUNSYNC ||
      ((s.pstate == psWAIT || s.pstate == psFENCED) && s.mode == mIDLE &&
        s.fld Reg.TTH_PEER_INFO Fl.TTH_PEER_INFO_PSTATE == psACTIVE))

/-- Resync starts by itself (R431). -/
def State.autoResync (s : State) : State :=
  if s.flag Reg.TTH_CFG Fl.TTH_CFG_AUTO_RESYNC && s.mayResync then s.startResync else s

/-- The number nearest to `near` whose low `w` bits are `v`. -/
def expand (w near v : Nat) : Nat :=
  let m := 2 ^ w
  let n := near / m * m + v % m
  if n + m / 2 < near then n + m else if near + m / 2 < n ∧ m ≤ n then n - m else n

/-- What every frame tells of the peer, and what its acknowledgement completes (R422, R441). -/
def State.peerReport (s : State) (f : TethIn) : State :=
  let s := (s.setFld Reg.TTH_PEER_INFO Fl.TTH_PEER_INFO_PSTATE f.pstate).setFld Reg.TTH_PEER_INFO Fl.TTH_PEER_INFO_MODE f.mode
  let s := { s with cmd.peerBusy := f.busy }
  match s.cmd.held with
  | some h =>
    if h.kind = 0 ∧ (f.ack + 2 ^ 32 - h.arg) % 2 ^ 32 < 2 ^ 31 then s.finishHeld 0 h.status h.result else s
  | none => s

/-- A frame arrives (R424): a bad one is dropped and asked for again, others are delivered in sequence. -/
def State.frameIn (s : State) (f : TethIn) (bad : Bool) (act : State → State) : State :=
  if !s.paired ∨ s.linkUp = false then s
  else if bad then { s.bump Reg.TTH_CRC_ERR with pair.nak := true }
  else
    let s := { s with pair.lastRx := s.now }
    let d := (f.seq + 2 ^ 32 - s.pair.rxSeq) % 2 ^ 32
    if d = 0 then
      let s := { s with pair.rxSeq := (s.pair.rxSeq + 1) % 2 ^ 32, pair.nak := false }
      (act (s.peerReport f)).autoResync
    else if d < 2 ^ 31 then { s with pair.nak := true }
    else s

/-- This unit takes what the active mirrors and records. -/
def State.follows (s : State) : Bool :=
  s.pstate == psSTANDBY || s.pstate == psUNSYNC || s.pstate == psRESYNC || s.pair.turn.isSome

/-- Samples of a MIRROR frame (R423): `c` channels of `f` samples from byte 16. -/
def mirrorSamples (b : List Byte) (c f : Nat) : List (List Int) :=
  (List.range c).map (fun ch => (List.range f).map (fun i => i32 b (16 + 4 * (ch * f + i))))

/-- Put a mirrored channel where the standby's own data plane takes it (R425). -/
def State.putMirror (s : State) (kind dom idx blk ch : Nat) (xs : List Int) : State :=
  if kind = 0 then s.putIngress blk (srcKey 1 idx ch) xs
  else if kind = 1 ∧ dom = 0 then s.putIngress blk (srcKey 2 idx ch) xs
  else if kind = 1 ∧ dom < 3 then
    let m := s.mixDom dom
    s.setMixDom dom { m with inb := Tab.put m.inb blk (Tab.put (Tab.at m.inb [] blk) (srcKey 2 idx ch) xs) }
  else if kind = 2 then
    let m := s.mixDom 2
    s.setMixDom 2 { m with inb := Tab.put m.inb blk (Tab.put (Tab.at m.inb [] blk) (srcKey 7 idx 0) xs) }
  else s

def State.takeMirror (s : State) (b : List Byte) : State :=
  let kind := u8 b 0
  let dom := u8 b 1
  let near := if (kind = 1 ∨ kind = 2) ∧ (dom = 1 ∨ dom = 2) then (s.mixDom dom).block else s.slot
  let blk := expand 32 near (u32 b 4)
  if s.decidesAt (if dom = 0 then blk else s.slot) then s
  else
    let c := u8 b 9
    let xs := mirrorSamples b c (u8 b 10)
    (((List.range c).zip xs).foldl (fun s e => s.putMirror kind dom (u16 b 2) blk (u8 b 8 + e.1) e.2) s).tryFollow

/-- `MIRROR` (R425). -/
def rowMirror (f : TethIn) (bad : Bool) (t : Nat) (s : State) : Out :=
  .next ((s.atTime t).frameIn f bad (fun s => if s.follows then s.takeMirror f.body else s))

/-! ### Schedule records (R426) -/

/-- The entry an `UPDATE` record carries. -/
def updateOf (e : List Byte) : Option Upd := if e.length = 64 then decodeSegment (e.take 32) (e.drop 32) else decodeEntry e

/-- A forwarded update (R60, R142): it takes the recorded visibility folio, and frames already started from there on are squashed.
The record carries no message timestamp and no target of a late update: the time of its folio stands for both (notes/assumptions/41).
Merging, coalescing and discarding follow from the records that the active had too, since every update is forwarded in order. It was
late at the active where the active has passed the tick of its folio. -/
def State.takeUpdate (s : State) (n handle v : Nat) (e : List Byte) : State :=
  let k := handle % 1024
  match s.slotAt k, updateOf e with
  | some o, some u =>
    let bnd := n * s.folioLen
    let late := s.pair.ticks.any (fun x => decide (n ≤ x + 1))
    let how := o.placing bnd
    if how = .drop then s
    else
      let o := o.coalesced how bnd late
      let gone := if u = .release then o.discards bnd else []
      let o := { o with pend := o.pend.filter (fun r => !gone.contains r) }
      let glides := late && (u.enters || (how == .coalesce && o.entersAt bnd))
      let o := (o.put bnd ⟨bnd, handle / 1024, v, late, u⟩).effects bnd u
      let o := { o with lastVis := v, glideAt := if glides then some n else o.glideAt }
      let hit := u.enters && (s.started o).any (fun x => decide (v ≤ x.folio))
      (s.setSlot k o).afterPut k v hit u
  | _, _ => s

/-- One schedule record. -/
def State.takeRecord (s : State) (r : List Byte) : State :=
  let kind := u8 r 0
  let n := expand 32 s.slot (u32 r 4)
  if kind = srTICK then { s with pair.ticks := n :: s.pair.ticks }.tryFollow
  else if kind = srHOLD then { s with pair.holds := Tab.put s.pair.holds n (Tab.at s.pair.holds [] n ++ [u16 r 8]) }
  else if kind = srBRIDGE then
    let k := u8 r 8
    let b := (Tab.look s.mix.bridges k).getD Bridge.init
    let x : BrgConv := ⟨b.phase, u32 r 12, toS 64 (u64 r 16)⟩
    { s with mix.bridges := Tab.put s.mix.bridges k (b.convert n x) }
  else if kind = srDUCK then { s with mix.duckRec := s.mix.duckRec ++ [(u8 r 8, u8 r 9 == 1)] }
  else if kind = srUPDATE then s.takeUpdate n (u16 r 8) (expand 32 s.slot (u32 r 12)) (r.drop 16)
  else if kind = srSEAL then
    let missed := u8 r 8 == 1
    let s := { s with pair.seals := Tab.put s.pair.seals n missed }
    if n + 2 ≤ s.slot ∧ s.decidesAt n = false then s.judgeAs n (some missed) else s
  else s

/-- The records of a frame, back to back; each tells its length. -/
def takeRecords : Nat → List Byte → State → State
  | 0, _, s => s
  | k + 1, b, s =>
    let n := 8 * u8 b 1
    if b.length < 8 ∨ n = 0 then s else takeRecords k (b.drop n) (s.takeRecord (b.take n))

/-- `SCHED` (R426). -/
def rowSched (f : TethIn) (bad : Bool) (t : Nat) (s : State) : Out :=
  .next ((s.atTime t).frameIn f bad (fun s => if s.follows then takeRecords f.body.length f.body s else s))

/-- `SNAP` (R434): a page of a state region. -/
def rowSnap (f : TethIn) (bad : Bool) (t : Nat) (s : State) : Out :=
  .next ((s.atTime t).frameIn f bad (fun s =>
    if s.pstate = psRESYNC ∧ s.rphase = 2 then
      { s with pair.snap := s.pair.snap ++ [⟨u16 f.body 0, u64 f.body 4, f.body.drop 12⟩] }
    else s))

/-- `DIGEST` (R429). -/
def rowDigest (f : TethIn) (bad : Bool) (t : Nat) (s : State) : Out :=
  .next ((s.atTime t).frameIn f bad (fun s =>
    if s.pstate = psSTANDBY ∨ s.pstate = psRESYNC then
      let n := u64 f.body 0
      { s with pair.peerDigs := Tab.put s.pair.peerDigs n (u64 f.body 8) }.compareDigests n
    else s))

/-! ### CONTROL (R424, R438) -/

/-- Retransmit from a sequence, or lose the link where the buffer no longer holds it (R424). -/
def State.retransmit (s : State) (from_ : Nat) : State :=
  let wanted (f : TFrame) : Bool := decide ((f.seq + 2 ^ 32 - from_) % 2 ^ 32 < 2 ^ 31)
  if from_ = s.pair.txSeq then s
  else if s.pair.tx.any (fun f => f.seq == from_) then
    (({ s with pair.tx := s.pair.tx.map (fun f => if wanted f then { f with flags := 1 } else f) } : State).count Reg.TTH_RETX
      (countIf s.pair.tx wanted))
  else s.tetherDown

/-- Abandon a resync (R431, R447). -/
def State.abortResync (s : State) : State :=
  if s.pstate = psRESYNC then (s.dropRecords).becomeUnsync else { s with pair.cut := none }

/-- What a CONTROL frame asks. -/
def State.takeControl (s : State) (f : TethIn) : State :=
  let b := f.body
  let s := { s with pair.lastCtl := some s.now }
  let s := s.setFld Reg.TTH_PEER_INFO Fl.TTH_PEER_INFO_COMPAT (u16 b 9)
  let s := if u8 b 8 = s.sys.straps.unitId ∧ s.flag Reg.TTH_STAT Fl.TTH_STAT_ID_CONFLICT = false then
      (s.setFlag Reg.TTH_STAT Fl.TTH_STAT_ID_CONFLICT true).irq Reg.TTH_IRQ_STAT Fl.TTH_IRQ_STAT_ID_CONFLICT
    else s
  let s := s.setReady (f.pstate == psSTANDBY || f.pstate == psUNSYNC || (f.pstate == psRESYNC && s.pair.cut.isSome))
  let v := u32 b 4
  match u8 b 0 with
  | 1 => s.retransmit v
  | 2 => if s.pstate = psSTANDBY then { s with pair.turn := some (expand 32 s.slot v, true), pair.granted := true }.control 3 v else s
  | 3 => if s.pair.turn.isSome then { s with pair.granted := true } else s
  | 4 => if s.holds = false ∧ s.mayResync = true then s.startResync else s
  | 5 => s.abortResync
  | _ => s

/-- `CONTROL` (R424). -/
def rowControl (f : TethIn) (bad : Bool) (t : Nat) (s : State) : Out :=
  .next ((s.atTime t).frameIn f bad (fun s => s.takeControl f))

/-! ### The rein (R415 to R418) -/

/-- In the last microsecond before a granted handover each unit ignores the other's edges (R438). -/
def State.ignoresRein (s : State) : Bool :=
  s.pair.granted && s.pair.turn.any (fun x =>
    decide (x.1 + 2 ≤ s.slot) ||
      (s.slot == x.1 + 1 && decide ((s.dp.tickNow + s.folioLen * 1000000000 / s.fs) ≤ s.now + 1000)))

/-- `REIN_EDGE` (R417). -/
def execReinEdge (t : Nat) (s : State) : Out :=
  let s := s.atTime t
  if !s.paired then .next s
  else
    let s := { s with pair.edgeAt := some s.now }
    if s.holds = false ∨ s.ignoresRein = true then .next s
    else
      let s := s.setFlag Reg.TTH_STAT Fl.TTH_STAT_DRIVING false
      if s.yields then
        let s := (s.dropRein).setPstate psWAIT
        let s := (s.bump Reg.TTH_RELEASE).irq Reg.TTH_IRQ_STAT Fl.TTH_IRQ_STAT_RELEASE
        .next { s with pair.waits := s.flag Reg.TTH_STAT Fl.TTH_STAT_ID_CONFLICT }
      else .next s

/-- `REDRIVE` (R417): a holder with `UNIT_ID` 0 drives again after 1 µs of quiet. -/
def execRedrive (t : Nat) (s : State) : Out :=
  let s := s.atTime t
  if s.paired ∧ s.holds = true ∧ s.quiet 1000 = true then .next (s.setFlag Reg.TTH_STAT Fl.TTH_STAT_DRIVING true) else .next s

/-- `CONTENTION_WAIT_END` (R417). -/
def execContentionWaitEnd (t : Nat) (s : State) : Out := .next { s.atTime t with pair.waits := false }

/-- The mode a takeover takes (R432). -/
def State.takeoverMode (s : State) : Nat :=
  let m := s.fld Reg.TTH_PEER_INFO Fl.TTH_PEER_INFO_MODE
  if [mRENDER, mMEASURE, mIDLE, mSERVICE].contains m then m else mIDLE

/-- Inputs with those that the unit received itself in place of mirrored ones; with `all` unset, only where no mirrored one is there. -/
def ownInputs (all : Bool) (t : Tab (List Int)) : Tab (List Int) :=
  t.foldl
    (fun u e =>
      if e.1 < ownKey 0 then u
      else
        let k := e.1 - ownKey 0
        let u := Tab.del u e.1
        if all || (Tab.look t k).isNone then Tab.put u k e.2 else u) t

/-- A unit that decides from now on takes its own inputs for the folios that have had no `TICK`, and for the blocks of D1 and D2 that
have had no MIRROR frame (R432). -/
def State.adoptOwn (s : State) : State :=
  let dom (d : Nat) (s : State) : State :=
    let m := s.mixDom d
    s.setMixDom d { m with inb := m.inb.map (fun (e : Nat × Tab (List Int)) => (e.1, ownInputs false e.2)) }
  let s := dom 2 (dom 1 s)
  { s with dp.ing := s.dp.ing.map (fun (e : Nat × Tab (List Int)) => if s.pair.ticks.contains e.1 then e else (e.1, ownInputs true e.2)) }

/-- The data plane in the mode taken over: it goes on, starts or stops. -/
def State.takeoverPlane (s : State) (m : Nat) : State :=
  if m = mRENDER ∨ m = mMEASURE then
    if s.dp.on then { s with dp.mode := m } else s.startPlane m (s.slot + 1)
  else { s with dp.on := false }

/-- The frames with which firmware announces the pair identity on the media ports (R432), on a queue that no chapter names. -/
def State.announceIdent (s : State) : State :=
  match s.pair.ident with
  | none => s
  | some i =>
    [0, 1].foldl (fun s m =>
      (List.range 4).foldl (fun s k =>
        let (q, s) := s.fresh
        s.txPut m (q % 8) ⟨Config.announceFrame k i.mac i.ip4 i.ip6, none, true⟩) s) s

/-- A standby that is about to drive judges what is being emitted, by the `SEAL` or as it is (R427). -/
def State.judgeOpen (s : State) : State :=
  if !s.dp.on then s
  else ((List.range (s.slot - 1 - s.out.judged)).map (· + s.out.judged)).foldl (fun s n => s.judgeAs n (Tab.look s.pair.seals n)) s

/-- A standby takes over (R432): what it has been told of a folio whose `TICK` has come still holds. -/
def State.takeover (s : State) : State :=
  let m := s.takeoverMode
  let was := s.clk.sel
  let s := (s.judgeOpen.setPstate psACTIVE).setMode m
  let s := (s.setRphase 0).takeoverPlane m
  let s := s.adoptOwn
  -- the folio that waits closes from this unit's own rings where its TICK has not come
  let s := match s.dp.waitTick with
    | some (n, _) => if s.pair.ticks.contains n then s else s.closeStreams n
    | none => s
  let s := { s.tryFollow with mix.duckRec := [] }
  let s := if was = 4 then s.enterHoldover else s
  let s := s.dropResults
  let s := s.pair.recent.foldl (fun s r => if s.now < r.1 + 50000 then s.txPut r.2.1 r.2.2.1 r.2.2.2 else s) s
  let s := s.announceIdent
  { s with
    cmd.peerBusy := none
    pair.recent := []
    pair.turn := none
    pair.granted := false
    pair.digs := []
    pair.peerDigs := []
    pair.cut := none }

/-- The unit may claim now (R416). -/
def State.mayClaim (s : State) : Bool :=
  s.paired && !s.holds && s.quiet 4000 && s.mayHold && !s.pair.waits &&
    !(s.pair.cold && s.yields && s.pair.eligAt.all (fun e => decide (s.now < e + 100000000)))

/-- What a claim makes of the pair state (R431). -/
def State.claimed (s : State) : State :=
  match s.pstate with
  | 1 => s.setPstate psACTIVE
  | 5 => if s.rphase = 3 then s.takeover else (((s.dropRecords).setRphase 0).setPstate psACTIVE).setMode mIDLE
  | _ => s.takeover

/-- The unit takes the rein and drives (R416). -/
def State.takeRein (s : State) : State :=
  let s := (s.setFlag Reg.TTH_STAT Fl.TTH_STAT_HOLDS true).setFlag Reg.TTH_STAT Fl.TTH_STAT_DRIVING true
  { s with pair.cold := false }

/-- `CLAIM` (R416, R431, R631). -/
def execClaim (t : Nat) (s : State) : Out :=
  let s := s.atTime t
  if s.mayClaim then .next ((s.takeRein.wakeAuto.bump Reg.TTH_CLAIM).irq Reg.TTH_IRQ_STAT Fl.TTH_IRQ_STAT_CLAIM).claimed else .next s

/-- `SELF_FENCE` (R418): cause 1, 3 or 4 arises. Cause 2 belongs to the entry to HALT and to resets, and cause 5 to
`PAIR_FENCE`. -/
def execSelfFence (cause t : Nat) (s : State) : Out :=
  let s := s.atTime t
  if cause = 1 then
    if (s.mode = mRENDER ∨ s.mode = mMEASURE) ∧ s.dp.tickNow * s.fs * 2 + 3 * s.folioLen * 1000000000 ≤ s.now * s.fs * 2 then
      .next (s.selfFence 1)
    else .next s
  else if cause = 3 ∨ cause = 4 then .next (s.selfFence cause)
  else .next s

/-! ### Controlled switchover (R438) -/

/-- `HANDOVER_SWAP`: the media time b of the handover has come. -/
def rowHandoverSwap (t : Nat) (s : State) : Out :=
  let s := s.atTime t
  match s.pair.turn with
  | none => .next s
  | some (j, incoming) =>
    if s.pair.granted = false ∨ s.slot < j + 2 then .next s
    else
      let s := { s with pair.turn := none, pair.granted := false }
      if incoming then
        let m := s.takeoverMode
        let s := (s.takeRein.setPstate psACTIVE).setMode m
        let s := (s.bump Reg.TTH_SWITCHOVER).irq Reg.TTH_IRQ_STAT Fl.TTH_IRQ_STAT_SWITCHOVER
        .next (s.finishHeld 4 stOK [])
      else
        let s := ((s.dropRein).setPstate psSTANDBY).setMode mSTANDBY
        let s := s.irq Reg.TTH_IRQ_STAT Fl.TTH_IRQ_STAT_SWITCHOVER
        .next (s.finishHeld 3 stOK [])

/-! ### Resync (R434 to R436) -/

/-! What the pages of the state regions hold, by field. The layout of a region is not given, so each is a free function of the
pages (notes/assumptions/42). -/

opaque snapCells : List SnapPage → List (Nat × Byte)
opaque snapSlots : List SnapPage → List (Nat × Slot)
opaque snapCh : List SnapPage → List (Nat × OutCh)
opaque snapBm : List SnapPage → List (Nat × BmGrp)
opaque snapMix : List SnapPage → List (MixRun × Tab BusSil)
opaque snapFir : List SnapPage → List (Nat × Nat × List Dip)
opaque snapBridges : List SnapPage → List (Nat × Bridge)
opaque snapDuck : List SnapPage → List (Nat × Duck)
opaque snapPorts : List SnapPage → List (Nat × TdmPort)

/-- Send pages as SNAP frames. -/
def State.sendPages (s : State) (ps : List SnapPage) : State :=
  ps.foldl (fun s p => s.tether tfSNAP (by2 p.region ++ by2 0 ++ by8 p.off ++ p.bytes)) s

/-- The peer is in resync with this active unit. -/
def State.servesResync (s : State) : Bool :=
  s.pstate == psACTIVE && s.linkUp && s.fld Reg.TTH_PEER_INFO Fl.TTH_PEER_INFO_PSTATE == psRESYNC

/-- `RESYNC_PASS_END` (R434): the pages of the pass that ends, and the KiB left after it. -/
def execResyncPassEnd (pages : List SnapPage) (left t : Nat) (s : State) : Out :=
  let s := s.atTime t
  let mine := decide (s.pstate = psRESYNC ∧ s.rphase = 2)
  if s.servesResync ∨ mine = true then
    let s := if mine then s else s.sendPages pages
    let n := s.fld Reg.TTH_RESYNC_STAT Fl.TTH_RESYNC_STAT_PASS + 1
    let s := (s.setFld Reg.TTH_RESYNC_STAT Fl.TTH_RESYNC_STAT_PASS n).setFld Reg.TTH_RESYNC_STAT Fl.TTH_RESYNC_STAT_DIRTY_KB (min left 65535)
    if 16 ≤ n ∧ s.fld Reg.TTH_CFG Fl.TTH_CFG_CUT_KB < left then
      .next (if mine then s.failResync else s.setFld Reg.TTH_RESYNC_STAT Fl.TTH_RESYNC_STAT_PASS 0)
    else .next s
  else .next s

/-- The state that the pages of a snapshot hold (R434). The layout of a region is not given: what the pages say is a free function of
them (notes/assumptions/42). Gain frames are not among it: the unit evaluates them again. -/
def State.loadSnap (s : State) : State :=
  let ps := s.pair.snap
  let win (a : Nat) : Bool := decide (0x10000000 ≤ a) && decide (a < 0x11200000)
  let s := s.loseMem win
  let s := (snapCells ps).foldl (fun s c => if win c.1 then s.wrByte c.1 c.2 else s) s
  let dom (d : Nat) (s : State) : State :=
    let m := s.mixDom d
    let v := nth (snapMix ps) d (m.run, m.sil)
    s.setMixDom d { m with run := v.1, sil := v.2, nxt := none, starts := 0 }
  let s := forRange 0 3 dom s
  { s with
    conv.fir := s.conv.fir.map (fun (e : Nat × OutFir) => match Tab.look (snapFir ps) e.1 with
      | some v => (e.1, { e.2 with longFrom := v.1, dips := v.2 })
      | none => e)
    oms.slots := (snapSlots ps).map (fun e => (e.1, { e.2 with evals := [], store := [] }))
    out.ch := (snapCh ps).map (fun e => (e.1, { e.2 with nxt := none }))
    out.bm := snapBm ps
    mix.bridges := snapBridges ps
    mix.duck := snapDuck ps
    tdm.ports := s.tdm.ports.map (fun e => (e.1, (Tab.look (snapPorts ps) e.1).getD e.2)) }

/-- The data plane of a resyncing unit starts at folio `c` with the state it was sent (R435). -/
def State.startAt (s : State) (m c : Nat) : State :=
  let d := { s.dp with on := true, mode := m, first := c, last := none, resume := 0 }
  let s := { s with dp := { d with complete := [], issued := [], waitTick := none } }
  let s := { s with out.judged := c, out.missRun := 0 }
  let fr := Tab.put (Tab.put s.stbl.frontier 0 (c % 65536)) 1 (c % 65536)
  let s := { s with stbl.frontier := fr, stbl.ahead := Tab.del (Tab.del s.stbl.ahead 0) 1 }
  s.fillAll

/-- The active cuts over (R435). -/
def State.cutOut (s : State) (pages : List SnapPage) : State :=
  if s.fld Reg.TTH_RESYNC_STAT Fl.TTH_RESYNC_STAT_DIRTY_KB ≤ s.fld Reg.TTH_CFG Fl.TTH_CFG_CUT_KB ∧
      s.sys.lastTick = some s.sys.mediaTime ∧ s.pair.cut = none then
    { s.sendPages pages with pair.cut := some s.slot }
  else s

/-- `CUTOVER` (R435): at the tick that opens slot `c` the active sends the pages left and starts to mirror; the resyncing unit,
once it holds every page, processes folio `c`. -/
def execCutover (pages : List SnapPage) (c t : Nat) (s : State) : Out :=
  let s := s.atTime t
  if s.servesResync then .next (s.cutOut pages)
  else if s.pstate = psRESYNC ∧ s.rphase = 2 then
    let m := s.takeoverMode
    let s := { s.loadSnap.setRphase 3 with pair.cut := some c, pair.matched := 0, pair.snap := [] }
    .next (if m = mRENDER ∨ m = mMEASURE then s.startAt m c else s)
  else .next s

/-- `RESYNC_FAIL` (R436): an attempt fails, as by an overflow of the shadow area. -/
def execResyncFail (t : Nat) (s : State) : Out :=
  let s := s.atTime t
  if s.pstate = psRESYNC then .next s.failResync else .next { s with pair.cut := none }

/-- `STANDBY_ACK_TIMEOUT` (R441): 10 ms pass without the standby's acknowledgement. The active replies; a standby so left is
`UNSYNC`. -/
def rowStandbyAckTimeout (t : Nat) (s : State) : Out :=
  let s := s.atTime t
  match s.cmd.held with
  | some h =>
    if h.kind = 0 ∧ h.pkt.time + 10000000 ≤ s.now then .next (s.finishHeld 0 h.status h.result) else .next s
  | none => if s.pstate = psSTANDBY then .next s.becomeUnsync else .next s

/-! ### Commands (R447) -/

def specPairCfgSet : CmdSpec := cmdRow 0x0C01 0 true 4 4 fwModes true
def specPairIdSet : CmdSpec := cmdRow 0x0C02 0 true 40 40 idleModes true
def specPairQuery : CmdSpec := cmdRow 0x0C03 2 false 0 0 fwModes false
def specPairSwitchover : CmdSpec := cmdRow 0x0C04 1 true 0 0 [mRENDER] false
def specPairResync : CmdSpec := cmdRow 0x0C05 0 true 4 4 fwModes false
def specPairFence : CmdSpec := { cmdRow 0x0C06 0 false 0 0 fwModes false with ownOnly := true }
def specPairStats : CmdSpec := cmdRow 0x0C07 2 false 0 0 fwModes false

def cmdPairCfgSet (p : Packet) (s : State) : CmdRes :=
  let v := u32 p.params 0
  let g := bitsN v 23 16
  if !rsvOk Reg.TTH_CFG v ∨ g < 1 ∨ 40 < g ∨ bitsN v 13 0 < 64 then .fail s stBAD_PARAM []
  else .ok (s.cfgWrite Reg.TTH_CFG v) []
/-- `PAIR_CFG_SET` (R447). -/
def execPairCfgSet (p : Packet) (s : State) : Out := runPacket specPairCfgSet p (cmdPairCfgSet p) s

def cmdPairIdSet (p : Packet) (s : State) : CmdRes :=
  let b := p.params
  if !zeroAt b 6 2 ∨ !zeroAt b 14 2 ∨ !zeroAt b 32 8 ∨ 32 < u8 b 12 ∨ 128 < u8 b 13 then .fail s stBAD_PARAM []
  else
    let i : Ident := ⟨leVal (slice b 0 6).reverse, leVal (slice b 8 4).reverse, leVal (slice b 16 16).reverse, u8 b 12, u8 b 13⟩
    .ok ({ s with pair.ident := some i }.loadFwRules (some i.mac)) []
/-- `PAIR_ID_SET` (R440). -/
def execPairIdSet (p : Packet) (s : State) : Out := runPacket specPairIdSet p (cmdPairIdSet p) s

/-- The registers of `PAIR_QUERY`. -/
def pairWords : List Nat :=
  [Reg.TTH_STAT, Reg.TTH_LINK_STAT, Reg.TTH_REIN_STAT, Reg.TTH_PEER_INFO, Reg.TTH_COMPAT, Reg.TTH_DIG_FOLIO, Reg.TTH_RESYNC_STAT]

def cmdPairQuery (_p : Packet) (s : State) : CmdRes :=
  .ok s (pairWords.flatMap (fun a => by4 ((s.liveTth a).getD (s.rd a))))
/-- `PAIR_QUERY` (R447). -/
def execPairQuery (p : Packet) (s : State) : Out := runPacket specPairQuery p (cmdPairQuery p) s

def cmdPairSwitchover (_p : Packet) (s : State) : CmdRes :=
  if !s.peerStandby then .fail s stPEER_UNAVAILABLE []
  else
    let j := s.slot + 2
    .hold ({ s with pair.turn := some (j, false), pair.granted := false }.control 2 j) 3 0
/-- `PAIR_SWITCHOVER` (R438). -/
def execPairSwitchover (p : Packet) (s : State) : Out := runPacket specPairSwitchover p (cmdPairSwitchover p) s

/-- `PAIR_RESYNC`: a unit that holds the rein passes the request on to the other. -/
def cmdPairResync (p : Packet) (s : State) : CmdRes :=
  let op := u8 p.params 0
  if 1 < op ∨ !zeroAt p.params 1 3 then .fail s stBAD_PARAM []
  else if !s.paired ∨ s.linkUp = false then .fail s stPEER_UNAVAILABLE []
  else if op = 0 ∧ s.compatEqual = false then .fail s stVERIFY_FAIL [1#8]
  else if s.holds then
    let s := if op = 1 then { s with pair.cut := none } else s
    .ok (s.control (4 + op) 0) []
  else if op = 1 then .ok s.abortResync []
  else .ok (if s.mayResync then s.startResync else s) []
/-- `PAIR_RESYNC` with op 0 (R431). -/
def execPairResyncStart (p : Packet) (s : State) : Out :=
  runPacket specPairResync (p.withOp 0 0) (cmdPairResync (p.withOp 0 0)) s
/-- `PAIR_RESYNC` with op 1 (R447). -/
def execPairResyncAbort (p : Packet) (s : State) : Out :=
  runPacket specPairResync (p.withOp 0 1) (cmdPairResync (p.withOp 0 1)) s

def cmdPairFence (_p : Packet) (s : State) : CmdRes := .ok (s.selfFence 5) []
/-- `PAIR_FENCE` (R418). -/
def execPairFence (p : Packet) (s : State) : Out := runPacket specPairFence p (cmdPairFence p) s

/-- The counters of R446 in offset order. -/
def pairCounters : List Nat :=
  [Reg.TTH_CLAIM, Reg.TTH_RELEASE, Reg.TTH_FENCE, Reg.TTH_FENCE_SKIP, Reg.TTH_DIG_MISMATCH, Reg.TTH_UNSYNC, Reg.TTH_RESYNC_OK,
   Reg.TTH_RESYNC_FAIL, Reg.TTH_CRC_ERR, Reg.TTH_RETX, Reg.TTH_LINK_DOWN, Reg.TTH_MIRROR_LATE, Reg.TTH_SWITCHOVER]

def cmdPairStats (_p : Packet) (s : State) : CmdRes :=
  let (s, bs) := s.takeCounters pairCounters
  .ok s bs
/-- `PAIR_STATS` (R447). -/
def execPairStats (p : Packet) (s : State) : Out := runPacket specPairStats p (cmdPairStats p) s

end Sys2Proof.Machine
end

