-- ==== Sys2Proof/Machine/Images.lean ====
section
/-!
DEFINITION. ULI containers (R609, R685), the image slots in flash (R610, R611), the scene journal (R612), the commands that name
images (R118, R255, R487, R623), and the end of a long operation (R587).
-/

namespace Sys2Proof.Machine

/-! ### The container (R609) -/

/-- Payload types. -/
def itFIRMWARE : Nat := 1
def itLAYOUT : Nat := 2
def itFIR : Nat := 3
def itEFFECT : Nat := 4

def uliType (b : List Byte) : Nat := u16 b 6
def uliKey (b : List Byte) : Nat := u8 b 8
def uliSecVer (b : List Byte) : Nat := u32 b 12
def uliCompat (b : List Byte) : Nat := u16 b 16
def uliBuild (b : List Byte) : Nat := u32 b 20
def uliLen (b : List Byte) : Nat := u32 b 24
def uliHash (b : List Byte) : List Byte := slice b 32 48

/-- The container checks of R685 for a command that gives a length: the result byte of the one that fails. -/
def containerErr (b : List Byte) (len kind : Nat) : Option Nat :=
  if len ≠ 512 + uliLen b ∨ u32 b 0 ≠ 0x31494C55 then some 0xE0
  else if uliType b ≠ kind then some 0xE1
  else none

/-- Check 1 of R609: every field in range, every reserved byte 0. -/
def uliFields (b : List Byte) : Bool :=
  let fw := uliType b == itFIRMWARE
  u32 b 0 == 0x31494C55 && u16 b 4 == 1 && decide (1 ≤ uliType b) && decide (uliType b ≤ 4) && decide (uliKey b ≤ 3) &&
    zeroAt b 9 3 && (if fw then decide (1 ≤ uliSecVer b) && decide (uliSecVer b ≤ 64) else uliSecVer b == 0) &&
    (fw || uliCompat b == 0) && zeroAt b 18 2 && (!fw || decide (uliLen b ≤ 1572864)) && zeroAt b 28 4 && zeroAt b 272 240

/-- A public key is one whose hash the fuses hold at an index that is not revoked. -/
def Otp.keyOk (o : Otp) (i : Nat) (pub : List Byte) : Bool :=
  Tab.look o.keyHash i == some (sha384 pub) && !o.revoke.testBit i

/-- The signature of R609 and R617: integers are little-endian, as every field of the container. -/
def sigOk (pub sig msg : List Byte) : Bool :=
  ecdsaVerify (leVal (slice pub 0 48), leVal (slice pub 48 48)) (sha384 msg) (leVal (slice sig 0 48)) (leVal (slice sig 48 48))

/-- An image is verified (R609). -/
def State.verifies (s : State) (b : List Byte) : Bool :=
  uliFields b && b.length == 512 + uliLen b && s.otp.keyOk (uliKey b) (slice b 80 96) && sha384 (b.drop 512) == uliHash b &&
    sigOk (slice b 80 96) (slice b 176 96) (b.take 176) && (uliType b != itFIRMWARE || decide (s.floor ≤ uliSecVer b))

/-- Read an image from DRAM and verify it: its bytes, or the status that refuses it. Poisoned data is an error that the
hardware reports (R580). -/
def State.fetchImage (s : State) (addr len : Nat) : Except Nat (List Byte) :=
  if (s.poisonIn addr len).isSome then .error stHW_FAULT
  else
    let b := s.rdBytes addr len
    if s.verifies b then .ok b else .error stVERIFY_FAIL

/-- The long operation in progress loads on both units of a pair (R118, R239, R487). -/
def State.pairLoads (s : State) : Bool :=
  let peer := s.fld Reg.TTH_PEER_INFO Fl.TTH_PEER_INFO_PSTATE
  s.paired && s.linkUp && (peer == psSTANDBY || peer == psACTIVE) &&
    s.cmd.longOp.any (fun o => o.pkt.target == 2 || o.pkt.target == 0xFF)

/-- Keep a loaded image for `JOURNAL_SAVE` (R612). -/
def State.keepImage (s : State) (b : List Byte) : State :=
  if s.jnl.store.any (fun i => i.hash == uliHash b) || s.jnl.unsaved.any (fun i => i.hash == uliHash b) then s
  else { s with jnl.unsaved := s.jnl.unsaved ++ [⟨uliHash b, b⟩] }

/-- What a long operation answers: state, status, result, and the payload hash its journal record holds. -/
abbrev LongRes := State × Nat × List Byte × List Byte

/-- Put a verified layout in place, after the checks of R83 and of the output limit (R85). -/
def State.putLayout (s : State) (b : List Byte) : LongRes :=
  let pay := b.drop 512
  match layoutErr pay with
  | some (t, i, c) => (s, stBAD_PARAM, by1 t ++ by2 i ++ by1 c, [])
  | none =>
    let l := layoutOf pay
    if s.limit 1 < l.speakers.length then (s, stNO_RESOURCE, by1 1, [])
    else ((s.setLayout (some l)).keepImage b, stOK, [], uliHash b)

/-- Put a verified FIR set into the staged sets, after the checks of R238. -/
def State.putFir (s : State) (b : List Byte) : LongRes :=
  let pay := b.drop 512
  match s.firErr pay with
  | some (i, c) => (s, stBAD_PARAM, by2 i ++ by1 c, [])
  | none => ((s.loadFir pay).keepImage b, stOK, [], uliHash b)

/-- Install a verified effect program for the packet that named it (R487). -/
def State.putFx (s : State) (p : Packet) (b : List Byte) : LongRes :=
  match s.fxInstall p (b.drop 512) with
  | (s, st, res) => if st = stOK then (s.keepImage b, st, res, uliHash b) else (s, st, res, [])

/-- A long operation that loads an image ends: nothing is changed where either unit of a pair fails, whatever its own finding (R118,
R239, R487). -/
def State.loadEnds (s : State) (addr len : Nat) (peerOk : Bool) (put : State → List Byte → LongRes) : LongRes :=
  let r : LongRes :=
    match s.fetchImage addr len with
    | .error st => (s, st, [], [])
    | .ok b => put s b
  if s.pairLoads = true ∧ ¬(peerOk = true ∧ r.2.1 = stOK) then (s, stVERIFY_FAIL, [], []) else r

/-- The checks that a command which names an image makes at once: alignment, DRAM that the host may use, and the container. -/
def State.imageNamed (s : State) (addr len kind : Nat) : Option (List Byte) :=
  if addr % 64 ≠ 0 ∨ !s.dramFree addr len then some []
  else (containerErr (s.rdBytes addr 512) len kind).map by1

def specLayoutLoad : CmdSpec := cmdRow 0x0401 0 true 16 16 idleModes true
def cmdLayoutLoad (p : Packet) (s : State) : CmdRes :=
  let a := u64 p.params 0
  let n := u32 p.params 8
  if !zeroAt p.params 12 4 then .fail s stBAD_PARAM []
  else
    match s.imageNamed a n itLAYOUT with
    | some res => .fail s stBAD_PARAM res
    | none => .long s [a, n]
/-- `LAYOUT_LOAD` (R85, R118). -/
def execLayoutLoad (p : Packet) (s : State) : Out := runPacket specLayoutLoad p (cmdLayoutLoad p) s

def specFirLoad : CmdSpec := cmdRow 0x0801 0 true 16 16 firModes true
def cmdFirLoad (p : Packet) (s : State) : CmdRes :=
  let a := u64 p.params 0
  let n := u32 p.params 8
  if !zeroAt p.params 12 4 then .fail s stBAD_PARAM []
  else
    match s.imageNamed a n itFIR with
    | some res => .fail s stBAD_PARAM res
    | none => .long s [a, n]
/-- `FIR_LOAD` (R238, R239, R255). -/
def execFirLoad (p : Packet) (s : State) : Out := runPacket specFirLoad p (cmdFirLoad p) s

/-- `FX_INSTANCE_SET` ends: its container is judged where its image is (R685). -/
def State.fxEnds (s : State) (p : Packet) (addr len : Nat) (peerOk : Bool) : LongRes :=
  match containerErr (s.rdBytes addr 512) len itEFFECT with
  | some e => (s, stBAD_PARAM, by1 e, [])
  | none => s.loadEnds addr len peerOk (fun s b => s.putFx p b)

/-! ### Image slots (R610, R611) -/

/-- Base of a slot, 0 A or 1 B, in the flash window of R12. -/
def slotBase (x : Nat) : Nat := 0x90000000 + 0x1000000 * x

/-- The sector that holds a slot's validity marker. -/
def markerAt (x : Nat) : Nat := slotBase x + 0x1000000 - 4096

/-- The validity marker of an image. -/
def markerOf (b : List Byte) : List Byte :=
  let m := [0x56#8, 0x41#8, 0x4C#8, 0x44#8] ++ by4 (uliBuild b) ++ (uliHash b).take 4
  m ++ by4 (crc32 m)

/-- An erased sector of flash (notes/assumptions/43). -/
def eraseSector : List Byte := List.replicate 4096 0xFF#8

/-- The image that a slot's header describes. -/
def State.slotImage (s : State) (x : Nat) : List Byte := s.rdBytes (slotBase x) (512 + min (uliLen (s.rdBytes (slotBase x) 512)) 1572864)

/-- Boot tries of a slot. -/
def State.tries (s : State) (x : Nat) : Nat := if x = 0 then s.sys.firm.triesA else s.sys.firm.triesB

def State.setTries (s : State) (x n : Nat) : State :=
  if x = 0 then { s with sys.firm := { s.sys.firm with triesA := n } } else { s with sys.firm := { s.sys.firm with triesB := n } }

/-- A slot's marker is intact and matches its header. -/
def State.marked (s : State) (x : Nat) : Bool := s.rdBytes (markerAt x) 16 == markerOf (s.rdBytes (slotBase x) 512)

/-- A slot is bootable (R610). -/
def State.bootable (s : State) (x : Nat) : Bool :=
  let b := s.slotImage x
  s.marked x && uliType b == itFIRMWARE && s.verifies b && decide (s.tries x < 3)

/-- The slot that `IMAGE_COMMIT` writes: the one that is not running. -/
def State.targetSlot (s : State) : Nat := 1 - s.sys.firm.slot

def State.eraseMarker (s : State) (x : Nat) : State := s.wrBytes (markerAt x) eraseSector

/-- Erase and program an image, whole sectors at a time. -/
def State.programImage (s : State) (x : Nat) (b : List Byte) : State :=
  s.wrBytes (slotBase x) (b ++ List.replicate (ceilDiv b.length 4096 * 4096 - b.length) 0xFF#8)

def specImageCommit : CmdSpec := cmdRow 0x0E01 0 false 16 16 [mIDLE, mSERVICE, mSTANDBY] false
def cmdImageCommit (p : Packet) (s : State) : CmdRes :=
  let a := u64 p.params 0
  let n := u32 p.params 8
  let fl := u8 p.params 12
  if 1 < fl ∨ !zeroAt p.params 13 3 then .fail s stBAD_PARAM []
  else
    match s.imageNamed a n itFIRMWARE with
    | some res => .fail s stBAD_PARAM res
    | none =>
      let restart := fl == 1 || s.mode == mSTANDBY
      let ok := (s.fetchImage a n).toOption.isSome
      let s := { s with sys.updateFrom := s.mode }
      let s := if s.mode = mSTANDBY then s.setPstate psFENCED else s
      let s := s.setMode mUPDATE
      .long (if ok then s.eraseMarker s.targetSlot else s) [a, n, b2n restart]
/-- `IMAGE_COMMIT` (R611): steps 1 and 2 when it is accepted, the rest when the long operation ends. -/
def execImageCommit (p : Packet) (s : State) : Out := runPacket specImageCommit p (cmdImageCommit p) s

/-- The commit ends (R611): program, read back, mark; the mode it came from returns. A commit to a standby leaves it restarting. -/
def State.commitEnds (s : State) (a n : Nat) : State × Nat :=
  match s.fetchImage a n with
  | .error st => (s, st)
  | .ok b =>
    let x := s.targetSlot
    let s := (s.eraseMarker x).programImage x b
    if s.verifies (s.slotImage x) then
      let s := s.wrBytes (markerAt x) (markerOf b)
      (s.setTries x 0, stOK)
    else (s, stVERIFY_FAIL)

def specImageQuery : CmdSpec := cmdRow 0x0E02 2 false 0 0 fwModes false
def cmdImageQuery (_p : Packet) (s : State) : CmdRes :=
  .ok s (s.viewBytes [Reg.SYS_BOOT_STAT] ++ [0, 1].flatMap (fun x =>
    let b := s.rdBytes (slotBase x) 512
    by1 (b2n (s.bootable x)) ++ by1 (s.tries x) ++ by2 (uliCompat b) ++ by4 (uliBuild b) ++ by4 (uliSecVer b)))
/-- `IMAGE_QUERY` (R623). -/
def execImageQuery (p : Packet) (s : State) : Out := runPacket specImageQuery p (cmdImageQuery p) s

def specFloorRaise : CmdSpec := cmdRow 0x0E03 0 false 0 0 [mSERVICE] false
def cmdFloorRaise (_p : Packet) (s : State) : CmdRes :=
  .ok { s with otp.floor := s.otp.floor ||| (2 ^ min s.sys.firm.secVer 64 - 1) } []
/-- `IMAGE_FLOOR_RAISE` (R609): fuses never fall. -/
def execImageFloorRaise (p : Packet) (s : State) : Out := runPacket specFloorRaise p (cmdFloorRaise p) s

/-! ### The scene journal (R612) -/

/-- Bytes of a record: length, opcode, slot, parameters, the hash of an image it names, CRC. -/
def recBytes (r : JRec) : Nat := 12 + r.params.length + r.hash.length

def State.jnlBytes (s : State) : Nat := (s.jnl.recs.map recBytes).sum

def specJournalSave : CmdSpec := { cmdRow 0x0E10 0 true 0 0 fwModes false with logs := true }
def cmdJournalSave (_p : Packet) (s : State) : CmdRes := .long s []
/-- `JOURNAL_SAVE` (R612). -/
def execJournalSave (p : Packet) (s : State) : Out := runPacket specJournalSave p (cmdJournalSave p) s

/-- Images that a record names and the store lacks. -/
def State.unsavedImages (s : State) : List Image :=
  s.jnl.unsaved.filter (fun i => s.jnl.recs.any (fun r => r.hash == i.hash))

/-- The save ends: images written, journal compacted. -/
def State.saveEnds (s : State) : LongRes :=
  let new := s.unsavedImages
  let j := { s.jnl with store := s.jnl.store ++ new, unsaved := [], recs := compact s.jnl.recs, savedAt := s.localNs / 1000000000 }
  ({ s with jnl := j }, stOK, by4 ((new.map (fun i => i.bytes.length)).sum), [])

/-- `JOURNAL_COMPACT` (R612): the live journal has passed half of its 24 MiB. -/
def execJournalCompact (t : Nat) (s : State) : Out :=
  let s := s.atTime t
  if 12 * 2 ^ 20 < s.jnlBytes then .next { s with jnl.recs := compact s.jnl.recs } else .next s

def specJournalQuery : CmdSpec := cmdRow 0x0E11 2 false 0 0 fwModes false
def cmdJournalQuery (_p : Packet) (s : State) : CmdRes :=
  .ok s (by4 s.jnl.recs.length ++ by4 s.jnlBytes ++ by2 s.unsavedImages.length ++ by2 0 ++ by8 s.jnl.savedAt)
/-- `JOURNAL_QUERY` (R623). -/
def execJournalQuery (p : Packet) (s : State) : Out := runPacket specJournalQuery p (cmdJournalQuery p) s

def specJournalCfgSet : CmdSpec := { cmdRow 0x0E12 0 true 4 4 fwModes false with logs := true }
def cmdJournalCfgSet (p : Packet) (s : State) : CmdRes :=
  let v := u32 p.params 0
  if !rsvOk Reg.SYS_JNL_CFG v ∨ bitsN v 15 8 = 0 then .fail s stBAD_PARAM []
  else .ok { s.wr Reg.SYS_JNL_CFG v with jnl.cfg := some v } []
/-- `JOURNAL_CFG_SET` (R623). -/
def execJournalCfgSet (p : Packet) (s : State) : Out := runPacket specJournalCfgSet p (cmdJournalCfgSet p) s

def specJournalClear : CmdSpec := { cmdRow 0x0E13 0 true 0 0 idleModes false with logs := true }
def cmdJournalClear (_p : Packet) (s : State) : CmdRes := .ok { s with jnl.recs := [], jnl.unsaved := [] } []
/-- `JOURNAL_CLEAR` (R623). -/
def execJournalClear (p : Packet) (s : State) : Out := runPacket specJournalClear p (cmdJournalClear p) s

/-! ### Bulk data (R591) -/

/-- CRC-32 of a DRAM range, or the first poisoned granule (R591). -/
def State.bulkCrc (s : State) (a n : Nat) : Nat × List Byte :=
  match s.poisonIn a n with
  | some g => (stHW_FAULT, by8 g)
  | none => (stOK, by4 (crc32 (s.rdBytes a n)))

def specBulkWrite : CmdSpec := { cmdRow 0x00F0 0 true 9 8200 fwModes false with logs := true }
def cmdBulkWrite (p : Packet) (s : State) : CmdRes :=
  let a := u64 p.params 0
  let d := p.params.drop 8
  if !s.dramFree a d.length then .fail s stBAD_PARAM [] else .ok (s.busWrite a d) []
/-- `BULK_WRITE` (R591). -/
def execBulkWrite (p : Packet) (s : State) : Out := runPacket specBulkWrite p (cmdBulkWrite p) s

def specBulkRead : CmdSpec := cmdRow 0x00F1 2 false 16 16 fwModes false
def cmdBulkRead (p : Packet) (s : State) : CmdRes :=
  let a := u64 p.params 0
  let n := u32 p.params 8
  if n = 0 ∨ 8192 < n ∨ !zeroAt p.params 12 4 ∨ !s.dramFree a n then .fail s stBAD_PARAM []
  else
    match s.poisonIn a n with
    | some g => .fail s stHW_FAULT (by8 g)
    | none => .ok s (s.rdBytes a n)
/-- `BULK_READ` (R591). -/
def execBulkRead (p : Packet) (s : State) : Out := runPacket specBulkRead p (cmdBulkRead p) s

def specBulkCrc : CmdSpec := cmdRow 0x00F2 2 false 16 16 fwModes false
def cmdBulkCrc (p : Packet) (s : State) : CmdRes :=
  let a := u64 p.params 0
  let n := u32 p.params 8
  if n = 0 ∨ !zeroAt p.params 12 4 ∨ !s.dramFree a n then .fail s stBAD_PARAM []
  else if 16 * 2 ^ 20 < n then .long s [a, n]
  else
    match s.bulkCrc a n with
    | (st, res) => if st = stOK then .ok s res else .fail s st res
/-- `BULK_CRC` (R591): a long operation above 16 MiB. -/
def execBulkCrc (p : Packet) (s : State) : Out := runPacket specBulkCrc p (cmdBulkCrc p) s

end Sys2Proof.Machine
end

