-- ==== Sys2Proof/Machine/Sys.lean ====
section
/-!
DEFINITION. System commands (R593), unit resets (R606), security fuses and test access (R616 to R618), the general-purpose pins
(R619 to R621) and the junction temperature (R601, R679).
-/

namespace Sys2Proof.Machine

/-! ### Commands of R593 -/

def specEcho : CmdSpec := cmdRow 0x0000 2 false 0 64 fwModes false
def cmdEcho (p : Packet) (s : State) : CmdRes := .ok s p.params
/-- `ECHO` (R593). -/
def execEcho (p : Packet) (s : State) : Out := runPacket specEcho p (cmdEcho p) s

/-- `SYS_INFO` is answered in SAFE and while the recovery responder answers, too (R577, R608). -/
def specSysInfo : CmdSpec := cmdRow 0x0001 2 false 0 0 fwModes false
def cmdSysInfo (p : Packet) (s : State) : CmdRes :=
  .ok s (s.viewBytes [Reg.SYS_CAPS] ++ by4 s.sys.firm.build ++ by2 s.sys.firm.compat ++ by1 s.mode ++
    by1 (2 * b2n s.sys.straps.pairEn + s.sys.straps.unitId % 2) ++ by1 p.port ++ leBytes 3 0)
/-- `SYS_INFO` (R593). -/
def execSysInfo (p : Packet) (s : State) : Out := runPacket specSysInfo p (cmdSysInfo p) s

def specSafeMask : CmdSpec := { cmdRow 0x0004 0 true 4 4 fwModes false with logs := true }
def cmdSafeMask (p : Packet) (s : State) : CmdRes :=
  let v := u32 p.params 0
  if rsvOk Reg.SYS_SAFE_CFG v then .ok (s.wr Reg.SYS_SAFE_CFG v) [] else .fail s stBAD_PARAM []
/-- `SAFE_MASK_SET` (R623). -/
def execSafeMaskSet (p : Packet) (s : State) : Out := runPacket specSafeMask p (cmdSafeMask p) s

/-- The result of `EVENT_READ`: the count and the entries (R593). -/
def eventBytes (es : List Event) : List Byte := by2 es.length ++ es.flatMap Event.bytes

/-- Mark the oldest `n` unread entries read. -/
def markRead : Nat → List (Event × Bool) → List (Event × Bool)
  | _, [] => []
  | 0, l => l
  | n + 1, e :: l => if e.2 then (e.1, false) :: markRead n l else e :: markRead (n + 1) l

def specEventRead : CmdSpec := cmdRow 0x0020 2 false 4 4 fwModes false
def cmdEventRead (p : Packet) (s : State) : CmdRes :=
  let n := u8 p.params 1
  if 1 < u8 p.params 0 ∨ n = 0 ∨ 64 < n ∨ !zeroAt p.params 2 2 then .fail s stBAD_PARAM []
  else if u8 p.params 0 = 0 then
    .ok { s with cmd.log := markRead n s.cmd.log } (eventBytes (((s.cmd.log.filter (·.2)).take n).map (·.1)))
  else .ok s (eventBytes ((newest n s.cmd.log).map (·.1)))
/-- `EVENT_READ` op 0 (R593). -/
def execEventReadOldest (p : Packet) (s : State) : Out :=
  runPacket specEventRead (p.withOp 0 0) (cmdEventRead (p.withOp 0 0)) s
/-- `EVENT_READ` op 1 (R593). -/
def execEventReadNewest (p : Packet) (s : State) : Out :=
  runPacket specEventRead (p.withOp 0 1) (cmdEventRead (p.withOp 0 1)) s

/-- A UDP port that the command port may not take (R593). -/
def State.cmdPortTaken (s : State) (v : Nat) : Bool :=
  v == 319 || v == 320 || v == s.fld Reg.OMS_CFG Fl.OMS_CFG_UDP_PORT ||
    s.strm.rx.any (fun e => e.2.gone.isNone && ((e.2.cfg.a.on && e.2.cfg.a.port == v) || (e.2.cfg.b.on && e.2.cfg.b.port == v)))

def specCmdCfgSet : CmdSpec := cmdRow 0x0030 0 false 4 4 fwModes false
def cmdCmdCfgSet (p : Packet) (s : State) : CmdRes :=
  let v := u32 p.params 0
  if !rsvOk Reg.CMD_CFG v ∨ s.cmdPortTaken (bitsN v 31 16) = true then .fail s stBAD_PARAM []
  else .ok (s.wr Reg.CMD_CFG v) []
/-- `CMD_CFG_SET` (R593, R595). -/
def execCmdCfgSet (p : Packet) (s : State) : Out := runPacket specCmdCfgSet p (cmdCmdCfgSet p) s

def specAuthKey : CmdSpec := { cmdRow 0x0031 0 true 36 36 fwModes false with logs := true }
def cmdAuthKey (p : Packet) (s : State) : CmdRes :=
  let r := u8 p.params 0
  if 2 < r ∨ 1 < u8 p.params 1 ∨ !zeroAt p.params 2 2 then .fail s stBAD_PARAM []
  else if u8 p.params 1 = 1 then .ok { s with cmd.keys := Tab.del s.cmd.keys r } []
  else .ok ({ s with cmd.keys := Tab.put s.cmd.keys r (slice p.params 4 32) }.logEventFree 0x1782 r) []
/-- `AUTH_KEY_SET` op 0 (R583). -/
def execAuthKeySet (p : Packet) (s : State) : Out := runPacket specAuthKey (p.withOp 1 0) (cmdAuthKey (p.withOp 1 0)) s
/-- `AUTH_KEY_SET` op 1 (R583). -/
def execAuthKeyClear (p : Packet) (s : State) : Out := runPacket specAuthKey (p.withOp 1 1) (cmdAuthKey (p.withOp 1 1)) s

def specNonceQuery : CmdSpec := cmdRow 0x0032 2 false 0 0 fwModes false
def cmdNonceQuery (p : Packet) (s : State) : CmdRes := .ok s (by8 (Tab.at s.cmd.nonces 0 (s.effRole p)))
/-- `NONCE_QUERY` (R584). -/
def execNonceQuery (p : Packet) (s : State) : Out := runPacket specNonceQuery p (cmdNonceQuery p) s

/-- `AUTH_SUPPRESS_END` (R582): the second of silence on a port ends. -/
def execAuthSuppressEnd (port t : Nat) (s : State) : Out :=
  let s := s.atTime t
  match Tab.look s.cmd.muted port with
  | some e => if e ≤ s.now then .next { s with cmd.muted := Tab.del s.cmd.muted port } else .next s
  | none => .next s

/-! ### Unit resets (R606) -/

/-- The Spine master of an engine, where it has one (R513). -/
def engineMaster (e : Nat) : Option Nat :=
  if e = 0 then some 20
  else if e ≤ 4 then some 21
  else if e ≤ 6 then some 22
  else if e ≤ 10 then some 23
  else if e = 15 then some 24
  else if 16 ≤ e ∧ e ≤ 23 then some (e - 12)
  else if 24 ≤ e ∧ e ≤ 27 then some (e - 12)
  else none

/-- The transactions at an effect core's own memory end with its reset (R522). -/
def State.abortCore (s : State) (c : Nat) : State :=
  let mine (x : SpnTxn) : Bool := x.target == 6 && (x.addr - 0x11800000) / 0x40000 == c
  let rest := s.spn.txns.filter (fun x => !mine x)
  { ({ s with spn.txns := s.spn.txns.filter mine } : State).abortTargets [6] with spn.txns := rest }

/-- A unit is reset: its Spine traffic ends, and the tickets it holds or runs are dropped. -/
def State.unitReset (s : State) (e : Nat) : State :=
  let s := match engineMaster e with | some m => s.masterReset m | none => s
  if 16 ≤ e ∧ e ≤ 23 then (s.abortCore (e - 16)).fxcReset (e - 16)
  else if 24 ≤ e ∧ e ≤ 27 then (if (Tab.look s.stbl.dma (e - 24)).isSome then s.dmaFail (e - 24) 3 else s).dropEngine e
  else if e = 15 then
    { (s.dropEngine e).resetRegs (fun a => blockIdx a == 13) with meas := MeasSt.init }
  else s.dropEngine e

/-- Classes that only IDLE, SERVICE and FAULT allow. -/
def calmClasses : List Nat := [0, 1, 2, 3, 4, 5, 6]

/-- Classes of R494 whose engines `UNIT_RESET` takes. -/
def resetClasses : List Nat := calmClasses ++ [7, 8, 9]

def specUnitReset : CmdSpec := cmdRow 0x0005 0 false 4 4 fwModes false
def cmdUnitReset (p : Packet) (s : State) : CmdRes :=
  let c := u8 p.params 0
  let e := u8 p.params 1
  if calmClasses.contains c ∧ !([mIDLE, mSERVICE, mFAULT].contains s.mode) then .fail s stNOT_IN_MODE []
  else if !resetClasses.contains c ∨ !(classEngines c).contains e ∨ !enginePresent s.otp.grade e ∨ !zeroAt p.params 2 2 then
    .fail s stBAD_PARAM []
  else .ok (s.unitReset e) []
/-- `UNIT_RESET` (R606). -/
def execUnitReset (p : Packet) (s : State) : Out := runPacket specUnitReset p (cmdUnitReset p) s

/-! ### Security fuses (R618) -/

/-- A fuse is blown. -/
def State.fuseBlown (s : State) (o : Otp) : State :=
  (({ s with otp := o } : State).irq Reg.SEC_IRQ_STAT Fl.SEC_IRQ_STAT_FUSE).logEventFree 0x1802 0

/-- Revoking an index leaves some programmed key unrevoked. -/
def Otp.keyLeft (o : Otp) (i : Nat) : Bool :=
  (List.range 4).any (fun j => j != i && (Tab.look o.keyHash j).isSome && !o.revoke.testBit j)

/-- The fuses after an op, where it is acceptable (R618). -/
def State.fuseOp (s : State) (op i : Nat) (h : List Byte) : Option Otp :=
  let o := s.otp
  match op with
  | 0 => some { o with authHsp := true }
  | 1 => some { o with authTwi := true }
  | 2 => some { o with jtagLock := true }
  | 3 => some { o with dbgOff := true }
  | 4 =>
    if o.revoke.testBit i then some o
    else if i = s.sys.firm.keyIdx ∨ !o.keyLeft i then none
    else some { o with revoke := setBitN o.revoke i true }
  | 5 => if (Tab.look o.keyHash i).isSome then none else some { o with keyHash := Tab.put o.keyHash i h }
  | _ => none

def specFuse : CmdSpec := cmdRow 0x0E04 0 false 8 56 [mSERVICE] false
def cmdFuse (p : Packet) (s : State) : CmdRes :=
  let op := u8 p.params 0
  let i := u8 p.params 1
  if p.params.length ≠ (if op = 5 then 56 else 8) then .fail s stBAD_LENGTH []
  else if 3 < i ∨ !zeroAt p.params 2 2 ∨ u32 p.params 4 ≠ 0x46555345 then .fail s stBAD_PARAM []
  else
    match s.fuseOp op i (slice p.params 8 48) with
    | none => .fail s stBAD_PARAM []
    | some o => .ok (if o = s.otp then s else s.fuseBlown o) []

/-- `SEC_FUSE_PROGRAM` op 0 (R618). -/
def execFuseAuthHsp (p : Packet) (s : State) : Out := runPacket specFuse (p.withOp 0 0) (cmdFuse (p.withOp 0 0)) s
/-- `SEC_FUSE_PROGRAM` op 1 (R618). -/
def execFuseAuthTwi (p : Packet) (s : State) : Out := runPacket specFuse (p.withOp 0 1) (cmdFuse (p.withOp 0 1)) s
/-- `SEC_FUSE_PROGRAM` op 2 (R618). -/
def execFuseJtagLock (p : Packet) (s : State) : Out := runPacket specFuse (p.withOp 0 2) (cmdFuse (p.withOp 0 2)) s
/-- `SEC_FUSE_PROGRAM` op 3 (R618). -/
def execFuseDbgOff (p : Packet) (s : State) : Out := runPacket specFuse (p.withOp 0 3) (cmdFuse (p.withOp 0 3)) s
/-- `SEC_FUSE_PROGRAM` op 4 (R618). -/
def execFuseRevokeKey (p : Packet) (s : State) : Out := runPacket specFuse (p.withOp 0 4) (cmdFuse (p.withOp 0 4)) s
/-- `SEC_FUSE_PROGRAM` op 5 (R618). -/
def execFuseKeyHash (p : Packet) (s : State) : Out := runPacket specFuse (p.withOp 0 5) (cmdFuse (p.withOp 0 5)) s

def specSecQuery : CmdSpec := cmdRow 0x0E05 2 false 0 0 fwModes false
def cmdSecQuery (_p : Packet) (s : State) : CmdRes :=
  .ok s (s.viewBytes ([Reg.SEC_FUSE, Reg.SEC_FLOOR_LO, Reg.SEC_FLOOR_HI, Reg.SEC_UID_LO, Reg.SEC_UID_HI, Reg.SEC_JTAG_STAT] ++
    (List.range 4).flatMap (fun i => (List.range 12).map (fun w => Reg.SEC_KEYHASH i w))))
/-- `SEC_QUERY` (R618). -/
def execSecQuery (p : Packet) (s : State) : Out := runPacket specSecQuery p (cmdSecQuery p) s

/-! ### The test port (R617) -/

/-- Failed responses since `POR_N`. -/
def State.jtagFails (s : State) : Nat := s.fld Reg.SEC_JTAG_STAT Fl.SEC_JTAG_STAT_FAILS

/-- The challenge instructions are available. -/
def State.challengeOn (s : State) : Bool := s.otp.jtagLock && !s.otp.dbgOff

/-- `JTAG_CHALLENGE` (R617): `rnd` is what the random-number generator gives. -/
def execJtagChallenge (rnd : List Byte) (t : Nat) (s : State) : Out :=
  let s := s.atTime t
  if !s.challengeOn then .next s
  else if 8 ≤ s.jtagFails then .next { s.readReturns 0 with sys.jtagChal := none }
  else
    let c := slice rnd 0 32 ++ by8 s.otp.uid
    .next { s.readReturns (leVal c) with sys.jtagChal := some c }

/-- A response of key index, public key and signature answers a challenge. -/
def State.responseOk (s : State) (r c : List Byte) : Bool :=
  decide (s.jtagFails < 8) && r.length == 193 && s.otp.keyOk (u8 r 0) (slice r 1 96) && sigOk (slice r 1 96) (slice r 97 96) c

/-- `JTAG_RESPONSE` (R617). -/
def execJtagResponse (bytes : List Byte) (t : Nat) (s : State) : Out :=
  let s := s.atTime t
  if !s.challengeOn then .next s
  else
    let ok := s.sys.jtagChal.any (fun c => s.responseOk bytes c)
    let s := { s with sys.jtagChal := none }
    if ok then .next { s.irq Reg.SEC_IRQ_STAT Fl.SEC_IRQ_STAT_JTAG_OPEN with sys.jtagOpen := true }
    else
      let s := s.setFld Reg.SEC_JTAG_STAT Fl.SEC_JTAG_STAT_FAILS (min 15 (s.jtagFails + 1))
      .next (s.irq Reg.SEC_IRQ_STAT Fl.SEC_IRQ_STAT_JTAG_FAIL)

/-- `TEST_EN_CHANGE` (R617): while the pin is high every domain but AON is held in reset. -/
def execTestEnChange (level : Bool) (t : Nat) (s : State) : Out :=
  let s := s.atTime t
  if level = s.sys.testEn then .next s
  else if level then
    let s := (((List.range 18).map (· + 1)).filter (domainPresent s.otp.grade)).foldl (fun (s : State) d => s.resetDomain d) s.abandonLong
    .next { s with sys.testEn := true, cmd.ctrlDown := true, dp.on := false }
  else .next { s with sys.testEn := false }

/-! ### General-purpose pins (R619 to R621) -/

def gpioModes : List Nat := fwModes

def specGpioCfg : CmdSpec := cmdRow 0x0040 0 false 16 16 gpioModes true
def cmdGpioCfg (p : Packet) (s : State) : CmdRes :=
  let rs := [Reg.GPIO_DIR, Reg.GPIO_OD, Reg.GPIO_EDGE, Reg.GPIO_DEB].zipIdx
  if rs.any (fun x => !rsvOk x.1 (u32 p.params (4 * x.2))) then .fail s stBAD_PARAM []
  else .ok (rs.foldl (fun s x => s.wr x.1 (u32 p.params (4 * x.2))) s) []
/-- `GPIO_CFG_SET` (R621). -/
def execGpioCfgSet (p : Packet) (s : State) : Out := runPacket specGpioCfg p (cmdGpioCfg p) s

def specGpioWrite : CmdSpec := cmdRow 0x0041 1 false 8 8 gpioModes true
def cmdGpioWrite (p : Packet) (s : State) : CmdRes :=
  let m := u32 p.params 0
  let v := u32 p.params 4
  if !rsvOk Reg.GPIO_OUT m ∨ !rsvOk Reg.GPIO_OUT v then .fail s stBAD_PARAM []
  else .ok (s.wr Reg.GPIO_OUT (merge (s.rd Reg.GPIO_OUT) m v)) []
/-- `GPIO_WRITE` (R621). -/
def execGpioWrite (p : Packet) (s : State) : Out := runPacket specGpioWrite p (cmdGpioWrite p) s

def specGpioQuery : CmdSpec := cmdRow 0x0042 2 false 0 0 fwModes false
def cmdGpioQuery (_p : Packet) (s : State) : CmdRes :=
  .ok s (s.viewBytes [Reg.GPIO_DIR, Reg.GPIO_OD, Reg.GPIO_OUT, Reg.GPIO_IN, Reg.GPIO_EDGE, Reg.GPIO_IRQ_STAT])
/-- `GPIO_QUERY` (R621). -/
def execGpioQuery (p : Packet) (s : State) : Out := runPacket specGpioQuery p (cmdGpioQuery p) s

/-- `GPIO_SET` (R620): a write of the register. -/
def State.gpioSet (s : State) (v : Nat) : State :=
  let s := { s with sys.gpioSet := some (s.now, v % 65536) }
  s.wr Reg.GPIO_OUT (s.rd Reg.GPIO_OUT ||| (v % 65536))

/-- `GPIO_CLR` (R620): a bit that `GPIO_SET` names in the same cycle ends 1. -/
def State.gpioClr (s : State) (v : Nat) : State :=
  let keep := match s.sys.gpioSet with | some (t, m) => if t = s.now then m else 0 | none => 0
  s.wr Reg.GPIO_OUT (merge (s.rd Reg.GPIO_OUT) (v % 65536) keep)

def execGpioSet (v t : Nat) (s : State) : Out := .next ((s.atTime t).gpioSet v)
def execGpioClr (v t : Nat) (s : State) : Out := .next ((s.atTime t).gpioClr v)

/-- `GPIO_EDGE` (R619): the filtered level of pin `k` becomes `level`. -/
def execGpioEdge (k : Nat) (level : Bool) (t : Nat) (s : State) : Out :=
  let s := s.atTime t
  if !s.aonClocked ∨ 16 ≤ k ∨ (s.rd Reg.GPIO_IN).testBit k = level then .next s
  else
    let s := s.wr Reg.GPIO_IN (setBitN (s.rd Reg.GPIO_IN) k level)
    let sel := bitsN (s.rd Reg.GPIO_EDGE) (2 * k + 1) (2 * k)
    if sel.testBit (if level then 0 else 1) then .next (s.irq Reg.GPIO_IRQ_STAT ⟨k, k⟩) else .next s

/-! ### Junction temperature (R601, R679) -/

/-- The hottest sensor, in 0.1 °C. -/
def State.junction (s : State) : Int := s.fldS Reg.SYS_TEMP Fl.SYS_TEMP_TJ

/-- A new reading of the sensor: a warning when it reaches 105 °C, and a health check that fails above 110 °C (R418). -/
def State.setTemp (s : State) (temp : Int) : State :=
  let old := s.junction
  let s := s.setFld Reg.SYS_TEMP Fl.SYS_TEMP_TJ (ofS 16 temp)
  let s := if old ≤ 1100 ∧ 1100 < temp ∧ s.aonClocked = true then s.selfFence 4 else s
  if old < 1050 ∧ 1050 ≤ temp ∧ s.aonClocked = true then
    let (v, s) := s.fresh
    (s.irq Reg.SYS_IRQ_STAT Fl.SYS_IRQ_STAT_TEMP_WARN).logEvent 0x0001 1 v
  else s

/-- `TEMP_WARN` (R601). -/
def execTempWarn (temp : Int) (t : Nat) (s : State) : Out := .next ((s.atTime t).setTemp temp)

/-- `TEMP_SAFE` (R601): cause 1 of SAFE at 115 °C. -/
def execTempSafe (temp : Int) (t : Nat) (s : State) : Out :=
  let s := (s.atTime t).setTemp temp
  if 1150 ≤ temp then .next (s.enterSafe 1) else .next s

/-- A cause of R601 that lasts holds now; `MODE_SET` makes cause 5 itself. -/
def State.safeCause (s : State) (cause : Nat) : Bool :=
  match cause with
  | 1 => decide (1150 ≤ s.junction)
  | 2 => s.flag Reg.CLK_STAT Fl.CLK_STAT_XO_FAIL && !(List.range 5).any (fun r => s.refActive r)
  | 3 => decide (64 ≤ s.out.missRun)
  | 4 => s.fld Reg.DMC_STAT Fl.DMC_STAT_FAIL_CAUSE != 0
  | _ => false

/-- `SAFE_ENTRY` (R601): a cause of the table acts, and the lowest code that holds wins. -/
def execSafeEntry (cause t : Nat) (s : State) : Out :=
  let s := s.atTime t
  match ([1, 2, 3, 4].filter s.safeCause).head? with
  | some c => if s.safeCause cause then .next (s.enterSafe c) else .next s
  | none => .next s

/-- `SUPPLY_LOSS` (R670): the supply monitor acts as a health check (R418). -/
def execSupplyLoss (t : Nat) (s : State) : Out := .next ((s.atTime t).selfFence 4)

end Sys2Proof.Machine
end

