-- ==== Sys2Proof/Machine/Boot.lean ====
section
/-!
DEFINITION. Resets (R603 to R605, R615), boot (R607, R608, R610), mode commands (R599 to R603) and the rows of power-up and
wake-up. The restoration of the scene stands in Restore.lean.
-/

namespace Sys2Proof.Machine

/-! ### Resets (R604, R615) -/

/-- The event log as a start leaves it: the entries kept in MRAM, marked restored (R589). -/
def restoredLog (l : List Event) : List (Event × Bool) := l.map (fun e => ({ e with restored := true }, true))

/-- The firmware state that MRAM keeps: the boot tries. -/
def Firm.kept (f : Firm) : Firm := { Firm.init with triesA := f.triesA, triesB := f.triesB }

/-- The command state that MRAM keeps (R583, R584, R589). Datagrams already sent stay sent. -/
def CmdSt.kept (c : CmdSt) : CmdSt :=
  { CmdSt.init with netOut := c.netOut, keys := c.keys, nonces := c.nonces, logMram := c.logMram, log := restoredLog c.logMram }

/-- The journal and the image store; images in DRAM are lost. -/
def Journal.kept (j : Journal) : Journal := { j with unsaved := [] }

/-- What every reset of the whole device preserves: OTP, MRAM, flash, and the model's own queue, clock and counter. -/
def State.lasting (s : State) : State :=
  { State.reset with
    mem := s.mem.filter (fun c => nonVolatile c.1)
    poison := s.poison.filter nonVolatile
    freeCtr := s.freeCtr
    now := s.now
    otp := s.otp
    cmd := s.cmd.kept
    jnl := s.jnl.kept
    memc := { MemSt.init with journal := s.memc.journal }
    dmc := { DmcSt.init with journal := s.dmc.journal }
    sys := { SysSt.init with firm := s.sys.firm.kept, straps := s.sys.straps }
    pending := s.pending }

/-- A cold reset: `POR_N` is low. -/
def State.coldReset (s : State) : State := { s.lasting with sys.porN := false }

/-- The pair state a reset leaves (R412, R430). -/
def State.startPair (s : State) : State := s.setFld Reg.TTH_STAT Fl.TTH_STAT_PSTATE (if s.paired then psWAIT else psSOLO)

/-- Bits of a register that a warm reset keeps: RWS bits, the SAFE domain, the GPIO block, what only `POR_N` clears. -/
def warmMask (a : Nat) : Nat :=
  if regDomain a = dSAFE ∨ a = Reg.SYS_RST_CAUSE ∨ a = Reg.SEC_JTAG_STAT ∨ a = Reg.SYS_TEMP then 0xFFFFFFFF
  else if a = Reg.DMC_STAT then 2 ^ (Fl.DMC_STAT_FAIL_CAUSE.hi + 1) - 2 ^ Fl.DMC_STAT_FAIL_CAUSE.lo
  else keptMask a

/-- The registers a warm reset leaves. -/
def State.keepRegs (s t : State) : State :=
  s.regs.foldl
    (fun t e => t.wr e.1 (merge (regReset s.otp.grade e.1).toNat (warmMask e.1) e.2.toNat)) t

/-- The parts of AON, and of SAFE, that a warm reset keeps besides registers (R304, R333, R404, R413, R604, R617, R639). -/
def State.keepParts (s t : State) : State :=
  { t with
    sys := { t.sys with mediaTime := s.sys.mediaTime, wdogTimes := s.sys.wdogTimes, wdogWarm := s.sys.wdogWarm,
                        porTime := s.sys.porTime, testEn := s.sys.testEn, jtagOpen := s.sys.jtagOpen, gpioSet := s.sys.gpioSet }
    ptp := { PtpSt.init with base := s.localNs, atNow := s.now }
    pair := { PairSt.init with edgeAt := s.pair.edgeAt, cold := s.pair.cold }
    memc := { t.memc with lasting := s.memc.lasting }
    pwr := { PwrSt.init with rtc := s.pwr.rtc, rtcNow := s.pwr.rtcNow }
    mix := s.mix.takeMix MixSt.init
    tdm := ⟨s.tdm.ports.filter (fun e => decide (14 ≤ e.1))⟩ }

/-- A warm reset with a cause of `SYS_RST_CAUSE` (R604): it begins with the fence, and ends in BOOT. -/
def State.warmReset (s : State) (cause : Nat) : State :=
  let s := (s.abandonLong).selfFence 2
  let old := s.mode
  let t := s.keepParts (s.keepRegs s.lasting)
  let t := { t with sys.idleOnly := cause == 3 || cause == 4 }
  let t := t.setFld Reg.SYS_RST_CAUSE Fl.SYS_RST_CAUSE_CAUSE cause
  let t := (t.setFld Reg.SYS_MODE Fl.SYS_MODE_PREV old).setFld Reg.SYS_MODE Fl.SYS_MODE_MODE mBOOT
  (t.startPair).irq Reg.SYS_IRQ_STAT Fl.SYS_IRQ_STAT_MODE

/-- `COLD_RESET` (R604). -/
def execColdReset (t : Nat) (s : State) : Out := .next (s.atTime t).coldReset

/-- `POR_RISE` (R599, R607, R666): the straps have been sampled. -/
def execPorRise (pairEn : Bool) (unitId twiAddr bootSrc t : Nat) (s : State) : Out :=
  let s := s.atTime t
  if s.sys.porN then .next s
  else
    let s := { s with sys.porN := true, sys.porTime := s.now, sys.straps := ⟨pairEn, unitId % 2, twiAddr % 8, bootSrc % 4⟩ }
    let s := s.startPair
    if bootSrc % 4 = 3 then .next (s.setFld Reg.SYS_MODE Fl.SYS_MODE_MODE mHALT).allOff
    else .next (s.setFld Reg.SYS_MODE Fl.SYS_MODE_MODE mBOOT)

/-- `WARM_RESET` (R604): of its causes, leaving HALT or SAFE is for a device in that mode, the others for any other. -/
def execWarmReset (cause t : Nat) (s : State) : Out :=
  let s := s.atTime t
  let ok := match cause with
    | 3 => s.mode == mHALT
    | 4 => s.mode == mSAFE
    | _ => s.mode != mHALT && s.mode != mSAFE && decide (1 ≤ cause) && decide (cause ≤ 2)
  if ok then .next (s.warmReset cause) else .next s

/-- The control cores run: their watchdog counts. -/
def State.coresRun (s : State) : Bool := s.mode != mHALT && s.mode != mSAFE && s.ctrlOn && !s.cmd.ctrlDown

/-- Within 60 s before now. -/
def State.within60 (s : State) (t : Nat) : Bool := decide (s.now < t + 60000000000)

/-- A watchdog timeout that makes a warm reset; a second one within 60 s ends in FAULT (R602, R605). -/
def State.wdogWarmReset (s : State) : State :=
  let again := s.sys.wdogWarm.any s.within60
  let s := { s.warmReset 2 with sys.wdogWarm := some s.now }
  if again then s.setMode mFAULT else s

/-- `WATCHDOG_TIMEOUT` (R605). -/
def execWatchdogTimeout (t : Nat) (s : State) : Out :=
  let s := s.atTime t
  if !s.coresRun then .next s
  else
    let ts := s.now :: s.sys.wdogTimes.filter s.within60
    let s := { s with sys.wdogTimes := ts }
    if 3 ≤ ts.length then .next s.wdogWarmReset
    else .next ((s.ctrlReset.irq Reg.SYS_IRQ_STAT Fl.SYS_IRQ_STAT_WDOG).logEventFree 0x1781 0)

/-- `CTRL_RESTART` (R604): firmware runs again from its copy in reserved DRAM. -/
def execCtrlRestart (t : Nat) (s : State) : Out :=
  let s := s.atTime t
  if s.cmd.ctrlDown && s.mode != mHALT && s.mode != mSAFE && !s.sys.testEn then .next { s with cmd.ctrlDown := false } else .next s

/-! ### Boot (R607, R608, R610) -/

/-- No firmware can be started (R602). -/
def State.noFirmware (s : State) : State := s.setMode mFAULT

/-- The boot ROM waits on HSP (R608). -/
def State.waitHost (s : State) : State := { s with sys.firm := { s.sys.firm with waitHsp := true } }

/-- Header fields of the image that is to run. -/
def Firm.ofImage (f : Firm) (b : List Byte) : Firm :=
  { f with secVer := uliSecVer b, compat := uliCompat b, build := uliBuild b, keyIdx := uliKey b, hash := uliHash b }

/-- Step 4 of R607: the payload lies at the start of control SRAM. -/
def State.copyFirmware (s : State) (b : List Byte) : State :=
  { s.busWrite 0x1000000 (b.drop 512) with sys.firm := s.sys.firm.ofImage b }

/-- Steps 5 and 6 of R607; `x` is the slot, where firmware came from flash. -/
def State.startFirmware (s : State) (trained : Bool) (x : Option Nat) : State :=
  if !trained then s.dramFail 1
  else
    let s := s.dramTrained
    let s := { s with dmc.retired := s.dmc.journal }
    let s := match x with
      | some k => { s.setTries k (s.tries k + 1) with sys.firm.slot := k }
      | none => s
    let s := s.setFlag Reg.SYS_BOOT_STAT Fl.SYS_BOOT_STAT_SLOT (x == some 1)
    let s := s.setFlag Reg.SYS_BOOT_STAT Fl.SYS_BOOT_STAT_HSP_BOOT x.isNone
    let s := s.setFld Reg.SYS_BOOT_STAT Fl.SYS_BOOT_STAT_SEC_VER s.sys.firm.secVer
    let s := { s with sys.firm := { s.sys.firm with waitHsp := false, goPending := false } }
    s.setMode mLOAD

/-- Build sequence that a slot's header gives. -/
def State.slotBuild (s : State) (x : Nat) : Nat := uliBuild (s.rdBytes (slotBase x) 512)

/-- The newer of the slots that satisfy a test. -/
def State.newerSlot (s : State) (p : Nat → Bool) : Option Nat :=
  match p 0, p 1 with
  | true, true => some (if s.slotBuild 0 < s.slotBuild 1 then 1 else 0)
  | true, false => some 0
  | false, true => some 1
  | false, false => none

/-- Boot from flash (R610), where a slot is bootable. -/
def State.bootFlash (s : State) (trained : Bool) : Option State :=
  (s.newerSlot s.bootable).map (fun x =>
    let s := s.setFlag Reg.SYS_BOOT_STAT Fl.SYS_BOOT_STAT_FALLBACK (s.newerSlot s.marked != some x)
    (s.copyFirmware (s.slotImage x)).startFirmware trained (some x))

/-- `BOOT` (R607): the boot ROM's steps. `trained` tells whether every DRAM channel trained. -/
def execBoot (trained : Bool) (t : Nat) (s : State) : Out :=
  let s := s.atTime t
  if s.mode ≠ mBOOT ∨ s.sys.porN = false then .next s
  else if s.sys.firm.goPending then .next (s.startFirmware trained none)
  else if s.sys.firm.waitHsp then .next s
  else
    let s := s.reapplyRepairs
    if s.sys.straps.bootSrc = 1 then .next s.waitHost
    else
      match s.bootFlash trained with
      | some s' => .next s'
      | none => .next (if s.sys.straps.bootSrc = 2 then s.waitHost else s.noFirmware)

/-- The staging area of R608. -/
def stagingSize : Nat := 1576960

def specBootLoad : CmdSpec := cmdRow 0x0E20 0 false 9 8200 [] false
def cmdBootLoad (p : Packet) (s : State) : CmdRes :=
  let off := u32 p.params 0
  let d := p.params.drop 8
  if !zeroAt p.params 4 4 ∨ stagingSize < off + d.length then .fail s stBAD_PARAM []
  else .ok (s.busWrite (0x1000000 + off) d) []
/-- `BOOT_LOAD` (R608). -/
def execBootLoad (p : Packet) (s : State) : Out := runPacket specBootLoad p (cmdBootLoad p) s

def specBootGo : CmdSpec := cmdRow 0x0E21 0 false 8 8 [] false
def cmdBootGo (p : Packet) (s : State) : CmdRes :=
  let n := u32 p.params 0
  if !zeroAt p.params 4 4 ∨ stagingSize < n then .fail s stBAD_PARAM []
  else
    match containerErr (s.rdBytes 0x1000000 512) n itFIRMWARE with
    | some e => .fail s stBAD_PARAM (by1 e)
    | none =>
      let b := s.rdBytes 0x1000000 n
      if s.verifies b then
        let s := (s.copyFirmware b).setMode mBOOT
        .ok { s with sys.firm := { s.sys.firm with waitHsp := false, goPending := true } } []
      else .fail s stVERIFY_FAIL []
/-- `BOOT_GO` (R608): boot continues at step 5. -/
def execBootGo (p : Packet) (s : State) : Out := runPacket specBootGo p (cmdBootGo p) s

/-! ### Mode commands (R599, R600, R603) -/

/-- SAFE may be left (R603). -/
def State.mayLeaveSafe (s : State) : Bool :=
  decide (s.junction ≤ 1000) && !s.flag Reg.CLK_STAT Fl.CLK_STAT_XO_FAIL && s.fld Reg.DMC_STAT Fl.DMC_STAT_FAIL_CAUSE == 0

/-- Entry to HALT: the fence, and every domain other than AON and SAFE goes OFF (R418, R626). -/
def State.enterHalt (s : State) : State := (((s.abandonLong).selfFence 2).setMode mHALT).allOff

/-- A transition that completes at a folio tick begins (R600, R631, R633). -/
def State.beginTransit (s : State) (m : Nat) : State :=
  let s := s.wakeAll s.planeDomains true
  { s.setFlag Reg.SYS_MODE Fl.SYS_MODE_TRANSIT true with sys.modeAt := some m }

/-- What a `MODE_SET` that is accepted does here, outside SAFE. -/
inductive ModeAct where
  | now (m : Nat)
  | atTick (m : Nat)
  | halt
  | refuse

/-- The transitions of R599 that `MODE_SET` may ask for. -/
def modeAct (cur m : Nat) : ModeAct :=
  if m = mHALT then (if [mIDLE, mSERVICE, mFAULT].contains cur then .halt else .refuse)
  else if cur = mIDLE then
    (if m = mRENDER ∨ m = mMEASURE then .atTick m else if m = mSERVICE then .now m else .refuse)
  else if m = mIDLE then
    (if cur = mRENDER ∨ cur = mMEASURE then .atTick m else if cur = mSERVICE then .now m else .refuse)
  else .refuse

def specModeSet : CmdSpec := cmdRow 0x0002 0 true 4 4 fwModes true

/-- The journal record and the reply, ahead of a transition after which nothing answers. -/
def State.replyFirst (s : State) (sp : CmdSpec) (p : Packet) : State :=
  ((if sp.journ then s.record sp.opcode p.params [] else s).reply p sp.opcode stOK [])

def cmdModeSet (p : Packet) (s : State) : CmdRes :=
  let m := u8 p.params 0
  if 11 < m ∨ !zeroAt p.params 1 3 then .fail s stBAD_PARAM []
  else if m = s.mode then .done (s.reply p 0x0002 stOK [])
  else if s.mode = mSAFE then
    if m = mIDLE ∧ s.mayLeaveSafe = true then .done ((s.reply p 0x0002 stOK []).warmReset 4) else .fail s stNOT_IN_MODE []
  else if m = mSAFE then .done ((s.replyFirst specModeSet p).enterSafe 5)
  else
    match modeAct s.mode m with
    | .now m => .ok (s.setMode m) []
    | .atTick m => .ok (s.beginTransit m) []
    | .halt => .done (s.replyFirst specModeSet p).enterHalt
    | .refuse => .fail s stNOT_IN_MODE []
/-- `MODE_SET` (R599). -/
def execModeSet (p : Packet) (s : State) : Out := runPacket specModeSet p (cmdModeSet p) s

def specSysReset : CmdSpec := cmdRow 0x0003 0 false 4 4 fwModes false
def cmdSysReset (p : Packet) (s : State) : CmdRes :=
  let k := u8 p.params 0
  if 1 < k ∨ !zeroAt p.params 1 3 then .fail s stBAD_PARAM []
  else
    let s := s.reply p 0x0003 stOK []
    .done (if k = 0 then s.warmReset 1 else s.ctrlReset)
/-- `SYS_RESET` kind 0 (R604): the reset follows the reply by 1 ms. -/
def execSysResetWarm (p : Packet) (s : State) : Out := runPacket specSysReset (p.withOp 0 0) (cmdSysReset (p.withOp 0 0)) s
/-- `SYS_RESET` kind 1 (R604). -/
def execSysResetCtrl (p : Packet) (s : State) : Out := runPacket specSysReset (p.withOp 0 1) (cmdSysReset (p.withOp 0 1)) s

/-- `FAULT_ENTRY` (R602): the boot ROM finds no bootable firmware image and has no host to wait for. -/
def execFaultEntry (t : Nat) (s : State) : Out :=
  let s := s.atTime t
  if s.mode = mBOOT ∧ s.sys.firm.goPending = false ∧ s.sys.firm.waitHsp = false ∧ (s.newerSlot s.bootable).isNone = true ∧
      (s.sys.straps.bootSrc = 0 ∨ s.sys.straps.bootSrc = 3) then .next s.noFirmware
  else .next s

/-! ### Waking (R603, R631) -/

/-- A wake source leaves HALT. -/
def State.leaveHalt (s : State) : State := s.warmReset 3

/-- The alarm matches (R639). -/
def State.alarmDue (s : State) : Bool := s.rtcNow % 2 ^ 32 == s.rd Reg.PWR_RTC_ALARM

/-- `HALT_WAKE` (R603). `src`: 0 a TWI address match, 1 the RTC alarm, 2 a `REIN_IN` that falls quiet in a pair. -/
def execHaltWake (src t : Nat) (s : State) : Out :=
  let s := s.atTime t
  if s.mode ≠ mHALT ∨ s.sys.porN = false then .next s
  else
    match src with
    | 0 => .next (s.leaveHalt.bump Reg.CMD_TWI_WAKE)
    | 1 => if s.alarmDue && s.flag Reg.PWR_CFG Fl.PWR_CFG_ALARM_EN then .next s.leaveHalt else .next s
    | 2 => if s.paired then .next s.leaveHalt else .next s
    | _ => .next s

/-- `RTC_ALARM` (R631). -/
def execRtcAlarm (t : Nat) (s : State) : Out :=
  let s := s.atTime t
  if !s.alarmDue then .next s
  else
    let s := s.irq Reg.PWR_IRQ_STAT Fl.PWR_IRQ_STAT_RTC
    if s.mode = mHALT ∧ s.flag Reg.PWR_CFG Fl.PWR_CFG_ALARM_EN = true then .next s.leaveHalt else .next s

/-- The wait for the reference has lasted `REF_WAIT` (R614). -/
def State.refWaitOver (s : State) : Bool :=
  s.sys.refWait && decide (s.sys.porTime + s.fld Reg.SYS_JNL_CFG Fl.SYS_JNL_CFG_REF_WAIT * 100000000 ≤ s.now)

/-- `REF_WAIT_EXPIRY` (R614): RENDER follows at the next tick, with media time as it is. -/
def execRefWaitExpiry (t : Nat) (s : State) : Out :=
  let s := s.atTime t
  if s.refWaitOver then .next ({ (s.beginTransit mRENDER) with sys.refWait := false }.logEvent 0x0080 1 0) else .next s

end Sys2Proof.Machine
end

