-- ==== Sys2Proof/Machine/StblCmd.lean ====
section
/-!
DEFINITION. The commands of the Stable Scheduler (R512).
-/

namespace Sys2Proof.Machine

def specStblQSet : CmdSpec := cmdRow 0x1001 0 true 8 8 fwModes true
def specStblTraceSet : CmdSpec := cmdRow 0x1002 0 false 24 24 fwModes false
def specStblTraceRead : CmdSpec := cmdRow 0x1003 2 false 4 4 fwModes false
def specStblSubmit : CmdSpec := cmdRow 0x1004 0 false 36 36 fwModes false
def specStblQuery : CmdSpec := cmdRow 0x1005 2 false 0 0 fwModes false
def specStblStats : CmdSpec := cmdRow 0x1006 2 false 0 0 fwModes false

/-- Σ `RESV` over the queues, with queue `q` at `v` (R492). -/
def State.resvWith (s : State) (q v : Nat) : Nat :=
  ((List.range 64).map (fun i => if i = q then v else s.fld (Reg.STBL_Q_CFG i) Fl.STBL_Q_CFG_RESV)).sum

def cmdStblQSet (p : Packet) (s : State) : CmdRes :=
  let b := p.params
  let q := u8 b 0
  let v := u32 b 4
  if 64 ≤ q ∨ !zeroAt b 1 3 ∨ !rsvOk (Reg.STBL_Q_CFG q) v ∨ bitsN v 16 8 = 0 ∨ 256 < bitsN v 16 8 ∨
      (q < 32 ∧ bitsN v 30 28 ≠ s.prio q) ∨ (q < 8 ∧ bitsN v 7 0 < 4) then .fail s stBAD_PARAM []
  else if 256 < s.resvWith q (bitsN v 7 0) then .fail s stNO_RESOURCE []
  else .ok (s.wr (Reg.STBL_Q_CFG q) v) []
/-- `STBL_Q_SET` (R492, R512). -/
def execStblQSet (p : Packet) (s : State) : Out := runPacket specStblQSet p (cmdStblQSet p) s

def cmdStblTraceSet (p : Packet) (s : State) : CmdRes :=
  let b := p.params
  let cfg := u32 b 0
  let base := u64 b 12
  let size := u32 b 20
  let dram := cfg.testBit 30
  if !rsvOk Reg.STBL_TRC_CFG cfg ∨ base % 4096 ≠ 0 ∨ 2 ^ 40 ≤ base ∨ size % 4096 ≠ 0 ∨ 2 ^ 28 < size ∨
      (dram = true ∧ (size < 4096 ∨ !s.dramFree base size)) then .fail s stBAD_PARAM []
  else
    let s := (s.wr Reg.STBL_TRC_CFG cfg).wr Reg.STBL_TRC_QMASK_LO (u32 b 4)
    let s := (s.wr Reg.STBL_TRC_QMASK_HI (u32 b 8)).wr Reg.STBL_TRC_BASE_LO (base % 2 ^ 32)
    let s := (s.wr Reg.STBL_TRC_BASE_HI (base / 2 ^ 32)).wr Reg.STBL_TRC_SIZE size
    .ok { s.wr Reg.STBL_TRC_WPTR 0 with stbl.trcStopped := false } []
/-- `STBL_TRACE_SET` (R505, R506). -/
def execStblTraceSet (p : Packet) (s : State) : Out := runPacket specStblTraceSet p (cmdStblTraceSet p) s

def cmdStblTraceRead (p : Packet) (s : State) : CmdRes :=
  let first := u16 p.params 0
  let n := u16 p.params 2
  if n = 0 ∨ 256 < n ∨ 2048 < first + n then .fail s stBAD_PARAM []
  else .ok s ((List.range (8 * n)).flatMap (fun w => by4 (s.rd (Reg.STBL_RING (8 * first + w)))))
/-- `STBL_TRACE_READ` (R512). -/
def execStblTraceRead (p : Packet) (s : State) : Out := runPacket specStblTraceRead p (cmdStblTraceRead p) s

/-- The ticket of a descriptor (R490). -/
def ticketOf (d : List Byte) : Ticket :=
  { kind := u8 d 0, cls := u8 d 1, eng := u8 d 2, flow := u8 d 3, seq := u16 d 4, epoch := u8 d 6, prio := u8 d 7,
    folio := u32 d 8, gate := u8 d 12, gateSeq := u16 d 14, item := 0, urgent := none, args := slice d 16 16 }

/-- A submitted descriptor is acceptable (R490, R491, R502, R512). -/
def submitOk (d : List Byte) : Bool :=
  let k := ticketOf d
  let x := k.copy
  (k.kind == tkDMA || k.kind == tkMARK) && k.cls == (if k.kind = tkDMA then 9 else 15) &&
    (k.eng == 255 || (k.kind == tkDMA && decide (24 ≤ k.eng) && decide (k.eng < 28))) &&
    (k.flow == 255 || (decide (16 ≤ k.flow) && decide (k.flow < 32))) && k.epoch == 0 && k.prio == 0 && u8 d 13 == 0 &&
    (k.gate == 255 || decide (k.gate < 32)) &&
    (k.kind == tkMARK || (u16 k.args 14 == 0 && x.len != 0 && !(decide (x.src < x.dst) && decide (x.dst < x.src + x.len))))

def cmdStblSubmit (p : Packet) (s : State) : CmdRes :=
  let b := p.params
  let q := u8 b 0
  let d := b.drop 4
  if q < 48 ∨ 64 ≤ q ∨ !zeroAt b 1 3 ∨ !submitOk d then .fail s stBAD_PARAM []
  else if !s.room q then .fail ((s.bump Reg.STBL_QFULL).irq Reg.STBL_IRQ_STAT Fl.STBL_IRQ_STAT_QFULL) stQFULL []
  else
    let s := s.enter q (ticketOf d)
    .ok s (by4 (s.liveStbl Reg.STBL_STAT))
/-- `STBL_SUBMIT` (R491 to R493, R502, R512). -/
def execStblSubmit (p : Packet) (s : State) : Out := runPacket specStblSubmit p (cmdStblSubmit p) s

def cmdStblQuery (_p : Packet) (s : State) : CmdRes :=
  .ok s (s.viewBytes ([Reg.STBL_STAT] ++ (List.range 64).map Reg.STBL_Q_STAT ++ (List.range 32).map Reg.STBL_FLOW_STAT))
/-- `STBL_QUERY` (R512). -/
def execStblQuery (p : Packet) (s : State) : Out := runPacket specStblQuery p (cmdStblQuery p) s

/-- The STBL counters in offset order (R511). -/
def stblCounters : List Nat :=
  [Reg.STBL_ISSUED, Reg.STBL_DONE, Reg.STBL_DROP, Reg.STBL_DISPLACE, Reg.STBL_HW_STALL, Reg.STBL_QFULL, Reg.STBL_REL_MISS,
   Reg.STBL_TRC_LOST]

def cmdStblStats (_p : Packet) (s : State) : CmdRes :=
  let (s, bs) := s.takeCounters stblCounters
  .ok s bs
/-- `STBL_STATS` (R512). -/
def execStblStats (p : Packet) (s : State) : Out := runPacket specStblStats p (cmdStblStats p) s

end Sys2Proof.Machine
end

