-- ==== Sys2Proof/Machine/Table.lean ====
section
/-!
DEFINITION. The command table (R592): what a packet's opcode names, with its row and its body. Each chapter's own file gives both.
-/

namespace Sys2Proof.Machine

/-- A command's body: what it answers to a packet. -/
abbrev CmdBody := Packet → State → CmdRes

/-- Opcodes 0x00xx. -/
def cmds00 (_s : State) : List (Nat × CmdSpec × CmdBody) :=
  [(0x0000, specEcho, cmdEcho), (0x0001, specSysInfo, cmdSysInfo), (0x0002, specModeSet, cmdModeSet),
   (0x0003, specSysReset, cmdSysReset), (0x0004, specSafeMask, cmdSafeMask), (0x0005, specUnitReset, cmdUnitReset),
   (0x0010, specRenderFormatSet, cmdRenderFormatSet), (0x0011, specBudgetQuery, cmdBudgetQuery),
   (0x0020, specEventRead, cmdEventRead), (0x0030, specCmdCfgSet, cmdCmdCfgSet), (0x0031, specAuthKey, cmdAuthKey),
   (0x0032, specNonceQuery, cmdNonceQuery), (0x0040, specGpioCfg, cmdGpioCfg), (0x0041, specGpioWrite, cmdGpioWrite),
   (0x0042, specGpioQuery, cmdGpioQuery), (0x00F0, specBulkWrite, cmdBulkWrite), (0x00F1, specBulkRead, cmdBulkRead),
   (0x00F2, specBulkCrc, cmdBulkCrc)]

/-- Opcodes 0x01xx. -/
def cmds01 (_s : State) : List (Nat × CmdSpec × CmdBody) :=
  [(0x0101, specPwrDomSet, cmdPwrDomSet), (0x0102, specPwrCfgSet, cmdPwrCfgSet), (0x0103, specPwrQuery, cmdPwrQuery),
   (0x0104, specPwrStats, cmdPwrStats), (0x0105, specRtcSet, cmdRtcSet)]

/-- Opcodes 0x02xx. -/
def cmds02 (_s : State) : List (Nat × CmdSpec × CmdBody) :=
  [(0x0201, specClkCfgSet, cmdClkCfgSet), (0x0202, specClkRefSet, cmdClkRefSet),
   (0x0203, specClkSelect, cmdClkSelect), (0x0204, specClkDcoSet, cmdClkDcoSet),
   (0x0205, specClkOutSet, cmdClkOutSet), (0x0206, specClkQuery, cmdClkQuery), (0x0207, specClkStats, cmdClkStats),
   (0x0210, specPtpCfgSet, cmdPtpCfgSet), (0x0211, specPtpRelock, cmdPtpRelock), (0x0212, specPtpQuery, cmdPtpQuery),
   (0x0213, specPtpStats, cmdPtpStats)]

/-- Opcodes 0x03xx. -/
def cmds03 (_s : State) : List (Nat × CmdSpec × CmdBody) :=
  [(0x0301, specNetPortSet, cmdNetPortSet), (0x0302, specNetRuleSet, cmdNetRuleSet),
   (0x0303, specNetRuleCommit, cmdNetRuleCommit), (0x0304, specNetTxqSet, cmdNetTxqSet),
   (0x0305, specNetLinkQuery, cmdNetLinkQuery), (0x0306, specNetStats, cmdNetStats),
   (0x0307, specNetMdio, cmdNetMdio), (0x0310, specStrmRxSet, cmdStrmRxSet), (0x0311, specStrmTxSet, cmdStrmTxSet),
   (0x0312, specStrmRxQuery, cmdStrmRxQuery), (0x0313, specStrmTxQuery, cmdStrmTxQuery),
   (0x0314, specStrmStats, cmdStrmStats)]

/-- Opcodes 0x04xx. -/
def cmds04 (_s : State) : List (Nat × CmdSpec × CmdBody) :=
  [(0x0401, specLayoutLoad, cmdLayoutLoad), (0x0402, specObjConfig, cmdObjConfig),
   (0x0403, specObjDeconfig, cmdObjDeconfig), (0x0404, specObjBind, cmdObjBind), (0x0405, specObjQuery, cmdObjQuery),
   (0x0406, specOmsStats, cmdOmsStats), (0x0407, specOmsCfgSet, cmdOmsCfgSet),
   (0x0408, specLayoutQuery, cmdLayoutQuery)]

/-- Opcodes 0x05xx. -/
def cmds05 (_s : State) : List (Nat × CmdSpec × CmdBody) :=
  [(0x0501, specGeoCfgSet, cmdGeoCfgSet), (0x0502, specGeoTempSet, cmdGeoTempSet),
   (0x0503, specGeoSpkEnable, cmdGeoSpkEnable), (0x0504, specGeoFrameQuery, cmdGeoFrameQuery),
   (0x0505, specGeoStats, cmdGeoStats), (0x0506, specGeoEval, cmdGeoEval), (0x0507, specGeoRaQuery, cmdGeoRaQuery),
   (0x0508, specGeoRaStats, cmdGeoRaStats)]

/-- Opcodes 0x06xx. -/
def cmds06 (_s : State) : List (Nat × CmdSpec × CmdBody) :=
  [(0x0601, specFabCfgSet, cmdFabCfgSet), (0x0602, specFabObjQuery, cmdFabObjQuery),
   (0x0603, specFabStats, cmdFabStats), (0x0604, specFabInterpTable, cmdFabInterpTable)]

/-- Opcodes 0x07xx. -/
def cmds07 (_s : State) : List (Nat × CmdSpec × CmdBody) :=
  [(0x0701, specOutConfig, cmdOutConfig), (0x0702, specOutGainSet, cmdOutGainSet),
   (0x0703, specOutAlignSet, cmdOutAlignSet), (0x0704, specOutEqSet, cmdOutEqSet),
   (0x0705, specOutLimSet, cmdOutLimSet), (0x0706, specOutBmSet, cmdOutBmSet), (0x0707, specOutSilSet, cmdOutSilSet),
   (0x0708, specOutAmpSet, cmdOutAmpSet), (0x0709, specOutQuery, cmdOutQuery),
   (0x070A, specOutEqQuery, cmdOutEqQuery), (0x070B, specOutStats, cmdOutStats)]

/-- Opcodes 0x08xx. -/
def cmds08 (_s : State) : List (Nat × CmdSpec × CmdBody) :=
  [(0x0801, specFirLoad, cmdFirLoad), (0x0802, specFirCommit, cmdFirCommit), (0x0803, specFirScheme, cmdFirScheme),
   (0x0804, specFirClear, cmdFirClear), (0x0805, specFirQuery, cmdFirQuery), (0x0806, specConvStats, cmdConvStats),
   (0x0807, specFirExport, cmdFirExport)]

/-- Opcodes 0x09xx. -/
def cmds09 (_s : State) : List (Nat × CmdSpec × CmdBody) :=
  [(0x0901, specMeasPdmSet, cmdMeasPdmSet), (0x0902, specMeasSweep, cmdMeasSweep),
   (0x0903, specMeasPrbGroupSet, cmdMeasPrbGroupSet), (0x0904, specMeasPrbSet, cmdMeasPrbSet),
   (0x0905, specMeasPrbResult, cmdMeasPrbResult), (0x0906, specMeasPrbBaseline, cmdMeasPrbBaseline),
   (0x0907, specAutotrimSet, cmdAutotrimSet), (0x0908, specMeasStats, cmdMeasStats)]

/-- Opcodes 0x0Axx. -/
def cmds0A (_s : State) : List (Nat × CmdSpec × CmdBody) :=
  [(0x0A01, specMixSrcSet, cmdMixSrcSet), (0x0A02, specMixNodeStage, cmdMixNodeStage),
   (0x0A03, specMixCommit, cmdMixCommit), (0x0A04, specMixBusSet, cmdMixBusSet),
   (0x0A05, specMixDomSet, cmdMixDomSet), (0x0A06, specMixBridgeSet, cmdMixBridgeSet),
   (0x0A07, specMixSilSet, cmdMixSilSet), (0x0A08, specBypSet, cmdBypSet), (0x0A09, specDuckSet, cmdDuckSet),
   (0x0A0A, specMixQuery, cmdMixQuery), (0x0A0B, specMixStats, cmdMixStats)]

/-- Opcodes 0x0Bxx. -/
def cmds0B (_s : State) : List (Nat × CmdSpec × CmdBody) :=
  [(0x0B01, specTdmPortSet, cmdTdmPortSet), (0x0B02, specTdmSlotSet, cmdTdmSlotSet),
   (0x0B03, specTdmQuery, cmdTdmQuery), (0x0B04, specTdmStats, cmdTdmStats)]

/-- Opcodes 0x0Cxx. -/
def cmds0C (_s : State) : List (Nat × CmdSpec × CmdBody) :=
  [(0x0C01, specPairCfgSet, cmdPairCfgSet), (0x0C02, specPairIdSet, cmdPairIdSet),
   (0x0C03, specPairQuery, cmdPairQuery), (0x0C04, specPairSwitchover, cmdPairSwitchover),
   (0x0C05, specPairResync, cmdPairResync), (0x0C06, specPairFence, cmdPairFence),
   (0x0C07, specPairStats, cmdPairStats)]

/-- Opcodes 0x0Dxx. -/
def cmds0D (_s : State) : List (Nat × CmdSpec × CmdBody) :=
  [(0x0D01, specFxInstanceSet, cmdFxInstanceSet), (0x0D02, specFxParamSet, cmdFxParamSet),
   (0x0D03, specFxQuery, cmdFxQuery), (0x0D04, specFxStats, cmdFxStats), (0x0D05, specFxMemRead, cmdFxMemRead)]

/-- Opcodes 0x0Exx. -/
def cmds0E (_s : State) : List (Nat × CmdSpec × CmdBody) :=
  [(0x0E01, specImageCommit, cmdImageCommit), (0x0E02, specImageQuery, cmdImageQuery),
   (0x0E03, specFloorRaise, cmdFloorRaise), (0x0E04, specFuse, cmdFuse), (0x0E05, specSecQuery, cmdSecQuery),
   (0x0E10, specJournalSave, cmdJournalSave), (0x0E11, specJournalQuery, cmdJournalQuery),
   (0x0E12, specJournalCfgSet, cmdJournalCfgSet), (0x0E13, specJournalClear, cmdJournalClear),
   (0x0E20, specBootLoad, cmdBootLoad), (0x0E21, specBootGo, cmdBootGo)]

/-- Opcodes 0x0Fxx. -/
def cmds0F (s : State) : List (Nat × CmdSpec × CmdBody) :=
  [(0x0F01, specPmcCfgSet, cmdPmcCfgSet), (0x0F02, specPmcSelSet, cmdPmcSelSet),
   (0x0F03, specPmcCtlSet, cmdPmcCtlSet), (0x0F04, specPmcRead s, cmdPmcRead),
   (0x0F05, specPmcBwRead s, cmdPmcBwRead), (0x0F40, specSpnQosSet, cmdSpnQosSet),
   (0x0F41, specSpnCfgSet, cmdSpnCfgSet), (0x0F42, specSpnQuery, cmdSpnQuery),
   (0x0F43, specSpnErrRead, cmdSpnErrRead), (0x0F44, specSpnStats, cmdSpnStats),
   (0x0F50, specMemCfgSet, cmdMemCfgSet), (0x0F51, specMemtest, cmdMemtest), (0x0F52, specMemRepair, cmdMemRepair),
   (0x0F53, specMemQuery, cmdMemQuery), (0x0F54, specMemErrRead, cmdMemErrRead), (0x0F55, specMemStats, cmdMemStats),
   (0x0F60, specDmcCfgSet, cmdDmcCfgSet), (0x0F61, specDramRetire, cmdDramRetire),
   (0x0F62, specDmcFreqSet, cmdDmcFreqSet), (0x0F63, specDmcQuery, cmdDmcQuery),
   (0x0F64, specDmcErrRead, cmdDmcErrRead), (0x0F65, specDmcStats, cmdDmcStats)]

/-- Opcodes 0x10xx. -/
def cmds10 (_s : State) : List (Nat × CmdSpec × CmdBody) :=
  [(0x1001, specStblQSet, cmdStblQSet), (0x1002, specStblTraceSet, cmdStblTraceSet),
   (0x1003, specStblTraceRead, cmdStblTraceRead), (0x1004, specStblSubmit, cmdStblSubmit),
   (0x1005, specStblQuery, cmdStblQuery), (0x1006, specStblStats, cmdStblStats)]

/-- The table's page of an opcode. -/
def cmdPage (s : State) (page : Nat) : List (Nat × CmdSpec × CmdBody) :=
  match page with
  | 0x00 => cmds00 s
  | 0x01 => cmds01 s
  | 0x02 => cmds02 s
  | 0x03 => cmds03 s
  | 0x04 => cmds04 s
  | 0x05 => cmds05 s
  | 0x06 => cmds06 s
  | 0x07 => cmds07 s
  | 0x08 => cmds08 s
  | 0x09 => cmds09 s
  | 0x0A => cmds0A s
  | 0x0B => cmds0B s
  | 0x0C => cmds0C s
  | 0x0D => cmds0D s
  | 0x0E => cmds0E s
  | 0x0F => cmds0F s
  | 0x10 => cmds10 s
  | _ => []

/-- What an opcode names, where it is assigned. -/
def commandOf (s : State) (opcode : Nat) : Option (CmdSpec × CmdBody) :=
  ((cmdPage s (opcode / 256)).find? (fun e => e.1 == opcode)).map (·.2)

end Sys2Proof.Machine
end

