-- ==== Sys2Proof/Machine/Ports.lean ====
section
/-!
DEFINITION. The command ports (R570 to R577, R586), the frames that carry commands between the units of a pair (R441, R443), the end
of a long operation (R587), and the folio tick's row, which starts the logged commands that are due.
-/

namespace Sys2Proof.Machine

/-! ### Packets as bytes (R578) -/

/-- A source of packets that is not a network. -/
def noSrc : NetSrc := ⟨0, 0, 0, 0⟩

/-- Read a packet's bytes. One too short for its header fails the framing check: its length field is given a value that no such
packet has. One too short for an opcode and a sequence has opcode 0xFFFF and sequence 0 (R579). -/
def rawPacket (port : Nat) (r : RawPkt) (now : Nat) : Nat × Packet :=
  let b := r.bytes
  if b.length < 4 then (0xFFFF, ⟨port, r.src, 0, 1, 0, 0, 0, [], [], now⟩)
  else if b.length < 16 then (u16 b 0, ⟨port, r.src, u16 b 2, 1, 0, 0, 0, [], [], now⟩)
  else
    let fl := u8 b 6
    let body := b.drop 16
    let cut := if fl.testBit 0 then body.length - 16 else body.length
    (u16 b 0, ⟨port, r.src, u16 b 2, u16 b 4, fl, u8 b 7, u64 b 8, body.take cut, body.drop cut, now⟩)

/-- The checks of a packet whose opcode is not assigned (R581): the SAFE-domain responder and the recovery responder answer
`NOT_IN_MODE` to any opcode that is not theirs (R577, R608). -/
def State.checkUnknown (s : State) (p : Packet) (opcode : Nat) : Verdict :=
  if !p.framed then .refuse stBAD_LENGTH
  else if !s.authOk p opcode then .authFail true
  else
    match s.nonceCheck p opcode with
    | some v => v
    | none =>
      if s.cmd.longOp.isSome || s.cmd.peerBusy.isSome then .busy
      else .refuse (if s.mode = mSAFE ∨ s.recovery = true then stNOT_IN_MODE else stBAD_OPCODE)

/-- Execution of a packet starts. -/
def State.startRaw (s : State) (port : Nat) (r : RawPkt) : State :=
  let x := rawPacket port r s.now
  match commandOf s x.1 with
  | some (sp, body) => s.process sp x.2 (body x.2)
  | none =>
    (s.acceptNonce x.2 x.1).settle (s.checkUnknown x.2 x.1) (cmdRow x.1 0 false 0 0 [] false) x.2 (fun s => .fail s stBAD_OPCODE [])

/-- A packet has arrived whole on a port that answers. -/
def State.arriveRaw (s : State) (port : Nat) (r : RawPkt) : State :=
  if !s.answers port then s
  else
    let s := s.irq Reg.CMD_IRQ_STAT Fl.CMD_IRQ_STAT_RX
    if s.canStart port then s.startRaw port r else s.buffer port r

/-! ### Packets that wait (R573, R574, R586) -/

/-- The first packet that waits on a port and can start. -/
def State.waitingOn (s : State) (port : Nat) (l : List RawPkt) : List (Nat × RawPkt) :=
  if s.canStart port then (l.head?.map (fun r => (port, r))).toList else []

/-- The packet to start next: the first to have arrived; HSP, network, TWI where they came together (R586). -/
def State.nextWaiting (s : State) : Option (Nat × RawPkt) :=
  let l := s.waitingOn 0 s.cmd.hspRx ++ s.waitingOn 1 s.cmd.netRx ++ s.waitingOn 2 s.cmd.twiRx.toList ++
    s.waitingOn portPeer s.cmd.peerRx
  l.foldl (fun best x => match best with
    | none => some x
    | some y => if x.2.time < y.2.time then some x else some y) none

/-- The packet in front of a port's buffer leaves it. -/
def State.unbuffer (s : State) (port : Nat) : State :=
  match port with
  | 0 => { s with cmd.hspRx := s.cmd.hspRx.drop 1 }
  | 1 => { s with cmd.netRx := s.cmd.netRx.drop 1 }
  | 2 => { s with cmd.twiRx := none }
  | _ => { s with cmd.peerRx := s.cmd.peerRx.drop 1 }

/-- Start what can start, at most `k` packets. -/
def startWaiting : Nat → State → State
  | 0, s => s
  | k + 1, s =>
    match s.nextWaiting with
    | some (port, r) => startWaiting k ((s.unbuffer port).startRaw port r)
    | none => s

/-- Start every packet that waits and can start. -/
def State.runWaiting (s : State) : State :=
  startWaiting (s.cmd.hspRx.length + s.cmd.netRx.length + s.cmd.twiRx.toList.length + s.cmd.peerRx.length) s

/-- After a row that has gone from `s` to `s'`: where it ended the wait of a command, waiting packets start. -/
def afterHeld (s s' : State) : Out := .next (if s.cmd.held.isSome && s'.cmd.held.isNone then s'.runWaiting else s')

/-- The same, after a row's outcome. -/
def afterRow (s : State) : Out → Out
  | .next s' => afterHeld s s'
  | .fault f => .fault f
  | .refused r => .refused r

/-! ### HSP (R571 to R573) -/

/-- `HSP_WRITE_COMMAND` (R571, R573): a packet arrives on channel 0. -/
def execHspWriteCommand (bytes : List Byte) (t : Nat) (s : State) : Out :=
  .next ((s.atTime t).arriveRaw 0 ⟨noSrc, bytes, t⟩)

/-- Channel-1 buffers occupied. -/
def State.metaWaiting (s : State) : Nat := countIf s.oms.rx (fun m => m.path == 0)

/-- `META_FULL` (R572). -/
def State.metaFull (s : State) : Bool := decide (4 ≤ s.metaWaiting)

/-- The HSP slave is powered: it lies in the STRM domain (R624). -/
def State.hspPowered (s : State) : Bool := s.mode != mHALT && s.mode != mSAFE && s.domOn dSTRM

/-- `HSP_WRITE_METADATA` (R65, R571, R573): an OMS message arrives on channel 1, whatever the command interpreter does (R37). -/
def execHspWriteMetadata (bytes : List Byte) (t : Nat) (s : State) : Out :=
  let s := s.atTime t
  if !s.hspPowered || !s.omsPath 0 || s.omsIgnored then .next s
  else if s.metaFull then .next s.omsDrop
  else .next (s.queueOms ⟨0, bytes, s.now⟩)

/-- The HSP status byte (R572). -/
def State.hspStatus (s : State) : Nat :=
  maskBit 5 s.metaFull + maskBit 4 s.cmd.longOp.isSome + maskBit 3 s.cmd.done + maskBit 2 s.evt +
    maskBit 1 (decide (2 ≤ s.cmd.hspRx.length)) + maskBit 0 s.cmd.hspReply.isSome

/-- `HOST_IRQ_N` is low (R572). -/
def State.hostIrq (s : State) : Bool := s.cmd.hspReply.isSome || s.cmd.done || s.evt

/-- `HSP_READ_STATUS` (R572): the byte read; `DONE` is cleared. While the control domain is reset the byte is 0 (R577). -/
def execHspReadStatus (s : State) : Out :=
  if s.answers 0 then .next { (s.readReturns s.hspStatus) with cmd.done := false } else .next (s.readReturns 0)

/-- The bytes of a reply read: its length, then the reply; L = 0 where none is ready (R571, R575). -/
def replyRead : Option (List Byte) → List Byte
  | some r => by2 r.length ++ r
  | none => by2 0

/-- `HSP_READ_REPLY` (R571): `n` is how many bytes were read after the dummy clocks. What was read is the value returned, first byte
least significant. A reply read to its end is consumed, and the next command from HSP may start (R573). -/
def execHspReadReply (n t : Nat) (s : State) : Out :=
  let s := s.atTime t
  if !s.answers 0 then .next (s.readReturns 0)
  else
    let b := replyRead s.cmd.hspReply
    let s := s.readReturns (leVal (b.take n))
    if s.cmd.hspReply.isSome && decide (b.length ≤ n) then .next ({ s with cmd.hspReply := none } : State).runWaiting else .next s

/-- `HSP_ABORT` (R571). -/
def execHspAbort (s : State) : Out := if s.answers 0 then .next (s.bump Reg.CMD_HSP_ABORT) else .next s

/-! ### The network port (R574) -/

/-- The enable of the command port on a MAC: 0 port A, 1 port B, 2 the management port. -/
def State.netEnabled (s : State) (mac : Nat) : Bool :=
  match mac with
  | 0 => s.flag Reg.CMD_CFG Fl.CMD_CFG_NET_A
  | 1 => s.flag Reg.CMD_CFG Fl.CMD_CFG_NET_B
  | 2 => s.flag Reg.CMD_CFG Fl.CMD_CFG_NET_M
  | _ => false

/-- The port's MAC is powered, and on a media port the stream engine. -/
def State.netPowered (s : State) (mac : Nat) : Bool :=
  match mac with
  | 0 => s.domOn dNETA && s.domOn dSTRM
  | 1 => s.domOn dNETB && s.domOn dSTRM
  | 2 => s.domOn dMGMT
  | _ => false

/-- `COMMAND_DATAGRAM` (R574): `mac` is the port it came in on, and `src` says where it came from and was sent to. -/
def execCommandDatagram (mac : Nat) (src : NetSrc) (bytes : List Byte) (t : Nat) (s : State) : Out :=
  let s := s.atTime t
  if !s.netPowered mac then .next s
  else if !s.netEnabled mac then .next (if mac < 2 then s.bump Reg.STRM_FOREIGN else s)
  else .next (s.arriveRaw 1 ⟨src, bytes, s.now⟩)

/-! ### TWI (R575 to R577) -/

/-- The 7-bit address of the device. -/
def State.twiAddress (s : State) : Nat := 0x58 + s.sys.straps.twiAddr

/-- A packet of TWI waits or runs. -/
def State.twiTaken (s : State) : Bool := s.cmd.twiRx.isSome || s.cmd.held.any (fun h => h.pkt.port == 2)

/-- `TWI_WRITE` (R575): a packet arrives; its address was not acknowledged while another waits or runs. -/
def execTwiWrite (bytes : List Byte) (t : Nat) (s : State) : Out :=
  let s := s.atTime t
  if s.twiTaken then .next s else .next (s.arriveRaw 2 ⟨noSrc, bytes, s.now⟩)

/-- `SAFE_RESPONDER` (R577): in SAFE a packet over TWI. -/
def execSafeResponder (bytes : List Byte) (t : Nat) (s : State) : Out :=
  let s := s.atTime t
  if s.mode = mSAFE ∧ s.twiTaken = false then .next (s.arriveRaw 2 ⟨noSrc, bytes, s.now⟩) else .next s

/-- `TWI_READ` (R575): `n` bytes are read and acknowledged. The value returned is what was read, first byte least significant. -/
def execTwiRead (n t : Nat) (s : State) : Out :=
  let s := s.atTime t
  if !s.answers 2 then .next (s.readReturns 0)
  else
    let b := replyRead s.cmd.twiReply
    let s := s.readReturns (leVal (b.take n))
    .next (if decide (b.length ≤ n) then { s with cmd.twiReply := none } else s)

/-- `TWI_ADDRESS_MATCH` (R575, R576): `addr` is the 7-bit address, `write` the direction. The value returned is 1 where the device
acknowledges. -/
def execTwiAddressMatch (addr : Nat) (write : Bool) (t : Nat) (s : State) : Out :=
  let s := s.atTime t
  if addr ≠ s.twiAddress ∨ s.sys.porN = false then .next (s.readReturns 0)
  else if s.mode = mHALT then .next ((s.leaveHalt.bump Reg.CMD_TWI_WAKE).readReturns 0)
  else if s.mode = mSAFE then .next (s.readReturns (b2n !(write && s.twiTaken)))
  else if s.domState dCTRL = pRET ∨ s.domState dCTRL = pOFF then
    .next ((((s.wake dCTRL true).bump Reg.CMD_TWI_WAKE).irq Reg.CMD_IRQ_STAT Fl.CMD_IRQ_STAT_WAKE).readReturns 0)
  else .next (s.readReturns (b2n (s.answers 2 && !(write && s.twiTaken))))

/-! ### Commands between the units (R441, R443) -/

/-- The reply to a command that was carried to the peer: it leaves on the port where the command arrived. -/
def State.forwardedReply (s : State) (h : HeldCmd) (b : List Byte) : State :=
  (({ s with cmd.held := none } : State).keepReply h.pkt h.opcode b).emit h.pkt.port h.pkt.src b

/-- A FORWARD frame: the reply that a carried command waits for, or a command. -/
def State.takeForward (s : State) (b : List Byte) : State :=
  match s.cmd.held with
  | some h =>
    if h.kind = 4 ∧ h.opcode = u16 b 0 ∧ h.pkt.seq = u16 b 2 then s.forwardedReply h b else s.arriveRaw portPeer ⟨noSrc, b, s.now⟩
  | none => s.arriveRaw portPeer ⟨noSrc, b, s.now⟩

/-- `FORWARD` (R441). -/
def execForward (f : TethIn) (bad : Bool) (t : Nat) (s : State) : Out :=
  afterHeld s ((s.atTime t).frameIn f bad (fun s => s.takeForward f.body))

/-- What a logged mode change makes of a standby (R443): its own mode stays, and its data plane acts as in the active's mode. -/
def State.loggedMode (s : State) (p : Packet) : State :=
  let m := u8 p.params 0
  let s := s.record 0x0002 p.params []
  if m = mRENDER ∨ m = mMEASURE then { s.wakeAll s.planeDomains true with sys.modeAt := some m }
  else if (m = mIDLE ∨ m = mSERVICE) ∧ s.dp.on = true then { s with sys.modeAt := some m }
  else s

/-- A logged command takes effect at its commit slot (R443): only its own checks are made, and the active has replied. -/
def State.applyLogged (s : State) (c : LogCmd) : State :=
  let p := (rawPacket portLog ⟨noSrc, c.raw, s.now⟩ s.now).2
  match commandOf s c.opcode with
  | none => s.becomeUnsync
  | some (sp, body) =>
    if c.opcode = 0x0002 then s.loggedMode p
    else
      match loggedBody c.opcode body p s with
      | .ok s _ => if sp.journ then s.record c.opcode p.params [] else s
      | .fail s _ _ => s.becomeUnsync
      | .long s args => { s with cmd.longOp := some ⟨c.opcode, p, s.now, args, sp.journ⟩ }
      | .hold s kind arg => { s with cmd.held := some ⟨c.opcode, p, kind, arg, stOK, [], sp.journ⟩ }
      | .done s => s

/-- A unit applies logged commands: a standby, and one that resyncs once it has the active's configuration. -/
def State.takesLog (s : State) : Bool := s.pstate == psSTANDBY || (s.pstate == psRESYNC && decide (2 ≤ s.rphase))

/-- A CMDLOG frame (R423): applied in its slot; one whose slot has passed holds for the folio being captured as well; one whose slot
is to come waits. -/
def State.takeLog (s : State) (b : List Byte) : State :=
  if !s.takesLog then s
  else
    let n := expand 32 s.slot (u32 b 4)
    let c : LogCmd := ⟨n, u16 b 10, u8 b 12, b.drop 16⟩
    if s.slot < n then { s with pair.logged := s.pair.logged ++ [c] }
    else
      let s' := s.applyLogged c
      if n < s.slot then ({ s' with cap := ⟨s'.regs, s'.plan⟩ } : State).takeDomains s'.cap else s'

/-- `CMDLOG` (R441, R443). -/
def execCmdlog (f : TethIn) (bad : Bool) (t : Nat) (s : State) : Out :=
  afterHeld s ((s.atTime t).frameIn f bad (fun s => s.takeLog f.body))

/-- Logged commands whose slot has come. -/
def State.logDue (s : State) : State :=
  let due := s.pair.logged.filter (fun c => decide (c.slot ≤ s.slot))
  due.foldl (fun s c => s.applyLogged c) { s with pair.logged := s.pair.logged.filter (fun c => decide (s.slot < c.slot)) }

/-! ### The folio tick (R127) -/

/-- `FOLIO_TICK`: media time is a multiple of F. `pdm` gives, of each microphone data pin, the bits of the folio that ends on the rising and on
the falling edges of its clock, the first in bit 0. -/
def execFolioTick (pdm : List (Nat × Nat × Nat)) (t : Nat) (s : State) : Out :=
  let s1 := s.atTime t
  if s1.tickDue then afterHeld s (s1.folioTick pdm).logDue else .next s1

/-! ### Rows after which a waiting packet may start -/

/-- `DRAIN_COMPLETE` (R635). -/
def execDrainComplete (t : Nat) (s : State) : Out := afterRow s (rowDrainComplete t s)
/-- `DRAIN_TIMEOUT` (R635). -/
def execDrainTimeout (t : Nat) (s : State) : Out := afterRow s (rowDrainTimeout t s)
/-- `MDIO_FRAME_DONE` (R355). -/
def execMdioFrameDone (data t : Nat) (s : State) : Out := afterRow s (rowMdioFrameDone data t s)
/-- `HANDOVER_SWAP` (R438). -/
def execHandoverSwap (t : Nat) (s : State) : Out := afterRow s (rowHandoverSwap t s)
/-- `STANDBY_ACK_TIMEOUT` (R441). -/
def execStandbyAckTimeout (t : Nat) (s : State) : Out := afterRow s (rowStandbyAckTimeout t s)
/-- `TETHER_DOWN` (R424). -/
def execTetherDown (t : Nat) (s : State) : Out := afterRow s (rowTetherDown t s)
/-- `MIRROR` (R425). -/
def execMirror (f : TethIn) (bad : Bool) (t : Nat) (s : State) : Out := afterRow s (rowMirror f bad t s)
/-- `SCHED` (R426). -/
def execSched (f : TethIn) (bad : Bool) (t : Nat) (s : State) : Out := afterRow s (rowSched f bad t s)
/-- `SNAP` (R434). -/
def execSnap (f : TethIn) (bad : Bool) (t : Nat) (s : State) : Out := afterRow s (rowSnap f bad t s)
/-- `DIGEST` (R429). -/
def execDigest (f : TethIn) (bad : Bool) (t : Nat) (s : State) : Out := afterRow s (rowDigest f bad t s)
/-- `CONTROL` (R424). -/
def execControl (f : TethIn) (bad : Bool) (t : Nat) (s : State) : Out := afterRow s (rowControl f bad t s)
/-- `FX_TICKET_ABORT` (R452). -/
def execFxTicketAbort (c t : Nat) (s : State) : Out := afterRow s (rowFxTicketAbort c t s)

/-! ### The end of a long operation (R587) -/

/-- A result that names no image. -/
def plainRes (r : State × Nat × List Byte) : LongRes := (r.1, r.2.1, r.2.2, [])

/-- What a long operation that ends answers; none while its work goes on. -/
def State.longEnds (s : State) (o : LongOp) (ext : List Byte) (peerOk : Bool) : Option LongRes :=
  let a := nth o.args 0 0
  let n := nth o.args 1 0
  match o.opcode with
  | 0x0010 => some (plainRes (finRenderFormat s o.args))
  | 0x00F2 => some (plainRes (s, s.bulkCrc a n))
  | 0x0401 => some (s.loadEnds a n peerOk State.putLayout)
  | 0x0801 => some (s.loadEnds a n peerOk State.putFir)
  | 0x0802 => (finFirCommit s).map plainRes
  | 0x0902 => (finSweep s).map plainRes
  | 0x0D01 => some (s.fxEnds o.pkt a n peerOk)
  | 0x0E10 => some s.saveEnds
  | 0x0F51 => some (plainRes (finMemtest s ext))
  | 0x0F52 => some (plainRes (finMemRepair s o.args))
  | 0x0F61 => some (plainRes (finDramRetire s o.args))
  | _ => none

/-- A long operation completes: its journal record, its reply, `DONE`. -/
def longDone (r : LongRes) : State := r.1.finishLong r.2.1 r.2.2.1 r.2.2.2

/-- `IMAGE_COMMIT` ends (R599, R611): the mode it came from returns, or the unit restarts after the reply. A commit to a unit that was
in STANDBY always restarts it. -/
def State.commitDone (s : State) (o : LongOp) : State :=
  let r := s.commitEnds (nth o.args 0 0) (nth o.args 1 0)
  let from_ := s.sys.updateFrom
  let s := r.1.finishLong r.2 [] []
  if from_ = mSTANDBY ∨ (r.2 = stOK ∧ nth o.args 2 0 = 1) then s.warmReset 1 else s.setMode from_

/-- `LONG_OPERATION_DONE` (R587). `ext` is what the operation found (the faulty rows of a full pass), and `peerOk` how the other unit
of a pair fared with an image. -/
def execLongOperationDone (ext : List Byte) (peerOk : Bool) (t : Nat) (s : State) : Out :=
  let s := s.atTime t
  match s.cmd.longOp with
  | none => .next s
  | some o =>
    if o.opcode = 0x0E01 then .next (s.commitDone o)
    else
      match s.longEnds o ext peerOk with
      | none => .next s
      | some r => .next (longDone r)

end Sys2Proof.Machine
end

