-- ==== Sys2Proof/Machine/Restore.lean ====
section
/-!
DEFINITION. The restoration of the scene: at a start (R613, R614), for a domain that wakes from OFF (R632), and in the configuration
phase of resync (R434).
-/

namespace Sys2Proof.Machine

/-! ### Replaying the journal (R613) -/

/-- A record is skipped (R613, R684). -/
def State.skipRecord (s : State) (r : JRec) (part : Bool) : State :=
  let s := s.logEvent 0x0082 1 r.opcode
  if part then s.setFlag Reg.SYS_BOOT_STAT Fl.SYS_BOOT_STAT_PARTIAL true else s

/-- A record as the packet it came from. -/
def recPacket (r : JRec) (now : Nat) : Packet := ⟨portLog, noSrc, 0, r.params.length, 0, 0, 0, r.params, [], now⟩

/-- Load a stored image for the record that names it. -/
def State.putStored (s : State) (r : JRec) (b : List Byte) : LongRes :=
  match r.opcode with
  | 0x0401 => s.putLayout b
  | 0x0801 => s.putFir b
  | _ => s.putFx (recPacket r s.now) b

/-- A record whose image cannot be loaded again is skipped (R613); where it is a layout's, the unit is left with no layout (R86,
R112). -/
def State.skipImage (s : State) (r : JRec) : State :=
  let s := s.skipRecord r true
  if r.opcode = 0x0401 then (s.setLayout none).logEvent 0x0083 1 0 else s

/-- A record that names an image (R86, R613). -/
def State.replayImage (s : State) (imgs : List Image) (r : JRec) : State :=
  match imgs.find? (fun i => i.hash == r.hash) with
  | none => s.skipImage r
  | some i =>
    if !s.verifies i.bytes then s.skipImage r
    else
      let x := s.putStored r i.bytes
      if x.2.1 = stOK then x.1 else s.skipImage r

/-- Any other record: its command's own effect, a long operation at once. -/
def State.replayPlain (s : State) (r : JRec) : State :=
  let p := recPacket r s.now
  match commandOf s r.opcode with
  | none => s
  | some (_, body) =>
    match loggedBody r.opcode body p s with
    | .ok s' _ => s'
    | .fail _ _ _ => s
    | .long s' args =>
      match s'.longEnds ⟨r.opcode, p, s.now, args, false⟩ [] true with
      | some x => if x.2.1 = stOK then x.1 else s
      | none => s'
    | .hold s' _ _ => s'
    | .done s' => s'

/-- One record. Mode changes are judged when all records have been replayed. -/
def State.replayOne (s : State) (imgs : List Image) (r : JRec) : State :=
  if !r.crcOk then s.skipRecord r false
  else if r.opcode = 0x0002 then s
  else if r.hash.isEmpty then s.replayPlain r
  else s.replayImage imgs r

/-- A restored binding holds from the start, and its record is in the journal already. -/
def Slot.bound (o : Slot) : Slot := { o with binds := (o.binds.getLast?.map (fun b => (0, b.2))).toList }

/-- Replay records in their order, as in LOAD whatever mode the unit is in. -/
def State.replay (s : State) (imgs : List Image) (recs : List JRec) : State :=
  let m := s.mode
  let s := s.setFld Reg.SYS_MODE Fl.SYS_MODE_MODE mLOAD
  let s := recs.foldl (fun s r => s.replayOne imgs r) s
  let s := { s with oms.slots := s.oms.slots.map (fun (e : Nat × Slot) => (e.1, e.2.bound)) }
  s.setFld Reg.SYS_MODE Fl.SYS_MODE_MODE m

/-! ### The start (R613, R614) -/

/-- The mode that the records ask for: the last of IDLE and RENDER, where MEASURE and SERVICE count as IDLE. -/
def resumeMode (recs : List JRec) : Nat :=
  recs.foldl (fun m r =>
    let v := u8 r.params 0
    if !r.crcOk ∨ r.opcode ≠ 0x0002 then m
    else if v = mRENDER then mRENDER
    else if v = mIDLE ∨ v = mMEASURE ∨ v = mSERVICE then mIDLE
    else m) mIDLE

/-- The Tether reports an `ACTIVE` peer. -/
def State.peerActive (s : State) : Bool :=
  s.paired && s.linkUp && s.fld Reg.TTH_PEER_INFO Fl.TTH_PEER_INFO_PSTATE == psACTIVE

/-- The restored scene goes on to RENDER. -/
def State.resumes (s : State) : Bool :=
  s.flag Reg.SYS_JNL_CFG Fl.SYS_JNL_CFG_RESUME && resumeMode s.jnl.recs == mRENDER &&
    !s.flag Reg.SYS_BOOT_STAT Fl.SYS_BOOT_STAT_PARTIAL && !s.sys.idleOnly && !s.peerActive

/-- `SYS_JNL_CFG` lies in the journal's header (R623). -/
def State.loadJnlCfg (s : State) : State :=
  match s.jnl.cfg with
  | some v => s.wr Reg.SYS_JNL_CFG v
  | none => s

/-- `SCENE_RESTORE` (R613): RENDER follows at a tick, once the reference is ready (R614). -/
def execSceneRestore (t : Nat) (s : State) : Out :=
  let s := s.atTime t
  if s.mode ≠ mLOAD ∨ s.sys.refWait = true ∨ s.sys.modeAt.isSome = true then .next s
  else
    let s := s.loadJnlCfg.replay s.jnl.store s.jnl.recs
    let go := s.resumes
    let s := { s with sys.idleOnly := false }
    .next (if go then { s.wakeAll s.planeDomains true with sys.refWait := true } else s.setMode mIDLE)

/-! ### A domain that wakes from OFF (R632) -/

/-- A device on which only the scene has been restored. -/
def State.restored (s : State) : State :=
  let f := { State.reset with otp := s.otp, jnl := s.jnl, freeCtr := s.freeCtr, now := s.now, sys := { SysSt.init with straps := s.sys.straps, firm := s.sys.firm } }
  f.replay (s.jnl.store ++ s.jnl.unsaved) s.jnl.recs

/-- Registers, memory and logic of domain `d` as on a restored device. -/
def State.restoreDomain (s f : State) (d : Nat) : State :=
  let s := (f.regs.filter (fun e => regDomain e.1 == d)).foldl (fun s e => s.wr e.1 e.2.toNat) s
  let s := (f.mem.filter (fun e => memDomain e.1 == some d)).foldl (fun s e => s.wrByte e.1 e.2) s
  { s.takeLogic f d with freeCtr := f.freeCtr }

/-- `RESTORATION_DONE` (R632): firmware has restored the registers of domain `d`, and it reads ON. -/
def execRestorationDone (d t : Nat) (s : State) : Out :=
  let s := s.atTime t
  if s.domState d = pWAKING ∧ s.timed d = true then .next ((s.restoreDomain s.restored d).domUp d) else .next s

/-! ### The configuration phase of resync (R434) -/

/-- The domains that hold the scene: streams, objects, geometry, fabric, convolution, outputs, ports, measurement, effects. -/
def sceneDomains : List Nat := [6, 7, 8, 9, 10, 11, 12, 13, 14, 15]

/-- `CONFIGURATION_PHASE_DONE` (R434): the active's journal and images, applied to an empty scene as in auto-resume. The journal
becomes this unit's own. -/
def execConfigurationPhaseDone (recs : List JRec) (store : List Image) (t : Nat) (s : State) : Out :=
  let s := s.atTime t
  if s.pstate = psRESYNC ∧ s.rphase = 1 then
    let s := sceneDomains.foldl (fun s d => s.resetDomain d) s
    let s := s.replay (store ++ s.jnl.store) recs
    .next ({ s with jnl.recs := recs }.beginPhase 2)
  else .next s

end Sys2Proof.Machine
end

