-- ==== Sys2Proof/Machine/RegBus.lean ====
section
/-!
DEFINITION. Register accesses (R7 to R11): what a read returns and does, what a write does, and the rows of registers without a
behaviour of their own.
-/

namespace Sys2Proof.Machine

/-- The render rate and folio size are locked (R23, R30, R443). -/
def State.renderLocked (s : State) : Bool :=
  s.mode == mRENDER || s.mode == mMEASURE || (s.mode == mRESYNC && decide (2 ≤ s.rphase)) ||
    (s.mode == mSTANDBY && (s.actMode == mRENDER || s.actMode == mMEASURE))

/-- What a read of a register returns, less its side effects. -/
def State.viewAll (s : State) (a : Nat) : Nat :=
  match blockIdx a with
  | 0 => if a = Reg.SYS_RENDER_CFG then setBitN (s.rd a) 8 s.renderLocked else s.view a
  | 2 => s.liveClk a
  | 3 => s.livePtp a
  | 4 => s.liveMac a
  | 5 => s.liveMac a
  | 6 => s.liveMac a
  | 7 => s.liveStrm a
  | 13 => s.liveMeas a
  | 15 => s.liveTdm a
  | 16 => s.liveFxc a
  | 21 => (s.liveTth a).getD (s.rd a)
  | _ => s.view a

/-- The mask of an address's bits of one access code. -/
def rowMask (a : Nat) (f : RegRow → Nat) : Nat :=
  match regRow a with
  | some (r, _, _) => f r
  | none => 0

/-- Clear bits of a register (R9). -/
def State.clearBits (s : State) (a m : Nat) : State := s.wr a (s.rd a - (s.rd a &&& m))

/-- The counter index of a `PMC` counter block's word at byte `o` of it. -/
def pmcWord (a o : Nat) : Option Nat :=
  if Reg.PMC_SEL 0 ≤ a ∧ a < Reg.PMC_SEL 208 ∧ a % 32 = o then some ((a - Reg.PMC_SEL 0) / 32) else none

/-- The MAC and statistic of a `MAC_STAT_LO` word. -/
def macStatWord (a : Nat) : Option (Nat × Nat) :=
  let o := a % 0x100000
  if 4 ≤ blockIdx a ∧ blockIdx a ≤ 6 ∧ 0x800 ≤ o ∧ o < 0x800 + 8 * 23 ∧ o % 8 = 0 then some (blockIdx a - 4, (o - 0x800) / 8)
  else none

/-- Reads that pop or latch: the state, and the value where it is not that of the register. -/
def State.readEffect (s : State) (a : Nat) : State × Option Nat :=
  if a = Reg.SYS_MEDIA_TIME_LO then (s.latchMedia, none)
  else if a = Reg.CLK_DCO_LO then (s.latchDco, none)
  else if a = Reg.PTP_TIME_NS then (s.latchPtp, none)
  else if a = Reg.PWR_RTC_LO then (s.latchRtc, none)
  else if a = Reg.SPN_ERRLOG then (s.spnPop.1, some s.spnPop.2)
  else if a = Reg.MEM_ERRLOG then (s.memPop.1, some s.memPop.2)
  else if a = Reg.DMC_ERRLOG then (s.dmcPop.1, some s.dmcPop.2)
  else if 4 ≤ blockIdx a ∧ blockIdx a ≤ 6 ∧ a = Reg.MAC_TXTS_W0 (blockIdx a - 4) then
    let s := s.popStamp (blockIdx a - 4)
    (s, some (s.rd a))
  else
    match macStatWord a, pmcWord a 8, pmcWord a 16 with
    | some (m, k), _, _ =>
      let s := s.macSettle m
      (s.macStatRead m k, some (s.liveMac a))
    | none, some k, _ => (s.latchCnt k, none)
    | none, none, some k => (s.latchSnap k, none)
    | none, none, none => (s.clearBits a (rowMask a (·.rc)), none)

/-- Read a register: its value, and the state after the read. -/
def State.readReg (s : State) (a : Nat) : State × Nat :=
  let r := s.readEffect a
  (r.1, r.2.getD (s.viewAll a))

/-- A write of `SYS_RENDER_CFG` (R30): ignored while locked; a reserved code leaves its field. -/
def State.renderCfgWrite (s : State) (v : Nat) : State :=
  if s.renderLocked then s
  else
    let s := s.setFld Reg.SYS_RENDER_CFG Fl.SYS_RENDER_CFG_RATE (bitsN v 1 0)
    if bitsN v 5 4 = 3 then s else s.setFld Reg.SYS_RENDER_CFG Fl.SYS_RENDER_CFG_FOLIO (bitsN v 5 4)

/-- A register with no behaviour of its own (R9): W1C bits that are written 1 clear, W1S bits that are written 1 set, RW and RWS bits take the
value. `hw` are bits that hardware sets in the same cycle. -/
def State.plainWrite (s : State) (a v hw : Nat) : State :=
  let w := merge (s.rd a) (rowMask a (fun r => r.rw ||| r.rws)) v
  let w := w - (w &&& (v &&& rowMask a (·.w1c)))
  s.wr a (w ||| (v &&& rowMask a (·.w1s)) ||| (hw &&& rowMask a (·.w1c)))

/-- Writes of MAC registers that act (R344, R355). -/
def State.macWrite (s : State) (a v : Nat) : State :=
  if a = Reg.MAC_RULE_COMMIT (blockIdx a - 4) then (if v.testBit 0 then s.ruleSwap (blockIdx a - 4) else s)
  else if a = Reg.MAC_MDIO 2 then
    if s.flag (Reg.MAC_MDIO 2) Fl.MAC_MDIO_GO then s else if v.testBit 31 then s.mdioGo v else s.plainWrite a v 0
  else s.plainWrite a v 0

/-- Writes of PMC registers that act (R652 to R656). -/
def State.pmcWrite (s : State) (a v : Nat) : State :=
  if a = Reg.PMC_CTL then s.pmcCtl v
  else if a = Reg.PMC_BW_CFG then s.bwCfgWrite (v &&& softMask a)
  else
    match pmcWord a 0 with
    | some k => s.pmcSelWrite k v
    | none => s.plainWrite a v 0

/-- A direct write of `GEO_CFG` leaves `HORIZON` as it is where the value is reserved (R113). -/
def State.geoCfgWrite (s : State) (v : Nat) : State :=
  let h := v % 16
  let v := if 1 ≤ h ∧ h ≤ 8 then v else v - h + s.horizon
  s.plainWrite Reg.GEO_CFG v 0

/-- Write a register; an array place that a smaller copy of the array, or the grade, lacks takes nothing (R11). -/
def State.writeReg (s : State) (a v : Nat) : State :=
  match regRow a with
  | none => s
  | some (_, _, j) =>
    if indexAbsent a j || resourceAbsent s.otp.grade a j then s
    else if a = Reg.SYS_RENDER_CFG then s.renderCfgWrite v
    else if a = Reg.OMS_CFG then s.omsCfgWrite v
    else if a = Reg.GEO_CFG then s.geoCfgWrite v
    else if a = Reg.OMS_OBJ_SEL then s.latchObj v
    else if a = Reg.GEO_SPK_SEL then s.latchSpk v
    else if a = Reg.FAB_OBJ_SEL then s.latchFab v
    else if a = Reg.OUT_MON_SEL then s.latchMon v
    else if a = Reg.CONV_OUT_SEL then s.latchConv v
    else if a = Reg.MEM_BANK_SEL then s.memBankSel v
    else if a = Reg.GPIO_SET then s.gpioSet v
    else if a = Reg.GPIO_CLR then s.gpioClr v
    else if 4 ≤ blockIdx a ∧ blockIdx a ≤ 6 then s.macWrite a v
    else if blockIdx a = 22 then s.pmcWrite a v
    else s.plainWrite a v 0

/-- The clock of a register's block runs (R626): of AON, only the power controller and the rein logic keep theirs in SAFE and
HALT. -/
def State.regClocked (s : State) (a : Nat) : Bool :=
  regDomain a != dAON || s.aonClocked || blockIdx a == 1 || blockIdx a == 21

/-- A register answers: it lies in a powered domain with its clock running (R521). -/
def State.regReachable (s : State) (a : Nat) : Bool := s.domReachable (regDomain a) && s.regClocked a

/-- Why the Spine answers a register access with an error: cause 1 for an access that is no aligned word (R7), cause 4 for one that sleeps. -/
def State.regCause (s : State) (a n : Nat) : Option Nat :=
  if n ≠ 4 ∨ a % 4 ≠ 0 then some 1 else if !s.regReachable a then some 4 else none

/-! ### Rows -/

/-- Bits that hardware sets in the cycle of a read that clears them: the set wins (R9). -/
def State.setRc (s : State) (a hw : Nat) : State := s.wr a (s.rd a ||| (hw &&& rowMask a (·.rc)))

/-- `RC_READ` (R9): a read that clears its register; the bits that hardware sets in the same cycle win. -/
def execRcRead (x : RcAccess) (t : Nat) (s : State) : Out :=
  let s := s.atTime t
  if (blockOf x.addr).isNone ∨ (s.regCause x.addr 4).isSome = true then .next s
  else
    let r := s.readReg x.addr
    .next ((r.1.setRc x.addr x.hw).readReturns r.2)

/-- `W1C_WRITE` (R9): `hw` are the bits that hardware sets in the same cycle, which win. -/
def execW1cWrite (a v hw t : Nat) (s : State) : Out :=
  let s := s.atTime t
  if (blockOf a).isNone ∨ (s.regCause a 4).isSome = true then .next s else .next (s.plainWrite a (v &&& rowMask a (·.w1c) ||| s.rd a &&& rowMask a (fun r => r.rw ||| r.rws)) hw)

/-- `REGISTER_WRITE` (R7 to R9): master `m` writes `n` bytes at `a`. An access that is no aligned word of a register is a decode error. -/
def execRegisterWrite (m a n v t : Nat) (s : State) : Out :=
  let s := s.atTime t
  match blockOf a with
  | none => .next s
  | some _ =>
    match s.regCause a n with
    | some c => .next (s.decErr ⟨true, c, 7, m, a⟩)
    | none => .next (s.writeReg a v)

end Sys2Proof.Machine
end

