-- ==== Sys2Proof/Machine/Bus.lean ====
section
/-!
DEFINITION. Transactions on the Spine (R513 to R526), at the memories (R531 to R533, R543, R553, R554), at the registers, and DMA
copies (R502, R503).
-/

namespace Sys2Proof.Machine

/-! ### Where a transaction goes -/

/-- A part of an effect core's local memory that the grade lacks, or whose domain sleeps (R528). -/
def State.coreMemAsleep (s : State) (a : Nat) : Bool :=
  let c := (a - 0x11800000) / 0x40000
  decide (Config.fxCores s.otp.grade ≤ c) || !s.domReachable (if c < 4 then dFXCA else dFXCB)

/-- The memory targets' power (R521). -/
def State.targetAsleep (s : State) (k a : Nat) : Bool :=
  if k = 6 then s.coreMemAsleep a else (targetDomains k).any (fun d => !s.domReachable d)

/-- The error with which the Spine answers a request at a memory target, if any (R521). -/
def State.memCause (s : State) (k a : Nat) (write : Bool) : Option Nat :=
  if write && (k == 0 || k == 9) then some 2 else if s.targetAsleep k a then some 4 else none

/-- The error with which the Spine answers a request of `n` bytes: cause and decoded target (R521, R543, R544). -/
def State.spnCause (s : State) (a n : Nat) (write : Bool) : Option (Nat × Nat) :=
  match spnTarget s.otp.grade a with
  | none => some (0, 0)
  | some 7 => (s.regCause a n).map (fun c => (c, 7))
  | some k =>
    if 14 ≤ k then
      if !s.aliasOn then some (3, k)
      else
        match spnTarget s.otp.grade (a % 2 ^ 29) with
        | none => some (0, 0)
        | some j => (s.memCause j (a % 2 ^ 29) write).map (fun c => (c, k))
    else (s.memCause k a write).map (fun c => (c, k))

/-- The memory address behind an address: an alias's, or itself (R543). -/
def memAddr (a : Nat) : Nat :=
  if (0x20000000 ≤ a ∧ a < 0x40000000) ∨ (0x60000000 ≤ a ∧ a < 0x80000000) then a % 2 ^ 29 else a

/-! ### Memory, with its error correction -/

/-- Granules that a range of bytes touches. -/
def granules (a n : Nat) : List Nat := (List.range ((a + n + 7) / 8 - a / 8)).map (fun k => 8 * (a / 8 + k))

/-- A memory address lies in DRAM. -/
def inDram (a : Nat) : Bool := decide (dramBase ≤ a)

/-- Errors found by reads (R531, R532, R553, R554). -/
def State.eccError (s : State) (a kind : Nat) : State :=
  if inDram a then
    (match kind with | 0 => s.dmcCorrected | 1 => s.dmcTransient a | _ => s.dmcLasting a)
  else if (sramBank a).isSome then
    (match kind with | 0 => s.memCorrected | 1 => s.memTransient a | _ => s.memLasting a)
  else s

/-- Count reads of poisoned granules (R532, R554). -/
def State.countPoison (s : State) (a n : Nat) : State :=
  if n = 0 then s else if inDram a then s.count Reg.DMC_POISON_RD n else s.count Reg.MEM_POISON_RD n

/-- Read `n` bytes at `a` as a master: zeros for poisoned granules, and whether there were any. -/
def State.memRead (s : State) (a n : Nat) : List Byte × Bool :=
  ((List.range n).map (fun k => if s.poison.contains ((a + k) / 8 * 8) then 0#8 else s.rdByte (a + k)),
   (granules a n).any (fun g => s.poison.contains g))

/-- Bytes of a write that are performed: offset and byte. -/
def strobed (data : List Byte) (strobes : List Bool) : List (Nat × Byte) :=
  ((data.zip strobes).zipIdx.filter (fun e => e.1.2)).map (fun e => (e.2, e.1.1))

/-- Whether a write's strobed bytes cover a granule. -/
def covers (a : Nat) (bs : List (Nat × Byte)) (g : Nat) : Bool :=
  (List.range 8).all (fun k => bs.any (fun e => a + e.1 == g + k))

/-- Write strobed bytes at `a` (R533, R554): a poisoned granule takes a write that covers it, and refuses a narrower one. -/
def State.memWrite (s : State) (a : Nat) (bs : List (Nat × Byte)) : State × Bool :=
  let gs := s.poison.filter (fun g => bs.any (fun e => (a + e.1) / 8 * 8 == g))
  let bad := gs.filter (fun g => !covers a bs g)
  let s := { s with poison := s.poison.filter (fun g => !gs.contains g || bad.contains g) }
  (bs.foldl (fun s e => if bad.contains ((a + e.1) / 8 * 8) then s else s.wrByte (a + e.1) e.2) s, !bad.isEmpty)

/-- Write through an alias (R543): a beat that meets a poisoned granule changes nothing. -/
def State.aliasWrite (s : State) (set : Bool) (a : Nat) (bs : List (Nat × Byte)) : State × Bool :=
  let badBeat (e : Nat × Byte) : Bool := s.poison.any (fun g => g / 32 == (a + e.1) / 32 && bs.any (fun x => (a + x.1) / 8 * 8 == g))
  let f (old new : Byte) : Byte := if set then old ||| new else old &&& ~~~new
  (bs.foldl (fun t e => if badBeat e then t else t.wrByte (a + e.1) (f (s.rdByte (a + e.1)) e.2)) s, bs.any badBeat)

/-- Write strobed bytes at an address of the map, through an alias or not. -/
def State.mapWrite (s : State) (a : Nat) (bs : List (Nat × Byte)) : State × Bool :=
  if 0x20000000 ≤ a ∧ a < 0x40000000 then s.aliasWrite true (memAddr a) bs
  else if 0x60000000 ≤ a ∧ a < 0x80000000 then s.aliasWrite false (memAddr a) bs
  else s.memWrite a bs

/-! ### Arbitration (R515, R518) -/

/-- Demotion of a master by the DRAM controller (R560). -/
def State.demotion (s : State) (m : Nat) : Nat :=
  if s.dmc.throttles.any (fun x => x.master == m) then s.fld Reg.DMC_RH Fl.DMC_RH_DEMOTE else 0

/-- Base QoS after demotion. -/
def State.baseQos (s : State) (m : Nat) : Nat := s.fld (Reg.SPN_MST_CFG m) Fl.SPN_MST_CFG_QOS - s.demotion m

/-- Effective QoS after a wait (R515). -/
def State.effQos (s : State) (m w : Nat) : Nat := min 15 (s.baseQos m + w / max 8 (s.fld Reg.SPN_CFG Fl.SPN_CFG_AGE))

/-- A master's place in the round that starts after the one granted last. -/
def State.roundPlace (s : State) (k m : Nat) : Nat := (m + 31 - Tab.at s.spn.granted 0 k) % 32

/-- A request wins its target over the others that wait, with a QoS of each as given. -/
def State.winsBy (s : State) (k m : Nat) (rivals : List (Nat × Nat)) (q : Nat → Nat → Nat) (w : Nat) : Bool :=
  rivals.all (fun r => decide (q r.1 r.2 < q m w) || (q r.1 r.2 == q m w && decide (s.roundPlace k m < s.roundPlace k r.1)))

/-- The target grants a master; a grant that it would not have had without aging is counted. -/
def State.grant (s : State) (k : Nat) (x : SpineReq) : State :=
  let aged := !s.winsBy k x.master x.rivals (fun m _ => s.baseQos m) 0
  let s := if aged then s.bump Reg.SPN_AGED else s
  { s with spn.granted := Tab.put s.spn.granted k x.master }

/-! ### Counting (R646, R656) -/

/-- Count a class-1 event of a transaction; `k` is 16 for one that the Spine answers itself. -/
def State.txnEvent (s : State) (m k a ev n : Nat) : State :=
  s.pmcSels.foldl
    (fun t c => if selClass c.2 = 1 ∧ selEvent c.2 = ev ∧ blockTxn (c.1 / 8) m k = true ∧ s.pmcPass c.1 c.2 m a = true then t.pmcPlus c.1 n else t) s

/-- Count beats that a port moved. -/
def State.countBeats (s : State) (m k a n : Nat) (write : Bool) : State :=
  ((s.txnEvent m k a (2 + b2n write) n).bwBytes m (32 * n)).bwBytes (32 + k) (32 * n)

/-- A transaction keeps the domains of its two ends from idling (R627, R628). -/
def State.touch (s : State) (d : Nat) : State :=
  { s with
    pwr.active := Tab.put s.pwr.active d s.now
    pwr.retLim := Tab.put s.pwr.retLim d (max 10 (s.fld (Reg.PWR_DOM_CFG d) Fl.PWR_DOM_CFG_RET_US)) }

def State.touchEnds (s : State) (m k a : Nat) : State :=
  let ds := if k = 6 then [if a < 0x11900000 then dFXCA else dFXCB] else targetDomains k
  (masterDomain m :: ds).foldl (fun s d => if 2 ≤ d then s.touch d else s) s

/-! ### The port (R520, R521) -/

/-- A request with the same master and ID is outstanding elsewhere. -/
def State.heldOrd (s : State) (m tid k : Nat) : Bool := s.spn.txns.any (fun t => t.master == m && t.tid == tid && t.target != k)

/-- One of the two caps is reached. -/
def State.heldCap (s : State) (m k : Nat) : Bool :=
  decide (16 ≤ countIf s.spn.txns (fun t => t.master == m && t.target == k)) || decide (256 ≤ s.spn.txns.length)

/-- Count cycles held back: the counters hold their 1024ths. -/
def State.holdOrd (s : State) (m n : Nat) : State :=
  let c := s.spn.ordCyc + n
  let s := (s.count Reg.SPN_HOLD_ORD (c / 1024)).setFlag (Reg.SPN_MST_STAT m) Fl.SPN_MST_STAT_HELD_ORD true
  { s with spn.ordCyc := c % 1024 }

def State.holdCap (s : State) (m n : Nat) : State :=
  let c := s.spn.capCyc + n
  let s := (s.count Reg.SPN_HOLD_CAP (c / 1024)).setFlag (Reg.SPN_MST_STAT m) Fl.SPN_MST_STAT_HELD_CAP true
  { s with spn.capCyc := c % 1024 }

/-- The port holds no request of a master any more. -/
def State.unhold (s : State) (m : Nat) : State :=
  (s.setFlag (Reg.SPN_MST_STAT m) Fl.SPN_MST_STAT_HELD_ORD false).setFlag (Reg.SPN_MST_STAT m) Fl.SPN_MST_STAT_HELD_CAP false

/-- A response goes back to a master. -/
def State.respond (s : State) (m : Nat) (err : Bool) (data : List Byte) : State := { s with spn.resp := some ⟨m, err, data⟩ }

/-- The Spine answers a request with an error (R521). -/
def State.errorAnswer (s : State) (x : SpineReq) (cause k : Nat) : State :=
  let s := (s.txnEvent x.master 16 x.addr (b2n x.write) 1).txnEvent x.master 16 x.addr 4 1
  let s := (s.decErr ⟨x.write, cause, k, x.master, x.addr⟩).unhold x.master
  s.respond x.master true (if x.write then [] else List.replicate x.size 0#8)

/-- A request at the registers (R7): an aligned word. A write without all its strobes is no word. -/
def State.regTxn (s : State) (x : SpineReq) : State :=
  let s := ((s.txnEvent x.master 7 x.addr (b2n x.write) 1).countBeats x.master 7 x.addr 1 x.write).unhold x.master
  let s := s.touchEnds x.master 7 x.addr
  if x.write then (s.writeReg x.addr (u32 x.data 0)).respond x.master false []
  else
    let r := s.readReg x.addr
    r.1.respond x.master false (by4 r.2)

/-- Perform `n` bytes of a transaction from offset `off` on; `data` and `strobes` are those of the bytes from there. -/
def State.perform (s : State) (x : SpineReq) (k addr off n : Nat) (write : Bool) : State × Bool × List Byte :=
  let a := addr + off
  let s := s.countBeats x.master k addr (if n = 0 then 0 else beatsOf a n) write
  if write then
    let r := s.mapWrite a (strobed (x.data.take n) (x.strobes.take n))
    (r.1, r.2, [])
  else
    let was := countIf (granules (memAddr a) n) (fun g => s.poison.contains g)
    let s := x.ecc.foldl (fun s e => s.eccError e.1 e.2) s
    let r := s.memRead (memAddr a) n
    (s.countPoison (memAddr a) was, r.2, r.1)

/-- The response to a transaction; one that reports an error is an event (R646). -/
def State.answerTxn (s : State) (y : SpnTxn) (err : Bool) (data : List Byte) : State :=
  (if err then s.txnEvent y.master y.target y.addr 4 1 else s).respond y.master err data

/-- DRAM serves a request: entry into self-refresh is aborted (R561), rows are activated (R560). -/
def State.dramServe (s : State) (x : SpineReq) : State :=
  let s := if s.domState dDRAM = pENTER then (s.bump Reg.DMC_SR_ABORT).setDom dDRAM pON else s
  x.opens.foldl (fun s o => s.activate x.master o.1 o.2.1 o.2.2) s

/-- A request that its target has granted. A request to DRAM in self-refresh waits at its queue head until the exit (R561). -/
def State.takeTxn (s : State) (x : SpineReq) (k : Nat) : State :=
  let s := ((s.grant k x).txnEvent x.master k x.addr (b2n x.write) 1).unhold x.master
  let y : SpnTxn := ⟨x.master, x.tid, k, x.write, x.addr, x.size, 0⟩
  let dram := decide (10 ≤ k) && decide (k ≤ 13)
  if dram && s.flag Reg.DMC_STAT Fl.DMC_STAT_SELF_REF then
    { s.touchEnds x.master k x.addr with spn.txns := s.spn.txns ++ [y] }
  else
    let s := if dram then s.dramServe x else s
    let n := min x.moved x.size
    let r := s.perform x k x.addr 0 n x.write
    let s := r.1.touchEnds x.master k x.addr
    if n < x.size then { s with spn.txns := s.spn.txns ++ [{ y with doneBytes := n }] } else s.answerTxn y r.2.1 r.2.2

/-- The oldest outstanding transaction of a master and ID goes on (R519). -/
def State.goOn (s : State) (x : SpineReq) : State :=
  match s.spn.txns.find? (fun t => t.master == x.master && t.tid == x.tid) with
  | none => s
  | some y =>
    let dram := decide (10 ≤ y.target) && decide (y.target ≤ 13)
    if dram && s.flag Reg.DMC_STAT Fl.DMC_STAT_SELF_REF then s
    else
      let s := if dram then s.dramServe x else s
      let n := min (x.moved - y.doneBytes) (y.size - y.doneBytes)
      let r := s.perform x y.target y.addr y.doneBytes n y.write
      let s := r.1.touchEnds y.master y.target y.addr
      if y.doneBytes + n < y.size then
        { s with spn.txns := s.spn.txns.map (fun z => if z = y then { y with doneBytes := y.doneBytes + n } else z) }
      else { s with spn.txns := s.spn.txns.erase y }.answerTxn y r.2.1 r.2.2

/-- A master's port takes requests: it is populated and powered, and no reset drains it (R513, R524). -/
def State.portOpen (s : State) (m : Nat) : Bool :=
  decide (m < 32) && masterPresent s.otp.grade m && (masterDomain m == dAON || s.domOn (masterDomain m)) &&
    !s.flag (Reg.SPN_MST_STAT m) Fl.SPN_MST_STAT_DRAIN

/-- The Spine holds new requests to the targets of a domain that drains (R635). -/
def State.drainHolds (s : State) (k a : Nat) : Bool :=
  (if k = 6 then [if memAddr a < 0x11900000 then dFXCA else dFXCB] else targetDomains k).any (fun d => s.domState d == pDRAIN)

/-- A new request of a master whose port is open. -/
def State.request (s : State) (x : SpineReq) : State :=
  let k := (spnTarget s.otp.grade x.addr).getD 16
  let j := if (k = 14 ∨ k = 15) ∧ s.aliasOn then (spnTarget s.otp.grade (memAddr x.addr)).getD 16 else k
  if s.heldOrd x.master x.tid k then s.holdOrd x.master x.held
  else if s.heldCap x.master k then s.holdCap x.master x.held
  else if s.drainHolds j x.addr then s
  else
    match s.spnCause x.addr x.size x.write with
    | some (c, j) => s.errorAnswer x c j
    | none =>
      if !s.winsBy k x.master x.rivals s.effQos x.waited then s
      else if k = 7 then
        (if x.write && !(x.strobes.take 4).all id then s.errorAnswer x 1 7 else (s.grant k x).regTxn x)
      else s.takeTxn x k

/-- A burst is one to sixteen beats and crosses no 4 KiB boundary (R514). -/
def burstOk (x : SpineReq) : Bool :=
  decide (0 < x.size) && decide (beatsOf x.addr x.size ≤ 16) && x.addr / 4096 == (x.addr + x.size - 1) / 4096

/-- `SPINE_TRANSACTION` (R514). A burst that R514 forbids has no outcome in the spec. -/
def execSpineTransaction (x : SpineReq) (t : Nat) (s : State) : Out :=
  let s := s.atTime t
  if !s.portOpen x.master then .next s
  else if x.cont then .next (s.goOn x)
  else if !burstOk x then .fault (.dutyBroken 514)
  else .next (s.request x)

/-- A plain write request of a master. -/
def aliasReq (m a : Nat) (data : List Byte) (strobes : List Bool) : SpineReq :=
  ⟨m, 0, true, a, data.length, data, strobes, false, data.length, 0, 0, [], [], []⟩

/-- A write of a master through an alias (R543): as its transaction. -/
def State.aliasRow (s : State) (m a : Nat) (data : List Byte) (strobes : List Bool) : State :=
  let x := aliasReq m a data strobes
  if s.portOpen m && burstOk x then s.request x else s

/-- `BIT_SET_WRITE` (R543): master `m` writes through the bit-set alias at offset `a`. -/
def execBitSetWrite (m a : Nat) (data : List Byte) (strobes : List Bool) (t : Nat) (s : State) : Out :=
  .next ((s.atTime t).aliasRow m (0x20000000 + a % 2 ^ 29) data strobes)
/-- `BIT_CLEAR_WRITE` (R543): master `m` writes through the bit-clear alias at offset `a`. -/
def execBitClearWrite (m a : Nat) (data : List Byte) (strobes : List Bool) (t : Nat) (s : State) : Out :=
  .next ((s.atTime t).aliasRow m (0x60000000 + a % 2 ^ 29) data strobes)

/-! ### DMA copies (R502 to R504) -/

/-- Byte addresses from `a` on, one for each 8-byte granule touched: what a range's answers depend on. -/
def probes (a n : Nat) : List Nat := if n = 0 then [] else (granules a n).map (fun g => max g a)

/-- A read or write of a byte of a copy would be answered with an error. Registers take aligned words alone, which beats of a copy are
not. -/
def State.copyErr (s : State) (a : Nat) (write : Bool) : Bool :=
  spnTarget s.otp.grade a == some 7 || (s.spnCause a 1 write).isSome

/-- Bytes of a copy at `a` meet poison: a read of a poisoned granule, or a write that leaves part of one. -/
def State.copyPoison (s : State) (a n g : Nat) (write : Bool) : Bool :=
  s.poison.contains (memAddr g / 8 * 8) && (!write || !coversGranule (memAddr a) n (memAddr g / 8 * 8))

/-- The first `n` bytes of a copy meet no error. -/
def State.copyClean (s : State) (x : DmaRun) (n : Nat) : Bool :=
  (probes x.src n).all (fun g => !s.copyErr g false && !s.copyPoison x.src x.len g false) &&
    (probes x.dst n).all (fun g => !s.copyErr g true && !s.copyPoison x.dst x.len g true)

/-- Perform the first `n` bytes of a copy. Ascending order makes every overlap that R502 admits copy what the source held. -/
def State.copyBytes (s : State) (c : Nat) (x : DmaRun) (n : Nat) : State :=
  let bs := (s.memRead (memAddr x.src) n).1
  let s := (s.mapWrite x.dst (bs.zipIdx.map (fun e => (e.2, e.1)))).1
  let beats (a : Nat) : Nat := if n = 0 then 0 else beatsOf a n
  let s := s.countBeats (12 + c) ((spnTarget s.otp.grade x.src).getD 0) x.src (beats x.src) false
  let s := s.countBeats (12 + c) ((spnTarget s.otp.grade x.dst).getD 0) x.dst (beats x.dst) true
  s.wr (Reg.STBL_DMA_BYTES c) n

/-- A channel's ticket completes, and the next one starts. -/
def State.copyEnds (s : State) (c : Nat) : State :=
  match s.runningOn (24 + c) [tkDMA] with
  | some x => State.startNext State.onStart 3 (s.finishTicket (24 + c) x) (24 + c)
  | none => s

/-- `DMA_COPY_DONE` (R502): the last write response of channel `c` has returned. -/
def execDmaCopyDone (c t : Nat) (s : State) : Out :=
  let s := s.atTime t
  match Tab.look s.stbl.dma c with
  | none => .next s
  | some x =>
    if s.copyClean x x.len then
      let s := s.copyBytes c x x.len
      let s := s.setFlag (Reg.STBL_DMA_STAT c) Fl.STBL_DMA_STAT_BUSY false
      .next (State.copyEnds { s with stbl.dma := Tab.del s.stbl.dma c } c)
    else .next s

/-- The beat at offset `off` of a copy meets an error of a cause, and no byte before it does. -/
def State.copyFails (s : State) (x : DmaRun) (off : Nat) (write : Bool) (cause : Nat) : Bool :=
  let base := if write then x.dst else x.src
  decide (off < x.len) && (off == 0 || (base + off) % 32 == 0) && s.copyClean x off &&
    (match cause with
     | 1 => s.copyErr (base + off) write
     | 2 => (probes (base + off) (min (32 - (base + off) % 32) (x.len - off))).any (fun g => s.copyPoison base x.len g write)
     | _ => false)

/-- `DMA_COPY_ERROR` (R503): the beat at offset `off` of channel `c`'s copy meets an error, cause 1 an error answer, 2 poisoned data. What
was copied before it stays. -/
def execDmaCopyError (c off : Nat) (write : Bool) (cause t : Nat) (s : State) : Out :=
  let s := s.atTime t
  match Tab.look s.stbl.dma c with
  | none => .next s
  | some x =>
    if !s.copyFails x off write cause then .next s
    else
      let a := (if write then x.dst else x.src) + off
      let s := s.copyBytes c x off
      let s := if cause = 1 then
          let e := (s.spnCause a 1 write).getD (1, 7)
          s.decErr ⟨write, e.1, e.2, 12 + c, a⟩
        else if write then s else s.countPoison (memAddr a) 1
      let s := (s.wr (Reg.STBL_DMA_ERR_LO c) (a % 2 ^ 32)).wr (Reg.STBL_DMA_ERR_HI c) (maskBit 31 write + a / 2 ^ 32 % 256)
      .next ((s.dmaFail c cause).copyEnds c)

end Sys2Proof.Machine
end

