-- ==== Sys2Proof/Machine/FxRows.lean ====
section
/-!
DEFINITION. The instructions of the effect cores (R463 to R480): one row each, over the word machinery of FxCore.lean.
-/

namespace Sys2Proof.Machine

/-- The row of an instruction: core `c` runs its next word, which is of format · 256 + opcode `code`. Where the core runs no
ticket, must take an interrupt first, or has another word next, nothing happens. -/
def fxcRun (c t code : Nat) (f : FxCore → Nat → FxRes) (s : State) : State :=
  let s := s.atTime t
  match Tab.look s.fx.cores c with
  | some k =>
    match s.fxcFetch k with
    | some w => if k.ready && fxcCode w == code then s.fxcWord c k w f else s
    | none => s
  | none => s

/-- The row's outcome: where it ended the ticket that an `FX_MEM_READ` waited for, waiting packets start. -/
def fxcRow (c t code : Nat) (f : FxCore → Nat → FxRes) (s : State) : Out := afterHeld s (fxcRun c t code f s)

/-! ### Compute operations (R463 to R465, R478) -/

def FxCore.x (k : FxCore) (w : Nat) : Int := k.rdS (fcX w)
def FxCore.y (k : FxCore) (w : Nat) : Int := k.rdS (fcY w)
def FxCore.x1 (k : FxCore) (w : Nat) : Int := k.rdS (fcX w + 1)
def FxCore.y1 (k : FxCore) (w : Nat) : Int := k.rdS (fcY w + 1)

/-- A data result without flags. -/
def resD (w : Nat) (v : Int) : FxRes := { now := [(fcD w, ofS 32 v)] }
/-- A saturating data result with flags (R465). -/
def resSat (w : Nat) (v : Int) : FxRes :=
  let r := satS 32 v
  { now := [(fcD w, ofS 32 r)], flags := some (r, r != v), sat := r != v }
/-- A wrapping data result with flags. -/
def resWrap (w : Nat) (v : Int) : FxRes :=
  let r := toS 32 (ofS 32 v)
  { now := [(fcD w, ofS 32 r)], flags := some (r, r != v) }

/-- `NOP` (R478). -/
def execFxNop (c t : Nat) (s : State) : Out := fxcRow c t 0x00 (fun _ _ => {}) s
/-- `MUL` (R478). -/
def execFxMul (c t : Nat) (s : State) : Out := fxcRow c t 0x01 (fun k w => { acc := [(fcA w, k.x w * k.y w)] }) s
/-- `MAC` (R478). -/
def execFxMac (c t : Nat) (s : State) : Out :=
  fxcRow c t 0x02 (fun k w => { acc := [(fcA w, k.a (fcA w) + k.x w * k.y w)] }) s
/-- `MSU` (R478). -/
def execFxMsu (c t : Nat) (s : State) : Out :=
  fxcRow c t 0x03 (fun k w => { acc := [(fcA w, k.a (fcA w) - k.x w * k.y w)] }) s

/-- The four products of two pairs, added to what the accumulators hold times `m` (R463). -/
def quad (m : Int) (k : FxCore) (w : Nat) : FxRes :=
  { acc := [(0, m * k.a 0 + k.x w * k.y w), (1, m * k.a 1 + k.x w * k.y1 w), (2, m * k.a 2 + k.x1 w * k.y w),
            (3, m * k.a 3 + k.x1 w * k.y1 w)] }
/-- `QMUL` (R463). -/
def execFxQmul (c t : Nat) (s : State) : Out := fxcRow c t 0x04 (quad 0) s
/-- `QMAC` (R463). -/
def execFxQmac (c t : Nat) (s : State) : Out := fxcRow c t 0x05 (quad 1) s

/-- The complex product, with Y conjugated where `j` is −1, added to the accumulator pair times `m` (R463). -/
def cplx (m j : Int) (k : FxCore) (w : Nat) : FxRes :=
  let a := fcA w
  { acc := [(a, m * k.a a + k.x w * k.y w - j * (k.x1 w * k.y1 w)),
            (a + 1, m * k.a (a + 1) + j * (k.x w * k.y1 w) + k.x1 w * k.y w)] }
/-- `CMUL` (R463). -/
def execFxCmul (c t : Nat) (s : State) : Out := fxcRow c t 0x06 (cplx 0 1) s
/-- `CMAC` (R463). -/
def execFxCmac (c t : Nat) (s : State) : Out := fxcRow c t 0x07 (cplx 1 1) s
/-- `CMULC` (R463). -/
def execFxCmulc (c t : Nat) (s : State) : Out := fxcRow c t 0x08 (cplx 0 (-1)) s
/-- `CMACC` (R463). -/
def execFxCmacc (c t : Nat) (s : State) : Out := fxcRow c t 0x09 (cplx 1 (-1)) s

/-- The scaled move of an accumulator (R464). -/
def mva (k : FxCore) (w : Nat) : FxRes :=
  let sh := if k.csr % 16 = 8 then 30 else 31 + k.csr % 16
  let v := rndShr (k.a (fcA w)) sh
  { now := [(fcD w, ofS 32 (satS 32 v))], sat := satS 32 v != v }
/-- `MVA` (R464). -/
def execFxMva (c t : Nat) (s : State) : Out := fxcRow c t 0x10 mva s
/-- `MVAH` (R464). -/
def execFxMvah (c t : Nat) (s : State) : Out := fxcRow c t 0x11 (fun k w => resD w (k.a (fcA w) / 2 ^ 32)) s
/-- `MVAL` (R464). -/
def execFxMval (c t : Nat) (s : State) : Out := fxcRow c t 0x12 (fun k w => resD w (k.a (fcA w))) s
/-- `MVAG` (R464). -/
def execFxMvag (c t : Nat) (s : State) : Out := fxcRow c t 0x13 (fun k w => resD w (k.a (fcA w) / 2 ^ 64)) s
/-- `MVDA` (R464). -/
def execFxMvda (c t : Nat) (s : State) : Out := fxcRow c t 0x14 (fun k w => { acc := [(fcA w, k.x w * 2 ^ 31)] }) s
/-- `ACLR` (R478). -/
def execFxAclr (c t : Nat) (s : State) : Out := fxcRow c t 0x15 (fun _ w => { acc := [(fcA w, 0)] }) s
/-- `AADD` (R478). -/
def execFxAadd (c t : Nat) (s : State) : Out :=
  fxcRow c t 0x16 (fun k w => { acc := [(fcA w, k.a (fcA w) + k.a (fcY w % 4))] }) s
/-- `ASRA` (R478). -/
def execFxAsra (c t : Nat) (s : State) : Out :=
  fxcRow c t 0x17 (fun k w => { acc := [(fcA w, k.a (fcA w) / 2 ^ fcY w)] }) s

/-- `ADD` (R465). -/
def execFxAdd (c t : Nat) (s : State) : Out := fxcRow c t 0x20 (fun k w => resSat w (k.x w + k.y w)) s
/-- `SUB` (R465). -/
def execFxSub (c t : Nat) (s : State) : Out := fxcRow c t 0x21 (fun k w => resSat w (k.x w - k.y w)) s
/-- `ADDW` (R465). -/
def execFxAddw (c t : Nat) (s : State) : Out := fxcRow c t 0x22 (fun k w => resWrap w (k.x w + k.y w)) s
/-- `SUBW` (R465). -/
def execFxSubw (c t : Nat) (s : State) : Out := fxcRow c t 0x23 (fun k w => resWrap w (k.x w - k.y w)) s
/-- `NEG` (R465). -/
def execFxNeg (c t : Nat) (s : State) : Out := fxcRow c t 0x24 (fun k w => resSat w (-(k.x w))) s
/-- `ABS` (R465). -/
def execFxAbs (c t : Nat) (s : State) : Out := fxcRow c t 0x25 (fun k w => resSat w (k.x w).natAbs) s
/-- `MIN` (R478). -/
def execFxMin (c t : Nat) (s : State) : Out := fxcRow c t 0x26 (fun k w => resSat w (min (k.x w) (k.y w))) s
/-- `MAX` (R478). -/
def execFxMax (c t : Nat) (s : State) : Out := fxcRow c t 0x27 (fun k w => resSat w (max (k.x w) (k.y w))) s

/-- A bitwise result, with flags. -/
def resBits (w v : Nat) : FxRes := resWrap w (toS 32 v)
/-- `AND` (R478). -/
def execFxAnd (c t : Nat) (s : State) : Out := fxcRow c t 0x28 (fun k w => resBits w (k.rd (fcX w) &&& k.rd (fcY w))) s
/-- `OR` (R478). -/
def execFxOr (c t : Nat) (s : State) : Out := fxcRow c t 0x29 (fun k w => resBits w (k.rd (fcX w) ||| k.rd (fcY w))) s
/-- `XOR` (R478). -/
def execFxXor (c t : Nat) (s : State) : Out := fxcRow c t 0x2A (fun k w => resBits w (k.rd (fcX w) ^^^ k.rd (fcY w))) s
/-- `NOT` (R478). -/
def execFxNot (c t : Nat) (s : State) : Out := fxcRow c t 0x2B (fun k w => resBits w (2 ^ 32 - 1 - k.rd (fcX w))) s

/-- The shift count of a word: bits 5:0 of Dy, at most 31 (R478). -/
def FxCore.sh (k : FxCore) (w : Nat) : Nat := min 31 (k.rd (fcY w) % 64)
/-- `ASL` (R465). -/
def execFxAsl (c t : Nat) (s : State) : Out := fxcRow c t 0x2C (fun k w => resSat w (k.x w * 2 ^ k.sh w)) s
/-- `ASR` (R478). -/
def execFxAsr (c t : Nat) (s : State) : Out := fxcRow c t 0x2D (fun k w => resSat w (k.x w / 2 ^ k.sh w)) s
/-- `LSR` (R478). -/
def execFxLsr (c t : Nat) (s : State) : Out := fxcRow c t 0x2E (fun k w => resBits w (k.rd (fcX w) / 2 ^ k.sh w)) s

/-- Flags of a difference, from the exact result (R465). -/
def resCmp (v : Int) : FxRes := { flags := some (v, satS 32 v != v) }
/-- `CMP` (R465). -/
def execFxCmp (c t : Nat) (s : State) : Out := fxcRow c t 0x2F (fun k w => resCmp (k.x w - k.y w)) s
/-- `MOV` (R478). -/
def execFxMov (c t : Nat) (s : State) : Out := fxcRow c t 0x30 (fun k w => resD w (k.x w)) s

/-! ### Immediates (R479) -/

def fiR (w : Nat) : Nat := bitsN w 55 51
def imm (w : Nat) : Nat := bitsN w 31 0

/-- `LDI` (R479). -/
def execFxLdi (c t : Nat) (s : State) : Out := fxcRow c t 0x101 (fun _ w => { now := [(fiR w, imm w)] }) s
/-- `LDIP` (R479). -/
def execFxLdip (c t : Nat) (s : State) : Out := fxcRow c t 0x102 (fun _ w => { later := [(rP (fiR w), imm w)] }) s
/-- `LDIM` (R479). -/
def execFxLdim (c t : Nat) (s : State) : Out := fxcRow c t 0x103 (fun _ w => { later := [(rM (fiR w), imm w)] }) s
/-- `LDIB` (R479). -/
def execFxLdib (c t : Nat) (s : State) : Out := fxcRow c t 0x104 (fun _ w => { later := [(rB (fiR w), imm w)] }) s
/-- `LDIL` (R479). -/
def execFxLdil (c t : Nat) (s : State) : Out := fxcRow c t 0x105 (fun _ w => { later := [(rL (fiR w), imm w)] }) s
/-- `ADDI` (R465, R479). -/
def execFxAddi (c t : Nat) (s : State) : Out :=
  fxcRow c t 0x106 (fun k w =>
    let v := k.rdS (fiR w) + toS 32 (imm w)
    { now := [(fiR w, ofS 32 (satS 32 v))], sat := satS 32 v != v }) s
/-- `CMPI` (R465, R479). -/
def execFxCmpi (c t : Nat) (s : State) : Out :=
  fxcRow c t 0x107 (fun k w => resCmp (k.rdS (fiR w) - toS 32 (imm w))) s

/-! ### Flow (R470, R473 to R475, R479) -/

/-- A condition holds. -/
def FxCore.cond (k : FxCore) (w : Nat) : Bool :=
  let z := k.csr.testBit 10
  let n := k.csr.testBit 9
  let v := k.csr.testBit 8
  match bitsN w 55 52 with
  | 0 => true
  | 1 => z
  | 2 => !z
  | 3 => n
  | 4 => !n
  | 5 => v
  | 6 => !v
  | 7 => !z && !n
  | _ => z || n

def wordAddr (w : Nat) : Nat := bitsN w 14 0

/-- `BR` (R473). -/
def execFxBr (c t : Nat) (s : State) : Out :=
  fxcRow c t 0x201 (fun k w => { flow := .delay (if k.cond w then some (wordAddr w) else none) }) s
/-- `CALL` (R473). -/
def execFxCall (c t : Nat) (s : State) : Out :=
  fxcRow c t 0x202 (fun k w =>
    if k.cond w then { flow := .delay (some (wordAddr w)), now := [(rLNK, k.pc + 3)] } else { flow := .delay none }) s
/-- `RET` (R473). -/
def execFxRet (c t : Nat) (s : State) : Out :=
  fxcRow c t 0x203 (fun k w => { flow := .delay (if k.cond w then some (k.rd rLNK) else none) }) s
/-- `LOOP` (R470). -/
def execFxLoop (c t : Nat) (s : State) : Out :=
  fxcRow c t 0x204 (fun k w =>
    let v := bitsN w 48 48
    let n := if w.testBit 47 then k.rd (bitsN w 44 40) else bitsN w 31 16
    let e := wordAddr w
    { now := [(rLS v, k.pc + 1), (rLE v, e), (rLC v, n)], flow := .jump (if n = 0 then e + 1 else k.pc + 1) }) s
/-- `TRAP` (R474). -/
def execFxTrap (c t : Nat) (s : State) : Out := fxcRow c t 0x205 (fun _ w => { flow := .trap (bitsN w 3 0) }) s
/-- `RTI` (R475). -/
def execFxRti (c t : Nat) (s : State) : Out :=
  fxcRow c t 0x206 (fun k _ => { flow := .delay (some (k.rd rIPC)), restore := some (k.rd rICSR) }) s
/-- `DONE` (R452, R473). -/
def execFxDone (c t : Nat) (s : State) : Out := fxcRow c t 0x207 (fun _ _ => { flow := .fin }) s

/-! ### Registers (R479) -/

def faD (w : Nat) : Nat := bitsN w 55 48
def faS (w : Nat) : Nat := bitsN w 47 40

/-- A format A write of a register. -/
def resReg (r v : Nat) : FxRes :=
  if r = rICNT ∨ r = rICAUSE then {} else if delayedReg r then { later := [(r, v)] } else { now := [(r, v)] }

/-- `MOVR` (R479). -/
def execFxMovr (c t : Nat) (s : State) : Out := fxcRow c t 0x301 (fun k w => resReg (faD w) (k.rd (faS w))) s
/-- `PADD` (R479). -/
def execFxPadd (c t : Nat) (s : State) : Out :=
  fxcRow c t 0x302 (fun k w => { later := [(faD w, (k.rd (faD w) + imm w) % 2 ^ 32)] }) s
/-- `CSRR` (R479). -/
def execFxCsrr (c t : Nat) (s : State) : Out := fxcRow c t 0x303 (fun k w => { now := [(faD w, k.csr)] }) s
/-- `CSRW` (R462, R479). -/
def execFxCsrw (c t : Nat) (s : State) : Out := fxcRow c t 0x304 (fun k w => { csr := some (k.rd (faS w)) }) s

end Sys2Proof.Machine
end

