-- ==== Sys2Proof/Machine/Dispatch.lean ====
section
/-!
DEFINITION. One arm per command of the block: each is one direct call of its meaning.
-/

namespace Sys2Proof.Machine

def exec (i : Instr) (s : State) : Host.Outcome State Fault Refusal :=
  match i with
  | .echo p => Sys2Proof.Machine.execEcho p s
  | .sysInfo p => Sys2Proof.Machine.execSysInfo p s
  | .modeSet p => Sys2Proof.Machine.execModeSet p s
  | .sysResetWarm p => Sys2Proof.Machine.execSysResetWarm p s
  | .sysResetCtrl p => Sys2Proof.Machine.execSysResetCtrl p s
  | .safeMaskSet p => Sys2Proof.Machine.execSafeMaskSet p s
  | .unitReset p => Sys2Proof.Machine.execUnitReset p s
  | .renderFormatSet p => Sys2Proof.Machine.execRenderFormatSet p s
  | .budgetQuery p => Sys2Proof.Machine.execBudgetQuery p s
  | .eventReadOldest p => Sys2Proof.Machine.execEventReadOldest p s
  | .eventReadNewest p => Sys2Proof.Machine.execEventReadNewest p s
  | .cmdCfgSet p => Sys2Proof.Machine.execCmdCfgSet p s
  | .authKeySet p => Sys2Proof.Machine.execAuthKeySet p s
  | .authKeyClear p => Sys2Proof.Machine.execAuthKeyClear p s
  | .nonceQuery p => Sys2Proof.Machine.execNonceQuery p s
  | .bulkWrite p => Sys2Proof.Machine.execBulkWrite p s
  | .bulkRead p => Sys2Proof.Machine.execBulkRead p s
  | .bulkCrc p => Sys2Proof.Machine.execBulkCrc p s
  | .gpioCfgSet p => Sys2Proof.Machine.execGpioCfgSet p s
  | .gpioWrite p => Sys2Proof.Machine.execGpioWrite p s
  | .gpioQuery p => Sys2Proof.Machine.execGpioQuery p s
  | .pwrDomOn p => Sys2Proof.Machine.execPwrDomOn p s
  | .pwrDomRet p => Sys2Proof.Machine.execPwrDomRet p s
  | .pwrDomOff p => Sys2Proof.Machine.execPwrDomOff p s
  | .pwrDomReset p => Sys2Proof.Machine.execPwrDomReset p s
  | .pwrCfgSet p => Sys2Proof.Machine.execPwrCfgSet p s
  | .pwrQuery p => Sys2Proof.Machine.execPwrQuery p s
  | .pwrStats p => Sys2Proof.Machine.execPwrStats p s
  | .rtcSet p => Sys2Proof.Machine.execRtcSet p s
  | .clkCfgSet p => Sys2Proof.Machine.execClkCfgSet p s
  | .clkRefSet p => Sys2Proof.Machine.execClkRefSet p s
  | .clkSelect p => Sys2Proof.Machine.execClkSelect p s
  | .clkDcoSet p => Sys2Proof.Machine.execClkDcoSet p s
  | .clkOutSet p => Sys2Proof.Machine.execClkOutSet p s
  | .clkQuery p => Sys2Proof.Machine.execClkQuery p s
  | .clkStats p => Sys2Proof.Machine.execClkStats p s
  | .ptpCfgSet p => Sys2Proof.Machine.execPtpCfgSet p s
  | .ptpRelock p => Sys2Proof.Machine.execPtpRelock p s
  | .ptpQuery p => Sys2Proof.Machine.execPtpQuery p s
  | .ptpStats p => Sys2Proof.Machine.execPtpStats p s
  | .netPortSet p => Sys2Proof.Machine.execNetPortSet p s
  | .netRuleSet p => Sys2Proof.Machine.execNetRuleSet p s
  | .netRuleCommit p => Sys2Proof.Machine.execNetRuleCommit p s
  | .netTxqSet p => Sys2Proof.Machine.execNetTxqSet p s
  | .netLinkQuery p => Sys2Proof.Machine.execNetLinkQuery p s
  | .netStats p => Sys2Proof.Machine.execNetStats p s
  | .netMdio p => Sys2Proof.Machine.execNetMdio p s
  | .strmRxSet p => Sys2Proof.Machine.execStrmRxSet p s
  | .strmRxRemove p => Sys2Proof.Machine.execStrmRxRemove p s
  | .strmTxSet p => Sys2Proof.Machine.execStrmTxSet p s
  | .strmTxRemove p => Sys2Proof.Machine.execStrmTxRemove p s
  | .strmRxQuery p => Sys2Proof.Machine.execStrmRxQuery p s
  | .strmTxQuery p => Sys2Proof.Machine.execStrmTxQuery p s
  | .strmStats p => Sys2Proof.Machine.execStrmStats p s
  | .layoutLoad p => Sys2Proof.Machine.execLayoutLoad p s
  | .layoutQuery p => Sys2Proof.Machine.execLayoutQuery p s
  | .objConfig p => Sys2Proof.Machine.execObjConfig p s
  | .objDeconfig p => Sys2Proof.Machine.execObjDeconfig p s
  | .objBind p => Sys2Proof.Machine.execObjBind p s
  | .objQuery p => Sys2Proof.Machine.execObjQuery p s
  | .omsStats p => Sys2Proof.Machine.execOmsStats p s
  | .omsCfgSet p => Sys2Proof.Machine.execOmsCfgSet p s
  | .geoCfgSet p => Sys2Proof.Machine.execGeoCfgSet p s
  | .geoTempSet p => Sys2Proof.Machine.execGeoTempSet p s
  | .geoSpkDisable p => Sys2Proof.Machine.execGeoSpkDisable p s
  | .geoSpkEnable p => Sys2Proof.Machine.execGeoSpkEnable p s
  | .geoFrameQuery p => Sys2Proof.Machine.execGeoFrameQuery p s
  | .geoEval p => Sys2Proof.Machine.execGeoEval p s
  | .geoStats p => Sys2Proof.Machine.execGeoStats p s
  | .geoRaQuery p => Sys2Proof.Machine.execGeoRaQuery p s
  | .geoRaStats p => Sys2Proof.Machine.execGeoRaStats p s
  | .fabCfgSet p => Sys2Proof.Machine.execFabCfgSet p s
  | .fabObjQuery p => Sys2Proof.Machine.execFabObjQuery p s
  | .fabStats p => Sys2Proof.Machine.execFabStats p s
  | .fabInterpTable p => Sys2Proof.Machine.execFabInterpTable p s
  | .outConfig p => Sys2Proof.Machine.execOutConfig p s
  | .outDeconfig p => Sys2Proof.Machine.execOutDeconfig p s
  | .outGainSet p => Sys2Proof.Machine.execOutGainSet p s
  | .outAlignSet p => Sys2Proof.Machine.execOutAlignSet p s
  | .outEqSet p => Sys2Proof.Machine.execOutEqSet p s
  | .outLimSet p => Sys2Proof.Machine.execOutLimSet p s
  | .outBmSet p => Sys2Proof.Machine.execOutBmSet p s
  | .outSilSet p => Sys2Proof.Machine.execOutSilSet p s
  | .outAmpSet p => Sys2Proof.Machine.execOutAmpSet p s
  | .outQuery p => Sys2Proof.Machine.execOutQuery p s
  | .outEqQuery p => Sys2Proof.Machine.execOutEqQuery p s
  | .outStats p => Sys2Proof.Machine.execOutStats p s
  | .firLoad p => Sys2Proof.Machine.execFirLoad p s
  | .firCommit p => Sys2Proof.Machine.execFirCommit p s
  | .firSchemeLong p => Sys2Proof.Machine.execFirSchemeLong p s
  | .firSchemeStandard p => Sys2Proof.Machine.execFirSchemeStandard p s
  | .firClear p => Sys2Proof.Machine.execFirClear p s
  | .firQuery p => Sys2Proof.Machine.execFirQuery p s
  | .convStats p => Sys2Proof.Machine.execConvStats p s
  | .firExport p => Sys2Proof.Machine.execFirExport p s
  | .measPdmSet p => Sys2Proof.Machine.execMeasPdmSet p s
  | .measSweep p => Sys2Proof.Machine.execMeasSweep p s
  | .measPrbGroupSet p => Sys2Proof.Machine.execMeasPrbGroupSet p s
  | .measPrbSet p => Sys2Proof.Machine.execMeasPrbSet p s
  | .measPrbResult p => Sys2Proof.Machine.execMeasPrbResult p s
  | .measPrbBaseline p => Sys2Proof.Machine.execMeasPrbBaseline p s
  | .autotrimEnable p => Sys2Proof.Machine.execAutotrimEnable p s
  | .autotrimDisable p => Sys2Proof.Machine.execAutotrimDisable p s
  | .measStats p => Sys2Proof.Machine.execMeasStats p s
  | .mixSrcSet p => Sys2Proof.Machine.execMixSrcSet p s
  | .mixNodeStage p => Sys2Proof.Machine.execMixNodeStage p s
  | .mixCommit p => Sys2Proof.Machine.execMixCommit p s
  | .mixDiscard p => Sys2Proof.Machine.execMixDiscard p s
  | .mixBusSet p => Sys2Proof.Machine.execMixBusSet p s
  | .mixDomSet p => Sys2Proof.Machine.execMixDomSet p s
  | .mixBridgeSet p => Sys2Proof.Machine.execMixBridgeSet p s
  | .mixSilSet p => Sys2Proof.Machine.execMixSilSet p s
  | .bypSet p => Sys2Proof.Machine.execBypSet p s
  | .duckSet p => Sys2Proof.Machine.execDuckSet p s
  | .mixQuery p => Sys2Proof.Machine.execMixQuery p s
  | .mixStats p => Sys2Proof.Machine.execMixStats p s
  | .tdmPortSet p => Sys2Proof.Machine.execTdmPortSet p s
  | .tdmSlotSet p => Sys2Proof.Machine.execTdmSlotSet p s
  | .tdmQuery p => Sys2Proof.Machine.execTdmQuery p s
  | .tdmStats p => Sys2Proof.Machine.execTdmStats p s
  | .pairCfgSet p => Sys2Proof.Machine.execPairCfgSet p s
  | .pairIdSet p => Sys2Proof.Machine.execPairIdSet p s
  | .pairQuery p => Sys2Proof.Machine.execPairQuery p s
  | .pairSwitchover p => Sys2Proof.Machine.execPairSwitchover p s
  | .pairResyncStart p => Sys2Proof.Machine.execPairResyncStart p s
  | .pairResyncAbort p => Sys2Proof.Machine.execPairResyncAbort p s
  | .pairFence p => Sys2Proof.Machine.execPairFence p s
  | .pairStats p => Sys2Proof.Machine.execPairStats p s
  | .fxInstanceSet p => Sys2Proof.Machine.execFxInstanceSet p s
  | .fxInstanceRemove p => Sys2Proof.Machine.execFxInstanceRemove p s
  | .fxParamSet p => Sys2Proof.Machine.execFxParamSet p s
  | .fxQuery p => Sys2Proof.Machine.execFxQuery p s
  | .fxStats p => Sys2Proof.Machine.execFxStats p s
  | .fxMemRead p => Sys2Proof.Machine.execFxMemRead p s
  | .stblQSet p => Sys2Proof.Machine.execStblQSet p s
  | .stblTraceSet p => Sys2Proof.Machine.execStblTraceSet p s
  | .stblTraceRead p => Sys2Proof.Machine.execStblTraceRead p s
  | .stblSubmit p => Sys2Proof.Machine.execStblSubmit p s
  | .stblQuery p => Sys2Proof.Machine.execStblQuery p s
  | .stblStats p => Sys2Proof.Machine.execStblStats p s
  | .spnQosSet p => Sys2Proof.Machine.execSpnQosSet p s
  | .spnCfgSet p => Sys2Proof.Machine.execSpnCfgSet p s
  | .spnQuery p => Sys2Proof.Machine.execSpnQuery p s
  | .spnErrRead p => Sys2Proof.Machine.execSpnErrRead p s
  | .spnStats p => Sys2Proof.Machine.execSpnStats p s
  | .memCfgSet p => Sys2Proof.Machine.execMemCfgSet p s
  | .memtest p => Sys2Proof.Machine.execMemtest p s
  | .memRepairListed p => Sys2Proof.Machine.execMemRepairListed p s
  | .memRepairRow p => Sys2Proof.Machine.execMemRepairRow p s
  | .memQuery p => Sys2Proof.Machine.execMemQuery p s
  | .memErrRead p => Sys2Proof.Machine.execMemErrRead p s
  | .memStats p => Sys2Proof.Machine.execMemStats p s
  | .dmcCfgSet p => Sys2Proof.Machine.execDmcCfgSet p s
  | .dramRetireListed p => Sys2Proof.Machine.execDramRetireListed p s
  | .dramRetireRow p => Sys2Proof.Machine.execDramRetireRow p s
  | .dmcFreqSet p => Sys2Proof.Machine.execDmcFreqSet p s
  | .dmcQuery p => Sys2Proof.Machine.execDmcQuery p s
  | .dmcErrRead p => Sys2Proof.Machine.execDmcErrRead p s
  | .dmcStats p => Sys2Proof.Machine.execDmcStats p s
  | .pmcCfgSet p => Sys2Proof.Machine.execPmcCfgSet p s
  | .pmcSelSet p => Sys2Proof.Machine.execPmcSelSet p s
  | .pmcCtlSet p => Sys2Proof.Machine.execPmcCtlSet p s
  | .pmcRead p => Sys2Proof.Machine.execPmcRead p s
  | .pmcBwRead p => Sys2Proof.Machine.execPmcBwRead p s
  | .imageCommit p => Sys2Proof.Machine.execImageCommit p s
  | .imageQuery p => Sys2Proof.Machine.execImageQuery p s
  | .imageFloorRaise p => Sys2Proof.Machine.execImageFloorRaise p s
  | .journalSave p => Sys2Proof.Machine.execJournalSave p s
  | .journalQuery p => Sys2Proof.Machine.execJournalQuery p s
  | .journalCfgSet p => Sys2Proof.Machine.execJournalCfgSet p s
  | .journalClear p => Sys2Proof.Machine.execJournalClear p s
  | .bootLoad p => Sys2Proof.Machine.execBootLoad p s
  | .bootGo p => Sys2Proof.Machine.execBootGo p s
  | .fuseAuthHsp p => Sys2Proof.Machine.execFuseAuthHsp p s
  | .fuseAuthTwi p => Sys2Proof.Machine.execFuseAuthTwi p s
  | .fuseJtagLock p => Sys2Proof.Machine.execFuseJtagLock p s
  | .fuseDbgOff p => Sys2Proof.Machine.execFuseDbgOff p s
  | .fuseRevokeKey p => Sys2Proof.Machine.execFuseRevokeKey p s
  | .fuseKeyHash p => Sys2Proof.Machine.execFuseKeyHash p s
  | .secQuery p => Sys2Proof.Machine.execSecQuery p s
  | .authSuppressEnd port t => Sys2Proof.Machine.execAuthSuppressEnd port t s
  | .longOperationDone ext peerOk t => Sys2Proof.Machine.execLongOperationDone ext peerOk t s
  | .standbyAckTimeout t => Sys2Proof.Machine.execStandbyAckTimeout t s
  | .hspWriteCommand bytes t => Sys2Proof.Machine.execHspWriteCommand bytes t s
  | .hspWriteMetadata bytes t => Sys2Proof.Machine.execHspWriteMetadata bytes t s
  | .hspReadStatus => Sys2Proof.Machine.execHspReadStatus s
  | .hspReadReply n t => Sys2Proof.Machine.execHspReadReply n t s
  | .hspAbort => Sys2Proof.Machine.execHspAbort s
  | .commandDatagram mac src bytes t => Sys2Proof.Machine.execCommandDatagram mac src bytes t s
  | .twiWrite bytes t => Sys2Proof.Machine.execTwiWrite bytes t s
  | .twiRead n t => Sys2Proof.Machine.execTwiRead n t s
  | .twiAddressMatch addr write t => Sys2Proof.Machine.execTwiAddressMatch addr write t s
  | .safeResponder bytes t => Sys2Proof.Machine.execSafeResponder bytes t s
  | .journalCompact t => Sys2Proof.Machine.execJournalCompact t s
  | .mediaClockPeriod t => Sys2Proof.Machine.execMediaClockPeriod t s
  | .folioTick pdm t => Sys2Proof.Machine.execFolioTick pdm t s
  | .deadlineMiss t => Sys2Proof.Machine.execDeadlineMiss t s
  | .missingFolioTick t => Sys2Proof.Machine.execMissingFolioTick t s
  | .fabAbandon t => Sys2Proof.Machine.execFabAbandon t s
  | .omsMessage t => Sys2Proof.Machine.execOmsMessage t s
  | .glideEnd k t => Sys2Proof.Machine.execGlideEnd k t s
  | .geoTicketDone e t => Sys2Proof.Machine.execGeoTicketDone e t s
  | .fabTicketDone e reads t => Sys2Proof.Machine.execFabTicketDone e reads t s
  | .rootWrite reads => Sys2Proof.Machine.execRootWrite reads s
  | .headTicketDone e poison t => Sys2Proof.Machine.execHeadTicketDone e poison t s
  | .tailTicketDone e poison t => Sys2Proof.Machine.execTailTicketDone e poison t s
  | .outPhaseADone e t => Sys2Proof.Machine.execOutPhaseADone e t s
  | .outPhaseBDone e t => Sys2Proof.Machine.execOutPhaseBDone e t s
  | .mixerBlockDone e t => Sys2Proof.Machine.execMixerBlockDone e t s
  | .egressTicketDone e t => Sys2Proof.Machine.execEgressTicketDone e t s
  | .measTicketDone e t => Sys2Proof.Machine.execMeasTicketDone e t s
  | .sweepDone t => Sys2Proof.Machine.execSweepDone t s
  | .stallFill cls t => Sys2Proof.Machine.execStallFill cls t s
  | .generatorResume q cycles t => Sys2Proof.Machine.execGeneratorResume q cycles t s
  | .dmaCopyDone c t => Sys2Proof.Machine.execDmaCopyDone c t s
  | .dmaCopyError c off write cause t => Sys2Proof.Machine.execDmaCopyError c off write cause t s
  | .fxTicketStart c t => Sys2Proof.Machine.execFxTicketStart c t s
  | .fxTicketAbort c t => Sys2Proof.Machine.execFxTicketAbort c t s
  | .fxTicketLate c t => Sys2Proof.Machine.execFxTicketLate c t s
  | .fxInterruptEntry c t => Sys2Proof.Machine.execFxInterruptEntry c t s
  | .fxNop c t => Sys2Proof.Machine.execFxNop c t s
  | .fxMul c t => Sys2Proof.Machine.execFxMul c t s
  | .fxMac c t => Sys2Proof.Machine.execFxMac c t s
  | .fxMsu c t => Sys2Proof.Machine.execFxMsu c t s
  | .fxQmul c t => Sys2Proof.Machine.execFxQmul c t s
  | .fxQmac c t => Sys2Proof.Machine.execFxQmac c t s
  | .fxCmul c t => Sys2Proof.Machine.execFxCmul c t s
  | .fxCmac c t => Sys2Proof.Machine.execFxCmac c t s
  | .fxCmulc c t => Sys2Proof.Machine.execFxCmulc c t s
  | .fxCmacc c t => Sys2Proof.Machine.execFxCmacc c t s
  | .fxMva c t => Sys2Proof.Machine.execFxMva c t s
  | .fxMvah c t => Sys2Proof.Machine.execFxMvah c t s
  | .fxMval c t => Sys2Proof.Machine.execFxMval c t s
  | .fxMvag c t => Sys2Proof.Machine.execFxMvag c t s
  | .fxMvda c t => Sys2Proof.Machine.execFxMvda c t s
  | .fxAclr c t => Sys2Proof.Machine.execFxAclr c t s
  | .fxAadd c t => Sys2Proof.Machine.execFxAadd c t s
  | .fxAsra c t => Sys2Proof.Machine.execFxAsra c t s
  | .fxAdd c t => Sys2Proof.Machine.execFxAdd c t s
  | .fxSub c t => Sys2Proof.Machine.execFxSub c t s
  | .fxAddw c t => Sys2Proof.Machine.execFxAddw c t s
  | .fxSubw c t => Sys2Proof.Machine.execFxSubw c t s
  | .fxNeg c t => Sys2Proof.Machine.execFxNeg c t s
  | .fxAbs c t => Sys2Proof.Machine.execFxAbs c t s
  | .fxMin c t => Sys2Proof.Machine.execFxMin c t s
  | .fxMax c t => Sys2Proof.Machine.execFxMax c t s
  | .fxAnd c t => Sys2Proof.Machine.execFxAnd c t s
  | .fxOr c t => Sys2Proof.Machine.execFxOr c t s
  | .fxXor c t => Sys2Proof.Machine.execFxXor c t s
  | .fxNot c t => Sys2Proof.Machine.execFxNot c t s
  | .fxAsl c t => Sys2Proof.Machine.execFxAsl c t s
  | .fxAsr c t => Sys2Proof.Machine.execFxAsr c t s
  | .fxLsr c t => Sys2Proof.Machine.execFxLsr c t s
  | .fxCmp c t => Sys2Proof.Machine.execFxCmp c t s
  | .fxMov c t => Sys2Proof.Machine.execFxMov c t s
  | .fxLdi c t => Sys2Proof.Machine.execFxLdi c t s
  | .fxLdip c t => Sys2Proof.Machine.execFxLdip c t s
  | .fxLdim c t => Sys2Proof.Machine.execFxLdim c t s
  | .fxLdib c t => Sys2Proof.Machine.execFxLdib c t s
  | .fxLdil c t => Sys2Proof.Machine.execFxLdil c t s
  | .fxAddi c t => Sys2Proof.Machine.execFxAddi c t s
  | .fxCmpi c t => Sys2Proof.Machine.execFxCmpi c t s
  | .fxBr c t => Sys2Proof.Machine.execFxBr c t s
  | .fxCall c t => Sys2Proof.Machine.execFxCall c t s
  | .fxRet c t => Sys2Proof.Machine.execFxRet c t s
  | .fxLoop c t => Sys2Proof.Machine.execFxLoop c t s
  | .fxTrap c t => Sys2Proof.Machine.execFxTrap c t s
  | .fxRti c t => Sys2Proof.Machine.execFxRti c t s
  | .fxDone c t => Sys2Proof.Machine.execFxDone c t s
  | .fxMovr c t => Sys2Proof.Machine.execFxMovr c t s
  | .fxPadd c t => Sys2Proof.Machine.execFxPadd c t s
  | .fxCsrr c t => Sys2Proof.Machine.execFxCsrr c t s
  | .fxCsrw c t => Sys2Proof.Machine.execFxCsrw c t s
  | .tdmFrame q mt din bclks late fill t => Sys2Proof.Machine.execTdmFrame q mt din bclks late fill t s
  | .tdmClockLost q t => Sys2Proof.Machine.execTdmClockLost q t s
  | .zcTimeout q tx j t => Sys2Proof.Machine.execZcTimeout q tx j t s
  | .gateHoldExpiry k t => Sys2Proof.Machine.execGateHoldExpiry k t s
  | .frameReceived m bytes bad odd noRoom full corr uncorr cap mt t => Sys2Proof.Machine.execFrameReceived m bytes bad odd noRoom full corr uncorr cap mt t s
  | .pauseExpiry m t => Sys2Proof.Machine.execPauseExpiry m t s
  | .frameTransmit m deferred cap t => Sys2Proof.Machine.execFrameTransmit m deferred cap t s
  | .collision m bits t => Sys2Proof.Machine.execCollision m bits t s
  | .backoffExpiry m t => Sys2Proof.Machine.execBackoffExpiry m t s
  | .linkChange m lock hiBer localF remoteF fecLock inbUp inbSpeed inbFull t => Sys2Proof.Machine.execLinkChange m lock hiBer localF remoteF fecLock inbUp inbSpeed inbFull t s
  | .streamFrame m t => Sys2Proof.Machine.execStreamFrame m t s
  | .txPacket n e resA resB t => Sys2Proof.Machine.execTxPacket n e resA resB t s
  | .legDown n leg t => Sys2Proof.Machine.execLegDown n leg t s
  | .referenceEdge r pps t => Sys2Proof.Machine.execReferenceEdge r pps t s
  | .referenceLost r t => Sys2Proof.Machine.execReferenceLost r t s
  | .referenceMeasurement foff t => Sys2Proof.Machine.execReferenceMeasurement foff t s
  | .referenceSelection phases ferrs t => Sys2Proof.Machine.execReferenceSelection phases ferrs t s
  | .xoFail t => Sys2Proof.Machine.execXoFail t s
  | .sync h two origin corr rx t => Sys2Proof.Machine.execSync h two origin corr rx t s
  | .followUp h origin corr t => Sys2Proof.Machine.execFollowUp h origin corr t s
  | .delayResp h own t2 t3 corr rx t => Sys2Proof.Machine.execDelayResp h own t2 t3 corr rx t s
  | .announce h a t => Sys2Proof.Machine.execAnnounce h a t s
  | .announceTimeout t => Sys2Proof.Machine.execAnnounceTimeout t s
  | .reinEdge t => Sys2Proof.Machine.execReinEdge t s
  | .claim t => Sys2Proof.Machine.execClaim t s
  | .redrive t => Sys2Proof.Machine.execRedrive t s
  | .contentionWaitEnd t => Sys2Proof.Machine.execContentionWaitEnd t s
  | .selfFence cause t => Sys2Proof.Machine.execSelfFence cause t s
  | .mirror f bad t => Sys2Proof.Machine.execMirror f bad t s
  | .sched f bad t => Sys2Proof.Machine.execSched f bad t s
  | .cmdlog f bad t => Sys2Proof.Machine.execCmdlog f bad t s
  | .snap f bad t => Sys2Proof.Machine.execSnap f bad t s
  | .digest f bad t => Sys2Proof.Machine.execDigest f bad t s
  | .control f bad t => Sys2Proof.Machine.execControl f bad t s
  | .forward f bad t => Sys2Proof.Machine.execForward f bad t s
  | .clockMarker mt t => Sys2Proof.Machine.execClockMarker mt t s
  | .tetherDown t => Sys2Proof.Machine.execTetherDown t s
  | .laneFail lane t => Sys2Proof.Machine.execLaneFail lane t s
  | .resyncPassEnd pages left t => Sys2Proof.Machine.execResyncPassEnd pages left t s
  | .cutover pages c t => Sys2Proof.Machine.execCutover pages c t s
  | .resyncFail t => Sys2Proof.Machine.execResyncFail t s
  | .handoverSwap t => Sys2Proof.Machine.execHandoverSwap t s
  | .porRise pairEn unitId twiAddr bootSrc t => Sys2Proof.Machine.execPorRise pairEn unitId twiAddr bootSrc t s
  | .coldReset t => Sys2Proof.Machine.execColdReset t s
  | .warmReset cause t => Sys2Proof.Machine.execWarmReset cause t s
  | .watchdogTimeout t => Sys2Proof.Machine.execWatchdogTimeout t s
  | .boot trained t => Sys2Proof.Machine.execBoot trained t s
  | .sceneRestore t => Sys2Proof.Machine.execSceneRestore t s
  | .refWaitExpiry t => Sys2Proof.Machine.execRefWaitExpiry t s
  | .renderEntry t => Sys2Proof.Machine.execRenderEntry t s
  | .safeEntry cause t => Sys2Proof.Machine.execSafeEntry cause t s
  | .tempWarn temp t => Sys2Proof.Machine.execTempWarn temp t s
  | .tempSafe temp t => Sys2Proof.Machine.execTempSafe temp t s
  | .faultEntry t => Sys2Proof.Machine.execFaultEntry t s
  | .haltWake src t => Sys2Proof.Machine.execHaltWake src t s
  | .rtcAlarm t => Sys2Proof.Machine.execRtcAlarm t s
  | .supplyLoss t => Sys2Proof.Machine.execSupplyLoss t s
  | .retTimer d t act => Sys2Proof.Machine.execRetTimer d t act s
  | .offTimer d t => Sys2Proof.Machine.execOffTimer d t s
  | .domainWake d src t => Sys2Proof.Machine.execDomainWake d src t s
  | .drainComplete t => Sys2Proof.Machine.execDrainComplete t s
  | .drainTimeout t => Sys2Proof.Machine.execDrainTimeout t s
  | .restorationDone d t => Sys2Proof.Machine.execRestorationDone d t s
  | .spineTransaction x t => Sys2Proof.Machine.execSpineTransaction x t s
  | .masterDrainDone m t => Sys2Proof.Machine.execMasterDrainDone m t s
  | .bitSetWrite m a data strobes t => Sys2Proof.Machine.execBitSetWrite m a data strobes t s
  | .bitClearWrite m a data strobes t => Sys2Proof.Machine.execBitClearWrite m a data strobes t s
  | .groomerStep ue rows t => Sys2Proof.Machine.execGroomerStep ue rows t s
  | .groomerAbort t => Sys2Proof.Machine.execGroomerAbort t s
  | .groomerRetry ue rows t => Sys2Proof.Machine.execGroomerRetry ue rows t s
  | .rowRepair bank row t => Sys2Proof.Machine.execRowRepair bank row t s
  | .rowRetire chan bank row t => Sys2Proof.Machine.execRowRetire chan bank row t s
  | .refresh chan bank t => Sys2Proof.Machine.execRefresh chan bank t s
  | .selfRefreshEntry abort t => Sys2Proof.Machine.execSelfRefreshEntry abort t s
  | .selfRefreshExit t => Sys2Proof.Machine.execSelfRefreshExit t s
  | .calibration chan forced outs t => Sys2Proof.Machine.execCalibration chan forced outs t s
  | .dramThermal temp t => Sys2Proof.Machine.execDramThermal temp t s
  | .dramFailure cause t => Sys2Proof.Machine.execDramFailure cause t s
  | .probeGroupBoundary mt t => Sys2Proof.Machine.execProbeGroupBoundary mt t s
  | .autotrimStep o q t => Sys2Proof.Machine.execAutotrimStep o q t s
  | .silenceEnter d k t => Sys2Proof.Machine.execSilenceEnter d k t s
  | .eqCrossfadeEnd o q t => Sys2Proof.Machine.execEqCrossfadeEnd o q t s
  | .swapGroupPhase t => Sys2Proof.Machine.execSwapGroupPhase t s
  | .historyWaitEnd t => Sys2Proof.Machine.execHistoryWaitEnd t s
  | .d1Holdover t => Sys2Proof.Machine.execD1Holdover t s
  | .bridgeSlip k t => Sys2Proof.Machine.execBridgeSlip k t s
  | .pmcSnapPin t => Sys2Proof.Machine.execPmcSnapPin t s
  | .pmcMatch t => Sys2Proof.Machine.execPmcMatch t s
  | .counterWrap k t => Sys2Proof.Machine.execCounterWrap k t s
  | .bandwidthWindow t => Sys2Proof.Machine.execBandwidthWindow t s
  | .jtagChallenge rnd t => Sys2Proof.Machine.execJtagChallenge rnd t s
  | .jtagResponse bytes t => Sys2Proof.Machine.execJtagResponse bytes t s
  | .gpioEdge k level t => Sys2Proof.Machine.execGpioEdge k level t s
  | .mediaTimeLoRead t => Sys2Proof.Machine.execMediaTimeLoRead t s
  | .omsObjSel v t => Sys2Proof.Machine.execOmsObjSel v t s
  | .geoSpkSel v t => Sys2Proof.Machine.execGeoSpkSel v t s
  | .fabObjSel v t => Sys2Proof.Machine.execFabObjSel v t s
  | .fabClampLastRead t => Sys2Proof.Machine.execFabClampLastRead t s
  | .outMonSel v t => Sys2Proof.Machine.execOutMonSel v t s
  | .convOutSel v t => Sys2Proof.Machine.execConvOutSel v t s
  | .txtsPop m t => Sys2Proof.Machine.execTxtsPop m t s
  | .macStatRead m k t => Sys2Proof.Machine.execMacStatRead m k t s
  | .macRuleGo m t => Sys2Proof.Machine.execMacRuleGo m t s
  | .mdioGo v t => Sys2Proof.Machine.execMdioGo v t s
  | .clkDcoLoRead t => Sys2Proof.Machine.execClkDcoLoRead t s
  | .ptpTimeNsRead t => Sys2Proof.Machine.execPtpTimeNsRead t s
  | .spnErrlogPop t => Sys2Proof.Machine.execSpnErrlogPop t s
  | .memErrlogPop t => Sys2Proof.Machine.execMemErrlogPop t s
  | .memBankSel v t => Sys2Proof.Machine.execMemBankSel v t s
  | .dmcErrlogPop t => Sys2Proof.Machine.execDmcErrlogPop t s
  | .pwrRtcLoRead t => Sys2Proof.Machine.execPwrRtcLoRead t s
  | .pmcCntLoRead k t => Sys2Proof.Machine.execPmcCntLoRead k t s
  | .pmcSnapLoRead k t => Sys2Proof.Machine.execPmcSnapLoRead k t s
  | .pmcSelWrite k v t => Sys2Proof.Machine.execPmcSelWrite k v t s
  | .pmcMmaskWrite k v t => Sys2Proof.Machine.execPmcMmaskWrite k v t s
  | .clrAll t => Sys2Proof.Machine.execClrAll t s
  | .run t => Sys2Proof.Machine.execRun t s
  | .freeze t => Sys2Proof.Machine.execFreeze t s
  | .snapTrigger t => Sys2Proof.Machine.execSnapTrigger t s
  | .gpioSet v t => Sys2Proof.Machine.execGpioSet v t s
  | .gpioClr v t => Sys2Proof.Machine.execGpioClr v t s
  | .w1cWrite a v hw t => Sys2Proof.Machine.execW1cWrite a v hw t s
  | .rcRead access t => Sys2Proof.Machine.execRcRead access t s
  | .registerWrite m a n v t => Sys2Proof.Machine.execRegisterWrite m a n v t s
  | .tetherUp rtt t => Sys2Proof.Machine.execTetherUp rtt t s
  | .xoReturn t => Sys2Proof.Machine.execXoReturn t s
  | .delayReqInterval ts t => Sys2Proof.Machine.execDelayReqInterval ts t s
  | .syncInterval t => Sys2Proof.Machine.execSyncInterval t s
  | .keepAlive t => Sys2Proof.Machine.execKeepAlive t s
  | .peerReadyLapse t => Sys2Proof.Machine.execPeerReadyLapse t s
  | .d1BlockBoundary block t => Sys2Proof.Machine.execD1BlockBoundary block t s
  | .mdioFrameDone data t => Sys2Proof.Machine.execMdioFrameDone data t s
  | .refreshWindow chan bank t => Sys2Proof.Machine.execRefreshWindow chan bank t s
  | .configurationPhaseDone recs store t => Sys2Proof.Machine.execConfigurationPhaseDone recs store t s
  | .ctrlRestart t => Sys2Proof.Machine.execCtrlRestart t s
  | .testEnChange level t => Sys2Proof.Machine.execTestEnChange level t s

end Sys2Proof.Machine
end

