-- ==== Sys2Proof/Safety.lean ====
section
/-!
DEFINITION. What counts as a safe state and a safe step: memory and registers in their canonical forms, so that equal
contents are equal data; fuses that only ever blow; the queue of commands that only its front leaves; and
the packets whose command runs.
-/

namespace Sys2Proof.Machine

/-- Keys strictly rise. -/
def rising {α : Type} : List (Nat × α) → Bool
  | [] => true
  | e :: r => r.all (fun x => decide (e.1 < x.1)) && rising r

/-- A sparse table stands in the canonical form of a default: keys rise, and no entry equals what an unlisted key
reads as. -/
def Tab.canon {α : Type} [DecidableEq α] (t : List (Nat × α)) (d : Nat → α) : Bool :=
  rising t && t.all (fun e => decide (e.2 ≠ d e.1))

/-- The canonical form of memory (R12; notes/assumptions/3). -/
def Memory.wf (m : List Host.Cell) : Bool := Tab.canon m (fun _ => memDefault)

/-- The canonical form of the register file: no listed register holds its reset value (R9). -/
def State.regsWf (s : State) : Bool := Tab.canon s.regs (regReset s.otp.grade)

/-- Registers and memory stand in their canonical forms. -/
def State.wf (s : State) : Bool := s.regsWf && Memory.wf s.mem

/-- Every fuse that reads blown in `o` reads blown in `n`, and what manufacture programmed is the same (R607, R609,
R616, R618). -/
structure Otp.Kept (o n : Otp) : Prop where
  grade : n.grade = o.grade
  uid : n.uid = o.uid
  authHsp : o.authHsp = true → n.authHsp = true
  authTwi : o.authTwi = true → n.authTwi = true
  jtagLock : o.jtagLock = true → n.jtagLock = true
  dbgOff : o.dbgOff = true → n.dbgOff = true
  revoke : ∀ i, o.revoke.testBit i = true → n.revoke.testBit i = true
  floor : ∀ i, o.floor.testBit i = true → n.floor.testBit i = true
  keyHash : ∀ i h, Tab.look o.keyHash i = some h → Tab.look n.keyHash i = some h

/-- What a step from `s` to `t` keeps: the queue, the fuses and the canonical forms; and, where it is quiet, every byte
of memory, its poison and every fuse as they were. -/
structure Keeps (quiet : Bool) (s t : State) : Prop where
  pending : t.pending = s.pending
  otp : Otp.Kept s.otp t.otp
  regs : s.regsWf = true → t.regsWf = true
  mem : Memory.wf s.mem = true → Memory.wf t.mem = true
  same : quiet = true → t.mem = s.mem ∧ t.poison = s.poison ∧ t.otp = s.otp

/-! ### Packets whose command runs (R581) -/

/-- The state in which a packet that has arrived on a port that answers is judged. -/
def State.arrived (s : State) (p : Packet) : State := (s.atTime p.time).irq Reg.CMD_IRQ_STAT Fl.CMD_IRQ_STAT_RX

/-- The command runs on this unit (R441): its target is 0, or it is 2 and the unit holds the rein. -/
def State.runsHere (s : State) (sp : CmdSpec) (p : Packet) : Bool :=
  effTarget sp p == 0 || (effTarget sp p == 2 && s.holds && !sp.ownOnly)

/-- The packet arrives on a port that answers, no command waits for its reply there, and it passes every check of R581. -/
def admitted (sp : CmdSpec) (p : Packet) (s : State) : Bool :=
  let u := s.arrived p
  (s.atTime p.time).answers p.port && u.canStart p.port && p.framed && u.authOk p sp.opcode &&
    (u.nonceCheck p sp.opcode).isNone && u.cmd.longOp.isNone && u.cmd.peerBusy.isNone && bitsN p.flags 7 3 == 0 &&
    u.runsHere sp p && decide (u.effRole p ≤ sp.role) && decide (sp.lo ≤ p.params.length) &&
    decide (p.params.length ≤ sp.hi) && u.modeOk sp

/-- The state a command's own effect starts from: its nonce accepted, the packet counted; the responder of SAFE has also
logged it (R577, R584, R597). -/
def State.begun (s : State) (sp : CmdSpec) (p : Packet) : State :=
  let u := (s.arrived p).acceptNonce p sp.opcode
  (if u.mode = mSAFE then u.logEventFree 0x1783 sp.opcode else u).bump Reg.CMD_RX

/-- What accepting a long operation leaves (R586): the standby is told, and the operation stands. -/
def State.accepted (s : State) (sp : CmdSpec) (p : Packet) (args : List Nat) : State :=
  { (if logged sp p && s.peerLogs then s.logToStandby p sp.opcode else s) with
    cmd.longOp := some ⟨sp.opcode, p, p.time, args, sp.journ⟩ }

/-- What holding back a reply leaves. -/
def State.holding (s : State) (sp : CmdSpec) (p : Packet) (kind arg : Nat) : State :=
  { s with cmd.held := some ⟨sp.opcode, p, kind, arg, stOK, [], sp.journ⟩ }

end Sys2Proof.Machine
end

