-- ==== Sys2Proof/Certificates/Slice0/Obligations.lean ====
section
/-!
DEFINITION. The statements about the device, and the forms they are said in.
-/

namespace Sys2Proof.Machine

/-- A command row that is done at once: where the packet is admitted and the command's own conditions hold, the row answers the
next state: the effect, then the journal record, the command log and the reply `OK` with the result. Conditions, effect
and result speak of the state the effect starts from. -/
def Answers (i : Packet → Instr) (sp : CmdSpec) (cond : Packet → State → Prop) (eff : Packet → State → State)
    (res : Packet → State → List Byte) : Prop :=
  ∀ (p : Packet) (s : State), admitted sp p s = true → cond p (s.begun sp p) →
    exec (i p) s = .next ((eff p (s.begun sp p)).finishOk sp p (res p (s.begun sp p)))

/-- The same of a row that stands for one value `v` of the op byte at `off`. -/
def AnswersOp (i : Packet → Instr) (off v : Nat) (sp : CmdSpec) (cond : Packet → State → Prop)
    (eff : Packet → State → State) (res : Packet → State → List Byte) : Prop :=
  ∀ (p : Packet) (s : State), admitted sp (p.withOp off v) s = true →
    cond (p.withOp off v) (s.begun sp (p.withOp off v)) →
    exec (i p) s = .next ((eff (p.withOp off v) (s.begun sp (p.withOp off v))).finishOk sp (p.withOp off v)
      (res (p.withOp off v) (s.begun sp (p.withOp off v))))

/-- A command row that is accepted as a long operation (R586). -/
def Accepts (i : Packet → Instr) (sp : CmdSpec) (cond : Packet → State → Prop) (eff : Packet → State → State)
    (args : Packet → State → List Nat) : Prop :=
  ∀ (p : Packet) (s : State), admitted sp p s = true → cond p (s.begun sp p) →
    exec (i p) s = .next ((eff p (s.begun sp p)).accepted sp p (args p (s.begun sp p)))

/-- A command row that also sees to its own reply: where the packet is admitted and the command's conditions hold, the row
answers this next state. -/
def Runs (i : Packet → Instr) (sp : CmdSpec) (cond : Packet → State → Prop) (eff : Packet → State → State) : Prop :=
  ∀ (p : Packet) (s : State), admitted sp p s = true → cond p (s.begun sp p) → exec (i p) s = .next (eff p (s.begun sp p))

/-- The same of a row that stands for one value `v` of the op byte at `off`. -/
def RunsOp (i : Packet → Instr) (off v : Nat) (sp : CmdSpec) (cond : Packet → State → Prop) (eff : Packet → State → State) :
    Prop :=
  ∀ (p : Packet) (s : State), admitted sp (p.withOp off v) s = true →
    cond (p.withOp off v) (s.begun sp (p.withOp off v)) →
    exec (i p) s = .next (eff (p.withOp off v) (s.begun sp (p.withOp off v)))

/-- A command row of one op value that is accepted as a long operation. -/
def AcceptsOp (i : Packet → Instr) (off v : Nat) (sp : CmdSpec) (cond : Packet → State → Prop) (eff : Packet → State → State)
    (args : Packet → State → List Nat) : Prop :=
  RunsOp i off v sp cond (fun p u => (eff p u).accepted sp p (args p u))

/-- No condition beyond the checks of every packet. -/
def always (_ : Packet) (_ : State) : Prop := True

/-- A command that only answers. -/
def noEffect (_ : Packet) (s : State) : State := s

/-- A result of no bytes. -/
def noResult (_ : Packet) (_ : State) : List Byte := []

/-- A row that stands for an event at a time: where the condition holds of the state at that time, the row answers the next
state that the event leaves. -/
def Happens (i : Nat → Instr) (cond : State → Prop) (eff : State → State) : Prop :=
  ∀ (t : Nat) (s : State), cond (s.atTime t) → exec (i t) s = .next (eff (s.atTime t))

/-- What a row leaves that may have let a reply go that a command was waiting for: the packets behind it run then. -/
def State.released (s u : State) : State := if s.cmd.held.isSome && u.cmd.held.isNone then u.runWaiting else u

/-- The same of a row that may let a held reply go. -/
def Releases (i : Nat → Instr) (cond : State → Prop) (eff : State → State) : Prop :=
  ∀ (t : Nat) (s : State), cond (s.atTime t) → exec (i t) s = .next (s.released (eff (s.atTime t)))

/-- No condition on the state. -/
def anyState (_ : State) : Prop := True

/-- The moves of a word (R466, R477), where the memory protection allows them; a word of another format than C has none. -/
def State.wordMoves (u : State) (k : FxCore) (w : Nat) : Option (List FxMove) :=
  let user := u.flag Reg.PMC_CFG Fl.PMC_CFG_USER_EN
  if bitsN w 63 62 = 0 then
    match k.move user (bitsN w 31 16), k.move user (bitsN w 15 0) with
    | some x, some y => some (x ++ y)
    | _, _ => none
  else some []

/-- Core `c` runs `k` and has the legal word `w` next, no interrupt being due before it; its moves are `ms`. -/
def State.runsWord (u : State) (c code : Nat) (k : FxCore) (w : Nat) (ms : List FxMove) : Prop :=
  Tab.look u.fx.cores c = some k ∧ u.fxcFetch k = some w ∧ k.ready = true ∧ fxcCode w = code ∧ wordOk w = true ∧
    k.stateOk w = true ∧ u.wordMoves k w = some ms

/-- A row of an effect core's instruction (R452, R456, R472): the word makes its moves and retires with the result `r`; the core
goes on, or the word that exceeds the budget aborts the ticket, or the last delay slot of `DONE` ends it. -/
def Retires (i : Nat → Nat → Instr) (code : Nat) (r : FxCore → Nat → FxRes) : Prop :=
  ∀ (c t : Nat) (s : State) (k : FxCore) (w : Nat) (ms : List FxMove),
    let u := s.atTime t
    let ld := u.fxcLoads ms
    let v := ld.1.fxcStores k ms
    let after := k.retire (r k w) ms ld.2
    u.runsWord c code k w ms →
      (after.cnt ≤ k.prog.budget → ¬ (after.ending = true ∧ after.slots = 0) →
        exec (i c t) s = .next (u.released { v with fx.cores := Tab.put v.fx.cores c after })) ∧
      (after.cnt ≤ k.prog.budget → after.ending = true ∧ after.slots = 0 →
        exec (i c t) s = .next (u.released (v.fxcDone c after))) ∧
      (k.prog.budget < after.cnt → exec (i c t) s = .next (u.released (v.fxcAbort c { after with pc := k.pc } 1)))

end Sys2Proof.Machine

open Sys2Proof Sys2Proof.Machine

/-- The general commands of the protocol (R593), of events, keys and nonces (R583, R584, R593), of GPIO (R621), the budget
query (R34), the SAFE mask (R623), the engine reset (R606) and the security query (R618) run to their end. -/
def Obligations.GeneralCommandsComplete : Prop :=
  Answers .echo (cmdRow 0x0000 2 false 0 64 fwModes false) always noEffect (fun p _ => p.params) ∧
  Answers .sysInfo (cmdRow 0x0001 2 false 0 0 fwModes false) always noEffect
    (fun p u => u.viewBytes [Reg.SYS_CAPS] ++ by4 u.sys.firm.build ++ by2 u.sys.firm.compat ++ by1 u.mode ++
      by1 (2 * b2n u.sys.straps.pairEn + u.sys.straps.unitId % 2) ++ by1 p.port ++ leBytes 3 0) ∧
  Answers .budgetQuery (cmdRow 0x0011 2 false 0 0 fwModes false) always noEffect
    (fun _ u => (List.range 9).flatMap (fun i => by4 (u.budgetUse i) ++ by4 (u.limit i))) ∧
  AnswersOp .eventReadOldest 0 0 (cmdRow 0x0020 2 false 4 4 fwModes false)
    (fun p _ => u8 p.params 0 = 0 ∧ 1 ≤ u8 p.params 1 ∧ u8 p.params 1 ≤ 64 ∧ zeroAt p.params 2 2 = true)
    (fun p u => { u with cmd.log := markRead (u8 p.params 1) u.cmd.log })
    (fun p u => eventBytes (((u.cmd.log.filter (·.2)).take (u8 p.params 1)).map (·.1))) ∧
  AnswersOp .eventReadNewest 0 1 (cmdRow 0x0020 2 false 4 4 fwModes false)
    (fun p _ => u8 p.params 0 = 1 ∧ 1 ≤ u8 p.params 1 ∧ u8 p.params 1 ≤ 64 ∧ zeroAt p.params 2 2 = true)
    noEffect (fun p u => eventBytes ((newest (u8 p.params 1) u.cmd.log).map (·.1))) ∧
  Answers .cmdCfgSet (cmdRow 0x0030 0 false 4 4 fwModes false)
    (fun p u => rsvOk Reg.CMD_CFG (u32 p.params 0) = true ∧ u.cmdPortTaken (bitsN (u32 p.params 0) 31 16) = false)
    (fun p u => u.wr Reg.CMD_CFG (u32 p.params 0)) noResult ∧
  AnswersOp .authKeySet 1 0 { cmdRow 0x0031 0 true 36 36 fwModes false with logs := true }
    (fun p _ => u8 p.params 0 ≤ 2 ∧ u8 p.params 1 = 0 ∧ zeroAt p.params 2 2 = true)
    (fun p u => { u with cmd.keys := Tab.put u.cmd.keys (u8 p.params 0) (slice p.params 4 32) }.logEventFree 0x1782
      (u8 p.params 0)) noResult ∧
  AnswersOp .authKeyClear 1 1 { cmdRow 0x0031 0 true 36 36 fwModes false with logs := true }
    (fun p _ => u8 p.params 0 ≤ 2 ∧ u8 p.params 1 = 1 ∧ zeroAt p.params 2 2 = true)
    (fun p u => { u with cmd.keys := Tab.del u.cmd.keys (u8 p.params 0) }) noResult ∧
  Answers .nonceQuery (cmdRow 0x0032 2 false 0 0 fwModes false) always noEffect
    (fun p u => by8 (Tab.at u.cmd.nonces 0 (u.effRole p))) ∧
  Answers .gpioCfgSet (cmdRow 0x0040 0 false 16 16 gpioModes true)
    (fun p _ => rsvOk Reg.GPIO_DIR (u32 p.params 0) = true ∧ rsvOk Reg.GPIO_OD (u32 p.params 4) = true ∧
      rsvOk Reg.GPIO_EDGE (u32 p.params 8) = true ∧ rsvOk Reg.GPIO_DEB (u32 p.params 12) = true)
    (fun p u => (((u.wr Reg.GPIO_DIR (u32 p.params 0)).wr Reg.GPIO_OD (u32 p.params 4)).wr Reg.GPIO_EDGE
      (u32 p.params 8)).wr Reg.GPIO_DEB (u32 p.params 12)) noResult ∧
  Answers .gpioWrite (cmdRow 0x0041 1 false 8 8 gpioModes true)
    (fun p _ => rsvOk Reg.GPIO_OUT (u32 p.params 0) = true ∧ rsvOk Reg.GPIO_OUT (u32 p.params 4) = true)
    (fun p u => u.wr Reg.GPIO_OUT (merge (u.rd Reg.GPIO_OUT) (u32 p.params 0) (u32 p.params 4))) noResult ∧
  Answers .gpioQuery (cmdRow 0x0042 2 false 0 0 fwModes false) always noEffect
    (fun _ u => u.viewBytes [Reg.GPIO_DIR, Reg.GPIO_OD, Reg.GPIO_OUT, Reg.GPIO_IN, Reg.GPIO_EDGE, Reg.GPIO_IRQ_STAT]) ∧
  Answers .safeMaskSet { cmdRow 0x0004 0 true 4 4 fwModes false with logs := true }
    (fun p _ => rsvOk Reg.SYS_SAFE_CFG (u32 p.params 0) = true)
    (fun p u => u.wr Reg.SYS_SAFE_CFG (u32 p.params 0)) noResult ∧
  Answers .unitReset (cmdRow 0x0005 0 false 4 4 fwModes false)
    (fun p u => u8 p.params 0 ≤ 9 ∧ (u8 p.params 0 ≤ 6 → u.mode = mIDLE ∨ u.mode = mSERVICE ∨ u.mode = mFAULT) ∧
      u8 p.params 1 ∈ classEngines (u8 p.params 0) ∧ enginePresent u.otp.grade (u8 p.params 1) = true ∧
      zeroAt p.params 2 2 = true)
    (fun p u => u.unitReset (u8 p.params 1)) noResult ∧
  Answers .secQuery (cmdRow 0x0E05 2 false 0 0 fwModes false) always noEffect
    (fun _ u => u.viewBytes ([Reg.SEC_FUSE, Reg.SEC_FLOOR_LO, Reg.SEC_FLOOR_HI, Reg.SEC_UID_LO, Reg.SEC_UID_HI,
      Reg.SEC_JTAG_STAT] ++ (List.range 4).flatMap (fun i => (List.range 12).map (fun w => Reg.SEC_KEYHASH i w))))


/-- `MODE_SET` takes every transition that R599 gives it and only answers `OK` for the present mode; any other transition is
refused with `NOT_IN_MODE` and nothing else happens. A transition into or out of RENDER or MEASURE waits for its folio
tick (R600); SAFE is entered with cause 5 (R601) and left by a warm reset where nothing keeps the device there (R603). -/
def Obligations.ModeSetTransitions : Prop :=
  let sp := cmdRow 0x0002 0 true 4 4 fwModes true
  let names (p : Packet) (m : Nat) : Prop := u8 p.params 0 = m ∧ zeroAt p.params 1 3 = true
  Runs .modeSet sp (fun p u => names p u.mode ∧ u.mode ≤ 11) (fun p u => u.reply p 0x0002 stOK []) ∧
  Answers .modeSet sp (fun p u => (names p mSERVICE ∧ u.mode = mIDLE) ∨ (names p mIDLE ∧ u.mode = mSERVICE))
    (fun p u => u.setMode (u8 p.params 0)) noResult ∧
  Answers .modeSet sp (fun p u => ((names p mRENDER ∨ names p mMEASURE) ∧ u.mode = mIDLE) ∨
      (names p mIDLE ∧ (u.mode = mRENDER ∨ u.mode = mMEASURE)))
    (fun p u => u.beginTransit (u8 p.params 0)) noResult ∧
  Runs .modeSet sp (fun p u => names p mHALT ∧ (u.mode = mIDLE ∨ u.mode = mSERVICE ∨ u.mode = mFAULT))
    (fun p u => ((u.record 0x0002 p.params []).reply p 0x0002 stOK []).enterHalt) ∧
  Runs .modeSet sp (fun p u => names p mSAFE ∧ u.mode ≠ mSAFE)
    (fun p u => ((u.record 0x0002 p.params []).reply p 0x0002 stOK []).enterSafe 5) ∧
  Runs .modeSet sp (fun p u => names p mIDLE ∧ u.mode = mSAFE ∧ u.mayLeaveSafe = true)
    (fun p u => (u.reply p 0x0002 stOK []).warmReset 4) ∧
  Runs .modeSet sp (fun p u => ∃ m, names p m ∧ m ≤ 11 ∧ m ≠ u.mode ∧ m ≠ mSAFE ∧ (u.mode = mSAFE → m ≠ mIDLE) ∧
      (u.mode = mIDLE → m ∉ [mHALT, mRENDER, mMEASURE, mSERVICE]) ∧ (u.mode ∈ [mRENDER, mMEASURE] → m ≠ mIDLE) ∧
      (u.mode = mSERVICE → m ∉ [mHALT, mIDLE]) ∧ (u.mode = mFAULT → m ≠ mHALT))
    (fun p u => u.reply p 0x0002 stNOT_IN_MODE [])

/-- `SYS_RESET` answers `OK` and then resets: kind 0 is a warm reset with cause 1, kind 1 resets the CTRL domain (R604,
R593). `RENDER_FORMAT_SET` takes effect at once where no filter set is loaded for another folio length, and is a long
operation otherwise (R29, R33). -/
def Obligations.ResetAndFormatComplete : Prop :=
  RunsOp .sysResetWarm 0 0 (cmdRow 0x0003 0 false 4 4 fwModes false)
    (fun p _ => u8 p.params 0 = 0 ∧ zeroAt p.params 1 3 = true) (fun p u => (u.reply p 0x0003 stOK []).warmReset 1) ∧
  RunsOp .sysResetCtrl 0 1 (cmdRow 0x0003 0 false 4 4 fwModes false)
    (fun p _ => u8 p.params 0 = 1 ∧ zeroAt p.params 1 3 = true) (fun p u => (u.reply p 0x0003 stOK []).ctrlReset) ∧
  (let sp := cmdRow 0x0010 0 true 4 4 idleModes true
   let fits (p : Packet) (u : State) : Prop := u8 p.params 0 ≤ 3 ∧ u8 p.params 1 ≤ 2 ∧ zeroAt p.params 2 2 = true ∧
     u.overBudget (u8 p.params 0) = none ∧ u.formatPort (u8 p.params 0) = none ∧ u.formatStream (u8 p.params 0) = none ∧
     u.fxTooFast (folioOf (u8 p.params 1)) (rateHz (u8 p.params 0)) = none
   Answers .renderFormatSet sp
     (fun p u => fits p u ∧ (u.firLoaded = false ∨ folioOf (u8 p.params 1) = u.folioLen))
     (fun p u => u.applyFormat (u8 p.params 0) (u8 p.params 1)) noResult ∧
   Accepts .renderFormatSet sp (fun p u => fits p u ∧ u.firLoaded = true ∧ folioOf (u8 p.params 1) ≠ u.folioLen)
     noEffect (fun p _ => [u8 p.params 0, u8 p.params 1]))

/-- Bulk transfers (R591) act on DRAM that is present and not reserved: `BULK_WRITE` stores its bytes, `BULK_READ` returns
them where none is poisoned, and `BULK_CRC` answers at once up to 16 MiB and as a long operation beyond. -/
def Obligations.BulkTransfersComplete : Prop :=
  Answers .bulkWrite { cmdRow 0x00F0 0 true 9 8200 fwModes false with logs := true }
    (fun p u => u.dramFree (u64 p.params 0) (p.params.length - 8) = true)
    (fun p u => u.busWrite (u64 p.params 0) (p.params.drop 8)) noResult ∧
  (let sp := cmdRow 0x00F1 2 false 16 16 fwModes false
   Answers .bulkRead sp
     (fun p u => 1 ≤ u32 p.params 8 ∧ u32 p.params 8 ≤ 8192 ∧ zeroAt p.params 12 4 = true ∧
       u.dramFree (u64 p.params 0) (u32 p.params 8) = true ∧ u.poisonIn (u64 p.params 0) (u32 p.params 8) = none)
     noEffect (fun p u => u.rdBytes (u64 p.params 0) (u32 p.params 8))) ∧
  (let sp := cmdRow 0x00F2 2 false 16 16 fwModes false
   let named (p : Packet) (u : State) : Prop := 1 ≤ u32 p.params 8 ∧ zeroAt p.params 12 4 = true ∧
     u.dramFree (u64 p.params 0) (u32 p.params 8) = true
   Answers .bulkCrc sp
     (fun p u => named p u ∧ u32 p.params 8 ≤ 16 * 2 ^ 20 ∧ u.poisonIn (u64 p.params 0) (u32 p.params 8) = none)
     noEffect (fun p u => by4 (crc32 (u.rdBytes (u64 p.params 0) (u32 p.params 8)))) ∧
   Accepts .bulkCrc sp (fun p u => named p u ∧ 16 * 2 ^ 20 < u32 p.params 8) noEffect
     (fun p _ => [u64 p.params 0, u32 p.params 8]))

/-- `SEC_FUSE_PROGRAM` (R618): in SERVICE, with its confirmation, each op blows its fuse, sets `SEC_IRQ_STAT.FUSE` and
logs event 0x1802; a fuse already blown is left alone. Op 4 keeps the running image's key and one key unrevoked; op 5
programs an index once. -/
def Obligations.FusesBlow : Prop :=
  let sp := cmdRow 0x0E04 0 false 8 56 [mSERVICE] false
  let named (p : Packet) (op len : Nat) : Prop := p.params.length = len ∧ u8 p.params 0 = op ∧ u8 p.params 1 ≤ 3 ∧
    zeroAt p.params 2 2 = true ∧ u32 p.params 4 = 0x46555345
  let blown (u : State) (o : Otp) : State :=
    if o = u.otp then u else (({ u with otp := o } : State).irq Reg.SEC_IRQ_STAT Fl.SEC_IRQ_STAT_FUSE).logEventFree 0x1802 0
  AnswersOp .fuseAuthHsp 0 0 sp (fun p _ => named p 0 8) (fun _ u => blown u { u.otp with authHsp := true }) noResult ∧
  AnswersOp .fuseAuthTwi 0 1 sp (fun p _ => named p 1 8) (fun _ u => blown u { u.otp with authTwi := true }) noResult ∧
  AnswersOp .fuseJtagLock 0 2 sp (fun p _ => named p 2 8) (fun _ u => blown u { u.otp with jtagLock := true }) noResult ∧
  AnswersOp .fuseDbgOff 0 3 sp (fun p _ => named p 3 8) (fun _ u => blown u { u.otp with dbgOff := true }) noResult ∧
  AnswersOp .fuseRevokeKey 0 4 sp
    (fun p u => named p 4 8 ∧ u.otp.revoke.testBit (u8 p.params 1) = false ∧ u8 p.params 1 ≠ u.sys.firm.keyIdx ∧
      ∃ j, j ≤ 3 ∧ j ≠ u8 p.params 1 ∧ (Tab.look u.otp.keyHash j).isSome = true ∧ u.otp.revoke.testBit j = false)
    (fun p u => blown u { u.otp with revoke := setBitN u.otp.revoke (u8 p.params 1) true }) noResult ∧
  AnswersOp .fuseKeyHash 0 5 sp (fun p u => named p 5 56 ∧ Tab.look u.otp.keyHash (u8 p.params 1) = none)
    (fun p u => blown u { u.otp with keyHash := Tab.put u.otp.keyHash (u8 p.params 1) (slice p.params 8 48) }) noResult

/-- Images and the scene journal (R85, R239, R608 to R612, R623): layouts and filter sets load, and firmware is committed,
as long operations, on a container whose header names its type and length; the rest is done at once. A commit leaves for
UPDATE, from STANDBY fenced, with the marker of the slot it will write erased where the image verifies. -/
def Obligations.ImagesAndJournalComplete : Prop :=
  let loads (i : Packet → Instr) (sp : CmdSpec) (ty : Nat) : Prop :=
    Accepts i sp (fun p u => zeroAt p.params 12 4 = true ∧ u.imageNamed (u64 p.params 0) (u32 p.params 8) ty = none) noEffect
      (fun p _ => [u64 p.params 0, u32 p.params 8])
  loads .layoutLoad (cmdRow 0x0401 0 true 16 16 idleModes true) itLAYOUT ∧
  loads .firLoad (cmdRow 0x0801 0 true 16 16 firModes true) itFIR ∧
  Accepts .imageCommit (cmdRow 0x0E01 0 false 16 16 [mIDLE, mSERVICE, mSTANDBY] false)
    (fun p u => u8 p.params 12 ≤ 1 ∧ zeroAt p.params 13 3 = true ∧
      u.imageNamed (u64 p.params 0) (u32 p.params 8) itFIRMWARE = none)
    (fun p u =>
      let t := (if u.mode = mSTANDBY then ({ u with sys.updateFrom := u.mode } : State).setPstate psFENCED
        else { u with sys.updateFrom := u.mode }).setMode mUPDATE
      if (u.fetchImage (u64 p.params 0) (u32 p.params 8)).toOption.isSome then t.eraseMarker t.targetSlot else t)
    (fun p u => [u64 p.params 0, u32 p.params 8, b2n (u8 p.params 12 == 1 || u.mode == mSTANDBY)]) ∧
  Answers .imageQuery (cmdRow 0x0E02 2 false 0 0 fwModes false) always noEffect
    (fun _ u => u.viewBytes [Reg.SYS_BOOT_STAT] ++ [0, 1].flatMap (fun x =>
      by1 (b2n (u.bootable x)) ++ by1 (u.tries x) ++ by2 (uliCompat (u.rdBytes (slotBase x) 512)) ++
        by4 (uliBuild (u.rdBytes (slotBase x) 512)) ++ by4 (uliSecVer (u.rdBytes (slotBase x) 512)))) ∧
  Answers .imageFloorRaise (cmdRow 0x0E03 0 false 0 0 [mSERVICE] false) always
    (fun _ u => { u with otp.floor := u.otp.floor ||| (2 ^ min u.sys.firm.secVer 64 - 1) }) noResult ∧
  Accepts .journalSave { cmdRow 0x0E10 0 true 0 0 fwModes false with logs := true } always noEffect (fun _ _ => []) ∧
  Answers .journalQuery (cmdRow 0x0E11 2 false 0 0 fwModes false) always noEffect
    (fun _ u => by4 u.jnl.recs.length ++ by4 u.jnlBytes ++ by2 u.unsavedImages.length ++ by2 0 ++ by8 u.jnl.savedAt) ∧
  Answers .journalCfgSet { cmdRow 0x0E12 0 true 4 4 fwModes false with logs := true }
    (fun p _ => rsvOk Reg.SYS_JNL_CFG (u32 p.params 0) = true ∧ bitsN (u32 p.params 0) 15 8 ≠ 0)
    (fun p u => { u.wr Reg.SYS_JNL_CFG (u32 p.params 0) with jnl.cfg := some (u32 p.params 0) }) noResult ∧
  Answers .journalClear { cmdRow 0x0E13 0 true 0 0 idleModes false with logs := true } always
    (fun _ u => { u with jnl.recs := [], jnl.unsaved := [] }) noResult ∧
  Answers .bootLoad (cmdRow 0x0E20 0 false 9 8200 [] false)
    (fun p _ => zeroAt p.params 4 4 = true ∧ u32 p.params 0 + (p.params.length - 8) ≤ stagingSize)
    (fun p u => u.busWrite (0x1000000 + u32 p.params 0) (p.params.drop 8)) noResult ∧
  Answers .bootGo (cmdRow 0x0E21 0 false 8 8 [] false)
    (fun p u => zeroAt p.params 4 4 = true ∧ u32 p.params 0 ≤ stagingSize ∧
      containerErr (u.rdBytes 0x1000000 512) (u32 p.params 0) itFIRMWARE = none ∧
      u.verifies (u.rdBytes 0x1000000 (u32 p.params 0)) = true)
    (fun p u =>
      let t := (u.copyFirmware (u.rdBytes 0x1000000 (u32 p.params 0))).setMode mBOOT
      { t with sys.firm := { t.sys.firm with waitHsp := false, goPending := true } }) noResult

/-- Every statistics command returns the counters of its block, four bytes each, and clears every counter it returns (R73,
R125, R146, R187 and the command tables of the other blocks). -/
def Obligations.StatisticsReturnAndClear : Prop :=
  let counts (i : Packet → Instr) (op : Nat) (regs : List Nat) : Prop :=
    Answers i (cmdRow op 2 false 0 0 fwModes false) always (fun _ u => regs.foldl (fun u a => u.wr a 0) u)
      (fun _ u => regs.flatMap (fun a => by4 (u.rd a)))
  let words (a n : Nat) : List Nat := (List.range n).map (fun k => a + 4 * k)
  counts .pwrStats 0x0104 pwrCounters ∧ counts .clkStats 0x0207 clkCounters ∧ counts .ptpStats 0x0213 ptpCounters ∧
  counts .strmStats 0x0314 strmCounters ∧ counts .omsStats 0x0406 (words 0x40800040 13) ∧ counts .geoStats 0x0505 (words 0x40900060 8) ∧
  counts .geoRaStats 0x0508 (words 0x40900080 8) ∧ counts .fabStats 0x0603 (words 0x40A00040 11) ∧ counts .outStats 0x070B outCounters ∧
  counts .convStats 0x0806 convCounters ∧ counts .measStats 0x0908 measCounters ∧ counts .mixStats 0x0A0B mixCounters ∧
  counts .tdmStats 0x0B04 tdmCounters ∧ counts .pairStats 0x0C07 pairCounters ∧ counts .fxStats 0x0D04 fxcCounters ∧
  counts .stblStats 0x1006 stblCounters ∧ counts .spnStats 0x0F44 spnCounters ∧ counts .memStats 0x0F55 memCounters ∧
  counts .dmcStats 0x0F65 dmcCounters

/-- The power commands (R635, R643): a domain is woken, put in retention, switched off or reset; one that is not idle
drains first and its reply waits for the drain. AON and SAFE are not timed, and CTRL and DRAM are not switched off. -/
def Obligations.PowerCommandsComplete : Prop :=
  let sp := cmdRow 0x0101 0 false 4 4 fwModes false
  let named (p : Packet) (u : State) (op : Nat) : Prop := u8 p.params 1 = op ∧ zeroAt p.params 2 2 = true ∧
    2 ≤ u8 p.params 0 ∧ u.timed (u8 p.params 0) = true ∧ (op = 2 → u8 p.params 0 ≠ dCTRL ∧ u8 p.params 0 ≠ dDRAM) ∧
    (1 ≤ op → u.planeHolds (u8 p.params 0) = false)
  let st (p : Packet) (u : State) : Nat := u.domState (u8 p.params 0)
  let drains (p : Packet) (u : State) (goal : Nat) : State :=
    { u.setDom (u8 p.params 0) pDRAIN with pwr.drain := some ⟨u8 p.params 0, goal, u.now⟩ }
  AnswersOp .pwrDomOn 1 0 sp (fun p u => named p u 0) (fun p u => u.wake (u8 p.params 0) true) noResult ∧
  AnswersOp .pwrDomRet 1 1 sp (fun p u => named p u 1 ∧ (st p u = pRET ∨ st p u = pOFF)) noEffect noResult ∧
  AnswersOp .pwrDomRet 1 1 sp
    (fun p u => named p u 1 ∧ st p u ≠ pRET ∧ st p u ≠ pOFF ∧ u.idle (u8 p.params 0) = true ∧ u8 p.params 0 ≠ dCTRL)
    (fun p u => u.enterRet (u8 p.params 0)) noResult ∧
  RunsOp .pwrDomRet 1 1 sp
    (fun p u => named p u 1 ∧ st p u ≠ pRET ∧ st p u ≠ pOFF ∧ (u.idle (u8 p.params 0) = false ∨ u8 p.params 0 = dCTRL))
    (fun p u => (drains p u pRET).holding sp p 2 (u8 p.params 0)) ∧
  AnswersOp .pwrDomOff 1 2 sp (fun p u => named p u 2 ∧ st p u = pOFF) noEffect noResult ∧
  AnswersOp .pwrDomOff 1 2 sp
    (fun p u => named p u 2 ∧ (st p u = pRET ∨ (st p u ≠ pOFF ∧ u.idle (u8 p.params 0) = true)))
    (fun p u => u.enterOff (u8 p.params 0)) noResult ∧
  RunsOp .pwrDomOff 1 2 sp (fun p u => named p u 2 ∧ st p u ≠ pRET ∧ st p u ≠ pOFF ∧ u.idle (u8 p.params 0) = false)
    (fun p u => (drains p u pOFF).holding sp p 2 (u8 p.params 0)) ∧
  AnswersOp .pwrDomReset 1 3 sp (fun p u => named p u 3 ∧ u8 p.params 0 ≠ dCTRL)
    (fun p u => u.resetDomain (u8 p.params 0)) noResult ∧
  RunsOp .pwrDomReset 1 3 sp (fun p u => named p u 3 ∧ u8 p.params 0 = dCTRL)
    (fun p u => (u.reply p 0x0101 stOK []).ctrlReset) ∧
  (let cfgOk (p : Packet) (u : State) : Prop := zeroAt p.params 1 3 = true ∧ u8 p.params 0 ≤ 18 ∧
     domainPresent u.otp.grade (u8 p.params 0) = true ∧ rsvOk (Reg.PWR_DOM_CFG (u8 p.params 0)) (u32 p.params 4) = true ∧
     rsvOk (Reg.PWR_DOM_OFFT (u8 p.params 0)) (u32 p.params 8) = true ∧ rsvOk Reg.PWR_CFG (u32 p.params 12) = true ∧
     bitsN (u32 p.params 4) 23 0 ≤ 10000000 ∧ u32 p.params 8 ≤ 600000 ∧ bitsN (u32 p.params 12) 15 0 ≤ 10000
   let sp := cmdRow 0x0102 0 false 16 16 fwModes true
   Answers .pwrCfgSet sp (fun p u => cfgOk p u ∧ u8 p.params 0 < 2) (fun p u => u.wr Reg.PWR_CFG (u32 p.params 12))
     noResult ∧
   Answers .pwrCfgSet sp (fun p u => cfgOk p u ∧ 2 ≤ u8 p.params 0)
     (fun p u =>
       let c := if u8 p.params 0 = dCTRL ∨ u8 p.params 0 = dDRAM then setBitN (u32 p.params 4) 30 false else u32 p.params 4
       ((u.wr (Reg.PWR_DOM_CFG (u8 p.params 0)) c).wr (Reg.PWR_DOM_OFFT (u8 p.params 0)) (u32 p.params 8)).wr Reg.PWR_CFG
         (u32 p.params 12)) noResult) ∧
  Answers .pwrQuery (cmdRow 0x0103 2 false 0 0 fwModes false) always noEffect
    (fun _ u => u.viewBytes (Reg.PWR_STAT :: (List.range 19).map Reg.PWR_DOM_STAT)) ∧
  Answers .rtcSet (cmdRow 0x0105 0 false 16 16 (fwModes ++ [mSAFE]) false)
    (fun p _ => u64 p.params 0 < 2 ^ 48 ∧ zeroAt p.params 12 4 = true)
    (fun p u => ({ u with pwr.rtc := u64 p.params 0, pwr.rtcNow := u.now } : State).wr Reg.PWR_RTC_ALARM (u32 p.params 8))
    noResult

/-- The clock and time commands (R392, R397, R400, R406, R411). -/
def Obligations.ClockCommandsComplete : Prop :=
  let v (p : Packet) (k : Nat) : Nat := u32 p.params (4 * k)
  Answers .clkCfgSet (cmdRow 0x0201 0 true 12 12 fwModes true) (fun p _ => clkCfgOk (v p 0) (v p 1) (v p 2) = true)
    (fun p u => ((u.wr Reg.CLK_CFG (v p 0)).wr Reg.CLK_DPLL (v p 1)).wr Reg.CLK_QUAL (v p 2)) noResult ∧
  (let sp := cmdRow 0x0202 0 true 8 8 fwModes true
   let named (p : Packet) : Prop := zeroAt p.params 1 3 = true ∧ rsvOk (Reg.CLK_REF_CFG (u8 p.params 0)) (v p 1) = true ∧
     bitsN (v p 1) 26 24 ≠ 7
   let put (p : Packet) (u : State) : State := u.wr (Reg.CLK_REF_CFG (u8 p.params 0)) (v p 1)
   let stat (p : Packet) (u : State) : Nat := (put p u).fld (Reg.CLK_REF_STAT (u8 p.params 0)) Fl.CLK_REF_STAT_STATE
   Answers .clkRefSet sp (fun p _ => named p ∧ u8 p.params 0 = 5)
     (fun p u => u.wr (Reg.CLK_REF_CFG 5) (setBitN (v p 1) 31 true)) noResult ∧
   Answers .clkRefSet sp (fun p _ => named p ∧ u8 p.params 0 < 5 ∧ (v p 1).testBit 31 = false)
     (fun p u => (put p u).setRefState (u8 p.params 0) rsDIS) noResult ∧
   Answers .clkRefSet sp (fun p u => named p ∧ u8 p.params 0 < 5 ∧ (v p 1).testBit 31 = true ∧ stat p u = rsDIS)
     (fun p u => (put p u).setRefState (u8 p.params 0) rsLOST) noResult ∧
   Answers .clkRefSet sp (fun p u => named p ∧ u8 p.params 0 < 5 ∧ (v p 1).testBit 31 = true ∧ stat p u ≠ rsDIS) put
     noResult) ∧
  Answers .clkSelect (cmdRow 0x0203 1 true 4 4 fwModes true) (fun p _ => v p 0 ≤ 5 ∨ v p 0 = 14 ∨ v p 0 = 15)
    (fun p u => { u.wr Reg.CLK_SEL (v p 0) with clk.dirty := true }) noResult ∧
  (let sp := cmdRow 0x0204 0 true 8 8 fwModes true
   let w (p : Packet) : Int := toS 64 (u64 p.params 0)
   let named (p : Packet) (u : State) : Prop := u.fld Reg.CLK_SEL Fl.CLK_SEL_MANUAL = 14 ∧ -dcoMax ≤ w p ∧ w p ≤ dcoMax
   Answers .clkDcoSet sp (fun p u => named p u ∧ u.planeOn = true)
     (fun p u => { u with clk.slewFrom := u.dcoWord, clk.slewAt := u.now, clk.word := w p }) noResult ∧
   Answers .clkDcoSet sp (fun p u => named p u ∧ u.planeOn = false) (fun p u => u.putWord (w p)) noResult ∧
   Runs .clkDcoSet sp (fun _ u => u.fld Reg.CLK_SEL Fl.CLK_SEL_MANUAL ≠ 14)
     (fun p u => u.reply p 0x0204 stNOT_IN_MODE [])) ∧
  Answers .clkOutSet (cmdRow 0x0205 0 true 4 4 fwModes true) (fun p u => u.clkOutOk (v p 0) = true)
    (fun p u => u.wr Reg.CLK_OUT_CFG (v p 0)) noResult ∧
  Answers .clkQuery (cmdRow 0x0206 2 false 0 0 fwModes false) always noEffect
    (fun _ u => by4 (u.liveClk Reg.CLK_STAT) ++ by4 (u.rd Reg.CLK_PHASE_ERR) ++ by4 u.mtErr ++ by8 (ofS 64 u.dcoWord) ++
      (List.range 6).flatMap (fun r => by4 (u.liveClk (Reg.CLK_REF_STAT r)))) ∧
  (let sp := cmdRow 0x0210 0 true 16 16 fwModes true
   let named (p : Packet) : Prop := zeroAt p.params 1 3 = true ∧ ptpCfgOk (v p 1) (v p 2) (v p 3) = true
   let put (c q i : Nat) (u : State) : State :=
     (((u.wr Reg.PTP_CFG c).wr Reg.PTP_PRIO q).wr Reg.PTP_INTV i).ptpApply (u.flag Reg.PTP_CFG Fl.PTP_CFG_EN)
   Answers .ptpCfgSet sp (fun p _ => named p ∧ u8 p.params 0 = 0) (fun p u => put (v p 1) (v p 2) (v p 3) u) noResult ∧
   Answers .ptpCfgSet sp (fun p _ => named p ∧ u8 p.params 0 = 1)
     (fun p u =>
       let d := profileDefaults (bitsN (v p 1) 31 30)
       put (setBitsN (v p 1) 15 8 d.1) (v p 2) d.2 u) noResult) ∧
  Answers .ptpRelock { cmdRow 0x0211 0 true 0 0 relockModes false with logs := true } always
    (fun _ u => u.setFlag Reg.PTP_STAT Fl.PTP_STAT_RELOCK_ARMED true) noResult ∧
  Answers .ptpQuery (cmdRow 0x0212 2 false 0 0 fwModes false) always noEffect
    (fun _ u => by4 (u.rd Reg.PTP_STAT) ++ u.localBytes ++ by4 (u.rd Reg.PTP_OFFSET) ++ by4 (u.rd Reg.PTP_MPD) ++
      by4 (u.rd Reg.PTP_RATE) ++ by4 (u.rd Reg.PTP_GM_HI) ++ by4 (u.rd Reg.PTP_GM_LO))

/-- The network port commands (R344, R358): ports 0 and 1 take a speed of 0 or 1, the management port 2 one of 0 to 2;
fields a port lacks ignore writes; a change of speed or FEC takes the link down and PTP follows the port it runs on; a
change of the longest frame judges the frame that arrives by the longest before. Rules are staged and committed together; a
management frame's reply waits for its end. -/
def Obligations.NetworkCommandsComplete : Prop :=
  (let m (p : Packet) : Nat := u8 p.params 0
   let cfg (p : Packet) : Nat := u32 p.params 4
   let adj (p : Packet) : Nat := u32 p.params 8
   let speed (p : Packet) : Nat := bitsN (cfg p) 19 18
   let ok (p : Packet) : Prop := zeroAt p.params 1 3 = true ∧ rsvOk (Reg.MAC_CFG 0) (cfg p) = true ∧
     1518 ≤ bitsN (cfg p) 13 0 ∧ bitsN (cfg p) 13 0 ≤ 9216 ∧ bitsN (adj p) 15 2 ≠ 8192
   let sp := cmdRow 0x0301 0 false 12 12 fwModes true
   let stored (p : Packet) : Nat := if m p = 2 then setBitN (cfg p) 16 false else setBitN (cfg p) 17 false
   let put (p : Packet) (u : State) : State :=
     let t := if bitsN (cfg p) 13 0 = u.fld (Reg.MAC_CFG (m p)) Fl.MAC_CFG_MAX_LEN then u else u.macKeep (m p)
     (t.wr (Reg.MAC_CFG (m p)) (stored p)).wr (Reg.MAC_TS_ADJ (m p)) (if m p = 2 then adj p else setBitsN (adj p) 1 0 0)
   let moves (p : Packet) (u : State) : Prop := speed p ≠ u.macSpeed (m p) ∨
     (stored p).testBit 16 ≠ u.flag (Reg.MAC_CFG (m p)) Fl.MAC_CFG_FEC
   let good (p : Packet) : Prop := ok p ∧ ((m p ≤ 1 ∧ speed p ≤ 1) ∨
     (m p = 2 ∧ speed p ≤ 2 ∧ ((cfg p).testBit 17 = true → speed p ≠ 2) ∧ bitsN (cfg p) 28 24 < 8))
   Answers .netPortSet sp (fun p u => good p ∧ ¬ moves p u) put noResult ∧
   Answers .netPortSet sp (fun p u => good p ∧ moves p u) (fun p u => ((put p u).setUp (m p) false).ptpFollowPort) noResult) ∧
  (let ws (p : Packet) : List Nat := (List.range 6).map (fun i => u32 p.params (4 + 4 * i))
   Answers .netRuleSet (cmdRow 0x0302 0 false 28 28 fwModes true)
     (fun p _ => u8 p.params 0 ≤ 2 ∧ u8 p.params 1 < macFwRule (u8 p.params 0) ∧ u16 p.params 2 = 0 ∧
       (∀ i, i < 6 → rsvOk (Reg.MAC_RULE_CTL 0 0 + 4 * i) (u32 p.params (4 + 4 * i)) = true) ∧
       bitsN (u32 p.params 4) 4 0 < macRxQueues (u8 p.params 0))
     (fun p u => { u with mac.staged := Tab.put u.mac.staged (32 * u8 p.params 0 + u8 p.params 1) (ws p) }) noResult) ∧
  Answers .netRuleCommit (cmdRow 0x0303 0 false 4 4 fwModes true)
    (fun p _ => u8 p.params 0 < 8 ∧ zeroAt p.params 1 3 = true)
    (fun p u => forRange 0 3 (fun m u => if (u8 p.params 0).testBit m then u.ruleSwap m else u) u) noResult ∧
  Answers .netTxqSet (cmdRow 0x0304 0 false 8 8 fwModes true)
    (fun p _ => u8 p.params 0 ≤ 2 ∧ u8 p.params 1 < macTxQueues (u8 p.params 0) ∧ u16 p.params 2 = 0 ∧
      u32 p.params 4 % 2 ^ 28 = 0)
    (fun p u => u.cfgWrite (Reg.MAC_TXQ (u8 p.params 0) (u8 p.params 1)) (u32 p.params 4)) noResult ∧
  Answers .netLinkQuery (cmdRow 0x0305 2 false 4 4 fwModes false) (fun p _ => u8 p.params 0 ≤ 2 ∧ zeroAt p.params 1 3 = true)
    noEffect
    (fun p u => by4 (u.liveMac (Reg.MAC_CFG (u8 p.params 0))) ++ (by4 (u.liveMac (Reg.MAC_LINK_STAT (u8 p.params 0))) ++
      (by4 (u.liveMac (Reg.MAC_PAUSE_STAT (u8 p.params 0))) ++ by4 (u.liveMac (Reg.MAC_TXTS_STAT (u8 p.params 0)))))) ∧
  Answers .netStats (cmdRow 0x0306 2 false 4 4 fwModes false) (fun p _ => u8 p.params 0 ≤ 2 ∧ zeroAt p.params 1 3 = true)
    (fun p u =>
      let t := u.macSettle (u8 p.params 0)
      { t with mac.stats := t.mac.stats.filter (fun e => e.1 / 32 != u8 p.params 0) })
    (fun p u => (List.range 23).flatMap (fun k =>
      by8 (Tab.at (u.macSettle (u8 p.params 0)).mac.stats 0 (32 * u8 p.params 0 + k)))) ∧
  (let sp := cmdRow 0x0307 0 false 8 8 fwModes true
   let v (p : Packet) : Nat := u32 p.params 4
   Runs .netMdio sp
     (fun p _ => u8 p.params 0 = 2 ∧ zeroAt p.params 1 3 = true ∧ rsvOk (Reg.MAC_MDIO 2) (v p) = true ∧
       (v p).testBit 31 = true ∧ ((v p).testBit 30 = true → bitsN (v p) 29 28 ≠ 2) ∧
       ((v p).testBit 30 = false → bitsN (v p) 29 28 = 1 ∨ bitsN (v p) 29 28 = 2))
     (fun p u => (u.mdioGo (v p)).holding sp p 1 0))

/-- The stream commands (R377, R384): a stream is set where its descriptor is good and the unit has room for it and its
channels, is removed from the next folio on, and is queried, which clears what the query counted. Removing a stream that
is absent answers `OK` and is not recorded. -/
def Obligations.StreamCommandsComplete : Prop :=
  (let sp := cmdRow 0x0310 0 true 84 84 fwModes true
   let n (p : Packet) : Nat := u16 p.params 0
   AnswersOp .strmRxSet 2 0 sp
     (fun p u => u8 p.params 2 = 0 ∧ n p < 256 ∧ u.rxOk (n p) p.params = true ∧ (u.rxUse (n p)).1 + 1 ≤ u.limit 5 ∧
       (u.rxUse (n p)).2 + (rxCfgOf p.params).chans ≤ u.limit 7)
     (fun p u => ((u.setRx (n p) (RxStream.init (rxCfgOf p.params) (u.slot + 1) (u.rxPast (n p)))).legsOff (n p)).reserveNew
       (ownRing (n p)) (rxCfgOf p.params).ringBytes) noResult ∧
   (∀ x : RxStream, AnswersOp .strmRxRemove 2 1 sp
     (fun p u => u8 p.params 2 = 1 ∧ n p < 256 ∧ Tab.look u.strm.rx (n p) = some x ∧ x.gone = none)
     (fun p u => (u.setRx (n p) { x with gone := some (u.slot + 1) }).unreserve (ownRing (n p))) noResult) ∧
   RunsOp .strmRxRemove 2 1 sp
     (fun p u => u8 p.params 2 = 1 ∧ n p < 256 ∧ ∀ x, Tab.look u.strm.rx (n p) = some x → x.gone.isSome = true)
     (fun p u => u.reply p 0x0310 stOK [])) ∧
  (let sp := cmdRow 0x0311 0 true 64 64 fwModes true
   let n (p : Packet) : Nat := u16 p.params 0
   let there (p : Packet) (u : State) : Bool := (Tab.at u.strm.tx ⟨[], 0, 0⟩ (n p)).now.isSome
   AnswersOp .strmTxSet 2 0 sp
     (fun p u => u8 p.params 2 = 0 ∧ n p < 256 ∧ u.txOk p.params = true ∧ (u.txUse (n p)).1 + 1 ≤ u.limit 6 ∧
       (u.txUse (n p)).2 + (txCfgOf p.params).chans ≤ u.limit 8)
     (fun p u => u.setTx (n p) (some (txCfgOf p.params))) noResult ∧
   AnswersOp .strmTxRemove 2 1 sp (fun p u => u8 p.params 2 = 1 ∧ n p < 256 ∧ there p u = true)
     (fun p u => u.setTx (n p) none) noResult ∧
   RunsOp .strmTxRemove 2 1 sp (fun p u => u8 p.params 2 = 1 ∧ n p < 256 ∧ there p u = false)
     (fun p u => u.reply p 0x0311 stOK [])) ∧
  (∀ x : RxStream, Answers .strmRxQuery (cmdRow 0x0312 2 false 4 4 fwModes false)
    (fun p u => u16 p.params 2 = 0 ∧ Tab.look u.strm.rx (u16 p.params 0) = some x ∧ x.gone = none)
    (fun p u =>
      let t := ((u.marginWord x.a.margin).2.marginWord x.b.margin).2
      let clr (g : Leg) : Leg := { g with margin := none, pkts := 0, lost := 0 }
      t.setRx (u16 p.params 0) { x with a := clr x.a, b := clr x.b, offErr := false, subst := 0, lates := 0 })
    (fun _ u =>
      by4 (b2n x.a.active + 2 * b2n x.b.active + 4 * b2n x.offErr) ++ by4 (x.a.ssrc.getD 0) ++ by4 (x.b.ssrc.getD 0) ++
        (u.marginWord x.a.margin).1 ++ ((u.marginWord x.a.margin).2.marginWord x.b.margin).1 ++ si4 (satS 32 x.skew) ++
        by4 x.a.pkts ++ by4 x.b.pkts ++ by4 x.a.lost ++ by4 x.b.lost ++ by4 x.subst ++ by4 x.lates)) ∧
  Answers .strmTxQuery (cmdRow 0x0313 2 false 4 4 fwModes false)
    (fun p u => u16 p.params 2 = 0 ∧ (Tab.at u.strm.tx ⟨[], 0, 0⟩ (u16 p.params 0)).now.isSome = true) noEffect
    (fun p u =>
      let x := Tab.at u.strm.tx ⟨[], 0, 0⟩ (u16 p.params 0)
      (x.now.map (·.raw)).getD [] ++ by4 x.queued ++ by4 x.nores)

/-- Objects and object metadata are configured and queried (R69 to R72, R74, R145): a slot is created with its
pages and its FIFO's DRAM, resized from the next folio while it is INACTIVE, or only given another quota; it is removed
from the next folio, only while INACTIVE; a binding acts from the next folio. -/
def Obligations.ObjectCommandsComplete : Prop :=
  (let sp := cmdRow 0x0402 0 true 8 8 fwModes true
   let k (p : Packet) : Nat := u16 p.params 0
   let q (p : Packet) : Nat := u8 p.params 2
   let c (p : Packet) : Nat := u8 p.params 3
   let others (p : Packet) (u : State) := u.oms.slots.filter (fun o => o.1 != k p)
   let fits (p : Packet) (u : State) : Prop := k p ≤ 1023 ∧ 1 ≤ q p ∧ q p ≤ 64 ∧ c p ≤ 4 ∧ zeroAt p.params 4 4 = true ∧
     ((others p u).map (fun o => o.2.quota)).sum + q p ≤ u.limit 2 ∧
     ((others p u).map (fun o => classLen o.2.cls)).sum + classLen (c p) ≤ u.limit 3
   let put (p : Packet) (u : State) (o : Slot) : State :=
     { u.setSlot (k p) { o with quota := q p } with plan.quotas := Tab.put u.plan.quotas (k p) (q p) }.reserve
       (ownFifo (k p)) fifoBytes
   Answers .objConfig sp
     (fun p u => fits p u ∧ u.slotAt (k p) = none ∧ (others p u).length + 1 ≤ u.limit 0)
     (fun p u => put p u (Slot.init (u.slot + 1) (q p) (c p) (u.freePages (2 ^ c p)))) noResult ∧
   (∀ o : Slot, Answers .objConfig sp (fun p u => fits p u ∧ u.slotAt (k p) = some o ∧ o.cls = c p)
     (fun p u => put p u o) noResult) ∧
   (∀ o : Slot, Answers .objConfig sp (fun p u => fits p u ∧ u.slotAt (k p) = some o ∧ o.cls ≠ c p ∧ o.state = 0)
     (fun p u =>
       let ps := (u.setSlot (k p) { o with pages := [] }).freePages (2 ^ c p)
       put p u { o with cls := c p, pages := ps, was := o.was ++ [(u.slot + 1, o.cls, o.pages)] })
     noResult)) ∧
  (∀ o : Slot, Answers .objDeconfig (cmdRow 0x0403 0 true 4 4 fwModes true)
    (fun p u => zeroAt p.params 2 2 = true ∧ u.slotAt (u16 p.params 0) = some o ∧ o.state = 0)
    (fun p u => u.departs (u16 p.params 0) o (u.slot + 1)) noResult) ∧
  (∀ (o : Slot) (b : Binding), Answers .objBind { cmdRow 0x0404 1 true 30 30 fwModes true with journ := false }
    (fun p u => u.slotAt (u16 p.params 0) = some o ∧ decodeBinding (slice p.params 2 28) = some b)
    (fun p u => u.setSlot (u16 p.params 0) (o.bind (u.slot + 1) b)) noResult) ∧
  (∀ o : Slot, Answers .objQuery (cmdRow 0x0405 2 false 2 2 fwModes false)
    (fun p u => u.slotAt (u16 p.params 0) = some o) noEffect
    (fun p u =>
      let b := o.bindAt u.slot
      by4 (u.objStat (u16 p.params 0)) ++ by8 o.tAct ++ by1 o.quota ++ by1 o.cls ++ by1 b.kind ++ by1 0 ++ by2 b.source ++
        by2 b.chan ++ by4 (min o.clamps 0xFFFFFFFF))) ∧
  Answers .omsCfgSet (cmdRow 0x0407 0 true 12 12 fwModes true)
    (fun p _ => rsvOk Reg.OMS_CFG (u32 p.params 0) = true ∧ rsvOk Reg.OMS_VEL (u32 p.params 4) = true)
    (fun p u => ((u.omsCfgWrite (u32 p.params 0)).wr Reg.OMS_VEL (u32 p.params 4)).wr Reg.OMS_SESSION (u32 p.params 8))
    noResult ∧
  (∀ o : Slot, Answers .geoRaQuery (cmdRow 0x0507 2 false 2 2 fwModes false)
    (fun p u => u.slotAt (u16 p.params 0) = some o) noEffect
    (fun p u =>
      by1 o.epoch ++ by1 o.advances ++ by1 (u.readyFrames (u16 p.params 0) o) ++
        by1 (b2n o.deferred + 2 * b2n o.held + 4 * b2n (decide (0 < u.glideLeft o))) ++ by2 (min o.holdRun 65535) ++
        by1 (u.glideLeft o) ++ by1 0 ++ by4 u.slot ++ by4 o.lastVis))

/-- The geometry and fabric commands (R107, R119 to R124, R185 to R188): a change of what the room looks like to the
objects discards the frames computed ahead; the queries and the dry evaluation leave everything else as it was. -/
def Obligations.GeometryCommandsComplete : Prop :=
  let v (p : Packet) (i : Nat) : Nat := u32 p.params (4 * i)
  Answers .layoutQuery (cmdRow 0x0408 2 false 0 0 fwModes false) always noEffect
    (fun _ u =>
      by4 (u.rd Reg.GEO_LAYOUT_ID) ++ by4 (u.rd Reg.GEO_LAYOUT_STAT) ++
        by2 ((u.plan.layout.map (fun l => l.tris.length)).getD 0) ++
        by2 ((u.plan.layout.map (fun l => countIf (List.range l.speakers.length)
          (fun i => u.live.spkDisabled i (l.spk i)))).getD 0) ++
        by4 ((u.plan.layout.map (·.len)).getD 0)) ∧
  Answers .geoCfgSet (cmdRow 0x0501 0 true 32 32 fwModes true)
    (fun p _ => (∀ x ∈ geoCfgRegs.zipIdx, rsvOk x.1 (v p x.2) = true) ∧ geoCfgOk (v p) = true)
    (fun p u => (geoCfgRegs.zipIdx.foldl (fun u x => u.wr x.1 (v p x.2)) u).squashAll) noResult ∧
  Answers .geoTempSet (cmdRow 0x0502 1 true 4 4 fwModes true)
    (fun p _ => inRange (i16 p.params 0) (-2000) 5000 = true ∧ zeroAt p.params 2 2 = true)
    (fun p u => (u.setFld Reg.GEO_CFG Fl.GEO_CFG_SOUND_MPS (soundAt (i16 p.params 0))).squashAll)
    (fun p _ => by2 (soundAt (i16 p.params 0))) ∧
  (let sp := cmdRow 0x0503 1 true 4 4 fwModes true
   let named (p : Packet) (u : State) (op : Nat) : Prop := u16 p.params 0 < u.speakers ∧ u8 p.params 2 = op ∧
     u8 p.params 3 = 0
   AnswersOp .geoSpkDisable 2 0 sp (fun p u => named p u 0)
     (fun p u => { u with plan.spkOver := Tab.put u.plan.spkOver (u16 p.params 0) true }.squashAll) noResult ∧
   AnswersOp .geoSpkEnable 2 1 sp (fun p u => named p u 1)
     (fun p u => { u with plan.spkOver := Tab.put u.plan.spkOver (u16 p.params 0) false }.squashAll) noResult) ∧
  Answers .geoFrameQuery (cmdRow 0x0504 2 false 2 2 fwModes false)
    (fun p u => u16 p.params 0 ≤ 1023 ∧ u16 p.params 0 < u.limit 0) noEffect
    (fun p u => ((Tab.look u.oms.frames (u16 p.params 0)).map GFrame.bytes).getD
      (GFrame.bytes ⟨u.handleOf (u16 p.params 0), 0, 0, 0, flagBit ffEMPTY, []⟩)) ∧
  (∀ (o : Slot) (a : Attr), Answers .geoEval (cmdRow 0x0506 2 false 48 48 fwModes false)
    (fun p u => u.slotAt (u16 p.params 0) = some o ∧ decodeAttrBody p.params 24 = some a ∧ u16 p.params 0 < u.limit 0 ∧
      u16 p.params 2 = 0 ∧ (xyz p.params 4).within 10000000 = true ∧ levelOk (i16 p.params 16) 600 = true ∧
      u16 p.params 18 ≤ 18000 ∧ u32 p.params 20 ≤ 1000000 ∧ zeroAt p.params 40 8 = true)
    (fun _ u => u.fresh.2)
    (fun p u =>
      let pos := (xyz p.params 4).f
      let h := heldDir u.live pos V3.plusY
      let e : Eval := ⟨0, o.epoch, true, some pos, i16 p.params 16, u16 p.params 18, u32 p.params 20, a, h.1, h.2⟩
      GFrame.bytes { u.live.frame u.fs o.quota (o.gen * 1024 + u16 p.params 0) e with folio := u.fresh.1 })) ∧
  Answers .fabCfgSet (cmdRow 0x0601 0 true 4 4 fwModes true)
    (fun p _ => rsvOk Reg.FAB_CFG (v p 0) = true) (fun p u => u.wr Reg.FAB_CFG (v p 0)) noResult ∧
  (∀ o : Slot, Answers .fabObjQuery (cmdRow 0x0602 2 false 2 2 fwModes false)
    (fun p u => u.slotAt (u16 p.params 0) = some o) noEffect
    (fun _ _ => by4 o.shown.1 ++ by4 o.shown.2 ++ by1 o.cls ++ by1 o.need ++
      by1 (b2n o.clampNow + 2 * b2n o.refillDef + 4 * b2n o.held + 8 * b2n o.dopplerOn) ++ by1 0 ++ by4 o.nClamps)) ∧
  (let n (p : Packet) : Nat := if u8 p.params 1 = 0 then 256 else u8 p.params 1
   Answers .fabInterpTable (cmdRow 0x0604 2 false 2 2 fwModes false) (fun p _ => u8 p.params 0 + n p ≤ 256) noEffect
     (fun p _ => (List.range (n p)).flatMap (fun i => (interpRow (u8 p.params 0 + i)).flatMap si4)))

/-- The output commands (R190 to R218): an output is configured where its destination is free and the unit has room,
reserves the DRAM of its alignment line and convolution, and is removed; removing one that is absent answers `OK` and is not recorded. The setting commands write every configured output
of their range and nothing else. -/
def Obligations.OutputCommandsComplete : Prop :=
  (let sp := cmdRow 0x0701 0 true 16 16 fwModes true
   let o (p : Packet) : Nat := u16 p.params 0
   let cfg (p : Packet) : Nat := setBitsN (u32 p.params 4) 31 30 0
   let dest (p : Packet) : Nat := u32 p.params 8
   let named (p : Packet) (op : Nat) : Prop := u8 p.params 2 = op ∧ u8 p.params 3 = 0 ∧ zeroAt p.params 12 4 = true ∧
     o p < 512 ∧ rsvOk (Reg.OUT_CFG 0) (cfg p) = true ∧ destOk (dest p) = true
   let put (p : Packet) (u : State) : State := (u.wr (Reg.OUT_CFG (o p)) (cfg p + 2 ^ 31)).wr (Reg.OUT_DEST (o p)) (dest p)
   let kept (p : Packet) (u : State) : State :=
     ((u.reserve (ownLine (o p)) lineBytes).reserve (ownConv (o p)) convBytes).refreshHint
   AnswersOp .outConfig 2 0 sp
     (fun p u => named p 0 ∧ u.destFree (o p) (dest p) = true ∧ u.live.outConf (o p) = false ∧
       u.outputs.length + 1 ≤ u.limit 1)
     (fun p u => (kept p (put p u)).squashAll) noResult ∧
   AnswersOp .outConfig 2 0 sp (fun p u => named p 0 ∧ u.destFree (o p) (dest p) = true ∧ u.live.outConf (o p) = true)
     (fun p u => kept p (put p u)) noResult ∧
   AnswersOp .outDeconfig 2 1 sp (fun p u => named p 1 ∧ u.live.outConf (o p) = true) (fun p u => u.outRemove (o p))
     noResult ∧
   RunsOp .outDeconfig 2 1 sp (fun p u => named p 1 ∧ u.live.outConf (o p) = false)
     (fun p u => u.reply p 0x0701 stOK [])) ∧
  (let g (p : Packet) : Int := i16 p.params 4
   let d (p : Packet) : Int := i16 p.params 6
   Answers .outGainSet (cmdRow 0x0702 1 true 8 8 fwModes true)
     (fun p _ => rangeOk p.params = true ∧ gainOk (g p) = true ∧ gainOk (d p) = true)
     (fun p u => u.eachOut p.params (fun o u =>
       let t := if g p = 0x7FFF then u else u.setFld (Reg.OUT_GAIN o) Fl.OUT_GAIN_GAIN (ofS 16 (g p))
       if d p = 0x7FFF then t else t.setFld (Reg.OUT_GAIN o) Fl.OUT_GAIN_BED_GAIN (ofS 16 (d p)))) noResult) ∧
  Answers .outAlignSet (cmdRow 0x0703 1 true 8 8 fwModes true)
    (fun p _ => rangeOk p.params = true ∧ u16 p.params 4 ≤ 8192 ∧ u16 p.params 6 = 0)
    (fun p u => u.eachOut p.params (fun o u => u.wr (Reg.OUT_ALIGN o) (u16 p.params 4))) noResult ∧
  Answers .outEqSet (cmdRow 0x0704 1 true 4 8200 fwModes true)
    (fun p u => p.params.length = 4 + 48 * u8 p.params 3 ∧ u16 p.params 0 < 512 ∧ 1 ≤ u8 p.params 3 ∧
      u8 p.params 2 + u8 p.params 3 ≤ 20 ∧ u.live.outConf (u16 p.params 0) = true ∧
      (∀ i, i < u8 p.params 3 → eqRecOk p.params (4 + 48 * i) = true) ∧
      (u.autotrim (u16 p.params 0) = true → u8 p.params 2 + u8 p.params 3 ≤ 16))
    (fun p u => forRange 0 (u8 p.params 3) (fun i u => u.putEq (u16 p.params 0) (u8 p.params 2 + i)
      (if u8 p.params (4 + 48 * i) = 1 then none else some (recCoef p.params (4 + 48 * i)))) u) noResult ∧
  Answers .outLimSet (cmdRow 0x0705 0 true 8 8 fwModes true)
    (fun p _ => rangeOk p.params = true ∧ inRange (i16 p.params 4) (-4000) 2400 = true ∧ 1 ≤ u16 p.params 6 ∧
      u16 p.params 6 ≤ 5000)
    (fun p u => u.eachOut p.params (fun o u => u.wr (Reg.OUT_LIM o) (u16 p.params 4 * 65536 + u16 p.params 6))) noResult ∧
  Answers .outBmSet (cmdRow 0x0706 0 true 4 4 fwModes true)
    (fun p _ => u8 p.params 0 < 32 ∧ 40 ≤ u8 p.params 1 ∧ u8 p.params 1 ≤ 200 ∧
      (i16 p.params 2 = -32768 ∨ inRange (i16 p.params 2) (-2400) 1200 = true))
    (fun p u => u.wr (Reg.OUT_BM (u8 p.params 0)) (u16 p.params 2 * 65536 + u8 p.params 1)) noResult ∧
  (let w (p : Packet) : Nat := u16 p.params 6
   Answers .outSilSet (cmdRow 0x0707 0 true 8 8 fwModes true)
     (fun p _ => rangeOk p.params = true ∧ inRange (i16 p.params 4) (-10000) (-4000) = true ∧ bitsN (w p) 14 10 = 0 ∧
       1 ≤ bitsN (w p) 9 0 ∧ bitsN (w p) 9 0 ≤ 600)
     (fun p u => u.eachOut p.params (fun o u => u.wr (Reg.OUT_SIL o) (u16 p.params 4 * 65536 + w p))) noResult) ∧
  Answers .outAmpSet (cmdRow 0x0708 1 true 4 4 fwModes true) (fun p _ => ∀ k, k < 16 → u32 p.params 0 / 4 ^ k % 4 ≠ 3)
    (fun p u => u.wr Reg.OUT_AMP_CTRL (u32 p.params 0)) noResult ∧
  Answers .outQuery (cmdRow 0x0709 2 false 2 2 fwModes false) (fun p _ => u16 p.params 0 < 512)
    (fun p u => u.latchMon (u16 p.params 0))
    (fun p u =>
      let t := u.latchMon (u16 p.params 0)
      t.viewBytes (outWords (u16 p.params 0)) ++ by8 0 ++ by4 (t.rd Reg.OUT_MON_GR) ++ by4 (t.rd Reg.OUT_MON_PEAK)) ∧
  Answers .outEqQuery (cmdRow 0x070A 2 false 2 2 fwModes false) (fun p _ => u16 p.params 0 < 512) noEffect
    (fun p u => (List.range 20).flatMap (fun q =>
      eqRec (if u.live.outConf (u16 p.params 0) then u.live.eqAt (u16 p.params 0) q else none)))

/-- The room-correction commands (R240, R241, R255): a commit swaps the sets of its outputs at once outside the data
plane's modes and group by group as a long operation in them; a scheme is changed where the unit has room for it, with
the DRAM of its long class; an export stores a set's taps, poisoned ones as zero. -/
def Obligations.CorrectionCommandsComplete : Prop :=
  (let sp := cmdRow 0x0802 1 true 4 4 firModes true
   let plays (u : State) : Prop := u.actMode = mRENDER ∨ u.actMode = mMEASURE
   Answers .firCommit sp (fun p u => rangeOk p.params = true ∧ u.commitOuts p.params = []) (fun _ u => u.swapIrq) noResult ∧
   Answers .firCommit sp (fun p u => rangeOk p.params = true ∧ u.commitOuts p.params ≠ [] ∧ ¬ plays u)
     (fun p u => (((u.commitOuts p.params).foldl (fun u o => u.swapSets o) u).count Reg.CONV_SWAP_OUT
       (u.commitOuts p.params).length).swapIrq) noResult ∧
   Accepts .firCommit sp (fun p u => rangeOk p.params = true ∧ u.commitOuts p.params ≠ [] ∧ plays u)
     (fun p u =>
       let os := u.commitOuts p.params
       u.beginGroup ⟨chunk 64 8 os, 0, 0, (if os.any u.longOut then 16384 else 4096) / u.folioLen, 0, 1⟩ 0 (u.slot + 1))
     (fun _ _ => [0])) ∧
  (let sp := cmdRow 0x0803 0 true 8 8 firModes true
   let os (p : Packet) (u : State) : List Nat :=
     ((List.range (u16 p.params 2)).map (· + u16 p.params 0)).filter u.live.outConf
   let put (long : Bool) (p : Packet) (u : State) : State := (os p u).foldl (fun u o =>
     if (u.firOf o).long = long then u else
       let t := u.setFir o { (u.firOf o) with long := long, longFrom := (u.slot + 1) * u.folioLen }
       if long then t.reserve (ownLong o) longBytes else t.unreserve (ownLong o)) u
   let named (p : Packet) (k : Nat) : Prop := rangeOk p.params = true ∧ u8 p.params 4 = k ∧ zeroAt p.params 5 3 = true
   AnswersOp .firSchemeLong 4 1 sp (fun p u => named p 1 ∧ (put true p u).longCount ≤ u.limit 4) (put true) noResult ∧
   AnswersOp .firSchemeStandard 4 0 sp
     (fun p u => named p 0 ∧ (put false p u).longCount ≤ u.limit 4 ∧
       ∀ o ∈ os p u, (∀ x, (u.firOf o).a = some x → x.taps.length ≤ 16384) ∧
         (∀ x, (u.firOf o).b = some x → x.taps.length ≤ 16384))
     (put false) noResult) ∧
  Answers .firClear (cmdRow 0x0804 0 true 4 4 firModes true) (fun p _ => rangeOk p.params = true)
    (fun p u => u.eachOut p.params (fun o u => u.setFir o ((u.firOf o).setStaged none))) noResult ∧
  (let sp := cmdRow 0x0805 2 false 2 2 fwModes false
   Answers .firQuery sp (fun p u => u16 p.params 0 < 512 ∧ u.live.outConf (u16 p.params 0) = false) noEffect
     (fun _ _ => leBytes 20 0) ∧
   Answers .firQuery sp (fun p u => u16 p.params 0 < 512 ∧ u.live.outConf (u16 p.params 0) = true) noEffect
     (fun p u =>
       let x := u.firOf (u16 p.params 0)
       by4 (u.firStat (u16 p.params 0)) ++ by4 (tapsOf x.active) ++ by4 (tapsOf x.staged) ++
         by4 ((x.active.map (·.id)).getD 0) ++ by4 ((x.staged.map (·.id)).getD 0))) ∧
  (let sp := cmdRow 0x0807 2 false 12 12 fwModes false
   let set (p : Packet) (u : State) : Option FirSet :=
     if u.live.outConf (u16 p.params 0) then
       (if u8 p.params 2 = 0 then (u.firOf (u16 p.params 0)).active else (u.firOf (u16 p.params 0)).staged)
     else none
   let named (p : Packet) : Prop := u16 p.params 0 < 512 ∧ u8 p.params 2 ≤ 1 ∧ u8 p.params 3 = 0 ∧ u64 p.params 4 % 64 = 0
   Answers .firExport sp (fun p u => named p ∧ set p u = none) noEffect (fun _ _ => by4 0) ∧
   (∀ x : FirSet, Answers .firExport sp
     (fun p u => named p ∧ set p u = some x ∧ u.dramFree (u64 p.params 4) (4 * x.taps.length) = true)
     (fun p u =>
       let k := b2n ((u8 p.params 2 == 0) == (u.firOf (u16 p.params 0)).actB)
       (u.readTaps (u16 p.params 0) k).busWrite (u64 p.params 4) (u.exportTaps (u16 p.params 0) k x))
     (fun _ _ => by4 x.taps.length)))

/-- The measurement commands (R263, R273 to R276, R281): a sweep is a long operation of MEASURE while D2 is locked; a
change of a probe group drops the results it makes stale; results are exported to DRAM. -/
def Obligations.MeasurementCommandsComplete : Prop :=
  Answers .measPdmSet (cmdRow 0x0901 0 true 12 12 fwModes true)
    (fun p _ => rsvOk Reg.MEAS_PDM_CFG (u32 p.params 0) = true ∧ rsvOk Reg.MEAS_DC (u32 p.params 4) = true ∧
      rsvOk Reg.MEAS_HPF (u32 p.params 8) = true)
    (fun p u => ((u.wr Reg.MEAS_PDM_CFG (u32 p.params 0)).wr Reg.MEAS_DC (u32 p.params 4)).wr Reg.MEAS_HPF (u32 p.params 8))
    noResult ∧
  (let pre (u : State) : Nat := 3 * u.folioLen + presetDelay (u.fld Reg.MEAS_PDM_CFG Fl.MEAS_PDM_CFG_PRESET)
   let sp := cmdRow 0x0902 1 false 32 32 [mMEASURE] false
   Accepts .measSweep sp
     (fun p u => u.d2Lock = true ∧ u.sweepOk p.params = true ∧
       pre u + (sweepOf p.params).length u.fs ≤ u.fld Reg.MEAS_CFG Fl.MEAS_CFG_MAX_S * u.fs)
     (fun p u => { u with meas.sweep := some { sweepOf p.params with start := (u.slot + 1) * u.folioLen + pre u } })
     (fun _ _ => []) ∧
   Runs .measSweep sp (fun _ u => u.d2Lock = false) (fun p u => u.reply p 0x0902 stNOT_IN_MODE [])) ∧
  (let g (p : Packet) : Nat := u8 p.params 0
   let mask (p : Packet) : Nat := u16 p.params 2
   let new (p : Packet) : List Nat := (List.range (u16 (p.params.drop 4) 2)).map (· + u16 (p.params.drop 4) 0)
   Answers .measPrbGroupSet (cmdRow 0x0903 0 true 8 8 fwModes true)
     (fun p _ => g p < 16 ∧ u8 p.params 1 = 0 ∧ (bitsOf 16 (mask p)).length ≤ 4 ∧ rangeOk (p.params.drop 4) = true ∧
       u16 (p.params.drop 4) 2 ≤ 64)
     (fun p u =>
       let stale := ((u.groupOuts (g p)).filter (fun o => !(new p).contains o || !(Tab.at u.plan.masks 0 (g p) == mask p))) ++
         (new p).filter (fun o => !(u.groupOuts (g p)).contains o)
       let t := stale.foldl (fun u o => u.dropResult o) u
       { t with
         plan.groupOf := (new p).foldl (fun (m : Tab Nat) o => Tab.put m o (g p))
           (t.plan.groupOf.filter (fun e => e.2 != g p))
         plan.masks := Tab.put t.plan.masks (g p) (mask p) })
     noResult) ∧
  (let c (p : Packet) : Nat := u32 p.params 0
   let h (p : Packet) : Nat := u32 p.params 4
   Answers .measPrbSet (cmdRow 0x0904 0 true 8 8 fwModes true)
     (fun p _ => rsvOk Reg.MEAS_PRB_CFG (c p) = true ∧ 10 ≤ bitsN (c p) 25 16 ∧ bitsN (c p) 25 16 ≤ 600 ∧
       10 ≤ bitsN (c p) 15 6 ∧ bitsN (c p) 15 6 ≤ bitsN (c p) 25 16 ∧ 30 ≤ bitsN (c p) 5 0 ∧ bitsN (c p) 5 0 ≤ 60 ∧
       100 ≤ bitsN (h p) 23 12 ∧ bitsN (h p) 23 12 ≤ 3000 ∧ 50 ≤ bitsN (h p) 11 0 ∧ bitsN (h p) 11 0 ≤ 1200)
     (fun p u => (u.wr Reg.MEAS_PRB_CFG (c p)).wr Reg.MEAS_HEALTH_CFG (h p)) noResult) ∧
  (let sp := cmdRow 0x0905 2 false 12 12 fwModes false
   let named (p : Packet) : Prop := u16 p.params 0 < 512 ∧ u16 p.params 2 = 0 ∧ u64 p.params 4 % 64 = 0
   (∀ r : PrbRes, Answers .measPrbResult sp
     (fun p u => named p ∧ Tab.look u.meas.res (u16 p.params 0) = some r ∧
       u.dramFree (u64 p.params 4) (r.spec.length * recordSize 8192) = true)
     (fun p u => u.busWrite (u64 p.params 4) (r.records (u16 p.params 0))) (fun _ _ => by4 r.spec.length)) ∧
   Answers .measPrbResult sp
     (fun p u => named p ∧ Tab.look u.meas.res (u16 p.params 0) = none ∧ u.dramFree (u64 p.params 4) 0 = true) noEffect
     (fun _ _ => by4 0)) ∧
  (let os (p : Packet) : List Nat := (List.range (u16 p.params 2)).map (· + u16 p.params 0)
   Answers .measPrbBaseline (cmdRow 0x0906 0 true 4 4 fwModes true) (fun p _ => rangeOk p.params = true)
     (fun p u =>
       let base := (os p).foldl (fun (t : Tab PrbRes) o => ((Tab.look u.meas.res o).map (Tab.put t o)).getD t) u.meas.base
       { u with meas.base := base })
     (fun p u => by2 (countIf (os p) (fun o => (Tab.look u.meas.res o).isNone))) ∧
   (let sp := cmdRow 0x0907 0 true 8 8 fwModes true
    let named (p : Packet) (op : Nat) : Prop := rangeOk p.params = true ∧ u8 p.params 4 = op ∧ zeroAt p.params 5 3 = true
    AnswersOp .autotrimEnable 4 1 sp (fun p _ => named p 1)
      (fun p u => { u with
        meas.trimOn := u.meas.trimOn ++ (os p).filter (fun o => !u.autotrim o)
        meas.trim := ((os p).filter (fun o => !u.autotrim o)).foldl (fun (t : Tab Trim) o =>
          (List.range 4).foldl (fun t i => Tab.put t (4 * o + i)
            ⟨u.trimGain o (16 + i), (Tab.look u.meas.trim (4 * o + i)).bind (·.stepped)⟩) t) u.meas.trim })
      noResult ∧
    AnswersOp .autotrimDisable 4 0 sp (fun p _ => named p 0)
      (fun p u => { u with meas.trimOn := u.meas.trimOn.filter (fun o => !(os p).contains o) }) noResult))

/-- The mixer and bypass commands (R283 to R303, R310): sources, buses, domains, bridges, silence, bypass and ducking are
set; gains are staged, then committed or discarded together for the domains of a mask. -/
def Obligations.MixerCommandsComplete : Prop :=
  let b (p : Packet) (i : Nat) : Nat := u8 p.params i
  let w (p : Packet) (i : Nat) : Nat := u32 p.params i
  Answers .mixSrcSet (cmdRow 0x0A01 0 true 8 8 fwModes true)
    (fun p _ => b p 0 < 3 ∧ b p 1 < domSize (b p 0) ∧ u16 p.params 2 = 0 ∧ srcWordOk (b p 0) (w p 4) = true)
    (fun p u => u.wr (Reg.MIX_SRC (b p 0) (b p 1)) (w p 4)) noResult ∧
  (let m (p : Packet) : Nat := if b p 3 = 0 then 256 else b p 3
   Answers .mixNodeStage (cmdRow 0x0A02 1 true 4 8200 fwModes true)
     (fun p _ => p.params.length = 4 + 2 * m p ∧ b p 0 < 3 ∧ b p 1 < domSize (b p 0) ∧ b p 2 + m p ≤ domSize (b p 0))
     (fun p u =>
       let staged := (List.range (m p)).foldl
         (fun (t : Tab Int) i => Tab.store t 0 (65536 * b p 0 + 256 * b p 1 + b p 2 + i) (i16 p.params (4 + 2 * i)))
         u.mix.staged
       { u with mix.staged := staged }) noResult) ∧
  (let sp := cmdRow 0x0A03 1 true 4 4 fwModes true
   let named (p : Packet) (op : Nat) : Prop := b p 0 = op ∧ b p 1 < 8 ∧ u16 p.params 2 = 0
   AnswersOp .mixCommit 0 0 sp (fun p _ => named p 0)
     (fun p u => { u with plan.mixG := takeDoms (b p 1) u.mix.staged u.plan.mixG }) noResult ∧
   AnswersOp .mixDiscard 0 1 sp (fun p _ => named p 1)
     (fun p u => { u with mix.staged := takeDoms (b p 1) u.plan.mixG u.mix.staged }) noResult) ∧
  Answers .mixBusSet (cmdRow 0x0A04 0 true 12 12 fwModes true)
    (fun p u => b p 0 < 3 ∧ b p 1 < domSize (b p 0) ∧ u16 p.params 2 = 0 ∧ rsvOk (Reg.MIX_BUS_CFG 0 0) (w p 4) = true ∧
      destOk (w p 8) = true ∧ (bitsN (w p 8) 31 30 = 2 → b p 0 = 0) ∧ inRange (toS 16 (w p 4)) (-4000) 2400 = true ∧
      u.busDestFree (b p 0) (b p 1) (w p 8) = true)
    (fun p u => ((u.wr (Reg.MIX_BUS_CFG (b p 0) (b p 1)) (w p 4)).wr (Reg.MIX_BUS_DEST (b p 0) (b p 1)) (w p 8)).refreshHint)
    noResult ∧
  (let rate (p : Packet) : Nat := rateHz (bitsN (w p 0) 3 2)
   Answers .mixDomSet (cmdRow 0x0A05 0 true 4 4 [mLOAD, mIDLE, mRENDER, mSTANDBY, mRESYNC, mSERVICE, mUPDATE, mFAULT] true)
     (fun p u => rsvOk Reg.MIX_DOM_CFG (w p 0) = true ∧ bitsN (w p 0) 7 6 ≤ 1 ∧ u.tooFast (· == 1) (rate p) = none ∧
       u.tooFast (· == 2) (if bitsN (w p 0) 7 6 = 1 then rate p else u.fs) = none)
     (fun p u => u.wr Reg.MIX_DOM_CFG (w p 0)) noResult) ∧
  Answers .mixBridgeSet (cmdRow 0x0A06 0 true 8 8 fwModes true)
    (fun p _ => b p 0 < 64 ∧ zeroAt p.params 1 3 = true ∧ rsvOk (Reg.MIX_BRG 0) (w p 4) = true ∧ bitsN (w p 4) 27 26 < 3 ∧
      bitsN (w p 4) 25 24 < 3 ∧ bitsN (w p 4) 27 26 ≠ bitsN (w p 4) 25 24 ∧
      bitsN (w p 4) 7 0 < domSize (bitsN (w p 4) 27 26))
    (fun p u => u.wr (Reg.MIX_BRG (b p 0)) (w p 4)) noResult ∧
  Answers .mixSilSet (cmdRow 0x0A07 0 true 4 4 fwModes true)
    (fun p _ => rsvOk Reg.MIX_SIL_CFG (w p 0) = true ∧ inRange (toS 16 (w p 0 / 65536)) (-10000) (-4000) = true ∧
      1 ≤ bitsN (w p 0) 9 0 ∧ bitsN (w p 0) 9 0 ≤ 600)
    (fun p u => u.wr Reg.MIX_SIL_CFG (w p 0)) noResult ∧
  Answers .bypSet (cmdRow 0x0A08 0 true 164 164 (mSAFE :: fwModes) true) (fun p u => u.bypOk p.params = true)
    (fun p u =>
      let t := forRange 0 8 (fun k u => u.wr (Reg.MIX_BYP_IN k) (bypInAt p.params k)) (u.wr Reg.MIX_BYP_CFG (w p 0))
      let t := forRange 0 32 (fun j u => u.wr (Reg.MIX_BYP_OUT j) (bypOutAt p.params j)) t
      let t := { t with mix.act := t.mix.act.filter (fun e => t.flag (Reg.MIX_BYP_IN e.1) Fl.MIX_BYP_IN_EN) }
      if t.mode = mSAFE then t else t.ampLevels t.emiCfg) noResult ∧
  Answers .duckSet (cmdRow 0x0A09 0 true 72 72 (mSAFE :: fwModes) true)
    (fun p _ => b p 0 < 4 ∧ zeroAt p.params 1 3 = true ∧ inRange (toS 16 (w p 4 / 65536)) (-6000) 0 = true ∧
      bitsN (w p 4) 15 8 ≠ 0 ∧ bitsN (w p 4) 7 0 ≠ 0)
    (fun p u => forRange 0 16 (fun i u => u.wr (Reg.MIX_DUCK_MAP (b p 0) i) (w p (8 + 4 * i)))
      (u.wr (Reg.MIX_DUCK_CFG (b p 0)) (w p 4))) noResult ∧
  (let keys (p : Packet) : List Nat := (List.range (domSize (b p 0))).map (fun i => 65536 * b p 0 + 256 * b p 1 + i)
   Answers .mixQuery (cmdRow 0x0A0A 2 false 4 4 fwModes false)
     (fun p _ => b p 0 < 3 ∧ b p 1 < domSize (b p 0) ∧ u16 p.params 2 = 0) noEffect
     (fun p u => by4 (u.rd (Reg.MIX_BUS_CFG (b p 0) (b p 1))) ++ by4 (u.rd (Reg.MIX_BUS_DEST (b p 0) (b p 1))) ++
       ((keys p).map (fun i => Tab.at u.plan.mixG 0 i)).flatMap si2 ++
       by1 (b2n ((keys p).map (fun i => Tab.at u.plan.mixG 0 i) != (keys p).map (fun i => Tab.at u.mix.staged 0 i)))))

/-- The TDM commands (R322, R335): a port is set where its configuration is good, with the direction of ports 14 and 15
fixed; the slots of an announcement keep their words. -/
def Obligations.TdmCommandsComplete : Prop :=
  let q (p : Packet) : Nat := u8 p.params 0
  let cfg (p : Packet) : Nat := if 14 ≤ q p then setBitsN (u32 p.params 4) 30 28 7 else u32 p.params 4
  Answers .tdmPortSet (cmdRow 0x0B01 0 true 12 12 fwModes true)
    (fun p u => q p < 16 ∧ zeroAt p.params 1 3 = true ∧ u.tdmOk (q p) (cfg p) (u32 p.params 8) = true)
    (fun p u => (u.wr (Reg.TDM_CFG (q p)) (cfg p)).wr (Reg.TDM_FMT (q p)) (u32 p.params 8)) noResult ∧
  Answers .tdmSlotSet (cmdRow 0x0B02 1 true 16 16 fwModes true)
    (fun p u => q p < 16 ∧ zeroAt p.params 1 3 = true ∧ u32 p.params 4 < 2 ^ fmtSlots (u.rd (Reg.TDM_FMT (q p))))
    (fun p u =>
      let own := u.ownedSlots (q p)
      let t := u.wr (Reg.TDM_TX_MASK (q p)) (merge (u32 p.params 4) own (u.rd (Reg.TDM_TX_MASK (q p))))
      (t.wr (Reg.TDM_TX_EN (q p)) (merge (u32 p.params 8) own (u.rd (Reg.TDM_TX_EN (q p))))).wr (Reg.TDM_RX_EN (q p))
        (u32 p.params 12)) noResult ∧
  Answers .tdmQuery (cmdRow 0x0B03 2 false 4 4 fwModes false) (fun p _ => q p < 16 ∧ zeroAt p.params 1 3 = true) noEffect
    (fun p u => (List.range 7).flatMap (fun k => by4 (u.liveTdm (Reg.TDM_CFG (q p) + 4 * k))) ++ by4 0)

/-- The pair commands (R418, R431, R438, R440, R447): a switchover is asked for only where the peer is a standby, and its
reply waits for the handover; a resync starts or ends on the unit that does not hold the rein, and is passed on by the one
that does; a unit fences itself. -/
def Obligations.PairCommandsComplete : Prop :=
  Answers .pairCfgSet (cmdRow 0x0C01 0 true 4 4 fwModes true)
    (fun p _ => rsvOk Reg.TTH_CFG (u32 p.params 0) = true ∧ 1 ≤ bitsN (u32 p.params 0) 23 16 ∧
      bitsN (u32 p.params 0) 23 16 ≤ 40 ∧ 64 ≤ bitsN (u32 p.params 0) 13 0)
    (fun p u => u.cfgWrite Reg.TTH_CFG (u32 p.params 0)) noResult ∧
  (let i (p : Packet) : Ident := ⟨leVal (slice p.params 0 6).reverse, leVal (slice p.params 8 4).reverse,
     leVal (slice p.params 16 16).reverse, u8 p.params 12, u8 p.params 13⟩
   Answers .pairIdSet (cmdRow 0x0C02 0 true 40 40 idleModes true)
     (fun p _ => zeroAt p.params 6 2 = true ∧ zeroAt p.params 14 2 = true ∧ zeroAt p.params 32 8 = true ∧
       u8 p.params 12 ≤ 32 ∧ u8 p.params 13 ≤ 128)
     (fun p u => ({ u with pair.ident := some (i p) } : State).loadFwRules (some (i p).mac)) noResult) ∧
  Answers .pairQuery (cmdRow 0x0C03 2 false 0 0 fwModes false) always noEffect
    (fun _ u => pairWords.flatMap (fun a => by4 ((u.liveTth a).getD (u.rd a)))) ∧
  (let sp := cmdRow 0x0C04 1 true 0 0 [mRENDER] false
   Runs .pairSwitchover sp (fun _ u => u.peerStandby = true)
     (fun p u => (({ u with pair.turn := some (u.slot + 2, false), pair.granted := false } : State).control 2
       (u.slot + 2)).holding sp p 3 0) ∧
   Runs .pairSwitchover sp (fun _ u => u.peerStandby = false) (fun p u => u.reply p 0x0C04 stPEER_UNAVAILABLE [])) ∧
  (let sp := cmdRow 0x0C05 0 true 4 4 fwModes false
   let named (p : Packet) (u : State) (op : Nat) : Prop := u8 p.params 0 = op ∧ zeroAt p.params 1 3 = true ∧
     u.paired = true ∧ u.linkUp = true
   AnswersOp .pairResyncStart 0 0 sp (fun p u => named p u 0 ∧ u.compatEqual = true ∧ u.holds = true)
     (fun _ u => u.control 4 0) noResult ∧
   AnswersOp .pairResyncStart 0 0 sp
     (fun p u => named p u 0 ∧ u.compatEqual = true ∧ u.holds = false ∧ u.mayResync = true) (fun _ u => u.startResync)
     noResult ∧
   AnswersOp .pairResyncStart 0 0 sp
     (fun p u => named p u 0 ∧ u.compatEqual = true ∧ u.holds = false ∧ u.mayResync = false) noEffect noResult ∧
   AnswersOp .pairResyncAbort 0 1 sp (fun p u => named p u 1 ∧ u.holds = true)
     (fun _ u => ({ u with pair.cut := none } : State).control 5 0) noResult ∧
   AnswersOp .pairResyncAbort 0 1 sp (fun p u => named p u 1 ∧ u.holds = false) (fun _ u => u.abortResync) noResult) ∧
  Answers .pairFence { cmdRow 0x0C06 0 false 0 0 fwModes false with ownOnly := true } always (fun _ u => u.selfFence 5) noResult

/-- The effect commands (R449, R460, R487): a program is loaded by a long operation, removed from the next folio on, given
parameters from the next folio on, and its local memory is read, waiting where a ticket of the instance is running. -/
def Obligations.EffectCommandsComplete : Prop :=
  (let sp := cmdRow 0x0D01 0 true 24 152 fxModes true
   let i (p : Packet) : Nat := u8 p.params 0
   AcceptsOp .fxInstanceSet 1 0 sp
     (fun p u => u8 p.params 1 = 0 ∧ i p < 16 ∧ (p.params.length - 24) % 4 = 0 ∧ u8 p.params 2 < Config.fxCores u.otp.grade ∧
       u8 p.params 3 ≤ 7 ∧ zeroAt p.params 5 3 = true ∧ u64 p.params 8 % 64 = 0 ∧
       u.dramFree (u64 p.params 8) (u32 p.params 16) = true ∧ u32 p.params 20 = 0 ∧
       (fxInputs p.params).all fxInputOk = true ∧
       ∀ k, k < (p.params.length - 24) / 4 → u8 p.params (27 + 4 * k) = 0)
     noEffect (fun p _ => [u64 p.params 8, u32 p.params 16]) ∧
   AnswersOp .fxInstanceRemove 1 1 sp (fun p _ => u8 p.params 1 = 1 ∧ i p < 16 ∧ p.params.length = 24)
     (fun p u =>
       let t := ((u.wr (Reg.FXC_INST_CFG (i p)) 0).wr (Reg.FXC_INST_BUDGET (i p)) 0).wr (Reg.FXC_INST_ID (i p)) 0
       { t with
         fx.insts := Tab.put t.fx.insts (i p) ((Tab.at t.fx.insts [] (i p)).map (fun (x : FxInst) =>
           { x with ends := some (x.ends.getD t.slot) }))
         fx.staged := t.fx.staged.filter (fun y => y.inst != i p || decide (y.folio < t.slot)) }.unreserve (ownWindow (i p)))
     noResult) ∧
  Answers .fxParamSet (cmdRow 0x0D02 1 true 8 1032 fwModes true)
    (fun p u => p.params.length = 8 + u16 p.params 4 ∧ u8 p.params 1 = 0 ∧ u16 p.params 2 % 8 = 0 ∧
      u16 p.params 4 % 8 = 0 ∧ u16 p.params 4 ≤ 1024 ∧ u16 p.params 6 = 0 ∧
      ∃ x, u.fxNow (u8 p.params 0) = some x ∧ u16 p.params 2 + u16 p.params 4 ≤ x.pLen)
    (fun p u => { u with
      fx.staged := u.fx.staged ++ [⟨u8 p.params 0, u.slot + 1, u16 p.params 2, p.params.drop 8⟩] }) noResult ∧
  Answers .fxQuery (cmdRow 0x0D03 2 false 4 4 fwModes false) (fun p _ => u8 p.params 0 < 16 ∧ zeroAt p.params 1 3 = true)
    noEffect
    (fun p u => (List.range 5).flatMap (fun k => by4 (u.rd (Reg.FXC_INST_CFG (u8 p.params 0) + 4 * k))) ++
      by4 (u.liveFxc (Reg.FXC_CORE_STAT (u.fld (Reg.FXC_INST_CFG (u8 p.params 0)) Fl.FXC_INST_CFG_CORE)))) ∧
  (∀ x : FxInst,
    let sp := cmdRow 0x0D05 2 false 8 8 fwModes false
    let named (p : Packet) (u : State) : Prop := u.fxNow (u8 p.params 0) = some x ∧ u8 p.params 1 = 0 ∧
      u16 p.params 2 % 8 = 0 ∧ u16 p.params 4 ≤ 4096 ∧ u16 p.params 6 = 0 ∧ u16 p.params 2 + u16 p.params 4 ≤ x.di + x.dz
    let runs (p : Packet) (u : State) : Bool := u.fx.cores.any (fun e => e.2.inst == u8 p.params 0)
    Answers .fxMemRead sp (fun p u => named p u ∧ runs p u = false) noEffect (fun p u => u.fxMemBytes x p) ∧
    Runs .fxMemRead sp (fun p u => named p u ∧ runs p u = true) (fun p u => u.holding sp p 6 (u8 p.params 0)))

/-- The scheduler commands (R492, R506, R512): a queue is configured where its class and reservation allow; the trace is
set and read; a ticket is submitted to a queue of the host where it has room, and counted and refused with `QFULL` where
it has none. -/
def Obligations.SchedulerCommandsComplete : Prop :=
  let q (p : Packet) : Nat := u8 p.params 0
  let v (p : Packet) : Nat := u32 p.params 4
  Answers .stblQSet (cmdRow 0x1001 0 true 8 8 fwModes true)
    (fun p u => q p < 64 ∧ zeroAt p.params 1 3 = true ∧ rsvOk (Reg.STBL_Q_CFG (q p)) (v p) = true ∧
      1 ≤ bitsN (v p) 16 8 ∧ bitsN (v p) 16 8 ≤ 256 ∧ (q p < 32 → bitsN (v p) 30 28 = u.prio (q p)) ∧
      (q p < 8 → 4 ≤ bitsN (v p) 7 0) ∧ u.resvWith (q p) (bitsN (v p) 7 0) ≤ 256)
    (fun p u => u.wr (Reg.STBL_Q_CFG (q p)) (v p)) noResult ∧
  (let base (p : Packet) : Nat := u64 p.params 12
   let size (p : Packet) : Nat := u32 p.params 20
   Answers .stblTraceSet (cmdRow 0x1002 0 false 24 24 fwModes false)
     (fun p u => rsvOk Reg.STBL_TRC_CFG (u32 p.params 0) = true ∧ base p % 4096 = 0 ∧ base p < 2 ^ 40 ∧ size p % 4096 = 0 ∧
       size p ≤ 2 ^ 28 ∧
       ((u32 p.params 0).testBit 30 = true → 4096 ≤ size p ∧ u.dramFree (base p) (size p) = true))
     (fun p u =>
       let t := (u.wr Reg.STBL_TRC_CFG (u32 p.params 0)).wr Reg.STBL_TRC_QMASK_LO (v p)
       let t := (t.wr Reg.STBL_TRC_QMASK_HI (u32 p.params 8)).wr Reg.STBL_TRC_BASE_LO (base p % 2 ^ 32)
       let t := (t.wr Reg.STBL_TRC_BASE_HI (base p / 2 ^ 32)).wr Reg.STBL_TRC_SIZE (size p)
       { t.wr Reg.STBL_TRC_WPTR 0 with stbl.trcStopped := false }) noResult) ∧
  Answers .stblTraceRead (cmdRow 0x1003 2 false 4 4 fwModes false)
    (fun p _ => 1 ≤ u16 p.params 2 ∧ u16 p.params 2 ≤ 256 ∧ u16 p.params 0 + u16 p.params 2 ≤ 2048) noEffect
    (fun p u => (List.range (8 * u16 p.params 2)).flatMap (fun w => by4 (u.rd (Reg.STBL_RING (8 * u16 p.params 0 + w))))) ∧
  (let sp := cmdRow 0x1004 0 false 36 36 fwModes false
   let named (p : Packet) : Prop := 48 ≤ q p ∧ q p < 64 ∧ zeroAt p.params 1 3 = true ∧ submitOk (p.params.drop 4) = true
   Answers .stblSubmit sp (fun p u => named p ∧ u.room (q p) = true)
     (fun p u => u.enter (q p) (ticketOf (p.params.drop 4)))
     (fun p u => by4 ((u.enter (q p) (ticketOf (p.params.drop 4))).liveStbl Reg.STBL_STAT)) ∧
   Runs .stblSubmit sp (fun p u => named p ∧ u.room (q p) = false)
     (fun p u => ((u.bump Reg.STBL_QFULL).irq Reg.STBL_IRQ_STAT Fl.STBL_IRQ_STAT_QFULL).reply p 0x1004 stQFULL [])) ∧
  Answers .stblQuery (cmdRow 0x1005 2 false 0 0 fwModes false) always noEffect
    (fun _ u => u.viewBytes ([Reg.STBL_STAT] ++ (List.range 64).map Reg.STBL_Q_STAT ++
      (List.range 32).map Reg.STBL_FLOW_STAT))

/-- The Spine, on-chip memory and DRAM commands (R527, R548, R569): settings are written; the error logs are popped,
oldest first; memory test, repair and row retirement are long operations; a frequency change waits for a training that
runs. -/
def Obligations.MemorySystemCommandsComplete : Prop :=
  let b (p : Packet) (i : Nat) : Nat := u8 p.params i
  let w (p : Packet) (i : Nat) : Nat := u32 p.params i
  let counted (p : Packet) : Prop := 1 ≤ b p 0 ∧ b p 0 ≤ 16 ∧ zeroAt p.params 1 3 = true
  Answers .spnQosSet (cmdRow 0x0F40 0 true 8 8 fwModes true)
    (fun p _ => b p 0 ≤ 31 ∧ zeroAt p.params 1 3 = true ∧ rsvOk (Reg.SPN_MST_CFG (b p 0)) (w p 4) = true)
    (fun p u => u.wr (Reg.SPN_MST_CFG (b p 0)) (w p 4)) noResult ∧
  Answers .spnCfgSet (cmdRow 0x0F41 0 true 20 20 fwModes true)
    (fun p _ => rsvOk Reg.SPN_CFG (w p 0) = true ∧ ∀ t, t < 16 → b p (4 + t) ≤ 31)
    (fun p u => (List.range 16).foldl (fun u t => u.wr (Reg.SPN_TGT_CFG t) (b p (4 + t))) (u.wr Reg.SPN_CFG (w p 0)))
    noResult ∧
  Answers .spnQuery (cmdRow 0x0F42 2 false 0 0 fwModes false) always noEffect
    (fun _ u => u.viewBytes ([Reg.SPN_STAT, Reg.SPN_ERR_STAT] ++ (List.range 32).map Reg.SPN_MST_STAT ++
      (List.range 16).map Reg.SPN_TGT_STAT)) ∧
  Answers .spnErrRead (cmdRow 0x0F43 2 false 4 4 fwModes false) (fun p _ => counted p)
    (fun p u => (State.spnPops (b p 0) u).1)
    (fun p u => by1 (State.spnPops (b p 0) u).2.1 ++ (State.spnPops (b p 0) u).2.2) ∧
  Answers .memCfgSet (cmdRow 0x0F50 0 false 8 8 fwModes true)
    (fun p _ => rsvOk Reg.MEM_CFG (w p 0) = true ∧ rsvOk Reg.MEM_GRM_CFG (w p 4) = true)
    (fun p u => (u.cfgWrite Reg.MEM_CFG (w p 0)).cfgWrite Reg.MEM_GRM_CFG (w p 4)) noResult ∧
  Accepts .memtest (cmdRow 0x0F51 0 false 0 0 fwModes false) always noEffect (fun _ _ => []) ∧
  (let sp := cmdRow 0x0F52 0 false 8 8 fwModes false
   let named (p : Packet) (op : Nat) : Prop := b p 0 = op ∧ zeroAt p.params 1 1 = true ∧ zeroAt p.params 6 2 = true
   let bank (p : Packet) : Nat := u16 p.params 2
   let row (p : Packet) : Nat := u16 p.params 4
   AcceptsOp .memRepairListed 0 0 sp (fun p _ => named p 0) noEffect (fun _ _ => [0]) ∧
   AcceptsOp .memRepairRow 0 1 sp
     (fun p u => named p 1 ∧ bankPresent u.otp.grade (bank p) = true ∧ row p < bankRows (bank p) ∧ u.sparesUsed (bank p) < 4)
     noEffect (fun p _ => [1, bank p, row p])) ∧
  Answers .memQuery (cmdRow 0x0F53 2 false 0 0 fwModes false) always noEffect
    (fun _ u => u.viewBytes [Reg.MEM_CFG, Reg.MEM_GRM_STAT, Reg.MEM_ERR_STAT] ++
      (List.range 272).flatMap (fun k => by1 (if bankPresent u.otp.grade k then u.sparesUsed k else 0xFF))) ∧
  Answers .memErrRead (cmdRow 0x0F54 2 false 4 4 fwModes false) (fun p _ => counted p)
    (fun p u => (State.memPops (b p 0) u).1)
    (fun p u => by1 (State.memPops (b p 0) u).2.1 ++ (State.memPops (b p 0) u).2.2) ∧
  Answers .dmcCfgSet (cmdRow 0x0F60 0 false 8 8 fwModes true)
    (fun p _ => bitsN (w p 0) 30 2 = 0 ∧ 256 ≤ bitsN (w p 4) 31 16)
    (fun p u => (u.setFld Reg.DMC_CFG Fl.DMC_CFG_AUTO_RETIRE (bitsN (w p 0) 31 31)).wr Reg.DMC_RH (w p 4)) noResult ∧
  (let sp := cmdRow 0x0F61 0 false 8 8 fwModes false
   let named (p : Packet) (op : Nat) : Prop := b p 0 = op ∧ zeroAt p.params 3 1 = true ∧ zeroAt p.params 6 2 = true
   AcceptsOp .dramRetireListed 0 0 sp (fun p _ => named p 0) noEffect (fun _ _ => [0]) ∧
   AcceptsOp .dramRetireRow 0 1 sp
     (fun p u => named p 1 ∧ b p 1 < 4 ∧ b p 2 < 16 ∧ u16 p.params 4 < poolBase u.otp.grade ∧ 1 ≤ u.poolFree (b p 1) (b p 2))
     noEffect (fun p _ => [1, b p 1, b p 2, u16 p.params 4])) ∧
  (let sp := cmdRow 0x0F62 0 false 4 4 [mIDLE, mSERVICE, mUPDATE, mFAULT] false
   let named (p : Packet) : Prop := b p 0 ≤ 2 ∧ zeroAt p.params 1 3 = true
   let put (p : Packet) (u : State) : State := u.setFld Reg.DMC_CFG Fl.DMC_CFG_FSP (b p 0)
   Answers .dmcFreqSet sp (fun p u => named p ∧ (put p u).flag Reg.DMC_STAT Fl.DMC_STAT_TRAINING = false)
     (fun p u => (put p u).setFld Reg.DMC_STAT Fl.DMC_STAT_FSP_NOW ((put p u).fspFor (b p 0))) noResult ∧
   Runs .dmcFreqSet sp (fun p u => named p ∧ (put p u).flag Reg.DMC_STAT Fl.DMC_STAT_TRAINING = true)
     (fun p u => ((put p u).setFlag Reg.DMC_STAT Fl.DMC_STAT_DEFER true).holding sp p 5 (b p 0))) ∧
  Answers .dmcQuery (cmdRow 0x0F63 2 false 0 0 fwModes false) always noEffect
    (fun _ u => u.viewBytes ([Reg.DMC_CFG, Reg.DMC_RH, Reg.DMC_STAT, Reg.DMC_ERR_STAT] ++
      (List.range 4).map Reg.DMC_CH_STAT)) ∧
  Answers .dmcErrRead (cmdRow 0x0F64 2 false 4 4 fwModes false) (fun p _ => counted p)
    (fun p u => (State.dmcPops (b p 0) u).1)
    (fun p u => by1 (State.dmcPops (b p 0) u).2.1 ++ (State.dmcPops (b p 0) u).2.2)

/-- The counter commands (R660): counters are selected and controlled; a non-zero match time also arms the match; reading
is open to the role the block is configured for, and reading the bandwidth clears its peaks. -/
def Obligations.CounterCommandsComplete : Prop :=
  let w (p : Packet) (i : Nat) : Nat := u32 p.params i
  (let win (p : Packet) (k : Nat) : Nat := u64 p.params (8 + 8 * k)
   Answers .pmcCfgSet (cmdRow 0x0F01 0 false 40 40 fwModes true)
     (fun p _ => rsvOk Reg.PMC_CFG (w p 0) = true ∧ rsvOk Reg.PMC_BW_CFG (w p 4) = true ∧ bitsN (w p 4) 19 0 ≤ 1000000 ∧
       ∀ k, k < 4 → win p k < 2 ^ 40)
     (fun p u => (List.range 4).foldl
       (fun u k => (u.wr (Reg.PMC_WIN (k / 2) (k % 2 * 2)) (win p k % 2 ^ 32)).wr (Reg.PMC_WIN (k / 2) (k % 2 * 2 + 1))
         (win p k / 2 ^ 32))
       ((u.wr Reg.PMC_CFG (w p 0)).bwCfgWrite (w p 4))) noResult) ∧
  (let k (p : Packet) : Nat := u8 p.params 0
   let n (p : Packet) : Nat := u8 p.params 1
   Answers .pmcSelSet (cmdRow 0x0F02 0 false 4 2044 fwModes false)
     (fun p _ => p.params.length = 4 + 8 * n p ∧ 1 ≤ n p ∧ n p ≤ 16 ∧ k p + n p ≤ 208 ∧ zeroAt p.params 2 2 = true)
     (fun p u => (List.range (n p)).foldl
       (fun u i => (u.pmcSelWrite (k p + i) (w p (4 + 8 * i))).pmcMaskWrite (k p + i) (w p (8 + 8 * i))) u) noResult) ∧
  (let sec (p : Packet) : Nat := u64 p.params 4
   let ns (p : Packet) : Nat := w p 12
   let sp := cmdRow 0x0F03 0 false 20 20 fwModes false
   let ok (p : Packet) : Prop := w p 0 ≤ 15 ∧ sec p < 2 ^ 48 ∧ ns p < 1000000000 ∧ zeroAt p.params 16 4 = true
   Answers .pmcCtlSet sp (fun p _ => ok p ∧ sec p = 0 ∧ ns p = 0) (fun p u => u.pmcCtl (w p 0)) noResult ∧
   Answers .pmcCtlSet sp (fun p _ => ok p ∧ (sec p ≠ 0 ∨ ns p ≠ 0))
     (fun p u => ((((u.pmcCtl (w p 0)).wr Reg.PMC_MATCH_NS (ns p)).wr Reg.PMC_MATCH_SLO (sec p)).wr Reg.PMC_MATCH_SHI
       (sec p / 2 ^ 32)).setFlag Reg.PMC_CFG Fl.PMC_CFG_MATCH_EN true) noResult) ∧
  (∀ (p : Packet) (s : State),
    let sp := cmdRow 0x0F04 s.pmcRole false 4 4 fwModes false
    let k := u8 p.params 0
    let n := u8 p.params 1
    admitted sp p s = true → 1 ≤ n → k + n ≤ 208 → u8 p.params 2 ≤ 1 → zeroAt p.params 3 1 = true →
      let u := s.begun sp p
      exec (.pmcRead p) s = .next (u.finishOk sp p
        (u.viewBytes [Reg.PMC_STAT, Reg.PMC_SNAP_TIME_NS, Reg.PMC_SNAP_TIME_SLO, Reg.PMC_SNAP_TIME_SHI] ++
          (List.range n).flatMap (fun i =>
            by8 (if u8 p.params 2 = 0 then u.pmcVal (k + i) else Tab.at u.pmc.snap 0 (k + i)))))) ∧
  (∀ (p : Packet) (s : State),
    let sp := cmdRow 0x0F05 s.pmcRole false 0 0 fwModes false
    let u := s.begun sp p
    admitted sp p s = true →
      exec (.pmcBwRead p) s = .next (((List.range 54).foldl (fun u i => u.wr (Reg.PMC_BW_PEAK i) 0) u).finishOk sp p
        (u.viewBytes (Reg.PMC_BW_CFG :: (List.range 54).map Reg.PMC_BW ++ (List.range 54).map Reg.PMC_BW_PEAK))))

/-- What arrives on the command ports (R441, R571 to R577, R582, R587): bytes become packets of their port, status and
replies are read, metadata waits for the parser where it has room, is counted where it has none and is passed
over on a standby; a wake of the control
domain is not acknowledged; a long operation ends; a time of silence ends. -/
def Obligations.PortEventsComplete : Prop :=
  (∀ port e, Happens (.authSuppressEnd port) (fun u => Tab.look u.cmd.muted port = some e ∧ e ≤ u.now)
    (fun u => { u with cmd.muted := Tab.del u.cmd.muted port })) ∧
  (∀ ext peerOk o r, Happens (.longOperationDone ext peerOk)
    (fun u => u.cmd.longOp = some o ∧ o.opcode ≠ 0x0E01 ∧ u.longEnds o ext peerOk = some r) (fun _ => r.1.finishLong r.2.1 r.2.2.1 r.2.2.2)) ∧
  (∀ ext peerOk o, Happens (.longOperationDone ext peerOk) (fun u => u.cmd.longOp = some o ∧ o.opcode = 0x0E01)
    (fun u => u.commitDone o)) ∧
  (∀ h, Releases .standbyAckTimeout (fun u => u.cmd.held = some h ∧ h.kind = 0 ∧ h.pkt.time + 10000000 ≤ u.now)
    (fun u => u.finishHeld 0 h.status h.result)) ∧
  Releases .standbyAckTimeout (fun u => u.cmd.held = none ∧ u.pstate = psSTANDBY) (fun u => u.becomeUnsync) ∧
  (∀ bytes (t : Nat) (s : State), exec (.hspWriteCommand bytes t) s = .next ((s.atTime t).arriveRaw 0 ⟨noSrc, bytes, t⟩)) ∧
  (∀ bytes, Happens (.hspWriteMetadata bytes)
    (fun u => u.hspPowered = true ∧ u.omsPath 0 = true ∧ u.omsIgnored = false ∧ u.metaFull = false)
    (fun u => u.queueOms ⟨0, bytes, u.now⟩)) ∧
  (∀ bytes, Happens (.hspWriteMetadata bytes)
    (fun u => u.hspPowered = true ∧ u.omsPath 0 = true ∧ u.omsIgnored = false ∧ u.metaFull = true) (fun u => u.omsDrop)) ∧
  (∀ bytes, Happens (.hspWriteMetadata bytes) (fun u => u.omsIgnored = true) (fun u => u)) ∧
  (∀ s : State, s.answers 0 = true →
    exec .hspReadStatus s = .next { (s.readReturns s.hspStatus) with cmd.done := false }) ∧
  (∀ n, Happens (.hspReadReply n)
    (fun u => u.answers 0 = true ∧ (u.cmd.hspReply.isSome = false ∨ n < (replyRead u.cmd.hspReply).length))
    (fun u => u.readReturns (leVal ((replyRead u.cmd.hspReply).take n)))) ∧
  (∀ n, Happens (.hspReadReply n)
    (fun u => u.answers 0 = true ∧ u.cmd.hspReply.isSome = true ∧ (replyRead u.cmd.hspReply).length ≤ n)
    (fun u =>
      ({ u.readReturns (leVal ((replyRead u.cmd.hspReply).take n)) with cmd.hspReply := none } : State).runWaiting)) ∧
  (∀ s : State, s.answers 0 = true → exec .hspAbort s = .next (s.bump Reg.CMD_HSP_ABORT)) ∧
  (∀ m src bytes, Happens (.commandDatagram m src bytes) (fun u => u.netPowered m = true ∧ u.netEnabled m = true)
    (fun u => u.arriveRaw 1 ⟨src, bytes, u.now⟩)) ∧
  (∀ bytes, Happens (.twiWrite bytes) (fun u => u.twiTaken = false) (fun u => u.arriveRaw 2 ⟨noSrc, bytes, u.now⟩)) ∧
  (∀ n, Happens (.twiRead n) (fun u => u.answers 2 = true)
    (fun u =>
      let b := replyRead u.cmd.twiReply
      if b.length ≤ n then { u.readReturns (leVal (b.take n)) with cmd.twiReply := none } else u.readReturns (leVal (b.take n)))) ∧
  (∀ w, ∀ (t : Nat) (s : State), (s.atTime t).sys.porN = true → (s.atTime t).mode ≠ mHALT → (s.atTime t).mode ≠ mSAFE →
    ((s.atTime t).domState dCTRL = pRET ∨ (s.atTime t).domState dCTRL = pOFF) →
    exec (.twiAddressMatch (s.atTime t).twiAddress w t) s = .next
      (((((s.atTime t).wake dCTRL true).bump Reg.CMD_TWI_WAKE).irq Reg.CMD_IRQ_STAT Fl.CMD_IRQ_STAT_WAKE).readReturns 0)) ∧
  (∀ w, ∀ (t : Nat) (s : State), (s.atTime t).sys.porN = true → (s.atTime t).mode ≠ mHALT → (s.atTime t).mode ≠ mSAFE →
    (s.atTime t).domState dCTRL ≠ pRET → (s.atTime t).domState dCTRL ≠ pOFF →
    exec (.twiAddressMatch (s.atTime t).twiAddress w t) s =
      .next ((s.atTime t).readReturns (b2n ((s.atTime t).answers 2 && !(w && (s.atTime t).twiTaken))))) ∧
  (∀ bytes, Happens (.safeResponder bytes) (fun u => u.mode = mSAFE ∧ u.twiTaken = false)
    (fun u => u.arriveRaw 2 ⟨noSrc, bytes, u.now⟩))

/-- Boot, reset, SAFE, FAULT, HALT and restoration (R418, R601 to R617, R631, R632, R666, R670): each event does what its
row says, in the modes it acts in. -/
def Obligations.ModeEventsComplete : Prop :=
  Happens .journalCompact (fun u => 12 * 2 ^ 20 < u.jnlBytes) (fun u => { u with jnl.recs := compact u.jnl.recs }) ∧
  (∀ pair unitId twi src, Happens (.porRise pair unitId twi src) (fun u => u.sys.porN = false)
    (fun u =>
      let v := ({ u with sys.porN := true, sys.porTime := u.now,
                         sys.straps := ⟨pair, unitId % 2, twi % 8, src % 4⟩ } : State).startPair
      if src % 4 = 3 then (v.setFld Reg.SYS_MODE Fl.SYS_MODE_MODE mHALT).allOff
      else v.setFld Reg.SYS_MODE Fl.SYS_MODE_MODE mBOOT)) ∧
  Happens .coldReset anyState (fun u => u.coldReset) ∧
  (∀ c, Happens (.warmReset c) (fun u => (c = 3 ∧ u.mode = mHALT) ∨ (c = 4 ∧ u.mode = mSAFE) ∨
      ((c = 1 ∨ c = 2) ∧ u.mode ≠ mHALT ∧ u.mode ≠ mSAFE)) (fun u => u.warmReset c)) ∧
  (∀ trained, Happens (.boot trained)
    (fun u => u.mode = mBOOT ∧ u.sys.porN = true ∧ u.sys.firm.goPending = true) (fun u => u.startFirmware trained none)) ∧
  (∀ trained, Happens (.boot trained)
    (fun u => u.mode = mBOOT ∧ u.sys.porN = true ∧ u.sys.firm.goPending = false ∧ u.sys.firm.waitHsp = false ∧
      u.reapplyRepairs.sys.straps.bootSrc = 1)
    (fun u => u.reapplyRepairs.waitHost)) ∧
  (let reads (u : State) : Prop := u.mode = mBOOT ∧ u.sys.porN = true ∧ u.sys.firm.goPending = false ∧
     u.sys.firm.waitHsp = false ∧ u.reapplyRepairs.sys.straps.bootSrc ≠ 1
   (∀ trained v, Happens (.boot trained) (fun u => reads u ∧ u.reapplyRepairs.bootFlash trained = some v) (fun _ => v)) ∧
   (∀ trained, Happens (.boot trained) (fun u => reads u ∧ u.reapplyRepairs.bootFlash trained = none)
     (fun u => if u.reapplyRepairs.sys.straps.bootSrc = 2 then u.reapplyRepairs.waitHost else u.reapplyRepairs.noFirmware))) ∧
  Happens .sceneRestore (fun u => u.mode = mLOAD ∧ u.sys.refWait = false ∧ u.sys.modeAt = none)
    (fun u =>
      let v := u.loadJnlCfg.replay u.jnl.store u.jnl.recs
      let w : State := { v with sys.idleOnly := false }
      if v.resumes then { w.wakeAll w.planeDomains true with sys.refWait := true } else w.setMode mIDLE) ∧
  Happens .refWaitExpiry (fun u => u.refWaitOver = true)
    (fun u => ({ (u.beginTransit mRENDER) with sys.refWait := false } : State).logEvent 0x0080 1 0) ∧
  (∀ m, Happens .renderEntry
    (fun u => u.entryGoal = some m ∧ (m = mRENDER ∨ m = mMEASURE) ∧ u.mode ≠ mSTANDBY ∧
      u.sys.lastTick = some u.sys.mediaTime ∧ u.planePowered = true)
    (fun u => (u.setMode m).startPlane m (u.slot + 1))) ∧
  (∀ c, Happens (.safeEntry c) (fun u => u.safeCause c = true ∧ 1 ≤ c ∧ c ≤ 4 ∧ ∀ d, 1 ≤ d → d < c → u.safeCause d = false)
    (fun u => u.enterSafe c)) ∧
  (∀ temp, Happens (.tempWarn temp) anyState (fun u => u.setTemp temp)) ∧
  (∀ temp : Int, 1150 ≤ temp → Happens (.tempSafe temp) anyState (fun u => (u.setTemp temp).enterSafe 1)) ∧
  Happens .faultEntry
    (fun u => u.mode = mBOOT ∧ u.sys.firm.goPending = false ∧ u.sys.firm.waitHsp = false ∧
      (u.newerSlot u.bootable).isNone = true ∧ (u.sys.straps.bootSrc = 0 ∨ u.sys.straps.bootSrc = 3))
    (fun u => u.noFirmware) ∧
  Happens (.haltWake 0) (fun u => u.mode = mHALT ∧ u.sys.porN = true) (fun u => (u.warmReset 3).bump Reg.CMD_TWI_WAKE) ∧
  Happens (.haltWake 1) (fun u => u.mode = mHALT ∧ u.sys.porN = true ∧ u.alarmDue = true ∧
    u.flag Reg.PWR_CFG Fl.PWR_CFG_ALARM_EN = true) (fun u => u.warmReset 3) ∧
  Happens (.haltWake 2) (fun u => u.mode = mHALT ∧ u.sys.porN = true ∧ u.paired = true) (fun u => u.warmReset 3) ∧
  Happens .rtcAlarm (fun u => u.alarmDue = true ∧ u.mode ≠ mHALT) (fun u => u.irq Reg.PWR_IRQ_STAT Fl.PWR_IRQ_STAT_RTC) ∧
  Happens .supplyLoss anyState (fun u => u.selfFence 4) ∧
  Happens .ctrlRestart (fun u => u.cmd.ctrlDown = true ∧ u.mode ≠ mHALT ∧ u.mode ≠ mSAFE ∧ u.sys.testEn = false)
    (fun u => { u with cmd.ctrlDown := false }) ∧
  Happens (.testEnChange true) (fun u => u.sys.testEn = false)
    (fun u =>
      let v := (((List.range 18).map (· + 1)).filter (domainPresent u.otp.grade)).foldl (fun v d => v.resetDomain d)
        u.abandonLong
      { v with sys.testEn := true, cmd.ctrlDown := true, dp.on := false }) ∧
  Happens (.testEnChange false) (fun u => u.sys.testEn = true) (fun u => { u with sys.testEn := false }) ∧
  (∀ d, Happens (.restorationDone d) (fun u => u.domState d = pWAKING ∧ u.timed d = true)
    (fun u => (u.restoreDomain u.restored d).domUp d)) ∧
  (∀ recs store, Happens (.configurationPhaseDone recs store) (fun u => u.pstate = psRESYNC ∧ u.rphase = 1)
    (fun u =>
      let v := (sceneDomains.foldl (fun v d => v.resetDomain d) u)
      let v := v.replay (store ++ v.jnl.store) recs
      ({ v with jnl.recs := recs } : State).beginPhase 2))

/-- The watchdog (R605): each timeout is counted within 60 s; the first two reset CTRL and log event 0x1781, the third
makes the warm reset by watchdog. -/
def Obligations.WatchdogResets : Prop :=
  let times (u : State) : List Nat := u.now :: u.sys.wdogTimes.filter u.within60
  let counted (u : State) : State := { u with sys.wdogTimes := times u }
  Happens .watchdogTimeout (fun u => u.coresRun = true ∧ (times u).length < 3)
    (fun u => ((counted u).ctrlReset.irq Reg.SYS_IRQ_STAT Fl.SYS_IRQ_STAT_WDOG).logEventFree 0x1781 0) ∧
  Happens .watchdogTimeout (fun u => u.coresRun = true ∧ 3 ≤ (times u).length) (fun u => (counted u).wdogWarmReset)

/-- Media time and the folio tick (R14, R21, R40, R127, R140, R154, R681): the media clock adds one to media time; a tick
that is due opens its slot; a folio is judged missed at its deadline or when its tick does not come; a fabric folio is
abandoned two slots late; metadata is parsed in order of arrival; a glide ends. -/
def Obligations.TimeEventsComplete : Prop :=
  Happens .mediaClockPeriod anyState (fun u => { u with sys.mediaTime := (u.sys.mediaTime + 1) % 2 ^ 64 }) ∧
  (∀ pdm, ∀ (t : Nat) (s : State), (s.atTime t).tickDue = true →
    exec (.folioTick pdm t) s = .next (s.released (((s.atTime t).folioTick pdm).logDue))) ∧
  Happens .deadlineMiss
    (fun u => u.slot = u.out.judged + 2 ∧ u.owns u.out.judged = true ∧ u.ownResult u.out.judged = false ∧
      u.decidesAt u.out.judged = true)
    (fun u => u.judgeFolio u.out.judged false) ∧
  Happens .missingFolioTick
    (fun u => (u.mode = mRENDER ∨ u.mode = mMEASURE) ∧ u.owns u.out.judged = true ∧ u.sys.lastTick.isSome = true)
    (fun u => ({ u with sys.mediaStopped := true, dp.resume := u.out.judged + 1 } : State).judgeFolio u.out.judged false) ∧
  (∀ n, Happens .fabAbandon (fun u => u.fab.folio = some n ∧ n + 2 ≤ u.slot) (fun u => u.abandonFab)) ∧
  (∀ m ms, Happens .omsMessage (fun u => u.oms.rx = m :: ms) (fun u => ({ u with oms.rx := ms } : State).parseOms m)) ∧
  (∀ k o g, Happens (.glideEnd k)
    (fun u => u.slotAt k = some o ∧ o.glide = some g ∧ g.first + g.len ≤ u.slot)
    (fun u => u.setSlot k { o with glide := none }))

/-- Tickets of the data plane (R75, R153, R177, R191, R226, R227, R267, R268, R288, R493 to R500): an engine that finishes
its ticket does the work of that folio while the folio is still being processed, retires the ticket and starts the next.
-/
def Obligations.TicketEventsComplete : Prop :=
  let next (u : State) (e : Nat) (x : Placed) : State := State.startNext State.onStart 3 (u.finishTicket e x) e
  (∀ e, Happens (.geoTicketDone e) anyState (fun u => (u.geoDone e).tryFollow)) ∧
  (∀ e stalls ecc x, Happens (.fabTicketDone e ⟨stalls, ecc⟩)
    (fun u => u.runningOn e [tkFAB] = some x ∧
      ((u.count Reg.FAB_BANK_STALL stalls).quireErrors ecc).fab.folio = some x.tk.folio)
    (fun u =>
      let v := (u.count Reg.FAB_BANK_STALL stalls).quireErrors ecc
      let ks := v.groupSlots x.tk.item x.tk.folio
      next (ks.foldl (fun v k => v.accumObject k) (ks.foldl (fun v k => v.enterObject k) v)) e x)) ∧
  (∀ n ecc, Happens (fun t => .rootWrite ⟨ecc, t⟩) (fun u => u.fab.folio = some n ∧ u.allDone tkFAB n = true ∧ u.slot = n + 1)
    (fun u =>
      let u := u.quireErrors ecc
      let raw := u.procOutputs.map (fun o =>
        (o, (List.range u.folioLen).map (fun i => rndShr (Tab.at u.fab.acc 0 (o * u.folioLen + i)) 4)))
      let sats := (raw.map (fun x => countIf x.2 (fun y => sat27 y != y))).sum
      let v := if 0 < sats then (u.count Reg.FAB_SAT sats).irq Reg.FAB_IRQ_STAT Fl.FAB_IRQ_STAT_SAT else u
      let w : State := { v with
        fab.root := some (n, raw.map (fun (x : Nat × List Int) => (x.1, x.2.map sat27)))
        fab.acc := []
        fab.folio := none
        dp.complete := v.dp.complete ++ [(tkROOT, n, 0)] }
      ((w.mapFab Slot.committed).fabDone (w.now - w.dp.tickNow)).tryPha n)) ∧
  (∀ e poison x, Happens (.headTicketDone e poison) (fun u => u.runningOn e [tkHEAD] = some x)
    (fun u =>
      let n := x.tk.folio
      let v := poison.foldl (fun u y => u.convPoison 0 n 0 y) u
      let v :=
        if n + 1 = v.slot then
          ((v.grpOuts x.tk.item).foldl (fun v o => v.stage5 n o) v.swapDue).issue 5 (hwTicket tkPHB n x.tk.item)
        else v
      let v := (v.finishTicket e x).bump Reg.CONV_HEAD_TKT
      let c := min (v.now - v.dp.tickNow) 0xFFFFFFFF
      let w := if n + 1 = v.slot ∧ v.allDone tkHEAD n = true ∧ v.allDone tkPHA n = true then
          (v.wr Reg.CONV_DONE c).wr Reg.CONV_DONE_MAX (max c (v.rd Reg.CONV_DONE_MAX))
        else v
      State.startNext State.onStart 3 w e)) ∧
  (∀ e poison x, Happens (.tailTicketDone e poison) (fun u => u.runningOn e [tkTAIL] = some x)
    (fun u =>
      let c := tailClass x.tk.item
      let d := tailD u.folioLen c
      let first := tailNeed x.tk.item - d
      let hop : Int := (first * u.folioLen / tailH c : Nat) - 1
      let v := poison.foldl (fun u y => u.convPoison (c + 1) (tailNeed x.tk.item) hop y) u
      State.startNext State.onStart 3
        (((v.tailTraffic c (x.tk.item % 32) (x.tk.folio + 1 - first) d).finishTicket e x).bump Reg.CONV_TAIL_TKT) e)) ∧
  (∀ e x, Happens (.outPhaseADone e) (fun u => u.runningOn e [tkPHA] = some x ∧ u.slot = x.tk.folio + 1)
    (fun u => next (((u.grpOuts x.tk.item).foldl (fun v o => v.phaseA x.tk.folio o (v.firAt o x.tk.folio).long)
      (u.bmPrepare x.tk.folio)).issue 3 (hwTicket tkHEAD x.tk.folio x.tk.item)) e x)) ∧
  (∀ e x, Happens (.outPhaseADone e) (fun u => u.runningOn e [tkPHA] = some x ∧ u.slot ≠ x.tk.folio + 1)
    (fun u => next u e x)) ∧
  (∀ e x, Happens (.outPhaseBDone e) (fun u => u.runningOn e [tkPHB] = some x ∧ u.slot = x.tk.folio + 1)
    (fun u => next ((u.grpOuts x.tk.item).foldl (fun v o => v.phaseB x.tk.folio o) u) e x)) ∧
  (∀ e x, Happens (.outPhaseBDone e) (fun u => u.runningOn e [tkPHB] = some x ∧ u.slot ≠ x.tk.folio + 1)
    (fun u => next u e x)) ∧
  (∀ e x, Happens (.mixerBlockDone e) (fun u => u.runningOn e [tkMIX] = some x ∧ x.tk.item ≠ 0)
    (fun u => next (u.mixD x.tk.item x.tk.folio) e x)) ∧
  (∀ e x, Happens (.mixerBlockDone e) (fun u => u.runningOn e [tkMIX] = some x ∧ x.tk.item = 0)
    (fun u =>
      let v := (if x.tk.folio + 1 = u.slot then u.mixD0 x.tk.folio else u).finishTicket e x
      State.startNext State.onStart 3 (if x.tk.folio + 1 = v.slot then v.tryPha x.tk.folio else v) e)) ∧
  (∀ e x, Happens (.egressTicketDone e) (fun u => u.runningOn e [tkEGRESS] = some x)
    (fun u =>
      let v := u.finishTicket e x
      State.startNext State.onStart 3 (if x.tk.folio + 1 = v.slot ∧ v.decidesAt x.tk.folio = true ∧
        v.ownResult x.tk.folio = true then v.swapLast x.tk.folio else v) e)) ∧
  (∀ e x, Happens (.measTicketDone e) (fun u => u.runningOn e [tkMEAS] = some x) (fun u => next u e x)) ∧
  (∀ v st res, Happens .sweepDone (fun u => finSweep u = some (v, st, res)) (fun _ => v.finishLong st res [])) ∧
  (∀ cls, Happens (.stallFill cls) anyState (fun u => u.fill State.onStart cls)) ∧
  (∀ q cycles, Happens (.generatorResume q cycles) (fun u => (Tab.at u.stbl.waiting [] q).isEmpty = false)
    (fun u =>
      let c := u.stbl.waitCyc + cycles
      let v : State := { u.count Reg.STBL_HW_STALL (c / 1024) with stbl.waitCyc := c % 1024 }
      State.drainWaiting (Tab.at u.stbl.waiting [] q).length v q))

/-- DMA copies (R502 to R504): a channel that can copy all its bytes has copied them, clears `BUSY` and ends; one that
fails at an offset has copied the bytes before it, records the address and fails with its cause. -/
def Obligations.CopiesComplete : Prop :=
  (∀ c x, Happens (.dmaCopyDone c) (fun u => Tab.look u.stbl.dma c = some x ∧ u.copyClean x x.len = true)
    (fun u =>
      let v := (u.copyBytes c x x.len).setFlag (Reg.STBL_DMA_STAT c) Fl.STBL_DMA_STAT_BUSY false
      State.copyEnds { v with stbl.dma := Tab.del v.stbl.dma c } c)) ∧
  (∀ c x off write cause, Happens (.dmaCopyError c off write cause)
    (fun u => Tab.look u.stbl.dma c = some x ∧ u.copyFails x off write cause = true)
    (fun u =>
      let a := (if write then x.dst else x.src) + off
      let v := u.copyBytes c x off
      let e := (v.spnCause a 1 write).getD (1, 7)
      let v := if cause = 1 then v.decErr ⟨write, e.1, e.2, 12 + c, a⟩
        else if write then v else v.countPoison (memAddr a) 1
      let v := (v.wr (Reg.STBL_DMA_ERR_LO c) (a % 2 ^ 32)).wr (Reg.STBL_DMA_ERR_HI c) (maskBit 31 write + a / 2 ^ 32 % 256)
      (v.dmaFail c cause).copyEnds c))

/-- TDM ports and the announcement gate (R302, R314 to R323): a frame of a port that runs is counted, checked, received
and transmitted; a port that runs in neither direction holds nothing; a slave whose clock is gone is lost; a wait for a
zero crossing times out; an announcement ends. -/
def Obligations.TdmEventsComplete : Prop :=
  (∀ q mt din bclks late fill, Happens (.tdmFrame q mt din bclks late fill)
    (fun u => q < 16 ∧ (u.tdmRuns (u.tdmRxCfg q) q = true ∨ u.tdmRuns (u.tdmTxCfg q) q = true))
    (fun u =>
      let rc := u.tdmRxCfg q
      let tc := u.tdmTxCfg q
      let rxOn := u.tdmRuns rc q
      let txOn := u.tdmRuns tc q
      let v := if 14 ≤ q then u.bypTick else u
      let x := v.tdmPort q
      let c := if rxOn then rc else tc
      let slave := !c.tdmMaster q
      let bad := slave && bclks != frameBits (c.tdmFmt q)
      let v := if bad then (v.bump Reg.TDM_FS_ERR).irq Reg.TDM_IRQ_STAT Fl.TDM_IRQ_STAT_FS_ERR else v
      let slips := slave && decide (v.folioLen / 2 < fill.natAbs)
      let v := if slips then (v.bump Reg.TDM_SLIP).irq Reg.TDM_IRQ_STAT Fl.TDM_IRQ_STAT_SLIP else v
      let v := v.setTdmPort q
        { x.clocks bad with
          frame := x.frame + 1
          rx := tdmDirFor rxOn (rc.rd (Reg.TDM_CFG q)) (rc.tdmFmt q) x.rx
          tx := tdmDirFor txOn (tc.rd (Reg.TDM_CFG q)) (tc.tdmFmt q) x.tx
          slip := if slips then 16 else x.slip
          bclks := if slave then bclks else frameBits (c.tdmFmt q) }
      (v.tdmReceive q mt din bad).tdmTransmit q mt late)) ∧
  (∀ q mt din bclks late fill, Happens (.tdmFrame q mt din bclks late fill)
    (fun u => q < 16 ∧ u.tdmRuns (u.tdmRxCfg q) q = false ∧ u.tdmRuns (u.tdmTxCfg q) q = false)
    (fun u => { u with tdm.ports := Tab.del u.tdm.ports q })) ∧
  (∀ q, Happens (.tdmClockLost q)
    (fun u => q < 14 ∧ u.tdmRuns (u.tdmRxCfg q) q = true ∧ (u.tdmRxCfg q).tdmMaster q = false ∧ (u.tdmPort q).lost = false)
    (fun u => ((u.setTdmPort q { u.tdmPort q with lost := true, good := 0, wire := [] }).bump Reg.TDM_LOST).irq
      Reg.TDM_IRQ_STAT Fl.TDM_IRQ_STAT_LOST)) ∧
  (∀ q j d w, Happens (.zcTimeout q true j)
    (fun u => (u.tdmPort q).tx = some d ∧ Tab.look d.waits j = some w ∧
      w.since + d.zcFrames (u.tdmRate (u.tdmTxCfg q) q) ≤ (u.tdmPort q).frame + 1)
    (fun u => (u.setTdmPort q { u.tdmPort q with tx := some (d.timeOut j w) }).zcTimedOut true)) ∧
  (∀ q j d w, Happens (.zcTimeout q false j)
    (fun u => (u.tdmPort q).rx = some d ∧ Tab.look d.waits j = some w ∧
      w.since + d.zcFrames (u.tdmRate (u.tdmRxCfg q) q) ≤ (u.tdmPort q).frame + 1)
    (fun u => (u.setTdmPort q { u.tdmPort q with rx := some (d.timeOut j w) }).zcTimedOut true)) ∧
  (∀ k, Happens (.gateHoldExpiry k) (fun u => u.gateOver k = true) (fun u => u.annEnd k))

/-- The MACs (R337 to R355): a frame received is dropped and counted by its first failing check, or classified by the
first rule that matches and queued; a frame is sent where the port may send; half-duplex collisions back off until the
sixteenth or a late one; the link follows its signals. -/
def Obligations.MacEventsComplete : Prop :=
  let on (m : Nat) (u : State) : Prop := u.macOn m = true ∧ u.flag (Reg.MAC_CFG m) Fl.MAC_CFG_RX_EN = true
  let came (m len corr uncorr : Nat) (u : State) : State :=
    (if m = 2 then u else (u.macCount m 12 corr).macCount m 13 uncorr).bwBytes (48 + 2 * m) len
  let under (m corr uncorr : Nat) (bytes : List Byte) (u : State) : MacPrior :=
    let v := came m bytes.length corr uncorr u
    v.macAt m (v.frameStart m bytes.length)
  (∀ m bytes bad odd full corr uncorr cap mt, Happens (.frameReceived m bytes bad odd true full corr uncorr cap mt)
    (on m) (fun u => ((came m bytes.length corr uncorr u).macBump m 9).irq (Reg.MAC_IRQ_STAT m) Fl.MAC_IRQ_STAT_FIFO_DROP)) ∧
  (∀ m bytes odd full corr uncorr cap mt, Happens (.frameReceived m bytes true odd false full corr uncorr cap mt) (on m)
    (fun u => (came m bytes.length corr uncorr u).macBump m 5)) ∧
  (∀ m bytes odd full corr uncorr cap mt, bytes.length < 64 →
    Happens (.frameReceived m bytes false odd false full corr uncorr cap mt) (on m)
      (fun u => (came m bytes.length corr uncorr u).macBump m 2)) ∧
  (∀ m bytes odd full corr uncorr cap mt, 64 ≤ bytes.length →
    Happens (.frameReceived m bytes false odd false full corr uncorr cap mt)
      (fun u => on m u ∧ (under m corr uncorr bytes u).maxLen < bytes.length)
      (fun u => (came m bytes.length corr uncorr u).macBump m 4)) ∧
  (let sized (m corr uncorr : Nat) (bytes : List Byte) (u : State) : Prop := on m u ∧ 64 ≤ bytes.length ∧
     bytes.length ≤ (under m corr uncorr bytes u).maxLen
   let good (bytes : List Byte) : Prop := crc32 (bytes.take (bytes.length - 4)) = u32 bytes (bytes.length - 4)
   (∀ m bytes odd full corr uncorr cap mt, (odd = true ∨ ¬ good bytes) →
     Happens (.frameReceived m bytes false odd false full corr uncorr cap mt) (sized m corr uncorr bytes)
       (fun u => (came m bytes.length corr uncorr u).macBump m 3)) ∧
   (∀ m bytes full corr uncorr cap mt, good bytes → (frameHead bytes).etype = 0x8808 →
     Happens (.frameReceived m bytes false false false full corr uncorr cap mt) (sized m corr uncorr bytes)
       (fun u => (came m bytes.length corr uncorr u).controlFrame m bytes)) ∧
   (∀ m bytes full corr uncorr cap mt r ws, good bytes → (frameHead bytes).etype ≠ 0x8808 →
     Happens (.frameReceived m bytes false false false full corr uncorr cap mt)
       (fun u => sized m corr uncorr bytes u ∧ (came m bytes.length corr uncorr u).ruleFor m (under m corr uncorr bytes u).rules bytes = some (r, ws))
       (fun u =>
         let v := came m bytes.length corr uncorr u
         let c := nth ws 0 0
         if c.testBit 30 then v.macBump m 7 else v.queueFrame m (bitsN c 4 0) r bytes full cap mt)) ∧
   (∀ m bytes full corr uncorr cap mt, good bytes → (frameHead bytes).etype ≠ 0x8808 →
     Happens (.frameReceived m bytes false false false full corr uncorr cap mt)
       (fun u => sized m corr uncorr bytes u ∧ (came m bytes.length corr uncorr u).ruleFor m (under m corr uncorr bytes u).rules bytes = none)
       (fun u =>
         let v := (came m bytes.length corr uncorr u).macBump m 6
         if v.flag (Reg.MAC_CFG m) Fl.MAC_CFG_DFLT_DROP then v
         else v.queueFrame m (v.fld (Reg.MAC_CFG m) Fl.MAC_CFG_DFLT_Q) 255 bytes full cap mt))) ∧
  (∀ m, Happens (.pauseExpiry m) (fun u => u.macPaused m = false) (fun u => { u with mac.pause := Tab.del u.mac.pause m })) ∧
  (∀ m q f fs deferred cap, ∀ (t : Nat) (s : State),
    let u := (s.atTime t).macSettle m
    u.macOn m = true → u.flag (Reg.MAC_CFG m) Fl.MAC_CFG_TX_EN = true → u.mac.backoff.contains m = false →
    Tab.look u.mac.sending m = none → (List.range (macTxQueues m)).find? (fun q => u.txReady m q || (!u.macUp m && u.txHead m q)) = some q →
    Tab.at u.mac.txq [] (8 * m + q) = f :: fs →
    exec (.frameTransmit m deferred cap t) s = .next
      (if (u.txTake m q).macUp m = true ∧
          (framed f.bytes).length ≤ (u.txTake m q).fld (Reg.MAC_CFG m) Fl.MAC_CFG_MAX_LEN then
        (u.txTake m q).sendFrame m q 0 cap f false deferred
      else (u.txTake m q).macBump m 16)) ∧
  (∀ (m bits t : Nat) (x : Sending) (s : State),
    let u := (s.atTime t).macSettle m
    let stopped : State := { u with mac.sending := Tab.del u.mac.sending m }
    Tab.look u.mac.sending m = some x → u.macHalf m = true → x.endAt.isSome = true →
    exec (.collision m bits t) s = .next (if 512 ≤ bits then
        (stopped.macBump m 19).irq (Reg.MAC_IRQ_STAT m) Fl.MAC_IRQ_STAT_LATE_COL
      else if x.cols = 15 then (stopped.macBump m 20).irq (Reg.MAC_IRQ_STAT m) Fl.MAC_IRQ_STAT_EXCESS_COL
      else { u with
        mac.sending := Tab.put u.mac.sending m { x with cols := x.cols + 1, endAt := none }
        mac.backoff := m :: u.mac.backoff.filter (· != m) })) ∧
  (∀ m, Happens (.backoffExpiry m) anyState (fun u => { u with mac.backoff := u.mac.backoff.filter (· != m) })) ∧
  (∀ lock ber lf rf fl up speed full, Happens (.linkChange 2 lock ber lf rf fl up speed full) (fun u => u.macOn 2 = true)
    (fun u => (((u.setFld (Reg.MAC_LINK_STAT 2) Fl.MAC_LINK_STAT_INB_SPEED speed).setFlag (Reg.MAC_LINK_STAT 2)
      Fl.MAC_LINK_STAT_INB_FULL full).setUp 2 up).ptpFollowPort)) ∧
  (∀ m lock ber lf rf fl up speed full, m ≠ 2 →
    Happens (.linkChange m lock ber lf rf fl up speed full) (fun u => u.macOn m = true)
      (fun u =>
        let a := Reg.MAC_LINK_STAT m
        let v := ((((u.setFlag a Fl.MAC_LINK_STAT_BLOCK_LOCK lock).setFlag a Fl.MAC_LINK_STAT_HI_BER ber).setFlag a
          Fl.MAC_LINK_STAT_LOCAL_FAULT lf).setFlag a Fl.MAC_LINK_STAT_REMOTE_FAULT rf).setFlag a
          Fl.MAC_LINK_STAT_FEC_LOCK fl
        let v := if (ber && !u.flag a Fl.MAC_LINK_STAT_HI_BER) || (lf && !u.flag a Fl.MAC_LINK_STAT_LOCAL_FAULT) ||
            (rf && !u.flag a Fl.MAC_LINK_STAT_REMOTE_FAULT) then v.irq (Reg.MAC_IRQ_STAT m) Fl.MAC_IRQ_STAT_FAULT else v
        let fec := v.flag (Reg.MAC_CFG m) Fl.MAC_CFG_FEC && v.macSpeed m == 1
        (v.setUp m (lock && !ber && (!fec || fl) && !lf && !rf)).ptpFollowPort)) ∧
  (∀ data, Releases (.mdioFrameDone data) (fun u => u.flag (Reg.MAC_MDIO 2) Fl.MAC_MDIO_GO = true)
    (fun u =>
      let op := u.fld (Reg.MAC_MDIO 2) Fl.MAC_MDIO_OP
      let read := if u.flag (Reg.MAC_MDIO 2) Fl.MAC_MDIO_C45 then op == 3 else op == 2
      let v := u.setFlag (Reg.MAC_MDIO 2) Fl.MAC_MDIO_GO false
      let v := if read then v.setFld (Reg.MAC_MDIO 2) Fl.MAC_MDIO_DATA data else v
      v.finishHeld 1 stOK (by2 (v.fld (Reg.MAC_MDIO 2) Fl.MAC_MDIO_DATA))))

/-- The stream engine (R360, R373, R375): a queued frame of a media port is classified; a packet of a transmit stream
counts the samples that saturate at its format and leaves on each leg it uses at every multiple of its size; a leg without packets for a millisecond or four packets' time is
down. -/
def Obligations.StreamEventsComplete : Prop :=
  (∀ m q f fs, m < 2 → Happens (.streamFrame m)
    (fun u => (List.range 24).find? (fun q => !(Tab.at u.mac.rxq [] (32 * m + 8 + q)).isEmpty) = some q ∧
      Tab.at u.mac.rxq [] (32 * m + 8 + q) = f :: fs)
    (fun u =>
      let i := 32 * m + 8 + q
      State.classify { u with mac.rxq := if fs.isEmpty then Tab.del u.mac.rxq i else Tab.put u.mac.rxq i fs } m f)) ∧
  (∀ n e ra rb x c, Happens (.txPacket n e ra rb)
    (fun u => u.mode ∈ (if u.holds then [mIDLE, mRENDER, mMEASURE] else [mSTANDBY, mRESYNC]) ∧
      Tab.look u.strm.tx n = some x ∧ x.at' (e / u.folioLen - 2) = some c ∧ c.size ≠ 0 ∧ e % c.size = 0)
    (fun u =>
      let u := u.outSat (countIf (u.txWords n e c) (·.2))
      let v := if c.portA then u.txLeg n e 0 c c.dstA ra else u
      if c.portB then v.txLeg n e 1 c c.dstB rb else v)) ∧
  (∀ n leg x, leg < 2 → Happens (.legDown n leg)
    (fun u => Tab.look u.strm.rx n = some x ∧ (x.cfg.leg leg).on = true ∧ (x.leg leg).active = true ∧
      max (1000000 * u.fs) (4 * x.cfg.size * 1000000000) ≤ (u.now - (x.leg leg).last) * u.fs)
    (fun u => ((u.setRx n (x.setLeg leg { x.leg leg with active := false })).legBit n leg false).irq Reg.STRM_IRQ_STAT
      Fl.STRM_IRQ_STAT_LEG_DOWN))

/-- The clock system (R387 to R394): with the clocks of the always-on blocks running, an edge of a reference is timed, a
reference without edges for its loss time is lost, the references are measured, the one to follow is chosen and followed
or held over; the crystal fails and returns. -/
def Obligations.ClockEventsComplete : Prop :=
  (∀ r pps (t : Nat) (s : State),
    let u := s.atTime t
    let v := u.refEdge r t
    u.aonClocked = true →
      exec (.referenceEdge r pps t) s = .next
        (if pps = true ∧ r = 3 ∧ v.flag (Reg.CLK_REF_CFG 3) Fl.CLK_REF_CFG_PPS_EN = true then
          { v with clk.pps := some (t, v.sys.mediaTime) }
        else v)) ∧
  (∀ r (t : Nat) (s : State),
    let u := s.atTime t
    u.aonClocked = true → r < 5 → u.refActive r = true →
      (Tab.at u.clk.edgeAt 0 r + u.lossNs r ≤ t ∨ (r = 4 ∧ u.linkUp = false)) →
      exec (.referenceLost r t) s = .next (if r = 0 then (u.masterGone.loseRef 0).bmca else u.loseRef r)) ∧
  (∀ foff (t : Nat) (s : State),
    let u := s.atTime t
    u.aonClocked = true → u.flag Reg.CLK_STAT Fl.CLK_STAT_XO_FAIL = false →
      exec (.referenceMeasurement foff t) s = .next (forRange 0 5
        (fun r v => v.measureRef r (if r = 0 then rndDiv v.ptp.freq 100000 else nth foff r 0) t) u)) ∧
  (∀ phases ferrs, Happens (.referenceSelection phases ferrs) (fun u => u.aonClocked = true)
    (fun u =>
      let c := u.chooseRef
      let v := if c = u.clk.sel then u else if c = selHOLD then u.enterHoldover else if c = selOPEN then u.openDpll
        else u.selectRef c (nth phases c 0)
      let v : State := { v with clk.dirty := false }
      (if c ≤ 5 then v.runDpll (nth phases c 0) (nth ferrs c 0) (c != u.clk.sel) else v).alignMedia)) ∧
  Happens .xoFail (fun u => u.flag Reg.CLK_STAT Fl.CLK_STAT_XO_FAIL = false)
    (fun u =>
      let v := (u.setFlag Reg.CLK_STAT Fl.CLK_STAT_XO_FAIL true).bump Reg.CLK_XO_FAIL
      ({ v.irq Reg.CLK_IRQ_STAT Fl.CLK_IRQ_STAT_XO_FAIL with clk.backup := true } : State).xoCheck) ∧
  Happens .xoReturn anyState
    (fun u => { u.setFlag Reg.CLK_STAT Fl.CLK_STAT_XO_FAIL false with clk.backup := false })

/-- The PTP port (R401 to R405): a message of a bad domain or version is dropped and counted; Sync and Follow_Up of the
selected master, delay responses and announcements of the port are counted and used; requests and Sync messages are sent
at their intervals; the master is given up when its announcements stop. -/
def Obligations.TimeProtocolEventsComplete : Prop :=
  (let ok (h : PtpHead) (u : State) : Prop := u.ptpOn = true ∧ u.ptpBad h = false
   (∀ h two origin corr rx (t : Nat) (s : State),
     let u := s.atTime t
     ok h u → u.ptp.master.map (·.src) = some h.src → u.ptp.syncSeq ≠ some h.seq →
       let v : State := { (u.bump Reg.PTP_SYNC_RX).refEdge 0 t with ptp.syncSeq := some h.seq, ptp.twoStep := none }
       exec (.sync h two origin corr rx t) s = .next
         (if two then { v with ptp.twoStep := some (h.seq, rx, corr) } else v.syncDone (65536 * origin + corr) rx)) ∧
   (∀ h origin corr rx c, Happens (.followUp h origin corr)
     (fun u => ok h u ∧ u.ptp.twoStep = some (h.seq, rx, c) ∧ u.ptp.master.map (·.src) = some h.src)
     (fun u => ({ u with ptp.twoStep := none } : State).syncDone (65536 * origin + corr + c) rx)) ∧
   (∀ h (t2 t3 corr : Int) rx (t1 : Nat), Happens (.delayResp h true t2 t3 corr rx)
     (fun u => ok h u ∧ u.ptp.req = some (h.seq, t1) ∧ u.profile = 3)
     (fun u =>
       let v : State := { u.bump Reg.PTP_DELAY_RX with ptp.req := none }
       let d := rndDiv (65536 * ((rx : Int) - t1 - (t3 - t2)) - corr) 2
       let w : State := { v with ptp.delays := (d :: v.ptp.delays).take 16 }
       w.wr Reg.PTP_MPD (rndDiv w.mpd16 65536).toNat)) ∧
   (∀ h (t2 t3 corr : Int) rx (t1 : Nat) (ls : Int × Nat), Happens (.delayResp h true t2 t3 corr rx)
     (fun u => ok h u ∧ u.ptp.req = some (h.seq, t1) ∧ u.profile ≠ 3 ∧ u.ptp.lastSync = some ls)
     (fun u =>
       let v : State := { u.bump Reg.PTP_DELAY_RX with ptp.req := none }
       let d := rndDiv ((65536 * (ls.2 : Int) - ls.1) + (65536 * (t2 - t1) - corr)) 2
       let w : State := { v with ptp.delays := (d :: v.ptp.delays).take 16 }
       w.wr Reg.PTP_MPD (rndDiv w.mpd16 65536).toNat)) ∧
   (∀ h a (t : Nat) (s : State),
     let u := s.atTime t
     ok h u →
       let seen := match Tab.look u.ptp.foreign h.src with
         | some f => if t ≤ f.heard + 4 * u.ptpNs Fl.PTP_INTV_ANNOUNCE then f.seen + 1 else 1
         | none => 1
       let v := u.bump Reg.PTP_ANN_RX
       exec (.announce h a t) s = .next
         ({ v with ptp.foreign := Tab.put u.ptp.foreign h.src ⟨{ a with src := h.src }, t, seen⟩ } : State).bmca)) ∧
  (∀ a (t : Nat) (s : State),
    let u := s.atTime t
    u.ptp.master = some a → u.ptpOn = true →
      ((Tab.look u.ptp.foreign a.src).map (·.heard)).getD 0 +
        u.fld Reg.PTP_INTV Fl.PTP_INTV_ANN_TIMEOUT * u.ptpNs Fl.PTP_INTV_ANNOUNCE ≤ t →
      exec (.announceTimeout t) s = .next u.masterGone.bmca) ∧
  (∀ (x : Nat), Happens (.delayReqInterval (some x)) (fun u => u.ptpOn = true ∧ (u.profile = 3 ∨ u.ptp.master.isSome = true))
    (fun u =>
      let q := u.ptp.reqSeq
      let v := u.bump Reg.PTP_DELAY_TX
      { v with ptp.reqSeq := (q + 1) % 65536, ptp.sent := u.ptp.sent ++ [⟨1, q⟩], ptp.req := some (q, x) })) ∧
  Happens .syncInterval (fun u => u.ptpOn = true ∧ u.fld Reg.PTP_STAT Fl.PTP_STAT_PORT_STATE = 6)
    (fun u =>
      let q := u.ptp.txSeq
      { u with ptp.txSeq := (q + 1) % 65536, ptp.sent := u.ptp.sent ++ [⟨0, q⟩, ⟨8, q⟩, ⟨11, q⟩] })

/-- The rein and the Tether (R416 to R443): the rein is claimed, driven again after silence, released under contention and
given up by a self-fence; a frame of the Tether that arrives in sequence acts as its kind says, a bad or a skipped one
asks for retransmission; the link comes up and goes down; a resync pass, the cutover and a handover end; the marker is
reference 4. -/
def Obligations.PairEventsComplete : Prop :=
  (let hears (u : State) : State := { u with pair.edgeAt := some u.now }
   Happens .reinEdge (fun u => u.paired = true ∧ ((hears u).holds = false ∨ (hears u).ignoresRein = true)) hears ∧
   Happens .reinEdge
     (fun u => u.paired = true ∧ (hears u).holds = true ∧ (hears u).ignoresRein = false ∧
       ((hears u).setFlag Reg.TTH_STAT Fl.TTH_STAT_DRIVING false).yields = true)
     (fun u =>
       let v := (((hears u).setFlag Reg.TTH_STAT Fl.TTH_STAT_DRIVING false).dropRein).setPstate psWAIT
       let v := (v.bump Reg.TTH_RELEASE).irq Reg.TTH_IRQ_STAT Fl.TTH_IRQ_STAT_RELEASE
       { v with pair.waits := v.flag Reg.TTH_STAT Fl.TTH_STAT_ID_CONFLICT }) ∧
   Happens .reinEdge
     (fun u => u.paired = true ∧ (hears u).holds = true ∧ (hears u).ignoresRein = false ∧
       ((hears u).setFlag Reg.TTH_STAT Fl.TTH_STAT_DRIVING false).yields = false)
     (fun u => (hears u).setFlag Reg.TTH_STAT Fl.TTH_STAT_DRIVING false)) ∧
  Happens .claim (fun u => u.mayClaim = true)
    (fun u => ((u.takeRein.wakeAuto.bump Reg.TTH_CLAIM).irq Reg.TTH_IRQ_STAT Fl.TTH_IRQ_STAT_CLAIM).claimed) ∧
  Happens .redrive (fun u => u.paired = true ∧ u.holds = true ∧ u.quiet 1000 = true)
    (fun u => u.setFlag Reg.TTH_STAT Fl.TTH_STAT_DRIVING true) ∧
  Happens .contentionWaitEnd anyState (fun u => { u with pair.waits := false }) ∧
  (∀ c, c = 3 ∨ c = 4 → Happens (.selfFence c) anyState (fun u => u.selfFence c)) ∧
  Happens (.selfFence 1)
    (fun u => (u.mode = mRENDER ∨ u.mode = mMEASURE) ∧
      u.dp.tickNow * u.fs * 2 + 3 * u.folioLen * 1000000000 ≤ u.now * u.fs * 2)
    (fun u => u.selfFence 1) ∧
  (let up (u : State) : Prop := u.paired = true ∧ u.linkUp = true
   let due (f : TethIn) (u : State) : Prop := up u ∧ f.seq < 2 ^ 32 ∧ f.seq = u.pair.rxSeq
   let inSeq (f : TethIn) (u : State) : State :=
     State.peerReport { u with pair.lastRx := u.now, pair.rxSeq := (u.pair.rxSeq + 1) % 2 ^ 32, pair.nak := false } f
   let rows (f : TethIn) (bad : Bool) : List (Nat → Instr) :=
     [.mirror f bad, .sched f bad, .cmdlog f bad, .snap f bad, .digest f bad, .control f bad, .forward f bad]
   (∀ f, ∀ i ∈ rows f true, Releases i up (fun u => { u.bump Reg.TTH_CRC_ERR with pair.nak := true })) ∧
   (∀ f, Releases (.mirror f false) (due f)
     (fun u => (if (inSeq f u).follows then (inSeq f u).takeMirror f.body else inSeq f u).autoResync)) ∧
   (∀ f, Releases (.sched f false) (due f)
     (fun u => (if (inSeq f u).follows then takeRecords f.body.length f.body (inSeq f u) else inSeq f u).autoResync)) ∧
   (∀ f, Releases (.cmdlog f false) (due f) (fun u => ((inSeq f u).takeLog f.body).autoResync)) ∧
   (∀ f, Releases (.snap f false) (due f)
     (fun u =>
       let v := inSeq f u
       (if v.pstate = psRESYNC ∧ v.rphase = 2 then
         { v with pair.snap := v.pair.snap ++ [⟨u16 f.body 0, u64 f.body 4, f.body.drop 12⟩] } else v).autoResync)) ∧
   (∀ f, Releases (.digest f false) (due f)
     (fun u =>
       let v := inSeq f u
       (if v.pstate = psSTANDBY ∨ v.pstate = psRESYNC then
         ({ v with pair.peerDigs := Tab.put v.pair.peerDigs (u64 f.body 0) (u64 f.body 8) } : State).compareDigests
           (u64 f.body 0)
        else v).autoResync)) ∧
   (∀ f, Releases (.control f false) (due f) (fun u => ((inSeq f u).takeControl f).autoResync)) ∧
   (∀ f, Releases (.forward f false) (due f) (fun u => ((inSeq f u).takeForward f.body).autoResync))) ∧
  (∀ mt (t : Nat) (s : State),
    let u := s.atTime t
    u.paired = true → u.linkUp = true → u.aonClocked = true →
      exec (.clockMarker mt t) s = .next
        (({ u with clk.marker := some (mt % 2 ^ 56, u.sys.mediaTime % 2 ^ 56) } : State).refEdge 4 t)) ∧
  Releases .tetherDown (fun u => u.pair.lastRx + 100000 ≤ u.now) (fun u => u.tetherDown) ∧
  (∀ rtt, Happens (.tetherUp rtt) (fun u => u.paired = true ∧ u.linkUp = false)
    (fun u =>
      let v := ((u.setFlag Reg.TTH_LINK_STAT Fl.TTH_LINK_STAT_LANE0 true).setFlag Reg.TTH_LINK_STAT Fl.TTH_LINK_STAT_LANE1
        true).setFlag Reg.TTH_LINK_STAT Fl.TTH_LINK_STAT_ALIGNED true
      let v := (v.setFld Reg.TTH_LINK_STAT Fl.TTH_LINK_STAT_RTT_NS (min rtt 65535)).setFlag Reg.TTH_STAT
        Fl.TTH_STAT_LANE_DEG false
      let v := (v.setFlag Reg.TTH_STAT Fl.TTH_STAT_LINK_UP true).irq Reg.TTH_IRQ_STAT Fl.TTH_IRQ_STAT_LINK
      { v with pair.tx := [], pair.txSeq := 0, pair.rxSeq := 0, pair.nak := false, pair.lastRx := v.now,
               pair.ctlSent := v.now })) ∧
  (∀ lane, lane < 2 → Happens (.laneFail lane) (fun u => u.paired = true ∧ u.linkUp = true)
    (fun u => (u.setFlag Reg.TTH_LINK_STAT (if lane = 0 then Fl.TTH_LINK_STAT_LANE0 else Fl.TTH_LINK_STAT_LANE1)
      false).setFlag Reg.TTH_STAT Fl.TTH_STAT_LANE_DEG true)) ∧
  (let mine (u : State) : Prop := u.pstate = psRESYNC ∧ u.rphase = 2
   let passed (left : Nat) (u : State) : State :=
     (u.setFld Reg.TTH_RESYNC_STAT Fl.TTH_RESYNC_STAT_PASS (u.fld Reg.TTH_RESYNC_STAT Fl.TTH_RESYNC_STAT_PASS + 1)).setFld
       Reg.TTH_RESYNC_STAT Fl.TTH_RESYNC_STAT_DIRTY_KB (min left 65535)
   let tooMany (left : Nat) (u : State) : Prop := 16 ≤ u.fld Reg.TTH_RESYNC_STAT Fl.TTH_RESYNC_STAT_PASS + 1 ∧
     (passed left u).fld Reg.TTH_CFG Fl.TTH_CFG_CUT_KB < left
   (∀ pages left, Happens (.resyncPassEnd pages left) (fun u => mine u ∧ ¬ tooMany left u) (passed left)) ∧
   (∀ pages left, Happens (.resyncPassEnd pages left) (fun u => mine u ∧ tooMany left u)
     (fun u => (passed left u).failResync)) ∧
   (∀ pages left, Happens (.resyncPassEnd pages left)
     (fun u => u.servesResync = true ∧ ¬ mine u ∧ ¬ tooMany left (u.sendPages pages))
     (fun u => passed left (u.sendPages pages))) ∧
   (∀ pages c, Happens (.cutover pages c) (fun u => u.servesResync = true) (fun u => u.cutOut pages)) ∧
   (∀ pages c, Happens (.cutover pages c) (fun u => u.servesResync = false ∧ mine u)
     (fun u =>
       let m := u.takeoverMode
       let v : State := { u.loadSnap.setRphase 3 with pair.cut := some c, pair.matched := 0, pair.snap := [] }
       if m = mRENDER ∨ m = mMEASURE then v.startAt m c else v))) ∧
  Happens .resyncFail (fun u => u.pstate = psRESYNC) (fun u => u.failResync) ∧
  Happens .resyncFail (fun u => u.pstate ≠ psRESYNC) (fun u => { u with pair.cut := none }) ∧
  (∀ j, Releases .handoverSwap (fun u => u.pair.turn = some (j, false) ∧ u.pair.granted = true ∧ j + 2 ≤ u.slot)
    (fun u =>
      let v : State := { u with pair.turn := none, pair.granted := false }
      let v := ((v.dropRein).setPstate psSTANDBY).setMode mSTANDBY
      (v.irq Reg.TTH_IRQ_STAT Fl.TTH_IRQ_STAT_SWITCHOVER).finishHeld 3 stOK [])) ∧
  (∀ j, Releases .handoverSwap (fun u => u.pair.turn = some (j, true) ∧ u.pair.granted = true ∧ j + 2 ≤ u.slot)
    (fun u =>
      let v : State := { u with pair.turn := none, pair.granted := false }
      let w := (v.takeRein.setPstate psACTIVE).setMode v.takeoverMode
      ((w.bump Reg.TTH_SWITCHOVER).irq Reg.TTH_IRQ_STAT Fl.TTH_IRQ_STAT_SWITCHOVER).finishHeld 4 stOK [])) ∧
  Happens .keepAlive (fun u => u.paired = true ∧ u.linkUp = true ∧ u.pair.ctlSent + 10000 ≤ u.now)
    (fun u => u.control 0 0) ∧
  Happens .peerReadyLapse (fun u => ∀ c, u.pair.lastCtl = some c → c + 50000 < u.now) (fun u => u.setReady false)

/-- Power domains (R628, R630, R635): an idle domain enters retention when its timer ends, or stays ON and is counted
where activity arises in the same cycle; a retained one goes OFF when its second timer ends; an eligible ticket that
no engine in operation can take, a DRAM access or an outside event wakes it; a drain ends, or is refused when its time is over. -/
def Obligations.PowerEventsComplete : Prop :=
  (let due (d : Nat) (u : State) : Prop := u.timed d = true ∧ u.domState d = pON ∧
     u.flag (Reg.PWR_DOM_CFG d) Fl.PWR_DOM_CFG_AUTO_RET = true ∧ u.idle d = true ∧
     Tab.at u.pwr.retLim (max 10 (u.fld (Reg.PWR_DOM_CFG d) Fl.PWR_DOM_CFG_RET_US)) d * 1000 ≤
       u.now - Tab.at u.pwr.active 0 d
   (∀ d (t : Nat) (s : State), due d (s.atTime t) →
     exec (.retTimer d t true) s = .next { (s.atTime t).bump Reg.PWR_ABORT with
       pwr.active := Tab.put (s.atTime t).pwr.active d (s.atTime t).now }) ∧
   (∀ d (t : Nat) (s : State), due d (s.atTime t) → d ≠ dDRAM →
     exec (.retTimer d t false) s = .next ((s.atTime t).enterRet d)) ∧
   (∀ (t : Nat) (s : State), due dDRAM (s.atTime t) →
     exec (.retTimer dDRAM t false) s = .next ((s.atTime t).setDom dDRAM pENTER))) ∧
  (∀ d, Happens (.offTimer d)
    (fun u => u.timed d = true ∧ d ≠ dCTRL ∧ d ≠ dDRAM ∧ u.domState d = pRET ∧
      u.flag (Reg.PWR_DOM_CFG d) Fl.PWR_DOM_CFG_AUTO_OFF = true ∧ u.locked d = false ∧ u.planeHolds d = false ∧
      Tab.at u.pwr.offLim (max 1 (u.fld (Reg.PWR_DOM_OFFT d) Fl.PWR_DOM_OFFT_OFF_MS)) d * 1000000 ≤
        u.now - Tab.at u.pwr.retAt 0 d)
    (fun u => u.enterOff d)) ∧
  (let lives (u : State) : Prop := u.mode ≠ mSAFE ∧ u.mode ≠ mHALT
   (∀ d src, 2 ≤ src → Happens (.domainWake d src) lives (fun u => u.wake d true)) ∧
   Happens (.domainWake dDRAM 1) lives (fun u => u.wake dDRAM false) ∧
   (∀ d q l k, Happens (.domainWake d 0)
     (fun u => lives u ∧ (q, l) ∈ u.stbl.queues ∧ k ∈ l ∧ u.eligible k = true ∧ k.eng ≠ 255 ∧ engineDomain k.eng = d)
     (fun u => u.wake d false)) ∧
   (∀ d q l k e, Happens (.domainWake d 0)
     (fun u => lives u ∧ (q, l) ∈ u.stbl.queues ∧ k ∈ l ∧ u.eligible k = true ∧ k.eng = 255 ∧ u.classFull k.cls = true ∧
       e ∈ classEngines k.cls ∧ engineDomain e = d ∧ enginePresent u.otp.grade e = true)
     (fun u => u.wake d false))) ∧
  (∀ x, Releases .drainComplete
    (fun u => u.pwr.drain = some x ∧ ({ u with cmd.held := none } : State).idle x.dom = true) (fun u => u.drained x)) ∧
  (∀ x, Releases .drainTimeout
    (fun u => u.pwr.drain = some x ∧ max 10 (u.fld Reg.PWR_CFG Fl.PWR_CFG_DRAIN_TIMEOUT) * 1000 ≤ u.now - x.since)
    (fun u =>
      let v : State := { u.setDom x.dom pON with pwr.drain := none }
      ((v.bump Reg.PWR_REFUSED).irq Reg.PWR_IRQ_STAT Fl.PWR_IRQ_STAT_REFUSED).finishHeld 2 stREFUSED_BUSY []))

/-- Transactions of the Spine's masters (R514, R524): a burst that keeps to the duties of masters, or the next beats of
one, is handled whole; a burst that breaks them has no stated outcome and stops by name; a drained master's transactions
are gone. The aliases are transactions of their own address (R543). -/
def Obligations.SpineEventsComplete : Prop :=
  (∀ x, Happens (.spineTransaction x) (fun u => u.portOpen x.master = true ∧ x.cont = false ∧ burstOk x = true)
    (fun u => u.request x)) ∧
  (∀ x, Happens (.spineTransaction x) (fun u => u.portOpen x.master = true ∧ x.cont = true) (fun u => u.goOn x)) ∧
  (∀ x (t : Nat) (s : State), (s.atTime t).portOpen x.master = true → x.cont = false → burstOk x = false →
    exec (.spineTransaction x t) s = .fault (.dutyBroken 514)) ∧
  (∀ m, Happens (.masterDrainDone m) (fun u => u.flag (Reg.SPN_MST_STAT m) Fl.SPN_MST_STAT_DRAIN = true)
    (fun u => (({ u with spn.txns := u.spn.txns.filter (fun x => x.master != m) } : State).setFlag (Reg.SPN_MST_STAT m)
      Fl.SPN_MST_STAT_DRAIN false).irq Reg.SPN_IRQ_STAT Fl.SPN_IRQ_STAT_MST_RST)) ∧
  (∀ m a data strobes, Happens (.bitSetWrite m a data strobes)
    (fun u => u.portOpen m = true ∧ burstOk (aliasReq m (0x20000000 + a % 2 ^ 29) data strobes) = true)
    (fun u => u.request (aliasReq m (0x20000000 + a % 2 ^ 29) data strobes))) ∧
  (∀ m a data strobes, Happens (.bitClearWrite m a data strobes)
    (fun u => u.portOpen m = true ∧ burstOk (aliasReq m (0x60000000 + a % 2 ^ 29) data strobes) = true)
    (fun u => u.request (aliasReq m (0x60000000 + a % 2 ^ 29) data strobes)))

/-- On-chip memory and DRAM look after themselves (R535 to R540, R556 to R564): the Groomer steps, aborts and retries;
rows are repaired and retired; banks are refreshed, postponed at most eight times; self-refresh is entered and left;
channels are calibrated; heat lowers the frequency; a failure enters SAFE. -/
def Obligations.MemoryEventsComplete : Prop :=
  (∀ ue rows, Happens (.groomerStep ue rows) (fun u => u.groomOn = true ∧ u.memc.retryAt = none)
    (fun u => u.groomStep ue rows)) ∧
  (let lim (u : State) : Nat := max 1 ((u.bump Reg.MEM_GRM_ABORT).fld Reg.MEM_GRM_CFG Fl.MEM_GRM_CFG_MAX_ABORT)
   let steps (u : State) : Prop := u.groomOn = true ∧ ∀ r, u.memc.retryAt = some r → r ≤ u.now
   Happens .groomerAbort (fun u => steps u ∧ lim u ≤ u.memc.aborts + 1)
     (fun u => ((u.bump Reg.MEM_GRM_ABORT).bump Reg.MEM_GRM_SKIP).nextRegion) ∧
   Happens .groomerAbort (fun u => steps u ∧ u.memc.aborts + 1 < lim u)
     (fun u =>
       let v := u.bump Reg.MEM_GRM_ABORT
       { v with
         memc.aborts := v.memc.aborts + 1
         memc.retryAt := some (v.now + max 1 (v.fld Reg.MEM_GRM_CFG Fl.MEM_GRM_CFG_BACKOFF) * 10000) })) ∧
  (∀ ue rows r, Happens (.groomerRetry ue rows) (fun u => u.memc.retryAt = some r ∧ u.groomOn = true ∧ r ≤ u.now)
    (fun u => u.groomStep ue rows)) ∧
  (∀ bank row e, Happens (.rowRepair bank row)
    (fun u => u.memc.list.find? (fun e => e.1 == bank && e.2.1 == row) = some e ∧
      u.flag Reg.MEM_CFG Fl.MEM_CFG_AUTO_REPAIR = true)
    (fun u => u.repairRow bank row e.2.2)) ∧
  (∀ chan bank row, Happens (.rowRetire chan bank row)
    (fun u => u.flag Reg.DMC_CFG Fl.DMC_CFG_AUTO_RETIRE = true ∧ (chan, bank, row) ∈ u.dmc.list)
    (fun u => u.retireRow chan bank row 0)) ∧
  (let queued (chan bank : Nat) (u : State) : Bool :=
     u.spn.txns.any (fun x => x.target == 10 + chan && (dramLoc (x.addr - dramBase)).bank == bank)
   let lives (u : State) : Prop := u.dramPowered = true ∧ u.flag Reg.DMC_STAT Fl.DMC_STAT_SELF_REF = false
   (∀ chan bank, Happens (.refresh chan bank)
     (fun u => lives u ∧ queued chan bank u = true ∧ Tab.at u.dmc.postponed 0 (16 * chan + bank) < 8)
     (fun u => { u with dmc.postponed := Tab.put u.dmc.postponed (16 * chan + bank)
                          (Tab.at u.dmc.postponed 0 (16 * chan + bank) + 1) })) ∧
   (∀ chan bank, Happens (.refresh chan bank)
     (fun u => lives u ∧ (queued chan bank u = false ∨ 8 ≤ Tab.at u.dmc.postponed 0 (16 * chan + bank)))
     (fun u => { u with dmc.postponed := Tab.del u.dmc.postponed (16 * chan + bank) }))) ∧
  (∀ chan bank, Happens (.refreshWindow chan bank) anyState
    (fun u =>
      let lo := actIdx chan bank 0
      let ends (x : DmcThrottle) : DmcThrottle :=
        if x.chan = chan ∧ x.bank = bank then { x with windows := x.windows - 1 } else x
      { u with
        dmc.acts := u.dmc.acts.filter (fun e => !(decide (lo ≤ e.1) && decide (e.1 < lo + 65536)))
        dmc.throttles := (u.dmc.throttles.map ends).filter (fun x => x.windows != 0) })) ∧
  Happens (.selfRefreshEntry false) (fun u => u.domState dDRAM = pENTER ∧ u.spineBusy dDRAM = false)
    (fun u => (((u.bump Reg.DMC_SR_ENTRY).setFlag Reg.DMC_STAT Fl.DMC_STAT_SELF_REF true).setDom dDRAM pRET).bump
      Reg.PWR_RET_ENTRY) ∧
  Happens (.selfRefreshEntry true) (fun u => u.domState dDRAM = pENTER)
    (fun u =>
      let v := (u.bump Reg.DMC_SR_ABORT).setDom dDRAM pON
      { v with pwr.active := Tab.put u.pwr.active dDRAM u.now }) ∧
  Happens .selfRefreshExit (fun u => u.flag Reg.DMC_STAT Fl.DMC_STAT_SELF_REF = true) (fun u => u.selfRefreshExit) ∧
  (let lives (u : State) : Prop := u.dramPowered = true ∧ u.flag Reg.DMC_STAT Fl.DMC_STAT_SELF_REF = false
   let noted (chan : Nat) (forced : Bool) (outs : Nat) (u : State) : State :=
     (if forced then u.bump Reg.DMC_CAL_FORCED else u).setFlag (Reg.DMC_CH_STAT chan) Fl.DMC_CH_STAT_CAL_RETRY
       (decide (1 ≤ outs))
   (∀ chan forced outs, outs < 2 → Happens (.calibration chan forced outs) lives (noted chan forced outs)) ∧
   (∀ chan forced outs, 2 ≤ outs → Happens (.calibration chan forced outs) lives
     (fun u => ((noted chan forced outs u).setFlag (Reg.DMC_CH_STAT chan) Fl.DMC_CH_STAT_UP false).dramFail 2))) ∧
  (let heard (temp : Int) (u : State) : State :=
     let v := (u.setFld Reg.DMC_STAT Fl.DMC_STAT_TEMP (ofS 8 temp)).setFlag Reg.DMC_STAT Fl.DMC_STAT_HOT
       (decide (85 < temp))
     { v with dmc.coolSince := if temp ≤ 85 then (match v.dmc.coolSince with | some c => some c | none => some v.now) else none }
   (∀ temp : Int, 95 ≤ temp → Happens (.dramThermal temp)
     (fun u => u.dramPowered = true ∧ (heard temp u).fld Reg.DMC_STAT Fl.DMC_STAT_FSP_NOW = 0)
     (fun u => { (heard temp u).thermChange 1 with dmc.thermDrop := true })) ∧
   (∀ temp : Int, 85 < temp → Happens (.dramThermal temp)
     (fun u => u.dramPowered = true ∧ ¬ (95 ≤ temp ∧ (heard temp u).fld Reg.DMC_STAT Fl.DMC_STAT_FSP_NOW = 0))
     (heard temp)) ∧
   (let cooled (u : State) : Prop := u.dmc.thermDrop = true ∧ u.dmc.coolSince.getD u.now + 10000000000 ≤ u.now
    (∀ temp : Int, temp ≤ 85 → Happens (.dramThermal temp) (fun u => u.dramPowered = true ∧ ¬ cooled u) (heard temp)) ∧
    (∀ temp : Int, temp ≤ 85 → Happens (.dramThermal temp) (fun u => u.dramPowered = true ∧ cooled u)
      (fun u =>
        let v : State := { heard temp u with dmc.thermDrop := false }
        if v.fld Reg.DMC_CFG Fl.DMC_CFG_FSP = 0 then v.thermChange 0 else v)))) ∧
  (∀ cause, 1 ≤ cause → cause ≤ 3 → Happens (.dramFailure cause) (fun u => u.dramPowered = true)
    (fun u => u.dramFail cause))

/-- Measurement, mixing and correction move on (R194, R209, R242, R243, R271, R275, R282, R283, R297): a probe group ends
and the next begins at each period; an autotrim step is taken when its trim is due; an input, output or bus falls silent
after its hold; swaps advance; the D1 reference is held over; a bridge slips; a D1 block ends. -/
def Obligations.SoundEventsComplete : Prop :=
  (∀ mt, Happens (.probeGroupBoundary mt)
    (fun u => u.mode = mRENDER ∧ u.emiCfg.flag Reg.MEAS_PRB_CFG Fl.MEAS_PRB_CFG_EN = true ∧ u.emiCfg.prbPeriod ≠ 0 ∧
      mt % u.emiCfg.prbPeriod = 0)
    (fun u => u.closeGroup mt)) ∧
  (∀ o q, 16 ≤ q → q < 20 → Happens (.autotrimStep o q)
    (fun u =>
      let h := bitsN (u.rd (Reg.MEAS_HEALTH (o / 16))) (2 * (o % 16) + 1) (2 * (o % 16))
      u.autotrim o = true ∧ h ≠ 0 ∧ h ≠ 3 ∧
        ∀ t0, (Tab.at u.meas.trim ⟨0, none⟩ (4 * o + (q - 16))).stepped = some t0 → 30000000000 ≤ u.now - t0)
    (fun u =>
      let x := Tab.at u.meas.trim ⟨0, none⟩ (4 * o + (q - 16))
      match u.trimDev2 o q with
      | none => u
      | some d =>
        let g := nextTrim x.gain d
        if g = x.gain then u
        else
          let b := by2 o ++ by1 q ++ by1 1 ++ eqRec (some (trimCoef q g u.fs))
          let v : State := { u.putEq o q (some (trimCoef q g u.fs)) with
            meas.trim := Tab.put u.meas.trim (4 * o + (q - 16)) ⟨g, some u.now⟩ }
          let w := v.record 0x0704 b []
          if w.peerStandby then w.logToStandby ⟨0, ⟨0, 0, 0, 0⟩, 0, b.length, 0, 2, 0, b, [], u.now⟩ 0x0704 else w)) ∧
  (∀ k, Happens (.silenceEnter 3 k) (fun u => u.silDue k = true)
    (fun u => u.silEnter k)) ∧
  (∀ d k, d ≠ 3 → Happens (.silenceEnter d k)
    (fun u => u.flag (Reg.MIX_BUS_CFG d k) Fl.MIX_BUS_CFG_SIL_EN = true ∧
      (Tab.at (u.mixDom d).sil BusSil.init k).silent = false ∧
      u.fld Reg.MIX_SIL_CFG Fl.MIX_SIL_CFG_HOLD * u.domRate d ≤ (Tab.at (u.mixDom d).sil BusSil.init k).run)
    (fun u => (((u.bump Reg.MIX_SIL_ENTER).irq Reg.MIX_IRQ_STAT Fl.MIX_IRQ_STAT_SIL_ENTER).putBusSil d k
      { Tab.at (u.mixDom d).sil BusSil.init k with silent := true }).refreshHint)) ∧
  (∀ o q, Happens (.eqCrossfadeEnd o q) anyState (fun u => u.eqFinish o q)) ∧
  Happens .swapGroupPhase anyState (fun u => u.swapPhase) ∧
  Happens .historyWaitEnd anyState (fun u => u.swapWait) ∧
  Happens .d1Holdover (fun u => u.capCfg.fld Reg.MIX_DOM_CFG Fl.MIX_DOM_CFG_D1_REF < 2 ∧ u.mix.d1Hold = false)
    (fun u => (({ u with mix.d1Hold := true } : State).bump Reg.MIX_D1_HOLD).irq Reg.MIX_IRQ_STAT
      Fl.MIX_IRQ_STAT_D1_HOLD) ∧
  (∀ k, k < 64 → Happens (.bridgeSlip k) (fun u => u.bridgeFree u.capCfg k = true)
    (fun u =>
      let b := (Tab.look u.mix.bridges k).getD Bridge.init
      (({ u with mix.bridges := Tab.put u.mix.bridges k { b with phase := 1 } } : State).bump Reg.MIX_BRG_SLIP).irq
        Reg.MIX_IRQ_STAT Fl.MIX_IRQ_STAT_SLIP)) ∧
  (let told (ratio : Nat) (u : State) : State := u.wr Reg.MIX_D1_RATIO ratio
   (∀ ratio pdm, Happens (.d1BlockBoundary ⟨ratio, pdm⟩) (fun u => (told ratio u).d2Lock = true)
     (fun u => (told ratio u).blockEnd 1)) ∧
   (∀ ratio pdm, Happens (.d1BlockBoundary ⟨ratio, pdm⟩) (fun u => (told ratio u).d2Lock = false)
     (fun u =>
       let v := told ratio u
       ((((v.micTick v.capCfg pdm).turnBlock 1).turnBlock 2).issueBlock 1).issueBlock 2)))

/-- The performance counters (R650 to R656): the pin, a match and the register trigger snapshots; a counter that passes 48
bits carries into its partner or marks itself; a bandwidth window ends; the counters are selected, cleared, run and
frozen. -/
def Obligations.CounterEventsComplete : Prop :=
  Happens .pmcSnapPin (fun u => u.aonClocked = true ∧ u.flag Reg.PMC_CFG Fl.PMC_CFG_PIN_EN = true)
    (fun u => u.pmcTrigger 2) ∧
  Happens .pmcMatch
    (fun u => u.aonClocked = true ∧ u.flag Reg.PMC_CFG Fl.PMC_CFG_MATCH_EN = true ∧ u.pmcMatchNs ≤ u.localNs)
    (fun u => (u.pmcTrigger 4).setFlag Reg.PMC_CFG Fl.PMC_CFG_MATCH_EN false) ∧
  (let wrapped (k : Nat) (u : State) : State :=
     { u with pmc.cnt := Tab.put u.pmc.cnt k (Tab.at u.pmc.cnt 0 k - 2 ^ 48) }
   (∀ k, Happens (.counterWrap k) (fun u => 2 ^ 48 ≤ Tab.at u.pmc.cnt 0 k ∧ (wrapped k u).chained k = true)
     (fun u => (wrapped k u).pmcPlus (k + 1) 1)) ∧
   (∀ k, Happens (.counterWrap k) (fun u => 2 ^ 48 ≤ Tab.at u.pmc.cnt 0 k ∧ (wrapped k u).chained k = false)
     (fun u => ((wrapped k u).setFlag (Reg.PMC_STATK k) Fl.PMC_STATK_STICKY true).irq Reg.PMC_IRQ_STAT
       Fl.PMC_IRQ_STAT_WRAP))) ∧
  (let len (u : State) : Nat := max 1 (u.fld Reg.PMC_BW_CFG Fl.PMC_BW_CFG_WIN_US) * 1000
   Happens .bandwidthWindow
     (fun u => u.aonClocked = true ∧ u.flag Reg.PMC_BW_CFG Fl.PMC_BW_CFG_EN = true ∧ u.pmc.winAt + len u ≤ u.now)
     (fun u =>
       let v := (List.range 54).foldl
         (fun (v : State) p =>
           let n := min (Tab.at v.pmc.bytes 0 p / 16) 0xFFFFFFFF
           (v.wr (Reg.PMC_BW p) n).wr (Reg.PMC_BW_PEAK p) (max n (v.rd (Reg.PMC_BW_PEAK p)))) u
       { v with pmc.bytes := [], pmc.winAt := v.pmc.winAt + len u })) ∧
  (∀ k v, Happens (.pmcSelWrite k v) anyState (fun u => u.pmcSelWrite k v)) ∧
  (∀ k v, Happens (.pmcMmaskWrite k v) anyState (fun u => u.pmcMaskWrite k v)) ∧
  Happens .clrAll anyState (fun u => u.pmcClearAll) ∧ Happens .run anyState (fun u => u.pmcRun) ∧
  Happens .freeze anyState (fun u => u.pmcFreeze) ∧ Happens .snapTrigger anyState (fun u => u.pmcTrigger 1)

/-- Registers whose reading or writing does more than hold a value (R9, R523, R546, R566, R649 and the register tables of
the blocks): a read latches its other half or pops its log, a selector latches what it selects, and a read returns the
value the register had. -/
def Obligations.RegisterAccessesComplete : Prop :=
  Happens .mediaTimeLoRead anyState (fun u => u.latchMedia.readReturns (u.sys.mediaTime % 2 ^ 32)) ∧
  (∀ v, Happens (.omsObjSel v) anyState (fun u => u.latchObj v)) ∧
  (∀ v, Happens (.geoSpkSel v) anyState (fun u => u.latchSpk v)) ∧
  (∀ v, Happens (.fabObjSel v) anyState (fun u => u.latchFab v)) ∧
  Happens .fabClampLastRead anyState (fun u => (u.wr Reg.FAB_CLAMP_LAST 0).readReturns (u.rd Reg.FAB_CLAMP_LAST)) ∧
  (∀ v, Happens (.outMonSel v) anyState (fun u => u.latchMon v)) ∧
  (∀ v, Happens (.convOutSel v) anyState (fun u => u.latchConv v)) ∧
  (∀ m, Happens (.txtsPop m) anyState (fun u => (u.popStamp m).readReturns ((u.popStamp m).rd (Reg.MAC_TXTS_W0 m)))) ∧
  (∀ m k, Happens (.macStatRead m k) anyState
    (fun u => ((u.macSettle m).macStatRead m k).readReturns (Tab.at (u.macSettle m).mac.stats 0 (32 * m + k) % 2 ^ 32))) ∧
  (∀ m, m < 3 → Happens (.macRuleGo m) anyState (fun u => u.ruleSwap m)) ∧
  (∀ v, v.testBit 31 = true → Happens (.mdioGo v) (fun u => u.flag (Reg.MAC_MDIO 2) Fl.MAC_MDIO_GO = false)
    (fun u => u.mdioGo v)) ∧
  Happens .clkDcoLoRead anyState (fun u => u.latchDco.readReturns (u.liveClk Reg.CLK_DCO_LO)) ∧
  Happens .ptpTimeNsRead anyState (fun u => u.latchPtp.readReturns (u.livePtp Reg.PTP_TIME_NS)) ∧
  Happens .spnErrlogPop anyState (fun u => u.spnPop.1.readReturns u.spnPop.2) ∧
  Happens .memErrlogPop anyState (fun u => u.memPop.1.readReturns u.memPop.2) ∧
  (∀ v, Happens (.memBankSel v) anyState (fun u => u.memBankSel v)) ∧
  Happens .dmcErrlogPop anyState (fun u => u.dmcPop.1.readReturns u.dmcPop.2) ∧
  Happens .pwrRtcLoRead anyState (fun u => u.latchRtc.readReturns (u.rtcNow % 2 ^ 32)) ∧
  (∀ k, Happens (.pmcCntLoRead k) anyState (fun u => (u.latchCnt k).readReturns (u.livePmc (Reg.PMC_CNT_LO k)))) ∧
  (∀ k, Happens (.pmcSnapLoRead k) anyState (fun u => (u.latchSnap k).readReturns (u.livePmc (Reg.PMC_SNAP_LO k)))) ∧
  (∀ v, Happens (.gpioSet v) anyState (fun u => u.gpioSet v)) ∧
  (∀ v, Happens (.gpioClr v) anyState (fun u => u.gpioClr v)) ∧
  (∀ k level, k < 16 → Happens (.gpioEdge k level)
    (fun u => u.aonClocked = true ∧ (u.rd Reg.GPIO_IN).testBit k ≠ level)
    (fun u =>
      let v := u.wr Reg.GPIO_IN (setBitN (u.rd Reg.GPIO_IN) k level)
      if (bitsN (v.rd Reg.GPIO_EDGE) (2 * k + 1) (2 * k)).testBit (if level then 0 else 1) then
        v.irq Reg.GPIO_IRQ_STAT ⟨k, k⟩
      else v)) ∧
  (∀ rnd, Happens (.jtagChallenge rnd) (fun u => u.challengeOn = true ∧ u.jtagFails < 8)
    (fun u => { u.readReturns (leVal (slice rnd 0 32 ++ by8 u.otp.uid)) with
      sys.jtagChal := some (slice rnd 0 32 ++ by8 u.otp.uid) })) ∧
  (∀ rnd, Happens (.jtagChallenge rnd) (fun u => u.challengeOn = true ∧ 8 ≤ u.jtagFails)
    (fun u => { u.readReturns 0 with sys.jtagChal := none })) ∧
  (let answered (u : State) : State := { u with sys.jtagChal := none }
   (∀ bytes c, Happens (.jtagResponse bytes)
     (fun u => u.challengeOn = true ∧ u.sys.jtagChal = some c ∧ u.responseOk bytes c = true)
     (fun u => { (answered u).irq Reg.SEC_IRQ_STAT Fl.SEC_IRQ_STAT_JTAG_OPEN with sys.jtagOpen := true })) ∧
   (∀ bytes, Happens (.jtagResponse bytes)
     (fun u => u.challengeOn = true ∧ ∀ c, u.sys.jtagChal = some c → u.responseOk bytes c = false)
     (fun u => ((answered u).setFld Reg.SEC_JTAG_STAT Fl.SEC_JTAG_STAT_FAILS (min 15 ((answered u).jtagFails + 1))).irq
       Reg.SEC_IRQ_STAT Fl.SEC_IRQ_STAT_JTAG_FAIL)))

/-- The register bus (R7, R9, R521): a word write to a register that a block decodes and that no cause of R521 turns away
writes the register by its access kind; another write is dropped and logged with its master and address; a
write-one-to-clear row leaves the other bits; a read returns the register and has its side effect. -/
def Obligations.RegisterBusCompletes : Prop :=
  let there (a n : Nat) (u : State) : Prop := (blockOf a).isSome = true ∧ u.regCause a n = none
  (∀ m a n v, Happens (.registerWrite m a n v) (there a n) (fun u => u.writeReg a v)) ∧
  (∀ m a n v c, Happens (.registerWrite m a n v) (fun u => (blockOf a).isSome = true ∧ u.regCause a n = some c)
    (fun u => u.decErr ⟨true, c, 7, m, a⟩)) ∧
  (∀ a v hw, Happens (.w1cWrite a v hw) (there a 4)
    (fun u => u.plainWrite a (v &&& rowMask a (·.w1c) ||| u.rd a &&& rowMask a (fun r => r.rw ||| r.rws)) hw)) ∧
  (∀ a hw, Happens (.rcRead ⟨a, hw⟩) (there a 4) (fun u => ((u.readReg a).1.setRc a hw).readReturns (u.readReg a).2))

/-- The tickets of the effect cores (R451, R452, R455, R474): a ticket starts with its inputs and parameters copied and
the registers of R451; one that cannot go on aborts; one that still runs at the end of its slot is late; an interrupt is
taken before the next word, once the delay slots are over. -/
def Obligations.EffectTicketsComplete : Prop :=
  (∀ c x g, Happens (.fxTicketStart c)
    (fun u => u.runningOn (16 + c) [tkFX] = some x ∧ Tab.look u.fx.cores c = none ∧
      u.fxProg (x.tk.item % 16) x.tk.folio = some g)
    (fun u =>
      let v := ((u.fxBring (x.tk.item % 16) g).fxCopyIn g x.tk.folio).fxParams g (x.tk.item % 16) x.tk.folio
      let f := v.folioLen
      let g : FxInst := { g with load := [] }
      let regs := [(0x20, g.inOff), (0x21, g.outOff), (0x22, 8 * g.wc + g.pOff), (0, f), (1, x.tk.folio % 2 ^ 32),
        (2, g.inputs.length), (3, g.nout)].foldl (fun t y => putReg t y.1 y.2) []
      let k : FxCore :=
        { inst := x.tk.item % 16, prog := g, folio := x.tk.folio, pc := g.entry, regs := regs, acc := [], csr := g.scale,
          cnt := 0, slots := 0, target := none, ending := false, pend := [], causes := 0, held := false, late := false,
          start := x.since, intrs := 0 }
      { v with fx.cores := Tab.put v.fx.cores c k })) ∧
  (∀ c k, Releases (.fxTicketAbort c) (fun u => Tab.look u.fx.cores c = some k ∧ k.ready = true ∧ u.fxcFetch k = none)
    (fun u => u.fxcAbort c k 2)) ∧
  (∀ c k w, Releases (.fxTicketAbort c)
    (fun u => Tab.look u.fx.cores c = some k ∧ k.ready = true ∧ u.fxcFetch k = some w ∧
      (wordOk w = false ∨ k.stateOk w = false))
    (fun u => u.fxcAbort c k 3)) ∧
  (∀ c k w, Releases (.fxTicketAbort c)
    (fun u => Tab.look u.fx.cores c = some k ∧ k.ready = true ∧ u.fxcFetch k = some w ∧ wordOk w = true ∧
      k.stateOk w = true ∧ u.wordMoves k w = none)
    (fun u => u.fxcAbort c k 2)) ∧
  (∀ c k, Happens (.fxTicketLate c)
    (fun u => Tab.look u.fx.cores c = some k ∧ k.late = false ∧ k.folio + 2 ≤ u.slot)
    (fun u =>
      let v := (u.bump Reg.FXC_LATE).irq Reg.FXC_IRQ_STAT Fl.FXC_IRQ_STAT_LATE
      { v with fx.cores := Tab.put v.fx.cores c { k with late := true } })) ∧
  (∀ c k, Happens (.fxInterruptEntry c)
    (fun u => Tab.look u.fx.cores c = some k ∧ k.causes ≠ 0 ∧ k.slots = 0)
    (fun u =>
      let regs := putReg (putReg (putReg k.regs rIPC k.pc) rICSR k.csr) rICAUSE
        (bitsN k.causes 4 0 + bitsN k.causes 11 8 * 256)
      let v := u.bump Reg.FXC_INTR
      let h : FxCore := { k with
        regs := regs, csr := setBitN k.csr 11 true, pc := k.prog.vector, causes := 0, intrs := k.intrs + 1 }
      { v with fx.cores := Tab.put u.fx.cores c h }))

/-- The multiplier and accumulator instructions of the effect cores (R463, R464, R478): exact products into one
accumulator, a pair or all four; a scaled, rounded and saturated move out; the three parts of an accumulator; an
accumulator loaded, cleared, added to and shifted. -/
def Obligations.AccumulatorWordsRetire : Prop :=
  let out (w : Nat) (v : Int) : FxRes := { now := [(fcD w, ofS 32 v)] }
  Retires .fxNop 0x00 (fun _ _ => {}) ∧
  Retires .fxMul 0x01 (fun k w => { acc := [(fcA w, k.x w * k.y w)] }) ∧
  Retires .fxMac 0x02 (fun k w => { acc := [(fcA w, k.a (fcA w) + k.x w * k.y w)] }) ∧
  Retires .fxMsu 0x03 (fun k w => { acc := [(fcA w, k.a (fcA w) - k.x w * k.y w)] }) ∧
  (let four (m : Int) (k : FxCore) (w : Nat) : FxRes :=
     { acc := [(0, m * k.a 0 + k.x w * k.y w), (1, m * k.a 1 + k.x w * k.y1 w), (2, m * k.a 2 + k.x1 w * k.y w),
               (3, m * k.a 3 + k.x1 w * k.y1 w)] }
   Retires .fxQmul 0x04 (four 0) ∧ Retires .fxQmac 0x05 (four 1)) ∧
  (let two (m j : Int) (k : FxCore) (w : Nat) : FxRes :=
     { acc := [(fcA w, m * k.a (fcA w) + k.x w * k.y w - j * (k.x1 w * k.y1 w)),
               (fcA w + 1, m * k.a (fcA w + 1) + j * (k.x w * k.y1 w) + k.x1 w * k.y w)] }
   Retires .fxCmul 0x06 (two 0 1) ∧ Retires .fxCmac 0x07 (two 1 1) ∧ Retires .fxCmulc 0x08 (two 0 (-1)) ∧
   Retires .fxCmacc 0x09 (two 1 (-1))) ∧
  Retires .fxMva 0x10 (fun k w =>
    let v := rndShr (k.a (fcA w)) (if k.csr % 16 = 8 then 30 else 31 + k.csr % 16)
    { now := [(fcD w, ofS 32 (satS 32 v))], sat := satS 32 v != v }) ∧
  Retires .fxMvah 0x11 (fun k w => out w (k.a (fcA w) / 2 ^ 32)) ∧
  Retires .fxMval 0x12 (fun k w => out w (k.a (fcA w))) ∧
  Retires .fxMvag 0x13 (fun k w => out w (k.a (fcA w) / 2 ^ 64)) ∧
  Retires .fxMvda 0x14 (fun k w => { acc := [(fcA w, k.x w * 2 ^ 31)] }) ∧
  Retires .fxAclr 0x15 (fun _ w => { acc := [(fcA w, 0)] }) ∧
  Retires .fxAadd 0x16 (fun k w => { acc := [(fcA w, k.a (fcA w) + k.a (fcY w % 4))] }) ∧
  Retires .fxAsra 0x17 (fun k w => { acc := [(fcA w, k.a (fcA w) / 2 ^ fcY w)] })

/-- The data instructions of the effect cores (R465, R478): sums, differences, negation, magnitude and left shift
saturate; the wrapping sums wrap; each of the opcodes 20 to 2F gives its result to the flags; a move does not. -/
def Obligations.DataWordsRetire : Prop :=
  let sat (w : Nat) (v : Int) : FxRes :=
    { now := [(fcD w, ofS 32 (satS 32 v))], flags := some (satS 32 v, satS 32 v != v), sat := satS 32 v != v }
  let wraps (w : Nat) (v : Int) : FxRes :=
    { now := [(fcD w, ofS 32 (toS 32 (ofS 32 v)))], flags := some (toS 32 (ofS 32 v), toS 32 (ofS 32 v) != v) }
  let bits (w : Nat) (v : Nat) : FxRes := wraps w (toS 32 v)
  let by_ (k : FxCore) (w : Nat) : Nat := min 31 (k.rd (fcY w) % 64)
  Retires .fxAdd 0x20 (fun k w => sat w (k.x w + k.y w)) ∧ Retires .fxSub 0x21 (fun k w => sat w (k.x w - k.y w)) ∧
  Retires .fxAddw 0x22 (fun k w => wraps w (k.x w + k.y w)) ∧
  Retires .fxSubw 0x23 (fun k w => wraps w (k.x w - k.y w)) ∧
  Retires .fxNeg 0x24 (fun k w => sat w (-(k.x w))) ∧ Retires .fxAbs 0x25 (fun k w => sat w (k.x w).natAbs) ∧
  Retires .fxMin 0x26 (fun k w => sat w (min (k.x w) (k.y w))) ∧
  Retires .fxMax 0x27 (fun k w => sat w (max (k.x w) (k.y w))) ∧
  Retires .fxAnd 0x28 (fun k w => bits w (k.rd (fcX w) &&& k.rd (fcY w))) ∧
  Retires .fxOr 0x29 (fun k w => bits w (k.rd (fcX w) ||| k.rd (fcY w))) ∧
  Retires .fxXor 0x2A (fun k w => bits w (k.rd (fcX w) ^^^ k.rd (fcY w))) ∧
  Retires .fxNot 0x2B (fun k w => bits w (2 ^ 32 - 1 - k.rd (fcX w))) ∧
  Retires .fxAsl 0x2C (fun k w => sat w (k.x w * 2 ^ by_ k w)) ∧
  Retires .fxAsr 0x2D (fun k w => sat w (k.x w / 2 ^ by_ k w)) ∧
  Retires .fxLsr 0x2E (fun k w => bits w (k.rd (fcX w) / 2 ^ by_ k w)) ∧
  Retires .fxCmp 0x2F (fun k w =>
    { flags := some (k.x w - k.y w, satS 32 (k.x w - k.y w) != k.x w - k.y w) }) ∧
  Retires .fxMov 0x30 (fun k w => { now := [(fcD w, ofS 32 (k.x w))] })

/-- The immediate, flow and register instructions of the effect cores (R452, R462, R470, R473 to R475, R479). -/
def Obligations.ControlWordsRetire : Prop :=
  let r (w : Nat) : Nat := bitsN w 55 51
  let n (w : Nat) : Nat := bitsN w 31 0
  let to_ (w : Nat) : Nat := bitsN w 14 0
  Retires .fxLdi 0x101 (fun _ w => { now := [(r w, n w)] }) ∧
  Retires .fxLdip 0x102 (fun _ w => { later := [(0x20 + r w, n w)] }) ∧
  Retires .fxLdim 0x103 (fun _ w => { later := [(0x30 + r w, n w)] }) ∧
  Retires .fxLdib 0x104 (fun _ w => { later := [(0x40 + r w, n w)] }) ∧
  Retires .fxLdil 0x105 (fun _ w => { later := [(0x48 + r w, n w)] }) ∧
  Retires .fxAddi 0x106 (fun k w =>
    let v := k.rdS (r w) + toS 32 (n w)
    { now := [(r w, ofS 32 (satS 32 v))], sat := satS 32 v != v }) ∧
  Retires .fxCmpi 0x107 (fun k w =>
    let v := k.rdS (r w) - toS 32 (n w)
    { flags := some (v, satS 32 v != v) }) ∧
  Retires .fxBr 0x201 (fun k w => { flow := .delay (if k.cond w then some (to_ w) else none) }) ∧
  Retires .fxCall 0x202 (fun k w =>
    if k.cond w then { flow := .delay (some (to_ w)), now := [(rLNK, k.pc + 3)] } else { flow := .delay none }) ∧
  Retires .fxRet 0x203 (fun k w => { flow := .delay (if k.cond w then some (k.rd rLNK) else none) }) ∧
  Retires .fxLoop 0x204 (fun k w =>
    let v := bitsN w 48 48
    let count := if w.testBit 47 then k.rd (bitsN w 44 40) else bitsN w 31 16
    { now := [(rLS v, k.pc + 1), (rLE v, to_ w), (rLC v, count)],
      flow := .jump (if count = 0 then to_ w + 1 else k.pc + 1) }) ∧
  Retires .fxTrap 0x205 (fun _ w => { flow := .trap (bitsN w 3 0) }) ∧
  Retires .fxRti 0x206 (fun k _ => { flow := .delay (some (k.rd rIPC)), restore := some (k.rd rICSR) }) ∧
  Retires .fxDone 0x207 (fun _ _ => { flow := .fin }) ∧
  (let d (w : Nat) : Nat := bitsN w 55 48
   let from_ (w : Nat) : Nat := bitsN w 47 40
   Retires .fxMovr 0x301 (fun k w =>
     if d w = rICNT ∨ d w = rICAUSE then {}
     else if delayedReg (d w) then { later := [(d w, k.rd (from_ w))] } else { now := [(d w, k.rd (from_ w))] }) ∧
   Retires .fxPadd 0x302 (fun k w => { later := [(d w, (k.rd (d w) + n w) % 2 ^ 32)] }) ∧
   Retires .fxCsrr 0x303 (fun k w => { now := [(d w, k.csr)] }) ∧
   Retires .fxCsrw 0x304 (fun k w => { csr := some (k.rd (from_ w)) }))

/-- The rows that may write memory, poison it or blow a fuse: those that store or copy, that load programs and images, that run
words of effect cores, that carry transactions of the Spine, that reset or unpower memories, that run audio through its
stores, or that run packets that waited. -/
def Sys2Proof.Machine.mayStore : Instr → Bool
  | .modeSet .. | .sysResetWarm .. | .sysResetCtrl .. | .bulkWrite .. | .pwrDomOn .. | .pwrDomRet .. | .pwrDomOff ..
  | .pwrDomReset .. | .objConfig .. | .geoCfgSet .. | .geoTempSet .. | .geoSpkDisable .. | .geoSpkEnable ..
  | .outConfig .. | .outDeconfig .. | .firExport .. | .measPrbResult .. | .imageCommit .. | .imageFloorRaise ..
  | .bootLoad .. | .bootGo .. | .fuseAuthHsp .. | .fuseAuthTwi .. | .fuseJtagLock .. | .fuseDbgOff ..
  | .fuseRevokeKey .. | .fuseKeyHash .. | .longOperationDone .. | .standbyAckTimeout .. | .hspWriteCommand ..
  | .hspReadReply .. | .commandDatagram .. | .twiWrite .. | .twiAddressMatch .. | .safeResponder .. | .folioTick ..
  | .deadlineMiss .. | .missingFolioTick .. | .fabAbandon .. | .omsMessage .. | .geoTicketDone .. | .fabTicketDone ..
  | .headTicketDone .. | .tailTicketDone .. | .outPhaseADone .. | .outPhaseBDone .. | .mixerBlockDone ..
  | .egressTicketDone .. | .measTicketDone .. | .sweepDone .. | .stallFill .. | .dmaCopyDone .. | .dmaCopyError ..
  | .fxTicketStart .. | .fxTicketAbort .. | .fxNop .. | .fxMul .. | .fxMac .. | .fxMsu .. | .fxQmul .. | .fxQmac ..
  | .fxCmul .. | .fxCmac .. | .fxCmulc .. | .fxCmacc .. | .fxMva .. | .fxMvah .. | .fxMval .. | .fxMvag ..
  | .fxMvda .. | .fxAclr .. | .fxAadd .. | .fxAsra .. | .fxAdd .. | .fxSub .. | .fxAddw .. | .fxSubw .. | .fxNeg ..
  | .fxAbs .. | .fxMin .. | .fxMax .. | .fxAnd .. | .fxOr .. | .fxXor .. | .fxNot .. | .fxAsl .. | .fxAsr ..
  | .fxLsr .. | .fxCmp .. | .fxMov .. | .fxLdi .. | .fxLdip .. | .fxLdim .. | .fxLdib .. | .fxLdil .. | .fxAddi ..
  | .fxCmpi .. | .fxBr .. | .fxCall .. | .fxRet .. | .fxLoop .. | .fxTrap .. | .fxRti .. | .fxDone .. | .fxMovr ..
  | .fxPadd .. | .fxCsrr .. | .fxCsrw .. | .referenceLost .. | .xoFail .. | .announceTimeout .. | .claim ..
  | .mirror .. | .sched .. | .cmdlog .. | .snap .. | .digest .. | .control .. | .forward .. | .tetherDown ..
  | .cutover .. | .handoverSwap .. | .porRise .. | .coldReset .. | .warmReset .. | .watchdogTimeout .. | .boot ..
  | .sceneRestore .. | .renderEntry .. | .safeEntry .. | .tempSafe .. | .haltWake .. | .rtcAlarm .. | .offTimer ..
  | .drainComplete .. | .drainTimeout .. | .restorationDone .. | .spineTransaction .. | .bitSetWrite ..
  | .bitClearWrite .. | .groomerStep .. | .groomerRetry .. | .calibration .. | .dramFailure .. | .mdioFrameDone ..
  | .configurationPhaseDone .. | .testEnChange .. => true
  | _ => false

/-- One step takes the command at the front of the queue and answers what it does on the queue's rest. -/
def Obligations.StepRunsFront : Prop :=
  ∀ (c : Instr) (rest : List Instr) (s : State), s.pending = c :: rest → step s = exec c { s with pending := rest }

/-- The block after reset (R9, R595, R604): no command waits; registers and memory stand in their canonical forms, so that
every register reads its reset value; the mode is BOOT; and a value or two of each block that gives one. That the grade is
the RK-8640, and that no fuse is blown, are choices of this model (notes/assumptions/2). -/
def Obligations.ResetState : Prop :=
  let s := State.reset
  s.pending = [] ∧ s.wf = true ∧ (∀ a, s.rd a = (regReset s.otp.grade a).toNat) ∧ (∀ a, s.rdByte a = memDefault) ∧
    s.poison = [] ∧ s.cmd.longOp = none ∧ s.cmd.held = none ∧ s.mode = mBOOT ∧
    s.fld Reg.CMD_CFG Fl.CMD_CFG_NOAUTH_ROLE = 0 ∧ s.fld Reg.OMS_CFG Fl.OMS_CFG_POSE_RUN = 0x10 ∧
    s.fld Reg.GEO_CFG Fl.GEO_CFG_SOUND_MPS = 0x85FC ∧ s.fld Reg.OUT_GCFG Fl.OUT_GCFG_EQ_XF = 1 ∧
    s.fld Reg.MEAS_PRB_CFG Fl.MEAS_PRB_CFG_INTEG_S = 60 ∧ s.fld Reg.MIX_SIL_CFG Fl.MIX_SIL_CFG_HOLD = 10 ∧
    s.fld (Reg.TDM_FMT 0) Fl.TDM_FMT_SLOT_W = 2 ∧ s.fld Reg.STRM_CFG Fl.STRM_CFG_FW_RATE = 4 ∧
    s.fld Reg.CLK_CFG Fl.CLK_CFG_ALIGN = 1 ∧ s.fld Reg.PTP_PRIO Fl.PTP_PRIO_PRIORITY1 = 128 ∧
    s.fld Reg.TTH_CFG Fl.TTH_CFG_SNAP_GBPS = 20 ∧ s.fld Reg.SPN_CFG Fl.SPN_CFG_AGE = 64 ∧
    s.fld Reg.MEM_CFG Fl.MEM_CFG_GRM_EN = 1 ∧ s.fld Reg.DMC_CFG Fl.DMC_CFG_AUTO_RETIRE = 1

/-- The canonical forms are an invariant of the block: whatever command is at the front, a step from a state whose
registers and memory are canonical leaves them canonical, so that equal contents stay equal data (the form is this
model's: notes/assumptions/3). -/
def Obligations.StepKeepsForm : Prop := ∀ s t : State, s.wf = true → step s = .next t → t.wf = true

/-- A fuse once blown stays blown through every reset and power cycle, and no command or pin clears it (R616); the grade
and the identifier never change. -/
def Obligations.FusesOnlyBlow : Prop := ∀ s t : State, step s = .next t → Otp.Kept s.otp t.otp

/-- No command reorders, drops or adds commands that wait: a step that answers a next state leaves the queue without its
front, and an empty queue leaves the block as it is (DESIGN CHOICE, notes/assumptions/1). -/
def Obligations.QueueFirstInFirstOut : Prop :=
  (∀ s t : State, step s = .next t → t.pending = s.pending.tail) ∧ (∀ s : State, s.pending = [] → step s = .next s)

/-- Memory frame of the 262 rows that store nothing: every byte of memory reads as before, the same granules are poisoned
and the same fuses blown. -/
def Obligations.QuietRowsLeaveMemory : Prop :=
  ∀ (i : Instr) (s t : State), mayStore i = false → exec i s = .next t →
    (∀ a, t.rdByte a = s.rdByte a) ∧ t.mem = s.mem ∧ t.poison = s.poison ∧ t.otp = s.otp

/-- Memory frame of the rows that store where their operands say (R514, R543, R591): `BULK_WRITE` at its address; the
alias writes at the offset they name; a transaction that writes, at the address behind its own. Every other byte of memory
reads as before; a transaction that reads without meeting an error changes none. -/
def Obligations.StoresOnlyWhereAddressed : Prop :=
  let cells (a n : Nat) : List Nat := (List.range n).map (fun k => memAddr (a + k))
  let only (i : Instr) (s : State) (l : List Nat) : Prop :=
    ∀ t, exec i s = .next t → ∀ b, b ∉ l → t.rdByte b = s.rdByte b
  (∀ p s, only (.bulkWrite p) s ((List.range (p.params.length - 8)).map (fun k => u64 p.params 0 + k))) ∧
  (∀ m a data strobes t s,
    only (.bitSetWrite m a data strobes t) s (cells (0x20000000 + a % 2 ^ 29) data.length) ∧
    only (.bitClearWrite m a data strobes t) s (cells (0x60000000 + a % 2 ^ 29) data.length)) ∧
  (∀ (x : SpineReq) t s, x.cont = false → x.write = true → only (.spineTransaction x t) s (cells x.addr x.size)) ∧
  (∀ (x : SpineReq) t s, x.cont = false → x.write = false → x.ecc = [] → only (.spineTransaction x t) s [])

/-- Roles (R585): ADMIN may issue every command, OPERATOR those of OPERATOR and MONITOR, MONITOR those of MONITOR alone.
Where the earlier checks of R581 have passed, a packet of another role gets `AUTH_FAIL` with the result byte 0x01, and one
whose role and other checks allow it has its command run. A packet that the other unit has judged is not judged again. -/
def Obligations.RolesDecide : Prop :=
  ∀ (i : Instr) (sp : CmdSpec) (p : Packet) (body : State → CmdRes), (∀ s, exec i s = runPacket sp p body s) →
    (∀ s : State,
      let u := s.arrived p
      let v := u.acceptNonce p sp.opcode
      let may := sp.role = 2 ∨ (sp.role = 1 ∧ u.effRole p < 2) ∨ (sp.role = 0 ∧ u.effRole p = 0)
      sp.role < 3 → u.effRole p < 3 → (s.atTime p.time).answers p.port = true → u.canStart p.port = true →
      p.framed = true → u.authOk p sp.opcode = true → u.nonceCheck p sp.opcode = none → u.cmd.longOp = none →
      u.cmd.peerBusy = none → bitsN p.flags 7 3 = 0 → (∀ st, u.route sp p ≠ .refuse st) →
        (¬ may → v.muted p.port = false →
          let r := (v.authFailed p).replyBytes p sp.opcode 0x0006 [0x01#8] false
          exec i s = .next ((r.1.keepReply p sp.opcode r.2).send p.port p.src r.2)) ∧
        (may → u.runsHere sp p = true → sp.lo ≤ p.params.length → p.params.length ≤ sp.hi → u.modeOk sp = true →
          exec i s = .next ((if v.mode = mSAFE then v.logEventFree 0x1783 sp.opcode else v).runBody sp p body))) ∧
    (∀ s : State, p.port = portPeer → s.authOk p sp.opcode = true ∧ s.effRole p = 0)

/-- A long operation keeps the commands of both units out (R442, R581, R586): where the checks before it have passed, any
command gets `BUSY`, whose result names the operation, its progress (a free byte, notes/assumptions/19) and the port it
came from, with 0x80 added where it runs on the peer. -/
def Obligations.BusyNamesTheOperation : Prop :=
  ∀ (i : Instr) (sp : CmdSpec) (p : Packet) (body : State → CmdRes), (∀ s, exec i s = runPacket sp p body s) →
    ∀ s : State,
      let u := s.arrived p
      let v := (u.acceptNonce p sp.opcode).bump Reg.CMD_BUSY
      (s.atTime p.time).answers p.port = true → u.canStart p.port = true → p.framed = true →
      u.authOk p sp.opcode = true → u.nonceCheck p sp.opcode = none →
        (∀ o, u.cmd.longOp = some o →
          exec i s = .next (v.fresh.2.reply p sp.opcode 0x0001 (by2 o.opcode ++ by1 v.fresh.1 ++ by1 o.pkt.port))) ∧
        (∀ op progress port, u.cmd.longOp = none → u.cmd.peerBusy = some (op, progress, port) →
          exec i s = .next (v.reply p sp.opcode 0x0001 (by2 op ++ by1 progress ++ by1 (port + 0x80))))

/-- Aliases (R544): they are enabled in BOOT, LOAD, SERVICE and FAULT alone, and `ALIAS_EN` reads so. In every other mode
the Spine answers a new transaction at an alias itself, with cause 3; one accepted before goes on whatever the mode. -/
def Obligations.AliasesNeedTheirModes : Prop :=
  (∀ s : State, s.aliasOn = true ↔ s.mode = mBOOT ∨ s.mode = mLOAD ∨ s.mode = mSERVICE ∨ s.mode = mFAULT) ∧
  (∀ s : State, (s.view Reg.MEM_CFG).testBit 29 = s.aliasOn) ∧
  (∀ (x : SpineReq) (t : Nat) (s : State) (k : Nat),
    let u := s.atTime t
    ((0x20000000 ≤ x.addr ∧ x.addr < 0x40000000 ∧ k = 14) ∨ (0x60000000 ≤ x.addr ∧ x.addr < 0x80000000 ∧ k = 15)) →
    u.portOpen x.master = true → x.cont = false → burstOk x = true → u.heldOrd x.master x.tid k = false →
    u.heldCap x.master k = false → u.aliasOn = false →
      exec (.spineTransaction x t) s = .next (u.errorAnswer x 3 k)) ∧
  (∀ (x : SpineReq) (t : Nat) (s : State) (y : SpnTxn),
    let u := s.atTime t
    let n := min (x.moved - y.doneBytes) (y.size - y.doneBytes)
    let r := u.perform x y.target y.addr y.doneBytes n y.write
    let v := r.1.touchEnds y.master y.target y.addr
    u.portOpen x.master = true → x.cont = true →
    u.spn.txns.find? (fun z => z.master == x.master && z.tid == x.tid) = some y → 14 ≤ y.target →
      (y.size ≤ y.doneBytes + n →
        exec (.spineTransaction x t) s =
          .next (({ v with spn.txns := v.spn.txns.erase y } : State).answerTxn y r.2.1 r.2.2)) ∧
      (y.doneBytes + n < y.size →
        exec (.spineTransaction x t) s = .next { v with
          spn.txns := v.spn.txns.map (fun z => if z = y then { y with doneBytes := y.doneBytes + n } else z) }))

/-- The idle hint (R637): the device changes no domain's state on it, and each change of it sets `PWR_STAT.HINT` and
`PWR_IRQ_STAT.HINT`. -/
def Obligations.HintMovesNoDomain : Prop :=
  ∀ (s : State) (b : Bool),
    (∀ d, d < 19 → (s.setHint b).domState d = s.domState d) ∧
    (s.flag Reg.OUT_AMP_STAT Fl.OUT_AMP_STAT_IDLE_HINT = b → s.setHint b = s) ∧
    (s.flag Reg.OUT_AMP_STAT Fl.OUT_AMP_STAT_IDLE_HINT ≠ b →
      (s.setHint b).flag Reg.OUT_AMP_STAT Fl.OUT_AMP_STAT_IDLE_HINT = b ∧
      (s.setHint b).flag Reg.PWR_STAT Fl.PWR_STAT_HINT = b ∧
      (s.setHint b).flag Reg.PWR_IRQ_STAT Fl.PWR_IRQ_STAT_HINT = true)

/-- Interrupts of the blocks (R10): each of the 26 blocks has a status register whose bits are all W1C and an enable
register whose bits are all RW, and requests an interrupt while some bit is set in both. -/
def Obligations.BlocksRequestInterrupts : Prop :=
  ∀ b, b < 26 →
    let stat := 0x40000000 + b * 0x100000
    rowMask stat (·.w1c) ≠ 0 ∧ rowMask stat (fun r => r.rw ||| r.rws ||| r.wo ||| r.w1s ||| r.rc ||| r.ro) = 0 ∧
    rowMask (stat + 4) (·.rw) ≠ 0 ∧
    rowMask (stat + 4) (fun r => r.w1c ||| r.rws ||| r.wo ||| r.w1s ||| r.rc ||| r.ro) = 0 ∧
    ∀ s : State, s.blockIrq b = true ↔ ∃ k, (s.rd stat).testBit k = true ∧ (s.rd (stat + 4)).testBit k = true

/-- Poison (R533, R554): a write that covers all 8 bytes of a poisoned granule stores its data there and the granule is
poisoned no longer; a narrower one leaves it poisoned and unchanged and gets an error; a granule that is not written stays
as it was; and every other byte written is stored. -/
def Obligations.PoisonYieldsToFullWrites : Prop :=
  ∀ (s : State) (a : Nat) (data : List Byte) (strobes : List Bool),
    let bs := strobed data strobes
    let r := s.memWrite a bs
    (∀ g, g % 8 = 0 → g ∈ s.poison →
      (covers a bs g = true → g ∉ r.1.poison) ∧
      (covers a bs g = false → g ∈ r.1.poison ∧ (∀ k, k < 8 → r.1.rdByte (g + k) = s.rdByte (g + k)) ∧
        ((∃ e, e ∈ bs ∧ (a + e.1) / 8 * 8 = g) → r.2 = true))) ∧
    (∀ e, e ∈ bs → ((a + e.1) / 8 * 8 ∉ s.poison ∨ covers a bs ((a + e.1) / 8 * 8) = true) →
      r.1.rdByte (a + e.1) = e.2) ∧
    (∀ b, (∀ e, e ∈ bs → b ≠ a + e.1) → r.1.rdByte b = s.rdByte b)
/-- The order of the checks (R581, R583, R584), for a command that no unit's long operation keeps out: framing, tag, nonce, reserved
flags, target, length, mode. The first that fails gives the status, with no result; the nonce of a packet that passed its
check is accepted all the same, and a packet sent again gets the reply it had, without running again. -/
def Obligations.ChecksAnswerInOrder : Prop :=
  ∀ (i : Instr) (sp : CmdSpec) (p : Packet) (body : State → CmdRes), (∀ s, exec i s = runPacket sp p body s) →
    ∀ s : State,
      let u := s.arrived p
      let v := u.acceptNonce p sp.opcode
      let gives (st : Nat) : Prop := exec i s = .next (v.reply p sp.opcode st [])
      let framed := (s.atTime p.time).answers p.port = true ∧ u.canStart p.port = true ∧ p.framed = true
      let known := framed ∧ u.authOk p sp.opcode = true
      let counted := known ∧ p.auth = true ∧ sp.opcode ≠ 0x0032 ∧ p.port ≠ portPeer ∧ p.nonce ≤ Tab.at u.cmd.nonces 0 p.role
      let last := Tab.look u.cmd.last (lastIdx p.port p.role)
      let fresh := known ∧ u.nonceCheck p sp.opcode = none ∧ u.cmd.longOp = none ∧ u.cmd.peerBusy = none
      let named := fresh ∧ bitsN p.flags 7 3 = 0
      let mine := named ∧ u.runsHere sp p = true ∧ u.effRole p ≤ sp.role
      let sized := mine ∧ sp.lo ≤ p.params.length ∧ p.params.length ≤ sp.hi
      ((s.atTime p.time).answers p.port = true → u.canStart p.port = true → p.framed = false → gives 0x0004) ∧
      (framed → u.authOk p sp.opcode = false → v.muted p.port = false →
        let r := ((v.irq Reg.CMD_IRQ_STAT Fl.CMD_IRQ_STAT_AUTH_FAIL).authFailed p).replyBytes p sp.opcode 0x0006 [] true
        exec i s = .next (r.1.send p.port p.src r.2)) ∧
      (∀ x, counted → last = some x → x.nonce = p.nonce ∧ x.opcode = sp.opcode ∧ x.seq = p.seq →
        exec i s = .next (match x.reply with
          | some bs => (v.bump Reg.CMD_REPLAY).emit p.port p.src bs
          | none => v.bump Reg.CMD_REPLAY)) ∧
      (counted → (∀ x, last = some x → ¬ (x.nonce = p.nonce ∧ x.opcode = sp.opcode ∧ x.seq = p.seq)) →
        exec i s = .next ((v.bump Reg.CMD_STALE).reply p sp.opcode 0x000A [])) ∧
      (fresh → bitsN p.flags 7 3 ≠ 0 → gives 0x0003) ∧
      (named → 3 ≤ effTarget sp p ∨ (sp.ownOnly = true ∧ effTarget sp p ≠ 0) → gives 0x0003) ∧
      (named → sp.ownOnly = false → u.linkUp = false →
        effTarget sp p = 1 ∨ (effTarget sp p = 2 ∧ u.holds = false) → gives 0x000B) ∧
      (mine → p.params.length < sp.lo ∨ sp.hi < p.params.length → gives 0x0004) ∧
      (sized → u.modeOk sp = false → gives 0x0005)
end

