-- ==== Sys2Proof/Laws/Tab.lean ====
section
/-!
SUPPORT. The sparse tables: reading after writing, and that writing keeps the canonical form.
-/

namespace Sys2Proof.Machine

variable {α : Type}

@[simp] theorem rising_nil : rising ([] : List (Nat × α)) = true := rfl

theorem rising_cons (e : Nat × α) (r : List (Nat × α)) :
    rising (e :: r) = true ↔ (∀ x ∈ r, e.1 < x.1) ∧ rising r = true := by
  simp [rising]

theorem rising_filter (p : Nat × α → Bool) {t : List (Nat × α)} (h : rising t = true) : rising (t.filter p) = true := by
  induction t with
  | nil => rfl
  | cons e r ih =>
    obtain ⟨h1, h2⟩ := (rising_cons e r).1 h
    by_cases hp : p e
    · rw [List.filter_cons_of_pos hp, rising_cons]
      exact ⟨fun x hx => h1 x ((List.mem_filter.1 hx).1), ih h2⟩
    · rw [List.filter_cons_of_neg hp]; exact ih h2

/-- What a table lists after a key has been listed: that key, and nothing new beside it. -/
theorem Tab.mem_put {t : Tab α} {k : Nat} {v : α} {e : Nat × α} (h : e ∈ Tab.put t k v) : e = (k, v) ∨ e ∈ t := by
  induction t with
  | nil => simpa [Tab.put] using h
  | cons d r ih =>
    obtain ⟨j, w⟩ := d
    simp only [Tab.put] at h
    split at h
    · simpa using h
    · split at h
      · rcases List.mem_cons.1 h with h | h <;> simp [h]
      · rcases List.mem_cons.1 h with h | h
        · simp [h]
        · rcases ih h with h | h <;> simp [h]

theorem Tab.rising_put {t : Tab α} (h : rising t = true) (k : Nat) (v : α) : rising (Tab.put t k v) = true := by
  induction t with
  | nil => rfl
  | cons d r ih =>
    obtain ⟨j, w⟩ := d
    obtain ⟨h1, h2⟩ := (rising_cons _ _).1 h
    simp only [Tab.put]
    split
    · rename_i hlt
      rw [rising_cons]
      refine ⟨fun x hx => ?_, h⟩
      rcases List.mem_cons.1 hx with hx | hx
      · simpa [hx] using hlt
      · exact Nat.lt_trans hlt (h1 x hx)
    · split
      · rename_i hk
        rw [rising_cons]
        exact ⟨fun x hx => by simpa [hk] using h1 x hx, h2⟩
      · rw [rising_cons]
        refine ⟨fun x hx => ?_, ih h2⟩
        rcases Tab.mem_put hx with hx | hx
        · subst hx; omega
        · exact h1 x hx

theorem Tab.canon_iff [DecidableEq α] (t : Tab α) (d : Nat → α) :
    Tab.canon t d = true ↔ rising t = true ∧ ∀ e ∈ t, e.2 ≠ d e.1 := by
  simp [Tab.canon]

theorem Tab.canon_filter [DecidableEq α] {t : Tab α} {d : Nat → α} (h : Tab.canon t d = true) (p : Nat × α → Bool) :
    Tab.canon (t.filter p) d = true := by
  rw [Tab.canon_iff] at *
  exact ⟨rising_filter p h.1, fun e he => h.2 e ((List.mem_filter.1 he).1)⟩

/-- Writing keeps the canonical form. -/
theorem Tab.canon_store [DecidableEq α] {t : Tab α} {d : Nat → α} (h : Tab.canon t d = true) (k : Nat) (v : α) :
    Tab.canon (Tab.store t (d k) k v) d = true := by
  unfold Tab.store
  split
  · exact Tab.canon_filter h _
  · rename_i hv
    rw [Tab.canon_iff] at *
    refine ⟨Tab.rising_put h.1 k v, fun e he => ?_⟩
    rcases Tab.mem_put he with he | he
    · subst he; exact hv
    · exact h.2 e he

@[simp] theorem Tab.look_put (t : Tab α) (k j : Nat) (v : α) :
    Tab.look (Tab.put t k v) j = if j = k then some v else Tab.look t j := by
  induction t with
  | nil => simp [Tab.put, Tab.look, eq_comm]
  | cons d r ih =>
    obtain ⟨i, w⟩ := d
    simp only [Tab.put]
    split
    · simp [Tab.look, eq_comm]
    · split
      · simp only [Tab.look]; grind
      · simp only [Tab.look, ih]; grind

@[simp] theorem Tab.look_del (t : Tab α) (k j : Nat) :
    Tab.look (Tab.del t k) j = if j = k then none else Tab.look t j := by
  induction t with
  | nil => simp [Tab.del, Tab.look]
  | cons d r ih =>
    obtain ⟨i, w⟩ := d
    simp only [Tab.del, List.filter_cons, Tab.look] at *
    split <;> simp only [Tab.look, ih] <;> grind

/-- A read after a write: the value written at that key, and every other key as before. -/
@[simp] theorem Tab.at_store [DecidableEq α] (t : Tab α) (d : Nat → α) (k j : Nat) (v : α) :
    Tab.at (Tab.store t (d k) k v) (d j) j = if j = k then v else Tab.at t (d j) j := by
  unfold Tab.at Tab.store
  split
  · rw [Tab.look_del]; split <;> simp_all
  · rw [Tab.look_put]; split <;> simp_all

end Sys2Proof.Machine
end

