-- ==== Sys2Proof/Laws/Keeps.lean ====
section
/-!
SUPPORT. `Keeps` over the forms that meanings are built from: branches, folds, pairs, the answers of command bodies, and the
basic writes of registers and memory.
-/

namespace Sys2Proof.Machine

theorem Otp.Kept.rfl' (o : Otp) : Otp.Kept o o :=
  ⟨rfl, rfl, id, id, id, id, fun _ => id, fun _ => id, fun _ _ => id⟩

theorem Otp.Kept.trans {a b c : Otp} (h : Otp.Kept a b) (k : Otp.Kept b c) : Otp.Kept a c where
  grade := k.grade.trans h.grade
  uid := k.uid.trans h.uid
  authHsp := k.authHsp ∘ h.authHsp
  authTwi := k.authTwi ∘ h.authTwi
  jtagLock := k.jtagLock ∘ h.jtagLock
  dbgOff := k.dbgOff ∘ h.dbgOff
  revoke := fun i => k.revoke i ∘ h.revoke i
  floor := fun i => k.floor i ∘ h.floor i
  keyHash := fun i x => k.keyHash i x ∘ h.keyHash i x

namespace Keeps

variable {q : Bool} {s0 s t a b : State}

theorem rfl' (q : Bool) (s : State) : Keeps q s s := ⟨rfl, .rfl' _, id, id, fun _ => ⟨rfl, rfl, rfl⟩⟩

theorem trans (h : Keeps q s0 s) (k : Keeps q s t) : Keeps q s0 t where
  pending := k.pending.trans h.pending
  otp := h.otp.trans k.otp
  regs := k.regs ∘ h.regs
  mem := k.mem ∘ h.mem
  same := fun e => ⟨(k.same e).1.trans (h.same e).1, (k.same e).2.1.trans (h.same e).2.1, (k.same e).2.2.trans (h.same e).2.2⟩

/-- A step that is quiet keeps what any step keeps. -/
theorem loud (h : Keeps true s t) : Keeps q s t := ⟨h.pending, h.otp, h.regs, h.mem, fun _ => h.same rfl⟩

/-- A step that changes none of these fields. -/
theorem of_eq (h : Keeps q s0 s) (hr : t.regs = s.regs) (hm : t.mem = s.mem) (hp : t.poison = s.poison)
    (ho : t.otp = s.otp) (hq : t.pending = s.pending) : Keeps q s0 t :=
  h.trans ⟨hq, ho ▸ .rfl' _, fun e => by unfold State.regsWf at *; rw [hr, ho]; exact e, fun e => hm ▸ e,
    fun _ => ⟨hm, hp, ho⟩⟩

/-- An update of other fields is invisible. -/
theorem mk_iff {x3 x4 x6 x7 x8 x9 x10 x11 x12 x13 x14 x15 x16 x17 x18 x19 x20 x21 x22 x23 x24 x25 x26 x27 x28 x29 x30 x31 x32} : Keeps q s0 (State.mk s.regs s.mem s.poison x3 x4 s.otp x6 x7 x8 x9 x10 x11 x12 x13 x14 x15 x16 x17 x18 x19 x20 x21 x22 x23 x24 x25 x26 x27 x28 x29 x30 x31 x32 s.pending) ↔ Keeps q s0 s :=
  ⟨fun h => ⟨h.1, h.2, h.3, h.4, h.5⟩, fun h => ⟨h.1, h.2, h.3, h.4, h.5⟩⟩

theorem ite {c : Prop} [Decidable c] (ha : Keeps q s0 a) (hb : Keeps q s0 b) : Keeps q s0 (if c then a else b) := by
  split <;> assumption

theorem foldl {β : Type} {f : State → β → State} (l : List β) (h : Keeps q s0 s)
    (hf : ∀ t x, Keeps q s0 t → Keeps q s0 (f t x)) : Keeps q s0 (l.foldl f s) := by
  induction l generalizing s with
  | nil => exact h
  | cons x l ih => exact ih (hf _ _ h)

theorem forRange {f : Nat → State → State} (i n : Nat) (h : Keeps q s0 s)
    (hf : ∀ k t, Keeps q s0 t → Keeps q s0 (f k t)) : Keeps q s0 (Machine.forRange i n f s) :=
  foldl _ h (fun _ _ ht => hf _ _ ht)

end Keeps

/-- `Keeps` of the state of a pair. -/
structure KFst {β : Type} (q : Bool) (s0 : State) (x : State × β) : Prop where
  st : Keeps q s0 x.1

theorem KFst.pair {β : Type} {q : Bool} {s0 a : State} {b : β} (h : Keeps q s0 a) : KFst q s0 (a, b) := ⟨h⟩

theorem KFst.pair_iff {β : Type} {q : Bool} {s0 a : State} {b : β} : KFst q s0 (a, b) ↔ Keeps q s0 a :=
  ⟨fun h => h.st, .pair⟩

theorem KFst.of_eq {β : Type} {q : Bool} {s0 a : State} {b : β} {x : State × β} (e : x = (a, b)) (h : KFst q s0 x) :
    Keeps q s0 a := by subst e; exact h.st

theorem KFst.ite {β : Type} {q : Bool} {s0 : State} {c : Prop} [Decidable c] {x y : State × β} (hx : KFst q s0 x)
    (hy : KFst q s0 y) : KFst q s0 (if c then x else y) := by split <;> assumption

theorem KFst.foldl {β γ : Type} {q : Bool} {s0 : State} {f : State × γ → β → State × γ} (l : List β) {x : State × γ}
    (h : KFst q s0 x) (hf : ∀ t e, KFst q s0 t → KFst q s0 (f t e)) : KFst q s0 (l.foldl f x) := by
  induction l generalizing x with
  | nil => exact h
  | cons e l ih => exact ih (hf _ _ h)

/-- `Keeps` of the state of a pair whose second part it is. -/
structure KSnd {β : Type} (q : Bool) (s0 : State) (x : β × State) : Prop where
  st : Keeps q s0 x.2

theorem KSnd.pair {β : Type} {q : Bool} {s0 a : State} {b : β} (h : Keeps q s0 a) : KSnd q s0 (b, a) := ⟨h⟩

theorem KSnd.pair_iff {β : Type} {q : Bool} {s0 a : State} {b : β} : KSnd q s0 (b, a) ↔ Keeps q s0 a :=
  ⟨fun h => h.st, .pair⟩

theorem KSnd.of_eq {β : Type} {q : Bool} {s0 a : State} {b : β} {x : β × State} (e : x = (b, a)) (h : KSnd q s0 x) :
    Keeps q s0 a := by subst e; exact h.st

theorem KSnd.ite {β : Type} {q : Bool} {s0 : State} {c : Prop} [Decidable c] {x y : β × State} (hx : KSnd q s0 x)
    (hy : KSnd q s0 y) : KSnd q s0 (if c then x else y) := by split <;> assumption

theorem KSnd.foldl {β γ : Type} {q : Bool} {s0 : State} {f : γ × State → β → γ × State} (l : List β) {x : γ × State}
    (h : KSnd q s0 x) (hf : ∀ t e, KSnd q s0 t → KSnd q s0 (f t e)) : KSnd q s0 (l.foldl f x) := by
  induction l generalizing x with
  | nil => exact h
  | cons e l ih => exact ih (hf _ _ h)

/-- The state a command's body leaves. -/
def CmdRes.state : CmdRes → State
  | .ok s _ => s
  | .fail s _ _ => s
  | .long s _ => s
  | .hold s _ _ => s
  | .done s => s

/-- `Keeps` of what a command's body answers. -/
structure KRes (q : Bool) (s0 : State) (r : CmdRes) : Prop where
  st : Keeps q s0 r.state

namespace KRes
variable {q : Bool} {s0 s : State}
theorem ok {r} (h : Keeps q s0 s) : KRes q s0 (.ok s r) := ⟨h⟩
theorem fail {c r} (h : Keeps q s0 s) : KRes q s0 (.fail s c r) := ⟨h⟩
theorem long {r} (h : Keeps q s0 s) : KRes q s0 (.long s r) := ⟨h⟩
theorem hold {k r} (h : Keeps q s0 s) : KRes q s0 (.hold s k r) := ⟨h⟩
theorem done (h : Keeps q s0 s) : KRes q s0 (.done s) := ⟨h⟩
theorem ite {c : Prop} [Decidable c] {x y : CmdRes} (hx : KRes q s0 x) (hy : KRes q s0 y) :
    KRes q s0 (if c then x else y) := by split <;> assumption
theorem of_ok {x r} (e : x = CmdRes.ok s r) (h : KRes q s0 x) : Keeps q s0 s := by subst e; exact h.st
theorem of_fail {x c r} (e : x = CmdRes.fail s c r) (h : KRes q s0 x) : Keeps q s0 s := by subst e; exact h.st
theorem of_long {x r} (e : x = CmdRes.long s r) (h : KRes q s0 x) : Keeps q s0 s := by subst e; exact h.st
theorem of_hold {x k r} (e : x = CmdRes.hold s k r) (h : KRes q s0 x) : Keeps q s0 s := by subst e; exact h.st
theorem of_done {x} (e : x = CmdRes.done s) (h : KRes q s0 x) : Keeps q s0 s := by subst e; exact h.st
end KRes

/-- `Keeps` of the outcome of a step: of its next state, where it has one. -/
structure KOut (q : Bool) (s0 : State) (o : Out) : Prop where
  st : ∀ t, o = .next t → Keeps q s0 t

namespace KOut
variable {q : Bool} {s0 s : State}
theorem next (h : Keeps q s0 s) : KOut q s0 (.next s) := ⟨fun _ e => by cases e; exact h⟩
theorem fault {f} : KOut q s0 (.fault f) := ⟨fun _ e => by cases e⟩
theorem refused {f} : KOut q s0 (.refused f) := ⟨fun _ e => by cases e⟩
theorem ite {c : Prop} [Decidable c] {x y : Out} (hx : KOut q s0 x) (hy : KOut q s0 y) :
    KOut q s0 (if c then x else y) := by split <;> assumption
theorem of_eq {x : Out} (e : x = .next s) (h : KOut q s0 x) : Keeps q s0 s := h.st _ e
end KOut

/-! ### Matches on an option -/

theorem Keeps.opt {β : Type} {q : Bool} {s0 : State} {o : Option β} {f : β → State} {g : State}
    (hf : ∀ x, o = some x → Keeps q s0 (f x)) (hg : Keeps q s0 g) :
    Keeps q s0 (match (generalizing := false) o with | some x => f x | none => g) := by
  cases o with
  | none => exact hg
  | some x => exact hf x rfl

theorem KRes.opt {β : Type} {q : Bool} {s0 : State} {o : Option β} {f : β → CmdRes} {g : CmdRes}
    (hf : ∀ x, o = some x → KRes q s0 (f x)) (hg : KRes q s0 g) :
    KRes q s0 (match (generalizing := false) o with | some x => f x | none => g) := by
  cases o with
  | none => exact hg
  | some x => exact hf x rfl

theorem KOut.opt {β : Type} {q : Bool} {s0 : State} {o : Option β} {f : β → Out} {g : Out}
    (hf : ∀ x, o = some x → KOut q s0 (f x)) (hg : KOut q s0 g) :
    KOut q s0 (match (generalizing := false) o with | some x => f x | none => g) := by
  cases o with
  | none => exact hg
  | some x => exact hf x rfl

theorem KFst.opt {β : Type} {γ : Type} {q : Bool} {s0 : State} {o : Option β} {f : β → State × γ} {g : State × γ}
    (hf : ∀ x, o = some x → KFst q s0 (f x)) (hg : KFst q s0 g) :
    KFst q s0 (match (generalizing := false) o with | some x => f x | none => g) := by
  cases o with
  | none => exact hg
  | some x => exact hf x rfl

theorem KSnd.opt {β : Type} {γ : Type} {q : Bool} {s0 : State} {o : Option β} {f : β → γ × State} {g : γ × State}
    (hf : ∀ x, o = some x → KSnd q s0 (f x)) (hg : KSnd q s0 g) :
    KSnd q s0 (match (generalizing := false) o with | some x => f x | none => g) := by
  cases o with
  | none => exact hg
  | some x => exact hf x rfl

/-! ### The basic writes -/

theorem regsWf_setReg {s : State} (h : s.regsWf = true) (a : Nat) (v : Word32) : (s.setReg a v).regsWf = true :=
  Tab.canon_store (d := regReset s.otp.grade) h a v

theorem State.setReg_keeps {q : Bool} {s0 s : State} {a v} (h : Keeps q s0 s) : Keeps q s0 (s.setReg a v) :=
  h.trans ⟨rfl, .rfl' _, fun e => regsWf_setReg e a v, id, fun _ => ⟨rfl, rfl, rfl⟩⟩

/-- Writing a byte keeps memory canonical. -/
theorem Memory.wf_store {m : List Host.Cell} (h : Memory.wf m = true) (a : Nat) (b : Byte) :
    Memory.wf (Tab.store m memDefault a b) = true := Tab.canon_store (d := fun _ => memDefault) h a b

/-- So does losing or clearing bytes. -/
theorem Memory.wf_filter {m : List Host.Cell} (h : Memory.wf m = true) (p : Host.Cell → Bool) :
    Memory.wf (m.filter p) = true := Tab.canon_filter h p

theorem State.wrByte_keeps {s0 s : State} {a b} (h : Keeps false s0 s) : Keeps false s0 (s.wrByte a b) :=
  h.trans ⟨rfl, .rfl' _, id, fun e => Memory.wf_store e a b, fun e => by cases e⟩

/-- A change of memory that keeps it canonical, and of poison. -/
theorem Keeps.mem_upd {s0 s t : State} (h : Keeps false s0 s) (hr : t.regs = s.regs)
    (hm : Memory.wf s.mem = true → Memory.wf t.mem = true) (ho : t.otp = s.otp) (hq : t.pending = s.pending) :
    Keeps false s0 t :=
  h.trans ⟨hq, ho ▸ .rfl' _, fun e => by unfold State.regsWf at *; rw [hr, ho]; exact e, hm, fun e => by cases e⟩

/-- A change of fuses that keeps them. -/
theorem Keeps.otp_upd {s0 s t : State} (h : Keeps false s0 s) (hr : t.regs = s.regs) (hm : t.mem = s.mem)
    (ho : Otp.Kept s.otp t.otp) (hq : t.pending = s.pending) : Keeps false s0 t :=
  h.trans ⟨hq, ho, fun e => by unfold State.regsWf at *; rw [hr, ho.grade]; exact e, fun e => hm ▸ e, fun e => by cases e⟩

end Sys2Proof.Machine
end

