-- ==== Sys2Proof/Laws/Packet.lean ====
section
/-!
SUPPORT. What a packet that passes the checks of R581 does: its command's body, on the state `State.begun`.
-/

namespace Sys2Proof.Machine

/-- The verdict on an admitted packet. -/
theorem check_admitted {sp : CmdSpec} {p : Packet} {s : State} (h : admitted sp p s = true) :
    (s.arrived p).check sp p = .run := by
  simp only [admitted, State.runsHere, Bool.and_eq_true, Bool.or_eq_true, decide_eq_true_eq, beq_iff_eq] at h
  obtain ⟨⟨⟨⟨⟨⟨⟨⟨⟨⟨⟨⟨_, _⟩, hf⟩, ha⟩, hn⟩, hl⟩, hp⟩, hb⟩, ht⟩, hr⟩, hlo⟩, hhi⟩, hm⟩ := h
  unfold State.check State.lateChecks State.route
  rw [Option.isNone_iff_eq_none] at hn hl hp
  have h1 : ¬ (p.params.length < sp.lo ∨ sp.hi < p.params.length) := by omega
  have h2 : ¬ sp.role < (s.arrived p).effRole p := by omega
  simp only [hf, ha, hn, hl, hp, hb, hm, Bool.not_true, Option.isSome_none, Bool.or_self, Bool.false_eq_true, if_false,
    ne_eq, not_true_eq_false]
  rcases ht with ht | ⟨⟨ht, hh⟩, ho⟩
  · simp [ht, h1, h2]
  · have ho : sp.ownOnly = false := by simpa using ho
    simp [ht, ho, hh, h1, h2]

/-- An admitted packet's command runs. -/
theorem runPacket_admitted {sp : CmdSpec} {p : Packet} {s : State} (h : admitted sp p s = true) (body : State → CmdRes) :
    runPacket sp p body s =
      .next (((if ((s.arrived p).acceptNonce p sp.opcode).mode = mSAFE then
        ((s.arrived p).acceptNonce p sp.opcode).logEventFree 0x1783 sp.opcode
        else (s.arrived p).acceptNonce p sp.opcode)).runBody sp p body) := by
  have hc := check_admitted h
  simp only [admitted, Bool.and_eq_true] at h
  obtain ⟨⟨⟨⟨⟨⟨⟨⟨⟨⟨⟨⟨h1, h2⟩, _⟩, _⟩, _⟩, _⟩, _⟩, _⟩, _⟩, _⟩, _⟩, _⟩, _⟩ := h
  unfold State.arrived at hc h2
  unfold runPacket State.process State.settle State.arrived
  simp only [h1, h2, hc, Bool.not_true, Bool.false_eq_true, if_false, if_true]

/-- An admitted packet whose command is done at once. -/
theorem runPacket_ok {sp : CmdSpec} {p : Packet} {s t : State} {body : State → CmdRes} {res : List Byte}
    (h : admitted sp p s = true) (hb : body (s.begun sp p) = .ok t res) :
    runPacket sp p body s = .next (t.finishOk sp p res) := by
  rw [runPacket_admitted h]
  unfold State.begun at hb
  unfold State.runBody
  simp only [hb]

/-- An admitted packet whose command is accepted as a long operation. -/
theorem runPacket_long {sp : CmdSpec} {p : Packet} {s t : State} {body : State → CmdRes} {args : List Nat}
    (h : admitted sp p s = true) (hb : body (s.begun sp p) = .long t args) :
    runPacket sp p body s =
      .next (t.accepted sp p args) := by
  rw [runPacket_admitted h]
  unfold State.begun at hb
  unfold State.runBody
  simp only [hb]
  rfl

/-- An admitted packet whose reply comes with a later event. -/
theorem runPacket_hold {sp : CmdSpec} {p : Packet} {s t : State} {body : State → CmdRes} {kind arg : Nat}
    (h : admitted sp p s = true) (hb : body (s.begun sp p) = .hold t kind arg) :
    runPacket sp p body s = .next (t.holding sp p kind arg) := by
  rw [runPacket_admitted h]
  unfold State.begun at hb
  unfold State.runBody
  simp only [hb]
  rfl

/-- An admitted packet whose command has also seen to its reply. -/
theorem runPacket_done {sp : CmdSpec} {p : Packet} {s t : State} {body : State → CmdRes}
    (h : admitted sp p s = true) (hb : body (s.begun sp p) = .done t) : runPacket sp p body s = .next t := by
  rw [runPacket_admitted h]
  unfold State.begun at hb
  unfold State.runBody
  simp only [hb]

/-- An admitted packet that its command's own checks refuse: the status is the reply's, and the state is as the refusal
leaves it. -/
theorem runPacket_fail {sp : CmdSpec} {p : Packet} {s t : State} {body : State → CmdRes} {st : Nat} {res : List Byte}
    (h : admitted sp p s = true) (hb : body (s.begun sp p) = .fail t st res) :
    runPacket sp p body s = .next (t.reply p sp.opcode st res) := by
  rw [runPacket_admitted h]
  unfold State.begun at hb
  unfold State.runBody
  simp only [hb]

end Sys2Proof.Machine
end

