-- ==== Sys2Proof/Laws/Claims.lean ====
section
/-!
SUPPORT. What is left to show of a command row's completion: what its body answers.
-/

namespace Sys2Proof.Machine

theorem Answers.of_body {i : Packet → Instr} {sp : CmdSpec} {cond : Packet → State → Prop} {eff : Packet → State → State}
    {res : Packet → State → List Byte} (body : Packet → State → CmdRes)
    (hi : ∀ p s, exec (i p) s = runPacket sp p (body p) s)
    (hb : ∀ p u, cond p u → body p u = .ok (eff p u) (res p u)) : Answers i sp cond eff res :=
  fun p s h hc => (hi p s).trans (runPacket_ok h (hb _ _ hc))

theorem AnswersOp.of_body {i : Packet → Instr} {off v : Nat} {sp : CmdSpec} {cond : Packet → State → Prop}
    {eff : Packet → State → State} {res : Packet → State → List Byte} (body : Packet → State → CmdRes)
    (hi : ∀ p s, exec (i p) s = runPacket sp (p.withOp off v) (body (p.withOp off v)) s)
    (hb : ∀ p u, cond p u → body p u = .ok (eff p u) (res p u)) : AnswersOp i off v sp cond eff res :=
  fun p s h hc => (hi p s).trans (runPacket_ok h (hb _ _ hc))

theorem Accepts.of_body {i : Packet → Instr} {sp : CmdSpec} {cond : Packet → State → Prop} {eff : Packet → State → State}
    {args : Packet → State → List Nat} (body : Packet → State → CmdRes)
    (hi : ∀ p s, exec (i p) s = runPacket sp p (body p) s)
    (hb : ∀ p u, cond p u → body p u = .long (eff p u) (args p u)) : Accepts i sp cond eff args :=
  fun p s h hc => (hi p s).trans (runPacket_long h (hb _ _ hc))

theorem Runs.of_done {i : Packet → Instr} {sp : CmdSpec} {cond : Packet → State → Prop} {eff : Packet → State → State}
    (body : Packet → State → CmdRes) (hi : ∀ p s, exec (i p) s = runPacket sp p (body p) s)
    (hb : ∀ p u, cond p u → body p u = .done (eff p u)) : Runs i sp cond eff :=
  fun p s h hc => (hi p s).trans (runPacket_done h (hb _ _ hc))

theorem RunsOp.of_done {i : Packet → Instr} {off v : Nat} {sp : CmdSpec} {cond : Packet → State → Prop}
    {eff : Packet → State → State} (body : Packet → State → CmdRes)
    (hi : ∀ p s, exec (i p) s = runPacket sp (p.withOp off v) (body (p.withOp off v)) s)
    (hb : ∀ p u, cond p u → body p u = .done (eff p u)) : RunsOp i off v sp cond eff :=
  fun p s h hc => (hi p s).trans (runPacket_done h (hb _ _ hc))

theorem Runs.of_hold {i : Packet → Instr} {sp : CmdSpec} {cond : Packet → State → Prop} {eff : Packet → State → State}
    {kind : Nat} {arg : Packet → Nat} (body : Packet → State → CmdRes)
    (hi : ∀ p s, exec (i p) s = runPacket sp p (body p) s)
    (hb : ∀ p u, cond p u → body p u = .hold (eff p u) kind (arg p)) :
    Runs i sp cond (fun p u => (eff p u).holding sp p kind (arg p)) :=
  fun p s h hc => (hi p s).trans (runPacket_hold h (hb _ _ hc))

theorem RunsOp.of_hold {i : Packet → Instr} {off v : Nat} {sp : CmdSpec} {cond : Packet → State → Prop}
    {eff : Packet → State → State} {kind : Nat} {arg : Packet → Nat} (body : Packet → State → CmdRes)
    (hi : ∀ p s, exec (i p) s = runPacket sp (p.withOp off v) (body (p.withOp off v)) s)
    (hb : ∀ p u, cond p u → body p u = .hold (eff p u) kind (arg p)) :
    RunsOp i off v sp cond (fun p u => (eff p u).holding sp p kind (arg p)) :=
  fun p s h hc => (hi p s).trans (runPacket_hold h (hb _ _ hc))

theorem AcceptsOp.of_body {i : Packet → Instr} {off v : Nat} {sp : CmdSpec} {cond : Packet → State → Prop}
    {eff : Packet → State → State} {args : Packet → State → List Nat} (body : Packet → State → CmdRes)
    (hi : ∀ p s, exec (i p) s = runPacket sp (p.withOp off v) (body (p.withOp off v)) s)
    (hb : ∀ p u, cond p u → body p u = .long (eff p u) (args p u)) : AcceptsOp i off v sp cond eff args :=
  fun p s h hc => (hi p s).trans (runPacket_long h (hb _ _ hc))

theorem Runs.of_fail {i : Packet → Instr} {sp : CmdSpec} {cond : Packet → State → Prop} {st : Nat}
    (body : Packet → State → CmdRes) (hi : ∀ p s, exec (i p) s = runPacket sp p (body p) s)
    (hb : ∀ p u, cond p u → body p u = .fail u st []) : Runs i sp cond (fun p u => u.reply p sp.opcode st []) :=
  fun p s h hc => (hi p s).trans (runPacket_fail h (hb _ _ hc))

end Sys2Proof.Machine
end

