-- ==== Sys2Proof/Laws/State.lean ====
section
/-!
SUPPORT. What each basic update of State leaves: one lemma per field and update, and what a register or a byte reads after a write.
-/

namespace Sys2Proof.Machine

variable (s : State)

/-! `setReg` -/

@[simp] theorem State.setReg_mem {a v} : (s.setReg a v).mem = s.mem := rfl
@[simp] theorem State.setReg_poison {a v} : (s.setReg a v).poison = s.poison := rfl
@[simp] theorem State.setReg_freeCtr {a v} : (s.setReg a v).freeCtr = s.freeCtr := rfl
@[simp] theorem State.setReg_now {a v} : (s.setReg a v).now = s.now := rfl
@[simp] theorem State.setReg_otp {a v} : (s.setReg a v).otp = s.otp := rfl
@[simp] theorem State.setReg_sys {a v} : (s.setReg a v).sys = s.sys := rfl
@[simp] theorem State.setReg_cmd {a v} : (s.setReg a v).cmd = s.cmd := rfl
@[simp] theorem State.setReg_jnl {a v} : (s.setReg a v).jnl = s.jnl := rfl
@[simp] theorem State.setReg_clk {a v} : (s.setReg a v).clk = s.clk := rfl
@[simp] theorem State.setReg_ptp {a v} : (s.setReg a v).ptp = s.ptp := rfl
@[simp] theorem State.setReg_pair {a v} : (s.setReg a v).pair = s.pair := rfl
@[simp] theorem State.setReg_spn {a v} : (s.setReg a v).spn = s.spn := rfl
@[simp] theorem State.setReg_memc {a v} : (s.setReg a v).memc = s.memc := rfl
@[simp] theorem State.setReg_dmc {a v} : (s.setReg a v).dmc = s.dmc := rfl
@[simp] theorem State.setReg_pwr {a v} : (s.setReg a v).pwr = s.pwr := rfl
@[simp] theorem State.setReg_pmc {a v} : (s.setReg a v).pmc = s.pmc := rfl
@[simp] theorem State.setReg_stbl {a v} : (s.setReg a v).stbl = s.stbl := rfl
@[simp] theorem State.setReg_oms {a v} : (s.setReg a v).oms = s.oms := rfl
@[simp] theorem State.setReg_fab {a v} : (s.setReg a v).fab = s.fab := rfl
@[simp] theorem State.setReg_plan {a v} : (s.setReg a v).plan = s.plan := rfl
@[simp] theorem State.setReg_cap {a v} : (s.setReg a v).cap = s.cap := rfl
@[simp] theorem State.setReg_proc {a v} : (s.setReg a v).proc = s.proc := rfl
@[simp] theorem State.setReg_emi {a v} : (s.setReg a v).emi = s.emi := rfl
@[simp] theorem State.setReg_dp {a v} : (s.setReg a v).dp = s.dp := rfl
@[simp] theorem State.setReg_out {a v} : (s.setReg a v).out = s.out := rfl
@[simp] theorem State.setReg_conv {a v} : (s.setReg a v).conv = s.conv := rfl
@[simp] theorem State.setReg_meas {a v} : (s.setReg a v).meas = s.meas := rfl
@[simp] theorem State.setReg_mix {a v} : (s.setReg a v).mix = s.mix := rfl
@[simp] theorem State.setReg_tdm {a v} : (s.setReg a v).tdm = s.tdm := rfl
@[simp] theorem State.setReg_strm {a v} : (s.setReg a v).strm = s.strm := rfl
@[simp] theorem State.setReg_mac {a v} : (s.setReg a v).mac = s.mac := rfl
@[simp] theorem State.setReg_fx {a v} : (s.setReg a v).fx = s.fx := rfl
@[simp] theorem State.setReg_pending {a v} : (s.setReg a v).pending = s.pending := rfl

/-! `wr` -/

@[simp] theorem State.wr_mem {a v} : (s.wr a v).mem = s.mem := rfl
@[simp] theorem State.wr_poison {a v} : (s.wr a v).poison = s.poison := rfl
@[simp] theorem State.wr_freeCtr {a v} : (s.wr a v).freeCtr = s.freeCtr := rfl
@[simp] theorem State.wr_now {a v} : (s.wr a v).now = s.now := rfl
@[simp] theorem State.wr_otp {a v} : (s.wr a v).otp = s.otp := rfl
@[simp] theorem State.wr_sys {a v} : (s.wr a v).sys = s.sys := rfl
@[simp] theorem State.wr_cmd {a v} : (s.wr a v).cmd = s.cmd := rfl
@[simp] theorem State.wr_jnl {a v} : (s.wr a v).jnl = s.jnl := rfl
@[simp] theorem State.wr_clk {a v} : (s.wr a v).clk = s.clk := rfl
@[simp] theorem State.wr_ptp {a v} : (s.wr a v).ptp = s.ptp := rfl
@[simp] theorem State.wr_pair {a v} : (s.wr a v).pair = s.pair := rfl
@[simp] theorem State.wr_spn {a v} : (s.wr a v).spn = s.spn := rfl
@[simp] theorem State.wr_memc {a v} : (s.wr a v).memc = s.memc := rfl
@[simp] theorem State.wr_dmc {a v} : (s.wr a v).dmc = s.dmc := rfl
@[simp] theorem State.wr_pwr {a v} : (s.wr a v).pwr = s.pwr := rfl
@[simp] theorem State.wr_pmc {a v} : (s.wr a v).pmc = s.pmc := rfl
@[simp] theorem State.wr_stbl {a v} : (s.wr a v).stbl = s.stbl := rfl
@[simp] theorem State.wr_oms {a v} : (s.wr a v).oms = s.oms := rfl
@[simp] theorem State.wr_fab {a v} : (s.wr a v).fab = s.fab := rfl
@[simp] theorem State.wr_plan {a v} : (s.wr a v).plan = s.plan := rfl
@[simp] theorem State.wr_cap {a v} : (s.wr a v).cap = s.cap := rfl
@[simp] theorem State.wr_proc {a v} : (s.wr a v).proc = s.proc := rfl
@[simp] theorem State.wr_emi {a v} : (s.wr a v).emi = s.emi := rfl
@[simp] theorem State.wr_dp {a v} : (s.wr a v).dp = s.dp := rfl
@[simp] theorem State.wr_out {a v} : (s.wr a v).out = s.out := rfl
@[simp] theorem State.wr_conv {a v} : (s.wr a v).conv = s.conv := rfl
@[simp] theorem State.wr_meas {a v} : (s.wr a v).meas = s.meas := rfl
@[simp] theorem State.wr_mix {a v} : (s.wr a v).mix = s.mix := rfl
@[simp] theorem State.wr_tdm {a v} : (s.wr a v).tdm = s.tdm := rfl
@[simp] theorem State.wr_strm {a v} : (s.wr a v).strm = s.strm := rfl
@[simp] theorem State.wr_mac {a v} : (s.wr a v).mac = s.mac := rfl
@[simp] theorem State.wr_fx {a v} : (s.wr a v).fx = s.fx := rfl
@[simp] theorem State.wr_pending {a v} : (s.wr a v).pending = s.pending := rfl

/-! `setFld` -/

@[simp] theorem State.setFld_mem {a f v} : (s.setFld a f v).mem = s.mem := rfl
@[simp] theorem State.setFld_poison {a f v} : (s.setFld a f v).poison = s.poison := rfl
@[simp] theorem State.setFld_freeCtr {a f v} : (s.setFld a f v).freeCtr = s.freeCtr := rfl
@[simp] theorem State.setFld_now {a f v} : (s.setFld a f v).now = s.now := rfl
@[simp] theorem State.setFld_otp {a f v} : (s.setFld a f v).otp = s.otp := rfl
@[simp] theorem State.setFld_sys {a f v} : (s.setFld a f v).sys = s.sys := rfl
@[simp] theorem State.setFld_cmd {a f v} : (s.setFld a f v).cmd = s.cmd := rfl
@[simp] theorem State.setFld_jnl {a f v} : (s.setFld a f v).jnl = s.jnl := rfl
@[simp] theorem State.setFld_clk {a f v} : (s.setFld a f v).clk = s.clk := rfl
@[simp] theorem State.setFld_ptp {a f v} : (s.setFld a f v).ptp = s.ptp := rfl
@[simp] theorem State.setFld_pair {a f v} : (s.setFld a f v).pair = s.pair := rfl
@[simp] theorem State.setFld_spn {a f v} : (s.setFld a f v).spn = s.spn := rfl
@[simp] theorem State.setFld_memc {a f v} : (s.setFld a f v).memc = s.memc := rfl
@[simp] theorem State.setFld_dmc {a f v} : (s.setFld a f v).dmc = s.dmc := rfl
@[simp] theorem State.setFld_pwr {a f v} : (s.setFld a f v).pwr = s.pwr := rfl
@[simp] theorem State.setFld_pmc {a f v} : (s.setFld a f v).pmc = s.pmc := rfl
@[simp] theorem State.setFld_stbl {a f v} : (s.setFld a f v).stbl = s.stbl := rfl
@[simp] theorem State.setFld_oms {a f v} : (s.setFld a f v).oms = s.oms := rfl
@[simp] theorem State.setFld_fab {a f v} : (s.setFld a f v).fab = s.fab := rfl
@[simp] theorem State.setFld_plan {a f v} : (s.setFld a f v).plan = s.plan := rfl
@[simp] theorem State.setFld_cap {a f v} : (s.setFld a f v).cap = s.cap := rfl
@[simp] theorem State.setFld_proc {a f v} : (s.setFld a f v).proc = s.proc := rfl
@[simp] theorem State.setFld_emi {a f v} : (s.setFld a f v).emi = s.emi := rfl
@[simp] theorem State.setFld_dp {a f v} : (s.setFld a f v).dp = s.dp := rfl
@[simp] theorem State.setFld_out {a f v} : (s.setFld a f v).out = s.out := rfl
@[simp] theorem State.setFld_conv {a f v} : (s.setFld a f v).conv = s.conv := rfl
@[simp] theorem State.setFld_meas {a f v} : (s.setFld a f v).meas = s.meas := rfl
@[simp] theorem State.setFld_mix {a f v} : (s.setFld a f v).mix = s.mix := rfl
@[simp] theorem State.setFld_tdm {a f v} : (s.setFld a f v).tdm = s.tdm := rfl
@[simp] theorem State.setFld_strm {a f v} : (s.setFld a f v).strm = s.strm := rfl
@[simp] theorem State.setFld_mac {a f v} : (s.setFld a f v).mac = s.mac := rfl
@[simp] theorem State.setFld_fx {a f v} : (s.setFld a f v).fx = s.fx := rfl
@[simp] theorem State.setFld_pending {a f v} : (s.setFld a f v).pending = s.pending := rfl

/-! `setFlag` -/

@[simp] theorem State.setFlag_mem {a f v} : (s.setFlag a f v).mem = s.mem := rfl
@[simp] theorem State.setFlag_poison {a f v} : (s.setFlag a f v).poison = s.poison := rfl
@[simp] theorem State.setFlag_freeCtr {a f v} : (s.setFlag a f v).freeCtr = s.freeCtr := rfl
@[simp] theorem State.setFlag_now {a f v} : (s.setFlag a f v).now = s.now := rfl
@[simp] theorem State.setFlag_otp {a f v} : (s.setFlag a f v).otp = s.otp := rfl
@[simp] theorem State.setFlag_sys {a f v} : (s.setFlag a f v).sys = s.sys := rfl
@[simp] theorem State.setFlag_cmd {a f v} : (s.setFlag a f v).cmd = s.cmd := rfl
@[simp] theorem State.setFlag_jnl {a f v} : (s.setFlag a f v).jnl = s.jnl := rfl
@[simp] theorem State.setFlag_clk {a f v} : (s.setFlag a f v).clk = s.clk := rfl
@[simp] theorem State.setFlag_ptp {a f v} : (s.setFlag a f v).ptp = s.ptp := rfl
@[simp] theorem State.setFlag_pair {a f v} : (s.setFlag a f v).pair = s.pair := rfl
@[simp] theorem State.setFlag_spn {a f v} : (s.setFlag a f v).spn = s.spn := rfl
@[simp] theorem State.setFlag_memc {a f v} : (s.setFlag a f v).memc = s.memc := rfl
@[simp] theorem State.setFlag_dmc {a f v} : (s.setFlag a f v).dmc = s.dmc := rfl
@[simp] theorem State.setFlag_pwr {a f v} : (s.setFlag a f v).pwr = s.pwr := rfl
@[simp] theorem State.setFlag_pmc {a f v} : (s.setFlag a f v).pmc = s.pmc := rfl
@[simp] theorem State.setFlag_stbl {a f v} : (s.setFlag a f v).stbl = s.stbl := rfl
@[simp] theorem State.setFlag_oms {a f v} : (s.setFlag a f v).oms = s.oms := rfl
@[simp] theorem State.setFlag_fab {a f v} : (s.setFlag a f v).fab = s.fab := rfl
@[simp] theorem State.setFlag_plan {a f v} : (s.setFlag a f v).plan = s.plan := rfl
@[simp] theorem State.setFlag_cap {a f v} : (s.setFlag a f v).cap = s.cap := rfl
@[simp] theorem State.setFlag_proc {a f v} : (s.setFlag a f v).proc = s.proc := rfl
@[simp] theorem State.setFlag_emi {a f v} : (s.setFlag a f v).emi = s.emi := rfl
@[simp] theorem State.setFlag_dp {a f v} : (s.setFlag a f v).dp = s.dp := rfl
@[simp] theorem State.setFlag_out {a f v} : (s.setFlag a f v).out = s.out := rfl
@[simp] theorem State.setFlag_conv {a f v} : (s.setFlag a f v).conv = s.conv := rfl
@[simp] theorem State.setFlag_meas {a f v} : (s.setFlag a f v).meas = s.meas := rfl
@[simp] theorem State.setFlag_mix {a f v} : (s.setFlag a f v).mix = s.mix := rfl
@[simp] theorem State.setFlag_tdm {a f v} : (s.setFlag a f v).tdm = s.tdm := rfl
@[simp] theorem State.setFlag_strm {a f v} : (s.setFlag a f v).strm = s.strm := rfl
@[simp] theorem State.setFlag_mac {a f v} : (s.setFlag a f v).mac = s.mac := rfl
@[simp] theorem State.setFlag_fx {a f v} : (s.setFlag a f v).fx = s.fx := rfl
@[simp] theorem State.setFlag_pending {a f v} : (s.setFlag a f v).pending = s.pending := rfl

/-! `cfgWrite` -/

@[simp] theorem State.cfgWrite_mem {a v} : (s.cfgWrite a v).mem = s.mem := rfl
@[simp] theorem State.cfgWrite_poison {a v} : (s.cfgWrite a v).poison = s.poison := rfl
@[simp] theorem State.cfgWrite_freeCtr {a v} : (s.cfgWrite a v).freeCtr = s.freeCtr := rfl
@[simp] theorem State.cfgWrite_now {a v} : (s.cfgWrite a v).now = s.now := rfl
@[simp] theorem State.cfgWrite_otp {a v} : (s.cfgWrite a v).otp = s.otp := rfl
@[simp] theorem State.cfgWrite_sys {a v} : (s.cfgWrite a v).sys = s.sys := rfl
@[simp] theorem State.cfgWrite_cmd {a v} : (s.cfgWrite a v).cmd = s.cmd := rfl
@[simp] theorem State.cfgWrite_jnl {a v} : (s.cfgWrite a v).jnl = s.jnl := rfl
@[simp] theorem State.cfgWrite_clk {a v} : (s.cfgWrite a v).clk = s.clk := rfl
@[simp] theorem State.cfgWrite_ptp {a v} : (s.cfgWrite a v).ptp = s.ptp := rfl
@[simp] theorem State.cfgWrite_pair {a v} : (s.cfgWrite a v).pair = s.pair := rfl
@[simp] theorem State.cfgWrite_spn {a v} : (s.cfgWrite a v).spn = s.spn := rfl
@[simp] theorem State.cfgWrite_memc {a v} : (s.cfgWrite a v).memc = s.memc := rfl
@[simp] theorem State.cfgWrite_dmc {a v} : (s.cfgWrite a v).dmc = s.dmc := rfl
@[simp] theorem State.cfgWrite_pwr {a v} : (s.cfgWrite a v).pwr = s.pwr := rfl
@[simp] theorem State.cfgWrite_pmc {a v} : (s.cfgWrite a v).pmc = s.pmc := rfl
@[simp] theorem State.cfgWrite_stbl {a v} : (s.cfgWrite a v).stbl = s.stbl := rfl
@[simp] theorem State.cfgWrite_oms {a v} : (s.cfgWrite a v).oms = s.oms := rfl
@[simp] theorem State.cfgWrite_fab {a v} : (s.cfgWrite a v).fab = s.fab := rfl
@[simp] theorem State.cfgWrite_plan {a v} : (s.cfgWrite a v).plan = s.plan := rfl
@[simp] theorem State.cfgWrite_cap {a v} : (s.cfgWrite a v).cap = s.cap := rfl
@[simp] theorem State.cfgWrite_proc {a v} : (s.cfgWrite a v).proc = s.proc := rfl
@[simp] theorem State.cfgWrite_emi {a v} : (s.cfgWrite a v).emi = s.emi := rfl
@[simp] theorem State.cfgWrite_dp {a v} : (s.cfgWrite a v).dp = s.dp := rfl
@[simp] theorem State.cfgWrite_out {a v} : (s.cfgWrite a v).out = s.out := rfl
@[simp] theorem State.cfgWrite_conv {a v} : (s.cfgWrite a v).conv = s.conv := rfl
@[simp] theorem State.cfgWrite_meas {a v} : (s.cfgWrite a v).meas = s.meas := rfl
@[simp] theorem State.cfgWrite_mix {a v} : (s.cfgWrite a v).mix = s.mix := rfl
@[simp] theorem State.cfgWrite_tdm {a v} : (s.cfgWrite a v).tdm = s.tdm := rfl
@[simp] theorem State.cfgWrite_strm {a v} : (s.cfgWrite a v).strm = s.strm := rfl
@[simp] theorem State.cfgWrite_mac {a v} : (s.cfgWrite a v).mac = s.mac := rfl
@[simp] theorem State.cfgWrite_fx {a v} : (s.cfgWrite a v).fx = s.fx := rfl
@[simp] theorem State.cfgWrite_pending {a v} : (s.cfgWrite a v).pending = s.pending := rfl

/-! `wrByte` -/

@[simp] theorem State.wrByte_regs {a v} : (s.wrByte a v).regs = s.regs := rfl
@[simp] theorem State.wrByte_poison {a v} : (s.wrByte a v).poison = s.poison := rfl
@[simp] theorem State.wrByte_freeCtr {a v} : (s.wrByte a v).freeCtr = s.freeCtr := rfl
@[simp] theorem State.wrByte_now {a v} : (s.wrByte a v).now = s.now := rfl
@[simp] theorem State.wrByte_otp {a v} : (s.wrByte a v).otp = s.otp := rfl
@[simp] theorem State.wrByte_sys {a v} : (s.wrByte a v).sys = s.sys := rfl
@[simp] theorem State.wrByte_cmd {a v} : (s.wrByte a v).cmd = s.cmd := rfl
@[simp] theorem State.wrByte_jnl {a v} : (s.wrByte a v).jnl = s.jnl := rfl
@[simp] theorem State.wrByte_clk {a v} : (s.wrByte a v).clk = s.clk := rfl
@[simp] theorem State.wrByte_ptp {a v} : (s.wrByte a v).ptp = s.ptp := rfl
@[simp] theorem State.wrByte_pair {a v} : (s.wrByte a v).pair = s.pair := rfl
@[simp] theorem State.wrByte_spn {a v} : (s.wrByte a v).spn = s.spn := rfl
@[simp] theorem State.wrByte_memc {a v} : (s.wrByte a v).memc = s.memc := rfl
@[simp] theorem State.wrByte_dmc {a v} : (s.wrByte a v).dmc = s.dmc := rfl
@[simp] theorem State.wrByte_pwr {a v} : (s.wrByte a v).pwr = s.pwr := rfl
@[simp] theorem State.wrByte_pmc {a v} : (s.wrByte a v).pmc = s.pmc := rfl
@[simp] theorem State.wrByte_stbl {a v} : (s.wrByte a v).stbl = s.stbl := rfl
@[simp] theorem State.wrByte_oms {a v} : (s.wrByte a v).oms = s.oms := rfl
@[simp] theorem State.wrByte_fab {a v} : (s.wrByte a v).fab = s.fab := rfl
@[simp] theorem State.wrByte_plan {a v} : (s.wrByte a v).plan = s.plan := rfl
@[simp] theorem State.wrByte_cap {a v} : (s.wrByte a v).cap = s.cap := rfl
@[simp] theorem State.wrByte_proc {a v} : (s.wrByte a v).proc = s.proc := rfl
@[simp] theorem State.wrByte_emi {a v} : (s.wrByte a v).emi = s.emi := rfl
@[simp] theorem State.wrByte_dp {a v} : (s.wrByte a v).dp = s.dp := rfl
@[simp] theorem State.wrByte_out {a v} : (s.wrByte a v).out = s.out := rfl
@[simp] theorem State.wrByte_conv {a v} : (s.wrByte a v).conv = s.conv := rfl
@[simp] theorem State.wrByte_meas {a v} : (s.wrByte a v).meas = s.meas := rfl
@[simp] theorem State.wrByte_mix {a v} : (s.wrByte a v).mix = s.mix := rfl
@[simp] theorem State.wrByte_tdm {a v} : (s.wrByte a v).tdm = s.tdm := rfl
@[simp] theorem State.wrByte_strm {a v} : (s.wrByte a v).strm = s.strm := rfl
@[simp] theorem State.wrByte_mac {a v} : (s.wrByte a v).mac = s.mac := rfl
@[simp] theorem State.wrByte_fx {a v} : (s.wrByte a v).fx = s.fx := rfl
@[simp] theorem State.wrByte_pending {a v} : (s.wrByte a v).pending = s.pending := rfl

/-! `pmcPlus` -/

@[simp] theorem State.pmcPlus_regs {k n} : (s.pmcPlus k n).regs = s.regs := rfl
@[simp] theorem State.pmcPlus_mem {k n} : (s.pmcPlus k n).mem = s.mem := rfl
@[simp] theorem State.pmcPlus_poison {k n} : (s.pmcPlus k n).poison = s.poison := rfl
@[simp] theorem State.pmcPlus_freeCtr {k n} : (s.pmcPlus k n).freeCtr = s.freeCtr := rfl
@[simp] theorem State.pmcPlus_now {k n} : (s.pmcPlus k n).now = s.now := rfl
@[simp] theorem State.pmcPlus_otp {k n} : (s.pmcPlus k n).otp = s.otp := rfl
@[simp] theorem State.pmcPlus_sys {k n} : (s.pmcPlus k n).sys = s.sys := rfl
@[simp] theorem State.pmcPlus_cmd {k n} : (s.pmcPlus k n).cmd = s.cmd := rfl
@[simp] theorem State.pmcPlus_jnl {k n} : (s.pmcPlus k n).jnl = s.jnl := rfl
@[simp] theorem State.pmcPlus_clk {k n} : (s.pmcPlus k n).clk = s.clk := rfl
@[simp] theorem State.pmcPlus_ptp {k n} : (s.pmcPlus k n).ptp = s.ptp := rfl
@[simp] theorem State.pmcPlus_pair {k n} : (s.pmcPlus k n).pair = s.pair := rfl
@[simp] theorem State.pmcPlus_spn {k n} : (s.pmcPlus k n).spn = s.spn := rfl
@[simp] theorem State.pmcPlus_memc {k n} : (s.pmcPlus k n).memc = s.memc := rfl
@[simp] theorem State.pmcPlus_dmc {k n} : (s.pmcPlus k n).dmc = s.dmc := rfl
@[simp] theorem State.pmcPlus_pwr {k n} : (s.pmcPlus k n).pwr = s.pwr := rfl
@[simp] theorem State.pmcPlus_stbl {k n} : (s.pmcPlus k n).stbl = s.stbl := rfl
@[simp] theorem State.pmcPlus_oms {k n} : (s.pmcPlus k n).oms = s.oms := rfl
@[simp] theorem State.pmcPlus_fab {k n} : (s.pmcPlus k n).fab = s.fab := rfl
@[simp] theorem State.pmcPlus_plan {k n} : (s.pmcPlus k n).plan = s.plan := rfl
@[simp] theorem State.pmcPlus_cap {k n} : (s.pmcPlus k n).cap = s.cap := rfl
@[simp] theorem State.pmcPlus_proc {k n} : (s.pmcPlus k n).proc = s.proc := rfl
@[simp] theorem State.pmcPlus_emi {k n} : (s.pmcPlus k n).emi = s.emi := rfl
@[simp] theorem State.pmcPlus_dp {k n} : (s.pmcPlus k n).dp = s.dp := rfl
@[simp] theorem State.pmcPlus_out {k n} : (s.pmcPlus k n).out = s.out := rfl
@[simp] theorem State.pmcPlus_conv {k n} : (s.pmcPlus k n).conv = s.conv := rfl
@[simp] theorem State.pmcPlus_meas {k n} : (s.pmcPlus k n).meas = s.meas := rfl
@[simp] theorem State.pmcPlus_mix {k n} : (s.pmcPlus k n).mix = s.mix := rfl
@[simp] theorem State.pmcPlus_tdm {k n} : (s.pmcPlus k n).tdm = s.tdm := rfl
@[simp] theorem State.pmcPlus_strm {k n} : (s.pmcPlus k n).strm = s.strm := rfl
@[simp] theorem State.pmcPlus_mac {k n} : (s.pmcPlus k n).mac = s.mac := rfl
@[simp] theorem State.pmcPlus_fx {k n} : (s.pmcPlus k n).fx = s.fx := rfl
@[simp] theorem State.pmcPlus_pending {k n} : (s.pmcPlus k n).pending = s.pending := rfl

/-! `readReturns` -/

@[simp] theorem State.readReturns_regs {v} : (s.readReturns v).regs = s.regs := rfl
@[simp] theorem State.readReturns_mem {v} : (s.readReturns v).mem = s.mem := rfl
@[simp] theorem State.readReturns_poison {v} : (s.readReturns v).poison = s.poison := rfl
@[simp] theorem State.readReturns_freeCtr {v} : (s.readReturns v).freeCtr = s.freeCtr := rfl
@[simp] theorem State.readReturns_now {v} : (s.readReturns v).now = s.now := rfl
@[simp] theorem State.readReturns_otp {v} : (s.readReturns v).otp = s.otp := rfl
@[simp] theorem State.readReturns_cmd {v} : (s.readReturns v).cmd = s.cmd := rfl
@[simp] theorem State.readReturns_jnl {v} : (s.readReturns v).jnl = s.jnl := rfl
@[simp] theorem State.readReturns_clk {v} : (s.readReturns v).clk = s.clk := rfl
@[simp] theorem State.readReturns_ptp {v} : (s.readReturns v).ptp = s.ptp := rfl
@[simp] theorem State.readReturns_pair {v} : (s.readReturns v).pair = s.pair := rfl
@[simp] theorem State.readReturns_spn {v} : (s.readReturns v).spn = s.spn := rfl
@[simp] theorem State.readReturns_memc {v} : (s.readReturns v).memc = s.memc := rfl
@[simp] theorem State.readReturns_dmc {v} : (s.readReturns v).dmc = s.dmc := rfl
@[simp] theorem State.readReturns_pwr {v} : (s.readReturns v).pwr = s.pwr := rfl
@[simp] theorem State.readReturns_pmc {v} : (s.readReturns v).pmc = s.pmc := rfl
@[simp] theorem State.readReturns_stbl {v} : (s.readReturns v).stbl = s.stbl := rfl
@[simp] theorem State.readReturns_oms {v} : (s.readReturns v).oms = s.oms := rfl
@[simp] theorem State.readReturns_fab {v} : (s.readReturns v).fab = s.fab := rfl
@[simp] theorem State.readReturns_plan {v} : (s.readReturns v).plan = s.plan := rfl
@[simp] theorem State.readReturns_cap {v} : (s.readReturns v).cap = s.cap := rfl
@[simp] theorem State.readReturns_proc {v} : (s.readReturns v).proc = s.proc := rfl
@[simp] theorem State.readReturns_emi {v} : (s.readReturns v).emi = s.emi := rfl
@[simp] theorem State.readReturns_dp {v} : (s.readReturns v).dp = s.dp := rfl
@[simp] theorem State.readReturns_out {v} : (s.readReturns v).out = s.out := rfl
@[simp] theorem State.readReturns_conv {v} : (s.readReturns v).conv = s.conv := rfl
@[simp] theorem State.readReturns_meas {v} : (s.readReturns v).meas = s.meas := rfl
@[simp] theorem State.readReturns_mix {v} : (s.readReturns v).mix = s.mix := rfl
@[simp] theorem State.readReturns_tdm {v} : (s.readReturns v).tdm = s.tdm := rfl
@[simp] theorem State.readReturns_strm {v} : (s.readReturns v).strm = s.strm := rfl
@[simp] theorem State.readReturns_mac {v} : (s.readReturns v).mac = s.mac := rfl
@[simp] theorem State.readReturns_fx {v} : (s.readReturns v).fx = s.fx := rfl
@[simp] theorem State.readReturns_pending {v} : (s.readReturns v).pending = s.pending := rfl

/-! `record` -/

@[simp] theorem State.record_regs {o p h} : (s.record o p h).regs = s.regs := rfl
@[simp] theorem State.record_mem {o p h} : (s.record o p h).mem = s.mem := rfl
@[simp] theorem State.record_poison {o p h} : (s.record o p h).poison = s.poison := rfl
@[simp] theorem State.record_freeCtr {o p h} : (s.record o p h).freeCtr = s.freeCtr := rfl
@[simp] theorem State.record_now {o p h} : (s.record o p h).now = s.now := rfl
@[simp] theorem State.record_otp {o p h} : (s.record o p h).otp = s.otp := rfl
@[simp] theorem State.record_sys {o p h} : (s.record o p h).sys = s.sys := rfl
@[simp] theorem State.record_cmd {o p h} : (s.record o p h).cmd = s.cmd := rfl
@[simp] theorem State.record_clk {o p h} : (s.record o p h).clk = s.clk := rfl
@[simp] theorem State.record_ptp {o p h} : (s.record o p h).ptp = s.ptp := rfl
@[simp] theorem State.record_pair {o p h} : (s.record o p h).pair = s.pair := rfl
@[simp] theorem State.record_spn {o p h} : (s.record o p h).spn = s.spn := rfl
@[simp] theorem State.record_memc {o p h} : (s.record o p h).memc = s.memc := rfl
@[simp] theorem State.record_dmc {o p h} : (s.record o p h).dmc = s.dmc := rfl
@[simp] theorem State.record_pwr {o p h} : (s.record o p h).pwr = s.pwr := rfl
@[simp] theorem State.record_pmc {o p h} : (s.record o p h).pmc = s.pmc := rfl
@[simp] theorem State.record_stbl {o p h} : (s.record o p h).stbl = s.stbl := rfl
@[simp] theorem State.record_oms {o p h} : (s.record o p h).oms = s.oms := rfl
@[simp] theorem State.record_fab {o p h} : (s.record o p h).fab = s.fab := rfl
@[simp] theorem State.record_plan {o p h} : (s.record o p h).plan = s.plan := rfl
@[simp] theorem State.record_cap {o p h} : (s.record o p h).cap = s.cap := rfl
@[simp] theorem State.record_proc {o p h} : (s.record o p h).proc = s.proc := rfl
@[simp] theorem State.record_emi {o p h} : (s.record o p h).emi = s.emi := rfl
@[simp] theorem State.record_dp {o p h} : (s.record o p h).dp = s.dp := rfl
@[simp] theorem State.record_out {o p h} : (s.record o p h).out = s.out := rfl
@[simp] theorem State.record_conv {o p h} : (s.record o p h).conv = s.conv := rfl
@[simp] theorem State.record_meas {o p h} : (s.record o p h).meas = s.meas := rfl
@[simp] theorem State.record_mix {o p h} : (s.record o p h).mix = s.mix := rfl
@[simp] theorem State.record_tdm {o p h} : (s.record o p h).tdm = s.tdm := rfl
@[simp] theorem State.record_strm {o p h} : (s.record o p h).strm = s.strm := rfl
@[simp] theorem State.record_mac {o p h} : (s.record o p h).mac = s.mac := rfl
@[simp] theorem State.record_fx {o p h} : (s.record o p h).fx = s.fx := rfl
@[simp] theorem State.record_pending {o p h} : (s.record o p h).pending = s.pending := rfl

/-! `fresh` -/

@[simp] theorem State.fresh_regs : s.fresh.2.regs = s.regs := rfl
@[simp] theorem State.fresh_mem : s.fresh.2.mem = s.mem := rfl
@[simp] theorem State.fresh_poison : s.fresh.2.poison = s.poison := rfl
@[simp] theorem State.fresh_now : s.fresh.2.now = s.now := rfl
@[simp] theorem State.fresh_otp : s.fresh.2.otp = s.otp := rfl
@[simp] theorem State.fresh_sys : s.fresh.2.sys = s.sys := rfl
@[simp] theorem State.fresh_cmd : s.fresh.2.cmd = s.cmd := rfl
@[simp] theorem State.fresh_jnl : s.fresh.2.jnl = s.jnl := rfl
@[simp] theorem State.fresh_clk : s.fresh.2.clk = s.clk := rfl
@[simp] theorem State.fresh_ptp : s.fresh.2.ptp = s.ptp := rfl
@[simp] theorem State.fresh_pair : s.fresh.2.pair = s.pair := rfl
@[simp] theorem State.fresh_spn : s.fresh.2.spn = s.spn := rfl
@[simp] theorem State.fresh_memc : s.fresh.2.memc = s.memc := rfl
@[simp] theorem State.fresh_dmc : s.fresh.2.dmc = s.dmc := rfl
@[simp] theorem State.fresh_pwr : s.fresh.2.pwr = s.pwr := rfl
@[simp] theorem State.fresh_pmc : s.fresh.2.pmc = s.pmc := rfl
@[simp] theorem State.fresh_stbl : s.fresh.2.stbl = s.stbl := rfl
@[simp] theorem State.fresh_oms : s.fresh.2.oms = s.oms := rfl
@[simp] theorem State.fresh_fab : s.fresh.2.fab = s.fab := rfl
@[simp] theorem State.fresh_plan : s.fresh.2.plan = s.plan := rfl
@[simp] theorem State.fresh_cap : s.fresh.2.cap = s.cap := rfl
@[simp] theorem State.fresh_proc : s.fresh.2.proc = s.proc := rfl
@[simp] theorem State.fresh_emi : s.fresh.2.emi = s.emi := rfl
@[simp] theorem State.fresh_dp : s.fresh.2.dp = s.dp := rfl
@[simp] theorem State.fresh_out : s.fresh.2.out = s.out := rfl
@[simp] theorem State.fresh_conv : s.fresh.2.conv = s.conv := rfl
@[simp] theorem State.fresh_meas : s.fresh.2.meas = s.meas := rfl
@[simp] theorem State.fresh_mix : s.fresh.2.mix = s.mix := rfl
@[simp] theorem State.fresh_tdm : s.fresh.2.tdm = s.tdm := rfl
@[simp] theorem State.fresh_strm : s.fresh.2.strm = s.strm := rfl
@[simp] theorem State.fresh_mac : s.fresh.2.mac = s.mac := rfl
@[simp] theorem State.fresh_fx : s.fresh.2.fx = s.fx := rfl
@[simp] theorem State.fresh_pending : s.fresh.2.pending = s.pending := rfl
@[simp] theorem State.fresh_freeCtr : s.fresh.2.freeCtr = s.freeCtr + 1 := rfl
@[simp] theorem State.fresh_val : s.fresh.1 = Config.freeValue s.freeCtr := rfl

/-! ### Reading after writing -/

/-- A register written reads what was written; the others read as before. -/
@[simp] theorem State.reg_setReg (a b : Nat) (v : Word32) : (s.setReg a v).reg b = if b = a then v else s.reg b :=
  Tab.at_store s.regs (regReset s.otp.grade) a b v

@[simp] theorem State.reg_wr (a b v : Nat) : (s.wr a v).reg b = if b = a then BitVec.ofNat 32 v else s.reg b :=
  s.reg_setReg a b _

theorem State.rd_wr (a b v : Nat) : (s.wr a v).rd b = if b = a then v % 2 ^ 32 else s.rd b := by
  unfold State.rd
  rw [s.reg_wr]
  split <;> simp

@[simp] theorem State.rd_wr_same (a v : Nat) : (s.wr a v).rd a = v % 2 ^ 32 := by rw [s.rd_wr, if_pos rfl]

@[simp] theorem State.rd_wr_other {a b : Nat} (v : Nat) (h : b ≠ a) : (s.wr a v).rd b = s.rd b := by
  rw [s.rd_wr, if_neg h]

@[simp] theorem State.rd_setFld_other {a b : Nat} (f : Fld) (v : Nat) (h : b ≠ a) : (s.setFld a f v).rd b = s.rd b :=
  s.rd_wr_other _ h

@[simp] theorem State.rd_setFlag_other {a b : Nat} (f : Fld) (v : Bool) (h : b ≠ a) : (s.setFlag a f v).rd b = s.rd b :=
  s.rd_setFld_other f _ h

theorem State.rd_lt (a : Nat) : s.rd a < 2 ^ 32 := (s.reg a).isLt

/-- A byte written reads what was written; the others read as before. -/
@[simp] theorem State.rdByte_wrByte (a b : Nat) (v : Byte) : (s.wrByte a v).rdByte b = if b = a then v else s.rdByte b :=
  Tab.at_store s.mem (fun _ => memDefault) a b v

/-- Bytes beside the ones written read as before. -/
theorem State.rdByte_wrBytes_other (bs : List Byte) (a b : Nat) (h : b < a ∨ a + bs.length ≤ b) :
    (s.wrBytes a bs).rdByte b = s.rdByte b := by
  induction bs generalizing s a with
  | nil => rfl
  | cons x l ih =>
    simp only [List.length_cons] at h
    rw [State.wrBytes, ih (s := s.wrByte a x) (h := by omega), State.rdByte_wrByte, if_neg (by omega)]

/-- Bytes written read what was written. -/
theorem State.rdByte_wrBytes (bs : List Byte) (a k : Nat) (h : k < bs.length) :
    (s.wrBytes a bs).rdByte (a + k) = bs[k] := by
  induction bs generalizing s a k with
  | nil => simp at h
  | cons x l ih =>
    cases k with
    | zero =>
      rw [State.wrBytes, State.rdByte_wrBytes_other (h := by omega), Nat.add_zero, State.rdByte_wrByte, if_pos rfl]
      rfl
    | succ k =>
      have := ih (s := s.wrByte a x) (a := a + 1) (k := k) (h := by simpa using h)
      rw [State.wrBytes, show a + (k + 1) = a + 1 + k by omega, this]
      rfl

end Sys2Proof.Machine
end

