-- ==== Sys2Proof/Laws/Events.lean ====
section
/-!
SUPPORT. Counting events and raising interrupt flags: what they leave as it was.
-/

namespace Sys2Proof.Machine

variable (s : State)

theorem State.pmcAdd_leaves {α : Type} (f : State → α) (h : ∀ u k n, f (State.pmcPlus u k n) = f u) (b c e n : Nat) :
    f (s.pmcAdd b c e n) = f s := by
  unfold State.pmcAdd
  generalize s.pmcSels = l
  induction l generalizing s with
  | nil => rfl
  | cons x l ih =>
    rw [List.foldl_cons, ih]
    split
    · exact h _ _ _
    · rfl

@[simp] theorem State.pmcAdd_regs {b c e n} : (s.pmcAdd b c e n).regs = s.regs :=
  s.pmcAdd_leaves (·.regs) (fun _ _ _ => rfl) b c e n
@[simp] theorem State.pmcAdd_mem {b c e n} : (s.pmcAdd b c e n).mem = s.mem :=
  s.pmcAdd_leaves (·.mem) (fun _ _ _ => rfl) b c e n
@[simp] theorem State.pmcAdd_poison {b c e n} : (s.pmcAdd b c e n).poison = s.poison :=
  s.pmcAdd_leaves (·.poison) (fun _ _ _ => rfl) b c e n
@[simp] theorem State.pmcAdd_freeCtr {b c e n} : (s.pmcAdd b c e n).freeCtr = s.freeCtr :=
  s.pmcAdd_leaves (·.freeCtr) (fun _ _ _ => rfl) b c e n
@[simp] theorem State.pmcAdd_now {b c e n} : (s.pmcAdd b c e n).now = s.now :=
  s.pmcAdd_leaves (·.now) (fun _ _ _ => rfl) b c e n
@[simp] theorem State.pmcAdd_otp {b c e n} : (s.pmcAdd b c e n).otp = s.otp :=
  s.pmcAdd_leaves (·.otp) (fun _ _ _ => rfl) b c e n
@[simp] theorem State.pmcAdd_sys {b c e n} : (s.pmcAdd b c e n).sys = s.sys :=
  s.pmcAdd_leaves (·.sys) (fun _ _ _ => rfl) b c e n
@[simp] theorem State.pmcAdd_cmd {b c e n} : (s.pmcAdd b c e n).cmd = s.cmd :=
  s.pmcAdd_leaves (·.cmd) (fun _ _ _ => rfl) b c e n
@[simp] theorem State.pmcAdd_jnl {b c e n} : (s.pmcAdd b c e n).jnl = s.jnl :=
  s.pmcAdd_leaves (·.jnl) (fun _ _ _ => rfl) b c e n
@[simp] theorem State.pmcAdd_clk {b c e n} : (s.pmcAdd b c e n).clk = s.clk :=
  s.pmcAdd_leaves (·.clk) (fun _ _ _ => rfl) b c e n
@[simp] theorem State.pmcAdd_ptp {b c e n} : (s.pmcAdd b c e n).ptp = s.ptp :=
  s.pmcAdd_leaves (·.ptp) (fun _ _ _ => rfl) b c e n
@[simp] theorem State.pmcAdd_pair {b c e n} : (s.pmcAdd b c e n).pair = s.pair :=
  s.pmcAdd_leaves (·.pair) (fun _ _ _ => rfl) b c e n
@[simp] theorem State.pmcAdd_spn {b c e n} : (s.pmcAdd b c e n).spn = s.spn :=
  s.pmcAdd_leaves (·.spn) (fun _ _ _ => rfl) b c e n
@[simp] theorem State.pmcAdd_memc {b c e n} : (s.pmcAdd b c e n).memc = s.memc :=
  s.pmcAdd_leaves (·.memc) (fun _ _ _ => rfl) b c e n
@[simp] theorem State.pmcAdd_dmc {b c e n} : (s.pmcAdd b c e n).dmc = s.dmc :=
  s.pmcAdd_leaves (·.dmc) (fun _ _ _ => rfl) b c e n
@[simp] theorem State.pmcAdd_pwr {b c e n} : (s.pmcAdd b c e n).pwr = s.pwr :=
  s.pmcAdd_leaves (·.pwr) (fun _ _ _ => rfl) b c e n
@[simp] theorem State.pmcAdd_stbl {b c e n} : (s.pmcAdd b c e n).stbl = s.stbl :=
  s.pmcAdd_leaves (·.stbl) (fun _ _ _ => rfl) b c e n
@[simp] theorem State.pmcAdd_oms {b c e n} : (s.pmcAdd b c e n).oms = s.oms :=
  s.pmcAdd_leaves (·.oms) (fun _ _ _ => rfl) b c e n
@[simp] theorem State.pmcAdd_fab {b c e n} : (s.pmcAdd b c e n).fab = s.fab :=
  s.pmcAdd_leaves (·.fab) (fun _ _ _ => rfl) b c e n
@[simp] theorem State.pmcAdd_plan {b c e n} : (s.pmcAdd b c e n).plan = s.plan :=
  s.pmcAdd_leaves (·.plan) (fun _ _ _ => rfl) b c e n
@[simp] theorem State.pmcAdd_cap {b c e n} : (s.pmcAdd b c e n).cap = s.cap :=
  s.pmcAdd_leaves (·.cap) (fun _ _ _ => rfl) b c e n
@[simp] theorem State.pmcAdd_proc {b c e n} : (s.pmcAdd b c e n).proc = s.proc :=
  s.pmcAdd_leaves (·.proc) (fun _ _ _ => rfl) b c e n
@[simp] theorem State.pmcAdd_emi {b c e n} : (s.pmcAdd b c e n).emi = s.emi :=
  s.pmcAdd_leaves (·.emi) (fun _ _ _ => rfl) b c e n
@[simp] theorem State.pmcAdd_dp {b c e n} : (s.pmcAdd b c e n).dp = s.dp :=
  s.pmcAdd_leaves (·.dp) (fun _ _ _ => rfl) b c e n
@[simp] theorem State.pmcAdd_out {b c e n} : (s.pmcAdd b c e n).out = s.out :=
  s.pmcAdd_leaves (·.out) (fun _ _ _ => rfl) b c e n
@[simp] theorem State.pmcAdd_conv {b c e n} : (s.pmcAdd b c e n).conv = s.conv :=
  s.pmcAdd_leaves (·.conv) (fun _ _ _ => rfl) b c e n
@[simp] theorem State.pmcAdd_meas {b c e n} : (s.pmcAdd b c e n).meas = s.meas :=
  s.pmcAdd_leaves (·.meas) (fun _ _ _ => rfl) b c e n
@[simp] theorem State.pmcAdd_mix {b c e n} : (s.pmcAdd b c e n).mix = s.mix :=
  s.pmcAdd_leaves (·.mix) (fun _ _ _ => rfl) b c e n
@[simp] theorem State.pmcAdd_tdm {b c e n} : (s.pmcAdd b c e n).tdm = s.tdm :=
  s.pmcAdd_leaves (·.tdm) (fun _ _ _ => rfl) b c e n
@[simp] theorem State.pmcAdd_strm {b c e n} : (s.pmcAdd b c e n).strm = s.strm :=
  s.pmcAdd_leaves (·.strm) (fun _ _ _ => rfl) b c e n
@[simp] theorem State.pmcAdd_mac {b c e n} : (s.pmcAdd b c e n).mac = s.mac :=
  s.pmcAdd_leaves (·.mac) (fun _ _ _ => rfl) b c e n
@[simp] theorem State.pmcAdd_fx {b c e n} : (s.pmcAdd b c e n).fx = s.fx :=
  s.pmcAdd_leaves (·.fx) (fun _ _ _ => rfl) b c e n
@[simp] theorem State.pmcAdd_pending {b c e n} : (s.pmcAdd b c e n).pending = s.pending :=
  s.pmcAdd_leaves (·.pending) (fun _ _ _ => rfl) b c e n

/-! A read of a register depends on the registers and the fuses alone. -/

theorem State.rd_congr {s u : State} (hr : u.regs = s.regs) (ho : u.otp = s.otp) (a : Nat) : u.rd a = s.rd a := by
  simp only [State.rd, State.reg, hr, ho]

@[simp] theorem State.rd_pmcAdd (a b c e n : Nat) : (s.pmcAdd b c e n).rd a = s.rd a :=
  State.rd_congr (by simp) (by simp) a

/-! Interrupt flags and counters -/

@[simp] theorem State.rd_irq_other {a b : Nat} (f : Fld) (h : b ≠ a) : (s.irq a f).rd b = s.rd b := by
  simp [State.irq, h]

@[simp] theorem State.rd_count_other {a b : Nat} (n : Nat) (h : b ≠ a) : (s.count a n).rd b = s.rd b := by
  simp [State.count, h]

@[simp] theorem State.rd_bump_other {a b : Nat} (h : b ≠ a) : (s.bump a).rd b = s.rd b := by
  simp [State.bump, h]

@[simp] theorem State.irq_mem {a f} : (s.irq a f).mem = s.mem := by simp [State.irq]
@[simp] theorem State.count_mem {a n} : (s.count a n).mem = s.mem := by simp [State.count]
@[simp] theorem State.bump_mem {a} : (s.bump a).mem = s.mem := by simp [State.bump]
@[simp] theorem State.irq_poison {a f} : (s.irq a f).poison = s.poison := by simp [State.irq]
@[simp] theorem State.count_poison {a n} : (s.count a n).poison = s.poison := by simp [State.count]
@[simp] theorem State.bump_poison {a} : (s.bump a).poison = s.poison := by simp [State.bump]
@[simp] theorem State.irq_freeCtr {a f} : (s.irq a f).freeCtr = s.freeCtr := by simp [State.irq]
@[simp] theorem State.count_freeCtr {a n} : (s.count a n).freeCtr = s.freeCtr := by simp [State.count]
@[simp] theorem State.bump_freeCtr {a} : (s.bump a).freeCtr = s.freeCtr := by simp [State.bump]
@[simp] theorem State.irq_now {a f} : (s.irq a f).now = s.now := by simp [State.irq]
@[simp] theorem State.count_now {a n} : (s.count a n).now = s.now := by simp [State.count]
@[simp] theorem State.bump_now {a} : (s.bump a).now = s.now := by simp [State.bump]
@[simp] theorem State.irq_otp {a f} : (s.irq a f).otp = s.otp := by simp [State.irq]
@[simp] theorem State.count_otp {a n} : (s.count a n).otp = s.otp := by simp [State.count]
@[simp] theorem State.bump_otp {a} : (s.bump a).otp = s.otp := by simp [State.bump]
@[simp] theorem State.irq_sys {a f} : (s.irq a f).sys = s.sys := by simp [State.irq]
@[simp] theorem State.count_sys {a n} : (s.count a n).sys = s.sys := by simp [State.count]
@[simp] theorem State.bump_sys {a} : (s.bump a).sys = s.sys := by simp [State.bump]
@[simp] theorem State.irq_cmd {a f} : (s.irq a f).cmd = s.cmd := by simp [State.irq]
@[simp] theorem State.count_cmd {a n} : (s.count a n).cmd = s.cmd := by simp [State.count]
@[simp] theorem State.bump_cmd {a} : (s.bump a).cmd = s.cmd := by simp [State.bump]
@[simp] theorem State.irq_jnl {a f} : (s.irq a f).jnl = s.jnl := by simp [State.irq]
@[simp] theorem State.count_jnl {a n} : (s.count a n).jnl = s.jnl := by simp [State.count]
@[simp] theorem State.bump_jnl {a} : (s.bump a).jnl = s.jnl := by simp [State.bump]
@[simp] theorem State.irq_clk {a f} : (s.irq a f).clk = s.clk := by simp [State.irq]
@[simp] theorem State.count_clk {a n} : (s.count a n).clk = s.clk := by simp [State.count]
@[simp] theorem State.bump_clk {a} : (s.bump a).clk = s.clk := by simp [State.bump]
@[simp] theorem State.irq_ptp {a f} : (s.irq a f).ptp = s.ptp := by simp [State.irq]
@[simp] theorem State.count_ptp {a n} : (s.count a n).ptp = s.ptp := by simp [State.count]
@[simp] theorem State.bump_ptp {a} : (s.bump a).ptp = s.ptp := by simp [State.bump]
@[simp] theorem State.irq_pair {a f} : (s.irq a f).pair = s.pair := by simp [State.irq]
@[simp] theorem State.count_pair {a n} : (s.count a n).pair = s.pair := by simp [State.count]
@[simp] theorem State.bump_pair {a} : (s.bump a).pair = s.pair := by simp [State.bump]
@[simp] theorem State.irq_spn {a f} : (s.irq a f).spn = s.spn := by simp [State.irq]
@[simp] theorem State.count_spn {a n} : (s.count a n).spn = s.spn := by simp [State.count]
@[simp] theorem State.bump_spn {a} : (s.bump a).spn = s.spn := by simp [State.bump]
@[simp] theorem State.irq_memc {a f} : (s.irq a f).memc = s.memc := by simp [State.irq]
@[simp] theorem State.count_memc {a n} : (s.count a n).memc = s.memc := by simp [State.count]
@[simp] theorem State.bump_memc {a} : (s.bump a).memc = s.memc := by simp [State.bump]
@[simp] theorem State.irq_dmc {a f} : (s.irq a f).dmc = s.dmc := by simp [State.irq]
@[simp] theorem State.count_dmc {a n} : (s.count a n).dmc = s.dmc := by simp [State.count]
@[simp] theorem State.bump_dmc {a} : (s.bump a).dmc = s.dmc := by simp [State.bump]
@[simp] theorem State.irq_pwr {a f} : (s.irq a f).pwr = s.pwr := by simp [State.irq]
@[simp] theorem State.count_pwr {a n} : (s.count a n).pwr = s.pwr := by simp [State.count]
@[simp] theorem State.bump_pwr {a} : (s.bump a).pwr = s.pwr := by simp [State.bump]
@[simp] theorem State.irq_stbl {a f} : (s.irq a f).stbl = s.stbl := by simp [State.irq]
@[simp] theorem State.count_stbl {a n} : (s.count a n).stbl = s.stbl := by simp [State.count]
@[simp] theorem State.bump_stbl {a} : (s.bump a).stbl = s.stbl := by simp [State.bump]
@[simp] theorem State.irq_oms {a f} : (s.irq a f).oms = s.oms := by simp [State.irq]
@[simp] theorem State.count_oms {a n} : (s.count a n).oms = s.oms := by simp [State.count]
@[simp] theorem State.bump_oms {a} : (s.bump a).oms = s.oms := by simp [State.bump]
@[simp] theorem State.irq_fab {a f} : (s.irq a f).fab = s.fab := by simp [State.irq]
@[simp] theorem State.count_fab {a n} : (s.count a n).fab = s.fab := by simp [State.count]
@[simp] theorem State.bump_fab {a} : (s.bump a).fab = s.fab := by simp [State.bump]
@[simp] theorem State.irq_plan {a f} : (s.irq a f).plan = s.plan := by simp [State.irq]
@[simp] theorem State.count_plan {a n} : (s.count a n).plan = s.plan := by simp [State.count]
@[simp] theorem State.bump_plan {a} : (s.bump a).plan = s.plan := by simp [State.bump]
@[simp] theorem State.irq_cap {a f} : (s.irq a f).cap = s.cap := by simp [State.irq]
@[simp] theorem State.count_cap {a n} : (s.count a n).cap = s.cap := by simp [State.count]
@[simp] theorem State.bump_cap {a} : (s.bump a).cap = s.cap := by simp [State.bump]
@[simp] theorem State.irq_proc {a f} : (s.irq a f).proc = s.proc := by simp [State.irq]
@[simp] theorem State.count_proc {a n} : (s.count a n).proc = s.proc := by simp [State.count]
@[simp] theorem State.bump_proc {a} : (s.bump a).proc = s.proc := by simp [State.bump]
@[simp] theorem State.irq_emi {a f} : (s.irq a f).emi = s.emi := by simp [State.irq]
@[simp] theorem State.count_emi {a n} : (s.count a n).emi = s.emi := by simp [State.count]
@[simp] theorem State.bump_emi {a} : (s.bump a).emi = s.emi := by simp [State.bump]
@[simp] theorem State.irq_dp {a f} : (s.irq a f).dp = s.dp := by simp [State.irq]
@[simp] theorem State.count_dp {a n} : (s.count a n).dp = s.dp := by simp [State.count]
@[simp] theorem State.bump_dp {a} : (s.bump a).dp = s.dp := by simp [State.bump]
@[simp] theorem State.irq_out {a f} : (s.irq a f).out = s.out := by simp [State.irq]
@[simp] theorem State.count_out {a n} : (s.count a n).out = s.out := by simp [State.count]
@[simp] theorem State.bump_out {a} : (s.bump a).out = s.out := by simp [State.bump]
@[simp] theorem State.irq_conv {a f} : (s.irq a f).conv = s.conv := by simp [State.irq]
@[simp] theorem State.count_conv {a n} : (s.count a n).conv = s.conv := by simp [State.count]
@[simp] theorem State.bump_conv {a} : (s.bump a).conv = s.conv := by simp [State.bump]
@[simp] theorem State.irq_meas {a f} : (s.irq a f).meas = s.meas := by simp [State.irq]
@[simp] theorem State.count_meas {a n} : (s.count a n).meas = s.meas := by simp [State.count]
@[simp] theorem State.bump_meas {a} : (s.bump a).meas = s.meas := by simp [State.bump]
@[simp] theorem State.irq_mix {a f} : (s.irq a f).mix = s.mix := by simp [State.irq]
@[simp] theorem State.count_mix {a n} : (s.count a n).mix = s.mix := by simp [State.count]
@[simp] theorem State.bump_mix {a} : (s.bump a).mix = s.mix := by simp [State.bump]
@[simp] theorem State.irq_tdm {a f} : (s.irq a f).tdm = s.tdm := by simp [State.irq]
@[simp] theorem State.count_tdm {a n} : (s.count a n).tdm = s.tdm := by simp [State.count]
@[simp] theorem State.bump_tdm {a} : (s.bump a).tdm = s.tdm := by simp [State.bump]
@[simp] theorem State.irq_strm {a f} : (s.irq a f).strm = s.strm := by simp [State.irq]
@[simp] theorem State.count_strm {a n} : (s.count a n).strm = s.strm := by simp [State.count]
@[simp] theorem State.bump_strm {a} : (s.bump a).strm = s.strm := by simp [State.bump]
@[simp] theorem State.irq_mac {a f} : (s.irq a f).mac = s.mac := by simp [State.irq]
@[simp] theorem State.count_mac {a n} : (s.count a n).mac = s.mac := by simp [State.count]
@[simp] theorem State.bump_mac {a} : (s.bump a).mac = s.mac := by simp [State.bump]
@[simp] theorem State.irq_fx {a f} : (s.irq a f).fx = s.fx := by simp [State.irq]
@[simp] theorem State.count_fx {a n} : (s.count a n).fx = s.fx := by simp [State.count]
@[simp] theorem State.bump_fx {a} : (s.bump a).fx = s.fx := by simp [State.bump]
@[simp] theorem State.irq_pending {a f} : (s.irq a f).pending = s.pending := by simp [State.irq]
@[simp] theorem State.count_pending {a n} : (s.count a n).pending = s.pending := by simp [State.count]
@[simp] theorem State.bump_pending {a} : (s.bump a).pending = s.pending := by simp [State.bump]

/-- The mode is as it was where the mode register is. -/
theorem State.mode_irq (a : Nat) (f : Fld) (h : Reg.SYS_MODE ≠ a) : (s.irq a f).mode = s.mode := by
  simp [State.mode, State.fld, h]

theorem State.mode_count (a n : Nat) (h : Reg.SYS_MODE ≠ a) : (s.count a n).mode = s.mode := by
  simp [State.mode, State.fld, h]

end Sys2Proof.Machine
end

