-- ==== Sys2Proof/Laws/KeepsRegOps.lean ====
section
/-!
SUPPORT. What the operations of RegOps.lean keep (`Keeps`).
-/

set_option linter.unusedSimpArgs false

namespace Sys2Proof.Machine

theorem State.pmcPlus_keeps {q : Bool} {s0 s : State} {x1 x2}
    (h : Keeps q s0 s) : Keeps q s0 (State.pmcPlus s x1 x2) := by
  unfold State.pmcPlus
  repeat' first
    | (extract_lets +onlyGivenNames x; refine (fun (hx : Keeps q s0 x) => ?_) ?_; clear_value x; rotate_left; subst x)
    | (extract_lets +onlyGivenNames x; clear_value x)
    | simp -zeta only [↓Keeps.mk_iff]
    | with_reducible assumption

theorem State.pmcAdd_keeps {q : Bool} {s0 s : State} {x1 x2 x3 x4}
    (h : Keeps q s0 s) : Keeps q s0 (State.pmcAdd s x1 x2 x3 x4) := by
  unfold State.pmcAdd
  repeat' first
    | with_reducible first | refine Keeps.ite ?_ ?_ | apply State.pmcPlus_keeps | refine Keeps.foldl _ ?_ ?_
    | (intro _; try dsimp -zeta -iota -proj only)
    | (extract_lets +onlyGivenNames x; refine (fun (hx : Keeps q s0 x) => ?_) ?_; clear_value x; rotate_left; subst x)
    | (extract_lets +onlyGivenNames x; clear_value x)
    | with_reducible assumption

theorem State.wr_keeps {q : Bool} {s0 s : State} {x1 x2}
    (h : Keeps q s0 s) : Keeps q s0 (State.wr s x1 x2) := by
  unfold State.wr
  repeat' first
    | with_reducible first | apply State.setReg_keeps
    | (extract_lets +onlyGivenNames x; refine (fun (hx : Keeps q s0 x) => ?_) ?_; clear_value x; rotate_left; subst x)
    | (extract_lets +onlyGivenNames x; clear_value x)
    | with_reducible assumption

theorem State.count_keeps {q : Bool} {s0 s : State} {x1 x2}
    (h : Keeps q s0 s) : Keeps q s0 (State.count s x1 x2) := by
  unfold State.count
  repeat' first
    | with_reducible first | apply State.pmcAdd_keeps | apply State.wr_keeps
    | (extract_lets +onlyGivenNames x; refine (fun (hx : Keeps q s0 x) => ?_) ?_; clear_value x; rotate_left; subst x)
    | (extract_lets +onlyGivenNames x; clear_value x)
    | with_reducible assumption

theorem State.bump_keeps {q : Bool} {s0 s : State} {x1}
    (h : Keeps q s0 s) : Keeps q s0 (State.bump s x1) := by
  unfold State.bump
  repeat' first
    | with_reducible first | apply State.count_keeps
    | (extract_lets +onlyGivenNames x; refine (fun (hx : Keeps q s0 x) => ?_) ?_; clear_value x; rotate_left; subst x)
    | (extract_lets +onlyGivenNames x; clear_value x)
    | with_reducible assumption

theorem State.setFld_keeps {q : Bool} {s0 s : State} {x1 x2 x3}
    (h : Keeps q s0 s) : Keeps q s0 (State.setFld s x1 x2 x3) := by
  unfold State.setFld
  repeat' first
    | with_reducible first | apply State.wr_keeps
    | (extract_lets +onlyGivenNames x; refine (fun (hx : Keeps q s0 x) => ?_) ?_; clear_value x; rotate_left; subst x)
    | (extract_lets +onlyGivenNames x; clear_value x)
    | with_reducible assumption

theorem State.irq_keeps {q : Bool} {s0 s : State} {x1 x2}
    (h : Keeps q s0 s) : Keeps q s0 (State.irq s x1 x2) := by
  unfold State.irq
  repeat' first
    | with_reducible first | apply State.pmcAdd_keeps | apply State.setFld_keeps
    | (extract_lets +onlyGivenNames x; refine (fun (hx : Keeps q s0 x) => ?_) ?_; clear_value x; rotate_left; subst x)
    | (extract_lets +onlyGivenNames x; clear_value x)
    | with_reducible assumption

theorem State.setFlag_keeps {q : Bool} {s0 s : State} {x1 x2 x3}
    (h : Keeps q s0 s) : Keeps q s0 (State.setFlag s x1 x2 x3) := by
  unfold State.setFlag
  repeat' first
    | with_reducible first | apply State.setFld_keeps
    | (extract_lets +onlyGivenNames x; refine (fun (hx : Keeps q s0 x) => ?_) ?_; clear_value x; rotate_left; subst x)
    | (extract_lets +onlyGivenNames x; clear_value x)
    | with_reducible assumption

theorem State.takeCounters_keeps {q : Bool} {s0 s : State} {x1}
    (h : Keeps q s0 s) : KFst q s0 (State.takeCounters s x1) := by
  unfold State.takeCounters
  repeat' first
    | with_reducible first | apply State.wr_keeps | refine Keeps.foldl _ ?_ ?_ | refine KFst.foldl _ ?_ ?_ | apply KFst.st
    | (intro _; try dsimp -zeta -iota -proj only)
    | (extract_lets +onlyGivenNames x; refine (fun (hx : Keeps q s0 x) => ?_) ?_; clear_value x; rotate_left; subst x)
    | (extract_lets +onlyGivenNames x; refine (fun (hx : KFst q s0 x) => ?_) ?_; clear_value x; rotate_left; subst x)
    | (extract_lets +onlyGivenNames x; clear_value x)
    | simp -zeta only [↓KFst.pair_iff]
    | with_reducible assumption
    | with_reducible refine KFst.of_eq (by with_reducible assumption) ?_
    | with_reducible apply KFst.st

theorem State.cfgWrite_keeps {q : Bool} {s0 s : State} {x1 x2}
    (h : Keeps q s0 s) : Keeps q s0 (State.cfgWrite s x1 x2) := by
  unfold State.cfgWrite
  repeat' first
    | with_reducible first | apply State.wr_keeps
    | (extract_lets +onlyGivenNames x; refine (fun (hx : Keeps q s0 x) => ?_) ?_; clear_value x; rotate_left; subst x)
    | (extract_lets +onlyGivenNames x; clear_value x)
    | with_reducible assumption

theorem State.readReturns_keeps {q : Bool} {s0 s : State} {x1}
    (h : Keeps q s0 s) : Keeps q s0 (State.readReturns s x1) := by
  unfold State.readReturns
  repeat' first
    | (extract_lets +onlyGivenNames x; refine (fun (hx : Keeps q s0 x) => ?_) ?_; clear_value x; rotate_left; subst x)
    | (extract_lets +onlyGivenNames x; clear_value x)
    | simp -zeta only [↓Keeps.mk_iff]
    | with_reducible assumption

end Sys2Proof.Machine
end

