-- ==== Sys2Proof/Laws/KeepsIdle.lean ====
section
/-!
SUPPORT. What the operations of Idle.lean keep (`Keeps`).
-/

set_option linter.unusedSimpArgs false

namespace Sys2Proof.Machine

theorem State.pmcCycles_keeps {q : Bool} {s0 s : State} {x1}
    (h : Keeps q s0 s) : Keeps q s0 (State.pmcCycles s x1) := by
  unfold State.pmcCycles
  repeat' first
    | with_reducible first | refine Keeps.ite ?_ ?_ | apply State.pmcPlus_keeps | refine Keeps.foldl _ ?_ ?_
    | (intro _; try dsimp -zeta -iota -proj only)
    | (extract_lets +onlyGivenNames x; refine (fun (hx : Keeps q s0 x) => ?_) ?_; clear_value x; rotate_left; subst x)
    | (extract_lets +onlyGivenNames x; clear_value x)
    | with_reducible assumption

theorem State.timers_keeps {q : Bool} {s0 s : State} {x1}
    (h : Keeps q s0 s) : Keeps q s0 (State.timers s x1) := by
  unfold State.timers
  repeat' first
    | with_reducible first | refine Keeps.ite ?_ ?_ | refine Keeps.foldl _ ?_ ?_
    | (intro _; try dsimp -zeta -iota -proj only)
    | (extract_lets +onlyGivenNames x; refine (fun (hx : Keeps q s0 x) => ?_) ?_; clear_value x; rotate_left; subst x)
    | (extract_lets +onlyGivenNames x; clear_value x)
    | simp -zeta only [↓Keeps.mk_iff]
    | with_reducible assumption

theorem State.setDom_keeps {q : Bool} {s0 s : State} {x1 x2}
    (h : Keeps q s0 s) : Keeps q s0 (State.setDom s x1 x2) := by
  unfold State.setDom
  repeat' first
    | with_reducible first | apply State.setFld_keeps
    | (extract_lets +onlyGivenNames x; refine (fun (hx : Keeps q s0 x) => ?_) ?_; clear_value x; rotate_left; subst x)
    | (extract_lets +onlyGivenNames x; clear_value x)
    | with_reducible assumption

end Sys2Proof.Machine
end

