-- ==== Sys2Proof/Laws/KeepsOps.lean ====
section
/-!
SUPPORT. What the operations of Ops.lean keep (`Keeps`).
-/

set_option linter.unusedSimpArgs false

namespace Sys2Proof.Machine

theorem State.atTime_keeps {q : Bool} {s0 s : State} {x1}
    (h : Keeps q s0 s) : Keeps q s0 (State.atTime s x1) := by
  unfold State.atTime
  repeat' first
    | with_reducible first | refine Keeps.ite ?_ ?_ | apply State.pmcCycles_keeps | apply State.timers_keeps
    | (extract_lets +onlyGivenNames x; refine (fun (hx : Keeps q s0 x) => ?_) ?_; clear_value x; rotate_left; subst x)
    | (extract_lets +onlyGivenNames x; clear_value x)
    | simp -zeta only [↓Keeps.mk_iff]
    | with_reducible assumption

theorem State.fresh_keeps {q : Bool} {s0 s : State}
    (h : Keeps q s0 s) : KSnd q s0 (State.fresh s) := by
  unfold State.fresh
  repeat' first
    | with_reducible first | apply KSnd.st
    | (extract_lets +onlyGivenNames x; refine (fun (hx : Keeps q s0 x) => ?_) ?_; clear_value x; rotate_left; subst x)
    | (extract_lets +onlyGivenNames x; refine (fun (hx : KSnd q s0 x) => ?_) ?_; clear_value x; rotate_left; subst x)
    | (extract_lets +onlyGivenNames x; clear_value x)
    | simp -zeta only [↓Keeps.mk_iff, ↓KSnd.pair_iff]
    | with_reducible assumption
    | with_reducible refine KSnd.of_eq (by with_reducible assumption) ?_
    | with_reducible apply KSnd.st

theorem State.logEvent_keeps {q : Bool} {s0 s : State} {x1 x2 x3}
    (h : Keeps q s0 s) : Keeps q s0 (State.logEvent s x1 x2 x3) := by
  unfold State.logEvent
  repeat' first
    | with_reducible first | apply State.irq_keeps
    | (extract_lets +onlyGivenNames x; refine (fun (hx : Keeps q s0 x) => ?_) ?_; clear_value x; rotate_left; subst x)
    | (extract_lets +onlyGivenNames x; clear_value x)
    | simp -zeta only [↓Keeps.mk_iff]
    | with_reducible assumption

theorem State.logEventFree_keeps {q : Bool} {s0 s : State} {x1 x2}
    (h : Keeps q s0 s) : Keeps q s0 (State.logEventFree s x1 x2) := by
  unfold State.logEventFree
  repeat' first
    | with_reducible first | refine Keeps.opt ?_ ?_ | refine KSnd.opt ?_ ?_ | apply State.fresh_keeps | apply State.logEvent_keeps | apply KSnd.st
    | (intro _; try dsimp -zeta -iota -proj only)
    | (extract_lets +onlyGivenNames x; refine (fun (hx : Keeps q s0 x) => ?_) ?_; clear_value x; rotate_left; subst x)
    | (extract_lets +onlyGivenNames x; refine (fun (hx : KSnd q s0 x) => ?_) ?_; clear_value x; rotate_left; subst x)
    | (extract_lets +onlyGivenNames x; clear_value x)
    | simp -zeta only [↓KSnd.pair_iff]
    | with_reducible assumption
    | with_reducible refine KSnd.of_eq (by with_reducible assumption) ?_
    | with_reducible apply KSnd.st
    | split

theorem State.unreserve_keeps {q : Bool} {s0 s : State} {x1}
    (h : Keeps q s0 s) : Keeps q s0 (State.unreserve s x1) := by
  unfold State.unreserve
  repeat' first
    | (extract_lets +onlyGivenNames x; refine (fun (hx : Keeps q s0 x) => ?_) ?_; clear_value x; rotate_left; subst x)
    | (extract_lets +onlyGivenNames x; clear_value x)
    | simp -zeta only [↓Keeps.mk_iff]
    | with_reducible assumption

theorem State.reserveNew_keeps {q : Bool} {s0 s : State} {x1 x2}
    (h : Keeps q s0 s) : Keeps q s0 (State.reserveNew s x1 x2) := by
  unfold State.reserveNew
  repeat' first
    | with_reducible first | refine Keeps.ite ?_ ?_ | refine Keeps.opt ?_ ?_ | refine KSnd.ite ?_ ?_ | refine KSnd.opt ?_ ?_ | apply State.fresh_keeps | apply State.unreserve_keeps | apply KSnd.st
    | (intro _; try dsimp -zeta -iota -proj only)
    | (extract_lets +onlyGivenNames x; refine (fun (hx : Keeps q s0 x) => ?_) ?_; clear_value x; rotate_left; subst x)
    | (extract_lets +onlyGivenNames x; refine (fun (hx : KSnd q s0 x) => ?_) ?_; clear_value x; rotate_left; subst x)
    | (extract_lets +onlyGivenNames x; clear_value x)
    | simp -zeta only [↓Keeps.mk_iff, ↓KSnd.pair_iff]
    | with_reducible assumption
    | with_reducible refine KSnd.of_eq (by with_reducible assumption) ?_
    | with_reducible apply KSnd.st
    | split

theorem State.reserve_keeps {q : Bool} {s0 s : State} {x1 x2}
    (h : Keeps q s0 s) : Keeps q s0 (State.reserve s x1 x2) := by
  unfold State.reserve
  repeat' first
    | with_reducible first | refine Keeps.ite ?_ ?_ | apply State.reserveNew_keeps
    | (extract_lets +onlyGivenNames x; refine (fun (hx : Keeps q s0 x) => ?_) ?_; clear_value x; rotate_left; subst x)
    | (extract_lets +onlyGivenNames x; clear_value x)
    | with_reducible assumption

theorem State.wrBytes_keeps {s0 s : State} {a bs} (h : Keeps false s0 s) : Keeps false s0 (s.wrBytes a bs) := by
  induction bs generalizing s a with
  | nil => exact h
  | cons b bs ih => exact ih (State.wrByte_keeps h)

theorem State.busWrite_keeps {s0 s : State} {a bs} (h : Keeps false s0 s) : Keeps false s0 (s.busWrite a bs) :=
  (State.wrBytes_keeps h).mem_upd rfl id rfl rfl

end Sys2Proof.Machine
end

