-- ==== Sys2Proof/Laws/KeepsResets.lean ====
section
/-!
SUPPORT. What the operations of Resets.lean keep (`Keeps`).
-/

set_option linter.unusedSimpArgs false

namespace Sys2Proof.Machine

theorem State.spnLog_keeps {q : Bool} {s0 s : State} {x1}
    (h : Keeps q s0 s) : Keeps q s0 (State.spnLog s x1) := by
  unfold State.spnLog
  repeat' first
    | with_reducible first | refine Keeps.ite ?_ ?_ | apply State.irq_keeps | apply State.setFlag_keeps
    | (extract_lets +onlyGivenNames x; refine (fun (hx : Keeps q s0 x) => ?_) ?_; clear_value x; rotate_left; subst x)
    | (extract_lets +onlyGivenNames x; clear_value x)
    | simp -zeta only [↓Keeps.mk_iff]
    | with_reducible assumption

theorem State.decErr_keeps {q : Bool} {s0 s : State} {x1}
    (h : Keeps q s0 s) : Keeps q s0 (State.decErr s x1) := by
  unfold State.decErr
  repeat' first
    | with_reducible first | apply State.bump_keeps | apply State.irq_keeps | apply State.spnLog_keeps
    | (extract_lets +onlyGivenNames x; refine (fun (hx : Keeps q s0 x) => ?_) ?_; clear_value x; rotate_left; subst x)
    | (extract_lets +onlyGivenNames x; clear_value x)
    | with_reducible assumption

theorem State.abortTargets_keeps {q : Bool} {s0 s : State} {x1}
    (h : Keeps q s0 s) : Keeps q s0 (State.abortTargets s x1) := by
  unfold State.abortTargets
  repeat' first
    | with_reducible first | refine Keeps.ite ?_ ?_ | apply State.bump_keeps | apply State.decErr_keeps | apply State.irq_keeps | refine Keeps.foldl _ ?_ ?_
    | (intro _; try dsimp -zeta -iota -proj only)
    | (extract_lets +onlyGivenNames x; refine (fun (hx : Keeps q s0 x) => ?_) ?_; clear_value x; rotate_left; subst x)
    | (extract_lets +onlyGivenNames x; clear_value x)
    | simp -zeta only [↓Keeps.mk_iff]
    | with_reducible assumption

theorem State.loseMem_keeps {s0 s : State} {p} (h : Keeps false s0 s) : Keeps false s0 (s.loseMem p) :=
  h.mem_upd rfl (fun e => Memory.wf_filter e _) rfl rfl

theorem State.dmaFail_keeps {q : Bool} {s0 s : State} {x1 x2}
    (h : Keeps q s0 s) : Keeps q s0 (State.dmaFail s x1 x2) := by
  unfold State.dmaFail
  repeat' first
    | with_reducible first | apply State.irq_keeps | apply State.setFlag_keeps | apply State.setFld_keeps
    | (extract_lets +onlyGivenNames x; refine (fun (hx : Keeps q s0 x) => ?_) ?_; clear_value x; rotate_left; subst x)
    | (extract_lets +onlyGivenNames x; clear_value x)
    | simp -zeta only [↓Keeps.mk_iff]
    | with_reducible assumption

theorem State.dropDomain_keeps {q : Bool} {s0 s : State} {x1}
    (h : Keeps q s0 s) : Keeps q s0 (State.dropDomain s x1) := by
  unfold State.dropDomain
  repeat' first
    | with_reducible first | refine Keeps.ite ?_ ?_ | apply State.dmaFail_keeps | refine Keeps.foldl _ ?_ ?_
    | (intro _; try dsimp -zeta -iota -proj only)
    | (extract_lets +onlyGivenNames x; refine (fun (hx : Keeps q s0 x) => ?_) ?_; clear_value x; rotate_left; subst x)
    | (extract_lets +onlyGivenNames x; clear_value x)
    | simp -zeta only [↓Keeps.mk_iff]
    | with_reducible assumption

theorem State.dropReserved_keeps {q : Bool} {s0 s : State} {x1}
    (h : Keeps q s0 s) : Keeps q s0 (State.dropReserved s x1) := by
  unfold State.dropReserved
  repeat' first
    | with_reducible first | refine Keeps.opt ?_ ?_
    | (intro _; try dsimp -zeta -iota -proj only)
    | (extract_lets +onlyGivenNames x; refine (fun (hx : Keeps q s0 x) => ?_) ?_; clear_value x; rotate_left; subst x)
    | (extract_lets +onlyGivenNames x; clear_value x)
    | simp -zeta only [↓Keeps.mk_iff]
    | with_reducible assumption
    | split

theorem State.takeLogic_keeps {q : Bool} {s0 s : State} {x1 x2}
    (h : Keeps q s0 s) : Keeps q s0 (State.takeLogic s x1 x2) := by
  unfold State.takeLogic
  repeat' first
    | with_reducible first | refine Keeps.opt ?_ ?_
    | (intro _; try dsimp -zeta -iota -proj only)
    | (extract_lets +onlyGivenNames x; refine (fun (hx : Keeps q s0 x) => ?_) ?_; clear_value x; rotate_left; subst x)
    | (extract_lets +onlyGivenNames x; clear_value x)
    | simp -zeta only [↓Keeps.mk_iff]
    | with_reducible assumption
    | split

theorem State.resetLogic_keeps {q : Bool} {s0 s : State} {x1}
    (h : Keeps q s0 s) : Keeps q s0 (State.resetLogic s x1) := by
  unfold State.resetLogic
  repeat' first
    | with_reducible first | refine Keeps.ite ?_ ?_ | apply State.dropDomain_keeps | apply State.dropReserved_keeps | apply State.setFlag_keeps | apply State.takeLogic_keeps
    | (extract_lets +onlyGivenNames x; refine (fun (hx : Keeps q s0 x) => ?_) ?_; clear_value x; rotate_left; subst x)
    | (extract_lets +onlyGivenNames x; clear_value x)
    | simp -zeta only [↓Keeps.mk_iff]
    | with_reducible assumption

theorem State.resetRegs_keeps {q : Bool} {s0 s : State} {x1}
    (h : Keeps q s0 s) : Keeps q s0 (State.resetRegs s x1) := by
  unfold State.resetRegs
  repeat' first
    | with_reducible first | refine Keeps.ite ?_ ?_ | apply State.wr_keeps | refine Keeps.foldl _ ?_ ?_
    | (intro _; try dsimp -zeta -iota -proj only)
    | (extract_lets +onlyGivenNames x; refine (fun (hx : Keeps q s0 x) => ?_) ?_; clear_value x; rotate_left; subst x)
    | (extract_lets +onlyGivenNames x; clear_value x)
    | with_reducible assumption

theorem State.masterReset_keeps {q : Bool} {s0 s : State} {x1}
    (h : Keeps q s0 s) : Keeps q s0 (State.masterReset s x1) := by
  unfold State.masterReset
  repeat' first
    | with_reducible first | refine Keeps.ite ?_ ?_ | apply State.count_keeps | apply State.setFlag_keeps
    | (extract_lets +onlyGivenNames x; refine (fun (hx : Keeps q s0 x) => ?_) ?_; clear_value x; rotate_left; subst x)
    | (extract_lets +onlyGivenNames x; clear_value x)
    | with_reducible assumption

theorem State.spineReset_keeps {q : Bool} {s0 s : State} {x1}
    (h : Keeps q s0 s) : Keeps q s0 (State.spineReset s x1) := by
  unfold State.spineReset
  repeat' first
    | with_reducible first | refine Keeps.ite ?_ ?_ | apply State.abortTargets_keeps | apply State.masterReset_keeps | refine Keeps.foldl _ ?_ ?_
    | (intro _; try dsimp -zeta -iota -proj only)
    | (extract_lets +onlyGivenNames x; refine (fun (hx : Keeps q s0 x) => ?_) ?_; clear_value x; rotate_left; subst x)
    | (extract_lets +onlyGivenNames x; clear_value x)
    | with_reducible assumption

theorem State.resetDomain_keeps {s0 s : State} {x1}
    (h : Keeps false s0 s) : Keeps false s0 (State.resetDomain s x1) := by
  unfold State.resetDomain
  repeat' first
    | with_reducible first | apply State.loseMem_keeps | apply State.resetLogic_keeps | apply State.resetRegs_keeps | apply State.spineReset_keeps
    | (extract_lets +onlyGivenNames x; refine (fun (hx : Keeps false s0 x) => ?_) ?_; clear_value x; rotate_left; subst x)
    | (extract_lets +onlyGivenNames x; clear_value x)
    | with_reducible assumption

theorem State.powerOff_keeps {s0 s : State} {x1}
    (h : Keeps false s0 s) : Keeps false s0 (State.powerOff s x1) := by
  unfold State.powerOff
  repeat' first
    | with_reducible first | refine Keeps.ite ?_ ?_ | apply State.loseMem_keeps | apply State.resetDomain_keeps | apply State.setDom_keeps
    | (extract_lets +onlyGivenNames x; refine (fun (hx : Keeps false s0 x) => ?_) ?_; clear_value x; rotate_left; subst x)
    | (extract_lets +onlyGivenNames x; clear_value x)
    | with_reducible assumption

end Sys2Proof.Machine
end

