-- ==== Sys2Proof/Laws/KeepsModes.lean ====
section
/-!
SUPPORT. What the operations of Modes.lean keep (`Keeps`).
-/

set_option linter.unusedSimpArgs false

namespace Sys2Proof.Machine

theorem State.abandonLong_keeps {q : Bool} {s0 s : State}
    (h : Keeps q s0 s) : Keeps q s0 (State.abandonLong s) := by
  unfold State.abandonLong
  repeat' first
    | with_reducible first | refine Keeps.opt ?_ ?_ | apply State.logEventFree_keeps
    | (intro _; try dsimp -zeta -iota -proj only)
    | (extract_lets +onlyGivenNames x; refine (fun (hx : Keeps q s0 x) => ?_) ?_; clear_value x; rotate_left; subst x)
    | (extract_lets +onlyGivenNames x; clear_value x)
    | simp -zeta only [↓Keeps.mk_iff]
    | with_reducible assumption
    | split

theorem State.dropRein_keeps {q : Bool} {s0 s : State}
    (h : Keeps q s0 s) : Keeps q s0 (State.dropRein s) := by
  unfold State.dropRein
  repeat' first
    | with_reducible first | apply State.setFlag_keeps
    | (extract_lets +onlyGivenNames x; refine (fun (hx : Keeps q s0 x) => ?_) ?_; clear_value x; rotate_left; subst x)
    | (extract_lets +onlyGivenNames x; clear_value x)
    | with_reducible assumption

theorem State.noteElig_keeps {q : Bool} {s0 s : State}
    (h : Keeps q s0 s) : Keeps q s0 (State.noteElig s) := by
  unfold State.noteElig
  repeat' first
    | with_reducible first | refine Keeps.ite ?_ ?_
    | (extract_lets +onlyGivenNames x; refine (fun (hx : Keeps q s0 x) => ?_) ?_; clear_value x; rotate_left; subst x)
    | (extract_lets +onlyGivenNames x; clear_value x)
    | simp -zeta only [↓Keeps.mk_iff]
    | with_reducible assumption

theorem State.setPstate_keeps {q : Bool} {s0 s : State} {x1}
    (h : Keeps q s0 s) : Keeps q s0 (State.setPstate s x1) := by
  unfold State.setPstate
  repeat' first
    | with_reducible first | apply State.noteElig_keeps | apply State.setFld_keeps
    | (extract_lets +onlyGivenNames x; refine (fun (hx : Keeps q s0 x) => ?_) ?_; clear_value x; rotate_left; subst x)
    | (extract_lets +onlyGivenNames x; clear_value x)
    | with_reducible assumption

theorem State.doFence_keeps {q : Bool} {s0 s : State} {x1}
    (h : Keeps q s0 s) : Keeps q s0 (State.doFence s x1) := by
  unfold State.doFence
  repeat' first
    | with_reducible first | apply State.bump_keeps | apply State.dropRein_keeps | apply State.irq_keeps | apply State.setFld_keeps | apply State.setPstate_keeps
    | (extract_lets +onlyGivenNames x; refine (fun (hx : Keeps q s0 x) => ?_) ?_; clear_value x; rotate_left; subst x)
    | (extract_lets +onlyGivenNames x; clear_value x)
    | with_reducible assumption

theorem State.selfFence_keeps {q : Bool} {s0 s : State} {x1}
    (h : Keeps q s0 s) : Keeps q s0 (State.selfFence s x1) := by
  unfold State.selfFence
  repeat' first
    | with_reducible first | refine Keeps.ite ?_ ?_ | apply State.bump_keeps | apply State.doFence_keeps | apply State.logEventFree_keeps
    | (extract_lets +onlyGivenNames x; refine (fun (hx : Keeps q s0 x) => ?_) ?_; clear_value x; rotate_left; subst x)
    | (extract_lets +onlyGivenNames x; clear_value x)
    | with_reducible assumption

theorem State.allOff_keeps {s0 s : State}
    (h : Keeps false s0 s) : Keeps false s0 (State.allOff s) := by
  unfold State.allOff
  repeat' first
    | with_reducible first | apply State.powerOff_keeps | refine Keeps.foldl _ ?_ ?_
    | (intro _; try dsimp -zeta -iota -proj only)
    | (extract_lets +onlyGivenNames x; refine (fun (hx : Keeps false s0 x) => ?_) ?_; clear_value x; rotate_left; subst x)
    | (extract_lets +onlyGivenNames x; clear_value x)
    | with_reducible assumption

theorem State.clearTries_keeps {q : Bool} {s0 s : State}
    (h : Keeps q s0 s) : Keeps q s0 (State.clearTries s) := by
  unfold State.clearTries
  repeat' first
    | with_reducible first | refine Keeps.ite ?_ ?_
    | (extract_lets +onlyGivenNames x; refine (fun (hx : Keeps q s0 x) => ?_) ?_; clear_value x; rotate_left; subst x)
    | (extract_lets +onlyGivenNames x; clear_value x)
    | simp -zeta only [↓Keeps.mk_iff]
    | with_reducible assumption

theorem State.setMode_keeps {q : Bool} {s0 s : State} {x1}
    (h : Keeps q s0 s) : Keeps q s0 (State.setMode s x1) := by
  unfold State.setMode
  repeat' first
    | with_reducible first | refine Keeps.ite ?_ ?_ | apply State.clearTries_keeps | apply State.irq_keeps | apply State.noteElig_keeps | apply State.setFlag_keeps | apply State.setFld_keeps
    | (extract_lets +onlyGivenNames x; refine (fun (hx : Keeps q s0 x) => ?_) ?_; clear_value x; rotate_left; subst x)
    | (extract_lets +onlyGivenNames x; clear_value x)
    | simp -zeta only [↓Keeps.mk_iff]
    | with_reducible assumption

theorem State.enterSafe_keeps {s0 s : State} {x1}
    (h : Keeps false s0 s) : Keeps false s0 (State.enterSafe s x1) := by
  unfold State.enterSafe
  repeat' first
    | with_reducible first | refine Keeps.ite ?_ ?_ | apply State.abandonLong_keeps | apply State.allOff_keeps | apply State.logEvent_keeps | apply State.selfFence_keeps | apply State.setFld_keeps | apply State.setMode_keeps
    | (extract_lets +onlyGivenNames x; refine (fun (hx : Keeps false s0 x) => ?_) ?_; clear_value x; rotate_left; subst x)
    | (extract_lets +onlyGivenNames x; clear_value x)
    | with_reducible assumption

theorem State.enterFault_keeps {q : Bool} {s0 s : State}
    (h : Keeps q s0 s) : Keeps q s0 (State.enterFault s) := by
  unfold State.enterFault
  repeat' first
    | with_reducible first | refine Keeps.ite ?_ ?_ | apply State.abandonLong_keeps | apply State.selfFence_keeps | apply State.setMode_keeps
    | (extract_lets +onlyGivenNames x; refine (fun (hx : Keeps q s0 x) => ?_) ?_; clear_value x; rotate_left; subst x)
    | (extract_lets +onlyGivenNames x; clear_value x)
    | with_reducible assumption

end Sys2Proof.Machine
end

