-- ==== Sys2Proof/Laws/KeepsShell.lean ====
section
/-!
SUPPORT. What the operations of Shell.lean keep (`Keeps`).
-/

set_option linter.unusedSimpArgs false

namespace Sys2Proof.Machine

theorem State.buffer_keeps {q : Bool} {s0 s : State} {x1 x2}
    (h : Keeps q s0 s) : Keeps q s0 (State.buffer s x1 x2) := by
  unfold State.buffer
  repeat' first
    | with_reducible first | refine Keeps.ite ?_ ?_ | refine Keeps.opt ?_ ?_ | apply State.bump_keeps
    | (intro _; try dsimp -zeta -iota -proj only)
    | (extract_lets +onlyGivenNames x; refine (fun (hx : Keeps q s0 x) => ?_) ?_; clear_value x; rotate_left; subst x)
    | (extract_lets +onlyGivenNames x; clear_value x)
    | simp -zeta only [↓Keeps.mk_iff]
    | with_reducible assumption
    | split

theorem State.acceptNonce_keeps {q : Bool} {s0 s : State} {x1 x2}
    (h : Keeps q s0 s) : Keeps q s0 (State.acceptNonce s x1 x2) := by
  unfold State.acceptNonce
  repeat' first
    | with_reducible first | refine Keeps.ite ?_ ?_
    | (extract_lets +onlyGivenNames x; refine (fun (hx : Keeps q s0 x) => ?_) ?_; clear_value x; rotate_left; subst x)
    | (extract_lets +onlyGivenNames x; clear_value x)
    | simp -zeta only [↓Keeps.mk_iff]
    | with_reducible assumption

theorem State.tether_keeps {q : Bool} {s0 s : State} {x1 x2}
    (h : Keeps q s0 s) : Keeps q s0 (State.tether s x1 x2) := by
  unfold State.tether
  repeat' first
    | with_reducible first | refine Keeps.ite ?_ ?_
    | (extract_lets +onlyGivenNames x; refine (fun (hx : Keeps q s0 x) => ?_) ?_; clear_value x; rotate_left; subst x)
    | (extract_lets +onlyGivenNames x; clear_value x)
    | simp -zeta only [↓Keeps.mk_iff]
    | with_reducible assumption

theorem State.send_keeps {q : Bool} {s0 s : State} {x1 x2 x3}
    (h : Keeps q s0 s) : Keeps q s0 (State.send s x1 x2 x3) := by
  unfold State.send
  repeat' first
    | with_reducible first | refine Keeps.opt ?_ ?_ | apply State.tether_keeps
    | (intro _; try dsimp -zeta -iota -proj only)
    | (extract_lets +onlyGivenNames x; refine (fun (hx : Keeps q s0 x) => ?_) ?_; clear_value x; rotate_left; subst x)
    | (extract_lets +onlyGivenNames x; clear_value x)
    | simp -zeta only [↓Keeps.mk_iff]
    | with_reducible assumption
    | split

theorem State.emit_keeps {q : Bool} {s0 s : State} {x1 x2 x3}
    (h : Keeps q s0 s) : Keeps q s0 (State.emit s x1 x2 x3) := by
  unfold State.emit
  repeat' first
    | with_reducible first | refine Keeps.ite ?_ ?_ | apply State.send_keeps
    | (extract_lets +onlyGivenNames x; refine (fun (hx : Keeps q s0 x) => ?_) ?_; clear_value x; rotate_left; subst x)
    | (extract_lets +onlyGivenNames x; clear_value x)
    | with_reducible assumption

theorem State.keepReply_keeps {q : Bool} {s0 s : State} {x1 x2 x3}
    (h : Keeps q s0 s) : Keeps q s0 (State.keepReply s x1 x2 x3) := by
  unfold State.keepReply
  repeat' first
    | with_reducible first | refine Keeps.ite ?_ ?_ | refine Keeps.opt ?_ ?_
    | (intro _; try dsimp -zeta -iota -proj only)
    | (extract_lets +onlyGivenNames x; refine (fun (hx : Keeps q s0 x) => ?_) ?_; clear_value x; rotate_left; subst x)
    | (extract_lets +onlyGivenNames x; clear_value x)
    | simp -zeta only [↓Keeps.mk_iff]
    | with_reducible assumption
    | split

theorem State.replyBytes_keeps {q : Bool} {s0 s : State} {x1 x2 x3 x4 x5}
    (h : Keeps q s0 s) : KFst q s0 (State.replyBytes s x1 x2 x3 x4 x5) := by
  unfold State.replyBytes
  repeat' first
    | with_reducible first | refine Keeps.ite ?_ ?_ | refine Keeps.opt ?_ ?_ | refine KFst.ite ?_ ?_ | refine KFst.opt ?_ ?_ | refine KSnd.ite ?_ ?_ | refine KSnd.opt ?_ ?_ | apply State.fresh_keeps | apply KFst.st | apply KSnd.st
    | (intro _; try dsimp -zeta -iota -proj only)
    | (extract_lets +onlyGivenNames x; refine (fun (hx : Keeps q s0 x) => ?_) ?_; clear_value x; rotate_left; subst x)
    | (extract_lets +onlyGivenNames x; refine (fun (hx : KFst q s0 x) => ?_) ?_; clear_value x; rotate_left; subst x)
    | (extract_lets +onlyGivenNames x; refine (fun (hx : KSnd q s0 x) => ?_) ?_; clear_value x; rotate_left; subst x)
    | (extract_lets +onlyGivenNames x; clear_value x)
    | simp -zeta only [↓KFst.pair_iff, ↓KSnd.pair_iff]
    | with_reducible assumption
    | with_reducible refine KFst.of_eq (by with_reducible assumption) ?_
    | with_reducible refine KSnd.of_eq (by with_reducible assumption) ?_
    | with_reducible apply KFst.st
    | with_reducible apply KSnd.st
    | split

theorem State.reply_keeps {q : Bool} {s0 s : State} {x1 x2 x3 x4}
    (h : Keeps q s0 s) : Keeps q s0 (State.reply s x1 x2 x3 x4) := by
  unfold State.reply
  repeat' first
    | with_reducible first | refine Keeps.opt ?_ ?_ | refine KFst.opt ?_ ?_ | apply State.emit_keeps | apply State.keepReply_keeps | apply State.replyBytes_keeps | apply KFst.st
    | (intro _; try dsimp -zeta -iota -proj only)
    | (extract_lets +onlyGivenNames x; refine (fun (hx : Keeps q s0 x) => ?_) ?_; clear_value x; rotate_left; subst x)
    | (extract_lets +onlyGivenNames x; refine (fun (hx : KFst q s0 x) => ?_) ?_; clear_value x; rotate_left; subst x)
    | (extract_lets +onlyGivenNames x; clear_value x)
    | simp -zeta only [↓KFst.pair_iff]
    | with_reducible assumption
    | with_reducible refine KFst.of_eq (by with_reducible assumption) ?_
    | with_reducible apply KFst.st
    | split

theorem State.busyReply_keeps {q : Bool} {s0 s : State} {x1 x2}
    (h : Keeps q s0 s) : Keeps q s0 (State.busyReply s x1 x2) := by
  unfold State.busyReply
  repeat' first
    | with_reducible first | refine Keeps.opt ?_ ?_ | refine KSnd.opt ?_ ?_ | apply State.bump_keeps | apply State.fresh_keeps | apply State.reply_keeps | apply KSnd.st
    | (intro _; try dsimp -zeta -iota -proj only)
    | (extract_lets +onlyGivenNames x; refine (fun (hx : Keeps q s0 x) => ?_) ?_; clear_value x; rotate_left; subst x)
    | (extract_lets +onlyGivenNames x; refine (fun (hx : KSnd q s0 x) => ?_) ?_; clear_value x; rotate_left; subst x)
    | (extract_lets +onlyGivenNames x; clear_value x)
    | simp -zeta only [↓KSnd.pair_iff]
    | with_reducible assumption
    | with_reducible refine KSnd.of_eq (by with_reducible assumption) ?_
    | with_reducible apply KSnd.st
    | split

theorem State.authFailed_keeps {q : Bool} {s0 s : State} {x1}
    (h : Keeps q s0 s) : Keeps q s0 (State.authFailed s x1) := by
  unfold State.authFailed
  repeat' first
    | with_reducible first | refine Keeps.ite ?_ ?_ | apply State.bump_keeps
    | (extract_lets +onlyGivenNames x; refine (fun (hx : Keeps q s0 x) => ?_) ?_; clear_value x; rotate_left; subst x)
    | (extract_lets +onlyGivenNames x; clear_value x)
    | simp -zeta only [↓Keeps.mk_iff]
    | with_reducible assumption

theorem State.replyNoTag_keeps {q : Bool} {s0 s : State} {x1 x2 x3 x4}
    (h : Keeps q s0 s) : Keeps q s0 (State.replyNoTag s x1 x2 x3 x4) := by
  unfold State.replyNoTag
  repeat' first
    | with_reducible first | refine Keeps.opt ?_ ?_ | refine KFst.opt ?_ ?_ | apply State.replyBytes_keeps | apply State.send_keeps | apply KFst.st
    | (intro _; try dsimp -zeta -iota -proj only)
    | (extract_lets +onlyGivenNames x; refine (fun (hx : Keeps q s0 x) => ?_) ?_; clear_value x; rotate_left; subst x)
    | (extract_lets +onlyGivenNames x; refine (fun (hx : KFst q s0 x) => ?_) ?_; clear_value x; rotate_left; subst x)
    | (extract_lets +onlyGivenNames x; clear_value x)
    | simp -zeta only [↓KFst.pair_iff]
    | with_reducible assumption
    | with_reducible refine KFst.of_eq (by with_reducible assumption) ?_
    | with_reducible apply KFst.st
    | split

theorem State.refuseAuth_keeps {q : Bool} {s0 s : State} {x1 x2 x3 x4}
    (h : Keeps q s0 s) : Keeps q s0 (State.refuseAuth s x1 x2 x3 x4) := by
  unfold State.refuseAuth
  repeat' first
    | with_reducible first | refine Keeps.ite ?_ ?_ | refine Keeps.opt ?_ ?_ | refine KFst.ite ?_ ?_ | refine KFst.opt ?_ ?_ | apply State.authFailed_keeps | apply State.irq_keeps | apply State.keepReply_keeps | apply State.replyBytes_keeps | apply State.replyNoTag_keeps | apply State.send_keeps | apply KFst.st
    | (intro _; try dsimp -zeta -iota -proj only)
    | (extract_lets +onlyGivenNames x; refine (fun (hx : Keeps q s0 x) => ?_) ?_; clear_value x; rotate_left; subst x)
    | (extract_lets +onlyGivenNames x; refine (fun (hx : KFst q s0 x) => ?_) ?_; clear_value x; rotate_left; subst x)
    | (extract_lets +onlyGivenNames x; clear_value x)
    | simp -zeta only [↓KFst.pair_iff]
    | with_reducible assumption
    | with_reducible refine KFst.of_eq (by with_reducible assumption) ?_
    | with_reducible apply KFst.st
    | split

theorem State.logToStandby_keeps {q : Bool} {s0 s : State} {x1 x2}
    (h : Keeps q s0 s) : Keeps q s0 (State.logToStandby s x1 x2) := by
  unfold State.logToStandby
  repeat' first
    | with_reducible first | apply State.tether_keeps
    | (extract_lets +onlyGivenNames x; refine (fun (hx : Keeps q s0 x) => ?_) ?_; clear_value x; rotate_left; subst x)
    | (extract_lets +onlyGivenNames x; clear_value x)
    | simp -zeta only [↓Keeps.mk_iff]
    | with_reducible assumption

theorem State.record_keeps {q : Bool} {s0 s : State} {x1 x2 x3}
    (h : Keeps q s0 s) : Keeps q s0 (State.record s x1 x2 x3) := by
  unfold State.record
  repeat' first
    | (extract_lets +onlyGivenNames x; refine (fun (hx : Keeps q s0 x) => ?_) ?_; clear_value x; rotate_left; subst x)
    | (extract_lets +onlyGivenNames x; clear_value x)
    | simp -zeta only [↓Keeps.mk_iff]
    | with_reducible assumption

theorem State.finishOk_keeps {q : Bool} {s0 s : State} {x1 x2 x3}
    (h : Keeps q s0 s) : Keeps q s0 (State.finishOk s x1 x2 x3) := by
  unfold State.finishOk
  repeat' first
    | with_reducible first | refine Keeps.ite ?_ ?_ | apply State.logToStandby_keeps | apply State.record_keeps | apply State.reply_keeps
    | (extract_lets +onlyGivenNames x; refine (fun (hx : Keeps q s0 x) => ?_) ?_; clear_value x; rotate_left; subst x)
    | (extract_lets +onlyGivenNames x; clear_value x)
    | simp -zeta only [↓Keeps.mk_iff]
    | with_reducible assumption

theorem State.runBody_keeps {q : Bool} {s0 s : State} {sp p body} (h : Keeps q s0 s)
    (hb : ∀ t, Keeps q s0 t → KRes q s0 (body t)) : Keeps q s0 (s.runBody sp p body) := by
  unfold State.runBody
  have hr := hb _ (State.bump_keeps (x1 := Reg.CMD_RX) h)
  repeat' first
    | with_reducible first | refine Keeps.ite ?_ ?_ | refine KOut.ite ?_ ?_ | apply KOut.next | apply State.finishOk_keeps | apply State.logToStandby_keeps | apply State.reply_keeps
    | (extract_lets +onlyGivenNames x; refine (fun (hx : Keeps q s0 x) => ?_) ?_; clear_value x; rotate_left; subst x)
    | (extract_lets +onlyGivenNames x; clear_value x)
    | simp -zeta only [↓Keeps.mk_iff]
    | with_reducible assumption
    | exact KRes.of_ok (by with_reducible assumption) hr
    | exact KRes.of_fail (by with_reducible assumption) hr
    | exact KRes.of_long (by with_reducible assumption) hr
    | exact KRes.of_hold (by with_reducible assumption) hr
    | exact KRes.of_done (by with_reducible assumption) hr
    | split

theorem State.settle_keeps {q : Bool} {s0 s : State} {v sp p body} (h : Keeps q s0 s)
    (hb : ∀ t, Keeps q s0 t → KRes q s0 (body t)) : Keeps q s0 (s.settle v sp p body) := by
  unfold State.settle
  repeat' first
    | with_reducible first | refine Keeps.ite ?_ ?_ | refine KOut.ite ?_ ?_ | apply KOut.next | apply State.bump_keeps | apply State.busyReply_keeps | apply State.emit_keeps | apply State.logEventFree_keeps | apply State.refuseAuth_keeps | apply State.reply_keeps | refine State.runBody_keeps ?_ hb | apply State.tether_keeps
    | (extract_lets +onlyGivenNames x; refine (fun (hx : Keeps q s0 x) => ?_) ?_; clear_value x; rotate_left; subst x)
    | (extract_lets +onlyGivenNames x; clear_value x)
    | simp -zeta only [↓Keeps.mk_iff]
    | with_reducible assumption
    | split

theorem State.process_keeps {q : Bool} {s0 s : State} {sp p body} (h : Keeps q s0 s)
    (hb : ∀ t, Keeps q s0 t → KRes q s0 (body t)) : Keeps q s0 (s.process sp p body) :=
  State.settle_keeps (State.acceptNonce_keeps h) hb

theorem runPacket_keeps {q : Bool} {s0 s : State} {sp p body} (h : Keeps q s0 s)
    (hb : ∀ t, Keeps q s0 t → KRes q s0 (body t)) : KOut q s0 (runPacket sp p body s) := by
  unfold runPacket
  repeat' first
    | with_reducible first | refine Keeps.ite ?_ ?_ | refine KOut.ite ?_ ?_ | apply KOut.next | apply State.atTime_keeps | apply State.buffer_keeps | apply State.irq_keeps | refine State.process_keeps ?_ hb
    | (extract_lets +onlyGivenNames x; refine (fun (hx : Keeps q s0 x) => ?_) ?_; clear_value x; rotate_left; subst x)
    | (extract_lets +onlyGivenNames x; clear_value x)
    | simp -zeta only [↓Keeps.mk_iff]
    | with_reducible assumption
    | split

theorem State.finishHeld_keeps {q : Bool} {s0 s : State} {x1 x2 x3}
    (h : Keeps q s0 s) : Keeps q s0 (State.finishHeld s x1 x2 x3) := by
  unfold State.finishHeld
  repeat' first
    | with_reducible first | refine Keeps.ite ?_ ?_ | refine Keeps.opt ?_ ?_ | apply State.record_keeps | apply State.reply_keeps
    | (intro _; try dsimp -zeta -iota -proj only)
    | (extract_lets +onlyGivenNames x; refine (fun (hx : Keeps q s0 x) => ?_) ?_; clear_value x; rotate_left; subst x)
    | (extract_lets +onlyGivenNames x; clear_value x)
    | simp -zeta only [↓Keeps.mk_iff]
    | with_reducible assumption
    | split

theorem State.finishLong_keeps {q : Bool} {s0 s : State} {x1 x2 x3}
    (h : Keeps q s0 s) : Keeps q s0 (State.finishLong s x1 x2 x3) := by
  unfold State.finishLong
  repeat' first
    | with_reducible first | refine Keeps.ite ?_ ?_ | refine Keeps.opt ?_ ?_ | apply State.irq_keeps | apply State.record_keeps | apply State.reply_keeps
    | (intro _; try dsimp -zeta -iota -proj only)
    | (extract_lets +onlyGivenNames x; refine (fun (hx : Keeps q s0 x) => ?_) ?_; clear_value x; rotate_left; subst x)
    | (extract_lets +onlyGivenNames x; clear_value x)
    | simp -zeta only [↓Keeps.mk_iff]
    | with_reducible assumption
    | split

end Sys2Proof.Machine
end

