-- ==== Sys2Proof/Laws/KeepsMemory.lean ====
section
/-!
SUPPORT. What the operations of Memory.lean keep (`Keeps`).
-/

set_option linter.unusedSimpArgs false

namespace Sys2Proof.Machine

theorem State.memLog_keeps {q : Bool} {s0 s : State} {x1 x2 x3 x4}
    (h : Keeps q s0 s) : Keeps q s0 (State.memLog s x1 x2 x3 x4) := by
  unfold State.memLog
  repeat' first
    | with_reducible first | refine Keeps.ite ?_ ?_ | apply State.irq_keeps | apply State.setFlag_keeps
    | (extract_lets +onlyGivenNames x; refine (fun (hx : Keeps q s0 x) => ?_) ?_; clear_value x; rotate_left; subst x)
    | (extract_lets +onlyGivenNames x; clear_value x)
    | simp -zeta only [↓Keeps.mk_iff]
    | with_reducible assumption

theorem State.repairRow_keeps {q : Bool} {s0 s : State} {x1 x2 x3}
    (h : Keeps q s0 s) : Keeps q s0 (State.repairRow s x1 x2 x3) := by
  unfold State.repairRow
  repeat' first
    | with_reducible first | refine Keeps.ite ?_ ?_ | apply State.bump_keeps | apply State.irq_keeps | apply State.logEventFree_keeps | apply State.memLog_keeps
    | (extract_lets +onlyGivenNames x; refine (fun (hx : Keeps q s0 x) => ?_) ?_; clear_value x; rotate_left; subst x)
    | (extract_lets +onlyGivenNames x; clear_value x)
    | simp -zeta only [↓Keeps.mk_iff]
    | with_reducible assumption

theorem execRowRepair_keeps {q : Bool} {s0 s : State} {x0 x1 x2}
    (h : Keeps q s0 s) : KOut q s0 (execRowRepair x0 x1 x2 s) := by
  unfold execRowRepair
  repeat' first
    | with_reducible first | refine Keeps.ite ?_ ?_ | refine Keeps.opt ?_ ?_ | refine KOut.ite ?_ ?_ | refine KOut.opt ?_ ?_ | apply KOut.next | apply KOut.fault | apply KOut.refused | apply State.atTime_keeps | apply State.repairRow_keeps
    | (intro _; try dsimp -zeta -iota -proj only)
    | (extract_lets +onlyGivenNames x; refine (fun (hx : Keeps q s0 x) => ?_) ?_; clear_value x; rotate_left; subst x)
    | (extract_lets +onlyGivenNames x; clear_value x)
    | with_reducible assumption
    | split

theorem State.poisonGranule_keeps {s0 s : State} {a} (h : Keeps false s0 s) : Keeps false s0 (s.poisonGranule a) := by
  have hw := State.wrBytes_keeps (a := a / 8 * 8) (bs := List.replicate 8 0#8) h
  unfold State.poisonGranule
  dsimp only
  exact Keeps.ite hw (hw.mem_upd rfl id rfl rfl)

theorem cmdMemCfgSet_keeps {q : Bool} {s0 s : State} {x0}
    (h : Keeps q s0 s) : KRes q s0 (cmdMemCfgSet x0 s) := by
  unfold cmdMemCfgSet
  repeat' first
    | with_reducible first | refine Keeps.ite ?_ ?_ | refine KRes.ite ?_ ?_ | apply KRes.ok | apply KRes.fail | apply KRes.long | apply KRes.hold | apply KRes.done | apply State.cfgWrite_keeps
    | (extract_lets +onlyGivenNames x; refine (fun (hx : Keeps q s0 x) => ?_) ?_; clear_value x; rotate_left; subst x)
    | (extract_lets +onlyGivenNames x; clear_value x)
    | with_reducible assumption

theorem State.memPop_keeps {q : Bool} {s0 s : State}
    (h : Keeps q s0 s) : KFst q s0 (State.memPop s) := by
  unfold State.memPop
  repeat' first
    | with_reducible first | refine Keeps.opt ?_ ?_ | refine KFst.opt ?_ ?_ | apply State.wr_keeps | apply KFst.st
    | (intro _; try dsimp -zeta -iota -proj only)
    | (extract_lets +onlyGivenNames x; refine (fun (hx : Keeps q s0 x) => ?_) ?_; clear_value x; rotate_left; subst x)
    | (extract_lets +onlyGivenNames x; refine (fun (hx : KFst q s0 x) => ?_) ?_; clear_value x; rotate_left; subst x)
    | (extract_lets +onlyGivenNames x; clear_value x)
    | simp -zeta only [↓Keeps.mk_iff, ↓KFst.pair_iff]
    | with_reducible assumption
    | with_reducible refine KFst.of_eq (by with_reducible assumption) ?_
    | with_reducible apply KFst.st
    | split

theorem State.memPops_keeps {q : Bool} {s0 s : State} {x0}
    (h : Keeps q s0 s) : KFst q s0 (State.memPops x0 s) := by
  induction x0 generalizing s with
  | zero =>
    unfold State.memPops
    repeat' first
      | with_reducible first | refine Keeps.ite ?_ ?_ | refine Keeps.opt ?_ ?_ | refine KFst.ite ?_ ?_ | refine KFst.opt ?_ ?_ | apply State.memPop_keeps | apply KFst.st
      | (intro _; try dsimp -zeta -iota -proj only)
      | (extract_lets +onlyGivenNames x; refine (fun (hx : Keeps q s0 x) => ?_) ?_; clear_value x; rotate_left; subst x)
      | (extract_lets +onlyGivenNames x; refine (fun (hx : KFst q s0 x) => ?_) ?_; clear_value x; rotate_left; subst x)
      | (extract_lets +onlyGivenNames x; clear_value x)
      | simp -zeta only [↓KFst.pair_iff]
      | with_reducible assumption
      | with_reducible refine KFst.of_eq (by with_reducible assumption) ?_
      | with_reducible apply KFst.st
      | split
  | succ n ih =>
    unfold State.memPops
    repeat' first
      | with_reducible first | refine Keeps.ite ?_ ?_ | refine Keeps.opt ?_ ?_ | refine KFst.ite ?_ ?_ | refine KFst.opt ?_ ?_ | apply State.memPop_keeps | apply ih | apply KFst.st
      | (intro _; try dsimp -zeta -iota -proj only)
      | (extract_lets +onlyGivenNames x; refine (fun (hx : Keeps q s0 x) => ?_) ?_; clear_value x; rotate_left; subst x)
      | (extract_lets +onlyGivenNames x; refine (fun (hx : KFst q s0 x) => ?_) ?_; clear_value x; rotate_left; subst x)
      | (extract_lets +onlyGivenNames x; clear_value x)
      | simp -zeta only [↓KFst.pair_iff]
      | with_reducible assumption
      | with_reducible refine KFst.of_eq (by with_reducible assumption) ?_
      | with_reducible apply KFst.st
      | split

theorem cmdMemErrRead_keeps {q : Bool} {s0 s : State} {x0}
    (h : Keeps q s0 s) : KRes q s0 (cmdMemErrRead x0 s) := by
  unfold cmdMemErrRead
  repeat' first
    | with_reducible first | refine Keeps.ite ?_ ?_ | refine Keeps.opt ?_ ?_ | refine KRes.ite ?_ ?_ | refine KRes.opt ?_ ?_ | refine KFst.ite ?_ ?_ | refine KFst.opt ?_ ?_ | apply KRes.ok | apply KRes.fail | apply KRes.long | apply KRes.hold | apply KRes.done | apply State.memPops_keeps | apply KFst.st
    | (intro _; try dsimp -zeta -iota -proj only)
    | (extract_lets +onlyGivenNames x; refine (fun (hx : Keeps q s0 x) => ?_) ?_; clear_value x; rotate_left; subst x)
    | (extract_lets +onlyGivenNames x; refine (fun (hx : KFst q s0 x) => ?_) ?_; clear_value x; rotate_left; subst x)
    | (extract_lets +onlyGivenNames x; clear_value x)
    | simp -zeta only [↓KFst.pair_iff]
    | with_reducible assumption
    | with_reducible refine KFst.of_eq (by with_reducible assumption) ?_
    | with_reducible apply KFst.st
    | split

theorem cmdMemQuery_keeps {q : Bool} {s0 s : State} {x0}
    (h : Keeps q s0 s) : KRes q s0 (cmdMemQuery x0 s) := by
  unfold cmdMemQuery
  repeat' first
    | with_reducible first | refine Keeps.ite ?_ ?_ | refine KRes.ite ?_ ?_ | apply KRes.ok | apply KRes.fail | apply KRes.long | apply KRes.hold | apply KRes.done
    | (extract_lets +onlyGivenNames x; refine (fun (hx : Keeps q s0 x) => ?_) ?_; clear_value x; rotate_left; subst x)
    | (extract_lets +onlyGivenNames x; clear_value x)
    | with_reducible assumption

theorem cmdMemRepair_keeps {q : Bool} {s0 s : State} {x0}
    (h : Keeps q s0 s) : KRes q s0 (cmdMemRepair x0 s) := by
  unfold cmdMemRepair
  repeat' first
    | with_reducible first | refine Keeps.ite ?_ ?_ | refine KRes.ite ?_ ?_ | apply KRes.ok | apply KRes.fail | apply KRes.long | apply KRes.hold | apply KRes.done
    | (extract_lets +onlyGivenNames x; refine (fun (hx : Keeps q s0 x) => ?_) ?_; clear_value x; rotate_left; subst x)
    | (extract_lets +onlyGivenNames x; clear_value x)
    | with_reducible assumption

theorem cmdMemStats_keeps {q : Bool} {s0 s : State} {x0}
    (h : Keeps q s0 s) : KRes q s0 (cmdMemStats x0 s) := by
  unfold cmdMemStats
  repeat' first
    | with_reducible first | refine Keeps.opt ?_ ?_ | refine KRes.opt ?_ ?_ | refine KFst.opt ?_ ?_ | apply KRes.ok | apply KRes.fail | apply KRes.long | apply KRes.hold | apply KRes.done | apply State.takeCounters_keeps | apply KFst.st
    | (intro _; try dsimp -zeta -iota -proj only)
    | (extract_lets +onlyGivenNames x; refine (fun (hx : Keeps q s0 x) => ?_) ?_; clear_value x; rotate_left; subst x)
    | (extract_lets +onlyGivenNames x; refine (fun (hx : KFst q s0 x) => ?_) ?_; clear_value x; rotate_left; subst x)
    | (extract_lets +onlyGivenNames x; clear_value x)
    | simp -zeta only [↓KFst.pair_iff]
    | with_reducible assumption
    | with_reducible refine KFst.of_eq (by with_reducible assumption) ?_
    | with_reducible apply KFst.st
    | split

theorem cmdMemtest_keeps {q : Bool} {s0 s : State} {x0}
    (h : Keeps q s0 s) : KRes q s0 (cmdMemtest x0 s) := by
  unfold cmdMemtest
  repeat' first
    | with_reducible first | apply KRes.ok | apply KRes.fail | apply KRes.long | apply KRes.hold | apply KRes.done
    | (extract_lets +onlyGivenNames x; refine (fun (hx : Keeps q s0 x) => ?_) ?_; clear_value x; rotate_left; subst x)
    | (extract_lets +onlyGivenNames x; clear_value x)
    | with_reducible assumption

theorem execMemtest_keeps {q : Bool} {s0 s : State} {x0}
    (h : Keeps q s0 s) : KOut q s0 (execMemtest x0 s) :=
  runPacket_keeps h (fun _ => cmdMemtest_keeps)

theorem finMemRepair_keeps {q : Bool} {s0 s : State} {x1}
    (h : Keeps q s0 s) : KFst q s0 (finMemRepair s x1) := by
  unfold finMemRepair
  repeat' first
    | with_reducible first | refine Keeps.opt ?_ ?_ | refine KFst.opt ?_ ?_ | apply State.repairRow_keeps | refine Keeps.foldl _ ?_ ?_ | refine KFst.foldl _ ?_ ?_ | apply KFst.st
    | (intro _; try dsimp -zeta -iota -proj only)
    | (extract_lets +onlyGivenNames x; refine (fun (hx : Keeps q s0 x) => ?_) ?_; clear_value x; rotate_left; subst x)
    | (extract_lets +onlyGivenNames x; refine (fun (hx : KFst q s0 x) => ?_) ?_; clear_value x; rotate_left; subst x)
    | (extract_lets +onlyGivenNames x; clear_value x)
    | simp -zeta only [↓KFst.pair_iff]
    | with_reducible assumption
    | with_reducible refine KFst.of_eq (by with_reducible assumption) ?_
    | with_reducible apply KFst.st
    | split

theorem State.memListRow_keeps {q : Bool} {s0 s : State} {x1 x2 x3}
    (h : Keeps q s0 s) : Keeps q s0 (State.memListRow s x1 x2 x3) := by
  unfold State.memListRow
  repeat' first
    | with_reducible first | refine Keeps.ite ?_ ?_ | apply State.memLog_keeps
    | (extract_lets +onlyGivenNames x; refine (fun (hx : Keeps q s0 x) => ?_) ?_; clear_value x; rotate_left; subst x)
    | (extract_lets +onlyGivenNames x; clear_value x)
    | simp -zeta only [↓Keeps.mk_iff]
    | with_reducible assumption

theorem State.groomFaults_keeps {q : Bool} {s0 s : State} {x1 x2}
    (h : Keeps q s0 s) : Keeps q s0 (State.groomFaults s x1 x2) := by
  unfold State.groomFaults
  repeat' first
    | with_reducible first | refine Keeps.opt ?_ ?_ | apply State.bump_keeps | apply State.irq_keeps | apply State.memListRow_keeps | apply State.memLog_keeps | refine Keeps.foldl _ ?_ ?_
    | (intro _; try dsimp -zeta -iota -proj only)
    | (extract_lets +onlyGivenNames x; refine (fun (hx : Keeps q s0 x) => ?_) ?_; clear_value x; rotate_left; subst x)
    | (extract_lets +onlyGivenNames x; clear_value x)
    | with_reducible assumption
    | split

theorem finMemtest_keeps {q : Bool} {s0 s : State} {x1}
    (h : Keeps q s0 s) : KFst q s0 (finMemtest s x1) := by
  unfold finMemtest
  repeat' first
    | with_reducible first | refine Keeps.ite ?_ ?_ | refine KFst.ite ?_ ?_ | apply State.count_keeps | apply State.groomFaults_keeps | apply State.setFld_keeps | refine Keeps.foldl _ ?_ ?_ | refine KFst.foldl _ ?_ ?_ | apply KFst.st
    | (intro _; try dsimp -zeta -iota -proj only)
    | (extract_lets +onlyGivenNames x; refine (fun (hx : Keeps q s0 x) => ?_) ?_; clear_value x; rotate_left; subst x)
    | (extract_lets +onlyGivenNames x; refine (fun (hx : KFst q s0 x) => ?_) ?_; clear_value x; rotate_left; subst x)
    | (extract_lets +onlyGivenNames x; clear_value x)
    | simp -zeta only [↓KFst.pair_iff]
    | with_reducible assumption
    | with_reducible refine KFst.of_eq (by with_reducible assumption) ?_
    | with_reducible apply KFst.st

theorem State.nextRegion_keeps {q : Bool} {s0 s : State}
    (h : Keeps q s0 s) : Keeps q s0 (State.nextRegion s) := by
  unfold State.nextRegion
  repeat' first
    | with_reducible first | refine Keeps.ite ?_ ?_ | apply State.setFld_keeps
    | (extract_lets +onlyGivenNames x; refine (fun (hx : Keeps q s0 x) => ?_) ?_; clear_value x; rotate_left; subst x)
    | (extract_lets +onlyGivenNames x; clear_value x)
    | simp -zeta only [↓Keeps.mk_iff]
    | with_reducible assumption

theorem State.memBankSel_keeps {q : Bool} {s0 s : State} {x1}
    (h : Keeps q s0 s) : Keeps q s0 (State.memBankSel s x1) := by
  unfold State.memBankSel
  repeat' first
    | with_reducible first | apply State.wr_keeps
    | (extract_lets +onlyGivenNames x; refine (fun (hx : Keeps q s0 x) => ?_) ?_; clear_value x; rotate_left; subst x)
    | (extract_lets +onlyGivenNames x; clear_value x)
    | with_reducible assumption

theorem State.memCorrected_keeps {q : Bool} {s0 s : State}
    (h : Keeps q s0 s) : Keeps q s0 (State.memCorrected s) := by
  unfold State.memCorrected
  repeat' first
    | with_reducible first | apply State.bump_keeps | apply State.irq_keeps
    | (extract_lets +onlyGivenNames x; refine (fun (hx : Keeps q s0 x) => ?_) ?_; clear_value x; rotate_left; subst x)
    | (extract_lets +onlyGivenNames x; clear_value x)
    | with_reducible assumption

theorem State.memLasting_keeps {s0 s : State} {x1}
    (h : Keeps false s0 s) : Keeps false s0 (State.memLasting s x1) := by
  unfold State.memLasting
  repeat' first
    | with_reducible first | refine Keeps.ite ?_ ?_ | refine Keeps.opt ?_ ?_ | apply State.bump_keeps | apply State.irq_keeps | apply State.memListRow_keeps | apply State.memLog_keeps | apply State.poisonGranule_keeps | apply State.selfFence_keeps
    | (intro _; try dsimp -zeta -iota -proj only)
    | (extract_lets +onlyGivenNames x; refine (fun (hx : Keeps false s0 x) => ?_) ?_; clear_value x; rotate_left; subst x)
    | (extract_lets +onlyGivenNames x; clear_value x)
    | simp -zeta only [↓Keeps.mk_iff]
    | with_reducible assumption
    | split

theorem State.memTransient_keeps {q : Bool} {s0 s : State} {x1}
    (h : Keeps q s0 s) : Keeps q s0 (State.memTransient s x1) := by
  unfold State.memTransient
  repeat' first
    | with_reducible first | refine Keeps.opt ?_ ?_ | apply State.bump_keeps | apply State.irq_keeps | apply State.memLog_keeps
    | (intro _; try dsimp -zeta -iota -proj only)
    | (extract_lets +onlyGivenNames x; refine (fun (hx : Keeps q s0 x) => ?_) ?_; clear_value x; rotate_left; subst x)
    | (extract_lets +onlyGivenNames x; clear_value x)
    | with_reducible assumption
    | split

theorem State.groomSave_keeps {s0 s : State} {x1 x2}
    (h : Keeps false s0 s) : Keeps false s0 (State.groomSave s x1 x2) := by
  unfold State.groomSave
  repeat' first
    | with_reducible first | refine Keeps.opt ?_ ?_ | apply State.memCorrected_keeps | apply State.memLasting_keeps | apply State.memTransient_keeps | refine Keeps.foldl _ ?_ ?_
    | (intro _; try dsimp -zeta -iota -proj only)
    | (extract_lets +onlyGivenNames x; refine (fun (hx : Keeps false s0 x) => ?_) ?_; clear_value x; rotate_left; subst x)
    | (extract_lets +onlyGivenNames x; clear_value x)
    | with_reducible assumption
    | split

theorem State.groomStep_keeps {s0 s : State} {x1 x2}
    (h : Keeps false s0 s) : Keeps false s0 (State.groomStep s x1 x2) := by
  unfold State.groomStep
  repeat' first
    | with_reducible first | refine Keeps.ite ?_ ?_ | refine Keeps.opt ?_ ?_ | apply State.bump_keeps | apply State.groomFaults_keeps | apply State.groomSave_keeps | apply State.nextRegion_keeps
    | (intro _; try dsimp -zeta -iota -proj only)
    | (extract_lets +onlyGivenNames x; refine (fun (hx : Keeps false s0 x) => ?_) ?_; clear_value x; rotate_left; subst x)
    | (extract_lets +onlyGivenNames x; clear_value x)
    | with_reducible assumption
    | split

theorem execMemErrlogPop_keeps {q : Bool} {s0 s : State} {x0}
    (h : Keeps q s0 s) : KOut q s0 (execMemErrlogPop x0 s) := by
  unfold execMemErrlogPop
  repeat' first
    | with_reducible first | apply KOut.next | apply KOut.fault | apply KOut.refused | apply State.atTime_keeps | apply State.memPop_keeps | apply State.readReturns_keeps | apply KFst.st
    | (extract_lets +onlyGivenNames x; refine (fun (hx : Keeps q s0 x) => ?_) ?_; clear_value x; rotate_left; subst x)
    | (extract_lets +onlyGivenNames x; refine (fun (hx : KFst q s0 x) => ?_) ?_; clear_value x; rotate_left; subst x)
    | (extract_lets +onlyGivenNames x; clear_value x)
    | simp -zeta only [↓KFst.pair_iff]
    | with_reducible assumption
    | with_reducible refine KFst.of_eq (by with_reducible assumption) ?_
    | with_reducible apply KFst.st

theorem State.reapplyRepairs_keeps {q : Bool} {s0 s : State}
    (h : Keeps q s0 s) : Keeps q s0 (State.reapplyRepairs s) := by
  unfold State.reapplyRepairs
  repeat' first
    | with_reducible first | refine Keeps.ite ?_ ?_ | apply State.memLog_keeps | refine Keeps.foldl _ ?_ ?_
    | (intro _; try dsimp -zeta -iota -proj only)
    | (extract_lets +onlyGivenNames x; refine (fun (hx : Keeps q s0 x) => ?_) ?_; clear_value x; rotate_left; subst x)
    | (extract_lets +onlyGivenNames x; clear_value x)
    | simp -zeta only [↓Keeps.mk_iff]
    | with_reducible assumption

theorem execMemCfgSet_keeps {q : Bool} {s0 s : State} {x0}
    (h : Keeps q s0 s) : KOut q s0 (execMemCfgSet x0 s) :=
  runPacket_keeps h (fun _ => cmdMemCfgSet_keeps)

theorem execMemQuery_keeps {q : Bool} {s0 s : State} {x0}
    (h : Keeps q s0 s) : KOut q s0 (execMemQuery x0 s) :=
  runPacket_keeps h (fun _ => cmdMemQuery_keeps)

theorem execMemBankSel_keeps {q : Bool} {s0 s : State} {x0 x1}
    (h : Keeps q s0 s) : KOut q s0 (execMemBankSel x0 x1 s) := by
  unfold execMemBankSel
  repeat' first
    | with_reducible first | apply KOut.next | apply KOut.fault | apply KOut.refused | apply State.atTime_keeps | apply State.memBankSel_keeps
    | (extract_lets +onlyGivenNames x; refine (fun (hx : Keeps q s0 x) => ?_) ?_; clear_value x; rotate_left; subst x)
    | (extract_lets +onlyGivenNames x; clear_value x)
    | with_reducible assumption

theorem execGroomerRetry_keeps {s0 s : State} {x0 x1 x2}
    (h : Keeps false s0 s) : KOut false s0 (execGroomerRetry x0 x1 x2 s) := by
  unfold execGroomerRetry
  repeat' first
    | with_reducible first | refine Keeps.ite ?_ ?_ | refine Keeps.opt ?_ ?_ | refine KOut.ite ?_ ?_ | refine KOut.opt ?_ ?_ | apply KOut.next | apply KOut.fault | apply KOut.refused | apply State.atTime_keeps | apply State.groomStep_keeps
    | (intro _; try dsimp -zeta -iota -proj only)
    | (extract_lets +onlyGivenNames x; refine (fun (hx : Keeps false s0 x) => ?_) ?_; clear_value x; rotate_left; subst x)
    | (extract_lets +onlyGivenNames x; clear_value x)
    | with_reducible assumption
    | split

theorem execMemRepairListed_keeps {q : Bool} {s0 s : State} {x0}
    (h : Keeps q s0 s) : KOut q s0 (execMemRepairListed x0 s) :=
  runPacket_keeps h (fun _ => cmdMemRepair_keeps)

theorem execMemRepairRow_keeps {q : Bool} {s0 s : State} {x0}
    (h : Keeps q s0 s) : KOut q s0 (execMemRepairRow x0 s) :=
  runPacket_keeps h (fun _ => cmdMemRepair_keeps)

theorem execGroomerAbort_keeps {q : Bool} {s0 s : State} {x0}
    (h : Keeps q s0 s) : KOut q s0 (execGroomerAbort x0 s) := by
  unfold execGroomerAbort
  repeat' first
    | with_reducible first | refine Keeps.ite ?_ ?_ | refine KOut.ite ?_ ?_ | apply KOut.next | apply KOut.fault | apply KOut.refused | apply State.atTime_keeps | apply State.bump_keeps | apply State.nextRegion_keeps
    | (extract_lets +onlyGivenNames x; refine (fun (hx : Keeps q s0 x) => ?_) ?_; clear_value x; rotate_left; subst x)
    | (extract_lets +onlyGivenNames x; clear_value x)
    | simp -zeta only [↓Keeps.mk_iff]
    | with_reducible assumption

theorem execMemStats_keeps {q : Bool} {s0 s : State} {x0}
    (h : Keeps q s0 s) : KOut q s0 (execMemStats x0 s) :=
  runPacket_keeps h (fun _ => cmdMemStats_keeps)

theorem execMemErrRead_keeps {q : Bool} {s0 s : State} {x0}
    (h : Keeps q s0 s) : KOut q s0 (execMemErrRead x0 s) :=
  runPacket_keeps h (fun _ => cmdMemErrRead_keeps)

theorem execGroomerStep_keeps {s0 s : State} {x0 x1 x2}
    (h : Keeps false s0 s) : KOut false s0 (execGroomerStep x0 x1 x2 s) := by
  unfold execGroomerStep
  repeat' first
    | with_reducible first | refine Keeps.ite ?_ ?_ | refine KOut.ite ?_ ?_ | apply KOut.next | apply KOut.fault | apply KOut.refused | apply State.atTime_keeps | apply State.groomStep_keeps
    | (extract_lets +onlyGivenNames x; refine (fun (hx : Keeps false s0 x) => ?_) ?_; clear_value x; rotate_left; subst x)
    | (extract_lets +onlyGivenNames x; clear_value x)
    | with_reducible assumption

end Sys2Proof.Machine
end

