-- ==== Sys2Proof/Laws/KeepsDram.lean ====
section
/-!
SUPPORT. What the operations of Dram.lean keep (`Keeps`).
-/

set_option linter.unusedSimpArgs false

namespace Sys2Proof.Machine

theorem State.dmcLog_keeps {q : Bool} {s0 s : State} {x1 x2 x3 x4 x5 x6}
    (h : Keeps q s0 s) : Keeps q s0 (State.dmcLog s x1 x2 x3 x4 x5 x6) := by
  unfold State.dmcLog
  repeat' first
    | with_reducible first | refine Keeps.ite ?_ ?_ | apply State.irq_keeps | apply State.setFlag_keeps
    | (extract_lets +onlyGivenNames x; refine (fun (hx : Keeps q s0 x) => ?_) ?_; clear_value x; rotate_left; subst x)
    | (extract_lets +onlyGivenNames x; clear_value x)
    | simp -zeta only [↓Keeps.mk_iff]
    | with_reducible assumption

theorem State.dmcListRow_keeps {q : Bool} {s0 s : State} {x1 x2 x3}
    (h : Keeps q s0 s) : Keeps q s0 (State.dmcListRow s x1 x2 x3) := by
  unfold State.dmcListRow
  repeat' first
    | with_reducible first | refine Keeps.ite ?_ ?_ | apply State.dmcLog_keeps
    | (extract_lets +onlyGivenNames x; refine (fun (hx : Keeps q s0 x) => ?_) ?_; clear_value x; rotate_left; subst x)
    | (extract_lets +onlyGivenNames x; clear_value x)
    | simp -zeta only [↓Keeps.mk_iff]
    | with_reducible assumption

theorem State.dramFail_keeps {s0 s : State} {x1}
    (h : Keeps false s0 s) : Keeps false s0 (State.dramFail s x1) := by
  unfold State.dramFail
  repeat' first
    | with_reducible first | apply State.enterSafe_keeps | apply State.setFld_keeps
    | (extract_lets +onlyGivenNames x; refine (fun (hx : Keeps false s0 x) => ?_) ?_; clear_value x; rotate_left; subst x)
    | (extract_lets +onlyGivenNames x; clear_value x)
    | with_reducible assumption

theorem State.dmcLasting_keeps {s0 s : State} {x1}
    (h : Keeps false s0 s) : Keeps false s0 (State.dmcLasting s x1) := by
  unfold State.dmcLasting
  repeat' first
    | with_reducible first | refine Keeps.ite ?_ ?_ | apply State.bump_keeps | apply State.dmcListRow_keeps | apply State.dmcLog_keeps | apply State.dramFail_keeps | apply State.irq_keeps | apply State.poisonGranule_keeps
    | (extract_lets +onlyGivenNames x; refine (fun (hx : Keeps false s0 x) => ?_) ?_; clear_value x; rotate_left; subst x)
    | (extract_lets +onlyGivenNames x; clear_value x)
    | simp -zeta only [↓Keeps.mk_iff]
    | with_reducible assumption

theorem cmdDmcCfgSet_keeps {q : Bool} {s0 s : State} {x0}
    (h : Keeps q s0 s) : KRes q s0 (cmdDmcCfgSet x0 s) := by
  unfold cmdDmcCfgSet
  repeat' first
    | with_reducible first | refine Keeps.ite ?_ ?_ | refine KRes.ite ?_ ?_ | apply KRes.ok | apply KRes.fail | apply KRes.long | apply KRes.hold | apply KRes.done | apply State.setFld_keeps | apply State.wr_keeps
    | (extract_lets +onlyGivenNames x; refine (fun (hx : Keeps q s0 x) => ?_) ?_; clear_value x; rotate_left; subst x)
    | (extract_lets +onlyGivenNames x; clear_value x)
    | with_reducible assumption

theorem State.dmcPop_keeps {q : Bool} {s0 s : State}
    (h : Keeps q s0 s) : KFst q s0 (State.dmcPop s) := by
  unfold State.dmcPop
  repeat' first
    | with_reducible first | refine Keeps.opt ?_ ?_ | refine KFst.opt ?_ ?_ | apply State.wr_keeps | apply KFst.st
    | (intro _; try dsimp -zeta -iota -proj only)
    | (extract_lets +onlyGivenNames x; refine (fun (hx : Keeps q s0 x) => ?_) ?_; clear_value x; rotate_left; subst x)
    | (extract_lets +onlyGivenNames x; refine (fun (hx : KFst q s0 x) => ?_) ?_; clear_value x; rotate_left; subst x)
    | (extract_lets +onlyGivenNames x; clear_value x)
    | simp -zeta only [↓Keeps.mk_iff, ↓KFst.pair_iff]
    | with_reducible assumption
    | with_reducible refine KFst.of_eq (by with_reducible assumption) ?_
    | with_reducible apply KFst.st
    | split

theorem State.dmcPops_keeps {q : Bool} {s0 s : State} {x0}
    (h : Keeps q s0 s) : KFst q s0 (State.dmcPops x0 s) := by
  induction x0 generalizing s with
  | zero =>
    unfold State.dmcPops
    repeat' first
      | with_reducible first | refine Keeps.ite ?_ ?_ | refine Keeps.opt ?_ ?_ | refine KFst.ite ?_ ?_ | refine KFst.opt ?_ ?_ | apply State.dmcPop_keeps | apply KFst.st
      | (intro _; try dsimp -zeta -iota -proj only)
      | (extract_lets +onlyGivenNames x; refine (fun (hx : Keeps q s0 x) => ?_) ?_; clear_value x; rotate_left; subst x)
      | (extract_lets +onlyGivenNames x; refine (fun (hx : KFst q s0 x) => ?_) ?_; clear_value x; rotate_left; subst x)
      | (extract_lets +onlyGivenNames x; clear_value x)
      | simp -zeta only [↓KFst.pair_iff]
      | with_reducible assumption
      | with_reducible refine KFst.of_eq (by with_reducible assumption) ?_
      | with_reducible apply KFst.st
      | split
  | succ n ih =>
    unfold State.dmcPops
    repeat' first
      | with_reducible first | refine Keeps.ite ?_ ?_ | refine Keeps.opt ?_ ?_ | refine KFst.ite ?_ ?_ | refine KFst.opt ?_ ?_ | apply State.dmcPop_keeps | apply ih | apply KFst.st
      | (intro _; try dsimp -zeta -iota -proj only)
      | (extract_lets +onlyGivenNames x; refine (fun (hx : Keeps q s0 x) => ?_) ?_; clear_value x; rotate_left; subst x)
      | (extract_lets +onlyGivenNames x; refine (fun (hx : KFst q s0 x) => ?_) ?_; clear_value x; rotate_left; subst x)
      | (extract_lets +onlyGivenNames x; clear_value x)
      | simp -zeta only [↓KFst.pair_iff]
      | with_reducible assumption
      | with_reducible refine KFst.of_eq (by with_reducible assumption) ?_
      | with_reducible apply KFst.st
      | split

theorem cmdDmcErrRead_keeps {q : Bool} {s0 s : State} {x0}
    (h : Keeps q s0 s) : KRes q s0 (cmdDmcErrRead x0 s) := by
  unfold cmdDmcErrRead
  repeat' first
    | with_reducible first | refine Keeps.ite ?_ ?_ | refine Keeps.opt ?_ ?_ | refine KRes.ite ?_ ?_ | refine KRes.opt ?_ ?_ | refine KFst.ite ?_ ?_ | refine KFst.opt ?_ ?_ | apply KRes.ok | apply KRes.fail | apply KRes.long | apply KRes.hold | apply KRes.done | apply State.dmcPops_keeps | apply KFst.st
    | (intro _; try dsimp -zeta -iota -proj only)
    | (extract_lets +onlyGivenNames x; refine (fun (hx : Keeps q s0 x) => ?_) ?_; clear_value x; rotate_left; subst x)
    | (extract_lets +onlyGivenNames x; refine (fun (hx : KFst q s0 x) => ?_) ?_; clear_value x; rotate_left; subst x)
    | (extract_lets +onlyGivenNames x; clear_value x)
    | simp -zeta only [↓KFst.pair_iff]
    | with_reducible assumption
    | with_reducible refine KFst.of_eq (by with_reducible assumption) ?_
    | with_reducible apply KFst.st
    | split

theorem cmdDmcFreqSet_keeps {q : Bool} {s0 s : State} {x0}
    (h : Keeps q s0 s) : KRes q s0 (cmdDmcFreqSet x0 s) := by
  unfold cmdDmcFreqSet
  repeat' first
    | with_reducible first | refine Keeps.ite ?_ ?_ | refine KRes.ite ?_ ?_ | apply KRes.ok | apply KRes.fail | apply KRes.long | apply KRes.hold | apply KRes.done | apply State.setFlag_keeps | apply State.setFld_keeps
    | (extract_lets +onlyGivenNames x; refine (fun (hx : Keeps q s0 x) => ?_) ?_; clear_value x; rotate_left; subst x)
    | (extract_lets +onlyGivenNames x; clear_value x)
    | with_reducible assumption

theorem cmdDmcQuery_keeps {q : Bool} {s0 s : State} {x0}
    (h : Keeps q s0 s) : KRes q s0 (cmdDmcQuery x0 s) := by
  unfold cmdDmcQuery
  repeat' first
    | with_reducible first | apply KRes.ok | apply KRes.fail | apply KRes.long | apply KRes.hold | apply KRes.done
    | (extract_lets +onlyGivenNames x; refine (fun (hx : Keeps q s0 x) => ?_) ?_; clear_value x; rotate_left; subst x)
    | (extract_lets +onlyGivenNames x; clear_value x)
    | with_reducible assumption

theorem cmdDmcStats_keeps {q : Bool} {s0 s : State} {x0}
    (h : Keeps q s0 s) : KRes q s0 (cmdDmcStats x0 s) := by
  unfold cmdDmcStats
  repeat' first
    | with_reducible first | refine Keeps.opt ?_ ?_ | refine KRes.opt ?_ ?_ | refine KFst.opt ?_ ?_ | apply KRes.ok | apply KRes.fail | apply KRes.long | apply KRes.hold | apply KRes.done | apply State.takeCounters_keeps | apply KFst.st
    | (intro _; try dsimp -zeta -iota -proj only)
    | (extract_lets +onlyGivenNames x; refine (fun (hx : Keeps q s0 x) => ?_) ?_; clear_value x; rotate_left; subst x)
    | (extract_lets +onlyGivenNames x; refine (fun (hx : KFst q s0 x) => ?_) ?_; clear_value x; rotate_left; subst x)
    | (extract_lets +onlyGivenNames x; clear_value x)
    | simp -zeta only [↓KFst.pair_iff]
    | with_reducible assumption
    | with_reducible refine KFst.of_eq (by with_reducible assumption) ?_
    | with_reducible apply KFst.st
    | split

theorem cmdDramRetire_keeps {q : Bool} {s0 s : State} {x0}
    (h : Keeps q s0 s) : KRes q s0 (cmdDramRetire x0 s) := by
  unfold cmdDramRetire
  repeat' first
    | with_reducible first | refine Keeps.ite ?_ ?_ | refine KRes.ite ?_ ?_ | apply KRes.ok | apply KRes.fail | apply KRes.long | apply KRes.hold | apply KRes.done
    | (extract_lets +onlyGivenNames x; refine (fun (hx : Keeps q s0 x) => ?_) ?_; clear_value x; rotate_left; subst x)
    | (extract_lets +onlyGivenNames x; clear_value x)
    | with_reducible assumption

theorem State.selfRefreshExit_keeps {q : Bool} {s0 s : State}
    (h : Keeps q s0 s) : Keeps q s0 (State.selfRefreshExit s) := by
  unfold State.selfRefreshExit
  repeat' first
    | with_reducible first | apply State.bump_keeps | apply State.setDom_keeps | apply State.setFlag_keeps
    | (extract_lets +onlyGivenNames x; refine (fun (hx : Keeps q s0 x) => ?_) ?_; clear_value x; rotate_left; subst x)
    | (extract_lets +onlyGivenNames x; clear_value x)
    | simp -zeta only [↓Keeps.mk_iff]
    | with_reducible assumption

theorem State.retireRow_keeps {q : Bool} {s0 s : State} {x1 x2 x3 x4}
    (h : Keeps q s0 s) : Keeps q s0 (State.retireRow s x1 x2 x3 x4) := by
  unfold State.retireRow
  repeat' first
    | with_reducible first | refine Keeps.ite ?_ ?_ | refine Keeps.opt ?_ ?_ | apply State.bump_keeps | apply State.dmcLog_keeps | apply State.irq_keeps
    | (intro _; try dsimp -zeta -iota -proj only)
    | (extract_lets +onlyGivenNames x; refine (fun (hx : Keeps q s0 x) => ?_) ?_; clear_value x; rotate_left; subst x)
    | (extract_lets +onlyGivenNames x; clear_value x)
    | simp -zeta only [↓Keeps.mk_iff]
    | with_reducible assumption
    | split

theorem finDramRetire_keeps {q : Bool} {s0 s : State} {x1}
    (h : Keeps q s0 s) : KFst q s0 (finDramRetire s x1) := by
  unfold finDramRetire
  repeat' first
    | with_reducible first | refine Keeps.opt ?_ ?_ | refine KFst.opt ?_ ?_ | apply State.retireRow_keeps | refine Keeps.foldl _ ?_ ?_ | refine KFst.foldl _ ?_ ?_ | apply KFst.st
    | (intro _; try dsimp -zeta -iota -proj only)
    | (extract_lets +onlyGivenNames x; refine (fun (hx : Keeps q s0 x) => ?_) ?_; clear_value x; rotate_left; subst x)
    | (extract_lets +onlyGivenNames x; refine (fun (hx : KFst q s0 x) => ?_) ?_; clear_value x; rotate_left; subst x)
    | (extract_lets +onlyGivenNames x; clear_value x)
    | simp -zeta only [↓KFst.pair_iff]
    | with_reducible assumption
    | with_reducible refine KFst.of_eq (by with_reducible assumption) ?_
    | with_reducible apply KFst.st
    | split

theorem execDramFailure_keeps {s0 s : State} {x0 x1}
    (h : Keeps false s0 s) : KOut false s0 (execDramFailure x0 x1 s) := by
  unfold execDramFailure
  repeat' first
    | with_reducible first | refine Keeps.ite ?_ ?_ | refine KOut.ite ?_ ?_ | apply KOut.next | apply KOut.fault | apply KOut.refused | apply State.atTime_keeps | apply State.dramFail_keeps
    | (extract_lets +onlyGivenNames x; refine (fun (hx : Keeps false s0 x) => ?_) ?_; clear_value x; rotate_left; subst x)
    | (extract_lets +onlyGivenNames x; clear_value x)
    | with_reducible assumption

theorem execRefreshWindow_keeps {q : Bool} {s0 s : State} {x0 x1 x2}
    (h : Keeps q s0 s) : KOut q s0 (execRefreshWindow x0 x1 x2 s) := by
  unfold execRefreshWindow
  repeat' first
    | with_reducible first | refine Keeps.ite ?_ ?_ | refine KOut.ite ?_ ?_ | apply KOut.next | apply KOut.fault | apply KOut.refused | apply State.atTime_keeps
    | (extract_lets +onlyGivenNames x; refine (fun (hx : Keeps q s0 x) => ?_) ?_; clear_value x; rotate_left; subst x)
    | (extract_lets +onlyGivenNames x; clear_value x)
    | simp -zeta only [↓Keeps.mk_iff]
    | with_reducible assumption

theorem State.thermChange_keeps {q : Bool} {s0 s : State} {x1}
    (h : Keeps q s0 s) : Keeps q s0 (State.thermChange s x1) := by
  unfold State.thermChange
  repeat' first
    | with_reducible first | apply State.bump_keeps | apply State.irq_keeps | apply State.setFld_keeps
    | (extract_lets +onlyGivenNames x; refine (fun (hx : Keeps q s0 x) => ?_) ?_; clear_value x; rotate_left; subst x)
    | (extract_lets +onlyGivenNames x; clear_value x)
    | with_reducible assumption

theorem State.activate_keeps {q : Bool} {s0 s : State} {x1 x2 x3 x4}
    (h : Keeps q s0 s) : Keeps q s0 (State.activate s x1 x2 x3 x4) := by
  unfold State.activate
  repeat' first
    | with_reducible first | refine Keeps.ite ?_ ?_ | apply State.bump_keeps | apply State.dmcLog_keeps | apply State.irq_keeps
    | (extract_lets +onlyGivenNames x; refine (fun (hx : Keeps q s0 x) => ?_) ?_; clear_value x; rotate_left; subst x)
    | (extract_lets +onlyGivenNames x; clear_value x)
    | simp -zeta only [↓Keeps.mk_iff]
    | with_reducible assumption

theorem State.dmcCorrected_keeps {q : Bool} {s0 s : State}
    (h : Keeps q s0 s) : Keeps q s0 (State.dmcCorrected s) := by
  unfold State.dmcCorrected
  repeat' first
    | with_reducible first | apply State.bump_keeps | apply State.irq_keeps
    | (extract_lets +onlyGivenNames x; refine (fun (hx : Keeps q s0 x) => ?_) ?_; clear_value x; rotate_left; subst x)
    | (extract_lets +onlyGivenNames x; clear_value x)
    | with_reducible assumption

theorem State.dmcTransient_keeps {q : Bool} {s0 s : State} {x1}
    (h : Keeps q s0 s) : Keeps q s0 (State.dmcTransient s x1) := by
  unfold State.dmcTransient
  repeat' first
    | with_reducible first | apply State.bump_keeps | apply State.dmcLog_keeps
    | (extract_lets +onlyGivenNames x; refine (fun (hx : Keeps q s0 x) => ?_) ?_; clear_value x; rotate_left; subst x)
    | (extract_lets +onlyGivenNames x; clear_value x)
    | with_reducible assumption

theorem execDmcErrlogPop_keeps {q : Bool} {s0 s : State} {x0}
    (h : Keeps q s0 s) : KOut q s0 (execDmcErrlogPop x0 s) := by
  unfold execDmcErrlogPop
  repeat' first
    | with_reducible first | apply KOut.next | apply KOut.fault | apply KOut.refused | apply State.atTime_keeps | apply State.dmcPop_keeps | apply State.readReturns_keeps | apply KFst.st
    | (extract_lets +onlyGivenNames x; refine (fun (hx : Keeps q s0 x) => ?_) ?_; clear_value x; rotate_left; subst x)
    | (extract_lets +onlyGivenNames x; refine (fun (hx : KFst q s0 x) => ?_) ?_; clear_value x; rotate_left; subst x)
    | (extract_lets +onlyGivenNames x; clear_value x)
    | simp -zeta only [↓KFst.pair_iff]
    | with_reducible assumption
    | with_reducible refine KFst.of_eq (by with_reducible assumption) ?_
    | with_reducible apply KFst.st

theorem execCalibration_keeps {s0 s : State} {x0 x1 x2 x3}
    (h : Keeps false s0 s) : KOut false s0 (execCalibration x0 x1 x2 x3 s) := by
  unfold execCalibration
  repeat' first
    | with_reducible first | refine Keeps.ite ?_ ?_ | refine KOut.ite ?_ ?_ | apply KOut.next | apply KOut.fault | apply KOut.refused | apply State.atTime_keeps | apply State.bump_keeps | apply State.dramFail_keeps | apply State.setFlag_keeps
    | (extract_lets +onlyGivenNames x; refine (fun (hx : Keeps false s0 x) => ?_) ?_; clear_value x; rotate_left; subst x)
    | (extract_lets +onlyGivenNames x; clear_value x)
    | with_reducible assumption

theorem execDramRetireRow_keeps {q : Bool} {s0 s : State} {x0}
    (h : Keeps q s0 s) : KOut q s0 (execDramRetireRow x0 s) :=
  runPacket_keeps h (fun _ => cmdDramRetire_keeps)

theorem State.dramTrained_keeps {q : Bool} {s0 s : State}
    (h : Keeps q s0 s) : Keeps q s0 (State.dramTrained s) := by
  unfold State.dramTrained
  repeat' first
    | with_reducible first | refine Keeps.ite ?_ ?_ | apply State.finishHeld_keeps | apply State.setFlag_keeps | apply State.setFld_keeps | refine Keeps.foldl _ ?_ ?_
    | (intro _; try dsimp -zeta -iota -proj only)
    | (extract_lets +onlyGivenNames x; refine (fun (hx : Keeps q s0 x) => ?_) ?_; clear_value x; rotate_left; subst x)
    | (extract_lets +onlyGivenNames x; clear_value x)
    | with_reducible assumption

theorem execRefresh_keeps {q : Bool} {s0 s : State} {x0 x1 x2}
    (h : Keeps q s0 s) : KOut q s0 (execRefresh x0 x1 x2 s) := by
  unfold execRefresh
  repeat' first
    | with_reducible first | refine Keeps.ite ?_ ?_ | refine KOut.ite ?_ ?_ | apply KOut.next | apply KOut.fault | apply KOut.refused | apply State.atTime_keeps
    | (extract_lets +onlyGivenNames x; refine (fun (hx : Keeps q s0 x) => ?_) ?_; clear_value x; rotate_left; subst x)
    | (extract_lets +onlyGivenNames x; clear_value x)
    | simp -zeta only [↓Keeps.mk_iff]
    | with_reducible assumption

theorem execSelfRefreshEntry_keeps {q : Bool} {s0 s : State} {x0 x1}
    (h : Keeps q s0 s) : KOut q s0 (execSelfRefreshEntry x0 x1 s) := by
  unfold execSelfRefreshEntry
  repeat' first
    | with_reducible first | refine Keeps.ite ?_ ?_ | refine KOut.ite ?_ ?_ | apply KOut.next | apply KOut.fault | apply KOut.refused | apply State.atTime_keeps | apply State.bump_keeps | apply State.setDom_keeps | apply State.setFlag_keeps
    | (extract_lets +onlyGivenNames x; refine (fun (hx : Keeps q s0 x) => ?_) ?_; clear_value x; rotate_left; subst x)
    | (extract_lets +onlyGivenNames x; clear_value x)
    | simp -zeta only [↓Keeps.mk_iff]
    | with_reducible assumption

theorem execSelfRefreshExit_keeps {q : Bool} {s0 s : State} {x0}
    (h : Keeps q s0 s) : KOut q s0 (execSelfRefreshExit x0 s) := by
  unfold execSelfRefreshExit
  repeat' first
    | with_reducible first | refine Keeps.ite ?_ ?_ | refine KOut.ite ?_ ?_ | apply KOut.next | apply KOut.fault | apply KOut.refused | apply State.atTime_keeps | apply State.selfRefreshExit_keeps
    | (extract_lets +onlyGivenNames x; refine (fun (hx : Keeps q s0 x) => ?_) ?_; clear_value x; rotate_left; subst x)
    | (extract_lets +onlyGivenNames x; clear_value x)
    | with_reducible assumption

theorem execDmcStats_keeps {q : Bool} {s0 s : State} {x0}
    (h : Keeps q s0 s) : KOut q s0 (execDmcStats x0 s) :=
  runPacket_keeps h (fun _ => cmdDmcStats_keeps)

theorem execDmcFreqSet_keeps {q : Bool} {s0 s : State} {x0}
    (h : Keeps q s0 s) : KOut q s0 (execDmcFreqSet x0 s) :=
  runPacket_keeps h (fun _ => cmdDmcFreqSet_keeps)

theorem execDramRetireListed_keeps {q : Bool} {s0 s : State} {x0}
    (h : Keeps q s0 s) : KOut q s0 (execDramRetireListed x0 s) :=
  runPacket_keeps h (fun _ => cmdDramRetire_keeps)

theorem execDmcCfgSet_keeps {q : Bool} {s0 s : State} {x0}
    (h : Keeps q s0 s) : KOut q s0 (execDmcCfgSet x0 s) :=
  runPacket_keeps h (fun _ => cmdDmcCfgSet_keeps)

theorem execDramThermal_keeps {q : Bool} {s0 s : State} {x0 x1}
    (h : Keeps q s0 s) : KOut q s0 (execDramThermal x0 x1 s) := by
  unfold execDramThermal
  repeat' first
    | with_reducible first | refine Keeps.ite ?_ ?_ | refine Keeps.opt ?_ ?_ | refine KOut.ite ?_ ?_ | refine KOut.opt ?_ ?_ | apply KOut.next | apply KOut.fault | apply KOut.refused | apply State.atTime_keeps | apply State.setFlag_keeps | apply State.setFld_keeps | apply State.thermChange_keeps
    | (intro _; try dsimp -zeta -iota -proj only)
    | (extract_lets +onlyGivenNames x; refine (fun (hx : Keeps q s0 x) => ?_) ?_; clear_value x; rotate_left; subst x)
    | (extract_lets +onlyGivenNames x; clear_value x)
    | simp -zeta only [↓Keeps.mk_iff]
    | with_reducible assumption
    | split

theorem execDmcErrRead_keeps {q : Bool} {s0 s : State} {x0}
    (h : Keeps q s0 s) : KOut q s0 (execDmcErrRead x0 s) :=
  runPacket_keeps h (fun _ => cmdDmcErrRead_keeps)

theorem execRowRetire_keeps {q : Bool} {s0 s : State} {x0 x1 x2 x3}
    (h : Keeps q s0 s) : KOut q s0 (execRowRetire x0 x1 x2 x3 s) := by
  unfold execRowRetire
  repeat' first
    | with_reducible first | refine Keeps.ite ?_ ?_ | refine KOut.ite ?_ ?_ | apply KOut.next | apply KOut.fault | apply KOut.refused | apply State.atTime_keeps | apply State.retireRow_keeps
    | (extract_lets +onlyGivenNames x; refine (fun (hx : Keeps q s0 x) => ?_) ?_; clear_value x; rotate_left; subst x)
    | (extract_lets +onlyGivenNames x; clear_value x)
    | with_reducible assumption

theorem execDmcQuery_keeps {q : Bool} {s0 s : State} {x0}
    (h : Keeps q s0 s) : KOut q s0 (execDmcQuery x0 s) :=
  runPacket_keeps h (fun _ => cmdDmcQuery_keeps)

end Sys2Proof.Machine
end

