-- ==== Sys2Proof/Laws/KeepsObjects.lean ====
section
/-!
SUPPORT. What the operations of Objects.lean keep (`Keeps`).
-/

set_option linter.unusedSimpArgs false

namespace Sys2Proof.Machine

theorem State.setSlot_keeps {q : Bool} {s0 s : State} {x1 x2}
    (h : Keeps q s0 s) : Keeps q s0 (State.setSlot s x1 x2) := by
  unfold State.setSlot
  repeat' first
    | (extract_lets +onlyGivenNames x; refine (fun (hx : Keeps q s0 x) => ?_) ?_; clear_value x; rotate_left; subst x)
    | (extract_lets +onlyGivenNames x; clear_value x)
    | simp -zeta only [↓Keeps.mk_iff]
    | with_reducible assumption

end Sys2Proof.Machine
end

