-- ==== Sys2Proof/Laws/KeepsPower.lean ====
section
/-!
SUPPORT. What the operations of Power.lean keep (`Keeps`).
-/

set_option linter.unusedSimpArgs false

namespace Sys2Proof.Machine

theorem State.domUp_keeps {q : Bool} {s0 s : State} {x1}
    (h : Keeps q s0 s) : Keeps q s0 (State.domUp s x1) := by
  unfold State.domUp
  repeat' first
    | with_reducible first | apply State.bump_keeps | apply State.setDom_keeps
    | (extract_lets +onlyGivenNames x; refine (fun (hx : Keeps q s0 x) => ?_) ?_; clear_value x; rotate_left; subst x)
    | (extract_lets +onlyGivenNames x; clear_value x)
    | simp -zeta only [↓Keeps.mk_iff]
    | with_reducible assumption

theorem State.wake_keeps {q : Bool} {s0 s : State} {x1 x2}
    (h : Keeps q s0 s) : Keeps q s0 (State.wake s x1 x2) := by
  unfold State.wake
  repeat' first
    | with_reducible first | refine Keeps.ite ?_ ?_ | apply State.domUp_keeps | apply State.irq_keeps | apply State.selfRefreshExit_keeps | apply State.setDom_keeps
    | (extract_lets +onlyGivenNames x; refine (fun (hx : Keeps q s0 x) => ?_) ?_; clear_value x; rotate_left; subst x)
    | (extract_lets +onlyGivenNames x; clear_value x)
    | with_reducible assumption

theorem State.wakeAll_keeps {q : Bool} {s0 s : State} {x1 x2}
    (h : Keeps q s0 s) : Keeps q s0 (State.wakeAll s x1 x2) := by
  unfold State.wakeAll
  repeat' first
    | with_reducible first | apply State.wake_keeps | refine Keeps.foldl _ ?_ ?_
    | (intro _; try dsimp -zeta -iota -proj only)
    | (extract_lets +onlyGivenNames x; refine (fun (hx : Keeps q s0 x) => ?_) ?_; clear_value x; rotate_left; subst x)
    | (extract_lets +onlyGivenNames x; clear_value x)
    | with_reducible assumption

theorem cmdPwrCfgSet_keeps {q : Bool} {s0 s : State} {x0}
    (h : Keeps q s0 s) : KRes q s0 (cmdPwrCfgSet x0 s) := by
  unfold cmdPwrCfgSet
  repeat' first
    | with_reducible first | refine Keeps.ite ?_ ?_ | refine KRes.ite ?_ ?_ | apply KRes.ok | apply KRes.fail | apply KRes.long | apply KRes.hold | apply KRes.done | apply State.wr_keeps
    | (extract_lets +onlyGivenNames x; refine (fun (hx : Keeps q s0 x) => ?_) ?_; clear_value x; rotate_left; subst x)
    | (extract_lets +onlyGivenNames x; clear_value x)
    | with_reducible assumption

theorem State.ctrlReset_keeps {s0 s : State}
    (h : Keeps false s0 s) : Keeps false s0 (State.ctrlReset s) := by
  unfold State.ctrlReset
  repeat' first
    | with_reducible first | apply State.abandonLong_keeps | apply State.resetDomain_keeps
    | (extract_lets +onlyGivenNames x; refine (fun (hx : Keeps false s0 x) => ?_) ?_; clear_value x; rotate_left; subst x)
    | (extract_lets +onlyGivenNames x; clear_value x)
    | simp -zeta only [↓Keeps.mk_iff]
    | with_reducible assumption

theorem State.enterOff_keeps {s0 s : State} {x1}
    (h : Keeps false s0 s) : Keeps false s0 (State.enterOff s x1) := by
  unfold State.enterOff
  repeat' first
    | with_reducible first | apply State.bump_keeps | apply State.powerOff_keeps
    | (extract_lets +onlyGivenNames x; refine (fun (hx : Keeps false s0 x) => ?_) ?_; clear_value x; rotate_left; subst x)
    | (extract_lets +onlyGivenNames x; clear_value x)
    | with_reducible assumption

theorem State.enterRet_keeps {q : Bool} {s0 s : State} {x1}
    (h : Keeps q s0 s) : Keeps q s0 (State.enterRet s x1) := by
  unfold State.enterRet
  repeat' first
    | with_reducible first | refine Keeps.ite ?_ ?_ | apply State.bump_keeps | apply State.setDom_keeps | apply State.setFlag_keeps
    | (extract_lets +onlyGivenNames x; refine (fun (hx : Keeps q s0 x) => ?_) ?_; clear_value x; rotate_left; subst x)
    | (extract_lets +onlyGivenNames x; clear_value x)
    | simp -zeta only [↓Keeps.mk_iff]
    | with_reducible assumption

theorem cmdPwrDomSet_keeps {s0 s : State} {x0}
    (h : Keeps false s0 s) : KRes false s0 (cmdPwrDomSet x0 s) := by
  unfold cmdPwrDomSet
  repeat' first
    | with_reducible first | refine Keeps.ite ?_ ?_ | refine KRes.ite ?_ ?_ | apply KRes.ok | apply KRes.fail | apply KRes.long | apply KRes.hold | apply KRes.done | apply State.ctrlReset_keeps | apply State.enterOff_keeps | apply State.enterRet_keeps | apply State.reply_keeps | apply State.resetDomain_keeps | apply State.setDom_keeps | apply State.wake_keeps
    | (extract_lets +onlyGivenNames x; refine (fun (hx : Keeps false s0 x) => ?_) ?_; clear_value x; rotate_left; subst x)
    | (extract_lets +onlyGivenNames x; clear_value x)
    | simp -zeta only [↓Keeps.mk_iff]
    | with_reducible assumption

theorem cmdPwrQuery_keeps {q : Bool} {s0 s : State} {x0}
    (h : Keeps q s0 s) : KRes q s0 (cmdPwrQuery x0 s) := by
  unfold cmdPwrQuery
  repeat' first
    | with_reducible first | apply KRes.ok | apply KRes.fail | apply KRes.long | apply KRes.hold | apply KRes.done
    | (extract_lets +onlyGivenNames x; refine (fun (hx : Keeps q s0 x) => ?_) ?_; clear_value x; rotate_left; subst x)
    | (extract_lets +onlyGivenNames x; clear_value x)
    | with_reducible assumption

theorem cmdPwrStats_keeps {q : Bool} {s0 s : State} {x0}
    (h : Keeps q s0 s) : KRes q s0 (cmdPwrStats x0 s) := by
  unfold cmdPwrStats
  repeat' first
    | with_reducible first | refine Keeps.opt ?_ ?_ | refine KRes.opt ?_ ?_ | refine KFst.opt ?_ ?_ | apply KRes.ok | apply KRes.fail | apply KRes.long | apply KRes.hold | apply KRes.done | apply State.takeCounters_keeps | apply KFst.st
    | (intro _; try dsimp -zeta -iota -proj only)
    | (extract_lets +onlyGivenNames x; refine (fun (hx : Keeps q s0 x) => ?_) ?_; clear_value x; rotate_left; subst x)
    | (extract_lets +onlyGivenNames x; refine (fun (hx : KFst q s0 x) => ?_) ?_; clear_value x; rotate_left; subst x)
    | (extract_lets +onlyGivenNames x; clear_value x)
    | simp -zeta only [↓KFst.pair_iff]
    | with_reducible assumption
    | with_reducible refine KFst.of_eq (by with_reducible assumption) ?_
    | with_reducible apply KFst.st
    | split

theorem cmdRtcSet_keeps {q : Bool} {s0 s : State} {x0}
    (h : Keeps q s0 s) : KRes q s0 (cmdRtcSet x0 s) := by
  unfold cmdRtcSet
  repeat' first
    | with_reducible first | refine Keeps.ite ?_ ?_ | refine KRes.ite ?_ ?_ | apply KRes.ok | apply KRes.fail | apply KRes.long | apply KRes.hold | apply KRes.done | apply State.wr_keeps
    | (extract_lets +onlyGivenNames x; refine (fun (hx : Keeps q s0 x) => ?_) ?_; clear_value x; rotate_left; subst x)
    | (extract_lets +onlyGivenNames x; clear_value x)
    | simp -zeta only [↓Keeps.mk_iff]
    | with_reducible assumption

theorem execPwrStats_keeps {q : Bool} {s0 s : State} {x0}
    (h : Keeps q s0 s) : KOut q s0 (execPwrStats x0 s) :=
  runPacket_keeps h (fun _ => cmdPwrStats_keeps)

theorem State.latchRtc_keeps {q : Bool} {s0 s : State}
    (h : Keeps q s0 s) : Keeps q s0 (State.latchRtc s) := by
  unfold State.latchRtc
  repeat' first
    | with_reducible first | apply State.wr_keeps
    | (extract_lets +onlyGivenNames x; refine (fun (hx : Keeps q s0 x) => ?_) ?_; clear_value x; rotate_left; subst x)
    | (extract_lets +onlyGivenNames x; clear_value x)
    | with_reducible assumption

theorem State.wakeAuto_keeps {q : Bool} {s0 s : State}
    (h : Keeps q s0 s) : Keeps q s0 (State.wakeAuto s) := by
  unfold State.wakeAuto
  repeat' first
    | with_reducible first | refine Keeps.ite ?_ ?_ | apply State.wakeAll_keeps | refine Keeps.foldl _ ?_ ?_
    | (intro _; try dsimp -zeta -iota -proj only)
    | (extract_lets +onlyGivenNames x; refine (fun (hx : Keeps q s0 x) => ?_) ?_; clear_value x; rotate_left; subst x)
    | (extract_lets +onlyGivenNames x; clear_value x)
    | simp -zeta only [↓Keeps.mk_iff]
    | with_reducible assumption

theorem execRtcSet_keeps {q : Bool} {s0 s : State} {x0}
    (h : Keeps q s0 s) : KOut q s0 (execRtcSet x0 s) :=
  runPacket_keeps h (fun _ => cmdRtcSet_keeps)

theorem execPwrRtcLoRead_keeps {q : Bool} {s0 s : State} {x0}
    (h : Keeps q s0 s) : KOut q s0 (execPwrRtcLoRead x0 s) := by
  unfold execPwrRtcLoRead
  repeat' first
    | with_reducible first | apply KOut.next | apply KOut.fault | apply KOut.refused | apply State.atTime_keeps | apply State.latchRtc_keeps | apply State.readReturns_keeps
    | (extract_lets +onlyGivenNames x; refine (fun (hx : Keeps q s0 x) => ?_) ?_; clear_value x; rotate_left; subst x)
    | (extract_lets +onlyGivenNames x; clear_value x)
    | with_reducible assumption

theorem execPwrDomOn_keeps {s0 s : State} {x0}
    (h : Keeps false s0 s) : KOut false s0 (execPwrDomOn x0 s) :=
  runPacket_keeps h (fun _ => cmdPwrDomSet_keeps)

theorem execPwrCfgSet_keeps {q : Bool} {s0 s : State} {x0}
    (h : Keeps q s0 s) : KOut q s0 (execPwrCfgSet x0 s) :=
  runPacket_keeps h (fun _ => cmdPwrCfgSet_keeps)

theorem State.drained_keeps {s0 s : State} {x1}
    (h : Keeps false s0 s) : Keeps false s0 (State.drained s x1) := by
  unfold State.drained
  repeat' first
    | with_reducible first | refine Keeps.ite ?_ ?_ | apply State.enterOff_keeps | apply State.enterRet_keeps | apply State.finishHeld_keeps
    | (extract_lets +onlyGivenNames x; refine (fun (hx : Keeps false s0 x) => ?_) ?_; clear_value x; rotate_left; subst x)
    | (extract_lets +onlyGivenNames x; clear_value x)
    | simp -zeta only [↓Keeps.mk_iff]
    | with_reducible assumption

theorem rowDrainComplete_keeps {s0 s : State} {x0}
    (h : Keeps false s0 s) : KOut false s0 (rowDrainComplete x0 s) := by
  unfold rowDrainComplete
  repeat' first
    | with_reducible first | refine Keeps.ite ?_ ?_ | refine Keeps.opt ?_ ?_ | refine KOut.ite ?_ ?_ | refine KOut.opt ?_ ?_ | apply KOut.next | apply KOut.fault | apply KOut.refused | apply State.atTime_keeps | apply State.drained_keeps
    | (intro _; try dsimp -zeta -iota -proj only)
    | (extract_lets +onlyGivenNames x; refine (fun (hx : Keeps false s0 x) => ?_) ?_; clear_value x; rotate_left; subst x)
    | (extract_lets +onlyGivenNames x; clear_value x)
    | simp -zeta only [↓Keeps.mk_iff]
    | with_reducible assumption
    | split

theorem execPwrDomRet_keeps {s0 s : State} {x0}
    (h : Keeps false s0 s) : KOut false s0 (execPwrDomRet x0 s) :=
  runPacket_keeps h (fun _ => cmdPwrDomSet_keeps)

theorem execRetTimer_keeps {q : Bool} {s0 s : State} {x0 x1 x2}
    (h : Keeps q s0 s) : KOut q s0 (execRetTimer x0 x1 x2 s) := by
  unfold execRetTimer
  repeat' first
    | with_reducible first | refine Keeps.ite ?_ ?_ | refine KOut.ite ?_ ?_ | apply KOut.next | apply KOut.fault | apply KOut.refused | apply State.atTime_keeps | apply State.bump_keeps | apply State.enterRet_keeps | apply State.setDom_keeps
    | (extract_lets +onlyGivenNames x; refine (fun (hx : Keeps q s0 x) => ?_) ?_; clear_value x; rotate_left; subst x)
    | (extract_lets +onlyGivenNames x; clear_value x)
    | simp -zeta only [↓Keeps.mk_iff]
    | with_reducible assumption

theorem execOffTimer_keeps {s0 s : State} {x0 x1}
    (h : Keeps false s0 s) : KOut false s0 (execOffTimer x0 x1 s) := by
  unfold execOffTimer
  repeat' first
    | with_reducible first | refine Keeps.ite ?_ ?_ | refine KOut.ite ?_ ?_ | apply KOut.next | apply KOut.fault | apply KOut.refused | apply State.atTime_keeps | apply State.enterOff_keeps
    | (extract_lets +onlyGivenNames x; refine (fun (hx : Keeps false s0 x) => ?_) ?_; clear_value x; rotate_left; subst x)
    | (extract_lets +onlyGivenNames x; clear_value x)
    | with_reducible assumption

theorem execPwrDomOff_keeps {s0 s : State} {x0}
    (h : Keeps false s0 s) : KOut false s0 (execPwrDomOff x0 s) :=
  runPacket_keeps h (fun _ => cmdPwrDomSet_keeps)

theorem rowDrainTimeout_keeps {q : Bool} {s0 s : State} {x0}
    (h : Keeps q s0 s) : KOut q s0 (rowDrainTimeout x0 s) := by
  unfold rowDrainTimeout
  repeat' first
    | with_reducible first | refine Keeps.ite ?_ ?_ | refine Keeps.opt ?_ ?_ | refine KOut.ite ?_ ?_ | refine KOut.opt ?_ ?_ | apply KOut.next | apply KOut.fault | apply KOut.refused | apply State.atTime_keeps | apply State.bump_keeps | apply State.finishHeld_keeps | apply State.irq_keeps | apply State.setDom_keeps
    | (intro _; try dsimp -zeta -iota -proj only)
    | (extract_lets +onlyGivenNames x; refine (fun (hx : Keeps q s0 x) => ?_) ?_; clear_value x; rotate_left; subst x)
    | (extract_lets +onlyGivenNames x; clear_value x)
    | simp -zeta only [↓Keeps.mk_iff]
    | with_reducible assumption
    | split

theorem execPwrDomReset_keeps {s0 s : State} {x0}
    (h : Keeps false s0 s) : KOut false s0 (execPwrDomReset x0 s) :=
  runPacket_keeps h (fun _ => cmdPwrDomSet_keeps)

theorem execPwrQuery_keeps {q : Bool} {s0 s : State} {x0}
    (h : Keeps q s0 s) : KOut q s0 (execPwrQuery x0 s) :=
  runPacket_keeps h (fun _ => cmdPwrQuery_keeps)

end Sys2Proof.Machine
end

