-- ==== Sys2Proof/Laws/KeepsStable.lean ====
section
/-!
SUPPORT. What the operations of Stable.lean keep (`Keeps`).
-/

set_option linter.unusedSimpArgs false

namespace Sys2Proof.Machine

theorem State.enter_keeps {q : Bool} {s0 s : State} {x1 x2}
    (h : Keeps q s0 s) : Keeps q s0 (State.enter s x1 x2) := by
  unfold State.enter
  repeat' first
    | with_reducible first | apply State.bump_keeps | apply State.setFld_keeps
    | (extract_lets +onlyGivenNames x; refine (fun (hx : Keeps q s0 x) => ?_) ?_; clear_value x; rotate_left; subst x)
    | (extract_lets +onlyGivenNames x; clear_value x)
    | simp -zeta only [↓Keeps.mk_iff]
    | with_reducible assumption

theorem State.issue_keeps {q : Bool} {s0 s : State} {x1 x2}
    (h : Keeps q s0 s) : Keeps q s0 (State.issue s x1 x2) := by
  unfold State.issue
  repeat' first
    | with_reducible first | refine Keeps.ite ?_ ?_ | apply State.enter_keeps
    | (extract_lets +onlyGivenNames x; refine (fun (hx : Keeps q s0 x) => ?_) ?_; clear_value x; rotate_left; subst x)
    | (extract_lets +onlyGivenNames x; clear_value x)
    | simp -zeta only [↓Keeps.mk_iff]
    | with_reducible assumption

theorem State.issueAll_keeps {q : Bool} {s0 s : State} {x1 x2}
    (h : Keeps q s0 s) : Keeps q s0 (State.issueAll s x1 x2) := by
  unfold State.issueAll
  repeat' first
    | with_reducible first | apply State.issue_keeps | refine Keeps.foldl _ ?_ ?_
    | (intro _; try dsimp -zeta -iota -proj only)
    | (extract_lets +onlyGivenNames x; refine (fun (hx : Keeps q s0 x) => ?_) ?_; clear_value x; rotate_left; subst x)
    | (extract_lets +onlyGivenNames x; clear_value x)
    | with_reducible assumption

theorem State.trcStore_keeps {s0 s : State} {x1 x2}
    (h : Keeps false s0 s) : Keeps false s0 (State.trcStore s x1 x2) := by
  unfold State.trcStore
  repeat' first
    | with_reducible first | refine Keeps.ite ?_ ?_ | apply State.busWrite_keeps | apply State.wr_keeps | refine Keeps.foldl _ ?_ ?_
    | (intro _; try dsimp -zeta -iota -proj only)
    | (extract_lets +onlyGivenNames x; refine (fun (hx : Keeps false s0 x) => ?_) ?_; clear_value x; rotate_left; subst x)
    | (extract_lets +onlyGivenNames x; clear_value x)
    | with_reducible assumption

theorem State.trace_keeps {s0 s : State} {x1 x2 x3 x4 x5 x6}
    (h : Keeps false s0 s) : Keeps false s0 (State.trace s x1 x2 x3 x4 x5 x6) := by
  unfold State.trace
  repeat' first
    | with_reducible first | refine Keeps.ite ?_ ?_ | refine Keeps.opt ?_ ?_ | refine KSnd.ite ?_ ?_ | refine KSnd.opt ?_ ?_ | apply State.bump_keeps | apply State.fresh_keeps | apply State.irq_keeps | apply State.trcStore_keeps | apply State.wr_keeps | apply KSnd.st
    | (intro _; try dsimp -zeta -iota -proj only)
    | (extract_lets +onlyGivenNames x; refine (fun (hx : Keeps false s0 x) => ?_) ?_; clear_value x; rotate_left; subst x)
    | (extract_lets +onlyGivenNames x; refine (fun (hx : KSnd false s0 x) => ?_) ?_; clear_value x; rotate_left; subst x)
    | (extract_lets +onlyGivenNames x; clear_value x)
    | simp -zeta only [↓Keeps.mk_iff, ↓KSnd.pair_iff]
    | with_reducible assumption
    | with_reducible refine KSnd.of_eq (by with_reducible assumption) ?_
    | with_reducible apply KSnd.st
    | split

theorem State.dropTicket_keeps {s0 s : State} {x1 x2 x3}
    (h : Keeps false s0 s) : Keeps false s0 (State.dropTicket s x1 x2 x3) := by
  unfold State.dropTicket
  repeat' first
    | with_reducible first | refine Keeps.ite ?_ ?_ | apply State.bump_keeps | apply State.trace_keeps
    | (extract_lets +onlyGivenNames x; refine (fun (hx : Keeps false s0 x) => ?_) ?_; clear_value x; rotate_left; subst x)
    | (extract_lets +onlyGivenNames x; clear_value x)
    | with_reducible assumption

theorem State.sweepStalls_keeps {s0 s : State}
    (h : Keeps false s0 s) : Keeps false s0 (State.sweepStalls s) := by
  unfold State.sweepStalls
  repeat' first
    | with_reducible first | refine Keeps.ite ?_ ?_ | refine Keeps.opt ?_ ?_ | apply State.dropTicket_keeps | refine Keeps.foldl _ ?_ ?_
    | (intro _; try dsimp -zeta -iota -proj only)
    | (extract_lets +onlyGivenNames x; refine (fun (hx : Keeps false s0 x) => ?_) ?_; clear_value x; rotate_left; subst x)
    | (extract_lets +onlyGivenNames x; clear_value x)
    | simp -zeta only [↓Keeps.mk_iff]
    | with_reducible assumption
    | split

theorem State.dropEngine_keeps {q : Bool} {s0 s : State} {x1}
    (h : Keeps q s0 s) : Keeps q s0 (State.dropEngine s x1) := by
  unfold State.dropEngine
  repeat' first
    | (extract_lets +onlyGivenNames x; refine (fun (hx : Keeps q s0 x) => ?_) ?_; clear_value x; rotate_left; subst x)
    | (extract_lets +onlyGivenNames x; clear_value x)
    | simp -zeta only [↓Keeps.mk_iff]
    | with_reducible assumption

theorem State.advanceFlow_keeps {s0 s : State} {x1}
    (h : Keeps false s0 s) : Keeps false s0 (State.advanceFlow s x1) := by
  unfold State.advanceFlow
  repeat' first
    | with_reducible first | refine Keeps.ite ?_ ?_ | apply State.trace_keeps | refine Keeps.foldl _ ?_ ?_
    | (intro _; try dsimp -zeta -iota -proj only)
    | (extract_lets +onlyGivenNames x; refine (fun (hx : Keeps false s0 x) => ?_) ?_; clear_value x; rotate_left; subst x)
    | (extract_lets +onlyGivenNames x; clear_value x)
    | simp -zeta only [↓Keeps.mk_iff]
    | with_reducible assumption

theorem State.flowDone_keeps {s0 s : State} {x1 x2 x3}
    (h : Keeps false s0 s) : Keeps false s0 (State.flowDone s x1 x2 x3) := by
  unfold State.flowDone
  repeat' first
    | with_reducible first | refine Keeps.ite ?_ ?_ | apply State.advanceFlow_keeps
    | (extract_lets +onlyGivenNames x; refine (fun (hx : Keeps false s0 x) => ?_) ?_; clear_value x; rotate_left; subst x)
    | (extract_lets +onlyGivenNames x; clear_value x)
    | simp -zeta only [↓Keeps.mk_iff]
    | with_reducible assumption

theorem State.finishTicket_keeps {s0 s : State} {x1 x2}
    (h : Keeps false s0 s) : Keeps false s0 (State.finishTicket s x1 x2) := by
  unfold State.finishTicket
  repeat' first
    | with_reducible first | apply State.bump_keeps | apply State.flowDone_keeps | apply State.trace_keeps
    | (extract_lets +onlyGivenNames x; refine (fun (hx : Keeps false s0 x) => ?_) ?_; clear_value x; rotate_left; subst x)
    | (extract_lets +onlyGivenNames x; clear_value x)
    | simp -zeta only [↓Keeps.mk_iff]
    | with_reducible assumption

theorem State.startNext_keeps {s0 s : State} {x0 x1 x3}
    (h : Keeps false s0 s)
    (h0 : ∀ a0 a1 a2, Keeps false s0 a0 → Keeps false s0 (x0 a0 a1 a2)) : Keeps false s0 (State.startNext x0 x1 s x3) := by
  induction x1 generalizing s x3 with
  | zero =>
    unfold State.startNext
    repeat' first
      | with_reducible first | refine Keeps.ite ?_ ?_ | refine Keeps.opt ?_ ?_ | apply State.dropTicket_keeps | apply h0
      | (intro _; try dsimp -zeta -iota -proj only)
      | (extract_lets +onlyGivenNames x; refine (fun (hx : Keeps false s0 x) => ?_) ?_; clear_value x; rotate_left; subst x)
      | (extract_lets +onlyGivenNames x; clear_value x)
      | simp -zeta only [↓Keeps.mk_iff]
      | with_reducible assumption
      | split
  | succ n ih =>
    unfold State.startNext
    repeat' first
      | with_reducible first | refine Keeps.ite ?_ ?_ | refine Keeps.opt ?_ ?_ | apply State.dropTicket_keeps | apply h0 | apply ih
      | (intro _; try dsimp -zeta -iota -proj only)
      | (extract_lets +onlyGivenNames x; refine (fun (hx : Keeps false s0 x) => ?_) ?_; clear_value x; rotate_left; subst x)
      | (extract_lets +onlyGivenNames x; clear_value x)
      | simp -zeta only [↓Keeps.mk_iff]
      | with_reducible assumption
      | split

theorem State.cancelTickets_keeps {q : Bool} {s0 s : State} {x1}
    (h : Keeps q s0 s) : Keeps q s0 (State.cancelTickets s x1) := by
  unfold State.cancelTickets
  repeat' first
    | with_reducible first | refine Keeps.foldl _ ?_ ?_
    | (intro _; try dsimp -zeta -iota -proj only)
    | (extract_lets +onlyGivenNames x; refine (fun (hx : Keeps q s0 x) => ?_) ?_; clear_value x; rotate_left; subst x)
    | (extract_lets +onlyGivenNames x; clear_value x)
    | simp -zeta only [↓Keeps.mk_iff]
    | with_reducible assumption

theorem State.unqueue_keeps {q : Bool} {s0 s : State} {x1 x2}
    (h : Keeps q s0 s) : Keeps q s0 (State.unqueue s x1 x2) := by
  unfold State.unqueue
  repeat' first
    | with_reducible first | refine Keeps.ite ?_ ?_
    | (extract_lets +onlyGivenNames x; refine (fun (hx : Keeps q s0 x) => ?_) ?_; clear_value x; rotate_left; subst x)
    | (extract_lets +onlyGivenNames x; clear_value x)
    | simp -zeta only [↓Keeps.mk_iff]
    | with_reducible assumption

theorem State.runMarkers_keeps {s0 s : State}
    (h : Keeps false s0 s) : Keeps false s0 (State.runMarkers s) := by
  unfold State.runMarkers
  repeat' first
    | with_reducible first | refine Keeps.opt ?_ ?_ | apply State.bump_keeps | apply State.flowDone_keeps | apply State.trace_keeps | apply State.unqueue_keeps | refine Keeps.foldl _ ?_ ?_
    | (intro _; try dsimp -zeta -iota -proj only)
    | (extract_lets +onlyGivenNames x; refine (fun (hx : Keeps false s0 x) => ?_) ?_; clear_value x; rotate_left; subst x)
    | (extract_lets +onlyGivenNames x; clear_value x)
    | with_reducible assumption
    | split

theorem State.drainWaiting_keeps {q : Bool} {s0 s : State} {x0 x2}
    (h : Keeps q s0 s) : Keeps q s0 (State.drainWaiting x0 s x2) := by
  induction x0 generalizing s x2 with
  | zero =>
    unfold State.drainWaiting
    repeat' first
      | with_reducible first | refine Keeps.ite ?_ ?_ | refine Keeps.opt ?_ ?_ | apply State.enter_keeps
      | (intro _; try dsimp -zeta -iota -proj only)
      | (extract_lets +onlyGivenNames x; refine (fun (hx : Keeps q s0 x) => ?_) ?_; clear_value x; rotate_left; subst x)
      | (extract_lets +onlyGivenNames x; clear_value x)
      | simp -zeta only [↓Keeps.mk_iff]
      | with_reducible assumption
      | split
  | succ n ih =>
    unfold State.drainWaiting
    repeat' first
      | with_reducible first | refine Keeps.ite ?_ ?_ | refine Keeps.opt ?_ ?_ | apply State.enter_keeps | apply ih
      | (intro _; try dsimp -zeta -iota -proj only)
      | (extract_lets +onlyGivenNames x; refine (fun (hx : Keeps q s0 x) => ?_) ?_; clear_value x; rotate_left; subst x)
      | (extract_lets +onlyGivenNames x; clear_value x)
      | simp -zeta only [↓Keeps.mk_iff]
      | with_reducible assumption
      | split

theorem execGeneratorResume_keeps {q : Bool} {s0 s : State} {x0 x1 x2}
    (h : Keeps q s0 s) : KOut q s0 (execGeneratorResume x0 x1 x2 s) := by
  unfold execGeneratorResume
  repeat' first
    | with_reducible first | refine Keeps.ite ?_ ?_ | refine KOut.ite ?_ ?_ | apply KOut.next | apply KOut.fault | apply KOut.refused | apply State.atTime_keeps | apply State.count_keeps | apply State.drainWaiting_keeps
    | (extract_lets +onlyGivenNames x; refine (fun (hx : Keeps q s0 x) => ?_) ?_; clear_value x; rotate_left; subst x)
    | (extract_lets +onlyGivenNames x; clear_value x)
    | simp -zeta only [↓Keeps.mk_iff]
    | with_reducible assumption

theorem State.sweepStale_keeps {s0 s : State} {x1}
    (h : Keeps false s0 s) : Keeps false s0 (State.sweepStale s x1) := by
  unfold State.sweepStale
  repeat' first
    | with_reducible first | refine Keeps.ite ?_ ?_ | apply State.dropTicket_keeps | apply State.unqueue_keeps | refine Keeps.foldl _ ?_ ?_
    | (intro _; try dsimp -zeta -iota -proj only)
    | (extract_lets +onlyGivenNames x; refine (fun (hx : Keeps false s0 x) => ?_) ?_; clear_value x; rotate_left; subst x)
    | (extract_lets +onlyGivenNames x; clear_value x)
    | with_reducible assumption

theorem State.displace_keeps {s0 s : State} {x1}
    (h : Keeps false s0 s) : Keeps false s0 (State.displace s x1) := by
  unfold State.displace
  repeat' first
    | with_reducible first | refine Keeps.ite ?_ ?_ | refine Keeps.opt ?_ ?_ | apply State.bump_keeps | apply State.trace_keeps
    | (intro _; try dsimp -zeta -iota -proj only)
    | (extract_lets +onlyGivenNames x; refine (fun (hx : Keeps false s0 x) => ?_) ?_; clear_value x; rotate_left; subst x)
    | (extract_lets +onlyGivenNames x; clear_value x)
    | simp -zeta only [↓Keeps.mk_iff]
    | with_reducible assumption
    | split

theorem State.placeIn_keeps {s0 s : State} {x1 x2 x3}
    (h : Keeps false s0 s) : Keeps false s0 (State.placeIn s x1 x2 x3) := by
  unfold State.placeIn
  repeat' first
    | with_reducible first | refine Keeps.ite ?_ ?_ | refine Keeps.opt ?_ ?_ | apply State.trace_keeps | apply State.unqueue_keeps
    | (intro _; try dsimp -zeta -iota -proj only)
    | (extract_lets +onlyGivenNames x; refine (fun (hx : Keeps false s0 x) => ?_) ?_; clear_value x; rotate_left; subst x)
    | (extract_lets +onlyGivenNames x; clear_value x)
    | simp -zeta only [↓Keeps.mk_iff]
    | with_reducible assumption
    | split

theorem State.fill_keeps {s0 s : State} {x0 x2}
    (h : Keeps false s0 s)
    (h0 : ∀ a0 a1 a2, Keeps false s0 a0 → Keeps false s0 (x0 a0 a1 a2)) : Keeps false s0 (State.fill x0 s x2) := by
  unfold State.fill
  repeat' first
    | with_reducible first | refine Keeps.ite ?_ ?_ | refine Keeps.opt ?_ ?_ | apply State.displace_keeps | apply State.placeIn_keeps | apply State.runMarkers_keeps | apply State.startNext_keeps | apply State.sweepStale_keeps | apply h0 | refine Keeps.foldl _ ?_ ?_
    | (intro _; try dsimp -zeta -iota -proj only)
    | (extract_lets +onlyGivenNames x; refine (fun (hx : Keeps false s0 x) => ?_) ?_; clear_value x; rotate_left; subst x)
    | (extract_lets +onlyGivenNames x; clear_value x)
    | with_reducible assumption
    | split

theorem execDomainWake_keeps {q : Bool} {s0 s : State} {x0 x1 x2}
    (h : Keeps q s0 s) : KOut q s0 (execDomainWake x0 x1 x2 s) := by
  unfold execDomainWake
  repeat' first
    | with_reducible first | refine Keeps.ite ?_ ?_ | refine KOut.ite ?_ ?_ | apply KOut.next | apply KOut.fault | apply KOut.refused | apply State.atTime_keeps | apply State.wake_keeps
    | (extract_lets +onlyGivenNames x; refine (fun (hx : Keeps q s0 x) => ?_) ?_; clear_value x; rotate_left; subst x)
    | (extract_lets +onlyGivenNames x; clear_value x)
    | with_reducible assumption

end Sys2Proof.Machine
end

