-- ==== Sys2Proof/Laws/KeepsRunAhead.lean ====
section
/-!
SUPPORT. What the operations of RunAhead.lean keep (`Keeps`).
-/

set_option linter.unusedSimpArgs false

namespace Sys2Proof.Machine

theorem State.deferSquash_keeps {q : Bool} {s0 s : State} {x1 x2}
    (h : Keeps q s0 s) : Keeps q s0 (State.deferSquash s x1 x2) := by
  unfold State.deferSquash
  repeat' first
    | with_reducible first | apply State.bump_keeps | apply State.setSlot_keeps
    | (extract_lets +onlyGivenNames x; refine (fun (hx : Keeps q s0 x) => ?_) ?_; clear_value x; rotate_left; subst x)
    | (extract_lets +onlyGivenNames x; clear_value x)
    | with_reducible assumption

theorem State.squash_keeps {s0 s : State} {x1 x2 x3}
    (h : Keeps false s0 s) : Keeps false s0 (State.squash s x1 x2 x3) := by
  unfold State.squash
  repeat' first
    | with_reducible first | refine Keeps.ite ?_ ?_ | refine Keeps.opt ?_ ?_ | apply State.bump_keeps | apply State.count_keeps | apply State.issueAll_keeps | apply State.setSlot_keeps | apply State.sweepStalls_keeps | apply State.trace_keeps
    | (intro _; try dsimp -zeta -iota -proj only)
    | (extract_lets +onlyGivenNames x; refine (fun (hx : Keeps false s0 x) => ?_) ?_; clear_value x; rotate_left; subst x)
    | (extract_lets +onlyGivenNames x; clear_value x)
    | simp -zeta only [↓Keeps.mk_iff]
    | with_reducible assumption
    | split

theorem State.squashAll_keeps {s0 s : State}
    (h : Keeps false s0 s) : Keeps false s0 (State.squashAll s) := by
  unfold State.squashAll
  repeat' first
    | with_reducible first | refine Keeps.ite ?_ ?_ | refine Keeps.opt ?_ ?_ | apply State.deferSquash_keeps | apply State.squash_keeps | refine Keeps.foldl _ ?_ ?_
    | (intro _; try dsimp -zeta -iota -proj only)
    | (extract_lets +onlyGivenNames x; refine (fun (hx : Keeps false s0 x) => ?_) ?_; clear_value x; rotate_left; subst x)
    | (extract_lets +onlyGivenNames x; clear_value x)
    | with_reducible assumption
    | split

theorem cmdGeoRaQuery_keeps {q : Bool} {s0 s : State} {x0}
    (h : Keeps q s0 s) : KRes q s0 (cmdGeoRaQuery x0 s) := by
  unfold cmdGeoRaQuery
  repeat' first
    | with_reducible first | refine Keeps.opt ?_ ?_ | refine KRes.opt ?_ ?_ | apply KRes.ok | apply KRes.fail | apply KRes.long | apply KRes.hold | apply KRes.done
    | (intro _; try dsimp -zeta -iota -proj only)
    | (extract_lets +onlyGivenNames x; refine (fun (hx : Keeps q s0 x) => ?_) ?_; clear_value x; rotate_left; subst x)
    | (extract_lets +onlyGivenNames x; clear_value x)
    | with_reducible assumption
    | split

theorem cmdGeoRaStats_keeps {q : Bool} {s0 s : State} {x0}
    (h : Keeps q s0 s) : KRes q s0 (cmdGeoRaStats x0 s) := by
  unfold cmdGeoRaStats
  repeat' first
    | with_reducible first | refine Keeps.opt ?_ ?_ | refine KRes.opt ?_ ?_ | refine KFst.opt ?_ ?_ | apply KRes.ok | apply KRes.fail | apply KRes.long | apply KRes.hold | apply KRes.done | apply State.takeCounters_keeps | apply KFst.st
    | (intro _; try dsimp -zeta -iota -proj only)
    | (extract_lets +onlyGivenNames x; refine (fun (hx : Keeps q s0 x) => ?_) ?_; clear_value x; rotate_left; subst x)
    | (extract_lets +onlyGivenNames x; refine (fun (hx : KFst q s0 x) => ?_) ?_; clear_value x; rotate_left; subst x)
    | (extract_lets +onlyGivenNames x; clear_value x)
    | simp -zeta only [↓KFst.pair_iff]
    | with_reducible assumption
    | with_reducible refine KFst.of_eq (by with_reducible assumption) ?_
    | with_reducible apply KFst.st
    | split

theorem State.startDma_keeps {q : Bool} {s0 s : State} {x1 x2}
    (h : Keeps q s0 s) : Keeps q s0 (State.startDma s x1 x2) := by
  unfold State.startDma
  repeat' first
    | with_reducible first | apply State.wr_keeps
    | (extract_lets +onlyGivenNames x; refine (fun (hx : Keeps q s0 x) => ?_) ?_; clear_value x; rotate_left; subst x)
    | (extract_lets +onlyGivenNames x; clear_value x)
    | simp -zeta only [↓Keeps.mk_iff]
    | with_reducible assumption

theorem State.startEval_keeps {q : Bool} {s0 s : State} {x1}
    (h : Keeps q s0 s) : Keeps q s0 (State.startEval s x1) := by
  unfold State.startEval
  repeat' first
    | with_reducible first | refine Keeps.ite ?_ ?_ | refine Keeps.opt ?_ ?_ | apply State.bump_keeps | apply State.irq_keeps | apply State.setSlot_keeps
    | (intro _; try dsimp -zeta -iota -proj only)
    | (extract_lets +onlyGivenNames x; refine (fun (hx : Keeps q s0 x) => ?_) ?_; clear_value x; rotate_left; subst x)
    | (extract_lets +onlyGivenNames x; clear_value x)
    | with_reducible assumption
    | split

theorem State.onStart_keeps {q : Bool} {s0 s : State} {x1 x2}
    (h : Keeps q s0 s) : Keeps q s0 (State.onStart s x1 x2) := by
  unfold State.onStart
  repeat' first
    | with_reducible first | refine Keeps.ite ?_ ?_ | apply State.startDma_keeps | apply State.startEval_keeps
    | (extract_lets +onlyGivenNames x; refine (fun (hx : Keeps q s0 x) => ?_) ?_; clear_value x; rotate_left; subst x)
    | (extract_lets +onlyGivenNames x; clear_value x)
    | with_reducible assumption

theorem State.mirrorOut_keeps {q : Bool} {s0 s : State} {x1 x2 x3 x4 x5}
    (h : Keeps q s0 s) : Keeps q s0 (State.mirrorOut s x1 x2 x3 x4 x5) := by
  unfold State.mirrorOut
  repeat' first
    | with_reducible first | apply State.tether_keeps | refine Keeps.foldl _ ?_ ?_
    | (intro _; try dsimp -zeta -iota -proj only)
    | (extract_lets +onlyGivenNames x; refine (fun (hx : Keeps q s0 x) => ?_) ?_; clear_value x; rotate_left; subst x)
    | (extract_lets +onlyGivenNames x; clear_value x)
    | with_reducible assumption

theorem State.sched_keeps {q : Bool} {s0 s : State} {x1 x2 x3}
    (h : Keeps q s0 s) : Keeps q s0 (State.sched s x1 x2 x3) := by
  unfold State.sched
  repeat' first
    | with_reducible first | refine Keeps.ite ?_ ?_ | apply State.tether_keeps
    | (extract_lets +onlyGivenNames x; refine (fun (hx : Keeps q s0 x) => ?_) ?_; clear_value x; rotate_left; subst x)
    | (extract_lets +onlyGivenNames x; clear_value x)
    | simp -zeta only [↓Keeps.mk_iff]
    | with_reducible assumption

theorem State.fillTickets_keeps {q : Bool} {s0 s : State} {x1}
    (h : Keeps q s0 s) : Keeps q s0 (State.fillTickets s x1) := by
  unfold State.fillTickets
  repeat' first
    | with_reducible first | refine Keeps.ite ?_ ?_ | refine Keeps.opt ?_ ?_ | apply State.issueAll_keeps
    | (intro _; try dsimp -zeta -iota -proj only)
    | (extract_lets +onlyGivenNames x; refine (fun (hx : Keeps q s0 x) => ?_) ?_; clear_value x; rotate_left; subst x)
    | (extract_lets +onlyGivenNames x; clear_value x)
    | with_reducible assumption
    | split

theorem State.applyRec_keeps {q : Bool} {s0 s : State} {x1 x2}
    (h : Keeps q s0 s) : Keeps q s0 (State.applyRec s x1 x2) := by
  unfold State.applyRec
  repeat' first
    | with_reducible first | refine Keeps.ite ?_ ?_ | refine Keeps.opt ?_ ?_ | apply State.record_keeps | apply State.setSlot_keeps | refine Keeps.foldl _ ?_ ?_
    | (intro _; try dsimp -zeta -iota -proj only)
    | (extract_lets +onlyGivenNames x; refine (fun (hx : Keeps q s0 x) => ?_) ?_; clear_value x; rotate_left; subst x)
    | (extract_lets +onlyGivenNames x; clear_value x)
    | with_reducible assumption
    | split

theorem State.applyDue_keeps {q : Bool} {s0 s : State} {x1}
    (h : Keeps q s0 s) : Keeps q s0 (State.applyDue s x1) := by
  unfold State.applyDue
  repeat' first
    | with_reducible first | refine Keeps.ite ?_ ?_ | refine Keeps.opt ?_ ?_ | apply State.applyRec_keeps | apply State.setSlot_keeps | refine Keeps.foldl _ ?_ ?_
    | (intro _; try dsimp -zeta -iota -proj only)
    | (extract_lets +onlyGivenNames x; refine (fun (hx : Keeps q s0 x) => ?_) ?_; clear_value x; rotate_left; subst x)
    | (extract_lets +onlyGivenNames x; clear_value x)
    | with_reducible assumption
    | split

theorem State.runDeferred_keeps {s0 s : State} {x1}
    (h : Keeps false s0 s) : Keeps false s0 (State.runDeferred s x1) := by
  unfold State.runDeferred
  repeat' first
    | with_reducible first | refine Keeps.ite ?_ ?_ | refine Keeps.opt ?_ ?_ | apply State.setSlot_keeps | apply State.squash_keeps
    | (intro _; try dsimp -zeta -iota -proj only)
    | (extract_lets +onlyGivenNames x; refine (fun (hx : Keeps false s0 x) => ?_) ?_; clear_value x; rotate_left; subst x)
    | (extract_lets +onlyGivenNames x; clear_value x)
    | with_reducible assumption
    | split

theorem State.afterPut_keeps {s0 s : State} {x1 x2 x3 x4}
    (h : Keeps false s0 s) : Keeps false s0 (State.afterPut s x1 x2 x3 x4) := by
  unfold State.afterPut
  repeat' first
    | with_reducible first | refine Keeps.ite ?_ ?_ | apply State.fillTickets_keeps | apply State.squash_keeps
    | (extract_lets +onlyGivenNames x; refine (fun (hx : Keeps false s0 x) => ?_) ?_; clear_value x; rotate_left; subst x)
    | (extract_lets +onlyGivenNames x; clear_value x)
    | with_reducible assumption

theorem State.countGone_keeps {q : Bool} {s0 s : State} {x1}
    (h : Keeps q s0 s) : Keeps q s0 (State.countGone s x1) := by
  unfold State.countGone
  repeat' first
    | with_reducible first | refine Keeps.ite ?_ ?_ | apply State.count_keeps | apply State.irq_keeps
    | (extract_lets +onlyGivenNames x; refine (fun (hx : Keeps q s0 x) => ?_) ?_; clear_value x; rotate_left; subst x)
    | (extract_lets +onlyGivenNames x; clear_value x)
    | with_reducible assumption

theorem State.judge_keeps {q : Bool} {s0 s : State} {x1 x2 x3 x4}
    (h : Keeps q s0 s) : KFst q s0 (State.judge s x1 x2 x3 x4) := by
  unfold State.judge
  repeat' first
    | with_reducible first | refine Keeps.ite ?_ ?_ | refine KFst.ite ?_ ?_ | apply State.bump_keeps | apply State.deferSquash_keeps | apply KFst.st
    | (extract_lets +onlyGivenNames x; refine (fun (hx : Keeps q s0 x) => ?_) ?_; clear_value x; rotate_left; subst x)
    | (extract_lets +onlyGivenNames x; refine (fun (hx : KFst q s0 x) => ?_) ?_; clear_value x; rotate_left; subst x)
    | (extract_lets +onlyGivenNames x; clear_value x)
    | simp -zeta only [↓KFst.pair_iff]
    | with_reducible assumption
    | with_reducible refine KFst.of_eq (by with_reducible assumption) ?_
    | with_reducible apply KFst.st

theorem State.accept_keeps {s0 s : State} {x1 x2 x3 x4 x5 x6}
    (h : Keeps false s0 s) : Keeps false s0 (State.accept s x1 x2 x3 x4 x5 x6) := by
  unfold State.accept
  repeat' first
    | with_reducible first | refine Keeps.ite ?_ ?_ | refine Keeps.opt ?_ ?_ | refine KFst.ite ?_ ?_ | refine KFst.opt ?_ ?_ | apply State.afterPut_keeps | apply State.bump_keeps | apply State.countGone_keeps | apply State.irq_keeps | apply State.judge_keeps | apply State.sched_keeps | apply State.setSlot_keeps | apply KFst.st
    | (intro _; try dsimp -zeta -iota -proj only)
    | (extract_lets +onlyGivenNames x; refine (fun (hx : Keeps false s0 x) => ?_) ?_; clear_value x; rotate_left; subst x)
    | (extract_lets +onlyGivenNames x; refine (fun (hx : KFst false s0 x) => ?_) ?_; clear_value x; rotate_left; subst x)
    | (extract_lets +onlyGivenNames x; clear_value x)
    | simp -zeta only [↓KFst.pair_iff]
    | with_reducible assumption
    | with_reducible refine KFst.of_eq (by with_reducible assumption) ?_
    | with_reducible apply KFst.st
    | split

theorem State.geoDone_keeps {s0 s : State} {x1}
    (h : Keeps false s0 s) : Keeps false s0 (State.geoDone s x1) := by
  unfold State.geoDone
  repeat' first
    | with_reducible first | refine Keeps.ite ?_ ?_ | refine Keeps.opt ?_ ?_ | apply State.bump_keeps | apply State.busWrite_keeps | apply State.finishTicket_keeps | apply State.onStart_keeps | apply State.setSlot_keeps | apply State.startNext_keeps
    | (intro _; try dsimp -zeta -iota -proj only)
    | (extract_lets +onlyGivenNames x; refine (fun (hx : Keeps false s0 x) => ?_) ?_; clear_value x; rotate_left; subst x)
    | (extract_lets +onlyGivenNames x; clear_value x)
    | with_reducible assumption
    | split

theorem execGeoRaStats_keeps {q : Bool} {s0 s : State} {x0}
    (h : Keeps q s0 s) : KOut q s0 (execGeoRaStats x0 s) :=
  runPacket_keeps h (fun _ => cmdGeoRaStats_keeps)

theorem State.recordBinds_keeps {q : Bool} {s0 s : State} {x1}
    (h : Keeps q s0 s) : Keeps q s0 (State.recordBinds s x1) := by
  unfold State.recordBinds
  repeat' first
    | with_reducible first | refine Keeps.opt ?_ ?_ | apply State.record_keeps | refine Keeps.foldl _ ?_ ?_
    | (intro _; try dsimp -zeta -iota -proj only)
    | (extract_lets +onlyGivenNames x; refine (fun (hx : Keeps q s0 x) => ?_) ?_; clear_value x; rotate_left; subst x)
    | (extract_lets +onlyGivenNames x; clear_value x)
    | with_reducible assumption
    | split

theorem execStallFill_keeps {s0 s : State} {x0 x1}
    (h : Keeps false s0 s) : KOut false s0 (execStallFill x0 x1 s) := by
  unfold execStallFill
  repeat' first
    | with_reducible first | apply KOut.next | apply KOut.fault | apply KOut.refused | apply State.atTime_keeps | apply State.fill_keeps | apply State.onStart_keeps
    | (intro _; try dsimp -zeta -iota -proj only)
    | (extract_lets +onlyGivenNames x; refine (fun (hx : Keeps false s0 x) => ?_) ?_; clear_value x; rotate_left; subst x)
    | (extract_lets +onlyGivenNames x; clear_value x)
    | with_reducible assumption

theorem execGlideEnd_keeps {q : Bool} {s0 s : State} {x0 x1}
    (h : Keeps q s0 s) : KOut q s0 (execGlideEnd x0 x1 s) := by
  unfold execGlideEnd
  repeat' first
    | with_reducible first | refine Keeps.ite ?_ ?_ | refine Keeps.opt ?_ ?_ | refine KOut.ite ?_ ?_ | refine KOut.opt ?_ ?_ | apply KOut.next | apply KOut.fault | apply KOut.refused | apply State.atTime_keeps | apply State.setSlot_keeps
    | (intro _; try dsimp -zeta -iota -proj only)
    | (extract_lets +onlyGivenNames x; refine (fun (hx : Keeps q s0 x) => ?_) ?_; clear_value x; rotate_left; subst x)
    | (extract_lets +onlyGivenNames x; clear_value x)
    | with_reducible assumption
    | split

theorem State.edgeTicket_keeps {q : Bool} {s0 s : State} {x1}
    (h : Keeps q s0 s) : Keeps q s0 (State.edgeTicket s x1) := by
  unfold State.edgeTicket
  repeat' first
    | with_reducible first | refine Keeps.ite ?_ ?_ | refine Keeps.opt ?_ ?_ | apply State.issue_keeps
    | (intro _; try dsimp -zeta -iota -proj only)
    | (extract_lets +onlyGivenNames x; refine (fun (hx : Keeps q s0 x) => ?_) ?_; clear_value x; rotate_left; subst x)
    | (extract_lets +onlyGivenNames x; clear_value x)
    | with_reducible assumption
    | split

theorem execGeoRaQuery_keeps {q : Bool} {s0 s : State} {x0}
    (h : Keeps q s0 s) : KOut q s0 (execGeoRaQuery x0 s) :=
  runPacket_keeps h (fun _ => cmdGeoRaQuery_keeps)

end Sys2Proof.Machine
end

