-- ==== Sys2Proof/Laws/KeepsOutput.lean ====
section
/-!
SUPPORT. What the operations of Output.lean keep (`Keeps`).
-/

set_option linter.unusedSimpArgs false

namespace Sys2Proof.Machine

theorem State.putEq_keeps {q : Bool} {s0 s : State} {x1 x2 x3}
    (h : Keeps q s0 s) : Keeps q s0 (State.putEq s x1 x2 x3) := by
  unfold State.putEq
  repeat' first
    | with_reducible first | refine Keeps.opt ?_ ?_
    | (intro _; try dsimp -zeta -iota -proj only)
    | (extract_lets +onlyGivenNames x; refine (fun (hx : Keeps q s0 x) => ?_) ?_; clear_value x; rotate_left; subst x)
    | (extract_lets +onlyGivenNames x; clear_value x)
    | simp -zeta only [↓Keeps.mk_iff]
    | with_reducible assumption
    | split

theorem cmdOutEqBy_keeps {q : Bool} {s0 s : State} {x0 x1}
    (h : Keeps q s0 s) : KRes q s0 (cmdOutEqBy x0 x1 s) := by
  unfold cmdOutEqBy
  repeat' first
    | with_reducible first | refine Keeps.ite ?_ ?_ | refine KRes.ite ?_ ?_ | apply KRes.ok | apply KRes.fail | apply KRes.long | apply KRes.hold | apply KRes.done | apply State.putEq_keeps | refine Keeps.forRange _ _ ?_ ?_
    | (intro _; try dsimp -zeta -iota -proj only)
    | (extract_lets +onlyGivenNames x; refine (fun (hx : Keeps q s0 x) => ?_) ?_; clear_value x; rotate_left; subst x)
    | (extract_lets +onlyGivenNames x; clear_value x)
    | with_reducible assumption

theorem cmdOutEqSet_keeps {q : Bool} {s0 s : State} {x0}
    (h : Keeps q s0 s) : KRes q s0 (cmdOutEqSet x0 s) := by
  unfold cmdOutEqSet
  repeat' first
    | with_reducible first | apply KRes.ok | apply KRes.fail | apply KRes.long | apply KRes.hold | apply KRes.done | apply cmdOutEqBy_keeps
    | (extract_lets +onlyGivenNames x; refine (fun (hx : Keeps q s0 x) => ?_) ?_; clear_value x; rotate_left; subst x)
    | (extract_lets +onlyGivenNames x; clear_value x)
    | with_reducible assumption

theorem State.eachOut_keeps {q : Bool} {s0 s : State} {x1 x2}
    (h : Keeps q s0 s)
    (h2 : ∀ a0 a1, Keeps q s0 a1 → Keeps q s0 (x2 a0 a1)) : Keeps q s0 (State.eachOut s x1 x2) := by
  unfold State.eachOut
  repeat' first
    | with_reducible first | refine Keeps.ite ?_ ?_ | apply h2 | refine Keeps.forRange _ _ ?_ ?_
    | (intro _; try dsimp -zeta -iota -proj only)
    | (extract_lets +onlyGivenNames x; refine (fun (hx : Keeps q s0 x) => ?_) ?_; clear_value x; rotate_left; subst x)
    | (extract_lets +onlyGivenNames x; clear_value x)
    | with_reducible assumption

theorem State.setHint_keeps {q : Bool} {s0 s : State} {x1}
    (h : Keeps q s0 s) : Keeps q s0 (State.setHint s x1) := by
  unfold State.setHint
  repeat' first
    | with_reducible first | refine Keeps.ite ?_ ?_ | apply State.irq_keeps | apply State.setFlag_keeps
    | (extract_lets +onlyGivenNames x; refine (fun (hx : Keeps q s0 x) => ?_) ?_; clear_value x; rotate_left; subst x)
    | (extract_lets +onlyGivenNames x; clear_value x)
    | with_reducible assumption

theorem State.refreshHint_keeps {q : Bool} {s0 s : State}
    (h : Keeps q s0 s) : Keeps q s0 (State.refreshHint s) := by
  unfold State.refreshHint
  repeat' first
    | with_reducible first | apply State.setHint_keeps
    | (extract_lets +onlyGivenNames x; refine (fun (hx : Keeps q s0 x) => ?_) ?_; clear_value x; rotate_left; subst x)
    | (extract_lets +onlyGivenNames x; clear_value x)
    | with_reducible assumption

theorem cmdOutAlignSet_keeps {q : Bool} {s0 s : State} {x0}
    (h : Keeps q s0 s) : KRes q s0 (cmdOutAlignSet x0 s) := by
  unfold cmdOutAlignSet
  repeat' first
    | with_reducible first | refine Keeps.ite ?_ ?_ | refine KRes.ite ?_ ?_ | apply KRes.ok | apply KRes.fail | apply KRes.long | apply KRes.hold | apply KRes.done | apply State.eachOut_keeps | apply State.wr_keeps
    | (intro _; try dsimp -zeta -iota -proj only)
    | (extract_lets +onlyGivenNames x; refine (fun (hx : Keeps q s0 x) => ?_) ?_; clear_value x; rotate_left; subst x)
    | (extract_lets +onlyGivenNames x; clear_value x)
    | with_reducible assumption

theorem cmdOutAmpSet_keeps {q : Bool} {s0 s : State} {x0}
    (h : Keeps q s0 s) : KRes q s0 (cmdOutAmpSet x0 s) := by
  unfold cmdOutAmpSet
  repeat' first
    | with_reducible first | refine Keeps.ite ?_ ?_ | refine KRes.ite ?_ ?_ | apply KRes.ok | apply KRes.fail | apply KRes.long | apply KRes.hold | apply KRes.done | apply State.wr_keeps
    | (extract_lets +onlyGivenNames x; refine (fun (hx : Keeps q s0 x) => ?_) ?_; clear_value x; rotate_left; subst x)
    | (extract_lets +onlyGivenNames x; clear_value x)
    | with_reducible assumption

theorem cmdOutBmSet_keeps {q : Bool} {s0 s : State} {x0}
    (h : Keeps q s0 s) : KRes q s0 (cmdOutBmSet x0 s) := by
  unfold cmdOutBmSet
  repeat' first
    | with_reducible first | refine Keeps.ite ?_ ?_ | refine KRes.ite ?_ ?_ | apply KRes.ok | apply KRes.fail | apply KRes.long | apply KRes.hold | apply KRes.done | apply State.wr_keeps
    | (extract_lets +onlyGivenNames x; refine (fun (hx : Keeps q s0 x) => ?_) ?_; clear_value x; rotate_left; subst x)
    | (extract_lets +onlyGivenNames x; clear_value x)
    | with_reducible assumption

theorem State.silBit_keeps {q : Bool} {s0 s : State} {x1 x2}
    (h : Keeps q s0 s) : Keeps q s0 (State.silBit s x1 x2) := by
  unfold State.silBit
  repeat' first
    | with_reducible first | apply State.wr_keeps
    | (extract_lets +onlyGivenNames x; refine (fun (hx : Keeps q s0 x) => ?_) ?_; clear_value x; rotate_left; subst x)
    | (extract_lets +onlyGivenNames x; clear_value x)
    | with_reducible assumption

theorem State.outRemove_keeps {s0 s : State} {x1}
    (h : Keeps false s0 s) : Keeps false s0 (State.outRemove s x1) := by
  unfold State.outRemove
  repeat' first
    | with_reducible first | refine Keeps.opt ?_ ?_ | apply State.refreshHint_keeps | apply State.setReg_keeps | apply State.silBit_keeps | apply State.squashAll_keeps | apply State.unreserve_keeps | refine Keeps.foldl _ ?_ ?_
    | (intro _; try dsimp -zeta -iota -proj only)
    | (extract_lets +onlyGivenNames x; refine (fun (hx : Keeps false s0 x) => ?_) ?_; clear_value x; rotate_left; subst x)
    | (extract_lets +onlyGivenNames x; clear_value x)
    | simp -zeta only [↓Keeps.mk_iff]
    | with_reducible assumption
    | split

theorem cmdOutConfig_keeps {s0 s : State} {x0}
    (h : Keeps false s0 s) : KRes false s0 (cmdOutConfig x0 s) := by
  unfold cmdOutConfig
  repeat' first
    | with_reducible first | refine Keeps.ite ?_ ?_ | refine KRes.ite ?_ ?_ | apply KRes.ok | apply KRes.fail | apply KRes.long | apply KRes.hold | apply KRes.done | apply State.outRemove_keeps | apply State.refreshHint_keeps | apply State.reply_keeps | apply State.reserve_keeps | apply State.squashAll_keeps | apply State.wr_keeps
    | (extract_lets +onlyGivenNames x; refine (fun (hx : Keeps false s0 x) => ?_) ?_; clear_value x; rotate_left; subst x)
    | (extract_lets +onlyGivenNames x; clear_value x)
    | with_reducible assumption

theorem cmdOutEqQuery_keeps {q : Bool} {s0 s : State} {x0}
    (h : Keeps q s0 s) : KRes q s0 (cmdOutEqQuery x0 s) := by
  unfold cmdOutEqQuery
  repeat' first
    | with_reducible first | refine Keeps.ite ?_ ?_ | refine KRes.ite ?_ ?_ | apply KRes.ok | apply KRes.fail | apply KRes.long | apply KRes.hold | apply KRes.done
    | (extract_lets +onlyGivenNames x; refine (fun (hx : Keeps q s0 x) => ?_) ?_; clear_value x; rotate_left; subst x)
    | (extract_lets +onlyGivenNames x; clear_value x)
    | with_reducible assumption

theorem cmdOutGainSet_keeps {q : Bool} {s0 s : State} {x0}
    (h : Keeps q s0 s) : KRes q s0 (cmdOutGainSet x0 s) := by
  unfold cmdOutGainSet
  repeat' first
    | with_reducible first | refine Keeps.ite ?_ ?_ | refine KRes.ite ?_ ?_ | apply KRes.ok | apply KRes.fail | apply KRes.long | apply KRes.hold | apply KRes.done | apply State.eachOut_keeps | apply State.setFld_keeps
    | (intro _; try dsimp -zeta -iota -proj only)
    | (extract_lets +onlyGivenNames x; refine (fun (hx : Keeps q s0 x) => ?_) ?_; clear_value x; rotate_left; subst x)
    | (extract_lets +onlyGivenNames x; clear_value x)
    | with_reducible assumption

theorem cmdOutLimSet_keeps {q : Bool} {s0 s : State} {x0}
    (h : Keeps q s0 s) : KRes q s0 (cmdOutLimSet x0 s) := by
  unfold cmdOutLimSet
  repeat' first
    | with_reducible first | refine Keeps.ite ?_ ?_ | refine KRes.ite ?_ ?_ | apply KRes.ok | apply KRes.fail | apply KRes.long | apply KRes.hold | apply KRes.done | apply State.eachOut_keeps | apply State.wr_keeps
    | (intro _; try dsimp -zeta -iota -proj only)
    | (extract_lets +onlyGivenNames x; refine (fun (hx : Keeps q s0 x) => ?_) ?_; clear_value x; rotate_left; subst x)
    | (extract_lets +onlyGivenNames x; clear_value x)
    | with_reducible assumption

theorem State.setChain_keeps {q : Bool} {s0 s : State} {x1 x2}
    (h : Keeps q s0 s) : Keeps q s0 (State.setChain s x1 x2) := by
  unfold State.setChain
  repeat' first
    | (extract_lets +onlyGivenNames x; refine (fun (hx : Keeps q s0 x) => ?_) ?_; clear_value x; rotate_left; subst x)
    | (extract_lets +onlyGivenNames x; clear_value x)
    | simp -zeta only [↓Keeps.mk_iff]
    | with_reducible assumption

theorem State.latchMon_keeps {q : Bool} {s0 s : State} {x1}
    (h : Keeps q s0 s) : Keeps q s0 (State.latchMon s x1) := by
  unfold State.latchMon
  repeat' first
    | with_reducible first | refine Keeps.opt ?_ ?_ | apply State.setChain_keeps | apply State.wr_keeps
    | (intro _; try dsimp -zeta -iota -proj only)
    | (extract_lets +onlyGivenNames x; refine (fun (hx : Keeps q s0 x) => ?_) ?_; clear_value x; rotate_left; subst x)
    | (extract_lets +onlyGivenNames x; clear_value x)
    | with_reducible assumption
    | split

theorem cmdOutQuery_keeps {q : Bool} {s0 s : State} {x0}
    (h : Keeps q s0 s) : KRes q s0 (cmdOutQuery x0 s) := by
  unfold cmdOutQuery
  repeat' first
    | with_reducible first | refine Keeps.ite ?_ ?_ | refine KRes.ite ?_ ?_ | apply KRes.ok | apply KRes.fail | apply KRes.long | apply KRes.hold | apply KRes.done | apply State.latchMon_keeps
    | (extract_lets +onlyGivenNames x; refine (fun (hx : Keeps q s0 x) => ?_) ?_; clear_value x; rotate_left; subst x)
    | (extract_lets +onlyGivenNames x; clear_value x)
    | with_reducible assumption

theorem cmdOutSilSet_keeps {q : Bool} {s0 s : State} {x0}
    (h : Keeps q s0 s) : KRes q s0 (cmdOutSilSet x0 s) := by
  unfold cmdOutSilSet
  repeat' first
    | with_reducible first | refine Keeps.ite ?_ ?_ | refine KRes.ite ?_ ?_ | apply KRes.ok | apply KRes.fail | apply KRes.long | apply KRes.hold | apply KRes.done | apply State.eachOut_keeps | apply State.wr_keeps
    | (intro _; try dsimp -zeta -iota -proj only)
    | (extract_lets +onlyGivenNames x; refine (fun (hx : Keeps q s0 x) => ?_) ?_; clear_value x; rotate_left; subst x)
    | (extract_lets +onlyGivenNames x; clear_value x)
    | with_reducible assumption

theorem cmdOutStats_keeps {q : Bool} {s0 s : State} {x0}
    (h : Keeps q s0 s) : KRes q s0 (cmdOutStats x0 s) := by
  unfold cmdOutStats
  repeat' first
    | with_reducible first | refine Keeps.opt ?_ ?_ | refine KRes.opt ?_ ?_ | refine KFst.opt ?_ ?_ | apply KRes.ok | apply KRes.fail | apply KRes.long | apply KRes.hold | apply KRes.done | apply State.takeCounters_keeps | apply KFst.st
    | (intro _; try dsimp -zeta -iota -proj only)
    | (extract_lets +onlyGivenNames x; refine (fun (hx : Keeps q s0 x) => ?_) ?_; clear_value x; rotate_left; subst x)
    | (extract_lets +onlyGivenNames x; refine (fun (hx : KFst q s0 x) => ?_) ?_; clear_value x; rotate_left; subst x)
    | (extract_lets +onlyGivenNames x; clear_value x)
    | simp -zeta only [↓KFst.pair_iff]
    | with_reducible assumption
    | with_reducible refine KFst.of_eq (by with_reducible assumption) ?_
    | with_reducible apply KFst.st
    | split

theorem State.outSat_keeps {q : Bool} {s0 s : State} {x1}
    (h : Keeps q s0 s) : Keeps q s0 (State.outSat s x1) := by
  unfold State.outSat
  repeat' first
    | with_reducible first | refine Keeps.ite ?_ ?_ | apply State.count_keeps | apply State.irq_keeps
    | (extract_lets +onlyGivenNames x; refine (fun (hx : Keeps q s0 x) => ?_) ?_; clear_value x; rotate_left; subst x)
    | (extract_lets +onlyGivenNames x; clear_value x)
    | with_reducible assumption

theorem execOutQuery_keeps {q : Bool} {s0 s : State} {x0}
    (h : Keeps q s0 s) : KOut q s0 (execOutQuery x0 s) :=
  runPacket_keeps h (fun _ => cmdOutQuery_keeps)

theorem State.addProbe_keeps {q : Bool} {s0 s : State} {x1 x2 x3}
    (h : Keeps q s0 s) : KFst q s0 (State.addProbe s x1 x2 x3) := by
  unfold State.addProbe
  repeat' first
    | with_reducible first | refine Keeps.ite ?_ ?_ | refine KFst.ite ?_ ?_ | apply State.bump_keeps | apply KFst.st
    | (extract_lets +onlyGivenNames x; refine (fun (hx : Keeps q s0 x) => ?_) ?_; clear_value x; rotate_left; subst x)
    | (extract_lets +onlyGivenNames x; refine (fun (hx : KFst q s0 x) => ?_) ?_; clear_value x; rotate_left; subst x)
    | (extract_lets +onlyGivenNames x; clear_value x)
    | simp -zeta only [↓Keeps.mk_iff, ↓KFst.pair_iff]
    | with_reducible assumption
    | with_reducible refine KFst.of_eq (by with_reducible assumption) ?_
    | with_reducible apply KFst.st

theorem State.phaseB_keeps {q : Bool} {s0 s : State} {x1 x2}
    (h : Keeps q s0 s) : Keeps q s0 (State.phaseB s x1 x2) := by
  unfold State.phaseB
  repeat' first
    | with_reducible first | refine Keeps.ite ?_ ?_ | refine Keeps.opt ?_ ?_ | refine KFst.ite ?_ ?_ | refine KFst.opt ?_ ?_ | apply State.addProbe_keeps | apply State.bump_keeps | apply State.irq_keeps | apply State.outSat_keeps | apply State.setChain_keeps | refine Keeps.foldl _ ?_ ?_ | refine KFst.foldl _ ?_ ?_ | apply KFst.st
    | (intro _; try dsimp -zeta -iota -proj only)
    | (extract_lets +onlyGivenNames x; refine (fun (hx : Keeps q s0 x) => ?_) ?_; clear_value x; rotate_left; subst x)
    | (extract_lets +onlyGivenNames x; refine (fun (hx : KFst q s0 x) => ?_) ?_; clear_value x; rotate_left; subst x)
    | (extract_lets +onlyGivenNames x; clear_value x)
    | simp -zeta only [↓KFst.pair_iff]
    | with_reducible assumption
    | with_reducible refine KFst.of_eq (by with_reducible assumption) ?_
    | with_reducible apply KFst.st
    | split

theorem execOutPhaseBDone_keeps {s0 s : State} {x0 x1}
    (h : Keeps false s0 s) : KOut false s0 (execOutPhaseBDone x0 x1 s) := by
  unfold execOutPhaseBDone
  repeat' first
    | with_reducible first | refine Keeps.ite ?_ ?_ | refine Keeps.opt ?_ ?_ | refine KOut.ite ?_ ?_ | refine KOut.opt ?_ ?_ | apply KOut.next | apply KOut.fault | apply KOut.refused | apply State.atTime_keeps | apply State.finishTicket_keeps | apply State.onStart_keeps | apply State.phaseB_keeps | apply State.startNext_keeps | refine Keeps.foldl _ ?_ ?_
    | (intro _; try dsimp -zeta -iota -proj only)
    | (extract_lets +onlyGivenNames x; refine (fun (hx : Keeps false s0 x) => ?_) ?_; clear_value x; rotate_left; subst x)
    | (extract_lets +onlyGivenNames x; clear_value x)
    | with_reducible assumption
    | split

theorem State.eqCount_keeps {q : Bool} {s0 s : State}
    (h : Keeps q s0 s) : Keeps q s0 (State.eqCount s) := by
  unfold State.eqCount
  repeat' first
    | with_reducible first | apply State.count_keeps
    | (extract_lets +onlyGivenNames x; refine (fun (hx : Keeps q s0 x) => ?_) ?_; clear_value x; rotate_left; subst x)
    | (extract_lets +onlyGivenNames x; clear_value x)
    | with_reducible assumption

theorem State.silExit_keeps {q : Bool} {s0 s : State} {x1 x2}
    (h : Keeps q s0 s) : Keeps q s0 (State.silExit s x1 x2) := by
  unfold State.silExit
  repeat' first
    | with_reducible first | refine Keeps.ite ?_ ?_ | apply State.bump_keeps | apply State.irq_keeps | apply State.refreshHint_keeps | apply State.setChain_keeps | apply State.silBit_keeps
    | (extract_lets +onlyGivenNames x; refine (fun (hx : Keeps q s0 x) => ?_) ?_; clear_value x; rotate_left; subst x)
    | (extract_lets +onlyGivenNames x; clear_value x)
    | with_reducible assumption

theorem State.silFolio_keeps {q : Bool} {s0 s : State} {x1 x2 x3}
    (h : Keeps q s0 s) : Keeps q s0 (State.silFolio s x1 x2 x3) := by
  unfold State.silFolio
  repeat' first
    | with_reducible first | refine Keeps.ite ?_ ?_ | apply State.setChain_keeps | apply State.silExit_keeps
    | (extract_lets +onlyGivenNames x; refine (fun (hx : Keeps q s0 x) => ?_) ?_; clear_value x; rotate_left; subst x)
    | (extract_lets +onlyGivenNames x; clear_value x)
    | with_reducible assumption

theorem State.chainsCommit_keeps {q : Bool} {s0 s : State} {x1}
    (h : Keeps q s0 s) : Keeps q s0 (State.chainsCommit s x1) := by
  unfold State.chainsCommit
  repeat' first
    | with_reducible first | apply State.eqCount_keeps | apply State.silFolio_keeps | refine Keeps.foldl _ ?_ ?_
    | (intro _; try dsimp -zeta -iota -proj only)
    | (extract_lets +onlyGivenNames x; refine (fun (hx : Keeps q s0 x) => ?_) ?_; clear_value x; rotate_left; subst x)
    | (extract_lets +onlyGivenNames x; clear_value x)
    | simp -zeta only [↓Keeps.mk_iff]
    | with_reducible assumption

theorem State.chainsMiss_keeps {q : Bool} {s0 s : State} {x1}
    (h : Keeps q s0 s) : Keeps q s0 (State.chainsMiss s x1) := by
  unfold State.chainsMiss
  repeat' first
    | with_reducible first | apply State.setChain_keeps | apply State.silFolio_keeps | refine Keeps.foldl _ ?_ ?_
    | (intro _; try dsimp -zeta -iota -proj only)
    | (extract_lets +onlyGivenNames x; refine (fun (hx : Keeps q s0 x) => ?_) ?_; clear_value x; rotate_left; subst x)
    | (extract_lets +onlyGivenNames x; clear_value x)
    | simp -zeta only [↓Keeps.mk_iff]
    | with_reducible assumption

theorem State.silRestart_keeps {q : Bool} {s0 s : State}
    (h : Keeps q s0 s) : Keeps q s0 (State.silRestart s) := by
  unfold State.silRestart
  repeat' first
    | with_reducible first | apply State.silExit_keeps | refine Keeps.foldl _ ?_ ?_
    | (intro _; try dsimp -zeta -iota -proj only)
    | (extract_lets +onlyGivenNames x; refine (fun (hx : Keeps q s0 x) => ?_) ?_; clear_value x; rotate_left; subst x)
    | (extract_lets +onlyGivenNames x; clear_value x)
    | with_reducible assumption

theorem execOutEqQuery_keeps {q : Bool} {s0 s : State} {x0}
    (h : Keeps q s0 s) : KOut q s0 (execOutEqQuery x0 s) :=
  runPacket_keeps h (fun _ => cmdOutEqQuery_keeps)

theorem State.eqFinish_keeps {q : Bool} {s0 s : State} {x1 x2}
    (h : Keeps q s0 s) : Keeps q s0 (State.eqFinish s x1 x2) := by
  unfold State.eqFinish
  repeat' first
    | with_reducible first | refine Keeps.ite ?_ ?_ | refine Keeps.opt ?_ ?_ | apply State.bump_keeps | apply State.setChain_keeps
    | (intro _; try dsimp -zeta -iota -proj only)
    | (extract_lets +onlyGivenNames x; refine (fun (hx : Keeps q s0 x) => ?_) ?_; clear_value x; rotate_left; subst x)
    | (extract_lets +onlyGivenNames x; clear_value x)
    | with_reducible assumption
    | split

theorem execOutConfig_keeps {s0 s : State} {x0}
    (h : Keeps false s0 s) : KOut false s0 (execOutConfig x0 s) :=
  runPacket_keeps h (fun _ => cmdOutConfig_keeps)

theorem execOutAmpSet_keeps {q : Bool} {s0 s : State} {x0}
    (h : Keeps q s0 s) : KOut q s0 (execOutAmpSet x0 s) :=
  runPacket_keeps h (fun _ => cmdOutAmpSet_keeps)

theorem execOutBmSet_keeps {q : Bool} {s0 s : State} {x0}
    (h : Keeps q s0 s) : KOut q s0 (execOutBmSet x0 s) :=
  runPacket_keeps h (fun _ => cmdOutBmSet_keeps)

theorem execOutSilSet_keeps {q : Bool} {s0 s : State} {x0}
    (h : Keeps q s0 s) : KOut q s0 (execOutSilSet x0 s) :=
  runPacket_keeps h (fun _ => cmdOutSilSet_keeps)

theorem execOutAlignSet_keeps {q : Bool} {s0 s : State} {x0}
    (h : Keeps q s0 s) : KOut q s0 (execOutAlignSet x0 s) :=
  runPacket_keeps h (fun _ => cmdOutAlignSet_keeps)

theorem execOutStats_keeps {q : Bool} {s0 s : State} {x0}
    (h : Keeps q s0 s) : KOut q s0 (execOutStats x0 s) :=
  runPacket_keeps h (fun _ => cmdOutStats_keeps)

theorem execOutMonSel_keeps {q : Bool} {s0 s : State} {x0 x1}
    (h : Keeps q s0 s) : KOut q s0 (execOutMonSel x0 x1 s) := by
  unfold execOutMonSel
  repeat' first
    | with_reducible first | apply KOut.next | apply KOut.fault | apply KOut.refused | apply State.atTime_keeps | apply State.latchMon_keeps
    | (extract_lets +onlyGivenNames x; refine (fun (hx : Keeps q s0 x) => ?_) ?_; clear_value x; rotate_left; subst x)
    | (extract_lets +onlyGivenNames x; clear_value x)
    | with_reducible assumption

theorem execOutLimSet_keeps {q : Bool} {s0 s : State} {x0}
    (h : Keeps q s0 s) : KOut q s0 (execOutLimSet x0 s) :=
  runPacket_keeps h (fun _ => cmdOutLimSet_keeps)

theorem State.bmPrepare_keeps {q : Bool} {s0 s : State} {x1}
    (h : Keeps q s0 s) : Keeps q s0 (State.bmPrepare s x1) := by
  unfold State.bmPrepare
  repeat' first
    | with_reducible first | refine Keeps.ite ?_ ?_ | apply State.outSat_keeps
    | (extract_lets +onlyGivenNames x; refine (fun (hx : Keeps q s0 x) => ?_) ?_; clear_value x; rotate_left; subst x)
    | (extract_lets +onlyGivenNames x; clear_value x)
    | simp -zeta only [↓Keeps.mk_iff]
    | with_reducible assumption

theorem State.phaseA_keeps {q : Bool} {s0 s : State} {x1 x2 x3}
    (h : Keeps q s0 s) : Keeps q s0 (State.phaseA s x1 x2 x3) := by
  unfold State.phaseA
  repeat' first
    | with_reducible first | refine Keeps.ite ?_ ?_ | refine Keeps.opt ?_ ?_ | apply State.outSat_keeps | apply State.setChain_keeps
    | (intro _; try dsimp -zeta -iota -proj only)
    | (extract_lets +onlyGivenNames x; refine (fun (hx : Keeps q s0 x) => ?_) ?_; clear_value x; rotate_left; subst x)
    | (extract_lets +onlyGivenNames x; clear_value x)
    | with_reducible assumption
    | split

theorem execOutPhaseADone_keeps {s0 s : State} {x0 x1}
    (h : Keeps false s0 s) : KOut false s0 (execOutPhaseADone x0 x1 s) := by
  unfold execOutPhaseADone
  repeat' first
    | with_reducible first | refine Keeps.ite ?_ ?_ | refine Keeps.opt ?_ ?_ | refine KOut.ite ?_ ?_ | refine KOut.opt ?_ ?_ | apply KOut.next | apply KOut.fault | apply KOut.refused | apply State.atTime_keeps | apply State.bmPrepare_keeps | apply State.finishTicket_keeps | apply State.issue_keeps | apply State.onStart_keeps | apply State.phaseA_keeps | apply State.startNext_keeps | refine Keeps.foldl _ ?_ ?_
    | (intro _; try dsimp -zeta -iota -proj only)
    | (extract_lets +onlyGivenNames x; refine (fun (hx : Keeps false s0 x) => ?_) ?_; clear_value x; rotate_left; subst x)
    | (extract_lets +onlyGivenNames x; clear_value x)
    | with_reducible assumption
    | split

theorem execOutDeconfig_keeps {s0 s : State} {x0}
    (h : Keeps false s0 s) : KOut false s0 (execOutDeconfig x0 s) :=
  runPacket_keeps h (fun _ => cmdOutConfig_keeps)

theorem execOutEqSet_keeps {q : Bool} {s0 s : State} {x0}
    (h : Keeps q s0 s) : KOut q s0 (execOutEqSet x0 s) :=
  runPacket_keeps h (fun _ => cmdOutEqSet_keeps)

theorem execEqCrossfadeEnd_keeps {q : Bool} {s0 s : State} {x0 x1 x2}
    (h : Keeps q s0 s) : KOut q s0 (execEqCrossfadeEnd x0 x1 x2 s) := by
  unfold execEqCrossfadeEnd
  repeat' first
    | with_reducible first | apply KOut.next | apply KOut.fault | apply KOut.refused | apply State.atTime_keeps | apply State.eqFinish_keeps
    | (extract_lets +onlyGivenNames x; refine (fun (hx : Keeps q s0 x) => ?_) ?_; clear_value x; rotate_left; subst x)
    | (extract_lets +onlyGivenNames x; clear_value x)
    | with_reducible assumption

theorem State.silEnter_keeps {q : Bool} {s0 s : State} {x1}
    (h : Keeps q s0 s) : Keeps q s0 (State.silEnter s x1) := by
  unfold State.silEnter
  repeat' first
    | with_reducible first | apply State.bump_keeps | apply State.irq_keeps | apply State.refreshHint_keeps | apply State.setChain_keeps | apply State.silBit_keeps
    | (extract_lets +onlyGivenNames x; refine (fun (hx : Keeps q s0 x) => ?_) ?_; clear_value x; rotate_left; subst x)
    | (extract_lets +onlyGivenNames x; clear_value x)
    | with_reducible assumption

theorem execOutGainSet_keeps {q : Bool} {s0 s : State} {x0}
    (h : Keeps q s0 s) : KOut q s0 (execOutGainSet x0 s) :=
  runPacket_keeps h (fun _ => cmdOutGainSet_keeps)

end Sys2Proof.Machine
end

