-- ==== Sys2Proof/Laws/KeepsFxCore.lean ====
section
/-!
SUPPORT. What the operations of FxCore.lean keep (`Keeps`).
-/

set_option linter.unusedSimpArgs false

namespace Sys2Proof.Machine

theorem State.fxcAccount_keeps {q : Bool} {s0 s : State} {x1 x2}
    (h : Keeps q s0 s) : Keeps q s0 (State.fxcAccount s x1 x2) := by
  unfold State.fxcAccount
  repeat' first
    | with_reducible first | apply State.count_keeps | apply State.wr_keeps
    | (extract_lets +onlyGivenNames x; refine (fun (hx : Keeps q s0 x) => ?_) ?_; clear_value x; rotate_left; subst x)
    | (extract_lets +onlyGivenNames x; clear_value x)
    | simp -zeta only [↓Keeps.mk_iff]
    | with_reducible assumption

theorem State.fxcRelease_keeps {s0 s : State} {x1 x2}
    (h : Keeps false s0 s) : Keeps false s0 (State.fxcRelease s x1 x2) := by
  unfold State.fxcRelease
  repeat' first
    | with_reducible first | refine Keeps.ite ?_ ?_ | refine Keeps.opt ?_ ?_ | apply State.finishHeld_keeps | apply State.finishTicket_keeps | apply State.onStart_keeps | apply State.startNext_keeps
    | (intro _; try dsimp -zeta -iota -proj only)
    | (extract_lets +onlyGivenNames x; refine (fun (hx : Keeps false s0 x) => ?_) ?_; clear_value x; rotate_left; subst x)
    | (extract_lets +onlyGivenNames x; clear_value x)
    | with_reducible assumption
    | split

theorem State.fxcAbort_keeps {s0 s : State} {x1 x2 x3}
    (h : Keeps false s0 s) : Keeps false s0 (State.fxcAbort s x1 x2 x3) := by
  unfold State.fxcAbort
  repeat' first
    | with_reducible first | refine Keeps.ite ?_ ?_ | refine Keeps.opt ?_ ?_ | apply State.bump_keeps | apply State.fxcAccount_keeps | apply State.fxcRelease_keeps | apply State.irq_keeps | apply State.logEventFree_keeps | apply State.putIngress_keeps | apply State.wr_keeps | refine Keeps.forRange _ _ ?_ ?_
    | (intro _; try dsimp -zeta -iota -proj only)
    | (extract_lets +onlyGivenNames x; refine (fun (hx : Keeps false s0 x) => ?_) ?_; clear_value x; rotate_left; subst x)
    | (extract_lets +onlyGivenNames x; clear_value x)
    | simp -zeta only [↓Keeps.mk_iff]
    | with_reducible assumption
    | split

theorem State.fxcRead_keeps {q : Bool} {s0 s : State} {x1 x2}
    (h : Keeps q s0 s) : KFst q s0 (State.fxcRead s x1 x2) := by
  unfold State.fxcRead
  repeat' first
    | with_reducible first | refine Keeps.ite ?_ ?_ | refine Keeps.opt ?_ ?_ | refine KFst.ite ?_ ?_ | refine KFst.opt ?_ ?_ | apply State.bump_keeps | apply State.irq_keeps | apply State.latchCnt_keeps | apply State.latchSnap_keeps | refine Keeps.foldl _ ?_ ?_ | refine KFst.foldl _ ?_ ?_ | apply KFst.st
    | (intro _; try dsimp -zeta -iota -proj only)
    | (extract_lets +onlyGivenNames x; refine (fun (hx : Keeps q s0 x) => ?_) ?_; clear_value x; rotate_left; subst x)
    | (extract_lets +onlyGivenNames x; refine (fun (hx : KFst q s0 x) => ?_) ?_; clear_value x; rotate_left; subst x)
    | (extract_lets +onlyGivenNames x; clear_value x)
    | simp -zeta only [↓KFst.pair_iff]
    | with_reducible assumption
    | with_reducible refine KFst.of_eq (by with_reducible assumption) ?_
    | with_reducible apply KFst.st
    | split

theorem State.fxcArea_keeps {q : Bool} {s0 s : State} {x1 x2 x3}
    (h : Keeps q s0 s) : KFst q s0 (State.fxcArea s x1 x2 x3) := by
  unfold State.fxcArea
  repeat' first
    | with_reducible first | apply State.fxcRead_keeps | refine Keeps.foldl _ ?_ ?_ | refine KFst.foldl _ ?_ ?_ | apply KFst.st
    | (intro _; try dsimp -zeta -iota -proj only)
    | (extract_lets +onlyGivenNames x; refine (fun (hx : Keeps q s0 x) => ?_) ?_; clear_value x; rotate_left; subst x)
    | (extract_lets +onlyGivenNames x; refine (fun (hx : KFst q s0 x) => ?_) ?_; clear_value x; rotate_left; subst x)
    | (extract_lets +onlyGivenNames x; clear_value x)
    | simp -zeta only [↓KFst.pair_iff]
    | with_reducible assumption
    | with_reducible refine KFst.of_eq (by with_reducible assumption) ?_
    | with_reducible apply KFst.st

theorem State.fxcDone_keeps {s0 s : State} {x1 x2}
    (h : Keeps false s0 s) : Keeps false s0 (State.fxcDone s x1 x2) := by
  unfold State.fxcDone
  repeat' first
    | with_reducible first | apply State.bump_keeps | apply State.fxcAccount_keeps | apply State.fxcArea_keeps | apply State.fxcRelease_keeps | apply State.putIngress_keeps | refine Keeps.forRange _ _ ?_ ?_ | apply KFst.st
    | (intro _; try dsimp -zeta -iota -proj only)
    | (extract_lets +onlyGivenNames x; refine (fun (hx : Keeps false s0 x) => ?_) ?_; clear_value x; rotate_left; subst x)
    | (extract_lets +onlyGivenNames x; refine (fun (hx : KFst false s0 x) => ?_) ?_; clear_value x; rotate_left; subst x)
    | (extract_lets +onlyGivenNames x; clear_value x)
    | simp -zeta only [↓KFst.pair_iff]
    | with_reducible assumption
    | with_reducible refine KFst.of_eq (by with_reducible assumption) ?_
    | with_reducible apply KFst.st

theorem State.fxcLoads_keeps {q : Bool} {s0 s : State} {x1}
    (h : Keeps q s0 s) : KFst q s0 (State.fxcLoads s x1) := by
  unfold State.fxcLoads
  repeat' first
    | with_reducible first | refine Keeps.ite ?_ ?_ | refine KFst.ite ?_ ?_ | apply State.fxcRead_keeps | refine Keeps.foldl _ ?_ ?_ | refine KFst.foldl _ ?_ ?_ | apply KFst.st
    | (intro _; try dsimp -zeta -iota -proj only)
    | (extract_lets +onlyGivenNames x; refine (fun (hx : Keeps q s0 x) => ?_) ?_; clear_value x; rotate_left; subst x)
    | (extract_lets +onlyGivenNames x; refine (fun (hx : KFst q s0 x) => ?_) ?_; clear_value x; rotate_left; subst x)
    | (extract_lets +onlyGivenNames x; clear_value x)
    | simp -zeta only [↓KFst.pair_iff]
    | with_reducible assumption
    | with_reducible refine KFst.of_eq (by with_reducible assumption) ?_
    | with_reducible apply KFst.st

theorem State.fxcWrite_keeps {s0 s : State} {x1 x2}
    (h : Keeps false s0 s) : Keeps false s0 (State.fxcWrite s x1 x2) := by
  unfold State.fxcWrite
  repeat' first
    | with_reducible first | refine Keeps.ite ?_ ?_ | refine Keeps.opt ?_ ?_ | apply State.busWrite_keeps
    | (intro _; try dsimp -zeta -iota -proj only)
    | (extract_lets +onlyGivenNames x; refine (fun (hx : Keeps false s0 x) => ?_) ?_; clear_value x; rotate_left; subst x)
    | (extract_lets +onlyGivenNames x; clear_value x)
    | with_reducible assumption
    | split

theorem State.fxcStores_keeps {s0 s : State} {x1 x2}
    (h : Keeps false s0 s) : Keeps false s0 (State.fxcStores s x1 x2) := by
  unfold State.fxcStores
  repeat' first
    | with_reducible first | refine Keeps.ite ?_ ?_ | apply State.fxcWrite_keeps | refine Keeps.foldl _ ?_ ?_
    | (intro _; try dsimp -zeta -iota -proj only)
    | (extract_lets +onlyGivenNames x; refine (fun (hx : Keeps false s0 x) => ?_) ?_; clear_value x; rotate_left; subst x)
    | (extract_lets +onlyGivenNames x; clear_value x)
    | with_reducible assumption

theorem State.fxcWord_keeps {s0 s : State} {x1 x2 x3 x4}
    (h : Keeps false s0 s) : Keeps false s0 (State.fxcWord s x1 x2 x3 x4) := by
  unfold State.fxcWord
  repeat' first
    | with_reducible first | refine Keeps.ite ?_ ?_ | refine Keeps.opt ?_ ?_ | refine KFst.ite ?_ ?_ | refine KFst.opt ?_ ?_ | apply State.fxcAbort_keeps | apply State.fxcDone_keeps | apply State.fxcLoads_keeps | apply State.fxcStores_keeps | apply KFst.st
    | (intro _; try dsimp -zeta -iota -proj only)
    | (extract_lets +onlyGivenNames x; refine (fun (hx : Keeps false s0 x) => ?_) ?_; clear_value x; rotate_left; subst x)
    | (extract_lets +onlyGivenNames x; refine (fun (hx : KFst false s0 x) => ?_) ?_; clear_value x; rotate_left; subst x)
    | (extract_lets +onlyGivenNames x; clear_value x)
    | simp -zeta only [↓Keeps.mk_iff, ↓KFst.pair_iff]
    | with_reducible assumption
    | with_reducible refine KFst.of_eq (by with_reducible assumption) ?_
    | with_reducible apply KFst.st
    | split

end Sys2Proof.Machine
end

