-- ==== Sys2Proof/Laws/KeepsFx.lean ====
section
/-!
SUPPORT. What the operations of Fx.lean keep (`Keeps`).
-/

set_option linter.unusedSimpArgs false

namespace Sys2Proof.Machine

theorem cmdFxInstanceSet_keeps {q : Bool} {s0 s : State} {x0}
    (h : Keeps q s0 s) : KRes q s0 (cmdFxInstanceSet x0 s) := by
  unfold cmdFxInstanceSet
  repeat' first
    | with_reducible first | refine Keeps.ite ?_ ?_ | refine KRes.ite ?_ ?_ | apply KRes.ok | apply KRes.fail | apply KRes.long | apply KRes.hold | apply KRes.done | apply State.unreserve_keeps | apply State.wr_keeps
    | (extract_lets +onlyGivenNames x; refine (fun (hx : Keeps q s0 x) => ?_) ?_; clear_value x; rotate_left; subst x)
    | (extract_lets +onlyGivenNames x; clear_value x)
    | simp -zeta only [↓Keeps.mk_iff]
    | with_reducible assumption

theorem cmdFxMemRead_keeps {q : Bool} {s0 s : State} {x0}
    (h : Keeps q s0 s) : KRes q s0 (cmdFxMemRead x0 s) := by
  unfold cmdFxMemRead
  repeat' first
    | with_reducible first | refine Keeps.ite ?_ ?_ | refine Keeps.opt ?_ ?_ | refine KRes.ite ?_ ?_ | refine KRes.opt ?_ ?_ | apply KRes.ok | apply KRes.fail | apply KRes.long | apply KRes.hold | apply KRes.done
    | (intro _; try dsimp -zeta -iota -proj only)
    | (extract_lets +onlyGivenNames x; refine (fun (hx : Keeps q s0 x) => ?_) ?_; clear_value x; rotate_left; subst x)
    | (extract_lets +onlyGivenNames x; clear_value x)
    | with_reducible assumption
    | split

theorem cmdFxParamSet_keeps {q : Bool} {s0 s : State} {x0}
    (h : Keeps q s0 s) : KRes q s0 (cmdFxParamSet x0 s) := by
  unfold cmdFxParamSet
  repeat' first
    | with_reducible first | refine Keeps.ite ?_ ?_ | refine Keeps.opt ?_ ?_ | refine KRes.ite ?_ ?_ | refine KRes.opt ?_ ?_ | apply KRes.ok | apply KRes.fail | apply KRes.long | apply KRes.hold | apply KRes.done
    | (intro _; try dsimp -zeta -iota -proj only)
    | (extract_lets +onlyGivenNames x; refine (fun (hx : Keeps q s0 x) => ?_) ?_; clear_value x; rotate_left; subst x)
    | (extract_lets +onlyGivenNames x; clear_value x)
    | simp -zeta only [↓Keeps.mk_iff]
    | with_reducible assumption
    | split

theorem cmdFxQuery_keeps {q : Bool} {s0 s : State} {x0}
    (h : Keeps q s0 s) : KRes q s0 (cmdFxQuery x0 s) := by
  unfold cmdFxQuery
  repeat' first
    | with_reducible first | refine Keeps.ite ?_ ?_ | refine KRes.ite ?_ ?_ | apply KRes.ok | apply KRes.fail | apply KRes.long | apply KRes.hold | apply KRes.done
    | (extract_lets +onlyGivenNames x; refine (fun (hx : Keeps q s0 x) => ?_) ?_; clear_value x; rotate_left; subst x)
    | (extract_lets +onlyGivenNames x; clear_value x)
    | with_reducible assumption

theorem cmdFxStats_keeps {q : Bool} {s0 s : State} {x0}
    (h : Keeps q s0 s) : KRes q s0 (cmdFxStats x0 s) := by
  unfold cmdFxStats
  repeat' first
    | with_reducible first | refine Keeps.opt ?_ ?_ | refine KRes.opt ?_ ?_ | refine KFst.opt ?_ ?_ | apply KRes.ok | apply KRes.fail | apply KRes.long | apply KRes.hold | apply KRes.done | apply State.takeCounters_keeps | apply KFst.st
    | (intro _; try dsimp -zeta -iota -proj only)
    | (extract_lets +onlyGivenNames x; refine (fun (hx : Keeps q s0 x) => ?_) ?_; clear_value x; rotate_left; subst x)
    | (extract_lets +onlyGivenNames x; refine (fun (hx : KFst q s0 x) => ?_) ?_; clear_value x; rotate_left; subst x)
    | (extract_lets +onlyGivenNames x; clear_value x)
    | simp -zeta only [↓KFst.pair_iff]
    | with_reducible assumption
    | with_reducible refine KFst.of_eq (by with_reducible assumption) ?_
    | with_reducible apply KFst.st
    | split

theorem State.fxcReset_keeps {q : Bool} {s0 s : State} {x1}
    (h : Keeps q s0 s) : Keeps q s0 (State.fxcReset s x1) := by
  unfold State.fxcReset
  repeat' first
    | with_reducible first | apply State.dropEngine_keeps
    | (extract_lets +onlyGivenNames x; refine (fun (hx : Keeps q s0 x) => ?_) ?_; clear_value x; rotate_left; subst x)
    | (extract_lets +onlyGivenNames x; clear_value x)
    | simp -zeta only [↓Keeps.mk_iff]
    | with_reducible assumption

theorem State.fxLoadIn_keeps {s0 s : State} {x} (h : Keeps false s0 s) : Keeps false s0 (s.fxLoadIn x) := by
  have h1 : Keeps false s0 (s.busWrite x.base x.load) := State.busWrite_keeps h
  have hz : ∀ (t : State) (a n : Nat), Keeps false s0 t →
      Keeps false s0 { t with mem := t.mem.filter (fun y => decide (y.1 < a) || decide (a + n ≤ y.1)), poison := t.poison.filter (fun y => !coversGranule a n y) } :=
    fun t a n ht => ht.mem_upd rfl (fun e => Memory.wf_filter e _) rfl rfl
  unfold State.fxLoadIn
  dsimp only
  exact Keeps.ite (hz _ _ _ (hz _ _ _ h1)) (hz _ _ _ h1)

theorem State.fxPut_keeps {s0 s : State} {x1 x2}
    (h : Keeps false s0 s) : Keeps false s0 (State.fxPut s x1 x2) := by
  unfold State.fxPut
  repeat' first
    | with_reducible first | refine Keeps.ite ?_ ?_ | apply State.fxLoadIn_keeps | apply State.reserveNew_keeps | apply State.setFld_keeps | apply State.unreserve_keeps | apply State.wr_keeps
    | (extract_lets +onlyGivenNames x; refine (fun (hx : Keeps false s0 x) => ?_) ?_; clear_value x; rotate_left; subst x)
    | (extract_lets +onlyGivenNames x; clear_value x)
    | simp -zeta only [↓Keeps.mk_iff]
    | with_reducible assumption

theorem State.fxInstall_keeps {s0 s : State} {x1 x2}
    (h : Keeps false s0 s) : KFst false s0 (State.fxInstall s x1 x2) := by
  unfold State.fxInstall
  repeat' first
    | with_reducible first | refine Keeps.ite ?_ ?_ | refine Keeps.opt ?_ ?_ | refine KFst.ite ?_ ?_ | refine KFst.opt ?_ ?_ | apply State.fxPut_keeps | apply KFst.st
    | (intro _; try dsimp -zeta -iota -proj only)
    | (extract_lets +onlyGivenNames x; refine (fun (hx : Keeps false s0 x) => ?_) ?_; clear_value x; rotate_left; subst x)
    | (extract_lets +onlyGivenNames x; refine (fun (hx : KFst false s0 x) => ?_) ?_; clear_value x; rotate_left; subst x)
    | (extract_lets +onlyGivenNames x; clear_value x)
    | simp -zeta only [↓KFst.pair_iff]
    | with_reducible assumption
    | with_reducible refine KFst.of_eq (by with_reducible assumption) ?_
    | with_reducible apply KFst.st
    | split

theorem execFxInterruptEntry_keeps {q : Bool} {s0 s : State} {x0 x1}
    (h : Keeps q s0 s) : KOut q s0 (execFxInterruptEntry x0 x1 s) := by
  unfold execFxInterruptEntry
  repeat' first
    | with_reducible first | refine Keeps.ite ?_ ?_ | refine Keeps.opt ?_ ?_ | refine KOut.ite ?_ ?_ | refine KOut.opt ?_ ?_ | apply KOut.next | apply KOut.fault | apply KOut.refused | apply State.atTime_keeps | apply State.bump_keeps
    | (intro _; try dsimp -zeta -iota -proj only)
    | (extract_lets +onlyGivenNames x; refine (fun (hx : Keeps q s0 x) => ?_) ?_; clear_value x; rotate_left; subst x)
    | (extract_lets +onlyGivenNames x; clear_value x)
    | simp -zeta only [↓Keeps.mk_iff]
    | with_reducible assumption
    | split

theorem rowFxTicketAbort_keeps {s0 s : State} {x0 x1}
    (h : Keeps false s0 s) : KOut false s0 (rowFxTicketAbort x0 x1 s) := by
  unfold rowFxTicketAbort
  repeat' first
    | with_reducible first | refine Keeps.ite ?_ ?_ | refine Keeps.opt ?_ ?_ | refine KOut.ite ?_ ?_ | refine KOut.opt ?_ ?_ | apply KOut.next | apply KOut.fault | apply KOut.refused | apply State.atTime_keeps | apply State.fxcAbort_keeps
    | (intro _; try dsimp -zeta -iota -proj only)
    | (extract_lets +onlyGivenNames x; refine (fun (hx : Keeps false s0 x) => ?_) ?_; clear_value x; rotate_left; subst x)
    | (extract_lets +onlyGivenNames x; clear_value x)
    | with_reducible assumption
    | split

theorem execFxQuery_keeps {q : Bool} {s0 s : State} {x0}
    (h : Keeps q s0 s) : KOut q s0 (execFxQuery x0 s) :=
  runPacket_keeps h (fun _ => cmdFxQuery_keeps)

theorem State.fxBring_keeps {s0 s : State} {x1 x2}
    (h : Keeps false s0 s) : Keeps false s0 (State.fxBring s x1 x2) := by
  unfold State.fxBring
  repeat' first
    | with_reducible first | refine Keeps.ite ?_ ?_ | apply State.fxLoadIn_keeps
    | (extract_lets +onlyGivenNames x; refine (fun (hx : Keeps false s0 x) => ?_) ?_; clear_value x; rotate_left; subst x)
    | (extract_lets +onlyGivenNames x; clear_value x)
    | simp -zeta only [↓Keeps.mk_iff]
    | with_reducible assumption

theorem State.fxCopyIn_keeps {s0 s : State} {x1 x2}
    (h : Keeps false s0 s) : Keeps false s0 (State.fxCopyIn s x1 x2) := by
  unfold State.fxCopyIn
  repeat' first
    | with_reducible first | apply State.busWrite_keeps | refine Keeps.foldl _ ?_ ?_
    | (intro _; try dsimp -zeta -iota -proj only)
    | (extract_lets +onlyGivenNames x; refine (fun (hx : Keeps false s0 x) => ?_) ?_; clear_value x; rotate_left; subst x)
    | (extract_lets +onlyGivenNames x; clear_value x)
    | with_reducible assumption

theorem State.fxParams_keeps {s0 s : State} {x1 x2 x3}
    (h : Keeps false s0 s) : Keeps false s0 (State.fxParams s x1 x2 x3) := by
  unfold State.fxParams
  repeat' first
    | with_reducible first | apply State.busWrite_keeps | refine Keeps.foldl _ ?_ ?_
    | (intro _; try dsimp -zeta -iota -proj only)
    | (extract_lets +onlyGivenNames x; refine (fun (hx : Keeps false s0 x) => ?_) ?_; clear_value x; rotate_left; subst x)
    | (extract_lets +onlyGivenNames x; clear_value x)
    | simp -zeta only [↓Keeps.mk_iff]
    | with_reducible assumption

theorem execFxTicketStart_keeps {s0 s : State} {x0 x1}
    (h : Keeps false s0 s) : KOut false s0 (execFxTicketStart x0 x1 s) := by
  unfold execFxTicketStart
  repeat' first
    | with_reducible first | refine Keeps.opt ?_ ?_ | refine KOut.opt ?_ ?_ | apply KOut.next | apply KOut.fault | apply KOut.refused | apply State.atTime_keeps | apply State.finishTicket_keeps | apply State.fxBring_keeps | apply State.fxCopyIn_keeps | apply State.fxParams_keeps | apply State.onStart_keeps | apply State.startNext_keeps
    | (intro _; try dsimp -zeta -iota -proj only)
    | (extract_lets +onlyGivenNames x; refine (fun (hx : Keeps false s0 x) => ?_) ?_; clear_value x; rotate_left; subst x)
    | (extract_lets +onlyGivenNames x; clear_value x)
    | simp -zeta only [↓Keeps.mk_iff]
    | with_reducible assumption
    | split

theorem execFxMemRead_keeps {q : Bool} {s0 s : State} {x0}
    (h : Keeps q s0 s) : KOut q s0 (execFxMemRead x0 s) :=
  runPacket_keeps h (fun _ => cmdFxMemRead_keeps)

theorem execFxInstanceSet_keeps {q : Bool} {s0 s : State} {x0}
    (h : Keeps q s0 s) : KOut q s0 (execFxInstanceSet x0 s) :=
  runPacket_keeps h (fun _ => cmdFxInstanceSet_keeps)

theorem execFxParamSet_keeps {q : Bool} {s0 s : State} {x0}
    (h : Keeps q s0 s) : KOut q s0 (execFxParamSet x0 s) :=
  runPacket_keeps h (fun _ => cmdFxParamSet_keeps)

theorem execFxStats_keeps {q : Bool} {s0 s : State} {x0}
    (h : Keeps q s0 s) : KOut q s0 (execFxStats x0 s) :=
  runPacket_keeps h (fun _ => cmdFxStats_keeps)

theorem execFxTicketLate_keeps {q : Bool} {s0 s : State} {x0 x1}
    (h : Keeps q s0 s) : KOut q s0 (execFxTicketLate x0 x1 s) := by
  unfold execFxTicketLate
  repeat' first
    | with_reducible first | refine Keeps.ite ?_ ?_ | refine Keeps.opt ?_ ?_ | refine KOut.ite ?_ ?_ | refine KOut.opt ?_ ?_ | apply KOut.next | apply KOut.fault | apply KOut.refused | apply State.atTime_keeps | apply State.bump_keeps | apply State.irq_keeps
    | (intro _; try dsimp -zeta -iota -proj only)
    | (extract_lets +onlyGivenNames x; refine (fun (hx : Keeps q s0 x) => ?_) ?_; clear_value x; rotate_left; subst x)
    | (extract_lets +onlyGivenNames x; clear_value x)
    | simp -zeta only [↓Keeps.mk_iff]
    | with_reducible assumption
    | split

theorem execFxInstanceRemove_keeps {q : Bool} {s0 s : State} {x0}
    (h : Keeps q s0 s) : KOut q s0 (execFxInstanceRemove x0 s) :=
  runPacket_keeps h (fun _ => cmdFxInstanceSet_keeps)

end Sys2Proof.Machine
end

