-- ==== Sys2Proof/Laws/KeepsGeo.lean ====
section
/-!
SUPPORT. What the operations of Geo.lean keep (`Keeps`).
-/

set_option linter.unusedSimpArgs false

namespace Sys2Proof.Machine

theorem cmdGeoEval_keeps {q : Bool} {s0 s : State} {x0}
    (h : Keeps q s0 s) : KRes q s0 (cmdGeoEval x0 s) := by
  unfold cmdGeoEval
  repeat' first
    | with_reducible first | refine Keeps.ite ?_ ?_ | refine Keeps.opt ?_ ?_ | refine KRes.ite ?_ ?_ | refine KRes.opt ?_ ?_ | refine KSnd.ite ?_ ?_ | refine KSnd.opt ?_ ?_ | apply KRes.ok | apply KRes.fail | apply KRes.long | apply KRes.hold | apply KRes.done | apply State.fresh_keeps | apply KSnd.st
    | (intro _; try dsimp -zeta -iota -proj only)
    | (extract_lets +onlyGivenNames x; refine (fun (hx : Keeps q s0 x) => ?_) ?_; clear_value x; rotate_left; subst x)
    | (extract_lets +onlyGivenNames x; refine (fun (hx : KSnd q s0 x) => ?_) ?_; clear_value x; rotate_left; subst x)
    | (extract_lets +onlyGivenNames x; clear_value x)
    | simp -zeta only [↓KSnd.pair_iff]
    | with_reducible assumption
    | with_reducible refine KSnd.of_eq (by with_reducible assumption) ?_
    | with_reducible apply KSnd.st
    | split

theorem execGeoEval_keeps {q : Bool} {s0 s : State} {x0}
    (h : Keeps q s0 s) : KOut q s0 (execGeoEval x0 s) :=
  runPacket_keeps h (fun _ => cmdGeoEval_keeps)

theorem cmdGeoCfgSet_keeps {s0 s : State} {x0}
    (h : Keeps false s0 s) : KRes false s0 (cmdGeoCfgSet x0 s) := by
  unfold cmdGeoCfgSet
  repeat' first
    | with_reducible first | refine Keeps.ite ?_ ?_ | refine KRes.ite ?_ ?_ | apply KRes.ok | apply KRes.fail | apply KRes.long | apply KRes.hold | apply KRes.done | apply State.squashAll_keeps | apply State.wr_keeps | refine Keeps.foldl _ ?_ ?_
    | (intro _; try dsimp -zeta -iota -proj only)
    | (extract_lets +onlyGivenNames x; refine (fun (hx : Keeps false s0 x) => ?_) ?_; clear_value x; rotate_left; subst x)
    | (extract_lets +onlyGivenNames x; clear_value x)
    | with_reducible assumption

theorem cmdGeoFrameQuery_keeps {q : Bool} {s0 s : State} {x0}
    (h : Keeps q s0 s) : KRes q s0 (cmdGeoFrameQuery x0 s) := by
  unfold cmdGeoFrameQuery
  repeat' first
    | with_reducible first | refine Keeps.ite ?_ ?_ | refine Keeps.opt ?_ ?_ | refine KRes.ite ?_ ?_ | refine KRes.opt ?_ ?_ | apply KRes.ok | apply KRes.fail | apply KRes.long | apply KRes.hold | apply KRes.done
    | (intro _; try dsimp -zeta -iota -proj only)
    | (extract_lets +onlyGivenNames x; refine (fun (hx : Keeps q s0 x) => ?_) ?_; clear_value x; rotate_left; subst x)
    | (extract_lets +onlyGivenNames x; clear_value x)
    | with_reducible assumption
    | split

theorem cmdGeoSpkEnable_keeps {s0 s : State} {x0}
    (h : Keeps false s0 s) : KRes false s0 (cmdGeoSpkEnable x0 s) := by
  unfold cmdGeoSpkEnable
  repeat' first
    | with_reducible first | refine Keeps.ite ?_ ?_ | refine KRes.ite ?_ ?_ | apply KRes.ok | apply KRes.fail | apply KRes.long | apply KRes.hold | apply KRes.done | apply State.squashAll_keeps
    | (extract_lets +onlyGivenNames x; refine (fun (hx : Keeps false s0 x) => ?_) ?_; clear_value x; rotate_left; subst x)
    | (extract_lets +onlyGivenNames x; clear_value x)
    | simp -zeta only [↓Keeps.mk_iff]
    | with_reducible assumption

theorem cmdGeoStats_keeps {q : Bool} {s0 s : State} {x0}
    (h : Keeps q s0 s) : KRes q s0 (cmdGeoStats x0 s) := by
  unfold cmdGeoStats
  repeat' first
    | with_reducible first | refine Keeps.opt ?_ ?_ | refine KRes.opt ?_ ?_ | refine KFst.opt ?_ ?_ | apply KRes.ok | apply KRes.fail | apply KRes.long | apply KRes.hold | apply KRes.done | apply State.takeCounters_keeps | apply KFst.st
    | (intro _; try dsimp -zeta -iota -proj only)
    | (extract_lets +onlyGivenNames x; refine (fun (hx : Keeps q s0 x) => ?_) ?_; clear_value x; rotate_left; subst x)
    | (extract_lets +onlyGivenNames x; refine (fun (hx : KFst q s0 x) => ?_) ?_; clear_value x; rotate_left; subst x)
    | (extract_lets +onlyGivenNames x; clear_value x)
    | simp -zeta only [↓KFst.pair_iff]
    | with_reducible assumption
    | with_reducible refine KFst.of_eq (by with_reducible assumption) ?_
    | with_reducible apply KFst.st
    | split

theorem cmdGeoTempSet_keeps {s0 s : State} {x0}
    (h : Keeps false s0 s) : KRes false s0 (cmdGeoTempSet x0 s) := by
  unfold cmdGeoTempSet
  repeat' first
    | with_reducible first | refine Keeps.ite ?_ ?_ | refine KRes.ite ?_ ?_ | apply KRes.ok | apply KRes.fail | apply KRes.long | apply KRes.hold | apply KRes.done | apply State.setFld_keeps | apply State.squashAll_keeps
    | (extract_lets +onlyGivenNames x; refine (fun (hx : Keeps false s0 x) => ?_) ?_; clear_value x; rotate_left; subst x)
    | (extract_lets +onlyGivenNames x; clear_value x)
    | with_reducible assumption

theorem cmdLayoutQuery_keeps {q : Bool} {s0 s : State} {x0}
    (h : Keeps q s0 s) : KRes q s0 (cmdLayoutQuery x0 s) := by
  unfold cmdLayoutQuery
  repeat' first
    | with_reducible first | refine Keeps.opt ?_ ?_ | refine KRes.opt ?_ ?_ | apply KRes.ok | apply KRes.fail | apply KRes.long | apply KRes.hold | apply KRes.done
    | (intro _; try dsimp -zeta -iota -proj only)
    | (extract_lets +onlyGivenNames x; refine (fun (hx : Keeps q s0 x) => ?_) ?_; clear_value x; rotate_left; subst x)
    | (extract_lets +onlyGivenNames x; clear_value x)
    | with_reducible assumption
    | split

theorem State.setLayout_keeps {q : Bool} {s0 s : State} {x1}
    (h : Keeps q s0 s) : Keeps q s0 (State.setLayout s x1) := by
  unfold State.setLayout
  repeat' first
    | with_reducible first | refine Keeps.opt ?_ ?_ | apply State.irq_keeps | apply State.wr_keeps
    | (intro _; try dsimp -zeta -iota -proj only)
    | (extract_lets +onlyGivenNames x; refine (fun (hx : Keeps q s0 x) => ?_) ?_; clear_value x; rotate_left; subst x)
    | (extract_lets +onlyGivenNames x; clear_value x)
    | simp -zeta only [↓Keeps.mk_iff]
    | with_reducible assumption
    | split

theorem execLayoutQuery_keeps {q : Bool} {s0 s : State} {x0}
    (h : Keeps q s0 s) : KOut q s0 (execLayoutQuery x0 s) :=
  runPacket_keeps h (fun _ => cmdLayoutQuery_keeps)

theorem State.latchSpk_keeps {q : Bool} {s0 s : State} {x1}
    (h : Keeps q s0 s) : Keeps q s0 (State.latchSpk s x1) := by
  unfold State.latchSpk
  repeat' first
    | with_reducible first | refine Keeps.ite ?_ ?_ | refine Keeps.opt ?_ ?_ | apply State.wr_keeps
    | (intro _; try dsimp -zeta -iota -proj only)
    | (extract_lets +onlyGivenNames x; refine (fun (hx : Keeps q s0 x) => ?_) ?_; clear_value x; rotate_left; subst x)
    | (extract_lets +onlyGivenNames x; clear_value x)
    | with_reducible assumption
    | split

theorem execGeoSpkSel_keeps {q : Bool} {s0 s : State} {x0 x1}
    (h : Keeps q s0 s) : KOut q s0 (execGeoSpkSel x0 x1 s) := by
  unfold execGeoSpkSel
  repeat' first
    | with_reducible first | apply KOut.next | apply KOut.fault | apply KOut.refused | apply State.atTime_keeps | apply State.latchSpk_keeps
    | (extract_lets +onlyGivenNames x; refine (fun (hx : Keeps q s0 x) => ?_) ?_; clear_value x; rotate_left; subst x)
    | (extract_lets +onlyGivenNames x; clear_value x)
    | with_reducible assumption

theorem execGeoTempSet_keeps {s0 s : State} {x0}
    (h : Keeps false s0 s) : KOut false s0 (execGeoTempSet x0 s) :=
  runPacket_keeps h (fun _ => cmdGeoTempSet_keeps)

theorem execGeoFrameQuery_keeps {q : Bool} {s0 s : State} {x0}
    (h : Keeps q s0 s) : KOut q s0 (execGeoFrameQuery x0 s) :=
  runPacket_keeps h (fun _ => cmdGeoFrameQuery_keeps)

theorem execGeoStats_keeps {q : Bool} {s0 s : State} {x0}
    (h : Keeps q s0 s) : KOut q s0 (execGeoStats x0 s) :=
  runPacket_keeps h (fun _ => cmdGeoStats_keeps)

theorem execGeoCfgSet_keeps {s0 s : State} {x0}
    (h : Keeps false s0 s) : KOut false s0 (execGeoCfgSet x0 s) :=
  runPacket_keeps h (fun _ => cmdGeoCfgSet_keeps)

theorem execGeoSpkEnable_keeps {s0 s : State} {x0}
    (h : Keeps false s0 s) : KOut false s0 (execGeoSpkEnable x0 s) :=
  runPacket_keeps h (fun _ => cmdGeoSpkEnable_keeps)

theorem execGeoSpkDisable_keeps {s0 s : State} {x0}
    (h : Keeps false s0 s) : KOut false s0 (execGeoSpkDisable x0 s) :=
  runPacket_keeps h (fun _ => cmdGeoSpkEnable_keeps)

end Sys2Proof.Machine
end

