-- ==== Sys2Proof/Laws/KeepsBoot.lean ====
section
/-!
SUPPORT. What the operations of Boot.lean keep (`Keeps`).
-/

set_option linter.unusedSimpArgs false

namespace Sys2Proof.Machine

theorem State.keepParts_keeps {q : Bool} {s0 s t : State} (h : Keeps q s0 t) : Keeps q s0 (s.keepParts t) :=
  h.of_eq rfl rfl rfl rfl rfl

theorem State.keepRegs_keeps {q : Bool} {s0 s t : State} (h : Keeps q s0 t) : Keeps q s0 (s.keepRegs t) :=
  Keeps.foldl _ h (fun _ _ => State.wr_keeps)

theorem State.lasting_keeps {s0 s : State} (h : Keeps false s0 s) : Keeps false s0 s.lasting :=
  h.trans ⟨rfl, .rfl' _, fun _ => rfl, fun e => Memory.wf_filter e _, fun e => by cases e⟩

theorem State.startPair_keeps {q : Bool} {s0 s : State}
    (h : Keeps q s0 s) : Keeps q s0 (State.startPair s) := by
  unfold State.startPair
  repeat' first
    | with_reducible first | refine Keeps.ite ?_ ?_ | apply State.setFld_keeps
    | (extract_lets +onlyGivenNames x; refine (fun (hx : Keeps q s0 x) => ?_) ?_; clear_value x; rotate_left; subst x)
    | (extract_lets +onlyGivenNames x; clear_value x)
    | with_reducible assumption

theorem State.warmReset_keeps {s0 s : State} {x1}
    (h : Keeps false s0 s) : Keeps false s0 (State.warmReset s x1) := by
  unfold State.warmReset
  repeat' first
    | with_reducible first | apply State.abandonLong_keeps | apply State.irq_keeps | apply State.keepParts_keeps | apply State.keepRegs_keeps | apply State.lasting_keeps | apply State.selfFence_keeps | apply State.setFld_keeps | apply State.startPair_keeps
    | (extract_lets +onlyGivenNames x; refine (fun (hx : Keeps false s0 x) => ?_) ?_; clear_value x; rotate_left; subst x)
    | (extract_lets +onlyGivenNames x; clear_value x)
    | simp -zeta only [↓Keeps.mk_iff]
    | with_reducible assumption

theorem State.leaveHalt_keeps {s0 s : State}
    (h : Keeps false s0 s) : Keeps false s0 (State.leaveHalt s) := by
  unfold State.leaveHalt
  repeat' first
    | with_reducible first | apply State.warmReset_keeps
    | (extract_lets +onlyGivenNames x; refine (fun (hx : Keeps false s0 x) => ?_) ?_; clear_value x; rotate_left; subst x)
    | (extract_lets +onlyGivenNames x; clear_value x)
    | with_reducible assumption

theorem execRtcAlarm_keeps {s0 s : State} {x0}
    (h : Keeps false s0 s) : KOut false s0 (execRtcAlarm x0 s) := by
  unfold execRtcAlarm
  repeat' first
    | with_reducible first | refine Keeps.ite ?_ ?_ | refine KOut.ite ?_ ?_ | apply KOut.next | apply KOut.fault | apply KOut.refused | apply State.atTime_keeps | apply State.irq_keeps | apply State.leaveHalt_keeps
    | (extract_lets +onlyGivenNames x; refine (fun (hx : Keeps false s0 x) => ?_) ?_; clear_value x; rotate_left; subst x)
    | (extract_lets +onlyGivenNames x; clear_value x)
    | with_reducible assumption

theorem State.copyFirmware_keeps {s0 s : State} {x1}
    (h : Keeps false s0 s) : Keeps false s0 (State.copyFirmware s x1) := by
  unfold State.copyFirmware
  repeat' first
    | with_reducible first | apply State.busWrite_keeps
    | (extract_lets +onlyGivenNames x; refine (fun (hx : Keeps false s0 x) => ?_) ?_; clear_value x; rotate_left; subst x)
    | (extract_lets +onlyGivenNames x; clear_value x)
    | simp -zeta only [↓Keeps.mk_iff]
    | with_reducible assumption

theorem cmdBootGo_keeps {s0 s : State} {x0}
    (h : Keeps false s0 s) : KRes false s0 (cmdBootGo x0 s) := by
  unfold cmdBootGo
  repeat' first
    | with_reducible first | refine Keeps.ite ?_ ?_ | refine Keeps.opt ?_ ?_ | refine KRes.ite ?_ ?_ | refine KRes.opt ?_ ?_ | apply KRes.ok | apply KRes.fail | apply KRes.long | apply KRes.hold | apply KRes.done | apply State.copyFirmware_keeps | apply State.setMode_keeps
    | (intro _; try dsimp -zeta -iota -proj only)
    | (extract_lets +onlyGivenNames x; refine (fun (hx : Keeps false s0 x) => ?_) ?_; clear_value x; rotate_left; subst x)
    | (extract_lets +onlyGivenNames x; clear_value x)
    | simp -zeta only [↓Keeps.mk_iff]
    | with_reducible assumption
    | split

theorem cmdBootLoad_keeps {s0 s : State} {x0}
    (h : Keeps false s0 s) : KRes false s0 (cmdBootLoad x0 s) := by
  unfold cmdBootLoad
  repeat' first
    | with_reducible first | refine Keeps.ite ?_ ?_ | refine KRes.ite ?_ ?_ | apply KRes.ok | apply KRes.fail | apply KRes.long | apply KRes.hold | apply KRes.done | apply State.busWrite_keeps
    | (extract_lets +onlyGivenNames x; refine (fun (hx : Keeps false s0 x) => ?_) ?_; clear_value x; rotate_left; subst x)
    | (extract_lets +onlyGivenNames x; clear_value x)
    | with_reducible assumption

theorem State.beginTransit_keeps {q : Bool} {s0 s : State} {x1}
    (h : Keeps q s0 s) : Keeps q s0 (State.beginTransit s x1) := by
  unfold State.beginTransit
  repeat' first
    | with_reducible first | apply State.setFlag_keeps | apply State.wakeAll_keeps
    | (extract_lets +onlyGivenNames x; refine (fun (hx : Keeps q s0 x) => ?_) ?_; clear_value x; rotate_left; subst x)
    | (extract_lets +onlyGivenNames x; clear_value x)
    | simp -zeta only [↓Keeps.mk_iff]
    | with_reducible assumption

theorem State.enterHalt_keeps {s0 s : State}
    (h : Keeps false s0 s) : Keeps false s0 (State.enterHalt s) := by
  unfold State.enterHalt
  repeat' first
    | with_reducible first | apply State.abandonLong_keeps | apply State.allOff_keeps | apply State.selfFence_keeps | apply State.setMode_keeps
    | (extract_lets +onlyGivenNames x; refine (fun (hx : Keeps false s0 x) => ?_) ?_; clear_value x; rotate_left; subst x)
    | (extract_lets +onlyGivenNames x; clear_value x)
    | with_reducible assumption

theorem State.replyFirst_keeps {q : Bool} {s0 s : State} {x1 x2}
    (h : Keeps q s0 s) : Keeps q s0 (State.replyFirst s x1 x2) := by
  unfold State.replyFirst
  repeat' first
    | with_reducible first | refine Keeps.ite ?_ ?_ | apply State.record_keeps | apply State.reply_keeps
    | (extract_lets +onlyGivenNames x; refine (fun (hx : Keeps q s0 x) => ?_) ?_; clear_value x; rotate_left; subst x)
    | (extract_lets +onlyGivenNames x; clear_value x)
    | with_reducible assumption

theorem cmdModeSet_keeps {s0 s : State} {x0}
    (h : Keeps false s0 s) : KRes false s0 (cmdModeSet x0 s) := by
  unfold cmdModeSet
  repeat' first
    | with_reducible first | refine Keeps.ite ?_ ?_ | refine Keeps.opt ?_ ?_ | refine KRes.ite ?_ ?_ | refine KRes.opt ?_ ?_ | apply KRes.ok | apply KRes.fail | apply KRes.long | apply KRes.hold | apply KRes.done | apply State.beginTransit_keeps | apply State.enterHalt_keeps | apply State.enterSafe_keeps | apply State.replyFirst_keeps | apply State.reply_keeps | apply State.setMode_keeps | apply State.warmReset_keeps
    | (intro _; try dsimp -zeta -iota -proj only)
    | (extract_lets +onlyGivenNames x; refine (fun (hx : Keeps false s0 x) => ?_) ?_; clear_value x; rotate_left; subst x)
    | (extract_lets +onlyGivenNames x; clear_value x)
    | with_reducible assumption
    | split

theorem cmdSysReset_keeps {s0 s : State} {x0}
    (h : Keeps false s0 s) : KRes false s0 (cmdSysReset x0 s) := by
  unfold cmdSysReset
  repeat' first
    | with_reducible first | refine Keeps.ite ?_ ?_ | refine KRes.ite ?_ ?_ | apply KRes.ok | apply KRes.fail | apply KRes.long | apply KRes.hold | apply KRes.done | apply State.ctrlReset_keeps | apply State.reply_keeps | apply State.warmReset_keeps
    | (extract_lets +onlyGivenNames x; refine (fun (hx : Keeps false s0 x) => ?_) ?_; clear_value x; rotate_left; subst x)
    | (extract_lets +onlyGivenNames x; clear_value x)
    | with_reducible assumption

theorem execPorRise_keeps {s0 s : State} {x0 x1 x2 x3 x4}
    (h : Keeps false s0 s) : KOut false s0 (execPorRise x0 x1 x2 x3 x4 s) := by
  unfold execPorRise
  repeat' first
    | with_reducible first | refine Keeps.ite ?_ ?_ | refine KOut.ite ?_ ?_ | apply KOut.next | apply KOut.fault | apply KOut.refused | apply State.allOff_keeps | apply State.atTime_keeps | apply State.setFld_keeps | apply State.startPair_keeps
    | (extract_lets +onlyGivenNames x; refine (fun (hx : Keeps false s0 x) => ?_) ?_; clear_value x; rotate_left; subst x)
    | (extract_lets +onlyGivenNames x; clear_value x)
    | simp -zeta only [↓Keeps.mk_iff]
    | with_reducible assumption

theorem execBootGo_keeps {s0 s : State} {x0}
    (h : Keeps false s0 s) : KOut false s0 (execBootGo x0 s) :=
  runPacket_keeps h (fun _ => cmdBootGo_keeps)

theorem State.wdogWarmReset_keeps {s0 s : State}
    (h : Keeps false s0 s) : Keeps false s0 (State.wdogWarmReset s) := by
  unfold State.wdogWarmReset
  repeat' first
    | with_reducible first | refine Keeps.ite ?_ ?_ | apply State.setMode_keeps | apply State.warmReset_keeps
    | (extract_lets +onlyGivenNames x; refine (fun (hx : Keeps false s0 x) => ?_) ?_; clear_value x; rotate_left; subst x)
    | (extract_lets +onlyGivenNames x; clear_value x)
    | simp -zeta only [↓Keeps.mk_iff]
    | with_reducible assumption

theorem execModeSet_keeps {s0 s : State} {x0}
    (h : Keeps false s0 s) : KOut false s0 (execModeSet x0 s) :=
  runPacket_keeps h (fun _ => cmdModeSet_keeps)

theorem State.noFirmware_keeps {q : Bool} {s0 s : State}
    (h : Keeps q s0 s) : Keeps q s0 (State.noFirmware s) := by
  unfold State.noFirmware
  repeat' first
    | with_reducible first | apply State.setMode_keeps
    | (extract_lets +onlyGivenNames x; refine (fun (hx : Keeps q s0 x) => ?_) ?_; clear_value x; rotate_left; subst x)
    | (extract_lets +onlyGivenNames x; clear_value x)
    | with_reducible assumption

theorem State.startFirmware_keeps {s0 s : State} {x1 x2}
    (h : Keeps false s0 s) : Keeps false s0 (State.startFirmware s x1 x2) := by
  unfold State.startFirmware
  repeat' first
    | with_reducible first | refine Keeps.ite ?_ ?_ | refine Keeps.opt ?_ ?_ | apply State.dramFail_keeps | apply State.dramTrained_keeps | apply State.setFlag_keeps | apply State.setFld_keeps | apply State.setMode_keeps | apply State.setTries_keeps
    | (intro _; try dsimp -zeta -iota -proj only)
    | (extract_lets +onlyGivenNames x; refine (fun (hx : Keeps false s0 x) => ?_) ?_; clear_value x; rotate_left; subst x)
    | (extract_lets +onlyGivenNames x; clear_value x)
    | simp -zeta only [↓Keeps.mk_iff]
    | with_reducible assumption
    | split

theorem State.bootFlash_keeps {s0 s t : State} {x} (h : Keeps false s0 s) (e : s.bootFlash x = some t) :
    Keeps false s0 t := by
  unfold State.bootFlash at e
  obtain ⟨x, _, rfl⟩ := Option.map_eq_some_iff.1 e
  exact State.startFirmware_keeps (State.copyFirmware_keeps (State.setFlag_keeps h))

theorem State.waitHost_keeps {q : Bool} {s0 s : State}
    (h : Keeps q s0 s) : Keeps q s0 (State.waitHost s) := by
  unfold State.waitHost
  repeat' first
    | (extract_lets +onlyGivenNames x; refine (fun (hx : Keeps q s0 x) => ?_) ?_; clear_value x; rotate_left; subst x)
    | (extract_lets +onlyGivenNames x; clear_value x)
    | simp -zeta only [↓Keeps.mk_iff]
    | with_reducible assumption

theorem execBoot_keeps {s0 s : State} {x0 x1}
    (h : Keeps false s0 s) : KOut false s0 (execBoot x0 x1 s) := by
  unfold execBoot
  repeat' first
    | with_reducible first | refine Keeps.ite ?_ ?_ | refine Keeps.opt ?_ ?_ | refine KOut.ite ?_ ?_ | refine KOut.opt ?_ ?_ | apply KOut.next | apply KOut.fault | apply KOut.refused | apply State.atTime_keeps | apply State.copyFirmware_keeps | apply State.noFirmware_keeps | apply State.reapplyRepairs_keeps | apply State.setFlag_keeps | apply State.startFirmware_keeps | apply State.waitHost_keeps | refine State.bootFlash_keeps ?_ (by assumption)
    | (intro _; try dsimp -zeta -iota -proj only)
    | (extract_lets +onlyGivenNames x; refine (fun (hx : Keeps false s0 x) => ?_) ?_; clear_value x; rotate_left; subst x)
    | (extract_lets +onlyGivenNames x; clear_value x)
    | with_reducible assumption
    | split

theorem execFaultEntry_keeps {q : Bool} {s0 s : State} {x0}
    (h : Keeps q s0 s) : KOut q s0 (execFaultEntry x0 s) := by
  unfold execFaultEntry
  repeat' first
    | with_reducible first | refine Keeps.ite ?_ ?_ | refine KOut.ite ?_ ?_ | apply KOut.next | apply KOut.fault | apply KOut.refused | apply State.atTime_keeps | apply State.noFirmware_keeps
    | (extract_lets +onlyGivenNames x; refine (fun (hx : Keeps q s0 x) => ?_) ?_; clear_value x; rotate_left; subst x)
    | (extract_lets +onlyGivenNames x; clear_value x)
    | with_reducible assumption

theorem execSysResetCtrl_keeps {s0 s : State} {x0}
    (h : Keeps false s0 s) : KOut false s0 (execSysResetCtrl x0 s) :=
  runPacket_keeps h (fun _ => cmdSysReset_keeps)

theorem execSysResetWarm_keeps {s0 s : State} {x0}
    (h : Keeps false s0 s) : KOut false s0 (execSysResetWarm x0 s) :=
  runPacket_keeps h (fun _ => cmdSysReset_keeps)

theorem execCtrlRestart_keeps {q : Bool} {s0 s : State} {x0}
    (h : Keeps q s0 s) : KOut q s0 (execCtrlRestart x0 s) := by
  unfold execCtrlRestart
  repeat' first
    | with_reducible first | refine Keeps.ite ?_ ?_ | refine KOut.ite ?_ ?_ | apply KOut.next | apply KOut.fault | apply KOut.refused | apply State.atTime_keeps
    | (extract_lets +onlyGivenNames x; refine (fun (hx : Keeps q s0 x) => ?_) ?_; clear_value x; rotate_left; subst x)
    | (extract_lets +onlyGivenNames x; clear_value x)
    | simp -zeta only [↓Keeps.mk_iff]
    | with_reducible assumption

theorem State.coldReset_keeps {s0 s : State}
    (h : Keeps false s0 s) : Keeps false s0 (State.coldReset s) := by
  unfold State.coldReset
  repeat' first
    | with_reducible first | apply State.lasting_keeps
    | (extract_lets +onlyGivenNames x; refine (fun (hx : Keeps false s0 x) => ?_) ?_; clear_value x; rotate_left; subst x)
    | (extract_lets +onlyGivenNames x; clear_value x)
    | simp -zeta only [↓Keeps.mk_iff]
    | with_reducible assumption

theorem execWatchdogTimeout_keeps {s0 s : State} {x0}
    (h : Keeps false s0 s) : KOut false s0 (execWatchdogTimeout x0 s) := by
  unfold execWatchdogTimeout
  repeat' first
    | with_reducible first | refine Keeps.ite ?_ ?_ | refine KOut.ite ?_ ?_ | apply KOut.next | apply KOut.fault | apply KOut.refused | apply State.atTime_keeps | apply State.ctrlReset_keeps | apply State.irq_keeps | apply State.logEventFree_keeps | apply State.wdogWarmReset_keeps
    | (extract_lets +onlyGivenNames x; refine (fun (hx : Keeps false s0 x) => ?_) ?_; clear_value x; rotate_left; subst x)
    | (extract_lets +onlyGivenNames x; clear_value x)
    | simp -zeta only [↓Keeps.mk_iff]
    | with_reducible assumption

theorem execColdReset_keeps {s0 s : State} {x0}
    (h : Keeps false s0 s) : KOut false s0 (execColdReset x0 s) := by
  unfold execColdReset
  repeat' first
    | with_reducible first | apply KOut.next | apply KOut.fault | apply KOut.refused | apply State.atTime_keeps | apply State.coldReset_keeps
    | (extract_lets +onlyGivenNames x; refine (fun (hx : Keeps false s0 x) => ?_) ?_; clear_value x; rotate_left; subst x)
    | (extract_lets +onlyGivenNames x; clear_value x)
    | with_reducible assumption

theorem execHaltWake_keeps {s0 s : State} {x0 x1}
    (h : Keeps false s0 s) : KOut false s0 (execHaltWake x0 x1 s) := by
  unfold execHaltWake
  repeat' first
    | with_reducible first | refine Keeps.ite ?_ ?_ | refine Keeps.opt ?_ ?_ | refine KOut.ite ?_ ?_ | refine KOut.opt ?_ ?_ | apply KOut.next | apply KOut.fault | apply KOut.refused | apply State.atTime_keeps | apply State.bump_keeps | apply State.leaveHalt_keeps
    | (intro _; try dsimp -zeta -iota -proj only)
    | (extract_lets +onlyGivenNames x; refine (fun (hx : Keeps false s0 x) => ?_) ?_; clear_value x; rotate_left; subst x)
    | (extract_lets +onlyGivenNames x; clear_value x)
    | with_reducible assumption
    | split

theorem execRefWaitExpiry_keeps {q : Bool} {s0 s : State} {x0}
    (h : Keeps q s0 s) : KOut q s0 (execRefWaitExpiry x0 s) := by
  unfold execRefWaitExpiry
  repeat' first
    | with_reducible first | refine Keeps.ite ?_ ?_ | refine KOut.ite ?_ ?_ | apply KOut.next | apply KOut.fault | apply KOut.refused | apply State.atTime_keeps | apply State.beginTransit_keeps | apply State.logEvent_keeps
    | (extract_lets +onlyGivenNames x; refine (fun (hx : Keeps q s0 x) => ?_) ?_; clear_value x; rotate_left; subst x)
    | (extract_lets +onlyGivenNames x; clear_value x)
    | simp -zeta only [↓Keeps.mk_iff]
    | with_reducible assumption

theorem execBootLoad_keeps {s0 s : State} {x0}
    (h : Keeps false s0 s) : KOut false s0 (execBootLoad x0 s) :=
  runPacket_keeps h (fun _ => cmdBootLoad_keeps)

theorem execWarmReset_keeps {s0 s : State} {x0 x1}
    (h : Keeps false s0 s) : KOut false s0 (execWarmReset x0 x1 s) := by
  unfold execWarmReset
  repeat' first
    | with_reducible first | refine Keeps.ite ?_ ?_ | refine Keeps.opt ?_ ?_ | refine KOut.ite ?_ ?_ | refine KOut.opt ?_ ?_ | apply KOut.next | apply KOut.fault | apply KOut.refused | apply State.atTime_keeps | apply State.warmReset_keeps
    | (intro _; try dsimp -zeta -iota -proj only)
    | (extract_lets +onlyGivenNames x; refine (fun (hx : Keeps false s0 x) => ?_) ?_; clear_value x; rotate_left; subst x)
    | (extract_lets +onlyGivenNames x; clear_value x)
    | with_reducible assumption
    | split

end Sys2Proof.Machine
end

