-- ==== Sys2Proof/Laws/KeepsMetadata.lean ====
section
/-!
SUPPORT. What the operations of Metadata.lean keep (`Keeps`).
-/

set_option linter.unusedSimpArgs false

namespace Sys2Proof.Machine

theorem cmdObjConfig_keeps {q : Bool} {s0 s : State} {p} (h : Keeps q s0 s) : KRes q s0 (cmdObjConfig p s) := by
  unfold cmdObjConfig
  repeat' first
    | with_reducible first | refine Keeps.ite ?_ ?_ | refine KRes.ite ?_ ?_ | refine KRes.opt ?_ ?_ | apply KRes.ok | apply KRes.fail | apply State.clearPages_keeps | apply State.setSlot_keeps | apply State.reserve_keeps
    | (intro _; try dsimp -zeta -iota -proj only)
    | (extract_lets +onlyGivenNames x; refine (fun (hx : Keeps q s0 x) => ?_) ?_; clear_value x; rotate_left; subst x)
    | (extract_lets +onlyGivenNames x; refine (fun (hx : ∀ o, KRes q s0 (x o)) => ?_) ?_; clear_value x; rotate_left; subst x)
    | (extract_lets +onlyGivenNames x; clear_value x)
    | simp -zeta only [↓Keeps.mk_iff]
    | with_reducible assumption
    | split
    | simp only [*]

theorem cmdObjBind_keeps {q : Bool} {s0 s : State} {x0}
    (h : Keeps q s0 s) : KRes q s0 (cmdObjBind x0 s) := by
  unfold cmdObjBind
  repeat' first
    | with_reducible first | refine Keeps.opt ?_ ?_ | refine KRes.opt ?_ ?_ | apply KRes.ok | apply KRes.fail | apply KRes.long | apply KRes.hold | apply KRes.done | apply State.setSlot_keeps
    | (intro _; try dsimp -zeta -iota -proj only)
    | (extract_lets +onlyGivenNames x; refine (fun (hx : Keeps q s0 x) => ?_) ?_; clear_value x; rotate_left; subst x)
    | (extract_lets +onlyGivenNames x; clear_value x)
    | with_reducible assumption
    | split

theorem State.departs_keeps {q : Bool} {s0 s : State} {x1 x2 x3}
    (h : Keeps q s0 s) : Keeps q s0 (State.departs s x1 x2 x3) := by
  unfold State.departs
  repeat' first
    | with_reducible first | refine Keeps.ite ?_ ?_ | apply State.unreserve_keeps
    | (extract_lets +onlyGivenNames x; refine (fun (hx : Keeps q s0 x) => ?_) ?_; clear_value x; rotate_left; subst x)
    | (extract_lets +onlyGivenNames x; clear_value x)
    | simp -zeta only [↓Keeps.mk_iff]
    | with_reducible assumption

theorem cmdObjDeconfig_keeps {q : Bool} {s0 s : State} {x0}
    (h : Keeps q s0 s) : KRes q s0 (cmdObjDeconfig x0 s) := by
  unfold cmdObjDeconfig
  repeat' first
    | with_reducible first | refine Keeps.ite ?_ ?_ | refine Keeps.opt ?_ ?_ | refine KRes.ite ?_ ?_ | refine KRes.opt ?_ ?_ | apply KRes.ok | apply KRes.fail | apply KRes.long | apply KRes.hold | apply KRes.done | apply State.departs_keeps
    | (intro _; try dsimp -zeta -iota -proj only)
    | (extract_lets +onlyGivenNames x; refine (fun (hx : Keeps q s0 x) => ?_) ?_; clear_value x; rotate_left; subst x)
    | (extract_lets +onlyGivenNames x; clear_value x)
    | with_reducible assumption
    | split

theorem cmdObjQuery_keeps {q : Bool} {s0 s : State} {x0}
    (h : Keeps q s0 s) : KRes q s0 (cmdObjQuery x0 s) := by
  unfold cmdObjQuery
  repeat' first
    | with_reducible first | refine Keeps.ite ?_ ?_ | refine Keeps.opt ?_ ?_ | refine KRes.ite ?_ ?_ | refine KRes.opt ?_ ?_ | apply KRes.ok | apply KRes.fail | apply KRes.long | apply KRes.hold | apply KRes.done
    | (intro _; try dsimp -zeta -iota -proj only)
    | (extract_lets +onlyGivenNames x; refine (fun (hx : Keeps q s0 x) => ?_) ?_; clear_value x; rotate_left; subst x)
    | (extract_lets +onlyGivenNames x; clear_value x)
    | with_reducible assumption
    | split

theorem State.omsCfgWrite_keeps {q : Bool} {s0 s : State} {x1}
    (h : Keeps q s0 s) : Keeps q s0 (State.omsCfgWrite s x1) := by
  unfold State.omsCfgWrite
  repeat' first
    | with_reducible first | refine Keeps.ite ?_ ?_ | apply State.cfgWrite_keeps
    | (extract_lets +onlyGivenNames x; refine (fun (hx : Keeps q s0 x) => ?_) ?_; clear_value x; rotate_left; subst x)
    | (extract_lets +onlyGivenNames x; clear_value x)
    | simp -zeta only [↓Keeps.mk_iff]
    | with_reducible assumption

theorem cmdOmsCfgSet_keeps {q : Bool} {s0 s : State} {x0}
    (h : Keeps q s0 s) : KRes q s0 (cmdOmsCfgSet x0 s) := by
  unfold cmdOmsCfgSet
  repeat' first
    | with_reducible first | refine Keeps.ite ?_ ?_ | refine KRes.ite ?_ ?_ | apply KRes.ok | apply KRes.fail | apply KRes.long | apply KRes.hold | apply KRes.done | apply State.omsCfgWrite_keeps | apply State.wr_keeps
    | (extract_lets +onlyGivenNames x; refine (fun (hx : Keeps q s0 x) => ?_) ?_; clear_value x; rotate_left; subst x)
    | (extract_lets +onlyGivenNames x; clear_value x)
    | with_reducible assumption

theorem cmdOmsStats_keeps {q : Bool} {s0 s : State} {x0}
    (h : Keeps q s0 s) : KRes q s0 (cmdOmsStats x0 s) := by
  unfold cmdOmsStats
  repeat' first
    | with_reducible first | refine Keeps.opt ?_ ?_ | refine KRes.opt ?_ ?_ | refine KFst.opt ?_ ?_ | apply KRes.ok | apply KRes.fail | apply KRes.long | apply KRes.hold | apply KRes.done | apply State.takeCounters_keeps | apply KFst.st
    | (intro _; try dsimp -zeta -iota -proj only)
    | (extract_lets +onlyGivenNames x; refine (fun (hx : Keeps q s0 x) => ?_) ?_; clear_value x; rotate_left; subst x)
    | (extract_lets +onlyGivenNames x; refine (fun (hx : KFst q s0 x) => ?_) ?_; clear_value x; rotate_left; subst x)
    | (extract_lets +onlyGivenNames x; clear_value x)
    | simp -zeta only [↓KFst.pair_iff]
    | with_reducible assumption
    | with_reducible refine KFst.of_eq (by with_reducible assumption) ?_
    | with_reducible apply KFst.st
    | split

theorem State.dropEntries_keeps {q : Bool} {s0 s : State} {x1 x2}
    (h : Keeps q s0 s) : Keeps q s0 (State.dropEntries s x1 x2) := by
  unfold State.dropEntries
  repeat' first
    | with_reducible first | refine Keeps.ite ?_ ?_ | apply State.count_keeps | apply State.irq_keeps
    | (extract_lets +onlyGivenNames x; refine (fun (hx : Keeps q s0 x) => ?_) ?_; clear_value x; rotate_left; subst x)
    | (extract_lets +onlyGivenNames x; clear_value x)
    | with_reducible assumption

theorem State.takeEntry_keeps {s0 s : State} {x1 x2 x3 x4 x5 x6}
    (h : Keeps false s0 s) : Keeps false s0 (State.takeEntry s x1 x2 x3 x4 x5 x6) := by
  unfold State.takeEntry
  repeat' first
    | with_reducible first | refine Keeps.ite ?_ ?_ | refine Keeps.opt ?_ ?_ | apply State.accept_keeps | apply State.dropEntries_keeps
    | (intro _; try dsimp -zeta -iota -proj only)
    | (extract_lets +onlyGivenNames x; refine (fun (hx : Keeps false s0 x) => ?_) ?_; clear_value x; rotate_left; subst x)
    | (extract_lets +onlyGivenNames x; clear_value x)
    | with_reducible assumption
    | split

theorem execOmsCfgSet_keeps {q : Bool} {s0 s : State} {x0}
    (h : Keeps q s0 s) : KOut q s0 (execOmsCfgSet x0 s) :=
  runPacket_keeps h (fun _ => cmdOmsCfgSet_keeps)

theorem State.omsDrop_keeps {q : Bool} {s0 s : State}
    (h : Keeps q s0 s) : Keeps q s0 (State.omsDrop s) := by
  unfold State.omsDrop
  repeat' first
    | with_reducible first | apply State.bump_keeps | apply State.irq_keeps
    | (extract_lets +onlyGivenNames x; refine (fun (hx : Keeps q s0 x) => ?_) ?_; clear_value x; rotate_left; subst x)
    | (extract_lets +onlyGivenNames x; clear_value x)
    | with_reducible assumption

theorem State.queueOms_keeps {q : Bool} {s0 s : State} {x1}
    (h : Keeps q s0 s) : Keeps q s0 (State.queueOms s x1) := by
  unfold State.queueOms
  repeat' first
    | (extract_lets +onlyGivenNames x; refine (fun (hx : Keeps q s0 x) => ?_) ?_; clear_value x; rotate_left; subst x)
    | (extract_lets +onlyGivenNames x; clear_value x)
    | simp -zeta only [↓Keeps.mk_iff]
    | with_reducible assumption

theorem State.latchObj_keeps {q : Bool} {s0 s : State} {x1}
    (h : Keeps q s0 s) : Keeps q s0 (State.latchObj s x1) := by
  unfold State.latchObj
  repeat' first
    | with_reducible first | refine Keeps.opt ?_ ?_ | apply State.wr_keeps
    | (intro _; try dsimp -zeta -iota -proj only)
    | (extract_lets +onlyGivenNames x; refine (fun (hx : Keeps q s0 x) => ?_) ?_; clear_value x; rotate_left; subst x)
    | (extract_lets +onlyGivenNames x; clear_value x)
    | with_reducible assumption
    | split

theorem execObjBind_keeps {q : Bool} {s0 s : State} {x0}
    (h : Keeps q s0 s) : KOut q s0 (execObjBind x0 s) :=
  runPacket_keeps h (fun _ => cmdObjBind_keeps)

theorem execOmsObjSel_keeps {q : Bool} {s0 s : State} {x0 x1}
    (h : Keeps q s0 s) : KOut q s0 (execOmsObjSel x0 x1 s) := by
  unfold execOmsObjSel
  repeat' first
    | with_reducible first | apply KOut.next | apply KOut.fault | apply KOut.refused | apply State.atTime_keeps | apply State.latchObj_keeps
    | (extract_lets +onlyGivenNames x; refine (fun (hx : Keeps q s0 x) => ?_) ?_; clear_value x; rotate_left; subst x)
    | (extract_lets +onlyGivenNames x; clear_value x)
    | with_reducible assumption

theorem execObjQuery_keeps {q : Bool} {s0 s : State} {x0}
    (h : Keeps q s0 s) : KOut q s0 (execObjQuery x0 s) :=
  runPacket_keeps h (fun _ => cmdObjQuery_keeps)

theorem execObjConfig_keeps {q : Bool} {s0 s : State} {x0}
    (h : Keeps q s0 s) : KOut q s0 (execObjConfig x0 s) :=
  runPacket_keeps h (fun _ => cmdObjConfig_keeps)

theorem takeEntries_aux {s0 : State} {hsp ts} : ∀ (n : Nat) (l : List (List Byte)) {s : State}, l.length ≤ n →
    Keeps false s0 s → Keeps false s0 (takeEntries hsp ts l s) := by
  intro n
  induction n with
  | zero =>
    intro l s hl h
    cases l with
    | nil => unfold takeEntries; exact h
    | cons e es => simp at hl
  | succ n ih =>
    intro l s hl h
    cases l with
    | nil => unfold takeEntries; exact h
    | cons e es =>
      simp only [List.length_cons] at hl
      unfold takeEntries
      refine Keeps.ite ?_ (Keeps.ite (ih es (by omega) (State.dropEntries_keeps h)) ?_)
      · cases es with
        | nil => exact State.dropEntries_keeps h
        | cons f fs =>
          simp only [List.length_cons] at hl
          refine Keeps.ite ?_ (ih (f :: fs) (by simp only [List.length_cons]; omega) (State.dropEntries_keeps h))
          split
          · exact ih fs (by omega) (State.takeEntry_keeps h)
          · exact ih fs (by omega) (State.dropEntries_keeps h)
      · split
        · exact ih es (by omega) (State.takeEntry_keeps h)
        · exact ih es (by omega) (State.dropEntries_keeps h)

theorem takeEntries_keeps {s0 s : State} {hsp ts l} (h : Keeps false s0 s) : Keeps false s0 (takeEntries hsp ts l s) :=
  takeEntries_aux _ l (Nat.le_refl _) h

theorem State.parseOms_keeps {s0 s : State} {x1}
    (h : Keeps false s0 s) : Keeps false s0 (State.parseOms s x1) := by
  unfold State.parseOms
  repeat' first
    | with_reducible first | refine Keeps.ite ?_ ?_ | apply State.bump_keeps | apply State.irq_keeps | apply State.omsDrop_keeps | apply takeEntries_keeps
    | (extract_lets +onlyGivenNames x; refine (fun (hx : Keeps false s0 x) => ?_) ?_; clear_value x; rotate_left; subst x)
    | (extract_lets +onlyGivenNames x; clear_value x)
    | with_reducible assumption

theorem execOmsMessage_keeps {s0 s : State} {x0}
    (h : Keeps false s0 s) : KOut false s0 (execOmsMessage x0 s) := by
  unfold execOmsMessage
  repeat' first
    | with_reducible first | refine Keeps.opt ?_ ?_ | refine KOut.opt ?_ ?_ | apply KOut.next | apply KOut.fault | apply KOut.refused | apply State.atTime_keeps | apply State.parseOms_keeps
    | (intro _; try dsimp -zeta -iota -proj only)
    | (extract_lets +onlyGivenNames x; refine (fun (hx : Keeps false s0 x) => ?_) ?_; clear_value x; rotate_left; subst x)
    | (extract_lets +onlyGivenNames x; clear_value x)
    | simp -zeta only [↓Keeps.mk_iff]
    | with_reducible assumption
    | split

theorem execObjDeconfig_keeps {q : Bool} {s0 s : State} {x0}
    (h : Keeps q s0 s) : KOut q s0 (execObjDeconfig x0 s) :=
  runPacket_keeps h (fun _ => cmdObjDeconfig_keeps)

theorem execOmsStats_keeps {q : Bool} {s0 s : State} {x0}
    (h : Keeps q s0 s) : KOut q s0 (execOmsStats x0 s) :=
  runPacket_keeps h (fun _ => cmdOmsStats_keeps)

end Sys2Proof.Machine
end

