-- ==== Sys2Proof/Laws/KeepsSys.lean ====
section
/-!
SUPPORT. What the operations of Sys.lean keep (`Keeps`).
-/

set_option linter.unusedSimpArgs false

namespace Sys2Proof.Machine

theorem cmdCmdCfgSet_keeps {q : Bool} {s0 s : State} {x0}
    (h : Keeps q s0 s) : KRes q s0 (cmdCmdCfgSet x0 s) := by
  unfold cmdCmdCfgSet
  repeat' first
    | with_reducible first | refine Keeps.ite ?_ ?_ | refine KRes.ite ?_ ?_ | apply KRes.ok | apply KRes.fail | apply KRes.long | apply KRes.hold | apply KRes.done | apply State.wr_keeps
    | (extract_lets +onlyGivenNames x; refine (fun (hx : Keeps q s0 x) => ?_) ?_; clear_value x; rotate_left; subst x)
    | (extract_lets +onlyGivenNames x; clear_value x)
    | with_reducible assumption

theorem execCmdCfgSet_keeps {q : Bool} {s0 s : State} {x0}
    (h : Keeps q s0 s) : KOut q s0 (execCmdCfgSet x0 s) :=
  runPacket_keeps h (fun _ => cmdCmdCfgSet_keeps)

theorem cmdAuthKey_keeps {q : Bool} {s0 s : State} {x0}
    (h : Keeps q s0 s) : KRes q s0 (cmdAuthKey x0 s) := by
  unfold cmdAuthKey
  repeat' first
    | with_reducible first | refine Keeps.ite ?_ ?_ | refine KRes.ite ?_ ?_ | apply KRes.ok | apply KRes.fail | apply KRes.long | apply KRes.hold | apply KRes.done | apply State.logEventFree_keeps
    | (extract_lets +onlyGivenNames x; refine (fun (hx : Keeps q s0 x) => ?_) ?_; clear_value x; rotate_left; subst x)
    | (extract_lets +onlyGivenNames x; clear_value x)
    | simp -zeta only [↓Keeps.mk_iff]
    | with_reducible assumption

theorem cmdEcho_keeps {q : Bool} {s0 s : State} {x0}
    (h : Keeps q s0 s) : KRes q s0 (cmdEcho x0 s) := by
  unfold cmdEcho
  repeat' first
    | with_reducible first | apply KRes.ok | apply KRes.fail | apply KRes.long | apply KRes.hold | apply KRes.done
    | (extract_lets +onlyGivenNames x; refine (fun (hx : Keeps q s0 x) => ?_) ?_; clear_value x; rotate_left; subst x)
    | (extract_lets +onlyGivenNames x; clear_value x)
    | with_reducible assumption

theorem cmdEventRead_keeps {q : Bool} {s0 s : State} {x0}
    (h : Keeps q s0 s) : KRes q s0 (cmdEventRead x0 s) := by
  unfold cmdEventRead
  repeat' first
    | with_reducible first | refine Keeps.ite ?_ ?_ | refine KRes.ite ?_ ?_ | apply KRes.ok | apply KRes.fail | apply KRes.long | apply KRes.hold | apply KRes.done
    | (extract_lets +onlyGivenNames x; refine (fun (hx : Keeps q s0 x) => ?_) ?_; clear_value x; rotate_left; subst x)
    | (extract_lets +onlyGivenNames x; clear_value x)
    | simp -zeta only [↓Keeps.mk_iff]
    | with_reducible assumption

/-- Blowing fuses keeps what they were. -/
theorem State.fuseBlown_keeps {s0 s : State} {o} (h : Keeps false s0 s) (ho : Otp.Kept s.otp o) :
    Keeps false s0 (s.fuseBlown o) :=
  State.logEventFree_keeps (State.irq_keeps (h.otp_upd rfl rfl ho rfl))

theorem testBit_setBitN {n i j : Nat} (h : n.testBit j = true) (hn : n.testBit i = false) : (setBitN n i true).testBit j = true := by
  have hm : n / 2 ^ i % 2 = 0 := by
    rw [Nat.testBit_eq_decide_div_mod_eq] at hn
    have := of_decide_eq_false hn
    omega
  have he : setBitN n i true = 2 ^ i + n := by
    simp [setBitN, setBitsN, bitsN, hm, Nat.add_comm]
  rw [he]
  rcases Nat.lt_trichotomy j i with hj | hj | hj
  · rw [Nat.testBit_two_pow_add_gt hj]; exact h
  · subst hj; rw [h] at hn; cases hn
  · obtain ⟨k, rfl⟩ : ∃ k, j = (k + 1) + i := ⟨j - i - 1, by omega⟩
    rw [Nat.testBit_add, Nat.testBit_succ] at h ⊢
    rw [Nat.add_div_left _ (Nat.two_pow_pos i)]
    rwa [show (n / 2 ^ i + 1) / 2 = n / 2 ^ i / 2 by omega]

theorem State.fuseOp_kept {s : State} {op i : Nat} {b : List Byte} {o : Otp} (e : s.fuseOp op i b = some o) :
    Otp.Kept s.otp o := by
  unfold State.fuseOp at e
  have hr := Otp.Kept.rfl' s.otp
  dsimp only at e
  split at e
  · cases e; exact { hr with authHsp := fun _ => rfl }
  · cases e; exact { hr with authTwi := fun _ => rfl }
  · cases e; exact { hr with jtagLock := fun _ => rfl }
  · cases e; exact { hr with dbgOff := fun _ => rfl }
  · split at e
    · cases e; exact hr
    · rename_i hb
      split at e
      · cases e
      · cases e
        exact { hr with revoke := fun j hj => testBit_setBitN hj (by simpa using hb) }
  · split at e
    · cases e
    · rename_i hn
      cases e
      refine { hr with keyHash := fun j x hx => ?_ }
      rw [Tab.look_put]
      split
      · rename_i hj; subst hj; rw [hx] at hn; simp at hn
      · exact hx
  · cases e

theorem cmdFuse_keeps {s0 s : State} {p} (h : Keeps false s0 s) : KRes false s0 (cmdFuse p s) := by
  unfold cmdFuse
  extract_lets op i
  refine KRes.ite (.fail h) (KRes.ite (.fail h) ?_)
  split
  · exact .fail h
  · exact .ok (Keeps.ite h (State.fuseBlown_keeps h (State.fuseOp_kept (by assumption))))

theorem cmdGpioCfg_keeps {q : Bool} {s0 s : State} {x0}
    (h : Keeps q s0 s) : KRes q s0 (cmdGpioCfg x0 s) := by
  unfold cmdGpioCfg
  repeat' first
    | with_reducible first | refine Keeps.ite ?_ ?_ | refine KRes.ite ?_ ?_ | apply KRes.ok | apply KRes.fail | apply KRes.long | apply KRes.hold | apply KRes.done | apply State.wr_keeps | refine Keeps.foldl _ ?_ ?_
    | (intro _; try dsimp -zeta -iota -proj only)
    | (extract_lets +onlyGivenNames x; refine (fun (hx : Keeps q s0 x) => ?_) ?_; clear_value x; rotate_left; subst x)
    | (extract_lets +onlyGivenNames x; clear_value x)
    | with_reducible assumption

theorem cmdGpioQuery_keeps {q : Bool} {s0 s : State} {x0}
    (h : Keeps q s0 s) : KRes q s0 (cmdGpioQuery x0 s) := by
  unfold cmdGpioQuery
  repeat' first
    | with_reducible first | apply KRes.ok | apply KRes.fail | apply KRes.long | apply KRes.hold | apply KRes.done
    | (extract_lets +onlyGivenNames x; refine (fun (hx : Keeps q s0 x) => ?_) ?_; clear_value x; rotate_left; subst x)
    | (extract_lets +onlyGivenNames x; clear_value x)
    | with_reducible assumption

theorem cmdGpioWrite_keeps {q : Bool} {s0 s : State} {x0}
    (h : Keeps q s0 s) : KRes q s0 (cmdGpioWrite x0 s) := by
  unfold cmdGpioWrite
  repeat' first
    | with_reducible first | refine Keeps.ite ?_ ?_ | refine KRes.ite ?_ ?_ | apply KRes.ok | apply KRes.fail | apply KRes.long | apply KRes.hold | apply KRes.done | apply State.wr_keeps
    | (extract_lets +onlyGivenNames x; refine (fun (hx : Keeps q s0 x) => ?_) ?_; clear_value x; rotate_left; subst x)
    | (extract_lets +onlyGivenNames x; clear_value x)
    | with_reducible assumption

theorem cmdNonceQuery_keeps {q : Bool} {s0 s : State} {x0}
    (h : Keeps q s0 s) : KRes q s0 (cmdNonceQuery x0 s) := by
  unfold cmdNonceQuery
  repeat' first
    | with_reducible first | apply KRes.ok | apply KRes.fail | apply KRes.long | apply KRes.hold | apply KRes.done
    | (extract_lets +onlyGivenNames x; refine (fun (hx : Keeps q s0 x) => ?_) ?_; clear_value x; rotate_left; subst x)
    | (extract_lets +onlyGivenNames x; clear_value x)
    | with_reducible assumption

theorem cmdSafeMask_keeps {q : Bool} {s0 s : State} {x0}
    (h : Keeps q s0 s) : KRes q s0 (cmdSafeMask x0 s) := by
  unfold cmdSafeMask
  repeat' first
    | with_reducible first | refine Keeps.ite ?_ ?_ | refine KRes.ite ?_ ?_ | apply KRes.ok | apply KRes.fail | apply KRes.long | apply KRes.hold | apply KRes.done | apply State.wr_keeps
    | (extract_lets +onlyGivenNames x; refine (fun (hx : Keeps q s0 x) => ?_) ?_; clear_value x; rotate_left; subst x)
    | (extract_lets +onlyGivenNames x; clear_value x)
    | with_reducible assumption

theorem cmdSecQuery_keeps {q : Bool} {s0 s : State} {x0}
    (h : Keeps q s0 s) : KRes q s0 (cmdSecQuery x0 s) := by
  unfold cmdSecQuery
  repeat' first
    | with_reducible first | apply KRes.ok | apply KRes.fail | apply KRes.long | apply KRes.hold | apply KRes.done
    | (extract_lets +onlyGivenNames x; refine (fun (hx : Keeps q s0 x) => ?_) ?_; clear_value x; rotate_left; subst x)
    | (extract_lets +onlyGivenNames x; clear_value x)
    | with_reducible assumption

theorem cmdSysInfo_keeps {q : Bool} {s0 s : State} {x0}
    (h : Keeps q s0 s) : KRes q s0 (cmdSysInfo x0 s) := by
  unfold cmdSysInfo
  repeat' first
    | with_reducible first | apply KRes.ok | apply KRes.fail | apply KRes.long | apply KRes.hold | apply KRes.done
    | (extract_lets +onlyGivenNames x; refine (fun (hx : Keeps q s0 x) => ?_) ?_; clear_value x; rotate_left; subst x)
    | (extract_lets +onlyGivenNames x; clear_value x)
    | with_reducible assumption

theorem State.abortCore_keeps {q : Bool} {s0 s : State} {x1}
    (h : Keeps q s0 s) : Keeps q s0 (State.abortCore s x1) := by
  unfold State.abortCore
  repeat' first
    | with_reducible first | apply State.abortTargets_keeps
    | (extract_lets +onlyGivenNames x; refine (fun (hx : Keeps q s0 x) => ?_) ?_; clear_value x; rotate_left; subst x)
    | (extract_lets +onlyGivenNames x; clear_value x)
    | simp -zeta only [↓Keeps.mk_iff]
    | with_reducible assumption

theorem State.unitReset_keeps {q : Bool} {s0 s : State} {x1}
    (h : Keeps q s0 s) : Keeps q s0 (State.unitReset s x1) := by
  unfold State.unitReset
  repeat' first
    | with_reducible first | refine Keeps.ite ?_ ?_ | refine Keeps.opt ?_ ?_ | apply State.abortCore_keeps | apply State.dmaFail_keeps | apply State.dropEngine_keeps | apply State.fxcReset_keeps | apply State.masterReset_keeps | apply State.resetRegs_keeps
    | (intro _; try dsimp -zeta -iota -proj only)
    | (extract_lets +onlyGivenNames x; refine (fun (hx : Keeps q s0 x) => ?_) ?_; clear_value x; rotate_left; subst x)
    | (extract_lets +onlyGivenNames x; clear_value x)
    | simp -zeta only [↓Keeps.mk_iff]
    | with_reducible assumption
    | split

theorem cmdUnitReset_keeps {q : Bool} {s0 s : State} {x0}
    (h : Keeps q s0 s) : KRes q s0 (cmdUnitReset x0 s) := by
  unfold cmdUnitReset
  repeat' first
    | with_reducible first | refine Keeps.ite ?_ ?_ | refine KRes.ite ?_ ?_ | apply KRes.ok | apply KRes.fail | apply KRes.long | apply KRes.hold | apply KRes.done | apply State.unitReset_keeps
    | (extract_lets +onlyGivenNames x; refine (fun (hx : Keeps q s0 x) => ?_) ?_; clear_value x; rotate_left; subst x)
    | (extract_lets +onlyGivenNames x; clear_value x)
    | with_reducible assumption

theorem execFuseAuthTwi_keeps {s0 s : State} {x0}
    (h : Keeps false s0 s) : KOut false s0 (execFuseAuthTwi x0 s) :=
  runPacket_keeps h (fun _ => cmdFuse_keeps)

theorem execJtagChallenge_keeps {q : Bool} {s0 s : State} {x0 x1}
    (h : Keeps q s0 s) : KOut q s0 (execJtagChallenge x0 x1 s) := by
  unfold execJtagChallenge
  repeat' first
    | with_reducible first | refine Keeps.ite ?_ ?_ | refine KOut.ite ?_ ?_ | apply KOut.next | apply KOut.fault | apply KOut.refused | apply State.atTime_keeps | apply State.readReturns_keeps
    | (extract_lets +onlyGivenNames x; refine (fun (hx : Keeps q s0 x) => ?_) ?_; clear_value x; rotate_left; subst x)
    | (extract_lets +onlyGivenNames x; clear_value x)
    | simp -zeta only [↓Keeps.mk_iff]
    | with_reducible assumption

theorem State.setTemp_keeps {q : Bool} {s0 s : State} {x1}
    (h : Keeps q s0 s) : Keeps q s0 (State.setTemp s x1) := by
  unfold State.setTemp
  repeat' first
    | with_reducible first | refine Keeps.ite ?_ ?_ | refine Keeps.opt ?_ ?_ | refine KSnd.ite ?_ ?_ | refine KSnd.opt ?_ ?_ | apply State.fresh_keeps | apply State.irq_keeps | apply State.logEvent_keeps | apply State.selfFence_keeps | apply State.setFld_keeps | apply KSnd.st
    | (intro _; try dsimp -zeta -iota -proj only)
    | (extract_lets +onlyGivenNames x; refine (fun (hx : Keeps q s0 x) => ?_) ?_; clear_value x; rotate_left; subst x)
    | (extract_lets +onlyGivenNames x; refine (fun (hx : KSnd q s0 x) => ?_) ?_; clear_value x; rotate_left; subst x)
    | (extract_lets +onlyGivenNames x; clear_value x)
    | simp -zeta only [↓KSnd.pair_iff]
    | with_reducible assumption
    | with_reducible refine KSnd.of_eq (by with_reducible assumption) ?_
    | with_reducible apply KSnd.st
    | split

theorem execTempWarn_keeps {q : Bool} {s0 s : State} {x0 x1}
    (h : Keeps q s0 s) : KOut q s0 (execTempWarn x0 x1 s) := by
  unfold execTempWarn
  repeat' first
    | with_reducible first | apply KOut.next | apply KOut.fault | apply KOut.refused | apply State.atTime_keeps | apply State.setTemp_keeps
    | (extract_lets +onlyGivenNames x; refine (fun (hx : Keeps q s0 x) => ?_) ?_; clear_value x; rotate_left; subst x)
    | (extract_lets +onlyGivenNames x; clear_value x)
    | with_reducible assumption

theorem execAuthSuppressEnd_keeps {q : Bool} {s0 s : State} {x0 x1}
    (h : Keeps q s0 s) : KOut q s0 (execAuthSuppressEnd x0 x1 s) := by
  unfold execAuthSuppressEnd
  repeat' first
    | with_reducible first | refine Keeps.ite ?_ ?_ | refine Keeps.opt ?_ ?_ | refine KOut.ite ?_ ?_ | refine KOut.opt ?_ ?_ | apply KOut.next | apply KOut.fault | apply KOut.refused | apply State.atTime_keeps
    | (intro _; try dsimp -zeta -iota -proj only)
    | (extract_lets +onlyGivenNames x; refine (fun (hx : Keeps q s0 x) => ?_) ?_; clear_value x; rotate_left; subst x)
    | (extract_lets +onlyGivenNames x; clear_value x)
    | simp -zeta only [↓Keeps.mk_iff]
    | with_reducible assumption
    | split

theorem execGpioQuery_keeps {q : Bool} {s0 s : State} {x0}
    (h : Keeps q s0 s) : KOut q s0 (execGpioQuery x0 s) :=
  runPacket_keeps h (fun _ => cmdGpioQuery_keeps)

theorem execSafeMaskSet_keeps {q : Bool} {s0 s : State} {x0}
    (h : Keeps q s0 s) : KOut q s0 (execSafeMaskSet x0 s) :=
  runPacket_keeps h (fun _ => cmdSafeMask_keeps)

theorem execGpioEdge_keeps {q : Bool} {s0 s : State} {x0 x1 x2}
    (h : Keeps q s0 s) : KOut q s0 (execGpioEdge x0 x1 x2 s) := by
  unfold execGpioEdge
  repeat' first
    | with_reducible first | refine Keeps.ite ?_ ?_ | refine KOut.ite ?_ ?_ | apply KOut.next | apply KOut.fault | apply KOut.refused | apply State.atTime_keeps | apply State.irq_keeps | apply State.wr_keeps
    | (extract_lets +onlyGivenNames x; refine (fun (hx : Keeps q s0 x) => ?_) ?_; clear_value x; rotate_left; subst x)
    | (extract_lets +onlyGivenNames x; clear_value x)
    | with_reducible assumption

theorem execFuseJtagLock_keeps {s0 s : State} {x0}
    (h : Keeps false s0 s) : KOut false s0 (execFuseJtagLock x0 s) :=
  runPacket_keeps h (fun _ => cmdFuse_keeps)

theorem execAuthKeySet_keeps {q : Bool} {s0 s : State} {x0}
    (h : Keeps q s0 s) : KOut q s0 (execAuthKeySet x0 s) :=
  runPacket_keeps h (fun _ => cmdAuthKey_keeps)

theorem State.gpioClr_keeps {q : Bool} {s0 s : State} {x1}
    (h : Keeps q s0 s) : Keeps q s0 (State.gpioClr s x1) := by
  unfold State.gpioClr
  repeat' first
    | with_reducible first | refine Keeps.ite ?_ ?_ | refine Keeps.opt ?_ ?_ | apply State.wr_keeps
    | (intro _; try dsimp -zeta -iota -proj only)
    | (extract_lets +onlyGivenNames x; refine (fun (hx : Keeps q s0 x) => ?_) ?_; clear_value x; rotate_left; subst x)
    | (extract_lets +onlyGivenNames x; clear_value x)
    | with_reducible assumption
    | split

theorem State.gpioSet_keeps {q : Bool} {s0 s : State} {x1}
    (h : Keeps q s0 s) : Keeps q s0 (State.gpioSet s x1) := by
  unfold State.gpioSet
  repeat' first
    | with_reducible first | apply State.wr_keeps
    | (extract_lets +onlyGivenNames x; refine (fun (hx : Keeps q s0 x) => ?_) ?_; clear_value x; rotate_left; subst x)
    | (extract_lets +onlyGivenNames x; clear_value x)
    | simp -zeta only [↓Keeps.mk_iff]
    | with_reducible assumption

theorem execNonceQuery_keeps {q : Bool} {s0 s : State} {x0}
    (h : Keeps q s0 s) : KOut q s0 (execNonceQuery x0 s) :=
  runPacket_keeps h (fun _ => cmdNonceQuery_keeps)

theorem execTempSafe_keeps {s0 s : State} {x0 x1}
    (h : Keeps false s0 s) : KOut false s0 (execTempSafe x0 x1 s) := by
  unfold execTempSafe
  repeat' first
    | with_reducible first | refine Keeps.ite ?_ ?_ | refine KOut.ite ?_ ?_ | apply KOut.next | apply KOut.fault | apply KOut.refused | apply State.atTime_keeps | apply State.enterSafe_keeps | apply State.setTemp_keeps
    | (extract_lets +onlyGivenNames x; refine (fun (hx : Keeps false s0 x) => ?_) ?_; clear_value x; rotate_left; subst x)
    | (extract_lets +onlyGivenNames x; clear_value x)
    | with_reducible assumption

theorem execJtagResponse_keeps {q : Bool} {s0 s : State} {x0 x1}
    (h : Keeps q s0 s) : KOut q s0 (execJtagResponse x0 x1 s) := by
  unfold execJtagResponse
  repeat' first
    | with_reducible first | refine Keeps.ite ?_ ?_ | refine KOut.ite ?_ ?_ | apply KOut.next | apply KOut.fault | apply KOut.refused | apply State.atTime_keeps | apply State.irq_keeps | apply State.setFld_keeps
    | (extract_lets +onlyGivenNames x; refine (fun (hx : Keeps q s0 x) => ?_) ?_; clear_value x; rotate_left; subst x)
    | (extract_lets +onlyGivenNames x; clear_value x)
    | simp -zeta only [↓Keeps.mk_iff]
    | with_reducible assumption

theorem execSysInfo_keeps {q : Bool} {s0 s : State} {x0}
    (h : Keeps q s0 s) : KOut q s0 (execSysInfo x0 s) :=
  runPacket_keeps h (fun _ => cmdSysInfo_keeps)

theorem execTestEnChange_keeps {s0 s : State} {x0 x1}
    (h : Keeps false s0 s) : KOut false s0 (execTestEnChange x0 x1 s) := by
  unfold execTestEnChange
  repeat' first
    | with_reducible first | refine Keeps.ite ?_ ?_ | refine KOut.ite ?_ ?_ | apply KOut.next | apply KOut.fault | apply KOut.refused | apply State.abandonLong_keeps | apply State.atTime_keeps | apply State.resetDomain_keeps | refine Keeps.foldl _ ?_ ?_
    | (intro _; try dsimp -zeta -iota -proj only)
    | (extract_lets +onlyGivenNames x; refine (fun (hx : Keeps false s0 x) => ?_) ?_; clear_value x; rotate_left; subst x)
    | (extract_lets +onlyGivenNames x; clear_value x)
    | simp -zeta only [↓Keeps.mk_iff]
    | with_reducible assumption

theorem execSupplyLoss_keeps {q : Bool} {s0 s : State} {x0}
    (h : Keeps q s0 s) : KOut q s0 (execSupplyLoss x0 s) := by
  unfold execSupplyLoss
  repeat' first
    | with_reducible first | apply KOut.next | apply KOut.fault | apply KOut.refused | apply State.atTime_keeps | apply State.selfFence_keeps
    | (extract_lets +onlyGivenNames x; refine (fun (hx : Keeps q s0 x) => ?_) ?_; clear_value x; rotate_left; subst x)
    | (extract_lets +onlyGivenNames x; clear_value x)
    | with_reducible assumption

theorem execFuseDbgOff_keeps {s0 s : State} {x0}
    (h : Keeps false s0 s) : KOut false s0 (execFuseDbgOff x0 s) :=
  runPacket_keeps h (fun _ => cmdFuse_keeps)

theorem execAuthKeyClear_keeps {q : Bool} {s0 s : State} {x0}
    (h : Keeps q s0 s) : KOut q s0 (execAuthKeyClear x0 s) :=
  runPacket_keeps h (fun _ => cmdAuthKey_keeps)

theorem execGpioWrite_keeps {q : Bool} {s0 s : State} {x0}
    (h : Keeps q s0 s) : KOut q s0 (execGpioWrite x0 s) :=
  runPacket_keeps h (fun _ => cmdGpioWrite_keeps)

theorem execEventReadOldest_keeps {q : Bool} {s0 s : State} {x0}
    (h : Keeps q s0 s) : KOut q s0 (execEventReadOldest x0 s) :=
  runPacket_keeps h (fun _ => cmdEventRead_keeps)

theorem execSecQuery_keeps {q : Bool} {s0 s : State} {x0}
    (h : Keeps q s0 s) : KOut q s0 (execSecQuery x0 s) :=
  runPacket_keeps h (fun _ => cmdSecQuery_keeps)

theorem execFuseAuthHsp_keeps {s0 s : State} {x0}
    (h : Keeps false s0 s) : KOut false s0 (execFuseAuthHsp x0 s) :=
  runPacket_keeps h (fun _ => cmdFuse_keeps)

theorem execEventReadNewest_keeps {q : Bool} {s0 s : State} {x0}
    (h : Keeps q s0 s) : KOut q s0 (execEventReadNewest x0 s) :=
  runPacket_keeps h (fun _ => cmdEventRead_keeps)

theorem execUnitReset_keeps {q : Bool} {s0 s : State} {x0}
    (h : Keeps q s0 s) : KOut q s0 (execUnitReset x0 s) :=
  runPacket_keeps h (fun _ => cmdUnitReset_keeps)

theorem execGpioClr_keeps {q : Bool} {s0 s : State} {x0 x1}
    (h : Keeps q s0 s) : KOut q s0 (execGpioClr x0 x1 s) := by
  unfold execGpioClr
  repeat' first
    | with_reducible first | apply KOut.next | apply KOut.fault | apply KOut.refused | apply State.atTime_keeps | apply State.gpioClr_keeps
    | (extract_lets +onlyGivenNames x; refine (fun (hx : Keeps q s0 x) => ?_) ?_; clear_value x; rotate_left; subst x)
    | (extract_lets +onlyGivenNames x; clear_value x)
    | with_reducible assumption

theorem execSafeEntry_keeps {s0 s : State} {x0 x1}
    (h : Keeps false s0 s) : KOut false s0 (execSafeEntry x0 x1 s) := by
  unfold execSafeEntry
  repeat' first
    | with_reducible first | refine Keeps.ite ?_ ?_ | refine Keeps.opt ?_ ?_ | refine KOut.ite ?_ ?_ | refine KOut.opt ?_ ?_ | apply KOut.next | apply KOut.fault | apply KOut.refused | apply State.atTime_keeps | apply State.enterSafe_keeps
    | (intro _; try dsimp -zeta -iota -proj only)
    | (extract_lets +onlyGivenNames x; refine (fun (hx : Keeps false s0 x) => ?_) ?_; clear_value x; rotate_left; subst x)
    | (extract_lets +onlyGivenNames x; clear_value x)
    | with_reducible assumption
    | split

theorem execGpioCfgSet_keeps {q : Bool} {s0 s : State} {x0}
    (h : Keeps q s0 s) : KOut q s0 (execGpioCfgSet x0 s) :=
  runPacket_keeps h (fun _ => cmdGpioCfg_keeps)

theorem execFuseRevokeKey_keeps {s0 s : State} {x0}
    (h : Keeps false s0 s) : KOut false s0 (execFuseRevokeKey x0 s) :=
  runPacket_keeps h (fun _ => cmdFuse_keeps)

theorem execFuseKeyHash_keeps {s0 s : State} {x0}
    (h : Keeps false s0 s) : KOut false s0 (execFuseKeyHash x0 s) :=
  runPacket_keeps h (fun _ => cmdFuse_keeps)

theorem execGpioSet_keeps {q : Bool} {s0 s : State} {x0 x1}
    (h : Keeps q s0 s) : KOut q s0 (execGpioSet x0 x1 s) := by
  unfold execGpioSet
  repeat' first
    | with_reducible first | apply KOut.next | apply KOut.fault | apply KOut.refused | apply State.atTime_keeps | apply State.gpioSet_keeps
    | (extract_lets +onlyGivenNames x; refine (fun (hx : Keeps q s0 x) => ?_) ?_; clear_value x; rotate_left; subst x)
    | (extract_lets +onlyGivenNames x; clear_value x)
    | with_reducible assumption

theorem execEcho_keeps {q : Bool} {s0 s : State} {x0}
    (h : Keeps q s0 s) : KOut q s0 (execEcho x0 s) :=
  runPacket_keeps h (fun _ => cmdEcho_keeps)

end Sys2Proof.Machine
end

