-- ==== Sys2Proof/Laws/KeepsBus.lean ====
section
/-!
SUPPORT. What the operations of Bus.lean keep (`Keeps`).
-/

set_option linter.unusedSimpArgs false

namespace Sys2Proof.Machine

theorem State.txnEvent_keeps {q : Bool} {s0 s : State} {x1 x2 x3 x4 x5}
    (h : Keeps q s0 s) : Keeps q s0 (State.txnEvent s x1 x2 x3 x4 x5) := by
  unfold State.txnEvent
  repeat' first
    | with_reducible first | refine Keeps.ite ?_ ?_ | apply State.pmcPlus_keeps | refine Keeps.foldl _ ?_ ?_
    | (intro _; try dsimp -zeta -iota -proj only)
    | (extract_lets +onlyGivenNames x; refine (fun (hx : Keeps q s0 x) => ?_) ?_; clear_value x; rotate_left; subst x)
    | (extract_lets +onlyGivenNames x; clear_value x)
    | with_reducible assumption

theorem State.countBeats_keeps {q : Bool} {s0 s : State} {x1 x2 x3 x4 x5}
    (h : Keeps q s0 s) : Keeps q s0 (State.countBeats s x1 x2 x3 x4 x5) := by
  unfold State.countBeats
  repeat' first
    | with_reducible first | apply State.bwBytes_keeps | apply State.txnEvent_keeps
    | (extract_lets +onlyGivenNames x; refine (fun (hx : Keeps q s0 x) => ?_) ?_; clear_value x; rotate_left; subst x)
    | (extract_lets +onlyGivenNames x; clear_value x)
    | with_reducible assumption

theorem State.aliasWrite_keeps {s0 s : State} {x1 x2 x3}
    (h : Keeps false s0 s) : KFst false s0 (State.aliasWrite s x1 x2 x3) := by
  unfold State.aliasWrite
  repeat' first
    | with_reducible first | refine Keeps.ite ?_ ?_ | refine KFst.ite ?_ ?_ | apply State.wrByte_keeps | refine Keeps.foldl _ ?_ ?_ | refine KFst.foldl _ ?_ ?_ | apply KFst.st
    | (intro _; try dsimp -zeta -iota -proj only)
    | (extract_lets +onlyGivenNames x; refine (fun (hx : Keeps false s0 x) => ?_) ?_; clear_value x; rotate_left; subst x)
    | (extract_lets +onlyGivenNames x; refine (fun (hx : KFst false s0 x) => ?_) ?_; clear_value x; rotate_left; subst x)
    | (extract_lets +onlyGivenNames x; clear_value x)
    | simp -zeta only [↓KFst.pair_iff]
    | with_reducible assumption
    | with_reducible refine KFst.of_eq (by with_reducible assumption) ?_
    | with_reducible apply KFst.st

theorem State.memWrite_keeps {s0 s : State} {a bs} (h : Keeps false s0 s) : KFst false s0 (s.memWrite a bs) := by
  unfold State.memWrite
  extract_lets gs bad s1
  have h1 : Keeps false s0 s1 := h.mem_upd rfl id rfl rfl
  exact .pair (Keeps.foldl _ h1 (fun _ _ ht => Keeps.ite ht (State.wrByte_keeps ht)))

theorem State.mapWrite_keeps {s0 s : State} {x1 x2}
    (h : Keeps false s0 s) : KFst false s0 (State.mapWrite s x1 x2) := by
  unfold State.mapWrite
  repeat' first
    | with_reducible first | refine Keeps.ite ?_ ?_ | refine KFst.ite ?_ ?_ | apply State.aliasWrite_keeps | apply State.memWrite_keeps | apply KFst.st
    | (extract_lets +onlyGivenNames x; refine (fun (hx : Keeps false s0 x) => ?_) ?_; clear_value x; rotate_left; subst x)
    | (extract_lets +onlyGivenNames x; refine (fun (hx : KFst false s0 x) => ?_) ?_; clear_value x; rotate_left; subst x)
    | (extract_lets +onlyGivenNames x; clear_value x)
    | simp -zeta only [↓KFst.pair_iff]
    | with_reducible assumption
    | with_reducible refine KFst.of_eq (by with_reducible assumption) ?_
    | with_reducible apply KFst.st

theorem State.copyBytes_keeps {s0 s : State} {x1 x2 x3}
    (h : Keeps false s0 s) : Keeps false s0 (State.copyBytes s x1 x2 x3) := by
  unfold State.copyBytes
  repeat' first
    | with_reducible first | refine Keeps.ite ?_ ?_ | refine KFst.ite ?_ ?_ | apply State.countBeats_keeps | apply State.mapWrite_keeps | apply State.wr_keeps | apply KFst.st
    | (extract_lets +onlyGivenNames x; refine (fun (hx : Keeps false s0 x) => ?_) ?_; clear_value x; rotate_left; subst x)
    | (extract_lets +onlyGivenNames x; refine (fun (hx : KFst false s0 x) => ?_) ?_; clear_value x; rotate_left; subst x)
    | (extract_lets +onlyGivenNames x; clear_value x)
    | simp -zeta only [↓KFst.pair_iff]
    | with_reducible assumption
    | with_reducible refine KFst.of_eq (by with_reducible assumption) ?_
    | with_reducible apply KFst.st

theorem State.copyEnds_keeps {s0 s : State} {x1}
    (h : Keeps false s0 s) : Keeps false s0 (State.copyEnds s x1) := by
  unfold State.copyEnds
  repeat' first
    | with_reducible first | refine Keeps.opt ?_ ?_ | apply State.finishTicket_keeps | apply State.onStart_keeps | apply State.startNext_keeps
    | (intro _; try dsimp -zeta -iota -proj only)
    | (extract_lets +onlyGivenNames x; refine (fun (hx : Keeps false s0 x) => ?_) ?_; clear_value x; rotate_left; subst x)
    | (extract_lets +onlyGivenNames x; clear_value x)
    | with_reducible assumption
    | split

theorem execDmaCopyDone_keeps {s0 s : State} {x0 x1}
    (h : Keeps false s0 s) : KOut false s0 (execDmaCopyDone x0 x1 s) := by
  unfold execDmaCopyDone
  repeat' first
    | with_reducible first | refine Keeps.ite ?_ ?_ | refine Keeps.opt ?_ ?_ | refine KOut.ite ?_ ?_ | refine KOut.opt ?_ ?_ | apply KOut.next | apply KOut.fault | apply KOut.refused | apply State.atTime_keeps | apply State.copyBytes_keeps | apply State.copyEnds_keeps | apply State.setFlag_keeps
    | (intro _; try dsimp -zeta -iota -proj only)
    | (extract_lets +onlyGivenNames x; refine (fun (hx : Keeps false s0 x) => ?_) ?_; clear_value x; rotate_left; subst x)
    | (extract_lets +onlyGivenNames x; clear_value x)
    | simp -zeta only [↓Keeps.mk_iff]
    | with_reducible assumption
    | split

theorem State.grant_keeps {q : Bool} {s0 s : State} {x1 x2}
    (h : Keeps q s0 s) : Keeps q s0 (State.grant s x1 x2) := by
  unfold State.grant
  repeat' first
    | with_reducible first | refine Keeps.ite ?_ ?_ | apply State.bump_keeps
    | (extract_lets +onlyGivenNames x; refine (fun (hx : Keeps q s0 x) => ?_) ?_; clear_value x; rotate_left; subst x)
    | (extract_lets +onlyGivenNames x; clear_value x)
    | simp -zeta only [↓Keeps.mk_iff]
    | with_reducible assumption

theorem State.countPoison_keeps {q : Bool} {s0 s : State} {x1 x2}
    (h : Keeps q s0 s) : Keeps q s0 (State.countPoison s x1 x2) := by
  unfold State.countPoison
  repeat' first
    | with_reducible first | refine Keeps.ite ?_ ?_ | apply State.count_keeps
    | (extract_lets +onlyGivenNames x; refine (fun (hx : Keeps q s0 x) => ?_) ?_; clear_value x; rotate_left; subst x)
    | (extract_lets +onlyGivenNames x; clear_value x)
    | with_reducible assumption

theorem State.respond_keeps {q : Bool} {s0 s : State} {x1 x2 x3}
    (h : Keeps q s0 s) : Keeps q s0 (State.respond s x1 x2 x3) := by
  unfold State.respond
  repeat' first
    | (extract_lets +onlyGivenNames x; refine (fun (hx : Keeps q s0 x) => ?_) ?_; clear_value x; rotate_left; subst x)
    | (extract_lets +onlyGivenNames x; clear_value x)
    | simp -zeta only [↓Keeps.mk_iff]
    | with_reducible assumption

theorem State.unhold_keeps {q : Bool} {s0 s : State} {x1}
    (h : Keeps q s0 s) : Keeps q s0 (State.unhold s x1) := by
  unfold State.unhold
  repeat' first
    | with_reducible first | apply State.setFlag_keeps
    | (extract_lets +onlyGivenNames x; refine (fun (hx : Keeps q s0 x) => ?_) ?_; clear_value x; rotate_left; subst x)
    | (extract_lets +onlyGivenNames x; clear_value x)
    | with_reducible assumption

theorem State.errorAnswer_keeps {q : Bool} {s0 s : State} {x1 x2 x3}
    (h : Keeps q s0 s) : Keeps q s0 (State.errorAnswer s x1 x2 x3) := by
  unfold State.errorAnswer
  repeat' first
    | with_reducible first | refine Keeps.ite ?_ ?_ | apply State.decErr_keeps | apply State.respond_keeps | apply State.txnEvent_keeps | apply State.unhold_keeps
    | (extract_lets +onlyGivenNames x; refine (fun (hx : Keeps q s0 x) => ?_) ?_; clear_value x; rotate_left; subst x)
    | (extract_lets +onlyGivenNames x; clear_value x)
    | with_reducible assumption

theorem State.holdCap_keeps {q : Bool} {s0 s : State} {x1 x2}
    (h : Keeps q s0 s) : Keeps q s0 (State.holdCap s x1 x2) := by
  unfold State.holdCap
  repeat' first
    | with_reducible first | apply State.count_keeps | apply State.setFlag_keeps
    | (extract_lets +onlyGivenNames x; refine (fun (hx : Keeps q s0 x) => ?_) ?_; clear_value x; rotate_left; subst x)
    | (extract_lets +onlyGivenNames x; clear_value x)
    | simp -zeta only [↓Keeps.mk_iff]
    | with_reducible assumption

theorem State.holdOrd_keeps {q : Bool} {s0 s : State} {x1 x2}
    (h : Keeps q s0 s) : Keeps q s0 (State.holdOrd s x1 x2) := by
  unfold State.holdOrd
  repeat' first
    | with_reducible first | apply State.count_keeps | apply State.setFlag_keeps
    | (extract_lets +onlyGivenNames x; refine (fun (hx : Keeps q s0 x) => ?_) ?_; clear_value x; rotate_left; subst x)
    | (extract_lets +onlyGivenNames x; clear_value x)
    | simp -zeta only [↓Keeps.mk_iff]
    | with_reducible assumption

theorem State.touch_keeps {q : Bool} {s0 s : State} {x1}
    (h : Keeps q s0 s) : Keeps q s0 (State.touch s x1) := by
  unfold State.touch
  repeat' first
    | (extract_lets +onlyGivenNames x; refine (fun (hx : Keeps q s0 x) => ?_) ?_; clear_value x; rotate_left; subst x)
    | (extract_lets +onlyGivenNames x; clear_value x)
    | simp -zeta only [↓Keeps.mk_iff]
    | with_reducible assumption

theorem State.touchEnds_keeps {q : Bool} {s0 s : State} {x1 x2 x3}
    (h : Keeps q s0 s) : Keeps q s0 (State.touchEnds s x1 x2 x3) := by
  unfold State.touchEnds
  repeat' first
    | with_reducible first | refine Keeps.ite ?_ ?_ | apply State.touch_keeps | refine Keeps.foldl _ ?_ ?_
    | (intro _; try dsimp -zeta -iota -proj only)
    | (extract_lets +onlyGivenNames x; refine (fun (hx : Keeps q s0 x) => ?_) ?_; clear_value x; rotate_left; subst x)
    | (extract_lets +onlyGivenNames x; clear_value x)
    | with_reducible assumption

theorem State.regTxn_keeps {q : Bool} {s0 s : State} {x1}
    (h : Keeps q s0 s) : Keeps q s0 (State.regTxn s x1) := by
  unfold State.regTxn
  repeat' first
    | with_reducible first | refine Keeps.ite ?_ ?_ | refine KFst.ite ?_ ?_ | apply State.countBeats_keeps | apply State.readReg_keeps | apply State.respond_keeps | apply State.touchEnds_keeps | apply State.txnEvent_keeps | apply State.unhold_keeps | apply State.writeReg_keeps | apply KFst.st
    | (extract_lets +onlyGivenNames x; refine (fun (hx : Keeps q s0 x) => ?_) ?_; clear_value x; rotate_left; subst x)
    | (extract_lets +onlyGivenNames x; refine (fun (hx : KFst q s0 x) => ?_) ?_; clear_value x; rotate_left; subst x)
    | (extract_lets +onlyGivenNames x; clear_value x)
    | simp -zeta only [↓KFst.pair_iff]
    | with_reducible assumption
    | with_reducible refine KFst.of_eq (by with_reducible assumption) ?_
    | with_reducible apply KFst.st

theorem State.answerTxn_keeps {q : Bool} {s0 s : State} {x1 x2 x3}
    (h : Keeps q s0 s) : Keeps q s0 (State.answerTxn s x1 x2 x3) := by
  unfold State.answerTxn
  repeat' first
    | with_reducible first | refine Keeps.ite ?_ ?_ | apply State.respond_keeps | apply State.txnEvent_keeps
    | (extract_lets +onlyGivenNames x; refine (fun (hx : Keeps q s0 x) => ?_) ?_; clear_value x; rotate_left; subst x)
    | (extract_lets +onlyGivenNames x; clear_value x)
    | with_reducible assumption

theorem State.dramServe_keeps {q : Bool} {s0 s : State} {x1}
    (h : Keeps q s0 s) : Keeps q s0 (State.dramServe s x1) := by
  unfold State.dramServe
  repeat' first
    | with_reducible first | refine Keeps.ite ?_ ?_ | apply State.activate_keeps | apply State.bump_keeps | apply State.setDom_keeps | refine Keeps.foldl _ ?_ ?_
    | (intro _; try dsimp -zeta -iota -proj only)
    | (extract_lets +onlyGivenNames x; refine (fun (hx : Keeps q s0 x) => ?_) ?_; clear_value x; rotate_left; subst x)
    | (extract_lets +onlyGivenNames x; clear_value x)
    | with_reducible assumption

theorem State.eccError_keeps {s0 s : State} {x1 x2}
    (h : Keeps false s0 s) : Keeps false s0 (State.eccError s x1 x2) := by
  unfold State.eccError
  repeat' first
    | with_reducible first | refine Keeps.ite ?_ ?_ | refine Keeps.opt ?_ ?_ | apply State.dmcCorrected_keeps | apply State.dmcLasting_keeps | apply State.dmcTransient_keeps | apply State.memCorrected_keeps | apply State.memLasting_keeps | apply State.memTransient_keeps
    | (intro _; try dsimp -zeta -iota -proj only)
    | (extract_lets +onlyGivenNames x; refine (fun (hx : Keeps false s0 x) => ?_) ?_; clear_value x; rotate_left; subst x)
    | (extract_lets +onlyGivenNames x; clear_value x)
    | with_reducible assumption
    | split

theorem State.perform_keeps {s0 s : State} {x1 x2 x3 x4 x5 x6}
    (h : Keeps false s0 s) : KFst false s0 (State.perform s x1 x2 x3 x4 x5 x6) := by
  unfold State.perform
  repeat' first
    | with_reducible first | refine Keeps.ite ?_ ?_ | refine KFst.ite ?_ ?_ | apply State.countBeats_keeps | apply State.countPoison_keeps | apply State.eccError_keeps | apply State.mapWrite_keeps | refine Keeps.foldl _ ?_ ?_ | refine KFst.foldl _ ?_ ?_ | apply KFst.st
    | (intro _; try dsimp -zeta -iota -proj only)
    | (extract_lets +onlyGivenNames x; refine (fun (hx : Keeps false s0 x) => ?_) ?_; clear_value x; rotate_left; subst x)
    | (extract_lets +onlyGivenNames x; refine (fun (hx : KFst false s0 x) => ?_) ?_; clear_value x; rotate_left; subst x)
    | (extract_lets +onlyGivenNames x; clear_value x)
    | simp -zeta only [↓KFst.pair_iff]
    | with_reducible assumption
    | with_reducible refine KFst.of_eq (by with_reducible assumption) ?_
    | with_reducible apply KFst.st

theorem State.takeTxn_keeps {s0 s : State} {x1 x2}
    (h : Keeps false s0 s) : Keeps false s0 (State.takeTxn s x1 x2) := by
  unfold State.takeTxn
  repeat' first
    | with_reducible first | refine Keeps.ite ?_ ?_ | refine KFst.ite ?_ ?_ | apply State.answerTxn_keeps | apply State.dramServe_keeps | apply State.grant_keeps | apply State.perform_keeps | apply State.touchEnds_keeps | apply State.txnEvent_keeps | apply State.unhold_keeps | apply KFst.st
    | (extract_lets +onlyGivenNames x; refine (fun (hx : Keeps false s0 x) => ?_) ?_; clear_value x; rotate_left; subst x)
    | (extract_lets +onlyGivenNames x; refine (fun (hx : KFst false s0 x) => ?_) ?_; clear_value x; rotate_left; subst x)
    | (extract_lets +onlyGivenNames x; clear_value x)
    | simp -zeta only [↓Keeps.mk_iff, ↓KFst.pair_iff]
    | with_reducible assumption
    | with_reducible refine KFst.of_eq (by with_reducible assumption) ?_
    | with_reducible apply KFst.st

theorem State.request_keeps {s0 s : State} {x1}
    (h : Keeps false s0 s) : Keeps false s0 (State.request s x1) := by
  unfold State.request
  repeat' first
    | with_reducible first | refine Keeps.ite ?_ ?_ | refine Keeps.opt ?_ ?_ | apply State.errorAnswer_keeps | apply State.grant_keeps | apply State.holdCap_keeps | apply State.holdOrd_keeps | apply State.regTxn_keeps | apply State.takeTxn_keeps
    | (intro _; try dsimp -zeta -iota -proj only)
    | (extract_lets +onlyGivenNames x; refine (fun (hx : Keeps false s0 x) => ?_) ?_; clear_value x; rotate_left; subst x)
    | (extract_lets +onlyGivenNames x; clear_value x)
    | with_reducible assumption
    | split

theorem execDmaCopyError_keeps {s0 s : State} {x0 x1 x2 x3 x4}
    (h : Keeps false s0 s) : KOut false s0 (execDmaCopyError x0 x1 x2 x3 x4 s) := by
  unfold execDmaCopyError
  repeat' first
    | with_reducible first | refine Keeps.ite ?_ ?_ | refine Keeps.opt ?_ ?_ | refine KOut.ite ?_ ?_ | refine KOut.opt ?_ ?_ | apply KOut.next | apply KOut.fault | apply KOut.refused | apply State.atTime_keeps | apply State.copyBytes_keeps | apply State.copyEnds_keeps | apply State.countPoison_keeps | apply State.decErr_keeps | apply State.dmaFail_keeps | apply State.wr_keeps
    | (intro _; try dsimp -zeta -iota -proj only)
    | (extract_lets +onlyGivenNames x; refine (fun (hx : Keeps false s0 x) => ?_) ?_; clear_value x; rotate_left; subst x)
    | (extract_lets +onlyGivenNames x; clear_value x)
    | with_reducible assumption
    | split

theorem State.aliasRow_keeps {s0 s : State} {x1 x2 x3 x4}
    (h : Keeps false s0 s) : Keeps false s0 (State.aliasRow s x1 x2 x3 x4) := by
  unfold State.aliasRow
  repeat' first
    | with_reducible first | refine Keeps.ite ?_ ?_ | apply State.request_keeps
    | (extract_lets +onlyGivenNames x; refine (fun (hx : Keeps false s0 x) => ?_) ?_; clear_value x; rotate_left; subst x)
    | (extract_lets +onlyGivenNames x; clear_value x)
    | with_reducible assumption

theorem execBitClearWrite_keeps {s0 s : State} {x0 x1 x2 x3 x4}
    (h : Keeps false s0 s) : KOut false s0 (execBitClearWrite x0 x1 x2 x3 x4 s) := by
  unfold execBitClearWrite
  repeat' first
    | with_reducible first | apply KOut.next | apply KOut.fault | apply KOut.refused | apply State.aliasRow_keeps | apply State.atTime_keeps
    | (extract_lets +onlyGivenNames x; refine (fun (hx : Keeps false s0 x) => ?_) ?_; clear_value x; rotate_left; subst x)
    | (extract_lets +onlyGivenNames x; clear_value x)
    | with_reducible assumption

theorem State.goOn_keeps {s0 s : State} {x1}
    (h : Keeps false s0 s) : Keeps false s0 (State.goOn s x1) := by
  unfold State.goOn
  repeat' first
    | with_reducible first | refine Keeps.ite ?_ ?_ | refine Keeps.opt ?_ ?_ | refine KFst.ite ?_ ?_ | refine KFst.opt ?_ ?_ | apply State.answerTxn_keeps | apply State.dramServe_keeps | apply State.perform_keeps | apply State.touchEnds_keeps | apply KFst.st
    | (intro _; try dsimp -zeta -iota -proj only)
    | (extract_lets +onlyGivenNames x; refine (fun (hx : Keeps false s0 x) => ?_) ?_; clear_value x; rotate_left; subst x)
    | (extract_lets +onlyGivenNames x; refine (fun (hx : KFst false s0 x) => ?_) ?_; clear_value x; rotate_left; subst x)
    | (extract_lets +onlyGivenNames x; clear_value x)
    | simp -zeta only [↓Keeps.mk_iff, ↓KFst.pair_iff]
    | with_reducible assumption
    | with_reducible refine KFst.of_eq (by with_reducible assumption) ?_
    | with_reducible apply KFst.st
    | split

theorem execSpineTransaction_keeps {s0 s : State} {x0 x1}
    (h : Keeps false s0 s) : KOut false s0 (execSpineTransaction x0 x1 s) := by
  unfold execSpineTransaction
  repeat' first
    | with_reducible first | refine Keeps.ite ?_ ?_ | refine KOut.ite ?_ ?_ | apply KOut.next | apply KOut.fault | apply KOut.refused | apply State.atTime_keeps | apply State.goOn_keeps | apply State.request_keeps
    | (extract_lets +onlyGivenNames x; refine (fun (hx : Keeps false s0 x) => ?_) ?_; clear_value x; rotate_left; subst x)
    | (extract_lets +onlyGivenNames x; clear_value x)
    | with_reducible assumption

theorem execBitSetWrite_keeps {s0 s : State} {x0 x1 x2 x3 x4}
    (h : Keeps false s0 s) : KOut false s0 (execBitSetWrite x0 x1 x2 x3 x4 s) := by
  unfold execBitSetWrite
  repeat' first
    | with_reducible first | apply KOut.next | apply KOut.fault | apply KOut.refused | apply State.aliasRow_keeps | apply State.atTime_keeps
    | (extract_lets +onlyGivenNames x; refine (fun (hx : Keeps false s0 x) => ?_) ?_; clear_value x; rotate_left; subst x)
    | (extract_lets +onlyGivenNames x; clear_value x)
    | with_reducible assumption

end Sys2Proof.Machine
end

