-- ==== Sys2Proof/Laws/KeepsFormat.lean ====
section
/-!
SUPPORT. What the operations of Format.lean keep (`Keeps`).
-/

set_option linter.unusedSimpArgs false

namespace Sys2Proof.Machine

theorem cmdBudgetQuery_keeps {q : Bool} {s0 s : State} {x0}
    (h : Keeps q s0 s) : KRes q s0 (cmdBudgetQuery x0 s) := by
  unfold cmdBudgetQuery
  repeat' first
    | with_reducible first | apply KRes.ok | apply KRes.fail | apply KRes.long | apply KRes.hold | apply KRes.done
    | (extract_lets +onlyGivenNames x; refine (fun (hx : Keeps q s0 x) => ?_) ?_; clear_value x; rotate_left; subst x)
    | (extract_lets +onlyGivenNames x; clear_value x)
    | with_reducible assumption

theorem State.applyFormat_keeps {q : Bool} {s0 s : State} {x1 x2}
    (h : Keeps q s0 s) : Keeps q s0 (State.applyFormat s x1 x2) := by
  unfold State.applyFormat
  repeat' first
    | with_reducible first | refine Keeps.ite ?_ ?_ | apply State.irq_keeps | apply State.retransformAll_keeps | apply State.setFld_keeps | apply State.settleHead_keeps | refine Keeps.foldl _ ?_ ?_
    | (intro _; try dsimp -zeta -iota -proj only)
    | (extract_lets +onlyGivenNames x; refine (fun (hx : Keeps q s0 x) => ?_) ?_; clear_value x; rotate_left; subst x)
    | (extract_lets +onlyGivenNames x; clear_value x)
    | with_reducible assumption

theorem cmdRenderFormatSet_keeps {q : Bool} {s0 s : State} {p} (h : Keeps q s0 s) :
    KRes q s0 (cmdRenderFormatSet p s) := by
  unfold cmdRenderFormatSet
  extract_lets r c
  refine KRes.ite (.fail h) ?_
  generalize s.overBudget r = o1
  generalize s.formatPort r = o2
  generalize s.formatStream r = o3
  generalize s.fxTooFast (folioOf c) (rateHz r) = o4
  cases o1 with
  | some i => exact .fail h
  | none =>
    cases o2 with
    | some i => exact .fail h
    | none =>
      cases o3 with
      | some i => exact .fail h
      | none =>
        cases o4 with
        | some i => exact .fail h
        | none => exact KRes.ite (.long h) (.ok (State.applyFormat_keeps h))

theorem finRenderFormat_keeps {q : Bool} {s0 s : State} {x1}
    (h : Keeps q s0 s) : KFst q s0 (finRenderFormat s x1) := by
  unfold finRenderFormat
  repeat' first
    | with_reducible first | apply State.applyFormat_keeps | apply KFst.st
    | (extract_lets +onlyGivenNames x; refine (fun (hx : Keeps q s0 x) => ?_) ?_; clear_value x; rotate_left; subst x)
    | (extract_lets +onlyGivenNames x; refine (fun (hx : KFst q s0 x) => ?_) ?_; clear_value x; rotate_left; subst x)
    | (extract_lets +onlyGivenNames x; clear_value x)
    | simp -zeta only [↓KFst.pair_iff]
    | with_reducible assumption
    | with_reducible refine KFst.of_eq (by with_reducible assumption) ?_
    | with_reducible apply KFst.st

theorem execBudgetQuery_keeps {q : Bool} {s0 s : State} {x0}
    (h : Keeps q s0 s) : KOut q s0 (execBudgetQuery x0 s) :=
  runPacket_keeps h (fun _ => cmdBudgetQuery_keeps)

theorem execRenderFormatSet_keeps {q : Bool} {s0 s : State} {x0}
    (h : Keeps q s0 s) : KOut q s0 (execRenderFormatSet x0 s) :=
  runPacket_keeps h (fun _ => cmdRenderFormatSet_keeps)

end Sys2Proof.Machine
end

