-- ==== Sys2Proof/Laws/KeepsPairCore.lean ====
section
/-!
SUPPORT. What the operations of PairCore.lean keep (`Keeps`).
-/

set_option linter.unusedSimpArgs false

namespace Sys2Proof.Machine

theorem State.setRphase_keeps {q : Bool} {s0 s : State} {x1}
    (h : Keeps q s0 s) : Keeps q s0 (State.setRphase s x1) := by
  unfold State.setRphase
  repeat' first
    | with_reducible first | apply State.setFld_keeps
    | (extract_lets +onlyGivenNames x; refine (fun (hx : Keeps q s0 x) => ?_) ?_; clear_value x; rotate_left; subst x)
    | (extract_lets +onlyGivenNames x; clear_value x)
    | with_reducible assumption

theorem State.setRun_keeps {q : Bool} {s0 s : State} {x1}
    (h : Keeps q s0 s) : Keeps q s0 (State.setRun s x1) := by
  unfold State.setRun
  repeat' first
    | with_reducible first | apply State.setFld_keeps
    | (extract_lets +onlyGivenNames x; refine (fun (hx : Keeps q s0 x) => ?_) ?_; clear_value x; rotate_left; subst x)
    | (extract_lets +onlyGivenNames x; clear_value x)
    | with_reducible assumption

theorem State.becomeUnsync_keeps {q : Bool} {s0 s : State}
    (h : Keeps q s0 s) : Keeps q s0 (State.becomeUnsync s) := by
  unfold State.becomeUnsync
  repeat' first
    | with_reducible first | apply State.bump_keeps | apply State.irq_keeps | apply State.setMode_keeps | apply State.setPstate_keeps | apply State.setRphase_keeps | apply State.setRun_keeps
    | (extract_lets +onlyGivenNames x; refine (fun (hx : Keeps q s0 x) => ?_) ?_; clear_value x; rotate_left; subst x)
    | (extract_lets +onlyGivenNames x; clear_value x)
    | with_reducible assumption

theorem State.dropRecords_keeps {q : Bool} {s0 s : State}
    (h : Keeps q s0 s) : Keeps q s0 (State.dropRecords s) := by
  unfold State.dropRecords
  repeat' first
    | (extract_lets +onlyGivenNames x; refine (fun (hx : Keeps q s0 x) => ?_) ?_; clear_value x; rotate_left; subst x)
    | (extract_lets +onlyGivenNames x; clear_value x)
    | simp -zeta only [↓Keeps.mk_iff]
    | with_reducible assumption

theorem State.beginPhase_keeps {q : Bool} {s0 s : State} {x1}
    (h : Keeps q s0 s) : Keeps q s0 (State.beginPhase s x1) := by
  unfold State.beginPhase
  repeat' first
    | with_reducible first | apply State.dropRecords_keeps | apply State.setFld_keeps | apply State.setRphase_keeps
    | (extract_lets +onlyGivenNames x; refine (fun (hx : Keeps q s0 x) => ?_) ?_; clear_value x; rotate_left; subst x)
    | (extract_lets +onlyGivenNames x; clear_value x)
    | simp -zeta only [↓Keeps.mk_iff]
    | with_reducible assumption

theorem State.startResync_keeps {q : Bool} {s0 s : State}
    (h : Keeps q s0 s) : Keeps q s0 (State.startResync s) := by
  unfold State.startResync
  repeat' first
    | with_reducible first | apply State.beginPhase_keeps | apply State.setFld_keeps | apply State.setMode_keeps | apply State.setPstate_keeps | apply State.setRun_keeps | apply State.wakeAll_keeps
    | (extract_lets +onlyGivenNames x; refine (fun (hx : Keeps q s0 x) => ?_) ?_; clear_value x; rotate_left; subst x)
    | (extract_lets +onlyGivenNames x; clear_value x)
    | with_reducible assumption

theorem State.failResync_keeps {q : Bool} {s0 s : State}
    (h : Keeps q s0 s) : Keeps q s0 (State.failResync s) := by
  unfold State.failResync
  repeat' first
    | with_reducible first | refine Keeps.ite ?_ ?_ | apply State.becomeUnsync_keeps | apply State.beginPhase_keeps | apply State.bump_keeps | apply State.dropRecords_keeps | apply State.irq_keeps | apply State.setFld_keeps
    | (extract_lets +onlyGivenNames x; refine (fun (hx : Keeps q s0 x) => ?_) ?_; clear_value x; rotate_left; subst x)
    | (extract_lets +onlyGivenNames x; clear_value x)
    | with_reducible assumption

theorem State.digestBad_keeps {q : Bool} {s0 s : State}
    (h : Keeps q s0 s) : Keeps q s0 (State.digestBad s) := by
  unfold State.digestBad
  repeat' first
    | with_reducible first | refine Keeps.ite ?_ ?_ | apply State.becomeUnsync_keeps | apply State.bump_keeps | apply State.failResync_keeps | apply State.irq_keeps | apply State.setRun_keeps
    | (extract_lets +onlyGivenNames x; refine (fun (hx : Keeps q s0 x) => ?_) ?_; clear_value x; rotate_left; subst x)
    | (extract_lets +onlyGivenNames x; clear_value x)
    | with_reducible assumption

theorem State.verified_keeps {q : Bool} {s0 s : State}
    (h : Keeps q s0 s) : Keeps q s0 (State.verified s) := by
  unfold State.verified
  repeat' first
    | with_reducible first | apply State.bump_keeps | apply State.irq_keeps | apply State.setMode_keeps | apply State.setPstate_keeps | apply State.setRphase_keeps | apply State.setRun_keeps
    | (extract_lets +onlyGivenNames x; refine (fun (hx : Keeps q s0 x) => ?_) ?_; clear_value x; rotate_left; subst x)
    | (extract_lets +onlyGivenNames x; clear_value x)
    | with_reducible assumption

theorem State.digestOk_keeps {q : Bool} {s0 s : State}
    (h : Keeps q s0 s) : Keeps q s0 (State.digestOk s) := by
  unfold State.digestOk
  repeat' first
    | with_reducible first | refine Keeps.ite ?_ ?_ | apply State.setRun_keeps | apply State.verified_keeps
    | (extract_lets +onlyGivenNames x; refine (fun (hx : Keeps q s0 x) => ?_) ?_; clear_value x; rotate_left; subst x)
    | (extract_lets +onlyGivenNames x; clear_value x)
    | simp -zeta only [↓Keeps.mk_iff]
    | with_reducible assumption

theorem State.compareDigests_keeps {q : Bool} {s0 s : State} {x1}
    (h : Keeps q s0 s) : Keeps q s0 (State.compareDigests s x1) := by
  unfold State.compareDigests
  repeat' first
    | with_reducible first | refine Keeps.ite ?_ ?_ | refine Keeps.opt ?_ ?_ | apply State.digestBad_keeps | apply State.digestOk_keeps | apply State.wr_keeps
    | (intro _; try dsimp -zeta -iota -proj only)
    | (extract_lets +onlyGivenNames x; refine (fun (hx : Keeps q s0 x) => ?_) ?_; clear_value x; rotate_left; subst x)
    | (extract_lets +onlyGivenNames x; clear_value x)
    | simp -zeta only [↓Keeps.mk_iff]
    | with_reducible assumption
    | split

end Sys2Proof.Machine
end

