-- ==== Sys2Proof/Laws/KeepsTick.lean ====
section
/-!
SUPPORT. What the operations of Tick.lean keep (`Keeps`).
-/

set_option linter.unusedSimpArgs false

namespace Sys2Proof.Machine

theorem State.countMiss_keeps {s0 s : State} {x1}
    (h : Keeps false s0 s) : Keeps false s0 (State.countMiss s x1) := by
  unfold State.countMiss
  repeat' first
    | with_reducible first | refine Keeps.ite ?_ ?_ | apply State.bump_keeps | apply State.enterSafe_keeps | apply State.logEvent_keeps | apply State.setFlag_keeps | apply State.setFld_keeps
    | (extract_lets +onlyGivenNames x; refine (fun (hx : Keeps false s0 x) => ?_) ?_; clear_value x; rotate_left; subst x)
    | (extract_lets +onlyGivenNames x; clear_value x)
    | simp -zeta only [↓Keeps.mk_iff]
    | with_reducible assumption

theorem State.countNodest_keeps {q : Bool} {s0 s : State} {x1}
    (h : Keeps q s0 s) : Keeps q s0 (State.countNodest s x1) := by
  unfold State.countNodest
  repeat' first
    | with_reducible first | refine Keeps.ite ?_ ?_ | apply State.count_keeps | apply State.irq_keeps
    | (extract_lets +onlyGivenNames x; refine (fun (hx : Keeps q s0 x) => ?_) ?_; clear_value x; rotate_left; subst x)
    | (extract_lets +onlyGivenNames x; clear_value x)
    | with_reducible assumption

theorem State.putEmission_keeps {q : Bool} {s0 s : State} {x1 x2}
    (h : Keeps q s0 s) : Keeps q s0 (State.putEmission s x1 x2) := by
  unfold State.putEmission
  repeat' first
    | (extract_lets +onlyGivenNames x; refine (fun (hx : Keeps q s0 x) => ?_) ?_; clear_value x; rotate_left; subst x)
    | (extract_lets +onlyGivenNames x; clear_value x)
    | simp -zeta only [↓Keeps.mk_iff]
    | with_reducible assumption

theorem State.folioKept_keeps {q : Bool} {s0 s : State} {x1}
    (h : Keeps q s0 s) : Keeps q s0 (State.folioKept s x1) := by
  unfold State.folioKept
  repeat' first
    | with_reducible first | apply State.chainsCommit_keeps | apply State.mixCommit_keeps | apply State.putEmission_keeps | apply State.setFld_keeps | apply State.swapFolioDone_keeps
    | (extract_lets +onlyGivenNames x; refine (fun (hx : Keeps q s0 x) => ?_) ?_; clear_value x; rotate_left; subst x)
    | (extract_lets +onlyGivenNames x; clear_value x)
    | simp -zeta only [↓Keeps.mk_iff]
    | with_reducible assumption

theorem State.folioMissed_keeps {s0 s : State} {x1}
    (h : Keeps false s0 s) : Keeps false s0 (State.folioMissed s x1) := by
  unfold State.folioMissed
  repeat' first
    | with_reducible first | refine Keeps.ite ?_ ?_ | apply State.abandonFab_keeps | apply State.cancelTickets_keeps | apply State.chainsMiss_keeps | apply State.countMiss_keeps | apply State.mixMiss_keeps | apply State.putEmission_keeps | apply State.tailLate_keeps | apply State.wr_keeps
    | (extract_lets +onlyGivenNames x; refine (fun (hx : Keeps false s0 x) => ?_) ?_; clear_value x; rotate_left; subst x)
    | (extract_lets +onlyGivenNames x; clear_value x)
    | with_reducible assumption

theorem State.releaseEgress_keeps {s0 s : State} {x1 x2}
    (h : Keeps false s0 s) : Keeps false s0 (State.releaseEgress s x1 x2) := by
  unfold State.releaseEgress
  repeat' first
    | with_reducible first | refine Keeps.ite ?_ ?_ | apply State.bump_keeps | apply State.cancelTickets_keeps | apply State.irq_keeps | apply State.trace_keeps
    | (extract_lets +onlyGivenNames x; refine (fun (hx : Keeps false s0 x) => ?_) ?_; clear_value x; rotate_left; subst x)
    | (extract_lets +onlyGivenNames x; clear_value x)
    | simp -zeta only [↓Keeps.mk_iff]
    | with_reducible assumption

theorem State.sealFolio_keeps {q : Bool} {s0 s : State} {x1 x2}
    (h : Keeps q s0 s) : Keeps q s0 (State.sealFolio s x1 x2) := by
  unfold State.sealFolio
  repeat' first
    | with_reducible first | refine Keeps.ite ?_ ?_ | apply State.compareDigests_keeps | apply State.sched_keeps | apply State.tether_keeps
    | (extract_lets +onlyGivenNames x; refine (fun (hx : Keeps q s0 x) => ?_) ?_; clear_value x; rotate_left; subst x)
    | (extract_lets +onlyGivenNames x; clear_value x)
    | simp -zeta only [↓Keeps.mk_iff]
    | with_reducible assumption

theorem State.judgeFolio_keeps {s0 s : State} {x1 x2}
    (h : Keeps false s0 s) : Keeps false s0 (State.judgeFolio s x1 x2) := by
  unfold State.judgeFolio
  repeat' first
    | with_reducible first | refine Keeps.ite ?_ ?_ | apply State.countNodest_keeps | apply State.folioKept_keeps | apply State.folioMissed_keeps | apply State.probeJudge_keeps | apply State.releaseEgress_keeps | apply State.sealFolio_keeps | apply State.sweepJudge_keeps | refine Keeps.foldl _ ?_ ?_
    | (intro _; try dsimp -zeta -iota -proj only)
    | (extract_lets +onlyGivenNames x; refine (fun (hx : Keeps false s0 x) => ?_) ?_; clear_value x; rotate_left; subst x)
    | (extract_lets +onlyGivenNames x; clear_value x)
    | simp -zeta only [↓Keeps.mk_iff]
    | with_reducible assumption

theorem State.judgeAs_keeps {s0 s : State} {x1 x2}
    (h : Keeps false s0 s) : Keeps false s0 (State.judgeAs s x1 x2) := by
  unfold State.judgeAs
  repeat' first
    | with_reducible first | refine Keeps.ite ?_ ?_ | apply State.bump_keeps | apply State.judgeFolio_keeps
    | (extract_lets +onlyGivenNames x; refine (fun (hx : Keeps false s0 x) => ?_) ?_; clear_value x; rotate_left; subst x)
    | (extract_lets +onlyGivenNames x; clear_value x)
    | with_reducible assumption

theorem State.clearPlane_keeps {s0 s : State}
    (h : Keeps false s0 s) : Keeps false s0 (State.clearPlane s) := by
  unfold State.clearPlane
  repeat' first
    | with_reducible first | apply State.busSilRestart_keeps | apply State.eqCount_keeps | apply State.loseMem_keeps | apply State.setMixDom_keeps | apply State.silRestart_keeps
    | (extract_lets +onlyGivenNames x; refine (fun (hx : Keeps false s0 x) => ?_) ?_; clear_value x; rotate_left; subst x)
    | (extract_lets +onlyGivenNames x; clear_value x)
    | simp -zeta only [↓Keeps.mk_iff]
    | with_reducible assumption

theorem State.fillAll_keeps {q : Bool} {s0 s : State}
    (h : Keeps q s0 s) : Keeps q s0 (State.fillAll s) := by
  unfold State.fillAll
  repeat' first
    | with_reducible first | apply State.fillTickets_keeps | refine Keeps.foldl _ ?_ ?_
    | (intro _; try dsimp -zeta -iota -proj only)
    | (extract_lets +onlyGivenNames x; refine (fun (hx : Keeps q s0 x) => ?_) ?_; clear_value x; rotate_left; subst x)
    | (extract_lets +onlyGivenNames x; clear_value x)
    | with_reducible assumption

theorem State.startPlane_keeps {s0 s : State} {x1 x2}
    (h : Keeps false s0 s) : Keeps false s0 (State.startPlane s x1 x2) := by
  unfold State.startPlane
  repeat' first
    | with_reducible first | refine Keeps.ite ?_ ?_ | apply State.cancelTickets_keeps | apply State.clearPlane_keeps | apply State.dropResults_keeps | apply State.fillAll_keeps | apply State.setFld_keeps | apply State.stopProbing_keeps
    | (extract_lets +onlyGivenNames x; refine (fun (hx : Keeps false s0 x) => ?_) ?_; clear_value x; rotate_left; subst x)
    | (extract_lets +onlyGivenNames x; clear_value x)
    | simp -zeta only [↓Keeps.mk_iff]
    | with_reducible assumption

theorem State.applyTick_keeps {s0 s : State}
    (h : Keeps false s0 s) : Keeps false s0 (State.applyTick s) := by
  unfold State.applyTick
  repeat' first
    | with_reducible first | apply State.applyDue_keeps | apply State.runDeferred_keeps | refine Keeps.foldl _ ?_ ?_
    | (intro _; try dsimp -zeta -iota -proj only)
    | (extract_lets +onlyGivenNames x; refine (fun (hx : Keeps false s0 x) => ?_) ?_; clear_value x; rotate_left; subst x)
    | (extract_lets +onlyGivenNames x; clear_value x)
    | with_reducible assumption

theorem State.bridgeTick_keeps {q : Bool} {s0 s : State} {x1}
    (h : Keeps q s0 s) : Keeps q s0 (State.bridgeTick s x1) := by
  unfold State.bridgeTick
  repeat' first
    | with_reducible first | refine Keeps.ite ?_ ?_ | refine Keeps.opt ?_ ?_ | apply State.placeBridge_keeps | apply State.sched_keeps | refine Keeps.foldl _ ?_ ?_
    | (intro _; try dsimp -zeta -iota -proj only)
    | (extract_lets +onlyGivenNames x; refine (fun (hx : Keeps q s0 x) => ?_) ?_; clear_value x; rotate_left; subst x)
    | (extract_lets +onlyGivenNames x; clear_value x)
    | with_reducible assumption
    | split

theorem State.fetchOnly_keeps {q : Bool} {s0 s : State} {x1 x2}
    (h : Keeps q s0 s) : Keeps q s0 (State.fetchOnly s x1 x2) := by
  unfold State.fetchOnly
  repeat' first
    | with_reducible first | apply State.fetchOne_keeps | refine Keeps.foldl _ ?_ ?_ | refine KFst.foldl _ ?_ ?_ | apply KFst.st
    | (intro _; try dsimp -zeta -iota -proj only)
    | (extract_lets +onlyGivenNames x; refine (fun (hx : Keeps q s0 x) => ?_) ?_; clear_value x; rotate_left; subst x)
    | (extract_lets +onlyGivenNames x; refine (fun (hx : KFst q s0 x) => ?_) ?_; clear_value x; rotate_left; subst x)
    | (extract_lets +onlyGivenNames x; clear_value x)
    | simp -zeta only [↓KFst.pair_iff]
    | with_reducible assumption
    | with_reducible refine KFst.of_eq (by with_reducible assumption) ?_
    | with_reducible apply KFst.st

theorem State.egressTickets_keeps {q : Bool} {s0 s : State} {x1}
    (h : Keeps q s0 s) : Keeps q s0 (State.egressTickets s x1) := by
  unfold State.egressTickets
  repeat' first
    | with_reducible first | apply State.issueAll_keeps
    | (extract_lets +onlyGivenNames x; refine (fun (hx : Keeps q s0 x) => ?_) ?_; clear_value x; rotate_left; subst x)
    | (extract_lets +onlyGivenNames x; clear_value x)
    | with_reducible assumption

theorem State.folioTickets_keeps {q : Bool} {s0 s : State} {x1}
    (h : Keeps q s0 s) : Keeps q s0 (State.folioTickets s x1) := by
  unfold State.folioTickets
  repeat' first
    | with_reducible first | apply State.egressTickets_keeps | apply State.fabTickets_keeps | apply State.issue_keeps | apply State.tailTickets_keeps | refine Keeps.foldl _ ?_ ?_
    | (intro _; try dsimp -zeta -iota -proj only)
    | (extract_lets +onlyGivenNames x; refine (fun (hx : Keeps q s0 x) => ?_) ?_; clear_value x; rotate_left; subst x)
    | (extract_lets +onlyGivenNames x; clear_value x)
    | with_reducible assumption

theorem State.openFolio_keeps {s0 s : State} {x1 x2}
    (h : Keeps false s0 s) : Keeps false s0 (State.openFolio s x1 x2) := by
  unfold State.openFolio
  repeat' first
    | with_reducible first | refine Keeps.ite ?_ ?_ | apply State.bridgeTick_keeps | apply State.duckTick_keeps | apply State.fetchAll_keeps | apply State.fetchOnly_keeps | apply State.folioTickets_keeps
    | (extract_lets +onlyGivenNames x; refine (fun (hx : Keeps false s0 x) => ?_) ?_; clear_value x; rotate_left; subst x)
    | (extract_lets +onlyGivenNames x; clear_value x)
    | with_reducible assumption

theorem State.tryFollow_keeps {s0 s : State}
    (h : Keeps false s0 s) : Keeps false s0 (State.tryFollow s) := by
  unfold State.tryFollow
  repeat' first
    | with_reducible first | refine Keeps.ite ?_ ?_ | refine Keeps.opt ?_ ?_ | apply State.applyTick_keeps | apply State.openFolio_keeps
    | (intro _; try dsimp -zeta -iota -proj only)
    | (extract_lets +onlyGivenNames x; refine (fun (hx : Keeps false s0 x) => ?_) ?_; clear_value x; rotate_left; subst x)
    | (extract_lets +onlyGivenNames x; clear_value x)
    | simp -zeta only [↓Keeps.mk_iff]
    | with_reducible assumption
    | split

theorem State.sendMarker_keeps {q : Bool} {s0 s : State}
    (h : Keeps q s0 s) : Keeps q s0 (State.sendMarker s) := by
  unfold State.sendMarker
  repeat' first
    | with_reducible first | refine Keeps.ite ?_ ?_
    | (extract_lets +onlyGivenNames x; refine (fun (hx : Keeps q s0 x) => ?_) ?_; clear_value x; rotate_left; subst x)
    | (extract_lets +onlyGivenNames x; clear_value x)
    | simp -zeta only [↓Keeps.mk_iff]
    | with_reducible assumption

theorem State.missFabric_keeps {s0 s : State} {x1}
    (h : Keeps false s0 s) : Keeps false s0 (State.missFabric s x1) := by
  unfold State.missFabric
  repeat' first
    | with_reducible first | refine Keeps.opt ?_ ?_ | apply State.abandonFab_keeps | apply State.putFab_keeps | apply State.switchWindow_keeps | refine Keeps.foldl _ ?_ ?_
    | (intro _; try dsimp -zeta -iota -proj only)
    | (extract_lets +onlyGivenNames x; refine (fun (hx : Keeps false s0 x) => ?_) ?_; clear_value x; rotate_left; subst x)
    | (extract_lets +onlyGivenNames x; clear_value x)
    | simp -zeta only [↓Keeps.mk_iff]
    | with_reducible assumption
    | split

theorem execGeoTicketDone_keeps {s0 s : State} {x0 x1}
    (h : Keeps false s0 s) : KOut false s0 (execGeoTicketDone x0 x1 s) := by
  unfold execGeoTicketDone
  repeat' first
    | with_reducible first | apply KOut.next | apply KOut.fault | apply KOut.refused | apply State.atTime_keeps | apply State.geoDone_keeps | apply State.tryFollow_keeps
    | (extract_lets +onlyGivenNames x; refine (fun (hx : Keeps false s0 x) => ?_) ?_; clear_value x; rotate_left; subst x)
    | (extract_lets +onlyGivenNames x; clear_value x)
    | with_reducible assumption

theorem State.stopPlane_keeps {q : Bool} {s0 s : State}
    (h : Keeps q s0 s) : Keeps q s0 (State.stopPlane s) := by
  unfold State.stopPlane
  repeat' first
    | with_reducible first | apply State.stopProbing_keeps
    | (extract_lets +onlyGivenNames x; refine (fun (hx : Keeps q s0 x) => ?_) ?_; clear_value x; rotate_left; subst x)
    | (extract_lets +onlyGivenNames x; clear_value x)
    | simp -zeta only [↓Keeps.mk_iff]
    | with_reducible assumption

theorem State.tickFabric_keeps {s0 s : State} {x1}
    (h : Keeps false s0 s) : Keeps false s0 (State.tickFabric s x1) := by
  unfold State.tickFabric
  repeat' first
    | with_reducible first | refine Keeps.ite ?_ ?_ | apply State.applyTick_keeps | apply State.openFolio_keeps | apply State.tryFollow_keeps
    | (extract_lets +onlyGivenNames x; refine (fun (hx : Keeps false s0 x) => ?_) ?_; clear_value x; rotate_left; subst x)
    | (extract_lets +onlyGivenNames x; clear_value x)
    | simp -zeta only [↓Keeps.mk_iff]
    | with_reducible assumption

theorem execMissingFolioTick_keeps {s0 s : State} {x0}
    (h : Keeps false s0 s) : KOut false s0 (execMissingFolioTick x0 s) := by
  unfold execMissingFolioTick
  repeat' first
    | with_reducible first | refine Keeps.ite ?_ ?_ | refine KOut.ite ?_ ?_ | apply KOut.next | apply KOut.fault | apply KOut.refused | apply State.atTime_keeps | apply State.judgeFolio_keeps
    | (extract_lets +onlyGivenNames x; refine (fun (hx : Keeps false s0 x) => ?_) ?_; clear_value x; rotate_left; subst x)
    | (extract_lets +onlyGivenNames x; clear_value x)
    | simp -zeta only [↓Keeps.mk_iff]
    | with_reducible assumption

theorem State.pruneTick_keeps {q : Bool} {s0 s : State} {x1}
    (h : Keeps q s0 s) : Keeps q s0 (State.pruneTick s x1) := by
  unfold State.pruneTick
  repeat' first
    | (extract_lets +onlyGivenNames x; refine (fun (hx : Keeps q s0 x) => ?_) ?_; clear_value x; rotate_left; subst x)
    | (extract_lets +onlyGivenNames x; clear_value x)
    | simp -zeta only [↓Keeps.mk_iff]
    | with_reducible assumption

theorem State.closeFabric_keeps {s0 s : State}
    (h : Keeps false s0 s) : Keeps false s0 (State.closeFabric s) := by
  unfold State.closeFabric
  repeat' first
    | with_reducible first | refine Keeps.ite ?_ ?_ | refine Keeps.opt ?_ ?_ | apply State.abandonFab_keeps | apply State.missFabric_keeps
    | (intro _; try dsimp -zeta -iota -proj only)
    | (extract_lets +onlyGivenNames x; refine (fun (hx : Keeps false s0 x) => ?_) ?_; clear_value x; rotate_left; subst x)
    | (extract_lets +onlyGivenNames x; clear_value x)
    | with_reducible assumption
    | split

theorem State.mirrorFolio_keeps {q : Bool} {s0 s : State} {x1}
    (h : Keeps q s0 s) : Keeps q s0 (State.mirrorFolio s x1) := by
  unfold State.mirrorFolio
  repeat' first
    | with_reducible first | apply State.mirrorOut_keeps | apply State.mirrorPorts_keeps | refine Keeps.foldl _ ?_ ?_
    | (intro _; try dsimp -zeta -iota -proj only)
    | (extract_lets +onlyGivenNames x; refine (fun (hx : Keeps q s0 x) => ?_) ?_; clear_value x; rotate_left; subst x)
    | (extract_lets +onlyGivenNames x; clear_value x)
    | with_reducible assumption

theorem State.sendClose_keeps {q : Bool} {s0 s : State} {x1}
    (h : Keeps q s0 s) : Keeps q s0 (State.sendClose s x1) := by
  unfold State.sendClose
  repeat' first
    | with_reducible first | refine Keeps.ite ?_ ?_ | apply State.mirrorFolio_keeps | apply State.tether_keeps | refine Keeps.foldl _ ?_ ?_
    | (intro _; try dsimp -zeta -iota -proj only)
    | (extract_lets +onlyGivenNames x; refine (fun (hx : Keeps q s0 x) => ?_) ?_; clear_value x; rotate_left; subst x)
    | (extract_lets +onlyGivenNames x; clear_value x)
    | simp -zeta only [↓Keeps.mk_iff]
    | with_reducible assumption

theorem State.ingressTick_keeps {q : Bool} {s0 s : State} {x1}
    (h : Keeps q s0 s) : Keeps q s0 (State.ingressTick s x1) := by
  unfold State.ingressTick
  repeat' first
    | with_reducible first | refine Keeps.ite ?_ ?_ | apply State.closeStreams_keeps | apply State.count_keeps
    | (extract_lets +onlyGivenNames x; refine (fun (hx : Keeps q s0 x) => ?_) ?_; clear_value x; rotate_left; subst x)
    | (extract_lets +onlyGivenNames x; clear_value x)
    | with_reducible assumption

theorem State.noteTick_keeps {q : Bool} {s0 s : State}
    (h : Keeps q s0 s) : Keeps q s0 (State.noteTick s) := by
  unfold State.noteTick
  repeat' first
    | with_reducible first | refine Keeps.ite ?_ ?_
    | (extract_lets +onlyGivenNames x; refine (fun (hx : Keeps q s0 x) => ?_) ?_; clear_value x; rotate_left; subst x)
    | (extract_lets +onlyGivenNames x; clear_value x)
    | simp -zeta only [↓Keeps.mk_iff]
    | with_reducible assumption

theorem State.shiftConfig_keeps {q : Bool} {s0 s : State}
    (h : Keeps q s0 s) : Keeps q s0 (State.shiftConfig s) := by
  unfold State.shiftConfig
  repeat' first
    | with_reducible first | apply State.takeDomains_keeps
    | (extract_lets +onlyGivenNames x; refine (fun (hx : Keeps q s0 x) => ?_) ?_; clear_value x; rotate_left; subst x)
    | (extract_lets +onlyGivenNames x; clear_value x)
    | simp -zeta only [↓Keeps.mk_iff]
    | with_reducible assumption

theorem execMediaClockPeriod_keeps {q : Bool} {s0 s : State} {x0}
    (h : Keeps q s0 s) : KOut q s0 (execMediaClockPeriod x0 s) := by
  unfold execMediaClockPeriod
  repeat' first
    | with_reducible first | apply KOut.next | apply KOut.fault | apply KOut.refused | apply State.atTime_keeps
    | (extract_lets +onlyGivenNames x; refine (fun (hx : Keeps q s0 x) => ?_) ?_; clear_value x; rotate_left; subst x)
    | (extract_lets +onlyGivenNames x; clear_value x)
    | simp -zeta only [↓Keeps.mk_iff]
    | with_reducible assumption

theorem State.bindTick_keeps {q : Bool} {s0 s : State}
    (h : Keeps q s0 s) : Keeps q s0 (State.bindTick s) := by
  unfold State.bindTick
  repeat' first
    | with_reducible first | apply State.recordBinds_keeps | refine Keeps.foldl _ ?_ ?_
    | (intro _; try dsimp -zeta -iota -proj only)
    | (extract_lets +onlyGivenNames x; refine (fun (hx : Keeps q s0 x) => ?_) ?_; clear_value x; rotate_left; subst x)
    | (extract_lets +onlyGivenNames x; clear_value x)
    | with_reducible assumption

theorem execEgressTicketDone_keeps {s0 s : State} {x0 x1}
    (h : Keeps false s0 s) : KOut false s0 (execEgressTicketDone x0 x1 s) := by
  unfold execEgressTicketDone
  repeat' first
    | with_reducible first | refine Keeps.ite ?_ ?_ | refine Keeps.opt ?_ ?_ | refine KOut.ite ?_ ?_ | refine KOut.opt ?_ ?_ | apply KOut.next | apply KOut.fault | apply KOut.refused | apply State.atTime_keeps | apply State.finishTicket_keeps | apply State.onStart_keeps | apply State.startNext_keeps | apply State.swapLast_keeps
    | (intro _; try dsimp -zeta -iota -proj only)
    | (extract_lets +onlyGivenNames x; refine (fun (hx : Keeps false s0 x) => ?_) ?_; clear_value x; rotate_left; subst x)
    | (extract_lets +onlyGivenNames x; clear_value x)
    | with_reducible assumption
    | split

theorem State.judgeDue_keeps {s0 s : State} {x1}
    (h : Keeps false s0 s) : Keeps false s0 (State.judgeDue s x1) := by
  unfold State.judgeDue
  repeat' first
    | with_reducible first | refine Keeps.ite ?_ ?_ | apply State.judgeAs_keeps | refine Keeps.foldl _ ?_ ?_
    | (intro _; try dsimp -zeta -iota -proj only)
    | (extract_lets +onlyGivenNames x; refine (fun (hx : Keeps false s0 x) => ?_) ?_; clear_value x; rotate_left; subst x)
    | (extract_lets +onlyGivenNames x; clear_value x)
    | with_reducible assumption

theorem State.d2Tick_keeps {q : Bool} {s0 s : State} {x1}
    (h : Keeps q s0 s) : Keeps q s0 (State.d2Tick s x1) := by
  unfold State.d2Tick
  repeat' first
    | with_reducible first | refine Keeps.ite ?_ ?_ | apply State.blockEnd_keeps | apply State.setMixDom_keeps
    | (extract_lets +onlyGivenNames x; refine (fun (hx : Keeps q s0 x) => ?_) ?_; clear_value x; rotate_left; subst x)
    | (extract_lets +onlyGivenNames x; clear_value x)
    | with_reducible assumption

theorem State.tickMode_keeps {s0 s : State}
    (h : Keeps false s0 s) : Keeps false s0 (State.tickMode s) := by
  unfold State.tickMode
  repeat' first
    | with_reducible first | refine Keeps.ite ?_ ?_ | refine Keeps.opt ?_ ?_ | apply State.setMode_keeps | apply State.startPlane_keeps | apply State.stopPlane_keeps
    | (intro _; try dsimp -zeta -iota -proj only)
    | (extract_lets +onlyGivenNames x; refine (fun (hx : Keeps false s0 x) => ?_) ?_; clear_value x; rotate_left; subst x)
    | (extract_lets +onlyGivenNames x; clear_value x)
    | simp -zeta only [↓Keeps.mk_iff]
    | with_reducible assumption
    | split

theorem State.tickWork_keeps {s0 s : State} {x1 x2}
    (h : Keeps false s0 s) : Keeps false s0 (State.tickWork s x1 x2) := by
  unfold State.tickWork
  repeat' first
    | with_reducible first | refine Keeps.ite ?_ ?_ | apply State.ampLatch_keeps | apply State.ampLevels_keeps | apply State.d2Tick_keeps | apply State.edgeTicket_keeps | apply State.ingressTick_keeps | apply State.micTick_keeps | apply State.probeTick_keeps | apply State.pruneTick_keeps | apply State.refreshHint_keeps | apply State.sendClose_keeps | apply State.sendMarker_keeps | apply State.shiftConfig_keeps | apply State.sweepTick_keeps | apply State.tickFabric_keeps | apply State.tickMode_keeps | refine Keeps.foldl _ ?_ ?_
    | (intro _; try dsimp -zeta -iota -proj only)
    | (extract_lets +onlyGivenNames x; refine (fun (hx : Keeps false s0 x) => ?_) ?_; clear_value x; rotate_left; subst x)
    | (extract_lets +onlyGivenNames x; clear_value x)
    | with_reducible assumption

theorem State.folioTick_keeps {s0 s : State} {x1}
    (h : Keeps false s0 s) : Keeps false s0 (State.folioTick s x1) := by
  unfold State.folioTick
  repeat' first
    | with_reducible first | refine Keeps.ite ?_ ?_ | apply State.bindTick_keeps | apply State.closeFabric_keeps | apply State.judgeDue_keeps | apply State.noteTick_keeps | apply State.shiftConfig_keeps | apply State.tickWork_keeps
    | (extract_lets +onlyGivenNames x; refine (fun (hx : Keeps false s0 x) => ?_) ?_; clear_value x; rotate_left; subst x)
    | (extract_lets +onlyGivenNames x; clear_value x)
    | with_reducible assumption

theorem execRenderEntry_keeps {s0 s : State} {x0}
    (h : Keeps false s0 s) : KOut false s0 (execRenderEntry x0 s) := by
  unfold execRenderEntry
  repeat' first
    | with_reducible first | refine Keeps.ite ?_ ?_ | refine Keeps.opt ?_ ?_ | refine KOut.ite ?_ ?_ | refine KOut.opt ?_ ?_ | apply KOut.next | apply KOut.fault | apply KOut.refused | apply State.atTime_keeps | apply State.setMode_keeps | apply State.startPlane_keeps
    | (intro _; try dsimp -zeta -iota -proj only)
    | (extract_lets +onlyGivenNames x; refine (fun (hx : Keeps false s0 x) => ?_) ?_; clear_value x; rotate_left; subst x)
    | (extract_lets +onlyGivenNames x; clear_value x)
    | with_reducible assumption
    | split

theorem execDeadlineMiss_keeps {s0 s : State} {x0}
    (h : Keeps false s0 s) : KOut false s0 (execDeadlineMiss x0 s) := by
  unfold execDeadlineMiss
  repeat' first
    | with_reducible first | refine Keeps.ite ?_ ?_ | refine KOut.ite ?_ ?_ | apply KOut.next | apply KOut.fault | apply KOut.refused | apply State.atTime_keeps | apply State.judgeFolio_keeps
    | (extract_lets +onlyGivenNames x; refine (fun (hx : Keeps false s0 x) => ?_) ?_; clear_value x; rotate_left; subst x)
    | (extract_lets +onlyGivenNames x; clear_value x)
    | with_reducible assumption

end Sys2Proof.Machine
end

