-- ==== Sys2Proof/Laws/KeepsTable.lean ====
section
/-!
SUPPORT. What every command body of the table keeps (`Keeps`).
-/

namespace Sys2Proof.Machine

/-- Every body of a list of table rows keeps what any step keeps. -/
def BodiesKeep (l : List (Nat × CmdSpec × CmdBody)) : Prop :=
  ∀ e ∈ l, ∀ {s0 s : State} {p : Packet}, Keeps false s0 s → KRes false s0 (e.2.2 p s)

theorem BodiesKeep.nil : BodiesKeep [] := fun _ he => by cases he

theorem BodiesKeep.cons {o sp b l} (hb : ∀ {s0 s : State} {p : Packet}, Keeps false s0 s → KRes false s0 (b p s))
    (hl : BodiesKeep l) : BodiesKeep ((o, sp, b) :: l) := by
  intro e he
  rcases List.mem_cons.1 he with rfl | he
  · exact hb
  · exact hl e he

theorem cmds00_keep (s : State) : BodiesKeep (cmds00 s) :=
  .cons cmdEcho_keeps <|
  .cons cmdSysInfo_keeps <|
  .cons cmdModeSet_keeps <|
  .cons cmdSysReset_keeps <|
  .cons cmdSafeMask_keeps <|
  .cons cmdUnitReset_keeps <|
  .cons cmdRenderFormatSet_keeps <|
  .cons cmdBudgetQuery_keeps <|
  .cons cmdEventRead_keeps <|
  .cons cmdCmdCfgSet_keeps <|
  .cons cmdAuthKey_keeps <|
  .cons cmdNonceQuery_keeps <|
  .cons cmdGpioCfg_keeps <|
  .cons cmdGpioWrite_keeps <|
  .cons cmdGpioQuery_keeps <|
  .cons cmdBulkWrite_keeps <|
  .cons cmdBulkRead_keeps <|
  .cons cmdBulkCrc_keeps <|
  .nil

theorem cmds01_keep (s : State) : BodiesKeep (cmds01 s) :=
  .cons cmdPwrDomSet_keeps <|
  .cons cmdPwrCfgSet_keeps <|
  .cons cmdPwrQuery_keeps <|
  .cons cmdPwrStats_keeps <|
  .cons cmdRtcSet_keeps <|
  .nil

theorem cmds02_keep (s : State) : BodiesKeep (cmds02 s) :=
  .cons cmdClkCfgSet_keeps <|
  .cons cmdClkRefSet_keeps <|
  .cons cmdClkSelect_keeps <|
  .cons cmdClkDcoSet_keeps <|
  .cons cmdClkOutSet_keeps <|
  .cons cmdClkQuery_keeps <|
  .cons cmdClkStats_keeps <|
  .cons cmdPtpCfgSet_keeps <|
  .cons cmdPtpRelock_keeps <|
  .cons cmdPtpQuery_keeps <|
  .cons cmdPtpStats_keeps <|
  .nil

theorem cmds03_keep (s : State) : BodiesKeep (cmds03 s) :=
  .cons cmdNetPortSet_keeps <|
  .cons cmdNetRuleSet_keeps <|
  .cons cmdNetRuleCommit_keeps <|
  .cons cmdNetTxqSet_keeps <|
  .cons cmdNetLinkQuery_keeps <|
  .cons cmdNetStats_keeps <|
  .cons cmdNetMdio_keeps <|
  .cons cmdStrmRxSet_keeps <|
  .cons cmdStrmTxSet_keeps <|
  .cons cmdStrmRxQuery_keeps <|
  .cons cmdStrmTxQuery_keeps <|
  .cons cmdStrmStats_keeps <|
  .nil

theorem cmds04_keep (s : State) : BodiesKeep (cmds04 s) :=
  .cons cmdLayoutLoad_keeps <|
  .cons cmdObjConfig_keeps <|
  .cons cmdObjDeconfig_keeps <|
  .cons cmdObjBind_keeps <|
  .cons cmdObjQuery_keeps <|
  .cons cmdOmsStats_keeps <|
  .cons cmdOmsCfgSet_keeps <|
  .cons cmdLayoutQuery_keeps <|
  .nil

theorem cmds05_keep (s : State) : BodiesKeep (cmds05 s) :=
  .cons cmdGeoCfgSet_keeps <|
  .cons cmdGeoTempSet_keeps <|
  .cons cmdGeoSpkEnable_keeps <|
  .cons cmdGeoFrameQuery_keeps <|
  .cons cmdGeoStats_keeps <|
  .cons cmdGeoEval_keeps <|
  .cons cmdGeoRaQuery_keeps <|
  .cons cmdGeoRaStats_keeps <|
  .nil

theorem cmds06_keep (s : State) : BodiesKeep (cmds06 s) :=
  .cons cmdFabCfgSet_keeps <|
  .cons cmdFabObjQuery_keeps <|
  .cons cmdFabStats_keeps <|
  .cons cmdFabInterpTable_keeps <|
  .nil

theorem cmds07_keep (s : State) : BodiesKeep (cmds07 s) :=
  .cons cmdOutConfig_keeps <|
  .cons cmdOutGainSet_keeps <|
  .cons cmdOutAlignSet_keeps <|
  .cons cmdOutEqSet_keeps <|
  .cons cmdOutLimSet_keeps <|
  .cons cmdOutBmSet_keeps <|
  .cons cmdOutSilSet_keeps <|
  .cons cmdOutAmpSet_keeps <|
  .cons cmdOutQuery_keeps <|
  .cons cmdOutEqQuery_keeps <|
  .cons cmdOutStats_keeps <|
  .nil

theorem cmds08_keep (s : State) : BodiesKeep (cmds08 s) :=
  .cons cmdFirLoad_keeps <|
  .cons cmdFirCommit_keeps <|
  .cons cmdFirScheme_keeps <|
  .cons cmdFirClear_keeps <|
  .cons cmdFirQuery_keeps <|
  .cons cmdConvStats_keeps <|
  .cons cmdFirExport_keeps <|
  .nil

theorem cmds09_keep (s : State) : BodiesKeep (cmds09 s) :=
  .cons cmdMeasPdmSet_keeps <|
  .cons cmdMeasSweep_keeps <|
  .cons cmdMeasPrbGroupSet_keeps <|
  .cons cmdMeasPrbSet_keeps <|
  .cons cmdMeasPrbResult_keeps <|
  .cons cmdMeasPrbBaseline_keeps <|
  .cons cmdAutotrimSet_keeps <|
  .cons cmdMeasStats_keeps <|
  .nil

theorem cmds0A_keep (s : State) : BodiesKeep (cmds0A s) :=
  .cons cmdMixSrcSet_keeps <|
  .cons cmdMixNodeStage_keeps <|
  .cons cmdMixCommit_keeps <|
  .cons cmdMixBusSet_keeps <|
  .cons cmdMixDomSet_keeps <|
  .cons cmdMixBridgeSet_keeps <|
  .cons cmdMixSilSet_keeps <|
  .cons cmdBypSet_keeps <|
  .cons cmdDuckSet_keeps <|
  .cons cmdMixQuery_keeps <|
  .cons cmdMixStats_keeps <|
  .nil

theorem cmds0B_keep (s : State) : BodiesKeep (cmds0B s) :=
  .cons cmdTdmPortSet_keeps <|
  .cons cmdTdmSlotSet_keeps <|
  .cons cmdTdmQuery_keeps <|
  .cons cmdTdmStats_keeps <|
  .nil

theorem cmds0C_keep (s : State) : BodiesKeep (cmds0C s) :=
  .cons cmdPairCfgSet_keeps <|
  .cons cmdPairIdSet_keeps <|
  .cons cmdPairQuery_keeps <|
  .cons cmdPairSwitchover_keeps <|
  .cons cmdPairResync_keeps <|
  .cons cmdPairFence_keeps <|
  .cons cmdPairStats_keeps <|
  .nil

theorem cmds0D_keep (s : State) : BodiesKeep (cmds0D s) :=
  .cons cmdFxInstanceSet_keeps <|
  .cons cmdFxParamSet_keeps <|
  .cons cmdFxQuery_keeps <|
  .cons cmdFxStats_keeps <|
  .cons cmdFxMemRead_keeps <|
  .nil

theorem cmds0E_keep (s : State) : BodiesKeep (cmds0E s) :=
  .cons cmdImageCommit_keeps <|
  .cons cmdImageQuery_keeps <|
  .cons cmdFloorRaise_keeps <|
  .cons cmdFuse_keeps <|
  .cons cmdSecQuery_keeps <|
  .cons cmdJournalSave_keeps <|
  .cons cmdJournalQuery_keeps <|
  .cons cmdJournalCfgSet_keeps <|
  .cons cmdJournalClear_keeps <|
  .cons cmdBootLoad_keeps <|
  .cons cmdBootGo_keeps <|
  .nil

theorem cmds0F_keep (s : State) : BodiesKeep (cmds0F s) :=
  .cons cmdPmcCfgSet_keeps <|
  .cons cmdPmcSelSet_keeps <|
  .cons cmdPmcCtlSet_keeps <|
  .cons cmdPmcRead_keeps <|
  .cons cmdPmcBwRead_keeps <|
  .cons cmdSpnQosSet_keeps <|
  .cons cmdSpnCfgSet_keeps <|
  .cons cmdSpnQuery_keeps <|
  .cons cmdSpnErrRead_keeps <|
  .cons cmdSpnStats_keeps <|
  .cons cmdMemCfgSet_keeps <|
  .cons cmdMemtest_keeps <|
  .cons cmdMemRepair_keeps <|
  .cons cmdMemQuery_keeps <|
  .cons cmdMemErrRead_keeps <|
  .cons cmdMemStats_keeps <|
  .cons cmdDmcCfgSet_keeps <|
  .cons cmdDramRetire_keeps <|
  .cons cmdDmcFreqSet_keeps <|
  .cons cmdDmcQuery_keeps <|
  .cons cmdDmcErrRead_keeps <|
  .cons cmdDmcStats_keeps <|
  .nil

theorem cmds10_keep (s : State) : BodiesKeep (cmds10 s) :=
  .cons cmdStblQSet_keeps <|
  .cons cmdStblTraceSet_keeps <|
  .cons cmdStblTraceRead_keeps <|
  .cons cmdStblSubmit_keeps <|
  .cons cmdStblQuery_keeps <|
  .cons cmdStblStats_keeps <|
  .nil

theorem cmdPage_keep (s : State) (k : Nat) : BodiesKeep (cmdPage s k) := by
  unfold cmdPage
  split
  · exact cmds00_keep s
  · exact cmds01_keep s
  · exact cmds02_keep s
  · exact cmds03_keep s
  · exact cmds04_keep s
  · exact cmds05_keep s
  · exact cmds06_keep s
  · exact cmds07_keep s
  · exact cmds08_keep s
  · exact cmds09_keep s
  · exact cmds0A_keep s
  · exact cmds0B_keep s
  · exact cmds0C_keep s
  · exact cmds0D_keep s
  · exact cmds0E_keep s
  · exact cmds0F_keep s
  · exact cmds10_keep s
  · exact .nil

/-- The body that an opcode names keeps what any step keeps. -/
theorem commandOf_keeps {s : State} {o sp b} (e : commandOf s o = some (sp, b)) {s0 t : State} {p : Packet}
    (h : Keeps false s0 t) : KRes false s0 (b p t) := by
  unfold commandOf at e
  obtain ⟨x, hx, he⟩ := Option.map_eq_some_iff.1 e
  have := cmdPage_keep s _ x (List.mem_of_find?_eq_some hx) (p := p) h
  rwa [he] at this

end Sys2Proof.Machine
end

