-- ==== Sys2Proof/Laws/KeepsPorts.lean ====
section
/-!
SUPPORT. What the operations of Ports.lean keep (`Keeps`).
-/

set_option linter.unusedSimpArgs false

namespace Sys2Proof.Machine

theorem State.startRaw_keeps {s0 s : State} {port r} (h : Keeps false s0 s) : Keeps false s0 (s.startRaw port r) := by
  unfold State.startRaw
  dsimp only
  split
  · exact State.process_keeps h (fun _ ht => commandOf_keeps (by assumption) ht)
  · exact State.settle_keeps (State.acceptNonce_keeps h) (fun _ ht => .fail ht)

theorem State.unbuffer_keeps {q : Bool} {s0 s : State} {x1}
    (h : Keeps q s0 s) : Keeps q s0 (State.unbuffer s x1) := by
  unfold State.unbuffer
  repeat' first
    | with_reducible first | refine Keeps.opt ?_ ?_
    | (intro _; try dsimp -zeta -iota -proj only)
    | (extract_lets +onlyGivenNames x; refine (fun (hx : Keeps q s0 x) => ?_) ?_; clear_value x; rotate_left; subst x)
    | (extract_lets +onlyGivenNames x; clear_value x)
    | simp -zeta only [↓Keeps.mk_iff]
    | with_reducible assumption
    | split

theorem startWaiting_keeps {s0 s : State} {x0}
    (h : Keeps false s0 s) : Keeps false s0 (startWaiting x0 s) := by
  induction x0 generalizing s with
  | zero =>
    unfold startWaiting
    repeat' first
      | with_reducible first | refine Keeps.opt ?_ ?_ | apply State.startRaw_keeps | apply State.unbuffer_keeps
      | (intro _; try dsimp -zeta -iota -proj only)
      | (extract_lets +onlyGivenNames x; refine (fun (hx : Keeps false s0 x) => ?_) ?_; clear_value x; rotate_left; subst x)
      | (extract_lets +onlyGivenNames x; clear_value x)
      | with_reducible assumption
      | split
  | succ n ih =>
    unfold startWaiting
    repeat' first
      | with_reducible first | refine Keeps.opt ?_ ?_ | apply State.startRaw_keeps | apply State.unbuffer_keeps | apply ih
      | (intro _; try dsimp -zeta -iota -proj only)
      | (extract_lets +onlyGivenNames x; refine (fun (hx : Keeps false s0 x) => ?_) ?_; clear_value x; rotate_left; subst x)
      | (extract_lets +onlyGivenNames x; clear_value x)
      | with_reducible assumption
      | split

theorem State.runWaiting_keeps {s0 s : State}
    (h : Keeps false s0 s) : Keeps false s0 (State.runWaiting s) := by
  unfold State.runWaiting
  repeat' first
    | with_reducible first | apply startWaiting_keeps
    | (extract_lets +onlyGivenNames x; refine (fun (hx : Keeps false s0 x) => ?_) ?_; clear_value x; rotate_left; subst x)
    | (extract_lets +onlyGivenNames x; clear_value x)
    | with_reducible assumption

theorem afterHeld_keeps {s0 s s' : State} (h : Keeps false s0 s') : KOut false s0 (afterHeld s s') :=
  .next (Keeps.ite (State.runWaiting_keeps h) h)

theorem State.arriveRaw_keeps {s0 s : State} {x1 x2}
    (h : Keeps false s0 s) : Keeps false s0 (State.arriveRaw s x1 x2) := by
  unfold State.arriveRaw
  repeat' first
    | with_reducible first | refine Keeps.ite ?_ ?_ | apply State.buffer_keeps | apply State.irq_keeps | apply State.startRaw_keeps
    | (extract_lets +onlyGivenNames x; refine (fun (hx : Keeps false s0 x) => ?_) ?_; clear_value x; rotate_left; subst x)
    | (extract_lets +onlyGivenNames x; clear_value x)
    | with_reducible assumption

theorem execTwiWrite_keeps {s0 s : State} {x0 x1}
    (h : Keeps false s0 s) : KOut false s0 (execTwiWrite x0 x1 s) := by
  unfold execTwiWrite
  repeat' first
    | with_reducible first | refine Keeps.ite ?_ ?_ | refine KOut.ite ?_ ?_ | apply KOut.next | apply KOut.fault | apply KOut.refused | apply State.arriveRaw_keeps | apply State.atTime_keeps
    | (extract_lets +onlyGivenNames x; refine (fun (hx : Keeps false s0 x) => ?_) ?_; clear_value x; rotate_left; subst x)
    | (extract_lets +onlyGivenNames x; clear_value x)
    | with_reducible assumption

theorem execHspAbort_keeps {q : Bool} {s0 s : State}
    (h : Keeps q s0 s) : KOut q s0 (execHspAbort s) := by
  unfold execHspAbort
  repeat' first
    | with_reducible first | refine Keeps.ite ?_ ?_ | refine KOut.ite ?_ ?_ | apply KOut.next | apply KOut.fault | apply KOut.refused | apply State.bump_keeps
    | (extract_lets +onlyGivenNames x; refine (fun (hx : Keeps q s0 x) => ?_) ?_; clear_value x; rotate_left; subst x)
    | (extract_lets +onlyGivenNames x; clear_value x)
    | with_reducible assumption

theorem execTwiAddressMatch_keeps {s0 s : State} {x0 x1 x2}
    (h : Keeps false s0 s) : KOut false s0 (execTwiAddressMatch x0 x1 x2 s) := by
  unfold execTwiAddressMatch
  repeat' first
    | with_reducible first | refine Keeps.ite ?_ ?_ | refine KOut.ite ?_ ?_ | apply KOut.next | apply KOut.fault | apply KOut.refused | apply State.atTime_keeps | apply State.bump_keeps | apply State.irq_keeps | apply State.leaveHalt_keeps | apply State.readReturns_keeps | apply State.wake_keeps
    | (extract_lets +onlyGivenNames x; refine (fun (hx : Keeps false s0 x) => ?_) ?_; clear_value x; rotate_left; subst x)
    | (extract_lets +onlyGivenNames x; clear_value x)
    | with_reducible assumption

theorem afterRow_keeps {s0 s : State} {o : Out} (h : KOut false s0 o) : KOut false s0 (afterRow s o) := by
  cases o with
  | next t => exact afterHeld_keeps (h.of_eq rfl)
  | fault f => exact .fault
  | refused r => exact .refused

theorem execStandbyAckTimeout_keeps {s0 s : State} {x0}
    (h : Keeps false s0 s) : KOut false s0 (execStandbyAckTimeout x0 s) := by
  unfold execStandbyAckTimeout
  repeat' first
    | with_reducible first | apply KOut.next | apply KOut.fault | apply KOut.refused | apply afterRow_keeps | apply rowStandbyAckTimeout_keeps
    | (extract_lets +onlyGivenNames x; refine (fun (hx : Keeps false s0 x) => ?_) ?_; clear_value x; rotate_left; subst x)
    | (extract_lets +onlyGivenNames x; clear_value x)
    | with_reducible assumption

theorem execFxTicketAbort_keeps {s0 s : State} {x0 x1}
    (h : Keeps false s0 s) : KOut false s0 (execFxTicketAbort x0 x1 s) := by
  unfold execFxTicketAbort
  repeat' first
    | with_reducible first | apply KOut.next | apply KOut.fault | apply KOut.refused | apply afterRow_keeps | apply rowFxTicketAbort_keeps
    | (extract_lets +onlyGivenNames x; refine (fun (hx : Keeps false s0 x) => ?_) ?_; clear_value x; rotate_left; subst x)
    | (extract_lets +onlyGivenNames x; clear_value x)
    | with_reducible assumption

theorem State.commitDone_keeps {s0 s : State} {x1}
    (h : Keeps false s0 s) : Keeps false s0 (State.commitDone s x1) := by
  unfold State.commitDone
  repeat' first
    | with_reducible first | refine Keeps.ite ?_ ?_ | refine KFst.ite ?_ ?_ | apply State.commitEnds_keeps | apply State.finishLong_keeps | apply State.setMode_keeps | apply State.warmReset_keeps | apply KFst.st
    | (extract_lets +onlyGivenNames x; refine (fun (hx : Keeps false s0 x) => ?_) ?_; clear_value x; rotate_left; subst x)
    | (extract_lets +onlyGivenNames x; refine (fun (hx : KFst false s0 x) => ?_) ?_; clear_value x; rotate_left; subst x)
    | (extract_lets +onlyGivenNames x; clear_value x)
    | simp -zeta only [↓KFst.pair_iff]
    | with_reducible assumption
    | with_reducible refine KFst.of_eq (by with_reducible assumption) ?_
    | with_reducible apply KFst.st

theorem execSnap_keeps {s0 s : State} {x0 x1 x2}
    (h : Keeps false s0 s) : KOut false s0 (execSnap x0 x1 x2 s) := by
  unfold execSnap
  repeat' first
    | with_reducible first | apply KOut.next | apply KOut.fault | apply KOut.refused | apply afterRow_keeps | apply rowSnap_keeps
    | (extract_lets +onlyGivenNames x; refine (fun (hx : Keeps false s0 x) => ?_) ?_; clear_value x; rotate_left; subst x)
    | (extract_lets +onlyGivenNames x; clear_value x)
    | with_reducible assumption

theorem execMirror_keeps {s0 s : State} {x0 x1 x2}
    (h : Keeps false s0 s) : KOut false s0 (execMirror x0 x1 x2 s) := by
  unfold execMirror
  repeat' first
    | with_reducible first | apply KOut.next | apply KOut.fault | apply KOut.refused | apply afterRow_keeps | apply rowMirror_keeps
    | (extract_lets +onlyGivenNames x; refine (fun (hx : Keeps false s0 x) => ?_) ?_; clear_value x; rotate_left; subst x)
    | (extract_lets +onlyGivenNames x; clear_value x)
    | with_reducible assumption

theorem State.loggedMode_keeps {q : Bool} {s0 s : State} {x1}
    (h : Keeps q s0 s) : Keeps q s0 (State.loggedMode s x1) := by
  unfold State.loggedMode
  repeat' first
    | with_reducible first | refine Keeps.ite ?_ ?_ | apply State.record_keeps | apply State.wakeAll_keeps
    | (extract_lets +onlyGivenNames x; refine (fun (hx : Keeps q s0 x) => ?_) ?_; clear_value x; rotate_left; subst x)
    | (extract_lets +onlyGivenNames x; clear_value x)
    | simp -zeta only [↓Keeps.mk_iff]
    | with_reducible assumption

theorem State.applyLogged_keeps {s0 s : State} {c} (h : Keeps false s0 s) : Keeps false s0 (s.applyLogged c) := by
  unfold State.applyLogged
  extract_lets p
  clear_value p
  split
  · exact State.becomeUnsync_keeps h
  · rename_i b hb
    refine Keeps.ite (State.loggedMode_keeps h) ?_
    have hr := loggedBody_keeps (op := c.opcode) (commandOf_keeps hb (p := p)) h
    split
    · rename_i e
      exact Keeps.ite (State.record_keeps (KRes.of_ok e hr)) (KRes.of_ok e hr)
    · rename_i e; exact State.becomeUnsync_keeps (KRes.of_fail e hr)
    · rename_i e; exact (KRes.of_long e hr).of_eq rfl rfl rfl rfl rfl
    · rename_i e; exact (KRes.of_hold e hr).of_eq rfl rfl rfl rfl rfl
    · rename_i e; exact KRes.of_done e hr

theorem State.takeLog_keeps {s0 s : State} {x1}
    (h : Keeps false s0 s) : Keeps false s0 (State.takeLog s x1) := by
  unfold State.takeLog
  repeat' first
    | with_reducible first | refine Keeps.ite ?_ ?_ | apply State.applyLogged_keeps | apply State.takeDomains_keeps
    | (extract_lets +onlyGivenNames x; refine (fun (hx : Keeps false s0 x) => ?_) ?_; clear_value x; rotate_left; subst x)
    | (extract_lets +onlyGivenNames x; clear_value x)
    | simp -zeta only [↓Keeps.mk_iff]
    | with_reducible assumption

theorem execTwiRead_keeps {q : Bool} {s0 s : State} {x0 x1}
    (h : Keeps q s0 s) : KOut q s0 (execTwiRead x0 x1 s) := by
  unfold execTwiRead
  repeat' first
    | with_reducible first | refine Keeps.ite ?_ ?_ | refine KOut.ite ?_ ?_ | apply KOut.next | apply KOut.fault | apply KOut.refused | apply State.atTime_keeps | apply State.readReturns_keeps
    | (extract_lets +onlyGivenNames x; refine (fun (hx : Keeps q s0 x) => ?_) ?_; clear_value x; rotate_left; subst x)
    | (extract_lets +onlyGivenNames x; clear_value x)
    | simp -zeta only [↓Keeps.mk_iff]
    | with_reducible assumption

theorem execTetherDown_keeps {s0 s : State} {x0}
    (h : Keeps false s0 s) : KOut false s0 (execTetherDown x0 s) := by
  unfold execTetherDown
  repeat' first
    | with_reducible first | apply KOut.next | apply KOut.fault | apply KOut.refused | apply afterRow_keeps | apply rowTetherDown_keeps
    | (extract_lets +onlyGivenNames x; refine (fun (hx : Keeps false s0 x) => ?_) ?_; clear_value x; rotate_left; subst x)
    | (extract_lets +onlyGivenNames x; clear_value x)
    | with_reducible assumption

theorem execSafeResponder_keeps {s0 s : State} {x0 x1}
    (h : Keeps false s0 s) : KOut false s0 (execSafeResponder x0 x1 s) := by
  unfold execSafeResponder
  repeat' first
    | with_reducible first | refine Keeps.ite ?_ ?_ | refine KOut.ite ?_ ?_ | apply KOut.next | apply KOut.fault | apply KOut.refused | apply State.arriveRaw_keeps | apply State.atTime_keeps
    | (extract_lets +onlyGivenNames x; refine (fun (hx : Keeps false s0 x) => ?_) ?_; clear_value x; rotate_left; subst x)
    | (extract_lets +onlyGivenNames x; clear_value x)
    | with_reducible assumption

theorem execHspWriteMetadata_keeps {q : Bool} {s0 s : State} {x0 x1}
    (h : Keeps q s0 s) : KOut q s0 (execHspWriteMetadata x0 x1 s) := by
  unfold execHspWriteMetadata
  repeat' first
    | with_reducible first | refine Keeps.ite ?_ ?_ | refine KOut.ite ?_ ?_ | apply KOut.next | apply KOut.fault | apply KOut.refused | apply State.atTime_keeps | apply State.omsDrop_keeps | apply State.queueOms_keeps
    | (extract_lets +onlyGivenNames x; refine (fun (hx : Keeps q s0 x) => ?_) ?_; clear_value x; rotate_left; subst x)
    | (extract_lets +onlyGivenNames x; clear_value x)
    | with_reducible assumption

theorem execHandoverSwap_keeps {s0 s : State} {x0}
    (h : Keeps false s0 s) : KOut false s0 (execHandoverSwap x0 s) := by
  unfold execHandoverSwap
  repeat' first
    | with_reducible first | apply KOut.next | apply KOut.fault | apply KOut.refused | apply afterRow_keeps | apply rowHandoverSwap_keeps
    | (extract_lets +onlyGivenNames x; refine (fun (hx : Keeps false s0 x) => ?_) ?_; clear_value x; rotate_left; subst x)
    | (extract_lets +onlyGivenNames x; clear_value x)
    | with_reducible assumption

theorem execDrainComplete_keeps {s0 s : State} {x0}
    (h : Keeps false s0 s) : KOut false s0 (execDrainComplete x0 s) := by
  unfold execDrainComplete
  repeat' first
    | with_reducible first | apply KOut.next | apply KOut.fault | apply KOut.refused | apply afterRow_keeps | apply rowDrainComplete_keeps
    | (extract_lets +onlyGivenNames x; refine (fun (hx : Keeps false s0 x) => ?_) ?_; clear_value x; rotate_left; subst x)
    | (extract_lets +onlyGivenNames x; clear_value x)
    | with_reducible assumption

theorem execCommandDatagram_keeps {s0 s : State} {x0 x1 x2 x3}
    (h : Keeps false s0 s) : KOut false s0 (execCommandDatagram x0 x1 x2 x3 s) := by
  unfold execCommandDatagram
  repeat' first
    | with_reducible first | refine Keeps.ite ?_ ?_ | refine KOut.ite ?_ ?_ | apply KOut.next | apply KOut.fault | apply KOut.refused | apply State.arriveRaw_keeps | apply State.atTime_keeps | apply State.bump_keeps
    | (extract_lets +onlyGivenNames x; refine (fun (hx : Keeps false s0 x) => ?_) ?_; clear_value x; rotate_left; subst x)
    | (extract_lets +onlyGivenNames x; clear_value x)
    | with_reducible assumption

theorem execControl_keeps {s0 s : State} {x0 x1 x2}
    (h : Keeps false s0 s) : KOut false s0 (execControl x0 x1 x2 s) := by
  unfold execControl
  repeat' first
    | with_reducible first | apply KOut.next | apply KOut.fault | apply KOut.refused | apply afterRow_keeps | apply rowControl_keeps
    | (extract_lets +onlyGivenNames x; refine (fun (hx : Keeps false s0 x) => ?_) ?_; clear_value x; rotate_left; subst x)
    | (extract_lets +onlyGivenNames x; clear_value x)
    | with_reducible assumption

theorem State.forwardedReply_keeps {q : Bool} {s0 s : State} {x1 x2}
    (h : Keeps q s0 s) : Keeps q s0 (State.forwardedReply s x1 x2) := by
  unfold State.forwardedReply
  repeat' first
    | with_reducible first | apply State.emit_keeps | apply State.keepReply_keeps
    | (extract_lets +onlyGivenNames x; refine (fun (hx : Keeps q s0 x) => ?_) ?_; clear_value x; rotate_left; subst x)
    | (extract_lets +onlyGivenNames x; clear_value x)
    | simp -zeta only [↓Keeps.mk_iff]
    | with_reducible assumption

theorem State.takeForward_keeps {s0 s : State} {x1}
    (h : Keeps false s0 s) : Keeps false s0 (State.takeForward s x1) := by
  unfold State.takeForward
  repeat' first
    | with_reducible first | refine Keeps.ite ?_ ?_ | refine Keeps.opt ?_ ?_ | apply State.arriveRaw_keeps | apply State.forwardedReply_keeps
    | (intro _; try dsimp -zeta -iota -proj only)
    | (extract_lets +onlyGivenNames x; refine (fun (hx : Keeps false s0 x) => ?_) ?_; clear_value x; rotate_left; subst x)
    | (extract_lets +onlyGivenNames x; clear_value x)
    | with_reducible assumption
    | split

theorem execCmdlog_keeps {s0 s : State} {x0 x1 x2}
    (h : Keeps false s0 s) : KOut false s0 (execCmdlog x0 x1 x2 s) := by
  unfold execCmdlog
  repeat' first
    | with_reducible first | apply KOut.next | apply KOut.fault | apply KOut.refused | apply State.atTime_keeps | apply State.frameIn_keeps | apply State.takeLog_keeps | apply afterHeld_keeps
    | (intro _; try dsimp -zeta -iota -proj only)
    | (extract_lets +onlyGivenNames x; refine (fun (hx : Keeps false s0 x) => ?_) ?_; clear_value x; rotate_left; subst x)
    | (extract_lets +onlyGivenNames x; clear_value x)
    | with_reducible assumption

theorem execHspReadReply_keeps {s0 s : State} {x0 x1}
    (h : Keeps false s0 s) : KOut false s0 (execHspReadReply x0 x1 s) := by
  unfold execHspReadReply
  repeat' first
    | with_reducible first | refine Keeps.ite ?_ ?_ | refine KOut.ite ?_ ?_ | apply KOut.next | apply KOut.fault | apply KOut.refused | apply State.atTime_keeps | apply State.readReturns_keeps | apply State.runWaiting_keeps
    | (extract_lets +onlyGivenNames x; refine (fun (hx : Keeps false s0 x) => ?_) ?_; clear_value x; rotate_left; subst x)
    | (extract_lets +onlyGivenNames x; clear_value x)
    | simp -zeta only [↓Keeps.mk_iff]
    | with_reducible assumption

theorem State.logDue_keeps {s0 s : State}
    (h : Keeps false s0 s) : Keeps false s0 (State.logDue s) := by
  unfold State.logDue
  repeat' first
    | with_reducible first | apply State.applyLogged_keeps | refine Keeps.foldl _ ?_ ?_
    | (intro _; try dsimp -zeta -iota -proj only)
    | (extract_lets +onlyGivenNames x; refine (fun (hx : Keeps false s0 x) => ?_) ?_; clear_value x; rotate_left; subst x)
    | (extract_lets +onlyGivenNames x; clear_value x)
    | simp -zeta only [↓Keeps.mk_iff]
    | with_reducible assumption

theorem execFolioTick_keeps {s0 s : State} {x0 x1}
    (h : Keeps false s0 s) : KOut false s0 (execFolioTick x0 x1 s) := by
  unfold execFolioTick
  repeat' first
    | with_reducible first | refine Keeps.ite ?_ ?_ | refine KOut.ite ?_ ?_ | apply KOut.next | apply KOut.fault | apply KOut.refused | apply State.atTime_keeps | apply State.folioTick_keeps | apply State.logDue_keeps | apply afterHeld_keeps
    | (extract_lets +onlyGivenNames x; refine (fun (hx : Keeps false s0 x) => ?_) ?_; clear_value x; rotate_left; subst x)
    | (extract_lets +onlyGivenNames x; clear_value x)
    | with_reducible assumption

theorem State.longEnds_keeps {s0 s : State} {o ext ok r} (h : Keeps false s0 s) (e : s.longEnds o ext ok = some r) :
    KFst false s0 r := by
  unfold State.longEnds at e
  dsimp only at e
  have hp : ∀ x, KFst false s0 x → KFst false s0 (plainRes x) := fun x hx => ⟨hx.st⟩
  split at e
  · cases e; exact hp _ (finRenderFormat_keeps h)
  · cases e; exact hp _ (.pair h)
  · cases e; exact State.loadEnds_keeps h (fun _ _ ht => State.putLayout_keeps ht)
  · cases e; exact State.loadEnds_keeps h (fun _ _ ht => State.putFir_keeps ht)
  · obtain ⟨x, hx, rfl⟩ := Option.map_eq_some_iff.1 e
    unfold finFirCommit at hx
    split at hx
    · cases hx
    · cases hx; exact hp _ (.pair h)
  · obtain ⟨⟨t, r⟩, hx, rfl⟩ := Option.map_eq_some_iff.1 e
    exact hp _ (.pair (finSweep_keeps h hx))
  · cases e; exact State.fxEnds_keeps h
  · cases e; exact State.saveEnds_keeps h
  · cases e; exact hp _ (finMemtest_keeps h)
  · cases e; exact hp _ (finMemRepair_keeps h)
  · cases e; exact hp _ (finDramRetire_keeps h)
  · cases e

theorem longDone_keeps {s0 : State} {r : LongRes} (h : KFst false s0 r) : Keeps false s0 (longDone r) :=
  State.finishLong_keeps h.st

theorem execLongOperationDone_keeps {s0 s : State} {ext ok t} (h : Keeps false s0 s) :
    KOut false s0 (execLongOperationDone ext ok t s) := by
  have h := State.atTime_keeps (x1 := t) h
  unfold execLongOperationDone
  dsimp only
  split
  · exact .next h
  · refine KOut.ite (.next (State.commitDone_keeps h)) ?_
    split
    · exact .next h
    · exact .next (longDone_keeps (State.longEnds_keeps h (by assumption)))

theorem execSched_keeps {s0 s : State} {x0 x1 x2}
    (h : Keeps false s0 s) : KOut false s0 (execSched x0 x1 x2 s) := by
  unfold execSched
  repeat' first
    | with_reducible first | apply KOut.next | apply KOut.fault | apply KOut.refused | apply afterRow_keeps | apply rowSched_keeps
    | (extract_lets +onlyGivenNames x; refine (fun (hx : Keeps false s0 x) => ?_) ?_; clear_value x; rotate_left; subst x)
    | (extract_lets +onlyGivenNames x; clear_value x)
    | with_reducible assumption

theorem execMdioFrameDone_keeps {s0 s : State} {x0 x1}
    (h : Keeps false s0 s) : KOut false s0 (execMdioFrameDone x0 x1 s) := by
  unfold execMdioFrameDone
  repeat' first
    | with_reducible first | apply KOut.next | apply KOut.fault | apply KOut.refused | apply afterRow_keeps | apply rowMdioFrameDone_keeps
    | (extract_lets +onlyGivenNames x; refine (fun (hx : Keeps false s0 x) => ?_) ?_; clear_value x; rotate_left; subst x)
    | (extract_lets +onlyGivenNames x; clear_value x)
    | with_reducible assumption

theorem execHspWriteCommand_keeps {s0 s : State} {x0 x1}
    (h : Keeps false s0 s) : KOut false s0 (execHspWriteCommand x0 x1 s) := by
  unfold execHspWriteCommand
  repeat' first
    | with_reducible first | apply KOut.next | apply KOut.fault | apply KOut.refused | apply State.arriveRaw_keeps | apply State.atTime_keeps
    | (extract_lets +onlyGivenNames x; refine (fun (hx : Keeps false s0 x) => ?_) ?_; clear_value x; rotate_left; subst x)
    | (extract_lets +onlyGivenNames x; clear_value x)
    | with_reducible assumption

theorem execForward_keeps {s0 s : State} {x0 x1 x2}
    (h : Keeps false s0 s) : KOut false s0 (execForward x0 x1 x2 s) := by
  unfold execForward
  repeat' first
    | with_reducible first | apply KOut.next | apply KOut.fault | apply KOut.refused | apply State.atTime_keeps | apply State.frameIn_keeps | apply State.takeForward_keeps | apply afterHeld_keeps
    | (intro _; try dsimp -zeta -iota -proj only)
    | (extract_lets +onlyGivenNames x; refine (fun (hx : Keeps false s0 x) => ?_) ?_; clear_value x; rotate_left; subst x)
    | (extract_lets +onlyGivenNames x; clear_value x)
    | with_reducible assumption

theorem execHspReadStatus_keeps {q : Bool} {s0 s : State}
    (h : Keeps q s0 s) : KOut q s0 (execHspReadStatus s) := by
  unfold execHspReadStatus
  repeat' first
    | with_reducible first | refine Keeps.ite ?_ ?_ | refine KOut.ite ?_ ?_ | apply KOut.next | apply KOut.fault | apply KOut.refused | apply State.readReturns_keeps
    | (extract_lets +onlyGivenNames x; refine (fun (hx : Keeps q s0 x) => ?_) ?_; clear_value x; rotate_left; subst x)
    | (extract_lets +onlyGivenNames x; clear_value x)
    | simp -zeta only [↓Keeps.mk_iff]
    | with_reducible assumption

theorem execDrainTimeout_keeps {s0 s : State} {x0}
    (h : Keeps false s0 s) : KOut false s0 (execDrainTimeout x0 s) := by
  unfold execDrainTimeout
  repeat' first
    | with_reducible first | apply KOut.next | apply KOut.fault | apply KOut.refused | apply afterRow_keeps | apply rowDrainTimeout_keeps
    | (extract_lets +onlyGivenNames x; refine (fun (hx : Keeps false s0 x) => ?_) ?_; clear_value x; rotate_left; subst x)
    | (extract_lets +onlyGivenNames x; clear_value x)
    | with_reducible assumption

theorem execDigest_keeps {s0 s : State} {x0 x1 x2}
    (h : Keeps false s0 s) : KOut false s0 (execDigest x0 x1 x2 s) := by
  unfold execDigest
  repeat' first
    | with_reducible first | apply KOut.next | apply KOut.fault | apply KOut.refused | apply afterRow_keeps | apply rowDigest_keeps
    | (extract_lets +onlyGivenNames x; refine (fun (hx : Keeps false s0 x) => ?_) ?_; clear_value x; rotate_left; subst x)
    | (extract_lets +onlyGivenNames x; clear_value x)
    | with_reducible assumption

end Sys2Proof.Machine
end

