-- ==== Sys2Proof/Laws/KeepsRestore.lean ====
section
/-!
SUPPORT. What the operations of Restore.lean keep (`Keeps`).
-/

set_option linter.unusedSimpArgs false

namespace Sys2Proof.Machine

theorem State.putStored_keeps {s0 s : State} {x1 x2}
    (h : Keeps false s0 s) : KFst false s0 (State.putStored s x1 x2) := by
  unfold State.putStored
  repeat' first
    | with_reducible first | refine Keeps.opt ?_ ?_ | refine KFst.opt ?_ ?_ | apply State.putFir_keeps | apply State.putFx_keeps | apply State.putLayout_keeps | apply KFst.st
    | (intro _; try dsimp -zeta -iota -proj only)
    | (extract_lets +onlyGivenNames x; refine (fun (hx : Keeps false s0 x) => ?_) ?_; clear_value x; rotate_left; subst x)
    | (extract_lets +onlyGivenNames x; refine (fun (hx : KFst false s0 x) => ?_) ?_; clear_value x; rotate_left; subst x)
    | (extract_lets +onlyGivenNames x; clear_value x)
    | simp -zeta only [↓KFst.pair_iff]
    | with_reducible assumption
    | with_reducible refine KFst.of_eq (by with_reducible assumption) ?_
    | with_reducible apply KFst.st
    | split

theorem State.skipRecord_keeps {q : Bool} {s0 s : State} {x1 x2}
    (h : Keeps q s0 s) : Keeps q s0 (State.skipRecord s x1 x2) := by
  unfold State.skipRecord
  repeat' first
    | with_reducible first | refine Keeps.ite ?_ ?_ | apply State.logEvent_keeps | apply State.setFlag_keeps
    | (extract_lets +onlyGivenNames x; refine (fun (hx : Keeps q s0 x) => ?_) ?_; clear_value x; rotate_left; subst x)
    | (extract_lets +onlyGivenNames x; clear_value x)
    | with_reducible assumption

theorem State.skipImage_keeps {q : Bool} {s0 s : State} {x1}
    (h : Keeps q s0 s) : Keeps q s0 (State.skipImage s x1) := by
  unfold State.skipImage
  repeat' first
    | with_reducible first | refine Keeps.ite ?_ ?_ | apply State.logEvent_keeps | apply State.setLayout_keeps | apply State.skipRecord_keeps
    | (extract_lets +onlyGivenNames x; refine (fun (hx : Keeps q s0 x) => ?_) ?_; clear_value x; rotate_left; subst x)
    | (extract_lets +onlyGivenNames x; clear_value x)
    | with_reducible assumption

theorem State.replayImage_keeps {s0 s : State} {x1 x2}
    (h : Keeps false s0 s) : Keeps false s0 (State.replayImage s x1 x2) := by
  unfold State.replayImage
  repeat' first
    | with_reducible first | refine Keeps.ite ?_ ?_ | refine Keeps.opt ?_ ?_ | refine KFst.ite ?_ ?_ | refine KFst.opt ?_ ?_ | apply State.putStored_keeps | apply State.skipImage_keeps | apply KFst.st
    | (intro _; try dsimp -zeta -iota -proj only)
    | (extract_lets +onlyGivenNames x; refine (fun (hx : Keeps false s0 x) => ?_) ?_; clear_value x; rotate_left; subst x)
    | (extract_lets +onlyGivenNames x; refine (fun (hx : KFst false s0 x) => ?_) ?_; clear_value x; rotate_left; subst x)
    | (extract_lets +onlyGivenNames x; clear_value x)
    | simp -zeta only [↓KFst.pair_iff]
    | with_reducible assumption
    | with_reducible refine KFst.of_eq (by with_reducible assumption) ?_
    | with_reducible apply KFst.st
    | split

theorem State.replayPlain_keeps {s0 s : State} {r} (h : Keeps false s0 s) : Keeps false s0 (s.replayPlain r) := by
  unfold State.replayPlain
  extract_lets p
  clear_value p
  split
  · exact h
  · rename_i b hb
    have hr := loggedBody_keeps (op := r.opcode) (commandOf_keeps hb (p := p)) h
    split
    · exact KRes.of_ok (by assumption) hr
    · exact h
    · rename_i e
      split
      · exact Keeps.ite (State.longEnds_keeps (KRes.of_long e hr) (by assumption)).st h
      · exact KRes.of_long e hr
    · exact KRes.of_hold (by assumption) hr
    · exact KRes.of_done (by assumption) hr

theorem State.replayOne_keeps {s0 s : State} {x1 x2}
    (h : Keeps false s0 s) : Keeps false s0 (State.replayOne s x1 x2) := by
  unfold State.replayOne
  repeat' first
    | with_reducible first | refine Keeps.ite ?_ ?_ | apply State.replayImage_keeps | apply State.replayPlain_keeps | apply State.skipRecord_keeps
    | (extract_lets +onlyGivenNames x; refine (fun (hx : Keeps false s0 x) => ?_) ?_; clear_value x; rotate_left; subst x)
    | (extract_lets +onlyGivenNames x; clear_value x)
    | with_reducible assumption

theorem State.replay_keeps {s0 s : State} {x1 x2}
    (h : Keeps false s0 s) : Keeps false s0 (State.replay s x1 x2) := by
  unfold State.replay
  repeat' first
    | with_reducible first | apply State.replayOne_keeps | apply State.setFld_keeps | refine Keeps.foldl _ ?_ ?_
    | (intro _; try dsimp -zeta -iota -proj only)
    | (extract_lets +onlyGivenNames x; refine (fun (hx : Keeps false s0 x) => ?_) ?_; clear_value x; rotate_left; subst x)
    | (extract_lets +onlyGivenNames x; clear_value x)
    | simp -zeta only [↓Keeps.mk_iff]
    | with_reducible assumption

theorem State.loadJnlCfg_keeps {q : Bool} {s0 s : State}
    (h : Keeps q s0 s) : Keeps q s0 (State.loadJnlCfg s) := by
  unfold State.loadJnlCfg
  repeat' first
    | with_reducible first | refine Keeps.opt ?_ ?_ | apply State.wr_keeps
    | (intro _; try dsimp -zeta -iota -proj only)
    | (extract_lets +onlyGivenNames x; refine (fun (hx : Keeps q s0 x) => ?_) ?_; clear_value x; rotate_left; subst x)
    | (extract_lets +onlyGivenNames x; clear_value x)
    | with_reducible assumption
    | split

theorem State.restoreDomain_keeps {s0 s : State} {x1 x2}
    (h : Keeps false s0 s) : Keeps false s0 (State.restoreDomain s x1 x2) := by
  unfold State.restoreDomain
  repeat' first
    | with_reducible first | apply State.takeLogic_keeps | apply State.wrByte_keeps | apply State.wr_keeps | refine Keeps.foldl _ ?_ ?_
    | (intro _; try dsimp -zeta -iota -proj only)
    | (extract_lets +onlyGivenNames x; refine (fun (hx : Keeps false s0 x) => ?_) ?_; clear_value x; rotate_left; subst x)
    | (extract_lets +onlyGivenNames x; clear_value x)
    | simp -zeta only [↓Keeps.mk_iff]
    | with_reducible assumption

theorem execConfigurationPhaseDone_keeps {s0 s : State} {x0 x1 x2}
    (h : Keeps false s0 s) : KOut false s0 (execConfigurationPhaseDone x0 x1 x2 s) := by
  unfold execConfigurationPhaseDone
  repeat' first
    | with_reducible first | refine Keeps.ite ?_ ?_ | refine KOut.ite ?_ ?_ | apply KOut.next | apply KOut.fault | apply KOut.refused | apply State.atTime_keeps | apply State.beginPhase_keeps | apply State.replay_keeps | apply State.resetDomain_keeps | refine Keeps.foldl _ ?_ ?_
    | (intro _; try dsimp -zeta -iota -proj only)
    | (extract_lets +onlyGivenNames x; refine (fun (hx : Keeps false s0 x) => ?_) ?_; clear_value x; rotate_left; subst x)
    | (extract_lets +onlyGivenNames x; clear_value x)
    | simp -zeta only [↓Keeps.mk_iff]
    | with_reducible assumption

theorem execRestorationDone_keeps {s0 s : State} {x0 x1}
    (h : Keeps false s0 s) : KOut false s0 (execRestorationDone x0 x1 s) := by
  unfold execRestorationDone
  repeat' first
    | with_reducible first | refine Keeps.ite ?_ ?_ | refine KOut.ite ?_ ?_ | apply KOut.next | apply KOut.fault | apply KOut.refused | apply State.atTime_keeps | apply State.domUp_keeps | apply State.restoreDomain_keeps | apply State.restored_keeps
    | (extract_lets +onlyGivenNames x; refine (fun (hx : Keeps false s0 x) => ?_) ?_; clear_value x; rotate_left; subst x)
    | (extract_lets +onlyGivenNames x; clear_value x)
    | with_reducible assumption

theorem execSceneRestore_keeps {s0 s : State} {x0}
    (h : Keeps false s0 s) : KOut false s0 (execSceneRestore x0 s) := by
  unfold execSceneRestore
  repeat' first
    | with_reducible first | refine Keeps.ite ?_ ?_ | refine KOut.ite ?_ ?_ | apply KOut.next | apply KOut.fault | apply KOut.refused | apply State.atTime_keeps | apply State.loadJnlCfg_keeps | apply State.replay_keeps | apply State.setMode_keeps | apply State.wakeAll_keeps
    | (extract_lets +onlyGivenNames x; refine (fun (hx : Keeps false s0 x) => ?_) ?_; clear_value x; rotate_left; subst x)
    | (extract_lets +onlyGivenNames x; clear_value x)
    | simp -zeta only [↓Keeps.mk_iff]
    | with_reducible assumption

end Sys2Proof.Machine
end

