-- ==== Sys2Proof/Machine/Pins.lean ====
section
/-!
DEFINITION. What the output pins show in a state (Package, Pins and Electrical Characteristics; The Redundant Pair, "The
rein"). Pins hold no state of their own: each follows from the registers, the mode, the power domains and the rein.
-/

namespace Sys2Proof.Machine

/-- What an output pin shows. -/
inductive Level where
  /-- High-impedance: the board's resistor sets the level (R664). -/
  | floats
  | low
  | high
  /-- A clock, or the rein's square wave. -/
  | clock
  /-- A clock output whose source's clock is stopped (R626): it shows a level that no rule gives. -/
  | still
  /-- Under boundary-scan control (R617). -/
  | scan
  deriving DecidableEq, Repr

/-- Output pins and bidirectional pins as outputs (R662), less those that carry words bit by bit: slots of `TDM_DOUT` are
`State.doutSlot`. -/
inductive OutPin where
  | reinOut
  | safeN
  | faultN
  | hostIrqN
  | ampEn (k : Nat)
  | mclkOut (k : Nat)
  | wclkOut (k : Nat)
  | ppsOut
  | pdmClk (k : Nat)
  | tdmBclk (q : Nat)
  | tdmFsync (q : Nat)
  | gpio (k : Nat)
  deriving DecidableEq, Repr

/-- The unit may drive its gated pins (R415): solo, or driving under the rein. -/
def State.drivesGated (s : State) : Bool := !s.fencedPins

/-- Pins of a domain in RET or OFF float (R636). -/
def State.pinsLive (s : State) (d : Nat) : Bool := s.domState d != pRET && s.domState d != pOFF

def levelOf (b : Bool) : Level := if b then .high else .low

/-- A clock output of the AON domain (R400): `on` says that it is enabled. -/
def State.clockPin (s : State) (on : Bool) : Level :=
  if !on || (s.flag Reg.CLK_OUT_CFG Fl.CLK_OUT_CFG_REIN_GATE && !s.drivesGated) then .floats
  else if s.aonClocked then .clock else .still

/-- A port transmits: its domain is powered (R636), it runs under the configuration in force for it (R322), and does not stand still for a
change (R335). -/
def State.portOn (s : State) (q : Nat) : Bool :=
  s.pinsLive (if q < 14 then dTDM else dSAFE) && s.tdmRuns (s.tdmTxCfg q) q && !((s.tdmPort q).tx.any (fun d => decide (0 < d.stop)))

/-- Bit and frame clock of a port: a master drives them while it runs (R311, R313, R319). -/
def State.portClock (s : State) (q : Nat) : Level :=
  if s.portOn q && (s.tdmTxCfg q).tdmMaster q && s.drivesGated then .clock else .floats

/-- A general-purpose pin (R619). -/
def State.gpioPin (s : State) (k : Nat) : Level :=
  let out := (s.rd Reg.GPIO_OUT).testBit k
  if !(s.rd Reg.GPIO_DIR).testBit k then .floats
  else if (s.rd Reg.GPIO_OD).testBit k && out then .floats
  else levelOf out

/-- What a pin shows (R210, R257, R400, R412, R413, R415, R572, R601, R602, R617, R619, R636, R664, R666). -/
def State.pin (s : State) (x : OutPin) : Level :=
  if !s.sys.porN then .floats
  else if s.sys.testEn then .scan
  else
    match x with
    | .reinOut => if s.paired && s.flag Reg.TTH_STAT Fl.TTH_STAT_HOLDS then .clock else .low
    | .safeN => levelOf (s.mode != mSAFE)
    | .faultN => levelOf (s.mode != mFAULT)
    | .hostIrqN => if s.pinsLive dSTRM then levelOf (!s.hostIrq) else .floats
    | .ampEn k => if s.drivesGated then levelOf ((s.liveOut Reg.OUT_AMP_STAT).testBit k) else .floats
    | .mclkOut k => s.clockPin (bitsN (s.rd Reg.CLK_OUT_CFG) (4 * k + 1) (4 * k) != 0)
    | .wclkOut k => s.clockPin ((s.rd Reg.CLK_OUT_CFG).testBit (24 + 2 * k + 1))
    | .ppsOut => s.clockPin (s.flag Reg.CLK_OUT_CFG Fl.CLK_OUT_CFG_PPS_EN)
    | .pdmClk _ => if s.pinsLive dMEAS && s.micsOn s.live && s.drivesGated then .clock else .floats
    | .tdmBclk q => s.portClock q
    | .tdmFsync q => s.portClock q
    | .gpio k => s.gpioPin k

/-- What `TDM_DOUT[q]` carries in slot `j` of the frame that runs: a word, or none where it floats (R318, R319). -/
def State.doutSlot (s : State) (q j : Nat) : Option Int :=
  if s.sys.porN && s.drivesGated && s.portOn q then Tab.look (s.tdmPort q).wire j else none

/-- Level of `FSYNC` in bit-clock period `b` of a frame, from its leading edge (R315). -/
def fsyncAt (fmt b : Nat) : Bool :=
  let w := match bitsN fmt 28 27 with
    | 0 => 1
    | 1 => slotBits (bitsN fmt 15 14)
    | _ => frameBits fmt / 2
  decide (b % frameBits fmt < w) != fmt.testBit 29

/-- Slot and bit of the slot that a bit-clock period carries (R315): `b` counts from the leading edge of the slot's own frame, and the last
slots reach into the next one. -/
def slotOfBit (fmt b : Nat) : Nat × Nat :=
  let p := b - bitsN fmt 20 16
  (p / slotBits (bitsN fmt 15 14), p % slotBits (bitsN fmt 15 14))

/-- Bit `i` of a slot that carries a word (R315): most significant first, or least, and 0 past the data. -/
def slotBit (fmt : Nat) (v : Int) (i : Nat) : Bool :=
  let w := fmtData fmt
  decide (i < w) && (ofS w v).testBit (if fmt.testBit 31 then i else w - 1 - i)

/-- `TDM_DOUT[q]` in bit-clock period `b` of the frame that runs, from `OFFSET` on. -/
def State.doutAt (s : State) (q b : Nat) : Level :=
  let fmt := (s.tdmTxCfg q).tdmFmt q
  let p := slotOfBit fmt b
  match s.doutSlot q p.1 with
  | some v => levelOf (slotBit fmt v p.2)
  | none => .floats

/-- Level of a master's `TDM_FSYNC[q]` in bit-clock period `b` of the frame that runs. -/
def State.fsyncLevel (s : State) (q b : Nat) : Level :=
  if s.portClock q = .clock then levelOf (fsyncAt ((s.tdmTxCfg q).tdmFmt q) b) else .floats

/-- The edge of `BCLK` on which a port launches its bits: falling, or rising with `BCLK_POL` (R315). It samples on the other. -/
def launchesRising (fmt : Nat) : Bool := fmt.testBit 30

end Sys2Proof.Machine
end

