-- ==== Sys2Proof/Laws/Pins.lean ====
section
/-!
SUPPORT. What the rein and `POR_N` do to the pins.
-/

namespace Sys2Proof.Machine

/-- While `POR_N` is low every pin floats (R664). -/
theorem State.pin_por (s : State) (x : OutPin) (h : s.sys.porN = false) : s.pin x = .floats := by
  simp [State.pin, h]

/-- A unit of a pair that does not drive leaves its gated pins floating (R415). -/
theorem State.pin_gated (s : State) (hp : s.sys.testEn = false) (hd : s.drivesGated = false) (k : Nat) :
    s.pin (.ampEn k) = .floats ∧ s.pin (.pdmClk k) = .floats ∧ s.pin (.tdmBclk k) = .floats ∧
      s.pin (.tdmFsync k) = .floats ∧ (∀ j, s.doutSlot k j = none) := by
  refine ⟨?_, ?_, ?_, ?_, fun j => ?_⟩ <;> simp [State.pin, State.doutSlot, State.portClock, hp, hd]

/-- The clock outputs too, while their gate is set (R400). -/
theorem State.pin_gated_clocks (s : State) (hp : s.sys.testEn = false) (hd : s.drivesGated = false)
    (hg : s.flag Reg.CLK_OUT_CFG Fl.CLK_OUT_CFG_REIN_GATE = true) (k : Nat) :
    s.pin (.mclkOut k) = .floats ∧ s.pin (.wclkOut k) = .floats ∧ s.pin .ppsOut = .floats := by
  refine ⟨?_, ?_, ?_⟩ <;> simp [State.pin, State.clockPin, hp, hd, hg]

end Sys2Proof.Machine
end

