-- ==== Sys2Proof/WellFormed.lean ====
section
/-!
DEFINITION. Which commands are well-formed: packet header fields within the widths of the packet layout (R578), and
operand indices within the number of things the device has. The machine gives every command a meaning, well-formed or
not; statements that need an operand in range name this check.
-/

namespace Sys2Proof

/-- Addresses are IPv4 or IPv6, ports 16 bits. -/
def NetSrc.wf (n : NetSrc) : Bool :=
  decide (n.srcIp < 2 ^ 128) && decide (n.srcPort < 65536) && decide (n.dstIp < 2 ^ 128) && decide (n.dstPort < 65536)

/-- Header fields within their widths (R578), a known port (R570), and a tag where AUTH is 1. -/
def Packet.wf (p : Packet) : Bool :=
  decide (p.port < 3) && p.src.wf && decide (p.seq < 65536) && decide (p.plen < 65536) && decide (p.flags < 256) &&
  decide (p.target < 256) && decide (p.nonce < 2 ^ 64) &&
  (p.tag.length == (if p.flags % 2 = 1 then 16 else 0))

/-- A command is well-formed. -/
def Instr.wf : Instr → Bool
  | .echo p => p.wf
  | .sysInfo p => p.wf
  | .modeSet p => p.wf
  | .sysResetWarm p => p.wf
  | .sysResetCtrl p => p.wf
  | .safeMaskSet p => p.wf
  | .unitReset p => p.wf
  | .renderFormatSet p => p.wf
  | .budgetQuery p => p.wf
  | .eventReadOldest p => p.wf
  | .eventReadNewest p => p.wf
  | .cmdCfgSet p => p.wf
  | .authKeySet p => p.wf
  | .authKeyClear p => p.wf
  | .nonceQuery p => p.wf
  | .bulkWrite p => p.wf
  | .bulkRead p => p.wf
  | .bulkCrc p => p.wf
  | .gpioCfgSet p => p.wf
  | .gpioWrite p => p.wf
  | .gpioQuery p => p.wf
  | .pwrDomOn p => p.wf
  | .pwrDomRet p => p.wf
  | .pwrDomOff p => p.wf
  | .pwrDomReset p => p.wf
  | .pwrCfgSet p => p.wf
  | .pwrQuery p => p.wf
  | .pwrStats p => p.wf
  | .rtcSet p => p.wf
  | .clkCfgSet p => p.wf
  | .clkRefSet p => p.wf
  | .clkSelect p => p.wf
  | .clkDcoSet p => p.wf
  | .clkOutSet p => p.wf
  | .clkQuery p => p.wf
  | .clkStats p => p.wf
  | .ptpCfgSet p => p.wf
  | .ptpRelock p => p.wf
  | .ptpQuery p => p.wf
  | .ptpStats p => p.wf
  | .netPortSet p => p.wf
  | .netRuleSet p => p.wf
  | .netRuleCommit p => p.wf
  | .netTxqSet p => p.wf
  | .netLinkQuery p => p.wf
  | .netStats p => p.wf
  | .netMdio p => p.wf
  | .strmRxSet p => p.wf
  | .strmRxRemove p => p.wf
  | .strmTxSet p => p.wf
  | .strmTxRemove p => p.wf
  | .strmRxQuery p => p.wf
  | .strmTxQuery p => p.wf
  | .strmStats p => p.wf
  | .layoutLoad p => p.wf
  | .layoutQuery p => p.wf
  | .objConfig p => p.wf
  | .objDeconfig p => p.wf
  | .objBind p => p.wf
  | .objQuery p => p.wf
  | .omsStats p => p.wf
  | .omsCfgSet p => p.wf
  | .geoCfgSet p => p.wf
  | .geoTempSet p => p.wf
  | .geoSpkDisable p => p.wf
  | .geoSpkEnable p => p.wf
  | .geoFrameQuery p => p.wf
  | .geoEval p => p.wf
  | .geoStats p => p.wf
  | .geoRaQuery p => p.wf
  | .geoRaStats p => p.wf
  | .fabCfgSet p => p.wf
  | .fabObjQuery p => p.wf
  | .fabStats p => p.wf
  | .fabInterpTable p => p.wf
  | .outConfig p => p.wf
  | .outDeconfig p => p.wf
  | .outGainSet p => p.wf
  | .outAlignSet p => p.wf
  | .outEqSet p => p.wf
  | .outLimSet p => p.wf
  | .outBmSet p => p.wf
  | .outSilSet p => p.wf
  | .outAmpSet p => p.wf
  | .outQuery p => p.wf
  | .outEqQuery p => p.wf
  | .outStats p => p.wf
  | .firLoad p => p.wf
  | .firCommit p => p.wf
  | .firSchemeLong p => p.wf
  | .firSchemeStandard p => p.wf
  | .firClear p => p.wf
  | .firQuery p => p.wf
  | .convStats p => p.wf
  | .firExport p => p.wf
  | .measPdmSet p => p.wf
  | .measSweep p => p.wf
  | .measPrbGroupSet p => p.wf
  | .measPrbSet p => p.wf
  | .measPrbResult p => p.wf
  | .measPrbBaseline p => p.wf
  | .autotrimEnable p => p.wf
  | .autotrimDisable p => p.wf
  | .measStats p => p.wf
  | .mixSrcSet p => p.wf
  | .mixNodeStage p => p.wf
  | .mixCommit p => p.wf
  | .mixDiscard p => p.wf
  | .mixBusSet p => p.wf
  | .mixDomSet p => p.wf
  | .mixBridgeSet p => p.wf
  | .mixSilSet p => p.wf
  | .bypSet p => p.wf
  | .duckSet p => p.wf
  | .mixQuery p => p.wf
  | .mixStats p => p.wf
  | .tdmPortSet p => p.wf
  | .tdmSlotSet p => p.wf
  | .tdmQuery p => p.wf
  | .tdmStats p => p.wf
  | .pairCfgSet p => p.wf
  | .pairIdSet p => p.wf
  | .pairQuery p => p.wf
  | .pairSwitchover p => p.wf
  | .pairResyncStart p => p.wf
  | .pairResyncAbort p => p.wf
  | .pairFence p => p.wf
  | .pairStats p => p.wf
  | .fxInstanceSet p => p.wf
  | .fxInstanceRemove p => p.wf
  | .fxParamSet p => p.wf
  | .fxQuery p => p.wf
  | .fxStats p => p.wf
  | .fxMemRead p => p.wf
  | .stblQSet p => p.wf
  | .stblTraceSet p => p.wf
  | .stblTraceRead p => p.wf
  | .stblSubmit p => p.wf
  | .stblQuery p => p.wf
  | .stblStats p => p.wf
  | .spnQosSet p => p.wf
  | .spnCfgSet p => p.wf
  | .spnQuery p => p.wf
  | .spnErrRead p => p.wf
  | .spnStats p => p.wf
  | .memCfgSet p => p.wf
  | .memtest p => p.wf
  | .memRepairListed p => p.wf
  | .memRepairRow p => p.wf
  | .memQuery p => p.wf
  | .memErrRead p => p.wf
  | .memStats p => p.wf
  | .dmcCfgSet p => p.wf
  | .dramRetireListed p => p.wf
  | .dramRetireRow p => p.wf
  | .dmcFreqSet p => p.wf
  | .dmcQuery p => p.wf
  | .dmcErrRead p => p.wf
  | .dmcStats p => p.wf
  | .pmcCfgSet p => p.wf
  | .pmcSelSet p => p.wf
  | .pmcCtlSet p => p.wf
  | .pmcRead p => p.wf
  | .pmcBwRead p => p.wf
  | .imageCommit p => p.wf
  | .imageQuery p => p.wf
  | .imageFloorRaise p => p.wf
  | .journalSave p => p.wf
  | .journalQuery p => p.wf
  | .journalCfgSet p => p.wf
  | .journalClear p => p.wf
  | .bootLoad p => p.wf
  | .bootGo p => p.wf
  | .fuseAuthHsp p => p.wf
  | .fuseAuthTwi p => p.wf
  | .fuseJtagLock p => p.wf
  | .fuseDbgOff p => p.wf
  | .fuseRevokeKey p => p.wf
  | .fuseKeyHash p => p.wf
  | .secQuery p => p.wf
  | .authSuppressEnd port _ => decide (port < 3)
  | .longOperationDone _ _ _ => true
  | .standbyAckTimeout _ => true
  | .hspWriteCommand _ _ => true
  | .hspWriteMetadata _ _ => true
  | .hspReadStatus => true
  | .hspReadReply _ _ => true
  | .hspAbort => true
  | .commandDatagram mac src _ _ => src.wf && decide (mac < 3)
  | .twiWrite _ _ => true
  | .twiRead _ _ => true
  | .twiAddressMatch _ _ _ => true
  | .safeResponder _ _ => true
  | .journalCompact _ => true
  | .mediaClockPeriod _ => true
  | .folioTick _ _ => true
  | .deadlineMiss _ => true
  | .missingFolioTick _ => true
  | .fabAbandon _ => true
  | .omsMessage _ => true
  | .glideEnd _ _ => true
  | .geoTicketDone _ _ => true
  | .fabTicketDone _ _ _ => true
  | .rootWrite _ => true
  | .headTicketDone _ _ _ => true
  | .tailTicketDone _ _ _ => true
  | .outPhaseADone _ _ => true
  | .outPhaseBDone _ _ => true
  | .mixerBlockDone _ _ => true
  | .egressTicketDone _ _ => true
  | .measTicketDone _ _ => true
  | .sweepDone _ => true
  | .stallFill _ _ => true
  | .generatorResume _ _ _ => true
  | .dmaCopyDone _ _ => true
  | .dmaCopyError _ _ _ _ _ => true
  | .fxTicketStart _ _ => true
  | .fxTicketAbort _ _ => true
  | .fxTicketLate _ _ => true
  | .fxInterruptEntry _ _ => true
  | .fxNop _ _ => true
  | .fxMul _ _ => true
  | .fxMac _ _ => true
  | .fxMsu _ _ => true
  | .fxQmul _ _ => true
  | .fxQmac _ _ => true
  | .fxCmul _ _ => true
  | .fxCmac _ _ => true
  | .fxCmulc _ _ => true
  | .fxCmacc _ _ => true
  | .fxMva _ _ => true
  | .fxMvah _ _ => true
  | .fxMval _ _ => true
  | .fxMvag _ _ => true
  | .fxMvda _ _ => true
  | .fxAclr _ _ => true
  | .fxAadd _ _ => true
  | .fxAsra _ _ => true
  | .fxAdd _ _ => true
  | .fxSub _ _ => true
  | .fxAddw _ _ => true
  | .fxSubw _ _ => true
  | .fxNeg _ _ => true
  | .fxAbs _ _ => true
  | .fxMin _ _ => true
  | .fxMax _ _ => true
  | .fxAnd _ _ => true
  | .fxOr _ _ => true
  | .fxXor _ _ => true
  | .fxNot _ _ => true
  | .fxAsl _ _ => true
  | .fxAsr _ _ => true
  | .fxLsr _ _ => true
  | .fxCmp _ _ => true
  | .fxMov _ _ => true
  | .fxLdi _ _ => true
  | .fxLdip _ _ => true
  | .fxLdim _ _ => true
  | .fxLdib _ _ => true
  | .fxLdil _ _ => true
  | .fxAddi _ _ => true
  | .fxCmpi _ _ => true
  | .fxBr _ _ => true
  | .fxCall _ _ => true
  | .fxRet _ _ => true
  | .fxLoop _ _ => true
  | .fxTrap _ _ => true
  | .fxRti _ _ => true
  | .fxDone _ _ => true
  | .fxMovr _ _ => true
  | .fxPadd _ _ => true
  | .fxCsrr _ _ => true
  | .fxCsrw _ _ => true
  | .tdmFrame _ _ _ _ _ _ _ => true
  | .tdmClockLost _ _ => true
  | .zcTimeout _ _ _ _ => true
  | .gateHoldExpiry _ _ => true
  | .frameReceived _ _ _ _ _ _ _ _ _ _ _ => true
  | .pauseExpiry _ _ => true
  | .frameTransmit _ _ _ _ => true
  | .collision _ _ _ => true
  | .backoffExpiry _ _ => true
  | .linkChange _ _ _ _ _ _ _ _ _ _ => true
  | .streamFrame _ _ => true
  | .txPacket _ _ _ _ _ => true
  | .legDown _ _ _ => true
  | .referenceEdge _ _ _ => true
  | .referenceLost _ _ => true
  | .referenceMeasurement _ _ => true
  | .referenceSelection _ _ _ => true
  | .xoFail _ => true
  | .sync _ _ _ _ _ _ => true
  | .followUp _ _ _ _ => true
  | .delayResp _ _ _ _ _ _ _ => true
  | .announce _ _ _ => true
  | .announceTimeout _ => true
  | .reinEdge _ => true
  | .claim _ => true
  | .redrive _ => true
  | .contentionWaitEnd _ => true
  | .selfFence _ _ => true
  | .mirror _ _ _ => true
  | .sched _ _ _ => true
  | .cmdlog _ _ _ => true
  | .snap _ _ _ => true
  | .digest _ _ _ => true
  | .control _ _ _ => true
  | .forward _ _ _ => true
  | .clockMarker _ _ => true
  | .tetherDown _ => true
  | .laneFail _ _ => true
  | .resyncPassEnd _ _ _ => true
  | .cutover _ _ _ => true
  | .resyncFail _ => true
  | .handoverSwap _ => true
  | .porRise _ _ _ _ _ => true
  | .coldReset _ => true
  | .warmReset _ _ => true
  | .watchdogTimeout _ => true
  | .boot _ _ => true
  | .sceneRestore _ => true
  | .refWaitExpiry _ => true
  | .renderEntry _ => true
  | .safeEntry _ _ => true
  | .tempWarn _ _ => true
  | .tempSafe _ _ => true
  | .faultEntry _ => true
  | .haltWake _ _ => true
  | .rtcAlarm _ => true
  | .supplyLoss _ => true
  | .retTimer _ _ _ => true
  | .offTimer _ _ => true
  | .domainWake _ _ _ => true
  | .drainComplete _ => true
  | .drainTimeout _ => true
  | .restorationDone _ _ => true
  | .spineTransaction _ _ => true
  | .masterDrainDone _ _ => true
  | .bitSetWrite _ _ _ _ _ => true
  | .bitClearWrite _ _ _ _ _ => true
  | .groomerStep _ _ _ => true
  | .groomerAbort _ => true
  | .groomerRetry _ _ _ => true
  | .rowRepair _ _ _ => true
  | .rowRetire chan _ _ _ => decide (chan < 4)
  | .refresh chan _ _ => decide (chan < 4)
  | .selfRefreshEntry _ _ => true
  | .selfRefreshExit _ => true
  | .calibration chan _ _ _ => decide (chan < 4)
  | .dramThermal _ _ => true
  | .dramFailure _ _ => true
  | .probeGroupBoundary _ _ => true
  | .autotrimStep _ _ _ => true
  | .silenceEnter _ _ _ => true
  | .eqCrossfadeEnd _ _ _ => true
  | .swapGroupPhase _ => true
  | .historyWaitEnd _ => true
  | .d1Holdover _ => true
  | .bridgeSlip _ _ => true
  | .pmcSnapPin _ => true
  | .pmcMatch _ => true
  | .counterWrap _ _ => true
  | .bandwidthWindow _ => true
  | .jtagChallenge _ _ => true
  | .jtagResponse _ _ => true
  | .gpioEdge _ _ _ => true
  | .mediaTimeLoRead _ => true
  | .omsObjSel _ _ => true
  | .geoSpkSel _ _ => true
  | .fabObjSel _ _ => true
  | .fabClampLastRead _ => true
  | .outMonSel _ _ => true
  | .convOutSel _ _ => true
  | .txtsPop _ _ => true
  | .macStatRead _ _ _ => true
  | .macRuleGo _ _ => true
  | .mdioGo _ _ => true
  | .clkDcoLoRead _ => true
  | .ptpTimeNsRead _ => true
  | .spnErrlogPop _ => true
  | .memErrlogPop _ => true
  | .memBankSel _ _ => true
  | .dmcErrlogPop _ => true
  | .pwrRtcLoRead _ => true
  | .pmcCntLoRead _ _ => true
  | .pmcSnapLoRead _ _ => true
  | .pmcSelWrite _ _ _ => true
  | .pmcMmaskWrite _ _ _ => true
  | .clrAll _ => true
  | .run _ => true
  | .freeze _ => true
  | .snapTrigger _ => true
  | .gpioSet _ _ => true
  | .gpioClr _ _ => true
  | .w1cWrite _ _ _ _ => true
  | .rcRead _ _ => true
  | .registerWrite _ _ _ _ _ => true
  | .tetherUp _ _ => true
  | .xoReturn _ => true
  | .delayReqInterval _ _ => true
  | .syncInterval _ => true
  | .keepAlive _ => true
  | .peerReadyLapse _ => true
  | .d1BlockBoundary _ _ => true
  | .mdioFrameDone _ _ => true
  | .refreshWindow chan _ _ => decide (chan < 4)
  | .configurationPhaseDone _ _ _ => true
  | .ctrlRestart _ => true
  | .testEnChange _ _ => true

end Sys2Proof
end

