-- ==== Sys2Proof/Tests/Slice0.lean ====
section
/-!
SUPPORT. Tests of the model: well-formedness, worked examples of the spec, single steps, and for every statement of
Obligations.lean with hypotheses a witness that meets them (`meets_<statement>`, one conjunct for each clause).
-/

namespace Sys2Proof.Tests

open Sys2Proof Sys2Proof.Machine

set_option maxRecDepth 20000
set_option Elab.async false

/-! ### Small states and packets -/

/-- A packet of parameter bytes, from HSP, without a tag. -/
def pk (ps : List Nat) : Packet := ⟨0, noSrc, 0, ps.length, 0, 0xFF, 0, ps.map (BitVec.ofNat 8), [], 0⟩

/-- A packet of `n` zero bytes but for those listed: offset and value. -/
def pz (n : Nat) (l : List (Nat × Nat)) : Packet := pk ((List.range n).map (fun i => (Tab.look l i).getD 0))

/-- A packet of 32-bit words. -/
def pw (ws : List Nat) : Packet := pk (ws.flatMap (fun w => (List.range 4).map (fun i => w / 256 ^ i % 256)))

/-- The state after reset, but in a mode. -/
def inMode (m : Nat) : State := State.reset.setFld Reg.SYS_MODE Fl.SYS_MODE_MODE m

/-- The state after reset, but in IDLE. -/
def idle : State := inMode mIDLE

/-- The next state of an outcome once HSP has fetched the reply, the idle state where there is none. -/
def nx (o : Out) : State := match o with
  | .next s => { s with cmd.hspReply := none }
  | _ => idle

/-- A register's value right after reset. -/
def rst (a : Nat) : Nat := State.reset.rd a

/-- An idle unit with object slot 0 configured as a point object of quota 1. -/
def withSlot : State := nx (execObjConfig (pk [0, 0, 1, 0, 0, 0, 0, 0]) idle)

/-- That slot. -/
def slot0 : Slot := (withSlot.slotAt 0).get (by decide +kernel)

/-- An idle unit with output 0 configured. -/
def withOut : State := idle.setFlag (Reg.OUT_CFG 0) Fl.OUT_CFG_CONF true

/-- Parameters of `GEO_EVAL`: roll-off 1, radius 1 mm. -/
def evalP : Packet := pz 48 [(28, 0xE8), (29, 3), (36, 1)]

/-- An attribute set: the attributes as bytes 24 to 39 of `GEO_EVAL`. -/
def attr0 : Attr := (decodeAttrBody evalP.params 24).get (by decide +kernel)

/-- A binding. -/
def bind0 : Binding := (decodeBinding (slice (pz 30 []).params 2 28)).get (by decide +kernel)

/-- An idle unit with a layout of one speaker. -/
def withSpeaker : State := { idle with plan.layout := some ⟨1, 0, 0, [⟨⟨0, 1000, 0⟩, false, false, 0⟩], [], []⟩ }

/-- A filter set of one tap at 48 kHz. -/
def fir0 : FirSet := ⟨1, 1, [1], false, [], []⟩

/-- An idle unit that holds a filter set for output 0, configured. -/
def withFir : State := { withOut with conv.fir := [(0, ⟨false, 0, some fir0, none, false, []⟩)] }

/-- A unit of a pair whose link is up. -/
def linked : State :=
  ({ idle with sys.straps.pairEn := true } : State).setFlag Reg.TTH_STAT Fl.TTH_STAT_LINK_UP true

/-- Parameters that set receive stream 0, and transmit stream 0: one channel, one frame a packet, on neither port. -/
def rxP : Packet := pz 84 [(5, 96), (6, 1), (7, 1)]
def txP : Packet := pz 64 [(5, 96), (6, 1), (7, 1), (9, 1)]

/-- An idle unit with those streams. -/
def withRx : State := nx (execStrmRxSet rxP idle)
def withTx : State := nx (execStrmTxSet txP idle)

/-- The stream of `withRx`. -/
def rxs : RxStream := (Tab.look withRx.strm.rx 0).get (by decide +kernel)

/-- An effect instance without inputs. -/
def inst0 : FxInst := ⟨0, 0, 0, [], 1, 0, 2, 0, 64, 0, 0, 0, 8, 0, 0, 0, 8, 0, 0, none, []⟩

/-- An idle unit with effect instance 0. -/
def withFx : State :=
  ({ idle with fx.insts := [(0, [inst0])] } : State).setFlag (Reg.FXC_INST_CFG 0) Fl.FXC_INST_CFG_EN true

/-- A core of its instance 0. -/
def core0 : FxCore := ⟨0, inst0, 0, 0, [], [], 0, 0, 0, none, false, [], 0, false, false, 0, 0⟩

/-- An image at the base of the DRAM: magic, and the type byte. -/
def withImage (kind m : Nat) : State := (inMode m).wrBytes dramBase ([0x55, 0x4C, 0x49, 0x31, 1, 0].map (BitVec.ofNat 8) ++ [BitVec.ofNat 8 kind])

/-- The base of the DRAM as 8 bytes. -/
def dramP (n : Nat) (l : List (Nat × Nat)) : Packet := pz n ((4, 16) :: l)

/-- A cell for each byte that is not 0. -/
def cellsFrom (a : Nat) : List Byte → List Host.Cell
  | [] => []
  | b :: bs => if b = 0 then cellsFrom (a + 1) bs else (a, b) :: cellsFrom (a + 1) bs

theorem at_lower {l : List Host.Cell} {k : Nat} (h : ∀ e ∈ l, k < e.1) : Tab.at l (0 : Byte) k = 0 := by
  unfold Tab.at
  induction l with
  | nil => rfl
  | cons x l ih =>
    have := h x List.mem_cons_self
    rw [Tab.look, if_neg (by omega)]
    exact ih (fun e he => h e (List.mem_cons_of_mem x he))

theorem cellsFrom_lower (a : Nat) (bs : List Byte) : ∀ e ∈ cellsFrom a bs, a ≤ e.1 := by
  induction bs generalizing a with
  | nil => nofun
  | cons b bs ih =>
    intro e he
    unfold cellsFrom at he
    split at he
    · exact Nat.le_of_succ_le (ih (a + 1) e he)
    · rcases List.mem_cons.1 he with rfl | he
      · exact Nat.le_refl _
      · exact Nat.le_of_succ_le (ih (a + 1) e he)

/-- Memory laid out from bytes reads back as those bytes. -/
theorem read_cells (a : Nat) (bs : List Byte) (rest : List Host.Cell) (h : ∀ e ∈ rest, a + bs.length ≤ e.1) :
    (List.range bs.length).map (fun k => Tab.at (cellsFrom a bs ++ rest) (0 : Byte) (a + k)) = bs := by
  induction bs generalizing a with
  | nil => rfl
  | cons b bs ih =>
    have hr : ∀ e ∈ rest, a + 1 + bs.length ≤ e.1 := fun e he => by have := h e he; simp at this; omega
    have low : ∀ e ∈ cellsFrom (a + 1) bs ++ rest, a < e.1 := by
      intro e he
      rcases List.mem_append.1 he with he | he
      · exact cellsFrom_lower (a + 1) bs e he
      · have := hr e he; omega
    rw [List.length_cons, List.range_succ_eq_map, List.map_cons, List.map_map]
    conv => rhs; rw [← ih (a + 1) hr]
    have hc : cellsFrom a (b :: bs) = if b = 0 then cellsFrom (a + 1) bs else (a, b) :: cellsFrom (a + 1) bs := rfl
    rw [hc]
    split
    · next hb =>
      congr 1
      · rw [hb]; exact at_lower low
      · refine List.map_congr_left (fun k _ => ?_)
        simp only [Function.comp, Nat.succ_eq_add_one]
        rw [show a + (k + 1) = a + 1 + k by omega]
    · congr 1
      · simp [Tab.at, Tab.look]
      · refine List.map_congr_left (fun k _ => ?_)
        simp only [Function.comp, Nat.succ_eq_add_one, List.cons_append, Tab.at, Tab.look]
        rw [if_neg (by omega), show a + (k + 1) = a + 1 + k by omega]

theorem rdBytes_cells {s : State} {a n : Nat} {bs : List Byte} {rest : List Host.Cell} (hm : s.mem = cellsFrom a bs ++ rest)
    (hn : bs.length = n) (h : ∀ e ∈ rest, a + n ≤ e.1) : s.rdBytes a n = bs := by
  subst hn
  show (List.range bs.length).map (fun k => Tab.at s.mem memDefault (a + k)) = bs
  rw [hm]
  exact read_cells a bs rest h

/-- A firmware container with an empty payload, type 1, key 0, security version 1, and its 384-bit key hash: made with the
generator of P-384 as public key, as FIPS 186-4 states the signature. -/
def bootImage : List Byte := leBytes 512 0xb704d63875297b1b552ca6decfaf1b611676b483242aedea01cd5eb2819c020a2a5cb014a96cbf8ac3c3e6a3c4caaf4faa87ca22be8b05378eb1c71ef320ad746e1d3b628ba79b9859f741e082542a385502f25dbf55296c3a545e3872760ab73617de4a96262c6f5d9e98bf9292dc29f8f41dbd289a147ce9da3113b5f0b8c00a60b1ce1d7e819d7a431d7c90ea0e5faa87ca22be8b05378eb1c71ef320ad746e1d3b628ba79b9859f741e082542a385502f25dbf55296c3a545e3872760ab75bb99848f1d21ad5fb656fe7bfde4e27dae1f663bfc70c4c4307be1411b7fd216ae3b1b17e32d94c3896ac51a760b0380000000000000000000000000000000000000001000000000001000131494c55
def bootKeyHash : List Byte := leBytes 48 0x6b36f46e385e98d339da8dcafbca306cc657dc792eb8d970c7597084f8ce27319ee64fc2b6c8dbc24a43434c202d8e6e

/-- A unit that waits for a firmware image from HSP, the container staged and the key's hash in the fuses. -/
def waitingHsp : State :=
  { inMode mBOOT with
    mem := cellsFrom 0x1000000 bootImage, sys.firm.waitHsp := true, otp.keyHash := [(0, bootKeyHash)] }

/-- A `MARK` descriptor. -/
def markBytes : List Nat := [0x20, 15, 255, 255, 0, 0, 0, 0, 0, 0, 0, 0, 255] ++ List.replicate 19 0

/-- A probe result of one microphone. -/
def prb0 : PrbRes := ⟨1, [(0, [])], 1, 0, 0, 0, 0, 0, false, 0, 48000⟩

/-- A unit in SERVICE with that key's hash in the fuses. -/
def withKey : State := { inMode mSERVICE with otp.keyHash := [(0, bootKeyHash)] }

/-- An idle unit with that probe result. -/
def withPrb : State := { idle with meas.res := [(0, prb0)] }

/-- An idle unit whose core 0 runs instance 0. -/
def withCore : State := { withFx with fx.cores := [(0, core0)] }

/-- The staged container is a well-formed, signed firmware image. -/
theorem bootGo_ready :
    let u := waitingHsp.begun (cmdRow 3617 0 false 8 8 [] false) (pw [512, 0])
    let p := pw [512, 0]
    admitted (cmdRow 3617 0 false 8 8 [] false) p waitingHsp = true ∧ zeroAt p.params 4 4 = true ∧
      u32 p.params 0 ≤ stagingSize ∧ containerErr (u.rdBytes 16777216 512) (u32 p.params 0) itFIRMWARE = none ∧
      u.verifies (u.rdBytes 16777216 (u32 p.params 0)) = true := by
  have h : (waitingHsp.begun (cmdRow 3617 0 false 8 8 [] false) (pw [512, 0])).rdBytes 16777216 512 = bootImage :=
    rdBytes_cells (rest := []) (by rw [List.append_nil]; rfl) (by decide +kernel) nofun
  have n : u32 (pw [512, 0]).params 0 = 512 := by decide +kernel
  refine ⟨by decide +kernel, by decide +kernel, by decide +kernel, ?_, ?_⟩ <;> rw [n, h] <;> decide +kernel

/-! ### States for the event rows -/

/-- The same unit at a later instant, its timers as they stand. -/
def atNs (s : State) (t : Nat) : State := { s with now := t }

/-- A unit in SERVICE, RENDER or another mode that runs the data plane from folio 0, at slot `n`. -/
def plane (m n : Nat) : State :=
  { inMode m with dp.on := true, dp.mode := mRENDER, sys.mediaTime := n * State.reset.folioLen, sys.lastTick := some 0 }

/-- A configured unit with any one field set. -/
def withLong (op : Nat) (args : List Nat) : State := { idle with cmd.longOp := some ⟨op, pz 0 [], 0, args, false⟩ }
def commitOp : LongOp := ⟨3585, pz 0 [], 0, [], false⟩
def bulkOp : LongOp := ⟨0x00F2, pz 0 [], 0, [dramBase, 1], false⟩
def bulkEnd : LongRes := ((withLong 0x00F2 [dramBase, 1]).longEnds bulkOp [] true).get (by decide +kernel)
def held0 : HeldCmd := ⟨0, pz 0 [], 0, 0, 0, [], false⟩
def withHeld : State := atNs { idle with cmd.held := some held0 } 10000000
def withMuted : State := { idle with cmd.muted := [(0, 0)] }
def fullMeta : State :=
  { idle.setFlag Reg.OMS_CFG Fl.OMS_CFG_HSP_EN true with oms.rx := List.replicate 4 ⟨0, [], 0⟩ }
def withReply : State := { idle with cmd.hspReply := some [0] }
def porLow : State := { State.reset with sys.porN := false }
def bootGoes : State := { inMode mBOOT with sys.firm.goPending := true }
def bootHsp : State := { inMode mBOOT with sys.straps.bootSrc := 1 }
def bootNothing : State := { inMode mBOOT with sys.straps.bootSrc := 0 }
def refWaits : State := atNs { inMode mLOAD with sys.refWait := true } 100000000000000
def enteringRender : State := { idle with sys.modeAt := some mRENDER, sys.lastTick := some 0 }
def noCrystal : State := idle.setFlag Reg.CLK_STAT Fl.CLK_STAT_XO_FAIL true
def alarmed : State := (inMode mHALT).setFlag Reg.PWR_CFG Fl.PWR_CFG_ALARM_EN true
def haltPair : State := { inMode mHALT with sys.straps.pairEn := true }
def ctrlOut : State := { idle with cmd.ctrlDown := true }
def testing : State := { idle with sys.testEn := true }
def inPair (ps rphase : Nat) : State :=
  (linked.setFld Reg.TTH_STAT Fl.TTH_STAT_PSTATE ps).setFld Reg.TTH_STAT Fl.TTH_STAT_RPHASE rphase
def resyncing : State := (inPair psRESYNC 2).setFld Reg.TTH_RESYNC_STAT Fl.TTH_RESYNC_STAT_PASS 15
def serving : State := (inPair psACTIVE 0).setFld Reg.TTH_PEER_INFO Fl.TTH_PEER_INFO_PSTATE psRESYNC
def turning (b : Bool) : State :=
  { linked with sys.mediaTime := 2 * State.reset.folioLen, pair.turn := some (0, b), pair.granted := true }
def mayTake : State := inPair psWAIT 0
def holding : State := linked.setFlag Reg.TTH_STAT Fl.TTH_STAT_HOLDS true
def unlinked : State := { idle with sys.straps.pairEn := true }
def slowPlane : State := atNs (plane mRENDER 0) 1000000000
def tframe : TethIn := ⟨0, 0, 0, 0, 0, none, []⟩
def wdogTwice : State := { idle with sys.wdogTimes := [0, 0] }
def fabAt (n : Nat) : State := { plane mRENDER n with fab.folio := some 0 }
def omsMsg0 : OmsMsg := ⟨0, [], 0⟩
def withMsg : State := { idle with oms.rx := [omsMsg0] }
def glide0 : Glide := ⟨0, 0, []⟩
def slotG : Slot := { slot0 with glide := some glide0 }
def withGlide : State := { idle with oms.slots := [(0, slotG)] }
def ticket (k item : Nat) : Ticket := ⟨k, 0, 0, 0, 0, 0, 0, 0, 0, 0, item, none, []⟩
def placed (k item : Nat) : Placed := ⟨0, ticket k item, 0⟩
def running (k item n : Nat) : State := { fabAt n with stbl.running := [(0, placed k item)] }
def sweep0 : Sweep := ⟨0, 0, 1, 0, 0, 0, -600, 0, 0, 0, 0, 0, 0, List.replicate 4 0, [], 0, []⟩
def withSweep : State := { inMode mMEASURE with meas.sweep := some sweep0 }
def waitingGen : State := { idle with stbl.waiting := [(0, [ticket tkFAB 0])] }
def copying (src : Nat) : DmaRun := ⟨src, dramBase + 64, 32, 0⟩
def withCopy (src : Nat) : State := { idle with stbl.dma := [(0, copying src)] }
def port15 : State := (idle.setFlag (Reg.TDM_CFG 15) Fl.TDM_CFG_EN true).setFlag Reg.MIX_BYP_CFG Fl.MIX_BYP_CFG_EN true
def port0 : State := { idle.setFlag (Reg.TDM_CFG 0) Fl.TDM_CFG_EN true with cap.regs := (idle.setFlag (Reg.TDM_CFG 0) Fl.TDM_CFG_EN true).regs }
def wait0 : ZcWait := ⟨true, 0⟩
def dir0 : TdmDir := ⟨0, 0, 0, 0, 1, [(0, ⟨true, 0⟩)], [], []⟩
def zcTx : State := { idle with tdm.ports := [(0, { TdmPort.init with frame := 1000, tx := some dir0 })] }
def zcRx : State := { idle with tdm.ports := [(0, { TdmPort.init with frame := 1000, rx := some dir0 })] }
def gated : State := atNs { idle with mix.act := [(0, 0)] } 100000000000000
def macRx : State := idle.setFlag (Reg.MAC_CFG 0) Fl.MAC_CFG_RX_EN true
def macRule : State := macRx.setFlag (Reg.MAC_RULE_CTL 0 0) Fl.MAC_RULE_CTL_EN true
def zeroBytes (n : Nat) : List Byte := List.replicate n 0
def frame64 : List Byte := zeroBytes 60 ++ leBytes 4 0x04128908
def tx0 : TxFrame := ⟨zeroBytes 60, none, false⟩
def macTx : State :=
  { (idle.setFlag (Reg.MAC_CFG 0) Fl.MAC_CFG_TX_EN true).setFlag (Reg.MAC_TXQ 0 0) Fl.MAC_TXQ_EN true with mac.txq := [(0, [tx0])] }
def sent0 (cols : Nat) : Sending := ⟨0, tx0, false, cols, some 1⟩
def colliding (cols : Nat) : State :=
  { idle.setFlag (Reg.MAC_CFG 2) Fl.MAC_CFG_HALF true with mac.sending := [(2, sent0 cols)] }
def mdioBusy : State := idle.setFlag (Reg.MAC_MDIO 2) Fl.MAC_MDIO_GO true
def rx0 : RxFrame := ⟨zeroBytes 60, 0, 0, 0, 0⟩
def macQueued : State := { idle with mac.rxq := [(8, [rx0])] }
def txc0 : TxCfg := txCfgOf txP.params
def txs0 : TxStream := ⟨[(0, some txc0)], 0, 0⟩
def sending0 : State := { idle with strm.tx := [(0, txs0)] }
def rxs0 : RxStream := { rxs with
  cfg.a.on := true, a.active := true, a.last := 0 }
def silentLeg : State := atNs { idle with strm.rx := [(0, rxs0)] } 1000000000000
def refHeld : State :=
  atNs ((idle.setFlag (Reg.CLK_REF_CFG 1) Fl.CLK_REF_CFG_EN true).setFld (Reg.CLK_REF_STAT 1) Fl.CLK_REF_STAT_STATE rsQUAL) 10000000000
def head0 : PtpHead := ⟨State.reset.fld Reg.PTP_CFG Fl.PTP_CFG_DOMAIN, false, 5, 1⟩
def ann0 : Ann := ⟨5, 5, 0, 0, 0, 0, 0, 0⟩
def ptpIdle : State := { idle.setFlag Reg.PTP_CFG Fl.PTP_CFG_EN true with ptp.master := some ann0 }
def ptpTwo : State := { ptpIdle with ptp.twoStep := some (1, 0, 0) }
def ptpAsks (prof : Nat) : State :=
  { ptpIdle.setFld Reg.PTP_CFG Fl.PTP_CFG_PROFILE prof with ptp.req := some (1, 0), ptp.lastSync := some (0, 0) }
def ptpQuiet : State := atNs ptpIdle 1000000000000000
def ptpMaster : State := ptpIdle.setFld Reg.PTP_STAT Fl.PTP_STAT_PORT_STATE 6
def lateIdle : State := atNs idle 1000000000000000
def autoRet (d : Nat) : State := atNs (idle.setFlag (Reg.PWR_DOM_CFG d) Fl.PWR_DOM_CFG_AUTO_RET true) 1000000000000000
def autoOff : State :=
  atNs ((idle.setDom 7 pRET).setFlag (Reg.PWR_DOM_CFG 7) Fl.PWR_DOM_CFG_AUTO_OFF true) 1000000000000000
def wakeTicket (e : Nat) : Ticket := ⟨0x20, 1, e, 255, 0, 0, 0, 0, 255, 0, 0, none, []⟩
def queued (e : Nat) : State := { idle with stbl.queues := [(0, [wakeTicket e])] }
def drain0 : PwrDrain := ⟨7, 0, 0⟩
def draining : State := atNs { idle with pwr.drain := some drain0 } 1000000000000000
def req (size : Nat) (cont : Bool) : SpineReq := ⟨0, 0, false, dramBase, size, [], [], cont, size, 0, 0, [], [], []⟩
def drainingPort : State := idle.setFlag (Reg.SPN_MST_STAT 0) Fl.SPN_MST_STAT_DRAIN true
def grooming : State := { idle.setFlag Reg.MEM_CFG Fl.MEM_CFG_GRM_EN true with memc.aborts := 1000, memc.retryAt := some 0 }
def rowListed : State := { idle.setFlag Reg.MEM_CFG Fl.MEM_CFG_AUTO_REPAIR true with memc.list := [(0, 0, 0)] }
def rowWeak : State := { idle.setFlag Reg.DMC_CFG Fl.DMC_CFG_AUTO_RETIRE true with dmc.list := [(0, 0, 0)] }
def bankBusy : State := { idle with spn.txns := [⟨0, 0, 10, false, dramBase, 4, 0⟩] }
def cooled : State := atNs { idle with dmc.thermDrop := true, dmc.coolSince := some 0 } 10000000000
def selfRef : State := idle.setFlag Reg.DMC_STAT Fl.DMC_STAT_SELF_REF true
def probing : State :=
  let s := ((inMode mRENDER).setFlag Reg.MEAS_PRB_CFG Fl.MEAS_PRB_CFG_EN true).setFld Reg.MEAS_PRB_CFG Fl.MEAS_PRB_CFG_INTEG_S 10
  { s with emi.regs := s.regs }
def trimming : State := ({ idle with meas.trimOn := [0] } : State).wr (Reg.MEAS_HEALTH 0) 1
def silCfgRegs : State := (withOut.setFlag (Reg.OUT_SIL 0) Fl.OUT_SIL_EN true)
def quietOut : State :=
  let s := { silCfgRegs with proc.regs := silCfgRegs.regs }
  { s with out.ch := [(0, { OutCh.init s.procCfg 0 with silRun := 10 ^ 12 })] }
def quietBus : State :=
  { idle.setFlag (Reg.MIX_BUS_CFG 0 0) Fl.MIX_BUS_CFG_SIL_EN true with
    mix.doms := [(0, { MixDom.init with sil := [(0, ⟨10 ^ 12, false, 0⟩)] })] }
/-- A unit whose configuration is in force for the folio in capture. -/
def inForce (s : State) : State := { s with cap.regs := s.regs }
def d1Refs : State := inForce (idle.setFld Reg.MIX_DOM_CFG Fl.MIX_DOM_CFG_D1_REF 0)
def bridging : State :=
  inForce <| ((d1Refs.setFlag (Reg.MIX_BRG 0) Fl.MIX_BRG_EN true).setFld (Reg.MIX_BRG 0) Fl.MIX_BRG_SRC_DOM 1).setFld (Reg.MIX_BRG 0) Fl.MIX_BRG_DST_DOM 0
def pinEn : State := idle.setFlag Reg.PMC_CFG Fl.PMC_CFG_PIN_EN true
def matching : State := atNs (idle.setFlag Reg.PMC_CFG Fl.PMC_CFG_MATCH_EN true) 10
def windowed : State := atNs (idle.setFlag Reg.PMC_BW_CFG Fl.PMC_BW_CFG_EN true) 1000000000000
def locked : State := { idle with otp.jtagLock := true }
def lockedOut : State := locked.setFld Reg.SEC_JTAG_STAT Fl.SEC_JTAG_STAT_FAILS 8
def jtagKey : List Byte := leBytes 96 0x3617de4a96262c6f5d9e98bf9292dc29f8f41dbd289a147ce9da3113b5f0b8c00a60b1ce1d7e819d7a431d7c90ea0e5faa87ca22be8b05378eb1c71ef320ad746e1d3b628ba79b9859f741e082542a385502f25dbf55296c3a545e3872760ab7
def jtagSig : List Byte := leBytes 96 0xc5559be0dc9a0dcb427ba271daab724e5536998643c5f0ec6856a725823c3b6de2a7044ad2b028ac0ef343a5fb44d9aa87ca22be8b05378eb1c71ef320ad746e1d3b628ba79b9859f741e082542a385502f25dbf55296c3a545e3872760ab7
def jtagResp : List Byte := [0] ++ jtagKey ++ jtagSig
def challenged : State := { locked with sys.jtagChal := some (zeroBytes 40), otp.keyHash := [(0, bootKeyHash)] }
def pauseFrame : List Byte := zeroBytes 12 ++ [0x88, 0x08] ++ zeroBytes 46 ++ leBytes 4 0x16c2b891

/-- An outcome is a next state. -/
def isNext (o : Out) : Bool := match o with
  | .next _ => true
  | _ => false

theorem exists_next_of {o : Out} (h : isNext o = true) : ∃ t, o = .next t := by
  cases o with
  | next t => exact ⟨t, rfl⟩
  | fault f => exact absurd h Bool.false_ne_true
  | refused r => exact absurd h Bool.false_ne_true

/-- A unit whose core engine runs an effect ticket of instance 0, and cores in some state. -/
def fxPlaced : Placed := ⟨16, ticket tkFX 0, 0⟩
def fxTicketed : State := { withFx with stbl.running := [(16, fxPlaced)] }
def fxAway : FxCore := { core0 with pc := 2 }
def fxCoreS (k : FxCore) : State := { withFx with fx.cores := [(0, k)] }
def fxCaused : FxCore := { core0 with causes := 1 }
def fxLast : State := { withFx with fx.cores := [(0, core0)], sys.mediaTime := 2 * State.reset.folioLen }
/-- Words: an undefined opcode, and a load from outside the instance's memory. -/
def fxBad (w : Nat) : State :=
  { fxCoreS core0 with mem := cellsFrom 0 (leBytes 8 w) }

/-! ### Well-formedness: a term refused by each check, and terms accepted -/

theorem test_wf_accepts : (Instr.echo (pk [1, 2])).wf = true ∧ (Instr.rowRetire 3 0 0 0).wf = true ∧
    (Instr.echo { pk [] with flags := 1, tag := zeroBytes 16 }).wf = true := by decide +kernel
theorem test_wf_port : (Instr.echo { pk [] with port := 3 }).wf = false := by decide +kernel
theorem test_wf_source : (Instr.echo { pk [] with src := ⟨2 ^ 128, 0, 0, 0⟩ }).wf = false ∧
    (Instr.echo { pk [] with src := ⟨0, 65536, 0, 0⟩ }).wf = false ∧ (Instr.echo { pk [] with src := ⟨0, 0, 2 ^ 128, 0⟩ }).wf = false ∧
    (Instr.echo { pk [] with src := ⟨0, 0, 0, 65536⟩ }).wf = false := by decide +kernel
theorem test_wf_seq : (Instr.echo { pk [] with seq := 65536 }).wf = false := by decide +kernel
theorem test_wf_plen : (Instr.echo { pk [] with plen := 65536 }).wf = false := by decide +kernel
theorem test_wf_flags : (Instr.echo { pk [] with flags := 256 }).wf = false := by decide +kernel
theorem test_wf_target : (Instr.echo { pk [] with target := 256 }).wf = false := by decide +kernel
theorem test_wf_nonce : (Instr.echo { pk [] with nonce := 2 ^ 64 }).wf = false := by decide +kernel
/-- A tag without AUTH, and AUTH without a tag. -/
theorem test_wf_tag : (Instr.echo { pk [] with tag := zeroBytes 16 }).wf = false ∧
    (Instr.echo { pk [] with flags := 1 }).wf = false := by decide +kernel
theorem test_wf_port_of_suppression : (Instr.authSuppressEnd 3 0).wf = false := by decide +kernel
theorem test_wf_mac : (Instr.commandDatagram 3 noSrc [] 0).wf = false := by decide +kernel
theorem test_wf_channel : (Instr.rowRetire 4 0 0 0).wf = false ∧ (Instr.refresh 4 0 0).wf = false ∧
    (Instr.refreshWindow 4 0 0).wf = false := by decide +kernel
theorem test_wf_channel_calibration (a b c) : (Instr.calibration 4 a b c).wf = false := rfl

/-- The table gives no bits, so no word spells a command. -/
theorem test_no_word : decodeTableWord 32 1 = none := rfl

/-! ### Worked examples of the spec -/

/-- 02, worked example: slot 37 at generation 5 has handle 5157. -/
theorem test_handle : 5157 % 1024 = 37 ∧ 5157 / 1024 = 5 ∧ u16 [0x25, 0x14] 0 = 5157 := by decide +kernel

/-- 15, worked example: body word 0 of the crossfeed is QMAC with both moves, and legal. -/
theorem test_crossfeed_word : let w := 0x0140440048715091
    fxcCode w = 5 ∧ wordOk w = true ∧ fcX w = 4 ∧ fcY w = 8 := by decide +kernel

/-- The same word with an odd pair is refused (R480). -/
theorem test_odd_pair_refused : wordOk (0x0140440048715091 + 2 ^ 44) = false := by decide +kernel

/-- 19, worked example: the tail coefficient at offset 74 565, and its granule's check byte within bytes 984 to 991. -/
theorem test_dram_decode : let l := dramLoc 74565
    l.chan = 2 ∧ l.bank = 10 ∧ l.row = 0 ∧ l.col = 709 ∧ 984 ≤ dramCheckCol l ∧ dramCheckCol l ≤ 991 := by decide +kernel

/-- 19, worked example: the next group lies on channel 3. -/
theorem test_dram_next_group : (dramLoc 0x12440).chan = 3 ∧ (dramLoc 0x1243F).chan = 2 := by decide +kernel

/-- 10, worked example: 24 slots of 32 bits at 48 kHz. -/
theorem test_tdm_bit_clock : bclkHz (24 + 2 * 2 ^ 14) 48000 = 36864000 := by decide +kernel

/-- 17, worked example: the trace's effective QoS at waits 0, 767 and 768. -/
theorem test_spine_ageing : State.reset.effQos 28 0 = 2 ∧ State.reset.effQos 28 767 = 13 ∧ State.reset.effQos 28 768 = 14 := by
  decide +kernel

/-- 05, worked example: every read fits at B = 0; later the device moves B to 3441, with 3377 samples of refill. -/
theorem test_window_bulk : bulkFor 4096 32 0 [179131, 267883, 275424] = (0, false) ∧
    (bulkFor 4096 32 0 [3700 * 256, 4076 * 256 + 51]).1 = 3441 ∧ refillOf 4096 32 0 3441 = 3377 := by decide +kernel

/-- 03, worked example, steps 2 to 5: triangle 7's gains, 10 486 and 7864 in Q1.15, and the delay 0x05776B at 10 m. -/
theorem test_mesh_object :
    let l : Layout := ⟨1, 0, 0, [⟨⟨0, 14000, 0⟩, false, false, 0⟩, ⟨⟨14000, 0, 0⟩, false, false, 0⟩, ⟨⟨0, 0, 9000⟩, false, false, 0⟩],
      [(0, 1, 2)], []⟩
    let g := l.triGains (0, 1, 2) (V3.ofInts 6000 8000 0).normalise
    let a := F32.ofRat 4 10
    (g.1.mul a).roundScaled 32768 = 10486 ∧ (g.2.1.mul a).roundScaled 32768 = 7864 ∧ g.2.2.isZero = true ∧
      State.reset.live.delayOf 48000 (F32.ofInt 10000) = (0x05776B, false) := by
  decide +kernel

/-- 12, worked example: a tagged IPv4 frame of 64 channels in L24 with S = 6 is 1214 bytes. -/
theorem test_stream_frame : strmFrame false true 64 6 = 1214 := by decide +kernel

/-! ### Single steps -/

/-- A byte of the reply that HSP would fetch. -/
def replyOf (o : Out) : List Byte := match o with
  | .next s => s.cmd.hspReply.getD []
  | _ => []

/-- R579: `ECHO` answers OK with its parameters, little-endian header first. -/
theorem test_echo : (replyOf (execEcho (pk [0xAA, 0x55]) idle)).map BitVec.toNat = [0, 0, 0, 0, 0, 0, 2, 0, 0xAA, 0x55] := by decide +kernel

/-- R23, R579: `RENDER_FORMAT_SET` in RENDER is answered NOT_IN_MODE, in the status bytes of R579. -/
theorem test_not_in_mode : u16 (replyOf (execRenderFormatSet (pz 4 []) (inMode mRENDER))) 4 = stNOT_IN_MODE := by decide +kernel

/-- CRC-32 of 60 zero bytes, as Ethernet states it. -/
theorem test_crc32 : crc32 (zeroBytes 60) = 0x04128908 := by decide +kernel

/-- FIPS 180-4: SHA-384 of the empty message. -/
theorem test_sha384 : (sha384 []).take 4 = [0x38, 0xB0, 0x60, 0xA7] := by decide +kernel

/-- R666: after `POR_N` has risen, the rein is low, `SAFE_N` and `FAULT_N` are high, and a solo unit drives `AMP_EN` low. -/
theorem test_pins_after_por :
    State.reset.pin .reinOut = .low ∧ State.reset.pin .safeN = .high ∧ State.reset.pin .faultN = .high ∧
      State.reset.pin (.ampEn 15) = .low ∧ State.reset.pin (.mclkOut 0) = .floats ∧ State.reset.pin (.gpio 3) = .floats := by
  decide +kernel

/-- R666: in a pair `AMP_EN` floats until the unit claims the rein. -/
theorem test_pins_pair : ({ State.reset with sys.straps.pairEn := true } : State).pin (.ampEn 0) = .floats := by
  decide +kernel

/-- R601: in SAFE `SAFE_N` is low and `AMP_EN` follows the safe mask. -/
theorem test_pins_safe :
    ((inMode mSAFE).wr Reg.SYS_SAFE_CFG 2).pin (.ampEn 1) = .high ∧ ((inMode mSAFE).wr Reg.SYS_SAFE_CFG 2).pin (.ampEn 0) = .low ∧
      (inMode mSAFE).pin .safeN = .low ∧ (inMode mFAULT).pin .faultN = .low := by
  decide +kernel

/-! ### Witnesses of the command statements -/

/-- Witness for `GeneralCommandsComplete`. -/
theorem meets_GeneralCommandsComplete :
    (admitted (cmdRow 0 2 false 0 64 fwModes false) (pz 0 []) idle = true) ∧ (admitted (cmdRow 1 2 false 0 0 fwModes false)
    (pz 0 []) idle = true) ∧ (admitted (cmdRow 17 2 false 0 0 fwModes false) (pz 0 []) idle = true) ∧ (admitted (cmdRow 32 2
    false 4 4 fwModes false) ((pz 4 [(1, 1)]).withOp 0 0) idle = true ∧ (u8 ((pz 4 [(1, 1)]).withOp 0 0).params 0 = 0 ∧ 1 ≤
    u8 ((pz 4 [(1, 1)]).withOp 0 0).params 1 ∧ u8 ((pz 4 [(1, 1)]).withOp 0 0).params 1 ≤ 64 ∧ zeroAt ((pz 4 [(1, 1)]).withOp
    0 0).params 2 2 = true)) ∧ (admitted (cmdRow 32 2 false 4 4 fwModes false) ((pz 4 [(1, 1)]).withOp 0 1) idle = true ∧ (u8
    ((pz 4 [(1, 1)]).withOp 0 1).params 0 = 1 ∧ 1 ≤ u8 ((pz 4 [(1, 1)]).withOp 0 1).params 1 ∧ u8 ((pz 4 [(1, 1)]).withOp 0
    1).params 1 ≤ 64 ∧ zeroAt ((pz 4 [(1, 1)]).withOp 0 1).params 2 2 = true)) ∧ (admitted (cmdRow 48 0 false 4 4 fwModes
    false) (pz 4 []) idle = true ∧ (rsvOk Reg.CMD_CFG (u32 (pz 4 []).params 0) = true ∧ (idle.begun (cmdRow 48 0 false 4 4
    fwModes false) (pz 4 [])).cmdPortTaken (bitsN (u32 (pz 4 []).params 0) 31 16) = false)) ∧ (admitted
    ({ (cmdRow 49 0 true 36 36 fwModes false) with logs := true } : CmdSpec) ((pz 36 []).withOp 1 0) idle = true ∧ (u8 ((pz
    36 []).withOp 1 0).params 0 ≤ 2 ∧ u8 ((pz 36 []).withOp 1 0).params 1 = 0 ∧ zeroAt ((pz 36 []).withOp 1 0).params 2 2 =
    true)) ∧ (admitted ({ (cmdRow 49 0 true 36 36 fwModes false) with logs := true } : CmdSpec) ((pz 36 []).withOp 1 1) idle
    = true ∧ (u8 ((pz 36 []).withOp 1 1).params 0 ≤ 2 ∧ u8 ((pz 36 []).withOp 1 1).params 1 = 1 ∧ zeroAt ((pz 36 []).withOp 1
    1).params 2 2 = true)) ∧ (admitted (cmdRow 50 2 false 0 0 fwModes false) (pz 0 []) idle = true) ∧ (admitted (cmdRow 64 0
    false 16 16 gpioModes true) (pz 16 []) idle = true ∧ (rsvOk Reg.GPIO_DIR (u32 (pz 16 []).params 0) = true ∧ rsvOk
    Reg.GPIO_OD (u32 (pz 16 []).params 4) = true ∧ rsvOk Reg.GPIO_EDGE (u32 (pz 16 []).params 8) = true ∧ rsvOk Reg.GPIO_DEB
    (u32 (pz 16 []).params 12) = true)) ∧ (admitted (cmdRow 65 1 false 8 8 gpioModes true) (pz 8 []) idle = true ∧ (rsvOk
    Reg.GPIO_OUT (u32 (pz 8 []).params 0) = true ∧ rsvOk Reg.GPIO_OUT (u32 (pz 8 []).params 4) = true)) ∧ (admitted (cmdRow
    66 2 false 0 0 fwModes false) (pz 0 []) idle = true) ∧ (admitted
    ({ (cmdRow 4 0 true 4 4 fwModes false) with logs := true } : CmdSpec) (pz 4 []) idle = true ∧ rsvOk Reg.SYS_SAFE_CFG (u32
    (pz 4 []).params 0) = true) ∧ (admitted (cmdRow 5 0 false 4 4 fwModes false) (pz 4 []) idle = true ∧ (u8 (pz 4 []).params
    0 ≤ 9 ∧ (u8 (pz 4 []).params 0 ≤ 6 → (idle.begun (cmdRow 5 0 false 4 4 fwModes false) (pz 4 [])).mode = mIDLE ∨
    (idle.begun (cmdRow 5 0 false 4 4 fwModes false) (pz 4 [])).mode = mSERVICE ∨ (idle.begun (cmdRow 5 0 false 4 4 fwModes
    false) (pz 4 [])).mode = mFAULT) ∧ u8 (pz 4 []).params 1 ∈ classEngines (u8 (pz 4 []).params 0) ∧ enginePresent
    (idle.begun (cmdRow 5 0 false 4 4 fwModes false) (pz 4 [])).otp.grade (u8 (pz 4 []).params 1) = true ∧ zeroAt (pz 4
    []).params 2 2 = true)) ∧ (admitted (cmdRow 3589 2 false 0 0 fwModes false) (pz 0 []) idle = true) := by
  iterate 14 refine ⟨by decide +kernel, ?_⟩
  decide +kernel
/-- Witness for `ModeSetTransitions`. -/
theorem meets_ModeSetTransitions :
    (admitted (cmdRow 2 0 true 4 4 fwModes true) (pk [3, 0, 0, 0]) idle = true ∧ ((u8 (pk [3, 0, 0, 0]).params 0 =
    (idle.begun (cmdRow 2 0 true 4 4 fwModes true) (pk [3, 0, 0, 0])).mode ∧ zeroAt (pk [3, 0, 0, 0]).params 1 3 = true) ∧
    (idle.begun (cmdRow 2 0 true 4 4 fwModes true) (pk [3, 0, 0, 0])).mode ≤ 11)) ∧ (admitted (cmdRow 2 0 true 4 4 fwModes
    true) (pk [8, 0, 0, 0]) idle = true ∧ ((u8 (pk [8, 0, 0, 0]).params 0 = mSERVICE ∧ zeroAt (pk [8, 0, 0, 0]).params 1 3 =
    true) ∧ (idle.begun (cmdRow 2 0 true 4 4 fwModes true) (pk [8, 0, 0, 0])).mode = mIDLE ∨ (u8 (pk [8, 0, 0, 0]).params 0 =
    mIDLE ∧ zeroAt (pk [8, 0, 0, 0]).params 1 3 = true) ∧ (idle.begun (cmdRow 2 0 true 4 4 fwModes true) (pk [8, 0, 0,
    0])).mode = mSERVICE)) ∧ (admitted (cmdRow 2 0 true 4 4 fwModes true) (pk [4, 0, 0, 0]) idle = true ∧ ((u8 (pk [4, 0, 0,
    0]).params 0 = mRENDER ∧ zeroAt (pk [4, 0, 0, 0]).params 1 3 = true ∨ u8 (pk [4, 0, 0, 0]).params 0 = mMEASURE ∧ zeroAt
    (pk [4, 0, 0, 0]).params 1 3 = true) ∧ (idle.begun (cmdRow 2 0 true 4 4 fwModes true) (pk [4, 0, 0, 0])).mode = mIDLE ∨
    (u8 (pk [4, 0, 0, 0]).params 0 = mIDLE ∧ zeroAt (pk [4, 0, 0, 0]).params 1 3 = true) ∧ ((idle.begun (cmdRow 2 0 true 4 4
    fwModes true) (pk [4, 0, 0, 0])).mode = mRENDER ∨ (idle.begun (cmdRow 2 0 true 4 4 fwModes true) (pk [4, 0, 0, 0])).mode
    = mMEASURE))) ∧ (admitted (cmdRow 2 0 true 4 4 fwModes true) (pz 4 []) idle = true ∧ ((u8 (pz 4 []).params 0 = mHALT ∧
    zeroAt (pz 4 []).params 1 3 = true) ∧ ((idle.begun (cmdRow 2 0 true 4 4 fwModes true) (pz 4 [])).mode = mIDLE ∨
    (idle.begun (cmdRow 2 0 true 4 4 fwModes true) (pz 4 [])).mode = mSERVICE ∨ (idle.begun (cmdRow 2 0 true 4 4 fwModes
    true) (pz 4 [])).mode = mFAULT))) ∧ (admitted (cmdRow 2 0 true 4 4 fwModes true) (pk [10, 0, 0, 0]) idle = true ∧ ((u8
    (pk [10, 0, 0, 0]).params 0 = mSAFE ∧ zeroAt (pk [10, 0, 0, 0]).params 1 3 = true) ∧ (idle.begun (cmdRow 2 0 true 4 4
    fwModes true) (pk [10, 0, 0, 0])).mode ≠ mSAFE)) ∧ (admitted (cmdRow 2 0 true 4 4 fwModes true)
    { (pk [3, 0, 0, 0]) with port := 2 } (inMode mSAFE) = true ∧ ((u8 { (pk [3, 0, 0, 0]) with port := 2 }.params 0 = mIDLE ∧
    zeroAt { (pk [3, 0, 0, 0]) with port := 2 }.params 1 3 = true) ∧ ((inMode mSAFE).begun (cmdRow 2 0 true 4 4 fwModes true)
    { (pk [3, 0, 0, 0]) with port := 2 }).mode = mSAFE ∧ ((inMode mSAFE).begun (cmdRow 2 0 true 4 4 fwModes true)
    { (pk [3, 0, 0, 0]) with port := 2 }).mayLeaveSafe = true)) ∧ (admitted (cmdRow 2 0 true 4 4 fwModes true) (pk [2, 0, 0,
    0]) idle = true ∧ (∃ m, (u8 (pk [2, 0, 0, 0]).params 0 = m ∧ zeroAt (pk [2, 0, 0, 0]).params 1 3 = true) ∧ m ≤ 11 ∧ m ≠
    (idle.begun (cmdRow 2 0 true 4 4 fwModes true) (pk [2, 0, 0, 0])).mode ∧ m ≠ mSAFE ∧ ((idle.begun (cmdRow 2 0 true 4 4
    fwModes true) (pk [2, 0, 0, 0])).mode = mSAFE → m ≠ mIDLE) ∧ ((idle.begun (cmdRow 2 0 true 4 4 fwModes true) (pk [2, 0,
    0, 0])).mode = mIDLE → ¬m ∈ [mHALT, mRENDER, mMEASURE, mSERVICE]) ∧ ((idle.begun (cmdRow 2 0 true 4 4 fwModes true) (pk
    [2, 0, 0, 0])).mode ∈ [mRENDER, mMEASURE] → m ≠ mIDLE) ∧ ((idle.begun (cmdRow 2 0 true 4 4 fwModes true) (pk [2, 0, 0,
    0])).mode = mSERVICE → ¬m ∈ [mHALT, mIDLE]) ∧ ((idle.begun (cmdRow 2 0 true 4 4 fwModes true) (pk [2, 0, 0, 0])).mode =
    mFAULT → m ≠ mHALT))) := by
  iterate 6 refine ⟨by decide +kernel, ?_⟩
  exact ⟨by decide +kernel, 2, by decide +kernel⟩

/-- Witness for `ResetAndFormatComplete`. -/
theorem meets_ResetAndFormatComplete :
    (admitted (cmdRow 3 0 false 4 4 fwModes false) ((pz 4 []).withOp 0 0) idle = true ∧ (u8 ((pz 4 []).withOp 0 0).params 0 =
    0 ∧ zeroAt ((pz 4 []).withOp 0 0).params 1 3 = true)) ∧ (admitted (cmdRow 3 0 false 4 4 fwModes false) ((pz 4 []).withOp
    0 1) idle = true ∧ (u8 ((pz 4 []).withOp 0 1).params 0 = 1 ∧ zeroAt ((pz 4 []).withOp 0 1).params 1 3 = true)) ∧
    (admitted (cmdRow 16 0 true 4 4 idleModes true) (pz 4 []) idle = true ∧ ((u8 (pz 4 []).params 0 ≤ 3 ∧ u8 (pz 4 []).params
    1 ≤ 2 ∧ zeroAt (pz 4 []).params 2 2 = true ∧ (idle.begun (cmdRow 16 0 true 4 4 idleModes true) (pz 4 [])).overBudget (u8
    (pz 4 []).params 0) = none ∧ (idle.begun (cmdRow 16 0 true 4 4 idleModes true) (pz 4 [])).formatPort (u8 (pz 4 []).params
    0) = none ∧ (idle.begun (cmdRow 16 0 true 4 4 idleModes true) (pz 4 [])).formatStream (u8 (pz 4 []).params 0) = none ∧
    (idle.begun (cmdRow 16 0 true 4 4 idleModes true) (pz 4 [])).fxTooFast (folioOf (u8 (pz 4 []).params 1)) (rateHz (u8 (pz
    4 []).params 0)) = none) ∧ ((idle.begun (cmdRow 16 0 true 4 4 idleModes true) (pz 4 [])).firLoaded = false ∨ folioOf (u8
    (pz 4 []).params 1) = (idle.begun (cmdRow 16 0 true 4 4 idleModes true) (pz 4 [])).folioLen))) ∧ (admitted (cmdRow 16 0
    true 4 4 idleModes true) (pk [0, 2, 0, 0]) withFir = true ∧ ((u8 (pk [0, 2, 0, 0]).params 0 ≤ 3 ∧ u8 (pk [0, 2, 0,
    0]).params 1 ≤ 2 ∧ zeroAt (pk [0, 2, 0, 0]).params 2 2 = true ∧ (withFir.begun (cmdRow 16 0 true 4 4 idleModes true) (pk
    [0, 2, 0, 0])).overBudget (u8 (pk [0, 2, 0, 0]).params 0) = none ∧ (withFir.begun (cmdRow 16 0 true 4 4 idleModes true)
    (pk [0, 2, 0, 0])).formatPort (u8 (pk [0, 2, 0, 0]).params 0) = none ∧ (withFir.begun (cmdRow 16 0 true 4 4 idleModes
    true) (pk [0, 2, 0, 0])).formatStream (u8 (pk [0, 2, 0, 0]).params 0) = none ∧ (withFir.begun (cmdRow 16 0 true 4 4
    idleModes true) (pk [0, 2, 0, 0])).fxTooFast (folioOf (u8 (pk [0, 2, 0, 0]).params 1)) (rateHz (u8 (pk [0, 2, 0,
    0]).params 0)) = none) ∧ (withFir.begun (cmdRow 16 0 true 4 4 idleModes true) (pk [0, 2, 0, 0])).firLoaded = true ∧
    folioOf (u8 (pk [0, 2, 0, 0]).params 1) ≠ (withFir.begun (cmdRow 16 0 true 4 4 idleModes true) (pk [0, 2, 0,
    0])).folioLen)) := by
  refine ⟨?_, ?_, ?_, ?_⟩ <;> decide +kernel

/-- Witness for `BulkTransfersComplete`. -/
theorem meets_BulkTransfersComplete :
    (admitted ({ (cmdRow 240 0 true 9 8200 fwModes false) with logs := true } : CmdSpec) (dramP 9 [(8, 1)]) idle = true ∧
    (idle.begun ({ (cmdRow 240 0 true 9 8200 fwModes false) with logs := true } : CmdSpec) (dramP 9 [(8, 1)])).dramFree (u64
    (dramP 9 [(8, 1)]).params 0) ((dramP 9 [(8, 1)]).params.length - 8) = true) ∧ (admitted (cmdRow 241 2 false 16 16 fwModes
    false) (dramP 16 [(8, 1)]) idle = true ∧ (1 ≤ u32 (dramP 16 [(8, 1)]).params 8 ∧ u32 (dramP 16 [(8, 1)]).params 8 ≤ 8192
    ∧ zeroAt (dramP 16 [(8, 1)]).params 12 4 = true ∧ (idle.begun (cmdRow 241 2 false 16 16 fwModes false) (dramP 16 [(8,
    1)])).dramFree (u64 (dramP 16 [(8, 1)]).params 0) (u32 (dramP 16 [(8, 1)]).params 8) = true ∧ (idle.begun (cmdRow 241 2
    false 16 16 fwModes false) (dramP 16 [(8, 1)])).poisonIn (u64 (dramP 16 [(8, 1)]).params 0) (u32 (dramP 16 [(8,
    1)]).params 8) = none)) ∧ (admitted (cmdRow 242 2 false 16 16 fwModes false) (dramP 16 [(8, 1)]) idle = true ∧ ((1 ≤ u32
    (dramP 16 [(8, 1)]).params 8 ∧ zeroAt (dramP 16 [(8, 1)]).params 12 4 = true ∧ (idle.begun (cmdRow 242 2 false 16 16
    fwModes false) (dramP 16 [(8, 1)])).dramFree (u64 (dramP 16 [(8, 1)]).params 0) (u32 (dramP 16 [(8, 1)]).params 8) =
    true) ∧ u32 (dramP 16 [(8, 1)]).params 8 ≤ 16 * 2 ^ 20 ∧ (idle.begun (cmdRow 242 2 false 16 16 fwModes false) (dramP 16
    [(8, 1)])).poisonIn (u64 (dramP 16 [(8, 1)]).params 0) (u32 (dramP 16 [(8, 1)]).params 8) = none)) ∧ (admitted (cmdRow
    242 2 false 16 16 fwModes false) (dramP 16 [(8, 1), (11, 1)]) idle = true ∧ ((1 ≤ u32 (dramP 16 [(8, 1), (11, 1)]).params
    8 ∧ zeroAt (dramP 16 [(8, 1), (11, 1)]).params 12 4 = true ∧ (idle.begun (cmdRow 242 2 false 16 16 fwModes false) (dramP
    16 [(8, 1), (11, 1)])).dramFree (u64 (dramP 16 [(8, 1), (11, 1)]).params 0) (u32 (dramP 16 [(8, 1), (11, 1)]).params 8) =
    true) ∧ 16 * 2 ^ 20 < u32 (dramP 16 [(8, 1), (11, 1)]).params 8)) := by
  refine ⟨?_, ?_, ?_, ?_⟩ <;> decide +kernel

/-- Witness for `FusesBlow`. -/
theorem meets_FusesBlow :
    (admitted (cmdRow 3588 0 false 8 56 [mSERVICE] false) ((pw [0, 1179996997]).withOp 0 0) (inMode mSERVICE) = true ∧ (((pw
    [0, 1179996997]).withOp 0 0).params.length = 8 ∧ u8 ((pw [0, 1179996997]).withOp 0 0).params 0 = 0 ∧ u8 ((pw [0,
    1179996997]).withOp 0 0).params 1 ≤ 3 ∧ zeroAt ((pw [0, 1179996997]).withOp 0 0).params 2 2 = true ∧ u32 ((pw [0,
    1179996997]).withOp 0 0).params 4 = 1179996997)) ∧ (admitted (cmdRow 3588 0 false 8 56 [mSERVICE] false) ((pw [1,
    1179996997]).withOp 0 1) (inMode mSERVICE) = true ∧ (((pw [1, 1179996997]).withOp 0 1).params.length = 8 ∧ u8 ((pw [1,
    1179996997]).withOp 0 1).params 0 = 1 ∧ u8 ((pw [1, 1179996997]).withOp 0 1).params 1 ≤ 3 ∧ zeroAt ((pw [1,
    1179996997]).withOp 0 1).params 2 2 = true ∧ u32 ((pw [1, 1179996997]).withOp 0 1).params 4 = 1179996997)) ∧ (admitted
    (cmdRow 3588 0 false 8 56 [mSERVICE] false) ((pw [2, 1179996997]).withOp 0 2) (inMode mSERVICE) = true ∧ (((pw [2,
    1179996997]).withOp 0 2).params.length = 8 ∧ u8 ((pw [2, 1179996997]).withOp 0 2).params 0 = 2 ∧ u8 ((pw [2,
    1179996997]).withOp 0 2).params 1 ≤ 3 ∧ zeroAt ((pw [2, 1179996997]).withOp 0 2).params 2 2 = true ∧ u32 ((pw [2,
    1179996997]).withOp 0 2).params 4 = 1179996997)) ∧ (admitted (cmdRow 3588 0 false 8 56 [mSERVICE] false) ((pw [3,
    1179996997]).withOp 0 3) (inMode mSERVICE) = true ∧ (((pw [3, 1179996997]).withOp 0 3).params.length = 8 ∧ u8 ((pw [3,
    1179996997]).withOp 0 3).params 0 = 3 ∧ u8 ((pw [3, 1179996997]).withOp 0 3).params 1 ≤ 3 ∧ zeroAt ((pw [3,
    1179996997]).withOp 0 3).params 2 2 = true ∧ u32 ((pw [3, 1179996997]).withOp 0 3).params 4 = 1179996997)) ∧ (admitted
    (cmdRow 3588 0 false 8 56 [mSERVICE] false) ((pw [260, 1179996997]).withOp 0 4) withKey = true ∧ ((((pw [260,
    1179996997]).withOp 0 4).params.length = 8 ∧ u8 ((pw [260, 1179996997]).withOp 0 4).params 0 = 4 ∧ u8 ((pw [260,
    1179996997]).withOp 0 4).params 1 ≤ 3 ∧ zeroAt ((pw [260, 1179996997]).withOp 0 4).params 2 2 = true ∧ u32 ((pw [260,
    1179996997]).withOp 0 4).params 4 = 1179996997) ∧ (withKey.begun (cmdRow 3588 0 false 8 56 [mSERVICE] false) ((pw [260,
    1179996997]).withOp 0 4)).otp.revoke.testBit (u8 ((pw [260, 1179996997]).withOp 0 4).params 1) = false ∧ u8 ((pw [260,
    1179996997]).withOp 0 4).params 1 ≠ (withKey.begun (cmdRow 3588 0 false 8 56 [mSERVICE] false) ((pw [260,
    1179996997]).withOp 0 4)).sys.firm.keyIdx ∧ ∃ j, j ≤ 3 ∧ j ≠ u8 ((pw [260, 1179996997]).withOp 0 4).params 1 ∧ (Tab.look
    (withKey.begun (cmdRow 3588 0 false 8 56 [mSERVICE] false) ((pw [260, 1179996997]).withOp 0 4)).otp.keyHash j).isSome =
    true ∧ (withKey.begun (cmdRow 3588 0 false 8 56 [mSERVICE] false) ((pw [260, 1179996997]).withOp 0 4)).otp.revoke.testBit
    j = false)) ∧ (admitted (cmdRow 3588 0 false 8 56 [mSERVICE] false) ((pw ([5, 1179996997] ++ List.replicate 12 1)).withOp
    0 5) (inMode mSERVICE) = true ∧ ((((pw ([5, 1179996997] ++ List.replicate 12 1)).withOp 0 5).params.length = 56 ∧ u8 ((pw
    ([5, 1179996997] ++ List.replicate 12 1)).withOp 0 5).params 0 = 5 ∧ u8 ((pw ([5, 1179996997] ++ List.replicate 12
    1)).withOp 0 5).params 1 ≤ 3 ∧ zeroAt ((pw ([5, 1179996997] ++ List.replicate 12 1)).withOp 0 5).params 2 2 = true ∧ u32
    ((pw ([5, 1179996997] ++ List.replicate 12 1)).withOp 0 5).params 4 = 1179996997) ∧ Tab.look ((inMode mSERVICE).begun
    (cmdRow 3588 0 false 8 56 [mSERVICE] false) ((pw ([5, 1179996997] ++ List.replicate 12 1)).withOp 0 5)).otp.keyHash (u8
    ((pw ([5, 1179996997] ++ List.replicate 12 1)).withOp 0 5).params 1) = none)) := by
  refine ⟨by decide +kernel, by decide +kernel, by decide +kernel, by decide +kernel, by refine ⟨by decide +kernel,
  by decide +kernel, by decide +kernel, by decide +kernel, 0, by decide +kernel⟩, by decide +kernel⟩

/-- Witness for `ImagesAndJournalComplete`. -/
theorem meets_ImagesAndJournalComplete :
    (admitted (cmdRow 1025 0 true 16 16 idleModes true) (dramP 16 [(9, 2)]) (withImage itLAYOUT mIDLE) = true ∧ (zeroAt
    (dramP 16 [(9, 2)]).params 12 4 = true ∧ ((withImage itLAYOUT mIDLE).begun (cmdRow 1025 0 true 16 16 idleModes true)
    (dramP 16 [(9, 2)])).imageNamed (u64 (dramP 16 [(9, 2)]).params 0) (u32 (dramP 16 [(9, 2)]).params 8) itLAYOUT = none)) ∧
    (admitted (cmdRow 2049 0 true 16 16 firModes true) (dramP 16 [(9, 2)]) (withImage itFIR mIDLE) = true ∧ (zeroAt (dramP 16
    [(9, 2)]).params 12 4 = true ∧ ((withImage itFIR mIDLE).begun (cmdRow 2049 0 true 16 16 firModes true) (dramP 16 [(9,
    2)])).imageNamed (u64 (dramP 16 [(9, 2)]).params 0) (u32 (dramP 16 [(9, 2)]).params 8) itFIR = none)) ∧ (admitted (cmdRow
    3585 0 false 16 16 [mIDLE, mSERVICE, mSTANDBY] false) (dramP 16 [(9, 2)]) (withImage itFIRMWARE mIDLE) = true ∧ (u8
    (dramP 16 [(9, 2)]).params 12 ≤ 1 ∧ zeroAt (dramP 16 [(9, 2)]).params 13 3 = true ∧ ((withImage itFIRMWARE mIDLE).begun
    (cmdRow 3585 0 false 16 16 [mIDLE, mSERVICE, mSTANDBY] false) (dramP 16 [(9, 2)])).imageNamed (u64 (dramP 16 [(9,
    2)]).params 0) (u32 (dramP 16 [(9, 2)]).params 8) itFIRMWARE = none)) ∧ (admitted (cmdRow 3586 2 false 0 0 fwModes false)
    (pz 0 []) idle = true) ∧ (admitted (cmdRow 3587 0 false 0 0 [mSERVICE] false) (pz 0 []) (inMode mSERVICE) = true) ∧
    (admitted ({ (cmdRow 3600 0 true 0 0 fwModes false) with logs := true } : CmdSpec) (pz 0 []) idle = true) ∧ (admitted
    (cmdRow 3601 2 false 0 0 fwModes false) (pz 0 []) idle = true) ∧ (admitted
    ({ (cmdRow 3602 0 true 4 4 fwModes false) with logs := true } : CmdSpec) (pz 4 [(1, 1)]) idle = true ∧ (rsvOk
    Reg.SYS_JNL_CFG (u32 (pz 4 [(1, 1)]).params 0) = true ∧ bitsN (u32 (pz 4 [(1, 1)]).params 0) 15 8 ≠ 0)) ∧ (admitted
    ({ (cmdRow 3603 0 true 0 0 idleModes false) with logs := true } : CmdSpec) (pz 0 []) idle = true) ∧ (admitted (cmdRow
    3616 0 false 9 8200 [] false) (pz 9 []) waitingHsp = true ∧ (zeroAt (pz 9 []).params 4 4 = true ∧ u32 (pz 9 []).params 0
    + ((pz 9 []).params.length - 8) ≤ stagingSize)) ∧ (admitted (cmdRow 3617 0 false 8 8 [] false) (pw [512, 0]) waitingHsp =
    true ∧ (zeroAt (pw [512, 0]).params 4 4 = true ∧ u32 (pw [512, 0]).params 0 ≤ stagingSize ∧ containerErr
    ((waitingHsp.begun (cmdRow 3617 0 false 8 8 [] false) (pw [512, 0])).rdBytes 16777216 512) (u32 (pw [512, 0]).params 0)
    itFIRMWARE = none ∧ (waitingHsp.begun (cmdRow 3617 0 false 8 8 [] false) (pw [512, 0])).verifies ((waitingHsp.begun
    (cmdRow 3617 0 false 8 8 [] false) (pw [512, 0])).rdBytes 16777216 (u32 (pw [512, 0]).params 0)) = true)) := by
  iterate 10 refine ⟨by decide +kernel, ?_⟩
  exact bootGo_ready

/-- Witness for `StatisticsReturnAndClear`. -/
theorem meets_StatisticsReturnAndClear :
    (admitted (cmdRow 260 2 false 0 0 fwModes false) (pz 0 []) idle = true) ∧ (admitted (cmdRow 519 2 false 0 0 fwModes
    false) (pz 0 []) idle = true) ∧ (admitted (cmdRow 531 2 false 0 0 fwModes false) (pz 0 []) idle = true) ∧ (admitted
    (cmdRow 788 2 false 0 0 fwModes false) (pz 0 []) idle = true) ∧ (admitted (cmdRow 1030 2 false 0 0 fwModes false) (pz 0
    []) idle = true) ∧ (admitted (cmdRow 1285 2 false 0 0 fwModes false) (pz 0 []) idle = true) ∧ (admitted (cmdRow 1288 2
    false 0 0 fwModes false) (pz 0 []) idle = true) ∧ (admitted (cmdRow 1539 2 false 0 0 fwModes false) (pz 0 []) idle =
    true) ∧ (admitted (cmdRow 1803 2 false 0 0 fwModes false) (pz 0 []) idle = true) ∧ (admitted (cmdRow 2054 2 false 0 0
    fwModes false) (pz 0 []) idle = true) ∧ (admitted (cmdRow 2312 2 false 0 0 fwModes false) (pz 0 []) idle = true) ∧
    (admitted (cmdRow 2571 2 false 0 0 fwModes false) (pz 0 []) idle = true) ∧ (admitted (cmdRow 2820 2 false 0 0 fwModes
    false) (pz 0 []) idle = true) ∧ (admitted (cmdRow 3079 2 false 0 0 fwModes false) (pz 0 []) idle = true) ∧ (admitted
    (cmdRow 3332 2 false 0 0 fwModes false) (pz 0 []) idle = true) ∧ (admitted (cmdRow 4102 2 false 0 0 fwModes false) (pz 0
    []) idle = true) ∧ (admitted (cmdRow 3908 2 false 0 0 fwModes false) (pz 0 []) idle = true) ∧ (admitted (cmdRow 3925 2
    false 0 0 fwModes false) (pz 0 []) idle = true) ∧ (admitted (cmdRow 3941 2 false 0 0 fwModes false) (pz 0 []) idle =
    true) := by
  iterate 18 refine ⟨by decide +kernel, ?_⟩
  decide +kernel
/-- Witness for `PowerCommandsComplete`. -/
theorem meets_PowerCommandsComplete :
    (admitted (cmdRow 257 0 false 4 4 fwModes false) ((pz 4 [(0, 7)]).withOp 1 0) idle = true ∧ (u8 ((pz 4 [(0, 7)]).withOp 1
    0).params 1 = 0 ∧ zeroAt ((pz 4 [(0, 7)]).withOp 1 0).params 2 2 = true ∧ 2 ≤ u8 ((pz 4 [(0, 7)]).withOp 1 0).params 0 ∧
    (idle.begun (cmdRow 257 0 false 4 4 fwModes false) ((pz 4 [(0, 7)]).withOp 1 0)).timed (u8 ((pz 4 [(0, 7)]).withOp 1
    0).params 0) = true ∧ (0 = 2 → u8 ((pz 4 [(0, 7)]).withOp 1 0).params 0 ≠ dCTRL ∧ u8 ((pz 4 [(0, 7)]).withOp 1 0).params
    0 ≠ dDRAM) ∧ (1 ≤ 0 → (idle.begun (cmdRow 257 0 false 4 4 fwModes false) ((pz 4 [(0, 7)]).withOp 1 0)).planeHolds (u8
    ((pz 4 [(0, 7)]).withOp 1 0).params 0) = false))) ∧ (admitted (cmdRow 257 0 false 4 4 fwModes false) ((pz 4 [(0,
    7)]).withOp 1 1) (idle.setDom 7 pRET) = true ∧ ((u8 ((pz 4 [(0, 7)]).withOp 1 1).params 1 = 1 ∧ zeroAt ((pz 4 [(0,
    7)]).withOp 1 1).params 2 2 = true ∧ 2 ≤ u8 ((pz 4 [(0, 7)]).withOp 1 1).params 0 ∧ ((idle.setDom 7 pRET).begun (cmdRow
    257 0 false 4 4 fwModes false) ((pz 4 [(0, 7)]).withOp 1 1)).timed (u8 ((pz 4 [(0, 7)]).withOp 1 1).params 0) = true ∧ (1
    = 2 → u8 ((pz 4 [(0, 7)]).withOp 1 1).params 0 ≠ dCTRL ∧ u8 ((pz 4 [(0, 7)]).withOp 1 1).params 0 ≠ dDRAM) ∧ (1 ≤ 1 →
    ((idle.setDom 7 pRET).begun (cmdRow 257 0 false 4 4 fwModes false) ((pz 4 [(0, 7)]).withOp 1 1)).planeHolds (u8 ((pz 4
    [(0, 7)]).withOp 1 1).params 0) = false)) ∧ (((idle.setDom 7 pRET).begun (cmdRow 257 0 false 4 4 fwModes false) ((pz 4
    [(0, 7)]).withOp 1 1)).domState (u8 ((pz 4 [(0, 7)]).withOp 1 1).params 0) = pRET ∨ ((idle.setDom 7 pRET).begun (cmdRow
    257 0 false 4 4 fwModes false) ((pz 4 [(0, 7)]).withOp 1 1)).domState (u8 ((pz 4 [(0, 7)]).withOp 1 1).params 0) =
    pOFF))) ∧ (admitted (cmdRow 257 0 false 4 4 fwModes false) ((pz 4 [(0, 7)]).withOp 1 1) idle = true ∧ ((u8 ((pz 4 [(0,
    7)]).withOp 1 1).params 1 = 1 ∧ zeroAt ((pz 4 [(0, 7)]).withOp 1 1).params 2 2 = true ∧ 2 ≤ u8 ((pz 4 [(0, 7)]).withOp 1
    1).params 0 ∧ (idle.begun (cmdRow 257 0 false 4 4 fwModes false) ((pz 4 [(0, 7)]).withOp 1 1)).timed (u8 ((pz 4 [(0,
    7)]).withOp 1 1).params 0) = true ∧ (1 = 2 → u8 ((pz 4 [(0, 7)]).withOp 1 1).params 0 ≠ dCTRL ∧ u8 ((pz 4 [(0,
    7)]).withOp 1 1).params 0 ≠ dDRAM) ∧ (1 ≤ 1 → (idle.begun (cmdRow 257 0 false 4 4 fwModes false) ((pz 4 [(0, 7)]).withOp
    1 1)).planeHolds (u8 ((pz 4 [(0, 7)]).withOp 1 1).params 0) = false)) ∧ (idle.begun (cmdRow 257 0 false 4 4 fwModes
    false) ((pz 4 [(0, 7)]).withOp 1 1)).domState (u8 ((pz 4 [(0, 7)]).withOp 1 1).params 0) ≠ pRET ∧ (idle.begun (cmdRow 257
    0 false 4 4 fwModes false) ((pz 4 [(0, 7)]).withOp 1 1)).domState (u8 ((pz 4 [(0, 7)]).withOp 1 1).params 0) ≠ pOFF ∧
    (idle.begun (cmdRow 257 0 false 4 4 fwModes false) ((pz 4 [(0, 7)]).withOp 1 1)).idle (u8 ((pz 4 [(0, 7)]).withOp 1
    1).params 0) = true ∧ u8 ((pz 4 [(0, 7)]).withOp 1 1).params 0 ≠ dCTRL)) ∧ (admitted (cmdRow 257 0 false 4 4 fwModes
    false) ((pz 4 [(0, 2)]).withOp 1 1) idle = true ∧ ((u8 ((pz 4 [(0, 2)]).withOp 1 1).params 1 = 1 ∧ zeroAt ((pz 4 [(0,
    2)]).withOp 1 1).params 2 2 = true ∧ 2 ≤ u8 ((pz 4 [(0, 2)]).withOp 1 1).params 0 ∧ (idle.begun (cmdRow 257 0 false 4 4
    fwModes false) ((pz 4 [(0, 2)]).withOp 1 1)).timed (u8 ((pz 4 [(0, 2)]).withOp 1 1).params 0) = true ∧ (1 = 2 → u8 ((pz 4
    [(0, 2)]).withOp 1 1).params 0 ≠ dCTRL ∧ u8 ((pz 4 [(0, 2)]).withOp 1 1).params 0 ≠ dDRAM) ∧ (1 ≤ 1 → (idle.begun (cmdRow
    257 0 false 4 4 fwModes false) ((pz 4 [(0, 2)]).withOp 1 1)).planeHolds (u8 ((pz 4 [(0, 2)]).withOp 1 1).params 0) =
    false)) ∧ (idle.begun (cmdRow 257 0 false 4 4 fwModes false) ((pz 4 [(0, 2)]).withOp 1 1)).domState (u8 ((pz 4 [(0,
    2)]).withOp 1 1).params 0) ≠ pRET ∧ (idle.begun (cmdRow 257 0 false 4 4 fwModes false) ((pz 4 [(0, 2)]).withOp 1
    1)).domState (u8 ((pz 4 [(0, 2)]).withOp 1 1).params 0) ≠ pOFF ∧ ((idle.begun (cmdRow 257 0 false 4 4 fwModes false) ((pz
    4 [(0, 2)]).withOp 1 1)).idle (u8 ((pz 4 [(0, 2)]).withOp 1 1).params 0) = false ∨ u8 ((pz 4 [(0, 2)]).withOp 1 1).params
    0 = dCTRL))) ∧ (admitted (cmdRow 257 0 false 4 4 fwModes false) ((pz 4 [(0, 7)]).withOp 1 2) (idle.setDom 7 pOFF) = true
    ∧ ((u8 ((pz 4 [(0, 7)]).withOp 1 2).params 1 = 2 ∧ zeroAt ((pz 4 [(0, 7)]).withOp 1 2).params 2 2 = true ∧ 2 ≤ u8 ((pz 4
    [(0, 7)]).withOp 1 2).params 0 ∧ ((idle.setDom 7 pOFF).begun (cmdRow 257 0 false 4 4 fwModes false) ((pz 4 [(0,
    7)]).withOp 1 2)).timed (u8 ((pz 4 [(0, 7)]).withOp 1 2).params 0) = true ∧ (2 = 2 → u8 ((pz 4 [(0, 7)]).withOp 1
    2).params 0 ≠ dCTRL ∧ u8 ((pz 4 [(0, 7)]).withOp 1 2).params 0 ≠ dDRAM) ∧ (1 ≤ 2 → ((idle.setDom 7 pOFF).begun (cmdRow
    257 0 false 4 4 fwModes false) ((pz 4 [(0, 7)]).withOp 1 2)).planeHolds (u8 ((pz 4 [(0, 7)]).withOp 1 2).params 0) =
    false)) ∧ ((idle.setDom 7 pOFF).begun (cmdRow 257 0 false 4 4 fwModes false) ((pz 4 [(0, 7)]).withOp 1 2)).domState (u8
    ((pz 4 [(0, 7)]).withOp 1 2).params 0) = pOFF)) ∧ (admitted (cmdRow 257 0 false 4 4 fwModes false) ((pz 4 [(0,
    7)]).withOp 1 2) idle = true ∧ ((u8 ((pz 4 [(0, 7)]).withOp 1 2).params 1 = 2 ∧ zeroAt ((pz 4 [(0, 7)]).withOp 1
    2).params 2 2 = true ∧ 2 ≤ u8 ((pz 4 [(0, 7)]).withOp 1 2).params 0 ∧ (idle.begun (cmdRow 257 0 false 4 4 fwModes false)
    ((pz 4 [(0, 7)]).withOp 1 2)).timed (u8 ((pz 4 [(0, 7)]).withOp 1 2).params 0) = true ∧ (2 = 2 → u8 ((pz 4 [(0,
    7)]).withOp 1 2).params 0 ≠ dCTRL ∧ u8 ((pz 4 [(0, 7)]).withOp 1 2).params 0 ≠ dDRAM) ∧ (1 ≤ 2 → (idle.begun (cmdRow 257
    0 false 4 4 fwModes false) ((pz 4 [(0, 7)]).withOp 1 2)).planeHolds (u8 ((pz 4 [(0, 7)]).withOp 1 2).params 0) = false))
    ∧ ((idle.begun (cmdRow 257 0 false 4 4 fwModes false) ((pz 4 [(0, 7)]).withOp 1 2)).domState (u8 ((pz 4 [(0, 7)]).withOp
    1 2).params 0) = pRET ∨ (idle.begun (cmdRow 257 0 false 4 4 fwModes false) ((pz 4 [(0, 7)]).withOp 1 2)).domState (u8
    ((pz 4 [(0, 7)]).withOp 1 2).params 0) ≠ pOFF ∧ (idle.begun (cmdRow 257 0 false 4 4 fwModes false) ((pz 4 [(0,
    7)]).withOp 1 2)).idle (u8 ((pz 4 [(0, 7)]).withOp 1 2).params 0) = true))) ∧ (admitted (cmdRow 257 0 false 4 4 fwModes
    false) ((pz 4 [(0, 6)]).withOp 1 2) (idle.setFlag Reg.OMS_CFG Fl.OMS_CFG_HSP_EN true) = true ∧ ((u8 ((pz 4 [(0,
    6)]).withOp 1 2).params 1 = 2 ∧ zeroAt ((pz 4 [(0, 6)]).withOp 1 2).params 2 2 = true ∧ 2 ≤ u8 ((pz 4 [(0, 6)]).withOp 1
    2).params 0 ∧ ((idle.setFlag Reg.OMS_CFG Fl.OMS_CFG_HSP_EN true).begun (cmdRow 257 0 false 4 4 fwModes false) ((pz 4 [(0,
    6)]).withOp 1 2)).timed (u8 ((pz 4 [(0, 6)]).withOp 1 2).params 0) = true ∧ (2 = 2 → u8 ((pz 4 [(0, 6)]).withOp 1
    2).params 0 ≠ dCTRL ∧ u8 ((pz 4 [(0, 6)]).withOp 1 2).params 0 ≠ dDRAM) ∧ (1 ≤ 2 → ((idle.setFlag Reg.OMS_CFG
    Fl.OMS_CFG_HSP_EN true).begun (cmdRow 257 0 false 4 4 fwModes false) ((pz 4 [(0, 6)]).withOp 1 2)).planeHolds (u8 ((pz 4
    [(0, 6)]).withOp 1 2).params 0) = false)) ∧ ((idle.setFlag Reg.OMS_CFG Fl.OMS_CFG_HSP_EN true).begun (cmdRow 257 0 false
    4 4 fwModes false) ((pz 4 [(0, 6)]).withOp 1 2)).domState (u8 ((pz 4 [(0, 6)]).withOp 1 2).params 0) ≠ pRET ∧
    ((idle.setFlag Reg.OMS_CFG Fl.OMS_CFG_HSP_EN true).begun (cmdRow 257 0 false 4 4 fwModes false) ((pz 4 [(0, 6)]).withOp 1
    2)).domState (u8 ((pz 4 [(0, 6)]).withOp 1 2).params 0) ≠ pOFF ∧ ((idle.setFlag Reg.OMS_CFG Fl.OMS_CFG_HSP_EN true).begun
    (cmdRow 257 0 false 4 4 fwModes false) ((pz 4 [(0, 6)]).withOp 1 2)).idle (u8 ((pz 4 [(0, 6)]).withOp 1 2).params 0) =
    false)) ∧ (admitted (cmdRow 257 0 false 4 4 fwModes false) ((pz 4 [(0, 7)]).withOp 1 3) idle = true ∧ ((u8 ((pz 4 [(0,
    7)]).withOp 1 3).params 1 = 3 ∧ zeroAt ((pz 4 [(0, 7)]).withOp 1 3).params 2 2 = true ∧ 2 ≤ u8 ((pz 4 [(0, 7)]).withOp 1
    3).params 0 ∧ (idle.begun (cmdRow 257 0 false 4 4 fwModes false) ((pz 4 [(0, 7)]).withOp 1 3)).timed (u8 ((pz 4 [(0,
    7)]).withOp 1 3).params 0) = true ∧ (3 = 2 → u8 ((pz 4 [(0, 7)]).withOp 1 3).params 0 ≠ dCTRL ∧ u8 ((pz 4 [(0,
    7)]).withOp 1 3).params 0 ≠ dDRAM) ∧ (1 ≤ 3 → (idle.begun (cmdRow 257 0 false 4 4 fwModes false) ((pz 4 [(0, 7)]).withOp
    1 3)).planeHolds (u8 ((pz 4 [(0, 7)]).withOp 1 3).params 0) = false)) ∧ u8 ((pz 4 [(0, 7)]).withOp 1 3).params 0 ≠
    dCTRL)) ∧ (admitted (cmdRow 257 0 false 4 4 fwModes false) ((pz 4 [(0, 2)]).withOp 1 3) idle = true ∧ ((u8 ((pz 4 [(0,
    2)]).withOp 1 3).params 1 = 3 ∧ zeroAt ((pz 4 [(0, 2)]).withOp 1 3).params 2 2 = true ∧ 2 ≤ u8 ((pz 4 [(0, 2)]).withOp 1
    3).params 0 ∧ (idle.begun (cmdRow 257 0 false 4 4 fwModes false) ((pz 4 [(0, 2)]).withOp 1 3)).timed (u8 ((pz 4 [(0,
    2)]).withOp 1 3).params 0) = true ∧ (3 = 2 → u8 ((pz 4 [(0, 2)]).withOp 1 3).params 0 ≠ dCTRL ∧ u8 ((pz 4 [(0,
    2)]).withOp 1 3).params 0 ≠ dDRAM) ∧ (1 ≤ 3 → (idle.begun (cmdRow 257 0 false 4 4 fwModes false) ((pz 4 [(0, 2)]).withOp
    1 3)).planeHolds (u8 ((pz 4 [(0, 2)]).withOp 1 3).params 0) = false)) ∧ u8 ((pz 4 [(0, 2)]).withOp 1 3).params 0 =
    dCTRL)) ∧ (admitted (cmdRow 258 0 false 16 16 fwModes true) (pz 16 []) idle = true ∧ ((zeroAt (pz 16 []).params 1 3 =
    true ∧ u8 (pz 16 []).params 0 ≤ 18 ∧ domainPresent (idle.begun (cmdRow 258 0 false 16 16 fwModes true) (pz 16
    [])).otp.grade (u8 (pz 16 []).params 0) = true ∧ rsvOk (Reg.PWR_DOM_CFG (u8 (pz 16 []).params 0)) (u32 (pz 16 []).params
    4) = true ∧ rsvOk (Reg.PWR_DOM_OFFT (u8 (pz 16 []).params 0)) (u32 (pz 16 []).params 8) = true ∧ rsvOk Reg.PWR_CFG (u32
    (pz 16 []).params 12) = true ∧ bitsN (u32 (pz 16 []).params 4) 23 0 ≤ 10000000 ∧ u32 (pz 16 []).params 8 ≤ 600000 ∧ bitsN
    (u32 (pz 16 []).params 12) 15 0 ≤ 10000) ∧ u8 (pz 16 []).params 0 < 2)) ∧ (admitted (cmdRow 258 0 false 16 16 fwModes
    true) (pz 16 [(0, 7)]) idle = true ∧ ((zeroAt (pz 16 [(0, 7)]).params 1 3 = true ∧ u8 (pz 16 [(0, 7)]).params 0 ≤ 18 ∧
    domainPresent (idle.begun (cmdRow 258 0 false 16 16 fwModes true) (pz 16 [(0, 7)])).otp.grade (u8 (pz 16 [(0, 7)]).params
    0) = true ∧ rsvOk (Reg.PWR_DOM_CFG (u8 (pz 16 [(0, 7)]).params 0)) (u32 (pz 16 [(0, 7)]).params 4) = true ∧ rsvOk
    (Reg.PWR_DOM_OFFT (u8 (pz 16 [(0, 7)]).params 0)) (u32 (pz 16 [(0, 7)]).params 8) = true ∧ rsvOk Reg.PWR_CFG (u32 (pz 16
    [(0, 7)]).params 12) = true ∧ bitsN (u32 (pz 16 [(0, 7)]).params 4) 23 0 ≤ 10000000 ∧ u32 (pz 16 [(0, 7)]).params 8 ≤
    600000 ∧ bitsN (u32 (pz 16 [(0, 7)]).params 12) 15 0 ≤ 10000) ∧ 2 ≤ u8 (pz 16 [(0, 7)]).params 0)) ∧ (admitted (cmdRow
    259 2 false 0 0 fwModes false) (pz 0 []) idle = true) ∧ (admitted (cmdRow 261 0 false 16 16 (fwModes ++ [mSAFE]) false)
    (pz 16 []) idle = true ∧ (u64 (pz 16 []).params 0 < 2 ^ 48 ∧ zeroAt (pz 16 []).params 12 4 = true)) := by
  iterate 12 refine ⟨by decide +kernel, ?_⟩
  decide +kernel
/-- Witness for `ClockCommandsComplete`. -/
theorem meets_ClockCommandsComplete :
    (admitted (cmdRow 513 0 true 12 12 fwModes true) (pw [rst Reg.CLK_CFG, rst Reg.CLK_DPLL, rst Reg.CLK_QUAL]) idle = true ∧
    clkCfgOk (u32 (pw [rst Reg.CLK_CFG, rst Reg.CLK_DPLL, rst Reg.CLK_QUAL]).params (4 * 0)) (u32 (pw [rst Reg.CLK_CFG, rst
    Reg.CLK_DPLL, rst Reg.CLK_QUAL]).params (4 * 1)) (u32 (pw [rst Reg.CLK_CFG, rst Reg.CLK_DPLL, rst Reg.CLK_QUAL]).params
    (4 * 2)) = true) ∧ (admitted (cmdRow 514 0 true 8 8 fwModes true) (pz 8 [(0, 5)]) idle = true ∧ ((zeroAt (pz 8 [(0,
    5)]).params 1 3 = true ∧ rsvOk (Reg.CLK_REF_CFG (u8 (pz 8 [(0, 5)]).params 0)) (u32 (pz 8 [(0, 5)]).params (4 * 1)) =
    true ∧ bitsN (u32 (pz 8 [(0, 5)]).params (4 * 1)) 26 24 ≠ 7) ∧ u8 (pz 8 [(0, 5)]).params 0 = 5)) ∧ (admitted (cmdRow 514
    0 true 8 8 fwModes true) (pz 8 []) idle = true ∧ ((zeroAt (pz 8 []).params 1 3 = true ∧ rsvOk (Reg.CLK_REF_CFG (u8 (pz 8
    []).params 0)) (u32 (pz 8 []).params (4 * 1)) = true ∧ bitsN (u32 (pz 8 []).params (4 * 1)) 26 24 ≠ 7) ∧ u8 (pz 8
    []).params 0 < 5 ∧ (u32 (pz 8 []).params (4 * 1)).testBit 31 = false)) ∧ (admitted (cmdRow 514 0 true 8 8 fwModes true)
    (pz 8 [(7, 128)]) idle = true ∧ ((zeroAt (pz 8 [(7, 128)]).params 1 3 = true ∧ rsvOk (Reg.CLK_REF_CFG (u8 (pz 8 [(7,
    128)]).params 0)) (u32 (pz 8 [(7, 128)]).params (4 * 1)) = true ∧ bitsN (u32 (pz 8 [(7, 128)]).params (4 * 1)) 26 24 ≠ 7)
    ∧ u8 (pz 8 [(7, 128)]).params 0 < 5 ∧ (u32 (pz 8 [(7, 128)]).params (4 * 1)).testBit 31 = true ∧ ((idle.begun (cmdRow 514
    0 true 8 8 fwModes true) (pz 8 [(7, 128)])).wr (Reg.CLK_REF_CFG (u8 (pz 8 [(7, 128)]).params 0)) (u32 (pz 8 [(7,
    128)]).params (4 * 1))).fld (Reg.CLK_REF_STAT (u8 (pz 8 [(7, 128)]).params 0)) Fl.CLK_REF_STAT_STATE = rsDIS)) ∧
    (admitted (cmdRow 514 0 true 8 8 fwModes true) (pz 8 [(7, 128)]) (idle.setFld (Reg.CLK_REF_STAT 0) Fl.CLK_REF_STAT_STATE
    rsQUAL) = true ∧ ((zeroAt (pz 8 [(7, 128)]).params 1 3 = true ∧ rsvOk (Reg.CLK_REF_CFG (u8 (pz 8 [(7, 128)]).params 0))
    (u32 (pz 8 [(7, 128)]).params (4 * 1)) = true ∧ bitsN (u32 (pz 8 [(7, 128)]).params (4 * 1)) 26 24 ≠ 7) ∧ u8 (pz 8 [(7,
    128)]).params 0 < 5 ∧ (u32 (pz 8 [(7, 128)]).params (4 * 1)).testBit 31 = true ∧ (((idle.setFld (Reg.CLK_REF_STAT 0)
    Fl.CLK_REF_STAT_STATE rsQUAL).begun (cmdRow 514 0 true 8 8 fwModes true) (pz 8 [(7, 128)])).wr (Reg.CLK_REF_CFG (u8 (pz 8
    [(7, 128)]).params 0)) (u32 (pz 8 [(7, 128)]).params (4 * 1))).fld (Reg.CLK_REF_STAT (u8 (pz 8 [(7, 128)]).params 0))
    Fl.CLK_REF_STAT_STATE ≠ rsDIS)) ∧ (admitted (cmdRow 515 1 true 4 4 fwModes true) (pz 4 []) idle = true ∧ (u32 (pz 4
    []).params (4 * 0) ≤ 5 ∨ u32 (pz 4 []).params (4 * 0) = 14 ∨ u32 (pz 4 []).params (4 * 0) = 15)) ∧ (admitted (cmdRow 516
    0 true 8 8 fwModes true) (pz 8 []) ((inMode mRENDER).setFld Reg.CLK_SEL Fl.CLK_SEL_MANUAL 14) = true ∧ (((((inMode
    mRENDER).setFld Reg.CLK_SEL Fl.CLK_SEL_MANUAL 14).begun (cmdRow 516 0 true 8 8 fwModes true) (pz 8 [])).fld Reg.CLK_SEL
    Fl.CLK_SEL_MANUAL = 14 ∧ -dcoMax ≤ toS 64 (u64 (pz 8 []).params 0) ∧ toS 64 (u64 (pz 8 []).params 0) ≤ dcoMax) ∧
    (((inMode mRENDER).setFld Reg.CLK_SEL Fl.CLK_SEL_MANUAL 14).begun (cmdRow 516 0 true 8 8 fwModes true) (pz 8 [])).planeOn
    = true)) ∧ (admitted (cmdRow 516 0 true 8 8 fwModes true) (pz 8 []) (idle.setFld Reg.CLK_SEL Fl.CLK_SEL_MANUAL 14) = true
    ∧ ((((idle.setFld Reg.CLK_SEL Fl.CLK_SEL_MANUAL 14).begun (cmdRow 516 0 true 8 8 fwModes true) (pz 8 [])).fld Reg.CLK_SEL
    Fl.CLK_SEL_MANUAL = 14 ∧ -dcoMax ≤ toS 64 (u64 (pz 8 []).params 0) ∧ toS 64 (u64 (pz 8 []).params 0) ≤ dcoMax) ∧
    ((idle.setFld Reg.CLK_SEL Fl.CLK_SEL_MANUAL 14).begun (cmdRow 516 0 true 8 8 fwModes true) (pz 8 [])).planeOn = false)) ∧
    (admitted (cmdRow 516 0 true 8 8 fwModes true) (pz 8 []) idle = true ∧ (idle.begun (cmdRow 516 0 true 8 8 fwModes true)
    (pz 8 [])).fld Reg.CLK_SEL Fl.CLK_SEL_MANUAL ≠ 14) ∧ (admitted (cmdRow 517 0 true 4 4 fwModes true) (pz 4 []) idle = true
    ∧ (idle.begun (cmdRow 517 0 true 4 4 fwModes true) (pz 4 [])).clkOutOk (u32 (pz 4 []).params (4 * 0)) = true) ∧ (admitted
    (cmdRow 518 2 false 0 0 fwModes false) (pz 0 []) idle = true) ∧ (admitted (cmdRow 528 0 true 16 16 fwModes true) (pw [0,
    rst Reg.PTP_CFG, rst Reg.PTP_PRIO, rst Reg.PTP_INTV]) idle = true ∧ ((zeroAt (pw [0, rst Reg.PTP_CFG, rst Reg.PTP_PRIO,
    rst Reg.PTP_INTV]).params 1 3 = true ∧ ptpCfgOk (u32 (pw [0, rst Reg.PTP_CFG, rst Reg.PTP_PRIO, rst Reg.PTP_INTV]).params
    (4 * 1)) (u32 (pw [0, rst Reg.PTP_CFG, rst Reg.PTP_PRIO, rst Reg.PTP_INTV]).params (4 * 2)) (u32 (pw [0, rst Reg.PTP_CFG,
    rst Reg.PTP_PRIO, rst Reg.PTP_INTV]).params (4 * 3)) = true) ∧ u8 (pw [0, rst Reg.PTP_CFG, rst Reg.PTP_PRIO, rst
    Reg.PTP_INTV]).params 0 = 0)) ∧ (admitted (cmdRow 528 0 true 16 16 fwModes true) (pw [1, rst Reg.PTP_CFG, rst
    Reg.PTP_PRIO, rst Reg.PTP_INTV]) idle = true ∧ ((zeroAt (pw [1, rst Reg.PTP_CFG, rst Reg.PTP_PRIO, rst
    Reg.PTP_INTV]).params 1 3 = true ∧ ptpCfgOk (u32 (pw [1, rst Reg.PTP_CFG, rst Reg.PTP_PRIO, rst Reg.PTP_INTV]).params (4
    * 1)) (u32 (pw [1, rst Reg.PTP_CFG, rst Reg.PTP_PRIO, rst Reg.PTP_INTV]).params (4 * 2)) (u32 (pw [1, rst Reg.PTP_CFG,
    rst Reg.PTP_PRIO, rst Reg.PTP_INTV]).params (4 * 3)) = true) ∧ u8 (pw [1, rst Reg.PTP_CFG, rst Reg.PTP_PRIO, rst
    Reg.PTP_INTV]).params 0 = 1)) ∧ (admitted ({ (cmdRow 529 0 true 0 0 relockModes false) with logs := true } : CmdSpec) (pz
    0 []) idle = true) ∧ (admitted (cmdRow 530 2 false 0 0 fwModes false) (pz 0 []) idle = true) := by
  iterate 14 refine ⟨by decide +kernel, ?_⟩
  decide +kernel
/-- Witness for `NetworkCommandsComplete`. -/
theorem meets_NetworkCommandsComplete :
    (admitted (cmdRow 769 0 false 12 12 fwModes true) (pw [0, rst (Reg.MAC_CFG 0), 0]) idle = true ∧ (((zeroAt (pw [0, rst
    (Reg.MAC_CFG 0), 0]).params 1 3 = true ∧ rsvOk (Reg.MAC_CFG 0) (u32 (pw [0, rst (Reg.MAC_CFG 0), 0]).params 4) = true ∧
    1518 ≤ bitsN (u32 (pw [0, rst (Reg.MAC_CFG 0), 0]).params 4) 13 0 ∧ bitsN (u32 (pw [0, rst (Reg.MAC_CFG 0), 0]).params 4)
    13 0 ≤ 9216 ∧ bitsN (u32 (pw [0, rst (Reg.MAC_CFG 0), 0]).params 8) 15 2 ≠ 8192) ∧ (u8 (pw [0, rst (Reg.MAC_CFG 0),
    0]).params 0 ≤ 1 ∧ bitsN (u32 (pw [0, rst (Reg.MAC_CFG 0), 0]).params 4) 19 18 ≤ 1 ∨ u8 (pw [0, rst (Reg.MAC_CFG 0),
    0]).params 0 = 2 ∧ bitsN (u32 (pw [0, rst (Reg.MAC_CFG 0), 0]).params 4) 19 18 ≤ 2 ∧ ((u32 (pw [0, rst (Reg.MAC_CFG 0),
    0]).params 4).testBit 17 = true → bitsN (u32 (pw [0, rst (Reg.MAC_CFG 0), 0]).params 4) 19 18 ≠ 2) ∧ bitsN (u32 (pw [0,
    rst (Reg.MAC_CFG 0), 0]).params 4) 28 24 < 8)) ∧ ¬(bitsN (u32 (pw [0, rst (Reg.MAC_CFG 0), 0]).params 4) 19 18 ≠
    (idle.begun (cmdRow 769 0 false 12 12 fwModes true) (pw [0, rst (Reg.MAC_CFG 0), 0])).macSpeed (u8 (pw [0, rst
    (Reg.MAC_CFG 0), 0]).params 0) ∨ (if u8 (pw [0, rst (Reg.MAC_CFG 0), 0]).params 0 = 2 then setBitN (u32 (pw [0, rst
    (Reg.MAC_CFG 0), 0]).params 4) 16 false else setBitN (u32 (pw [0, rst (Reg.MAC_CFG 0), 0]).params 4) 17 false).testBit 16
    ≠ (idle.begun (cmdRow 769 0 false 12 12 fwModes true) (pw [0, rst (Reg.MAC_CFG 0), 0])).flag (Reg.MAC_CFG (u8 (pw [0, rst
    (Reg.MAC_CFG 0), 0]).params 0)) Fl.MAC_CFG_FEC))) ∧ (admitted (cmdRow 769 0 false 12 12 fwModes true) (pw [0, setBitN
    (rst (Reg.MAC_CFG 0)) 16 !(rst (Reg.MAC_CFG 0)).testBit 16, 0]) idle = true ∧ (((zeroAt (pw [0, setBitN (rst (Reg.MAC_CFG
    0)) 16 !(rst (Reg.MAC_CFG 0)).testBit 16, 0]).params 1 3 = true ∧ rsvOk (Reg.MAC_CFG 0) (u32 (pw [0, setBitN (rst
    (Reg.MAC_CFG 0)) 16 !(rst (Reg.MAC_CFG 0)).testBit 16, 0]).params 4) = true ∧ 1518 ≤ bitsN (u32 (pw [0, setBitN (rst
    (Reg.MAC_CFG 0)) 16 !(rst (Reg.MAC_CFG 0)).testBit 16, 0]).params 4) 13 0 ∧ bitsN (u32 (pw [0, setBitN (rst (Reg.MAC_CFG
    0)) 16 !(rst (Reg.MAC_CFG 0)).testBit 16, 0]).params 4) 13 0 ≤ 9216 ∧ bitsN (u32 (pw [0, setBitN (rst (Reg.MAC_CFG 0)) 16
    !(rst (Reg.MAC_CFG 0)).testBit 16, 0]).params 8) 15 2 ≠ 8192) ∧ (u8 (pw [0, setBitN (rst (Reg.MAC_CFG 0)) 16 !(rst
    (Reg.MAC_CFG 0)).testBit 16, 0]).params 0 ≤ 1 ∧ bitsN (u32 (pw [0, setBitN (rst (Reg.MAC_CFG 0)) 16 !(rst (Reg.MAC_CFG
    0)).testBit 16, 0]).params 4) 19 18 ≤ 1 ∨ u8 (pw [0, setBitN (rst (Reg.MAC_CFG 0)) 16 !(rst (Reg.MAC_CFG 0)).testBit 16,
    0]).params 0 = 2 ∧ bitsN (u32 (pw [0, setBitN (rst (Reg.MAC_CFG 0)) 16 !(rst (Reg.MAC_CFG 0)).testBit 16, 0]).params 4)
    19 18 ≤ 2 ∧ ((u32 (pw [0, setBitN (rst (Reg.MAC_CFG 0)) 16 !(rst (Reg.MAC_CFG 0)).testBit 16, 0]).params 4).testBit 17 =
    true → bitsN (u32 (pw [0, setBitN (rst (Reg.MAC_CFG 0)) 16 !(rst (Reg.MAC_CFG 0)).testBit 16, 0]).params 4) 19 18 ≠ 2) ∧
    bitsN (u32 (pw [0, setBitN (rst (Reg.MAC_CFG 0)) 16 !(rst (Reg.MAC_CFG 0)).testBit 16, 0]).params 4) 28 24 < 8)) ∧ (bitsN
    (u32 (pw [0, setBitN (rst (Reg.MAC_CFG 0)) 16 !(rst (Reg.MAC_CFG 0)).testBit 16, 0]).params 4) 19 18 ≠ (idle.begun
    (cmdRow 769 0 false 12 12 fwModes true) (pw [0, setBitN (rst (Reg.MAC_CFG 0)) 16 !(rst (Reg.MAC_CFG 0)).testBit 16,
    0])).macSpeed (u8 (pw [0, setBitN (rst (Reg.MAC_CFG 0)) 16 !(rst (Reg.MAC_CFG 0)).testBit 16, 0]).params 0) ∨ (if u8 (pw
    [0, setBitN (rst (Reg.MAC_CFG 0)) 16 !(rst (Reg.MAC_CFG 0)).testBit 16, 0]).params 0 = 2 then setBitN (u32 (pw [0,
    setBitN (rst (Reg.MAC_CFG 0)) 16 !(rst (Reg.MAC_CFG 0)).testBit 16, 0]).params 4) 16 false else setBitN (u32 (pw [0,
    setBitN (rst (Reg.MAC_CFG 0)) 16 !(rst (Reg.MAC_CFG 0)).testBit 16, 0]).params 4) 17 false).testBit 16 ≠ (idle.begun
    (cmdRow 769 0 false 12 12 fwModes true) (pw [0, setBitN (rst (Reg.MAC_CFG 0)) 16 !(rst (Reg.MAC_CFG 0)).testBit 16,
    0])).flag (Reg.MAC_CFG (u8 (pw [0, setBitN (rst (Reg.MAC_CFG 0)) 16 !(rst (Reg.MAC_CFG 0)).testBit 16, 0]).params 0))
    Fl.MAC_CFG_FEC))) ∧ (admitted (cmdRow 770 0 false 28 28 fwModes true) (pz 28 []) idle = true ∧ (u8 (pz 28 []).params 0 ≤
    2 ∧ u8 (pz 28 []).params 1 < macFwRule (u8 (pz 28 []).params 0) ∧ u16 (pz 28 []).params 2 = 0 ∧ (∀ (i : Nat), i < 6 →
    rsvOk (Reg.MAC_RULE_CTL 0 0 + 4 * i) (u32 (pz 28 []).params (4 + 4 * i)) = true) ∧ bitsN (u32 (pz 28 []).params 4) 4 0 <
    macRxQueues (u8 (pz 28 []).params 0))) ∧ (admitted (cmdRow 771 0 false 4 4 fwModes true) (pz 4 []) idle = true ∧ (u8 (pz
    4 []).params 0 < 8 ∧ zeroAt (pz 4 []).params 1 3 = true)) ∧ (admitted (cmdRow 772 0 false 8 8 fwModes true) (pz 8 [])
    idle = true ∧ (u8 (pz 8 []).params 0 ≤ 2 ∧ u8 (pz 8 []).params 1 < macTxQueues (u8 (pz 8 []).params 0) ∧ u16 (pz 8
    []).params 2 = 0 ∧ u32 (pz 8 []).params 4 % 2 ^ 28 = 0)) ∧ (admitted (cmdRow 773 2 false 4 4 fwModes false) (pz 4 [])
    idle = true ∧ (u8 (pz 4 []).params 0 ≤ 2 ∧ zeroAt (pz 4 []).params 1 3 = true)) ∧ (admitted (cmdRow 774 2 false 4 4
    fwModes false) (pz 4 []) idle = true ∧ (u8 (pz 4 []).params 0 ≤ 2 ∧ zeroAt (pz 4 []).params 1 3 = true)) ∧ (admitted
    (cmdRow 775 0 false 8 8 fwModes true) (pw [2, 2415919104]) idle = true ∧ (u8 (pw [2, 2415919104]).params 0 = 2 ∧ zeroAt
    (pw [2, 2415919104]).params 1 3 = true ∧ rsvOk (Reg.MAC_MDIO 2) (u32 (pw [2, 2415919104]).params 4) = true ∧ (u32 (pw [2,
    2415919104]).params 4).testBit 31 = true ∧ ((u32 (pw [2, 2415919104]).params 4).testBit 30 = true → bitsN (u32 (pw [2,
    2415919104]).params 4) 29 28 ≠ 2) ∧ ((u32 (pw [2, 2415919104]).params 4).testBit 30 = false → bitsN (u32 (pw [2,
    2415919104]).params 4) 29 28 = 1 ∨ bitsN (u32 (pw [2, 2415919104]).params 4) 29 28 = 2))) := by
  iterate 7 refine ⟨by decide +kernel, ?_⟩
  decide +kernel
/-- Witness for `StreamCommandsComplete`. -/
theorem meets_StreamCommandsComplete :
    (admitted (cmdRow 784 0 true 84 84 fwModes true) (rxP.withOp 2 0) idle = true ∧ (u8 (rxP.withOp 2 0).params 2 = 0 ∧ u16
    (rxP.withOp 2 0).params 0 < 256 ∧ (idle.begun (cmdRow 784 0 true 84 84 fwModes true) (rxP.withOp 2 0)).rxOk (u16
    (rxP.withOp 2 0).params 0) (rxP.withOp 2 0).params = true ∧ ((idle.begun (cmdRow 784 0 true 84 84 fwModes true)
    (rxP.withOp 2 0)).rxUse (u16 (rxP.withOp 2 0).params 0)).fst + 1 ≤ (idle.begun (cmdRow 784 0 true 84 84 fwModes true)
    (rxP.withOp 2 0)).limit 5 ∧ ((idle.begun (cmdRow 784 0 true 84 84 fwModes true) (rxP.withOp 2 0)).rxUse (u16 (rxP.withOp
    2 0).params 0)).snd + (rxCfgOf (rxP.withOp 2 0).params).chans ≤ (idle.begun (cmdRow 784 0 true 84 84 fwModes true)
    (rxP.withOp 2 0)).limit 7)) ∧ (admitted (cmdRow 784 0 true 84 84 fwModes true) ((pz 84 [(2, 1)]).withOp 2 1) withRx =
    true ∧ (u8 ((pz 84 [(2, 1)]).withOp 2 1).params 2 = 1 ∧ u16 ((pz 84 [(2, 1)]).withOp 2 1).params 0 < 256 ∧ Tab.look
    (withRx.begun (cmdRow 784 0 true 84 84 fwModes true) ((pz 84 [(2, 1)]).withOp 2 1)).strm.rx (u16 ((pz 84 [(2, 1)]).withOp
    2 1).params 0) = some rxs ∧ rxs.gone = none)) ∧ (admitted (cmdRow 784 0 true 84 84 fwModes true) ((pz 84 []).withOp 2 1)
    idle = true ∧ (u8 ((pz 84 []).withOp 2 1).params 2 = 1 ∧ u16 ((pz 84 []).withOp 2 1).params 0 < 256 ∧ ∀ (x : RxStream),
    Tab.look (idle.begun (cmdRow 784 0 true 84 84 fwModes true) ((pz 84 []).withOp 2 1)).strm.rx (u16 ((pz 84 []).withOp 2
    1).params 0) = some x → x.gone.isSome = true)) ∧ (admitted (cmdRow 785 0 true 64 64 fwModes true) (txP.withOp 2 0) idle =
    true ∧ (u8 (txP.withOp 2 0).params 2 = 0 ∧ u16 (txP.withOp 2 0).params 0 < 256 ∧ (idle.begun (cmdRow 785 0 true 64 64
    fwModes true) (txP.withOp 2 0)).txOk (txP.withOp 2 0).params = true ∧ ((idle.begun (cmdRow 785 0 true 64 64 fwModes true)
    (txP.withOp 2 0)).txUse (u16 (txP.withOp 2 0).params 0)).fst + 1 ≤ (idle.begun (cmdRow 785 0 true 64 64 fwModes true)
    (txP.withOp 2 0)).limit 6 ∧ ((idle.begun (cmdRow 785 0 true 64 64 fwModes true) (txP.withOp 2 0)).txUse (u16 (txP.withOp
    2 0).params 0)).snd + (txCfgOf (txP.withOp 2 0).params).chans ≤ (idle.begun (cmdRow 785 0 true 64 64 fwModes true)
    (txP.withOp 2 0)).limit 8)) ∧ (admitted (cmdRow 785 0 true 64 64 fwModes true) ((pz 64 []).withOp 2 1) withTx = true ∧
    (u8 ((pz 64 []).withOp 2 1).params 2 = 1 ∧ u16 ((pz 64 []).withOp 2 1).params 0 < 256 ∧ (Tab.at (withTx.begun (cmdRow 785
    0 true 64 64 fwModes true) ((pz 64 []).withOp 2 1)).strm.tx { cfgs := [], queued := 0, nores := 0 } (u16 ((pz 64
    []).withOp 2 1).params 0)).now.isSome = true)) ∧ (admitted (cmdRow 785 0 true 64 64 fwModes true) ((pz 64 []).withOp 2 1)
    idle = true ∧ (u8 ((pz 64 []).withOp 2 1).params 2 = 1 ∧ u16 ((pz 64 []).withOp 2 1).params 0 < 256 ∧ (Tab.at (idle.begun
    (cmdRow 785 0 true 64 64 fwModes true) ((pz 64 []).withOp 2 1)).strm.tx { cfgs := [], queued := 0, nores := 0 } (u16 ((pz
    64 []).withOp 2 1).params 0)).now.isSome = false)) ∧ (admitted (cmdRow 786 2 false 4 4 fwModes false) (pz 4 []) withRx =
    true ∧ (u16 (pz 4 []).params 2 = 0 ∧ Tab.look (withRx.begun (cmdRow 786 2 false 4 4 fwModes false) (pz 4 [])).strm.rx
    (u16 (pz 4 []).params 0) = some rxs ∧ rxs.gone = none)) ∧ (admitted (cmdRow 787 2 false 4 4 fwModes false) (pz 4 [])
    withTx = true ∧ (u16 (pz 4 []).params 2 = 0 ∧ (Tab.at (withTx.begun (cmdRow 787 2 false 4 4 fwModes false) (pz 4
    [])).strm.tx { cfgs := [], queued := 0, nores := 0 } (u16 (pz 4 []).params 0)).now.isSome = true)) := by
  iterate 7 refine ⟨by decide +kernel, ?_⟩
  decide +kernel
/-- Witness for `ObjectCommandsComplete`. -/
theorem meets_ObjectCommandsComplete :
    (admitted (cmdRow 1026 0 true 8 8 fwModes true) (pz 8 [(2, 1)]) idle = true ∧ ((u16 (pz 8 [(2, 1)]).params 0 ≤ 1023 ∧ 1 ≤
    u8 (pz 8 [(2, 1)]).params 2 ∧ u8 (pz 8 [(2, 1)]).params 2 ≤ 64 ∧ u8 (pz 8 [(2, 1)]).params 3 ≤ 4 ∧ zeroAt (pz 8 [(2,
    1)]).params 4 4 = true ∧ (List.map (fun o => o.snd.quota) (List.filter (fun o => o.fst != u16 (pz 8 [(2, 1)]).params 0)
    (idle.begun (cmdRow 1026 0 true 8 8 fwModes true) (pz 8 [(2, 1)])).oms.slots)).sum + u8 (pz 8 [(2, 1)]).params 2 ≤
    (idle.begun (cmdRow 1026 0 true 8 8 fwModes true) (pz 8 [(2, 1)])).limit 2 ∧ (List.map (fun o => classLen o.snd.cls)
    (List.filter (fun o => o.fst != u16 (pz 8 [(2, 1)]).params 0) (idle.begun (cmdRow 1026 0 true 8 8 fwModes true) (pz 8
    [(2, 1)])).oms.slots)).sum + classLen (u8 (pz 8 [(2, 1)]).params 3) ≤ (idle.begun (cmdRow 1026 0 true 8 8 fwModes true)
    (pz 8 [(2, 1)])).limit 3) ∧ (idle.begun (cmdRow 1026 0 true 8 8 fwModes true) (pz 8 [(2, 1)])).slotAt (u16 (pz 8 [(2,
    1)]).params 0) = none ∧ (List.filter (fun o => o.fst != u16 (pz 8 [(2, 1)]).params 0) (idle.begun (cmdRow 1026 0 true 8 8
    fwModes true) (pz 8 [(2, 1)])).oms.slots).length + 1 ≤ (idle.begun (cmdRow 1026 0 true 8 8 fwModes true) (pz 8 [(2,
    1)])).limit 0)) ∧ (admitted (cmdRow 1026 0 true 8 8 fwModes true) (pz 8 [(2, 1)]) withSlot = true ∧ ((u16 (pz 8 [(2,
    1)]).params 0 ≤ 1023 ∧ 1 ≤ u8 (pz 8 [(2, 1)]).params 2 ∧ u8 (pz 8 [(2, 1)]).params 2 ≤ 64 ∧ u8 (pz 8 [(2, 1)]).params 3 ≤
    4 ∧ zeroAt (pz 8 [(2, 1)]).params 4 4 = true ∧ (List.map (fun o => o.snd.quota) (List.filter (fun o => o.fst != u16 (pz 8
    [(2, 1)]).params 0) (withSlot.begun (cmdRow 1026 0 true 8 8 fwModes true) (pz 8 [(2, 1)])).oms.slots)).sum + u8 (pz 8
    [(2, 1)]).params 2 ≤ (withSlot.begun (cmdRow 1026 0 true 8 8 fwModes true) (pz 8 [(2, 1)])).limit 2 ∧ (List.map (fun o =>
    classLen o.snd.cls) (List.filter (fun o => o.fst != u16 (pz 8 [(2, 1)]).params 0) (withSlot.begun (cmdRow 1026 0 true 8 8
    fwModes true) (pz 8 [(2, 1)])).oms.slots)).sum + classLen (u8 (pz 8 [(2, 1)]).params 3) ≤ (withSlot.begun (cmdRow 1026 0
    true 8 8 fwModes true) (pz 8 [(2, 1)])).limit 3) ∧ (withSlot.begun (cmdRow 1026 0 true 8 8 fwModes true) (pz 8 [(2,
    1)])).slotAt (u16 (pz 8 [(2, 1)]).params 0) = some slot0 ∧ slot0.cls = u8 (pz 8 [(2, 1)]).params 3)) ∧ (admitted (cmdRow
    1026 0 true 8 8 fwModes true) (pz 8 [(2, 1), (3, 1)]) withSlot = true ∧ ((u16 (pz 8 [(2, 1), (3, 1)]).params 0 ≤ 1023 ∧ 1
    ≤ u8 (pz 8 [(2, 1), (3, 1)]).params 2 ∧ u8 (pz 8 [(2, 1), (3, 1)]).params 2 ≤ 64 ∧ u8 (pz 8 [(2, 1), (3, 1)]).params 3 ≤
    4 ∧ zeroAt (pz 8 [(2, 1), (3, 1)]).params 4 4 = true ∧ (List.map (fun o => o.snd.quota) (List.filter (fun o => o.fst !=
    u16 (pz 8 [(2, 1), (3, 1)]).params 0) (withSlot.begun (cmdRow 1026 0 true 8 8 fwModes true) (pz 8 [(2, 1), (3,
    1)])).oms.slots)).sum + u8 (pz 8 [(2, 1), (3, 1)]).params 2 ≤ (withSlot.begun (cmdRow 1026 0 true 8 8 fwModes true) (pz 8
    [(2, 1), (3, 1)])).limit 2 ∧ (List.map (fun o => classLen o.snd.cls) (List.filter (fun o => o.fst != u16 (pz 8 [(2, 1),
    (3, 1)]).params 0) (withSlot.begun (cmdRow 1026 0 true 8 8 fwModes true) (pz 8 [(2, 1), (3, 1)])).oms.slots)).sum +
    classLen (u8 (pz 8 [(2, 1), (3, 1)]).params 3) ≤ (withSlot.begun (cmdRow 1026 0 true 8 8 fwModes true) (pz 8 [(2, 1), (3,
    1)])).limit 3) ∧ (withSlot.begun (cmdRow 1026 0 true 8 8 fwModes true) (pz 8 [(2, 1), (3, 1)])).slotAt (u16 (pz 8 [(2,
    1), (3, 1)]).params 0) = some slot0 ∧ slot0.cls ≠ u8 (pz 8 [(2, 1), (3, 1)]).params 3 ∧ slot0.state = 0)) ∧ (admitted
    (cmdRow 1027 0 true 4 4 fwModes true) (pz 4 []) withSlot = true ∧ (zeroAt (pz 4 []).params 2 2 = true ∧ (withSlot.begun
    (cmdRow 1027 0 true 4 4 fwModes true) (pz 4 [])).slotAt (u16 (pz 4 []).params 0) = some slot0 ∧ slot0.state = 0)) ∧
    (admitted ({ (cmdRow 1028 1 true 30 30 fwModes true) with journ := false } : CmdSpec) (pz 30 []) withSlot = true ∧
    ((withSlot.begun ({ (cmdRow 1028 1 true 30 30 fwModes true) with journ := false } : CmdSpec) (pz 30 [])).slotAt (u16 (pz
    30 []).params 0) = some slot0 ∧ decodeBinding (slice (pz 30 []).params 2 28) = some bind0)) ∧ (admitted (cmdRow 1029 2
    false 2 2 fwModes false) (pz 2 []) withSlot = true ∧ (withSlot.begun (cmdRow 1029 2 false 2 2 fwModes false) (pz 2
    [])).slotAt (u16 (pz 2 []).params 0) = some slot0) ∧ (admitted (cmdRow 1031 0 true 12 12 fwModes true) (pz 12 []) idle =
    true ∧ (rsvOk Reg.OMS_CFG (u32 (pz 12 []).params 0) = true ∧ rsvOk Reg.OMS_VEL (u32 (pz 12 []).params 4) = true)) ∧
    (admitted (cmdRow 1287 2 false 2 2 fwModes false) (pz 2 []) withSlot = true ∧ (withSlot.begun (cmdRow 1287 2 false 2 2
    fwModes false) (pz 2 [])).slotAt (u16 (pz 2 []).params 0) = some slot0) := by
  iterate 7 refine ⟨by decide +kernel, ?_⟩
  decide +kernel
/-- Witness for `GeometryCommandsComplete`. -/
theorem meets_GeometryCommandsComplete :
    (admitted (cmdRow 1032 2 false 0 0 fwModes false) (pz 0 []) idle = true) ∧ (admitted (cmdRow 1281 0 true 32 32 fwModes
    true) (pw (List.map rst geoCfgRegs)) idle = true ∧ ((∀ (x : Nat × Nat), x ∈ geoCfgRegs.zipIdx → rsvOk x.fst (u32 (pw
    (List.map rst geoCfgRegs)).params (4 * x.snd)) = true) ∧ (geoCfgOk fun i => u32 (pw (List.map rst geoCfgRegs)).params (4
    * i)) = true)) ∧ (admitted (cmdRow 1282 1 true 4 4 fwModes true) (pz 4 []) idle = true ∧ (inRange (i16 (pz 4 []).params
    0) (-2000) 5000 = true ∧ zeroAt (pz 4 []).params 2 2 = true)) ∧ (admitted (cmdRow 1283 1 true 4 4 fwModes true) ((pz 4
    []).withOp 2 0) withSpeaker = true ∧ (u16 ((pz 4 []).withOp 2 0).params 0 < (withSpeaker.begun (cmdRow 1283 1 true 4 4
    fwModes true) ((pz 4 []).withOp 2 0)).speakers ∧ u8 ((pz 4 []).withOp 2 0).params 2 = 0 ∧ u8 ((pz 4 []).withOp 2
    0).params 3 = 0)) ∧ (admitted (cmdRow 1283 1 true 4 4 fwModes true) ((pz 4 []).withOp 2 1) withSpeaker = true ∧ (u16 ((pz
    4 []).withOp 2 1).params 0 < (withSpeaker.begun (cmdRow 1283 1 true 4 4 fwModes true) ((pz 4 []).withOp 2 1)).speakers ∧
    u8 ((pz 4 []).withOp 2 1).params 2 = 1 ∧ u8 ((pz 4 []).withOp 2 1).params 3 = 0)) ∧ (admitted (cmdRow 1284 2 false 2 2
    fwModes false) (pz 2 []) idle = true ∧ (u16 (pz 2 []).params 0 ≤ 1023 ∧ u16 (pz 2 []).params 0 < (idle.begun (cmdRow 1284
    2 false 2 2 fwModes false) (pz 2 [])).limit 0)) ∧ (admitted (cmdRow 1286 2 false 48 48 fwModes false) evalP withSlot =
    true ∧ ((withSlot.begun (cmdRow 1286 2 false 48 48 fwModes false) evalP).slotAt (u16 evalP.params 0) = some slot0 ∧
    decodeAttrBody evalP.params 24 = some attr0 ∧ u16 evalP.params 0 < (withSlot.begun (cmdRow 1286 2 false 48 48 fwModes
    false) evalP).limit 0 ∧ u16 evalP.params 2 = 0 ∧ (xyz evalP.params 4).within 10000000 = true ∧ levelOk (i16 evalP.params
    16) 600 = true ∧ u16 evalP.params 18 ≤ 18000 ∧ u32 evalP.params 20 ≤ 1000000 ∧ zeroAt evalP.params 40 8 = true)) ∧
    (admitted (cmdRow 1537 0 true 4 4 fwModes true) (pz 4 [(1, 1)]) idle = true ∧ rsvOk Reg.FAB_CFG (u32 (pz 4 [(1,
    1)]).params (4 * 0)) = true) ∧ (admitted (cmdRow 1538 2 false 2 2 fwModes false) (pz 2 []) withSlot = true ∧
    (withSlot.begun (cmdRow 1538 2 false 2 2 fwModes false) (pz 2 [])).slotAt (u16 (pz 2 []).params 0) = some slot0) ∧
    (admitted (cmdRow 1540 2 false 2 2 fwModes false) (pz 2 []) idle = true ∧ (u8 (pz 2 []).params 0 + if u8 (pz 2 []).params
    1 = 0 then 256 else u8 (pz 2 []).params 1) ≤ 256) := by
  iterate 9 refine ⟨by decide +kernel, ?_⟩
  decide +kernel
/-- Witness for `OutputCommandsComplete`. -/
theorem meets_OutputCommandsComplete :
    (admitted (cmdRow 1793 0 true 16 16 fwModes true) ((pz 16 []).withOp 2 0) idle = true ∧ ((u8 ((pz 16 []).withOp 2
    0).params 2 = 0 ∧ u8 ((pz 16 []).withOp 2 0).params 3 = 0 ∧ zeroAt ((pz 16 []).withOp 2 0).params 12 4 = true ∧ u16 ((pz
    16 []).withOp 2 0).params 0 < 512 ∧ rsvOk (Reg.OUT_CFG 0) (setBitsN (u32 ((pz 16 []).withOp 2 0).params 4) 31 30 0) =
    true ∧ destOk (u32 ((pz 16 []).withOp 2 0).params 8) = true) ∧ (idle.begun (cmdRow 1793 0 true 16 16 fwModes true) ((pz
    16 []).withOp 2 0)).destFree (u16 ((pz 16 []).withOp 2 0).params 0) (u32 ((pz 16 []).withOp 2 0).params 8) = true ∧
    (idle.begun (cmdRow 1793 0 true 16 16 fwModes true) ((pz 16 []).withOp 2 0)).live.outConf (u16 ((pz 16 []).withOp 2
    0).params 0) = false ∧ (idle.begun (cmdRow 1793 0 true 16 16 fwModes true) ((pz 16 []).withOp 2 0)).outputs.length + 1 ≤
    (idle.begun (cmdRow 1793 0 true 16 16 fwModes true) ((pz 16 []).withOp 2 0)).limit 1)) ∧ (admitted (cmdRow 1793 0 true 16
    16 fwModes true) ((pz 16 []).withOp 2 0) withOut = true ∧ ((u8 ((pz 16 []).withOp 2 0).params 2 = 0 ∧ u8 ((pz 16
    []).withOp 2 0).params 3 = 0 ∧ zeroAt ((pz 16 []).withOp 2 0).params 12 4 = true ∧ u16 ((pz 16 []).withOp 2 0).params 0 <
    512 ∧ rsvOk (Reg.OUT_CFG 0) (setBitsN (u32 ((pz 16 []).withOp 2 0).params 4) 31 30 0) = true ∧ destOk (u32 ((pz 16
    []).withOp 2 0).params 8) = true) ∧ (withOut.begun (cmdRow 1793 0 true 16 16 fwModes true) ((pz 16 []).withOp 2
    0)).destFree (u16 ((pz 16 []).withOp 2 0).params 0) (u32 ((pz 16 []).withOp 2 0).params 8) = true ∧ (withOut.begun
    (cmdRow 1793 0 true 16 16 fwModes true) ((pz 16 []).withOp 2 0)).live.outConf (u16 ((pz 16 []).withOp 2 0).params 0) =
    true)) ∧ (admitted (cmdRow 1793 0 true 16 16 fwModes true) ((pz 16 []).withOp 2 1) withOut = true ∧ ((u8 ((pz 16
    []).withOp 2 1).params 2 = 1 ∧ u8 ((pz 16 []).withOp 2 1).params 3 = 0 ∧ zeroAt ((pz 16 []).withOp 2 1).params 12 4 =
    true ∧ u16 ((pz 16 []).withOp 2 1).params 0 < 512 ∧ rsvOk (Reg.OUT_CFG 0) (setBitsN (u32 ((pz 16 []).withOp 2 1).params
    4) 31 30 0) = true ∧ destOk (u32 ((pz 16 []).withOp 2 1).params 8) = true) ∧ (withOut.begun (cmdRow 1793 0 true 16 16
    fwModes true) ((pz 16 []).withOp 2 1)).live.outConf (u16 ((pz 16 []).withOp 2 1).params 0) = true)) ∧ (admitted (cmdRow
    1793 0 true 16 16 fwModes true) ((pz 16 []).withOp 2 1) idle = true ∧ ((u8 ((pz 16 []).withOp 2 1).params 2 = 1 ∧ u8 ((pz
    16 []).withOp 2 1).params 3 = 0 ∧ zeroAt ((pz 16 []).withOp 2 1).params 12 4 = true ∧ u16 ((pz 16 []).withOp 2 1).params
    0 < 512 ∧ rsvOk (Reg.OUT_CFG 0) (setBitsN (u32 ((pz 16 []).withOp 2 1).params 4) 31 30 0) = true ∧ destOk (u32 ((pz 16
    []).withOp 2 1).params 8) = true) ∧ (idle.begun (cmdRow 1793 0 true 16 16 fwModes true) ((pz 16 []).withOp 2
    1)).live.outConf (u16 ((pz 16 []).withOp 2 1).params 0) = false)) ∧ (admitted (cmdRow 1794 1 true 8 8 fwModes true) (pz 8
    [(2, 1)]) idle = true ∧ (rangeOk (pz 8 [(2, 1)]).params = true ∧ gainOk (i16 (pz 8 [(2, 1)]).params 4) = true ∧ gainOk
    (i16 (pz 8 [(2, 1)]).params 6) = true)) ∧ (admitted (cmdRow 1795 1 true 8 8 fwModes true) (pz 8 [(2, 1)]) idle = true ∧
    (rangeOk (pz 8 [(2, 1)]).params = true ∧ u16 (pz 8 [(2, 1)]).params 4 ≤ 8192 ∧ u16 (pz 8 [(2, 1)]).params 6 = 0)) ∧
    (admitted (cmdRow 1796 1 true 4 8200 fwModes true) (pw ([16777216, 1] ++ List.replicate 11 0)) withOut = true ∧ ((pw
    ([16777216, 1] ++ List.replicate 11 0)).params.length = 4 + 48 * u8 (pw ([16777216, 1] ++ List.replicate 11 0)).params 3
    ∧ u16 (pw ([16777216, 1] ++ List.replicate 11 0)).params 0 < 512 ∧ 1 ≤ u8 (pw ([16777216, 1] ++ List.replicate 11
    0)).params 3 ∧ u8 (pw ([16777216, 1] ++ List.replicate 11 0)).params 2 + u8 (pw ([16777216, 1] ++ List.replicate 11
    0)).params 3 ≤ 20 ∧ (withOut.begun (cmdRow 1796 1 true 4 8200 fwModes true) (pw ([16777216, 1] ++ List.replicate 11
    0))).live.outConf (u16 (pw ([16777216, 1] ++ List.replicate 11 0)).params 0) = true ∧ (∀ (i : Nat), i < u8 (pw
    ([16777216, 1] ++ List.replicate 11 0)).params 3 → eqRecOk (pw ([16777216, 1] ++ List.replicate 11 0)).params (4 + 48 *
    i) = true) ∧ ((withOut.begun (cmdRow 1796 1 true 4 8200 fwModes true) (pw ([16777216, 1] ++ List.replicate 11
    0))).autotrim (u16 (pw ([16777216, 1] ++ List.replicate 11 0)).params 0) = true → u8 (pw ([16777216, 1] ++ List.replicate
    11 0)).params 2 + u8 (pw ([16777216, 1] ++ List.replicate 11 0)).params 3 ≤ 16))) ∧ (admitted (cmdRow 1797 0 true 8 8
    fwModes true) (pz 8 [(2, 1), (6, 1)]) idle = true ∧ (rangeOk (pz 8 [(2, 1), (6, 1)]).params = true ∧ inRange (i16 (pz 8
    [(2, 1), (6, 1)]).params 4) (-4000) 2400 = true ∧ 1 ≤ u16 (pz 8 [(2, 1), (6, 1)]).params 6 ∧ u16 (pz 8 [(2, 1), (6,
    1)]).params 6 ≤ 5000)) ∧ (admitted (cmdRow 1798 0 true 4 4 fwModes true) (pz 4 [(1, 40)]) idle = true ∧ (u8 (pz 4 [(1,
    40)]).params 0 < 32 ∧ 40 ≤ u8 (pz 4 [(1, 40)]).params 1 ∧ u8 (pz 4 [(1, 40)]).params 1 ≤ 200 ∧ (i16 (pz 4 [(1,
    40)]).params 2 = -32768 ∨ inRange (i16 (pz 4 [(1, 40)]).params 2) (-2400) 1200 = true))) ∧ (admitted (cmdRow 1799 0 true
    8 8 fwModes true) (pk [0, 0, 1, 0, 96, 240, 1, 0]) idle = true ∧ (rangeOk (pk [0, 0, 1, 0, 96, 240, 1, 0]).params = true
    ∧ inRange (i16 (pk [0, 0, 1, 0, 96, 240, 1, 0]).params 4) (-10000) (-4000) = true ∧ bitsN (u16 (pk [0, 0, 1, 0, 96, 240,
    1, 0]).params 6) 14 10 = 0 ∧ 1 ≤ bitsN (u16 (pk [0, 0, 1, 0, 96, 240, 1, 0]).params 6) 9 0 ∧ bitsN (u16 (pk [0, 0, 1, 0,
    96, 240, 1, 0]).params 6) 9 0 ≤ 600)) ∧ (admitted (cmdRow 1800 1 true 4 4 fwModes true) (pz 4 []) idle = true ∧ (∀ (k :
    Nat), k < 16 → u32 (pz 4 []).params 0 / 4 ^ k % 4 ≠ 3)) ∧ (admitted (cmdRow 1801 2 false 2 2 fwModes false) (pz 2 [])
    idle = true ∧ u16 (pz 2 []).params 0 < 512) ∧ (admitted (cmdRow 1802 2 false 2 2 fwModes false) (pz 2 []) idle = true ∧
    u16 (pz 2 []).params 0 < 512) := by
  iterate 12 refine ⟨by decide +kernel, ?_⟩
  decide +kernel
/-- Witness for `CorrectionCommandsComplete`. -/
theorem meets_CorrectionCommandsComplete :
    (admitted (cmdRow 2050 1 true 4 4 firModes true) (pz 4 [(2, 1)]) idle = true ∧ (rangeOk (pz 4 [(2, 1)]).params = true ∧
    (idle.begun (cmdRow 2050 1 true 4 4 firModes true) (pz 4 [(2, 1)])).commitOuts (pz 4 [(2, 1)]).params = [])) ∧ (admitted
    (cmdRow 2050 1 true 4 4 firModes true) (pz 4 [(2, 1)]) withFir = true ∧ (rangeOk (pz 4 [(2, 1)]).params = true ∧
    (withFir.begun (cmdRow 2050 1 true 4 4 firModes true) (pz 4 [(2, 1)])).commitOuts (pz 4 [(2, 1)]).params ≠ [] ∧
    ¬((withFir.begun (cmdRow 2050 1 true 4 4 firModes true) (pz 4 [(2, 1)])).actMode = mRENDER ∨ (withFir.begun (cmdRow 2050
    1 true 4 4 firModes true) (pz 4 [(2, 1)])).actMode = mMEASURE))) ∧ (admitted (cmdRow 2050 1 true 4 4 firModes true) (pz 4
    [(2, 1)]) (withFir.setFld Reg.SYS_MODE Fl.SYS_MODE_MODE mRENDER) = true ∧ (rangeOk (pz 4 [(2, 1)]).params = true ∧
    ((withFir.setFld Reg.SYS_MODE Fl.SYS_MODE_MODE mRENDER).begun (cmdRow 2050 1 true 4 4 firModes true) (pz 4 [(2,
    1)])).commitOuts (pz 4 [(2, 1)]).params ≠ [] ∧ (((withFir.setFld Reg.SYS_MODE Fl.SYS_MODE_MODE mRENDER).begun (cmdRow
    2050 1 true 4 4 firModes true) (pz 4 [(2, 1)])).actMode = mRENDER ∨ ((withFir.setFld Reg.SYS_MODE Fl.SYS_MODE_MODE
    mRENDER).begun (cmdRow 2050 1 true 4 4 firModes true) (pz 4 [(2, 1)])).actMode = mMEASURE))) ∧ (admitted (cmdRow 2051 0
    true 8 8 firModes true) ((pz 8 [(2, 1)]).withOp 4 1) idle = true ∧ ((rangeOk ((pz 8 [(2, 1)]).withOp 4 1).params = true ∧
    u8 ((pz 8 [(2, 1)]).withOp 4 1).params 4 = 1 ∧ zeroAt ((pz 8 [(2, 1)]).withOp 4 1).params 5 3 = true) ∧ (List.foldl (fun
    u o => if (u.firOf o).long = true then u else if true = true then (u.setFir o
    { long := true, longFrom := (u.slot + 1) * u.folioLen, a := (u.firOf o).a, b := (u.firOf o).b, actB := (u.firOf o).actB, dips := (u.firOf o).dips }).reserve
    (ownLong o) longBytes else (u.setFir o
    { long := true, longFrom := (u.slot + 1) * u.folioLen, a := (u.firOf o).a, b := (u.firOf o).b, actB := (u.firOf o).actB, dips := (u.firOf o).dips }).unreserve
    (ownLong o)) (idle.begun (cmdRow 2051 0 true 8 8 firModes true) ((pz 8 [(2, 1)]).withOp 4 1)) (List.filter (idle.begun
    (cmdRow 2051 0 true 8 8 firModes true) ((pz 8 [(2, 1)]).withOp 4 1)).live.outConf (List.map (fun x => x + u16 ((pz 8 [(2,
    1)]).withOp 4 1).params 0) (List.range (u16 ((pz 8 [(2, 1)]).withOp 4 1).params 2))))).longCount ≤ (idle.begun (cmdRow
    2051 0 true 8 8 firModes true) ((pz 8 [(2, 1)]).withOp 4 1)).limit 4)) ∧ (admitted (cmdRow 2051 0 true 8 8 firModes true)
    ((pz 8 [(2, 1)]).withOp 4 0) idle = true ∧ ((rangeOk ((pz 8 [(2, 1)]).withOp 4 0).params = true ∧ u8 ((pz 8 [(2,
    1)]).withOp 4 0).params 4 = 0 ∧ zeroAt ((pz 8 [(2, 1)]).withOp 4 0).params 5 3 = true) ∧ (List.foldl (fun u o => if
    (u.firOf o).long = false then u else if false = true then (u.setFir o
    { long := false, longFrom := (u.slot + 1) * u.folioLen, a := (u.firOf o).a, b := (u.firOf o).b, actB := (u.firOf o).actB, dips := (u.firOf o).dips }).reserve
    (ownLong o) longBytes else (u.setFir o
    { long := false, longFrom := (u.slot + 1) * u.folioLen, a := (u.firOf o).a, b := (u.firOf o).b, actB := (u.firOf o).actB, dips := (u.firOf o).dips }).unreserve
    (ownLong o)) (idle.begun (cmdRow 2051 0 true 8 8 firModes true) ((pz 8 [(2, 1)]).withOp 4 0)) (List.filter (idle.begun
    (cmdRow 2051 0 true 8 8 firModes true) ((pz 8 [(2, 1)]).withOp 4 0)).live.outConf (List.map (fun x => x + u16 ((pz 8 [(2,
    1)]).withOp 4 0).params 0) (List.range (u16 ((pz 8 [(2, 1)]).withOp 4 0).params 2))))).longCount ≤ (idle.begun (cmdRow
    2051 0 true 8 8 firModes true) ((pz 8 [(2, 1)]).withOp 4 0)).limit 4 ∧ ∀ (o : Nat), o ∈ List.filter (idle.begun (cmdRow
    2051 0 true 8 8 firModes true) ((pz 8 [(2, 1)]).withOp 4 0)).live.outConf (List.map (fun x => x + u16 ((pz 8 [(2,
    1)]).withOp 4 0).params 0) (List.range (u16 ((pz 8 [(2, 1)]).withOp 4 0).params 2))) → (∀ (x : FirSet), ((idle.begun
    (cmdRow 2051 0 true 8 8 firModes true) ((pz 8 [(2, 1)]).withOp 4 0)).firOf o).a = some x → x.taps.length ≤ 16384) ∧ ∀ (x
    : FirSet), ((idle.begun (cmdRow 2051 0 true 8 8 firModes true) ((pz 8 [(2, 1)]).withOp 4 0)).firOf o).b = some x →
    x.taps.length ≤ 16384)) ∧ (admitted (cmdRow 2052 0 true 4 4 firModes true) (pz 4 [(2, 1)]) idle = true ∧ rangeOk (pz 4
    [(2, 1)]).params = true) ∧ (admitted (cmdRow 2053 2 false 2 2 fwModes false) (pz 2 []) idle = true ∧ (u16 (pz 2
    []).params 0 < 512 ∧ (idle.begun (cmdRow 2053 2 false 2 2 fwModes false) (pz 2 [])).live.outConf (u16 (pz 2 []).params 0)
    = false)) ∧ (admitted (cmdRow 2053 2 false 2 2 fwModes false) (pz 2 []) withOut = true ∧ (u16 (pz 2 []).params 0 < 512 ∧
    (withOut.begun (cmdRow 2053 2 false 2 2 fwModes false) (pz 2 [])).live.outConf (u16 (pz 2 []).params 0) = true)) ∧
    (admitted (cmdRow 2055 2 false 12 12 fwModes false) (pz 12 []) idle = true ∧ ((u16 (pz 12 []).params 0 < 512 ∧ u8 (pz 12
    []).params 2 ≤ 1 ∧ u8 (pz 12 []).params 3 = 0 ∧ u64 (pz 12 []).params 4 % 64 = 0) ∧ (if (idle.begun (cmdRow 2055 2 false
    12 12 fwModes false) (pz 12 [])).live.outConf (u16 (pz 12 []).params 0) = true then if u8 (pz 12 []).params 2 = 0 then
    ((idle.begun (cmdRow 2055 2 false 12 12 fwModes false) (pz 12 [])).firOf (u16 (pz 12 []).params 0)).active else
    ((idle.begun (cmdRow 2055 2 false 12 12 fwModes false) (pz 12 [])).firOf (u16 (pz 12 []).params 0)).staged else none) =
    none)) ∧ (admitted (cmdRow 2055 2 false 12 12 fwModes false) (pz 12 [(8, 16)]) withFir = true ∧ ((u16 (pz 12 [(8,
    16)]).params 0 < 512 ∧ u8 (pz 12 [(8, 16)]).params 2 ≤ 1 ∧ u8 (pz 12 [(8, 16)]).params 3 = 0 ∧ u64 (pz 12 [(8,
    16)]).params 4 % 64 = 0) ∧ (if (withFir.begun (cmdRow 2055 2 false 12 12 fwModes false) (pz 12 [(8, 16)])).live.outConf
    (u16 (pz 12 [(8, 16)]).params 0) = true then if u8 (pz 12 [(8, 16)]).params 2 = 0 then ((withFir.begun (cmdRow 2055 2
    false 12 12 fwModes false) (pz 12 [(8, 16)])).firOf (u16 (pz 12 [(8, 16)]).params 0)).active else ((withFir.begun (cmdRow
    2055 2 false 12 12 fwModes false) (pz 12 [(8, 16)])).firOf (u16 (pz 12 [(8, 16)]).params 0)).staged else none) = some
    fir0 ∧ (withFir.begun (cmdRow 2055 2 false 12 12 fwModes false) (pz 12 [(8, 16)])).dramFree (u64 (pz 12 [(8, 16)]).params
    4) (4 * fir0.taps.length) = true)) := by
  iterate 9 refine ⟨by decide +kernel, ?_⟩
  decide +kernel
/-- Witness for `MeasurementCommandsComplete`. -/
theorem meets_MeasurementCommandsComplete :
    (admitted (cmdRow 2305 0 true 12 12 fwModes true) (pz 12 []) idle = true ∧ (rsvOk Reg.MEAS_PDM_CFG (u32 (pz 12 []).params
    0) = true ∧ rsvOk Reg.MEAS_DC (u32 (pz 12 []).params 4) = true ∧ rsvOk Reg.MEAS_HPF (u32 (pz 12 []).params 8) = true)) ∧
    (admitted (cmdRow 2306 1 false 32 32 [mMEASURE] false) (pz 32 [(7, 1), (8, 168), (9, 253), (10, 10), (12, 10), (14, 232),
    (15, 3), (24, 16)]) (inMode mMEASURE) = true ∧ (((inMode mMEASURE).begun (cmdRow 2306 1 false 32 32 [mMEASURE] false) (pz
    32 [(7, 1), (8, 168), (9, 253), (10, 10), (12, 10), (14, 232), (15, 3), (24, 16)])).d2Lock = true ∧ ((inMode
    mMEASURE).begun (cmdRow 2306 1 false 32 32 [mMEASURE] false) (pz 32 [(7, 1), (8, 168), (9, 253), (10, 10), (12, 10), (14,
    232), (15, 3), (24, 16)])).sweepOk (pz 32 [(7, 1), (8, 168), (9, 253), (10, 10), (12, 10), (14, 232), (15, 3), (24,
    16)]).params = true ∧ 3 * ((inMode mMEASURE).begun (cmdRow 2306 1 false 32 32 [mMEASURE] false) (pz 32 [(7, 1), (8, 168),
    (9, 253), (10, 10), (12, 10), (14, 232), (15, 3), (24, 16)])).folioLen + presetDelay (((inMode mMEASURE).begun (cmdRow
    2306 1 false 32 32 [mMEASURE] false) (pz 32 [(7, 1), (8, 168), (9, 253), (10, 10), (12, 10), (14, 232), (15, 3), (24,
    16)])).fld Reg.MEAS_PDM_CFG Fl.MEAS_PDM_CFG_PRESET) + (sweepOf (pz 32 [(7, 1), (8, 168), (9, 253), (10, 10), (12, 10),
    (14, 232), (15, 3), (24, 16)]).params).length ((inMode mMEASURE).begun (cmdRow 2306 1 false 32 32 [mMEASURE] false) (pz
    32 [(7, 1), (8, 168), (9, 253), (10, 10), (12, 10), (14, 232), (15, 3), (24, 16)])).fs ≤ ((inMode mMEASURE).begun (cmdRow
    2306 1 false 32 32 [mMEASURE] false) (pz 32 [(7, 1), (8, 168), (9, 253), (10, 10), (12, 10), (14, 232), (15, 3), (24,
    16)])).fld Reg.MEAS_CFG Fl.MEAS_CFG_MAX_S * ((inMode mMEASURE).begun (cmdRow 2306 1 false 32 32 [mMEASURE] false) (pz 32
    [(7, 1), (8, 168), (9, 253), (10, 10), (12, 10), (14, 232), (15, 3), (24, 16)])).fs)) ∧ (admitted (cmdRow 2306 1 false 32
    32 [mMEASURE] false) (pz 32 []) ((inMode mMEASURE).setFlag Reg.MIX_DOM_STAT Fl.MIX_DOM_STAT_D2_LOCK false) = true ∧
    (((inMode mMEASURE).setFlag Reg.MIX_DOM_STAT Fl.MIX_DOM_STAT_D2_LOCK false).begun (cmdRow 2306 1 false 32 32 [mMEASURE]
    false) (pz 32 [])).d2Lock = false) ∧ (admitted (cmdRow 2307 0 true 8 8 fwModes true) (pz 8 [(6, 1)]) idle = true ∧ (u8
    (pz 8 [(6, 1)]).params 0 < 16 ∧ u8 (pz 8 [(6, 1)]).params 1 = 0 ∧ (bitsOf 16 (u16 (pz 8 [(6, 1)]).params 2)).length ≤ 4 ∧
    rangeOk (List.drop 4 (pz 8 [(6, 1)]).params) = true ∧ u16 (List.drop 4 (pz 8 [(6, 1)]).params) 2 ≤ 64)) ∧ (admitted
    (cmdRow 2308 0 true 8 8 fwModes true) (pw [10 * 65536 + 10 * 64 + 30, 100 * 4096 + 50]) idle = true ∧ (rsvOk
    Reg.MEAS_PRB_CFG (u32 (pw [10 * 65536 + 10 * 64 + 30, 100 * 4096 + 50]).params 0) = true ∧ 10 ≤ bitsN (u32 (pw [10 *
    65536 + 10 * 64 + 30, 100 * 4096 + 50]).params 0) 25 16 ∧ bitsN (u32 (pw [10 * 65536 + 10 * 64 + 30, 100 * 4096 +
    50]).params 0) 25 16 ≤ 600 ∧ 10 ≤ bitsN (u32 (pw [10 * 65536 + 10 * 64 + 30, 100 * 4096 + 50]).params 0) 15 6 ∧ bitsN
    (u32 (pw [10 * 65536 + 10 * 64 + 30, 100 * 4096 + 50]).params 0) 15 6 ≤ bitsN (u32 (pw [10 * 65536 + 10 * 64 + 30, 100 *
    4096 + 50]).params 0) 25 16 ∧ 30 ≤ bitsN (u32 (pw [10 * 65536 + 10 * 64 + 30, 100 * 4096 + 50]).params 0) 5 0 ∧ bitsN
    (u32 (pw [10 * 65536 + 10 * 64 + 30, 100 * 4096 + 50]).params 0) 5 0 ≤ 60 ∧ 100 ≤ bitsN (u32 (pw [10 * 65536 + 10 * 64 +
    30, 100 * 4096 + 50]).params 4) 23 12 ∧ bitsN (u32 (pw [10 * 65536 + 10 * 64 + 30, 100 * 4096 + 50]).params 4) 23 12 ≤
    3000 ∧ 50 ≤ bitsN (u32 (pw [10 * 65536 + 10 * 64 + 30, 100 * 4096 + 50]).params 4) 11 0 ∧ bitsN (u32 (pw [10 * 65536 + 10
    * 64 + 30, 100 * 4096 + 50]).params 4) 11 0 ≤ 1200)) ∧ (admitted (cmdRow 2309 2 false 12 12 fwModes false) (pz 12 [(8,
    16)]) withPrb = true ∧ ((u16 (pz 12 [(8, 16)]).params 0 < 512 ∧ u16 (pz 12 [(8, 16)]).params 2 = 0 ∧ u64 (pz 12 [(8,
    16)]).params 4 % 64 = 0) ∧ Tab.look (withPrb.begun (cmdRow 2309 2 false 12 12 fwModes false) (pz 12 [(8, 16)])).meas.res
    (u16 (pz 12 [(8, 16)]).params 0) = some prb0 ∧ (withPrb.begun (cmdRow 2309 2 false 12 12 fwModes false) (pz 12 [(8,
    16)])).dramFree (u64 (pz 12 [(8, 16)]).params 4) (List.length prb0.spec * recordSize 8192) = true)) ∧ (admitted (cmdRow
    2309 2 false 12 12 fwModes false) (pz 12 [(8, 16)]) idle = true ∧ ((u16 (pz 12 [(8, 16)]).params 0 < 512 ∧ u16 (pz 12
    [(8, 16)]).params 2 = 0 ∧ u64 (pz 12 [(8, 16)]).params 4 % 64 = 0) ∧ Tab.look (idle.begun (cmdRow 2309 2 false 12 12
    fwModes false) (pz 12 [(8, 16)])).meas.res (u16 (pz 12 [(8, 16)]).params 0) = none ∧ (idle.begun (cmdRow 2309 2 false 12
    12 fwModes false) (pz 12 [(8, 16)])).dramFree (u64 (pz 12 [(8, 16)]).params 4) 0 = true)) ∧ (admitted (cmdRow 2310 0 true
    4 4 fwModes true) (pz 4 [(2, 1)]) idle = true ∧ rangeOk (pz 4 [(2, 1)]).params = true) ∧ (admitted (cmdRow 2311 0 true 8
    8 fwModes true) ((pz 8 [(2, 1)]).withOp 4 1) idle = true ∧ (rangeOk ((pz 8 [(2, 1)]).withOp 4 1).params = true ∧ u8 ((pz
    8 [(2, 1)]).withOp 4 1).params 4 = 1 ∧ zeroAt ((pz 8 [(2, 1)]).withOp 4 1).params 5 3 = true)) ∧ (admitted (cmdRow 2311 0
    true 8 8 fwModes true) ((pz 8 [(2, 1)]).withOp 4 0) idle = true ∧ (rangeOk ((pz 8 [(2, 1)]).withOp 4 0).params = true ∧
    u8 ((pz 8 [(2, 1)]).withOp 4 0).params 4 = 0 ∧ zeroAt ((pz 8 [(2, 1)]).withOp 4 0).params 5 3 = true)) := by
  iterate 9 refine ⟨by decide +kernel, ?_⟩
  decide +kernel
/-- Witness for `MixerCommandsComplete`. -/
theorem meets_MixerCommandsComplete :
    (admitted (cmdRow 2561 0 true 8 8 fwModes true) (pz 8 []) idle = true ∧ (u8 (pz 8 []).params 0 < 3 ∧ u8 (pz 8 []).params
    1 < domSize (u8 (pz 8 []).params 0) ∧ u16 (pz 8 []).params 2 = 0 ∧ srcWordOk (u8 (pz 8 []).params 0) (u32 (pz 8
    []).params 4) = true)) ∧ (admitted (cmdRow 2562 1 true 4 8200 fwModes true) (pz 6 [(3, 1)]) idle = true ∧ (((pz 6 [(3,
    1)]).params.length = 4 + 2 * if u8 (pz 6 [(3, 1)]).params 3 = 0 then 256 else u8 (pz 6 [(3, 1)]).params 3) ∧ u8 (pz 6
    [(3, 1)]).params 0 < 3 ∧ u8 (pz 6 [(3, 1)]).params 1 < domSize (u8 (pz 6 [(3, 1)]).params 0) ∧ (u8 (pz 6 [(3, 1)]).params
    2 + if u8 (pz 6 [(3, 1)]).params 3 = 0 then 256 else u8 (pz 6 [(3, 1)]).params 3) ≤ domSize (u8 (pz 6 [(3, 1)]).params
    0))) ∧ (admitted (cmdRow 2563 1 true 4 4 fwModes true) ((pz 4 []).withOp 0 0) idle = true ∧ (u8 ((pz 4 []).withOp 0
    0).params 0 = 0 ∧ u8 ((pz 4 []).withOp 0 0).params 1 < 8 ∧ u16 ((pz 4 []).withOp 0 0).params 2 = 0)) ∧ (admitted (cmdRow
    2563 1 true 4 4 fwModes true) ((pz 4 []).withOp 0 1) idle = true ∧ (u8 ((pz 4 []).withOp 0 1).params 0 = 1 ∧ u8 ((pz 4
    []).withOp 0 1).params 1 < 8 ∧ u16 ((pz 4 []).withOp 0 1).params 2 = 0)) ∧ (admitted (cmdRow 2564 0 true 12 12 fwModes
    true) (pz 12 []) idle = true ∧ (u8 (pz 12 []).params 0 < 3 ∧ u8 (pz 12 []).params 1 < domSize (u8 (pz 12 []).params 0) ∧
    u16 (pz 12 []).params 2 = 0 ∧ rsvOk (Reg.MIX_BUS_CFG 0 0) (u32 (pz 12 []).params 4) = true ∧ destOk (u32 (pz 12
    []).params 8) = true ∧ (bitsN (u32 (pz 12 []).params 8) 31 30 = 2 → u8 (pz 12 []).params 0 = 0) ∧ inRange (toS 16 (u32
    (pz 12 []).params 4)) (-4000) 2400 = true ∧ (idle.begun (cmdRow 2564 0 true 12 12 fwModes true) (pz 12 [])).busDestFree
    (u8 (pz 12 []).params 0) (u8 (pz 12 []).params 1) (u32 (pz 12 []).params 8) = true)) ∧ (admitted (cmdRow 2565 0 true 4 4
    [mLOAD, mIDLE, mRENDER, mSTANDBY, mRESYNC, mSERVICE, mUPDATE, mFAULT] true) (pz 4 []) idle = true ∧ (rsvOk
    Reg.MIX_DOM_CFG (u32 (pz 4 []).params 0) = true ∧ bitsN (u32 (pz 4 []).params 0) 7 6 ≤ 1 ∧ (idle.begun (cmdRow 2565 0
    true 4 4 [mLOAD, mIDLE, mRENDER, mSTANDBY, mRESYNC, mSERVICE, mUPDATE, mFAULT] true) (pz 4 [])).tooFast (fun x => x == 1)
    (rateHz (bitsN (u32 (pz 4 []).params 0) 3 2)) = none ∧ (idle.begun (cmdRow 2565 0 true 4 4 [mLOAD, mIDLE, mRENDER,
    mSTANDBY, mRESYNC, mSERVICE, mUPDATE, mFAULT] true) (pz 4 [])).tooFast (fun x => x == 2) (if bitsN (u32 (pz 4 []).params
    0) 7 6 = 1 then rateHz (bitsN (u32 (pz 4 []).params 0) 3 2) else (idle.begun (cmdRow 2565 0 true 4 4 [mLOAD, mIDLE,
    mRENDER, mSTANDBY, mRESYNC, mSERVICE, mUPDATE, mFAULT] true) (pz 4 [])).fs) = none)) ∧ (admitted (cmdRow 2566 0 true 8 8
    fwModes true) (pz 8 [(7, 4)]) idle = true ∧ (u8 (pz 8 [(7, 4)]).params 0 < 64 ∧ zeroAt (pz 8 [(7, 4)]).params 1 3 = true
    ∧ rsvOk (Reg.MIX_BRG 0) (u32 (pz 8 [(7, 4)]).params 4) = true ∧ bitsN (u32 (pz 8 [(7, 4)]).params 4) 27 26 < 3 ∧ bitsN
    (u32 (pz 8 [(7, 4)]).params 4) 25 24 < 3 ∧ bitsN (u32 (pz 8 [(7, 4)]).params 4) 27 26 ≠ bitsN (u32 (pz 8 [(7, 4)]).params
    4) 25 24 ∧ bitsN (u32 (pz 8 [(7, 4)]).params 4) 7 0 < domSize (bitsN (u32 (pz 8 [(7, 4)]).params 4) 27 26))) ∧ (admitted
    (cmdRow 2567 0 true 4 4 fwModes true) (pk [1, 0, 96, 240]) idle = true ∧ (rsvOk Reg.MIX_SIL_CFG (u32 (pk [1, 0, 96,
    240]).params 0) = true ∧ inRange (toS 16 (u32 (pk [1, 0, 96, 240]).params 0 / 65536)) (-10000) (-4000) = true ∧ 1 ≤ bitsN
    (u32 (pk [1, 0, 96, 240]).params 0) 9 0 ∧ bitsN (u32 (pk [1, 0, 96, 240]).params 0) 9 0 ≤ 600)) ∧ (admitted (cmdRow 2568
    0 true 164 164 (mSAFE :: fwModes) true) (pk ([96, 240, 1, 0] ++ List.replicate 160 0)) idle = true ∧ (idle.begun (cmdRow
    2568 0 true 164 164 (mSAFE :: fwModes) true) (pk ([96, 240, 1, 0] ++ List.replicate 160 0))).bypOk (pk ([96, 240, 1, 0]
    ++ List.replicate 160 0)).params = true) ∧ (admitted (cmdRow 2569 0 true 72 72 (mSAFE :: fwModes) true) (pz 72 [(4, 1),
    (5, 1)]) idle = true ∧ (u8 (pz 72 [(4, 1), (5, 1)]).params 0 < 4 ∧ zeroAt (pz 72 [(4, 1), (5, 1)]).params 1 3 = true ∧
    inRange (toS 16 (u32 (pz 72 [(4, 1), (5, 1)]).params 4 / 65536)) (-6000) 0 = true ∧ bitsN (u32 (pz 72 [(4, 1), (5,
    1)]).params 4) 15 8 ≠ 0 ∧ bitsN (u32 (pz 72 [(4, 1), (5, 1)]).params 4) 7 0 ≠ 0)) ∧ (admitted (cmdRow 2570 2 false 4 4
    fwModes false) (pz 4 []) idle = true ∧ (u8 (pz 4 []).params 0 < 3 ∧ u8 (pz 4 []).params 1 < domSize (u8 (pz 4 []).params
    0) ∧ u16 (pz 4 []).params 2 = 0)) := by
  iterate 10 refine ⟨by decide +kernel, ?_⟩
  decide +kernel
/-- Witness for `TdmCommandsComplete`. -/
theorem meets_TdmCommandsComplete :
    (admitted (cmdRow 2817 0 true 12 12 fwModes true) (pw [0, rst (Reg.TDM_CFG 0), rst (Reg.TDM_FMT 0)]) idle = true ∧ (u8
    (pw [0, rst (Reg.TDM_CFG 0), rst (Reg.TDM_FMT 0)]).params 0 < 16 ∧ zeroAt (pw [0, rst (Reg.TDM_CFG 0), rst (Reg.TDM_FMT
    0)]).params 1 3 = true ∧ (idle.begun (cmdRow 2817 0 true 12 12 fwModes true) (pw [0, rst (Reg.TDM_CFG 0), rst
    (Reg.TDM_FMT 0)])).tdmOk (u8 (pw [0, rst (Reg.TDM_CFG 0), rst (Reg.TDM_FMT 0)]).params 0) (if 14 ≤ u8 (pw [0, rst
    (Reg.TDM_CFG 0), rst (Reg.TDM_FMT 0)]).params 0 then setBitsN (u32 (pw [0, rst (Reg.TDM_CFG 0), rst (Reg.TDM_FMT
    0)]).params 4) 30 28 7 else u32 (pw [0, rst (Reg.TDM_CFG 0), rst (Reg.TDM_FMT 0)]).params 4) (u32 (pw [0, rst
    (Reg.TDM_CFG 0), rst (Reg.TDM_FMT 0)]).params 8) = true)) ∧ (admitted (cmdRow 2818 1 true 16 16 fwModes true) (pz 16 [])
    idle = true ∧ (u8 (pz 16 []).params 0 < 16 ∧ zeroAt (pz 16 []).params 1 3 = true ∧ u32 (pz 16 []).params 4 < 2 ^ fmtSlots
    ((idle.begun (cmdRow 2818 1 true 16 16 fwModes true) (pz 16 [])).rd (Reg.TDM_FMT (u8 (pz 16 []).params 0))))) ∧ (admitted
    (cmdRow 2819 2 false 4 4 fwModes false) (pz 4 []) idle = true ∧ (u8 (pz 4 []).params 0 < 16 ∧ zeroAt (pz 4 []).params 1 3
    = true)) := by
  refine ⟨?_, ?_, ?_⟩ <;> decide +kernel

/-- Witness for `PairCommandsComplete`. -/
theorem meets_PairCommandsComplete :
    (admitted (cmdRow 3073 0 true 4 4 fwModes true) (pw [65600]) idle = true ∧ (rsvOk Reg.TTH_CFG (u32 (pw [65600]).params 0)
    = true ∧ 1 ≤ bitsN (u32 (pw [65600]).params 0) 23 16 ∧ bitsN (u32 (pw [65600]).params 0) 23 16 ≤ 40 ∧ 64 ≤ bitsN (u32 (pw
    [65600]).params 0) 13 0)) ∧ (admitted (cmdRow 3074 0 true 40 40 idleModes true) (pz 40 []) idle = true ∧ (zeroAt (pz 40
    []).params 6 2 = true ∧ zeroAt (pz 40 []).params 14 2 = true ∧ zeroAt (pz 40 []).params 32 8 = true ∧ u8 (pz 40
    []).params 12 ≤ 32 ∧ u8 (pz 40 []).params 13 ≤ 128)) ∧ (admitted (cmdRow 3075 2 false 0 0 fwModes false) (pz 0 []) idle =
    true) ∧ (admitted (cmdRow 3076 1 true 0 0 [mRENDER] false) { (pz 0 []) with target := 0 } ((linked.setFld Reg.SYS_MODE
    Fl.SYS_MODE_MODE mRENDER).setFld Reg.TTH_PEER_INFO Fl.TTH_PEER_INFO_PSTATE psSTANDBY) = true ∧ (((linked.setFld
    Reg.SYS_MODE Fl.SYS_MODE_MODE mRENDER).setFld Reg.TTH_PEER_INFO Fl.TTH_PEER_INFO_PSTATE psSTANDBY).begun (cmdRow 3076 1
    true 0 0 [mRENDER] false) { (pz 0 []) with target := 0 }).peerStandby = true) ∧ (admitted (cmdRow 3076 1 true 0 0
    [mRENDER] false) (pz 0 []) (inMode mRENDER) = true ∧ ((inMode mRENDER).begun (cmdRow 3076 1 true 0 0 [mRENDER] false) (pz
    0 [])).peerStandby = false) ∧ (admitted (cmdRow 3077 0 true 4 4 fwModes false) ((pz 4 []).withOp 0 0) (linked.setFlag
    Reg.TTH_STAT Fl.TTH_STAT_HOLDS true) = true ∧ ((u8 ((pz 4 []).withOp 0 0).params 0 = 0 ∧ zeroAt ((pz 4 []).withOp 0
    0).params 1 3 = true ∧ ((linked.setFlag Reg.TTH_STAT Fl.TTH_STAT_HOLDS true).begun (cmdRow 3077 0 true 4 4 fwModes false)
    ((pz 4 []).withOp 0 0)).paired = true ∧ ((linked.setFlag Reg.TTH_STAT Fl.TTH_STAT_HOLDS true).begun (cmdRow 3077 0 true 4
    4 fwModes false) ((pz 4 []).withOp 0 0)).linkUp = true) ∧ ((linked.setFlag Reg.TTH_STAT Fl.TTH_STAT_HOLDS true).begun
    (cmdRow 3077 0 true 4 4 fwModes false) ((pz 4 []).withOp 0 0)).compatEqual = true ∧ ((linked.setFlag Reg.TTH_STAT
    Fl.TTH_STAT_HOLDS true).begun (cmdRow 3077 0 true 4 4 fwModes false) ((pz 4 []).withOp 0 0)).holds = true)) ∧ (admitted
    (cmdRow 3077 0 true 4 4 fwModes false) ({ (pz 4 []) with target := 0 }.withOp 0 0) (linked.setFld Reg.TTH_STAT
    Fl.TTH_STAT_PSTATE psUNSYNC) = true ∧ ((u8 ({ (pz 4 []) with target := 0 }.withOp 0 0).params 0 = 0 ∧ zeroAt
    ({ (pz 4 []) with target := 0 }.withOp 0 0).params 1 3 = true ∧ ((linked.setFld Reg.TTH_STAT Fl.TTH_STAT_PSTATE
    psUNSYNC).begun (cmdRow 3077 0 true 4 4 fwModes false) ({ (pz 4 []) with target := 0 }.withOp 0 0)).paired = true ∧
    ((linked.setFld Reg.TTH_STAT Fl.TTH_STAT_PSTATE psUNSYNC).begun (cmdRow 3077 0 true 4 4 fwModes false)
    ({ (pz 4 []) with target := 0 }.withOp 0 0)).linkUp = true) ∧ ((linked.setFld Reg.TTH_STAT Fl.TTH_STAT_PSTATE
    psUNSYNC).begun (cmdRow 3077 0 true 4 4 fwModes false) ({ (pz 4 []) with target := 0 }.withOp 0 0)).compatEqual = true ∧
    ((linked.setFld Reg.TTH_STAT Fl.TTH_STAT_PSTATE psUNSYNC).begun (cmdRow 3077 0 true 4 4 fwModes false)
    ({ (pz 4 []) with target := 0 }.withOp 0 0)).holds = false ∧ ((linked.setFld Reg.TTH_STAT Fl.TTH_STAT_PSTATE
    psUNSYNC).begun (cmdRow 3077 0 true 4 4 fwModes false) ({ (pz 4 []) with target := 0 }.withOp 0 0)).mayResync = true)) ∧
    (admitted (cmdRow 3077 0 true 4 4 fwModes false) ({ (pz 4 []) with target := 0 }.withOp 0 0) linked = true ∧ ((u8
    ({ (pz 4 []) with target := 0 }.withOp 0 0).params 0 = 0 ∧ zeroAt ({ (pz 4 []) with target := 0 }.withOp 0 0).params 1 3
    = true ∧ (linked.begun (cmdRow 3077 0 true 4 4 fwModes false) ({ (pz 4 []) with target := 0 }.withOp 0 0)).paired = true
    ∧ (linked.begun (cmdRow 3077 0 true 4 4 fwModes false) ({ (pz 4 []) with target := 0 }.withOp 0 0)).linkUp = true) ∧
    (linked.begun (cmdRow 3077 0 true 4 4 fwModes false) ({ (pz 4 []) with target := 0 }.withOp 0 0)).compatEqual = true ∧
    (linked.begun (cmdRow 3077 0 true 4 4 fwModes false) ({ (pz 4 []) with target := 0 }.withOp 0 0)).holds = false ∧
    (linked.begun (cmdRow 3077 0 true 4 4 fwModes false) ({ (pz 4 []) with target := 0 }.withOp 0 0)).mayResync = false)) ∧
    (admitted (cmdRow 3077 0 true 4 4 fwModes false) ((pz 4 []).withOp 0 1) (linked.setFlag Reg.TTH_STAT Fl.TTH_STAT_HOLDS
    true) = true ∧ ((u8 ((pz 4 []).withOp 0 1).params 0 = 1 ∧ zeroAt ((pz 4 []).withOp 0 1).params 1 3 = true ∧
    ((linked.setFlag Reg.TTH_STAT Fl.TTH_STAT_HOLDS true).begun (cmdRow 3077 0 true 4 4 fwModes false) ((pz 4 []).withOp 0
    1)).paired = true ∧ ((linked.setFlag Reg.TTH_STAT Fl.TTH_STAT_HOLDS true).begun (cmdRow 3077 0 true 4 4 fwModes false)
    ((pz 4 []).withOp 0 1)).linkUp = true) ∧ ((linked.setFlag Reg.TTH_STAT Fl.TTH_STAT_HOLDS true).begun (cmdRow 3077 0 true
    4 4 fwModes false) ((pz 4 []).withOp 0 1)).holds = true)) ∧ (admitted (cmdRow 3077 0 true 4 4 fwModes false)
    ({ (pz 4 []) with target := 0 }.withOp 0 1) linked = true ∧ ((u8 ({ (pz 4 []) with target := 0 }.withOp 0 1).params 0 = 1
    ∧ zeroAt ({ (pz 4 []) with target := 0 }.withOp 0 1).params 1 3 = true ∧ (linked.begun (cmdRow 3077 0 true 4 4 fwModes
    false) ({ (pz 4 []) with target := 0 }.withOp 0 1)).paired = true ∧ (linked.begun (cmdRow 3077 0 true 4 4 fwModes false)
    ({ (pz 4 []) with target := 0 }.withOp 0 1)).linkUp = true) ∧ (linked.begun (cmdRow 3077 0 true 4 4 fwModes false)
    ({ (pz 4 []) with target := 0 }.withOp 0 1)).holds = false)) ∧ (admitted
    ({ (cmdRow 3078 0 false 0 0 fwModes false) with ownOnly := true } : CmdSpec) (pz 0 []) idle = true) := by
  iterate 10 refine ⟨by decide +kernel, ?_⟩
  decide +kernel
/-- Witness for `EffectCommandsComplete`. -/
theorem meets_EffectCommandsComplete :
    (admitted (cmdRow 3329 0 true 24 152 fxModes true) ((pz 24 [(12, 16)]).withOp 1 0) idle = true ∧ (u8 ((pz 24 [(12,
    16)]).withOp 1 0).params 1 = 0 ∧ u8 ((pz 24 [(12, 16)]).withOp 1 0).params 0 < 16 ∧ (((pz 24 [(12, 16)]).withOp 1
    0).params.length - 24) % 4 = 0 ∧ u8 ((pz 24 [(12, 16)]).withOp 1 0).params 2 < Config.fxCores (idle.begun (cmdRow 3329 0
    true 24 152 fxModes true) ((pz 24 [(12, 16)]).withOp 1 0)).otp.grade ∧ u8 ((pz 24 [(12, 16)]).withOp 1 0).params 3 ≤ 7 ∧
    zeroAt ((pz 24 [(12, 16)]).withOp 1 0).params 5 3 = true ∧ u64 ((pz 24 [(12, 16)]).withOp 1 0).params 8 % 64 = 0 ∧
    (idle.begun (cmdRow 3329 0 true 24 152 fxModes true) ((pz 24 [(12, 16)]).withOp 1 0)).dramFree (u64 ((pz 24 [(12,
    16)]).withOp 1 0).params 8) (u32 ((pz 24 [(12, 16)]).withOp 1 0).params 16) = true ∧ u32 ((pz 24 [(12, 16)]).withOp 1
    0).params 20 = 0 ∧ (fxInputs ((pz 24 [(12, 16)]).withOp 1 0).params).all fxInputOk = true ∧ ∀ (k : Nat), k < (((pz 24
    [(12, 16)]).withOp 1 0).params.length - 24) / 4 → u8 ((pz 24 [(12, 16)]).withOp 1 0).params (27 + 4 * k) = 0)) ∧
    (admitted (cmdRow 3329 0 true 24 152 fxModes true) ((pz 24 []).withOp 1 1) idle = true ∧ (u8 ((pz 24 []).withOp 1
    1).params 1 = 1 ∧ u8 ((pz 24 []).withOp 1 1).params 0 < 16 ∧ ((pz 24 []).withOp 1 1).params.length = 24)) ∧ (admitted
    (cmdRow 3330 1 true 8 1032 fwModes true) (pz 8 []) withFx = true ∧ ((pz 8 []).params.length = 8 + u16 (pz 8 []).params 4
    ∧ u8 (pz 8 []).params 1 = 0 ∧ u16 (pz 8 []).params 2 % 8 = 0 ∧ u16 (pz 8 []).params 4 % 8 = 0 ∧ u16 (pz 8 []).params 4 ≤
    1024 ∧ u16 (pz 8 []).params 6 = 0 ∧ ∃ x, (withFx.begun (cmdRow 3330 1 true 8 1032 fwModes true) (pz 8 [])).fxNow (u8 (pz
    8 []).params 0) = some x ∧ u16 (pz 8 []).params 2 + u16 (pz 8 []).params 4 ≤ x.pLen)) ∧ (admitted (cmdRow 3331 2 false 4
    4 fwModes false) (pz 4 []) idle = true ∧ (u8 (pz 4 []).params 0 < 16 ∧ zeroAt (pz 4 []).params 1 3 = true)) ∧ (admitted
    (cmdRow 3333 2 false 8 8 fwModes false) (pz 8 []) withFx = true ∧ (((withFx.begun (cmdRow 3333 2 false 8 8 fwModes false)
    (pz 8 [])).fxNow (u8 (pz 8 []).params 0) = some inst0 ∧ u8 (pz 8 []).params 1 = 0 ∧ u16 (pz 8 []).params 2 % 8 = 0 ∧ u16
    (pz 8 []).params 4 ≤ 4096 ∧ u16 (pz 8 []).params 6 = 0 ∧ u16 (pz 8 []).params 2 + u16 (pz 8 []).params 4 ≤ inst0.di +
    inst0.dz) ∧ (List.any (withFx.begun (cmdRow 3333 2 false 8 8 fwModes false) (pz 8 [])).fx.cores fun e => e.snd.inst == u8
    (pz 8 []).params 0) = false)) ∧ (admitted (cmdRow 3333 2 false 8 8 fwModes false) (pz 8 []) withCore = true ∧
    (((withCore.begun (cmdRow 3333 2 false 8 8 fwModes false) (pz 8 [])).fxNow (u8 (pz 8 []).params 0) = some inst0 ∧ u8 (pz
    8 []).params 1 = 0 ∧ u16 (pz 8 []).params 2 % 8 = 0 ∧ u16 (pz 8 []).params 4 ≤ 4096 ∧ u16 (pz 8 []).params 6 = 0 ∧ u16
    (pz 8 []).params 2 + u16 (pz 8 []).params 4 ≤ inst0.di + inst0.dz) ∧ (List.any (withCore.begun (cmdRow 3333 2 false 8 8
    fwModes false) (pz 8 [])).fx.cores fun e => e.snd.inst == u8 (pz 8 []).params 0) = true)) := by
  refine ⟨by decide +kernel, by decide +kernel, by refine ⟨by decide +kernel, by decide +kernel, by decide +kernel,
  by decide +kernel, by decide +kernel, by decide +kernel, by decide +kernel, inst0, by decide +kernel⟩, by decide +kernel,
  by decide +kernel, by decide +kernel⟩

/-- Witness for `SchedulerCommandsComplete`. -/
theorem meets_SchedulerCommandsComplete :
    (admitted (cmdRow 4097 0 true 8 8 fwModes true) (pw [63, 256]) idle = true ∧ (u8 (pw [63, 256]).params 0 < 64 ∧ zeroAt
    (pw [63, 256]).params 1 3 = true ∧ rsvOk (Reg.STBL_Q_CFG (u8 (pw [63, 256]).params 0)) (u32 (pw [63, 256]).params 4) =
    true ∧ 1 ≤ bitsN (u32 (pw [63, 256]).params 4) 16 8 ∧ bitsN (u32 (pw [63, 256]).params 4) 16 8 ≤ 256 ∧ (u8 (pw [63,
    256]).params 0 < 32 → bitsN (u32 (pw [63, 256]).params 4) 30 28 = (idle.begun (cmdRow 4097 0 true 8 8 fwModes true) (pw
    [63, 256])).prio (u8 (pw [63, 256]).params 0)) ∧ (u8 (pw [63, 256]).params 0 < 8 → 4 ≤ bitsN (u32 (pw [63, 256]).params
    4) 7 0) ∧ (idle.begun (cmdRow 4097 0 true 8 8 fwModes true) (pw [63, 256])).resvWith (u8 (pw [63, 256]).params 0) (bitsN
    (u32 (pw [63, 256]).params 4) 7 0) ≤ 256)) ∧ (admitted (cmdRow 4098 0 false 24 24 fwModes false) (pz 24 []) idle = true ∧
    (rsvOk Reg.STBL_TRC_CFG (u32 (pz 24 []).params 0) = true ∧ u64 (pz 24 []).params 12 % 4096 = 0 ∧ u64 (pz 24 []).params 12
    < 2 ^ 40 ∧ u32 (pz 24 []).params 20 % 4096 = 0 ∧ u32 (pz 24 []).params 20 ≤ 2 ^ 28 ∧ ((u32 (pz 24 []).params 0).testBit
    30 = true → 4096 ≤ u32 (pz 24 []).params 20 ∧ (idle.begun (cmdRow 4098 0 false 24 24 fwModes false) (pz 24 [])).dramFree
    (u64 (pz 24 []).params 12) (u32 (pz 24 []).params 20) = true))) ∧ (admitted (cmdRow 4099 2 false 4 4 fwModes false) (pz 4
    [(2, 1)]) idle = true ∧ (1 ≤ u16 (pz 4 [(2, 1)]).params 2 ∧ u16 (pz 4 [(2, 1)]).params 2 ≤ 256 ∧ u16 (pz 4 [(2,
    1)]).params 0 + u16 (pz 4 [(2, 1)]).params 2 ≤ 2048)) ∧ (admitted (cmdRow 4100 0 false 36 36 fwModes false) (pk ([48, 0,
    0, 0] ++ markBytes)) idle = true ∧ ((48 ≤ u8 (pk ([48, 0, 0, 0] ++ markBytes)).params 0 ∧ u8 (pk ([48, 0, 0, 0] ++
    markBytes)).params 0 < 64 ∧ zeroAt (pk ([48, 0, 0, 0] ++ markBytes)).params 1 3 = true ∧ submitOk (List.drop 4 (pk ([48,
    0, 0, 0] ++ markBytes)).params) = true) ∧ (idle.begun (cmdRow 4100 0 false 36 36 fwModes false) (pk ([48, 0, 0, 0] ++
    markBytes))).room (u8 (pk ([48, 0, 0, 0] ++ markBytes)).params 0) = true)) ∧ (admitted (cmdRow 4100 0 false 36 36 fwModes
    false) (pk ([48, 0, 0, 0] ++ markBytes)) (idle.wr (Reg.STBL_Q_CFG 48) 0) = true ∧ ((48 ≤ u8 (pk ([48, 0, 0, 0] ++
    markBytes)).params 0 ∧ u8 (pk ([48, 0, 0, 0] ++ markBytes)).params 0 < 64 ∧ zeroAt (pk ([48, 0, 0, 0] ++
    markBytes)).params 1 3 = true ∧ submitOk (List.drop 4 (pk ([48, 0, 0, 0] ++ markBytes)).params) = true) ∧ ((idle.wr
    (Reg.STBL_Q_CFG 48) 0).begun (cmdRow 4100 0 false 36 36 fwModes false) (pk ([48, 0, 0, 0] ++ markBytes))).room (u8 (pk
    ([48, 0, 0, 0] ++ markBytes)).params 0) = false)) ∧ (admitted (cmdRow 4101 2 false 0 0 fwModes false) (pz 0 []) idle =
    true) := by
  refine ⟨?_, ?_, ?_, ?_, ?_, ?_⟩ <;> decide +kernel

/-- Witness for `MemorySystemCommandsComplete`. -/
theorem meets_MemorySystemCommandsComplete :
    (admitted (cmdRow 3904 0 true 8 8 fwModes true) (pz 8 []) idle = true ∧ (u8 (pz 8 []).params 0 ≤ 31 ∧ zeroAt (pz 8
    []).params 1 3 = true ∧ rsvOk (Reg.SPN_MST_CFG (u8 (pz 8 []).params 0)) (u32 (pz 8 []).params 4) = true)) ∧ (admitted
    (cmdRow 3905 0 true 20 20 fwModes true) (pz 20 []) idle = true ∧ (rsvOk Reg.SPN_CFG (u32 (pz 20 []).params 0) = true ∧ ∀
    (t : Nat), t < 16 → u8 (pz 20 []).params (4 + t) ≤ 31)) ∧ (admitted (cmdRow 3906 2 false 0 0 fwModes false) (pz 0 [])
    idle = true) ∧ (admitted (cmdRow 3907 2 false 4 4 fwModes false) (pz 4 [(0, 1)]) idle = true ∧ (1 ≤ u8 (pz 4 [(0,
    1)]).params 0 ∧ u8 (pz 4 [(0, 1)]).params 0 ≤ 16 ∧ zeroAt (pz 4 [(0, 1)]).params 1 3 = true)) ∧ (admitted (cmdRow 3920 0
    false 8 8 fwModes true) (pz 8 []) idle = true ∧ (rsvOk Reg.MEM_CFG (u32 (pz 8 []).params 0) = true ∧ rsvOk
    Reg.MEM_GRM_CFG (u32 (pz 8 []).params 4) = true)) ∧ (admitted (cmdRow 3921 0 false 0 0 fwModes false) (pz 0 []) idle =
    true) ∧ (admitted (cmdRow 3922 0 false 8 8 fwModes false) ((pz 8 []).withOp 0 0) idle = true ∧ (u8 ((pz 8 []).withOp 0
    0).params 0 = 0 ∧ zeroAt ((pz 8 []).withOp 0 0).params 1 1 = true ∧ zeroAt ((pz 8 []).withOp 0 0).params 6 2 = true)) ∧
    (admitted (cmdRow 3922 0 false 8 8 fwModes false) ((pz 8 []).withOp 0 1) idle = true ∧ ((u8 ((pz 8 []).withOp 0 1).params
    0 = 1 ∧ zeroAt ((pz 8 []).withOp 0 1).params 1 1 = true ∧ zeroAt ((pz 8 []).withOp 0 1).params 6 2 = true) ∧ bankPresent
    (idle.begun (cmdRow 3922 0 false 8 8 fwModes false) ((pz 8 []).withOp 0 1)).otp.grade (u16 ((pz 8 []).withOp 0 1).params
    2) = true ∧ u16 ((pz 8 []).withOp 0 1).params 4 < bankRows (u16 ((pz 8 []).withOp 0 1).params 2) ∧ (idle.begun (cmdRow
    3922 0 false 8 8 fwModes false) ((pz 8 []).withOp 0 1)).sparesUsed (u16 ((pz 8 []).withOp 0 1).params 2) < 4)) ∧
    (admitted (cmdRow 3923 2 false 0 0 fwModes false) (pz 0 []) idle = true) ∧ (admitted (cmdRow 3924 2 false 4 4 fwModes
    false) (pz 4 [(0, 1)]) idle = true ∧ (1 ≤ u8 (pz 4 [(0, 1)]).params 0 ∧ u8 (pz 4 [(0, 1)]).params 0 ≤ 16 ∧ zeroAt (pz 4
    [(0, 1)]).params 1 3 = true)) ∧ (admitted (cmdRow 3936 0 false 8 8 fwModes true) (pz 8 [(7, 1)]) idle = true ∧ (bitsN
    (u32 (pz 8 [(7, 1)]).params 0) 30 2 = 0 ∧ 256 ≤ bitsN (u32 (pz 8 [(7, 1)]).params 4) 31 16)) ∧ (admitted (cmdRow 3937 0
    false 8 8 fwModes false) ((pz 8 []).withOp 0 0) idle = true ∧ (u8 ((pz 8 []).withOp 0 0).params 0 = 0 ∧ zeroAt ((pz 8
    []).withOp 0 0).params 3 1 = true ∧ zeroAt ((pz 8 []).withOp 0 0).params 6 2 = true)) ∧ (admitted (cmdRow 3937 0 false 8
    8 fwModes false) ((pz 8 []).withOp 0 1) idle = true ∧ ((u8 ((pz 8 []).withOp 0 1).params 0 = 1 ∧ zeroAt ((pz 8 []).withOp
    0 1).params 3 1 = true ∧ zeroAt ((pz 8 []).withOp 0 1).params 6 2 = true) ∧ u8 ((pz 8 []).withOp 0 1).params 1 < 4 ∧ u8
    ((pz 8 []).withOp 0 1).params 2 < 16 ∧ u16 ((pz 8 []).withOp 0 1).params 4 < poolBase (idle.begun (cmdRow 3937 0 false 8
    8 fwModes false) ((pz 8 []).withOp 0 1)).otp.grade ∧ 1 ≤ (idle.begun (cmdRow 3937 0 false 8 8 fwModes false) ((pz 8
    []).withOp 0 1)).poolFree (u8 ((pz 8 []).withOp 0 1).params 1) (u8 ((pz 8 []).withOp 0 1).params 2))) ∧ (admitted (cmdRow
    3938 0 false 4 4 [mIDLE, mSERVICE, mUPDATE, mFAULT] false) (pz 4 []) idle = true ∧ ((u8 (pz 4 []).params 0 ≤ 2 ∧ zeroAt
    (pz 4 []).params 1 3 = true) ∧ ((idle.begun (cmdRow 3938 0 false 4 4 [mIDLE, mSERVICE, mUPDATE, mFAULT] false) (pz 4
    [])).setFld Reg.DMC_CFG Fl.DMC_CFG_FSP (u8 (pz 4 []).params 0)).flag Reg.DMC_STAT Fl.DMC_STAT_TRAINING = false)) ∧
    (admitted (cmdRow 3938 0 false 4 4 [mIDLE, mSERVICE, mUPDATE, mFAULT] false) (pz 4 []) (idle.setFlag Reg.DMC_STAT
    Fl.DMC_STAT_TRAINING true) = true ∧ ((u8 (pz 4 []).params 0 ≤ 2 ∧ zeroAt (pz 4 []).params 1 3 = true) ∧ (((idle.setFlag
    Reg.DMC_STAT Fl.DMC_STAT_TRAINING true).begun (cmdRow 3938 0 false 4 4 [mIDLE, mSERVICE, mUPDATE, mFAULT] false) (pz 4
    [])).setFld Reg.DMC_CFG Fl.DMC_CFG_FSP (u8 (pz 4 []).params 0)).flag Reg.DMC_STAT Fl.DMC_STAT_TRAINING = true)) ∧
    (admitted (cmdRow 3939 2 false 0 0 fwModes false) (pz 0 []) idle = true) ∧ (admitted (cmdRow 3940 2 false 4 4 fwModes
    false) (pz 4 [(0, 1)]) idle = true ∧ (1 ≤ u8 (pz 4 [(0, 1)]).params 0 ∧ u8 (pz 4 [(0, 1)]).params 0 ≤ 16 ∧ zeroAt (pz 4
    [(0, 1)]).params 1 3 = true)) := by
  iterate 16 refine ⟨by decide +kernel, ?_⟩
  decide +kernel
/-- Witness for `CounterCommandsComplete`. -/
theorem meets_CounterCommandsComplete :
    (admitted (cmdRow 3841 0 false 40 40 fwModes true) (pz 40 []) idle = true ∧ (rsvOk Reg.PMC_CFG (u32 (pz 40 []).params 0)
    = true ∧ rsvOk Reg.PMC_BW_CFG (u32 (pz 40 []).params 4) = true ∧ bitsN (u32 (pz 40 []).params 4) 19 0 ≤ 1000000 ∧ ∀ (k :
    Nat), k < 4 → u64 (pz 40 []).params (8 + 8 * k) < 2 ^ 40)) ∧ (admitted (cmdRow 3842 0 false 4 2044 fwModes false) (pz 12
    [(1, 1)]) idle = true ∧ ((pz 12 [(1, 1)]).params.length = 4 + 8 * u8 (pz 12 [(1, 1)]).params 1 ∧ 1 ≤ u8 (pz 12 [(1,
    1)]).params 1 ∧ u8 (pz 12 [(1, 1)]).params 1 ≤ 16 ∧ u8 (pz 12 [(1, 1)]).params 0 + u8 (pz 12 [(1, 1)]).params 1 ≤ 208 ∧
    zeroAt (pz 12 [(1, 1)]).params 2 2 = true)) ∧ (admitted (cmdRow 3843 0 false 20 20 fwModes false) (pz 20 []) idle = true
    ∧ ((u32 (pz 20 []).params 0 ≤ 15 ∧ u64 (pz 20 []).params 4 < 2 ^ 48 ∧ u32 (pz 20 []).params 12 < 1000000000 ∧ zeroAt (pz
    20 []).params 16 4 = true) ∧ u64 (pz 20 []).params 4 = 0 ∧ u32 (pz 20 []).params 12 = 0)) ∧ (admitted (cmdRow 3843 0
    false 20 20 fwModes false) (pz 20 [(4, 1)]) idle = true ∧ ((u32 (pz 20 [(4, 1)]).params 0 ≤ 15 ∧ u64 (pz 20 [(4,
    1)]).params 4 < 2 ^ 48 ∧ u32 (pz 20 [(4, 1)]).params 12 < 1000000000 ∧ zeroAt (pz 20 [(4, 1)]).params 16 4 = true) ∧ (u64
    (pz 20 [(4, 1)]).params 4 ≠ 0 ∨ u32 (pz 20 [(4, 1)]).params 12 ≠ 0))) ∧ (admitted (cmdRow 3844 idle.pmcRole false 4 4
    fwModes false) (pz 4 [(1, 1)]) idle = true ∧ 1 ≤ u8 (pz 4 [(1, 1)]).params 1 ∧ u8 (pz 4 [(1, 1)]).params 0 + u8 (pz 4
    [(1, 1)]).params 1 ≤ 208 ∧ u8 (pz 4 [(1, 1)]).params 2 ≤ 1 ∧ zeroAt (pz 4 [(1, 1)]).params 3 1 = true) ∧ (admitted
    (cmdRow 3845 idle.pmcRole false 0 0 fwModes false) (pz 0 []) idle = true) := by
  refine ⟨?_, ?_, ?_, ?_, ?_, ?_⟩ <;> decide +kernel

/-! ### Witnesses of the event statements -/

/-- Witness for `PortEventsComplete`. -/
theorem meets_PortEventsComplete :
    ((Tab.look (withMuted.atTime 0).cmd.muted 0 = some 0 ∧ 0 ≤ (withMuted.atTime 0).now)) ∧ ((((withLong 242 [dramBase,
    1]).atTime 0).cmd.longOp = some bulkOp ∧ bulkOp.opcode ≠ 3585 ∧ ((withLong 242 [dramBase, 1]).atTime 0).longEnds bulkOp
    [] true = some bulkEnd)) ∧ ((((withLong 3585 []).atTime 0).cmd.longOp = some commitOp ∧ commitOp.opcode = 3585)) ∧
    (((withHeld.atTime 0).cmd.held = some held0 ∧ held0.kind = 0 ∧ held0.pkt.time + 10000000 ≤ (withHeld.atTime 0).now)) ∧
    ((((inPair psSTANDBY 0).atTime 0).cmd.held = none ∧ ((inPair psSTANDBY 0).atTime 0).pstate = psSTANDBY)) ∧ (((idle.atTime
    0).hspPowered = true ∧ (idle.atTime 0).omsPath 0 = true ∧ (idle.atTime 0).omsIgnored = false ∧ (idle.atTime 0).metaFull =
    false)) ∧ (((fullMeta.atTime 0).hspPowered = true ∧ (fullMeta.atTime 0).omsPath 0 = true ∧ (fullMeta.atTime 0).omsIgnored
    = false ∧ (fullMeta.atTime 0).metaFull = true)) ∧ (((inMode mSTANDBY).atTime 0).omsIgnored = true) ∧ (idle.answers 0 =
    true) ∧ (((idle.atTime 0).answers 0 = true ∧ ((idle.atTime 0).cmd.hspReply.isSome = false ∨ 0 < (replyRead (idle.atTime
    0).cmd.hspReply).length))) ∧ (((withReply.atTime 0).answers 0 = true ∧ (withReply.atTime 0).cmd.hspReply.isSome = true ∧
    (replyRead (withReply.atTime 0).cmd.hspReply).length ≤ 3)) ∧ (idle.answers 0 = true) ∧ ((((idle.setFlag Reg.CMD_CFG
    Fl.CMD_CFG_NET_A true).atTime 0).netPowered 0 = true ∧ ((idle.setFlag Reg.CMD_CFG Fl.CMD_CFG_NET_A true).atTime
    0).netEnabled 0 = true)) ∧ ((idle.atTime 0).twiTaken = false) ∧ ((idle.atTime 0).answers 2 = true) ∧ (((idle.setDom 2
    pRET).atTime 0).sys.porN = true ∧ ((idle.setDom 2 pRET).atTime 0).mode ≠ mHALT ∧ ((idle.setDom 2 pRET).atTime 0).mode ≠
    mSAFE ∧ (((idle.setDom 2 pRET).atTime 0).domState dCTRL = pRET ∨ ((idle.setDom 2 pRET).atTime 0).domState dCTRL = pOFF))
    ∧ ((idle.atTime 0).sys.porN = true ∧ (idle.atTime 0).mode ≠ mHALT ∧ (idle.atTime 0).mode ≠ mSAFE ∧ (idle.atTime
    0).domState dCTRL ≠ pRET ∧ (idle.atTime 0).domState dCTRL ≠ pOFF) ∧ ((((inMode mSAFE).atTime 0).mode = mSAFE ∧ ((inMode
    mSAFE).atTime 0).twiTaken = false)) := by
  refine ⟨by decide +kernel, by exact ⟨by decide +kernel, by decide +kernel, rfl⟩, ?_⟩
  iterate 15 refine ⟨by decide +kernel, ?_⟩
  decide +kernel

/-- Witness for `ModeEventsComplete`. -/
theorem meets_ModeEventsComplete :
    ((porLow.atTime 0).sys.porN = false) ∧ ((3 = 3 ∧ ((inMode mHALT).atTime 0).mode = mHALT ∨ 3 = 4 ∧ ((inMode mHALT).atTime
    0).mode = mSAFE ∨ (3 = 1 ∨ 3 = 2) ∧ ((inMode mHALT).atTime 0).mode ≠ mHALT ∧ ((inMode mHALT).atTime 0).mode ≠ mSAFE)) ∧
    (((bootGoes.atTime 0).mode = mBOOT ∧ (bootGoes.atTime 0).sys.porN = true ∧ (bootGoes.atTime 0).sys.firm.goPending =
    true)) ∧ (((bootHsp.atTime 0).mode = mBOOT ∧ (bootHsp.atTime 0).sys.porN = true ∧ (bootHsp.atTime 0).sys.firm.goPending =
    false ∧ (bootHsp.atTime 0).sys.firm.waitHsp = false ∧ (bootHsp.atTime 0).reapplyRepairs.sys.straps.bootSrc = 1)) ∧
    ((((bootNothing.atTime 0).mode = mBOOT ∧ (bootNothing.atTime 0).sys.porN = true ∧ (bootNothing.atTime
    0).sys.firm.goPending = false ∧ (bootNothing.atTime 0).sys.firm.waitHsp = false ∧ (bootNothing.atTime
    0).reapplyRepairs.sys.straps.bootSrc ≠ 1) ∧ (bootNothing.atTime 0).reapplyRepairs.bootFlash false = none)) ∧ ((((inMode
    mLOAD).atTime 0).mode = mLOAD ∧ ((inMode mLOAD).atTime 0).sys.refWait = false ∧ ((inMode mLOAD).atTime 0).sys.modeAt =
    none)) ∧ ((refWaits.atTime 0).refWaitOver = true) ∧ (((enteringRender.atTime 0).entryGoal = some 4 ∧ (4 = mRENDER ∨ 4 =
    mMEASURE) ∧ (enteringRender.atTime 0).mode ≠ mSTANDBY ∧ (enteringRender.atTime 0).sys.lastTick = some
    (enteringRender.atTime 0).sys.mediaTime ∧ (enteringRender.atTime 0).planePowered = true)) ∧ (((noCrystal.atTime
    0).safeCause 2 = true ∧ 1 ≤ 2 ∧ 2 ≤ 4 ∧ ∀ (d : Nat), 1 ≤ d → d < 2 → (noCrystal.atTime 0).safeCause d = false)) ∧ (1150 ≤
    1150) ∧ (((bootNothing.atTime 0).mode = mBOOT ∧ (bootNothing.atTime 0).sys.firm.goPending = false ∧ (bootNothing.atTime
    0).sys.firm.waitHsp = false ∧ ((bootNothing.atTime 0).newerSlot (bootNothing.atTime 0).bootable).isNone = true ∧
    ((bootNothing.atTime 0).sys.straps.bootSrc = 0 ∨ (bootNothing.atTime 0).sys.straps.bootSrc = 3))) ∧ ((((inMode
    mHALT).atTime 0).mode = mHALT ∧ ((inMode mHALT).atTime 0).sys.porN = true)) ∧ (((alarmed.atTime 0).mode = mHALT ∧
    (alarmed.atTime 0).sys.porN = true ∧ (alarmed.atTime 0).alarmDue = true ∧ (alarmed.atTime 0).flag Reg.PWR_CFG
    Fl.PWR_CFG_ALARM_EN = true)) ∧ (((haltPair.atTime 0).mode = mHALT ∧ (haltPair.atTime 0).sys.porN = true ∧
    (haltPair.atTime 0).paired = true)) ∧ (((idle.atTime 0).alarmDue = true ∧ (idle.atTime 0).mode ≠ mHALT)) ∧
    (((ctrlOut.atTime 0).cmd.ctrlDown = true ∧ (ctrlOut.atTime 0).mode ≠ mHALT ∧ (ctrlOut.atTime 0).mode ≠ mSAFE ∧
    (ctrlOut.atTime 0).sys.testEn = false)) ∧ ((idle.atTime 0).sys.testEn = false) ∧ ((testing.atTime 0).sys.testEn = true) ∧
    ((((idle.setDom 7 pWAKING).atTime 0).domState 7 = pWAKING ∧ ((idle.setDom 7 pWAKING).atTime 0).timed 7 = true)) ∧
    ((((inPair psRESYNC 1).atTime 0).pstate = psRESYNC ∧ ((inPair psRESYNC 1).atTime 0).rphase = 1)) := by
  iterate 4 refine ⟨by decide +kernel, ?_⟩
  refine ⟨by exact ⟨by decide +kernel,
    rfl⟩, by decide +kernel, by decide +kernel, by decide +kernel, by (refine ⟨(by decide +kernel), (by decide), (by decide), ?_⟩; intro d h1 h2; obtain rfl : d = 1 := (by omega); decide +kernel),
    ?_⟩
  iterate 10 refine ⟨by decide +kernel, ?_⟩
  decide +kernel

/-- Witness for `WatchdogResets`. -/
theorem meets_WatchdogResets :
    (((idle.atTime 0).coresRun = true ∧ ((idle.atTime 0).now :: List.filter (idle.atTime 0).within60 (idle.atTime
    0).sys.wdogTimes).length < 3)) ∧ (((wdogTwice.atTime 0).coresRun = true ∧ 3 ≤ ((wdogTwice.atTime 0).now :: List.filter
    (wdogTwice.atTime 0).within60 (wdogTwice.atTime 0).sys.wdogTimes).length)) := by
  refine ⟨?_, ?_⟩ <;> decide +kernel

/-- Witness for `TimeEventsComplete`. -/
theorem meets_TimeEventsComplete :
    ((idle.atTime 0).tickDue = true) ∧ ((((plane mRENDER 2).atTime 0).slot = ((plane mRENDER 2).atTime 0).out.judged + 2 ∧
    ((plane mRENDER 2).atTime 0).owns ((plane mRENDER 2).atTime 0).out.judged = true ∧ ((plane mRENDER 2).atTime 0).ownResult
    ((plane mRENDER 2).atTime 0).out.judged = false ∧ ((plane mRENDER 2).atTime 0).decidesAt ((plane mRENDER 2).atTime
    0).out.judged = true)) ∧ (((((plane mRENDER 0).atTime 0).mode = mRENDER ∨ ((plane mRENDER 0).atTime 0).mode = mMEASURE) ∧
    ((plane mRENDER 0).atTime 0).owns ((plane mRENDER 0).atTime 0).out.judged = true ∧ ((plane mRENDER 0).atTime
    0).sys.lastTick.isSome = true)) ∧ ((((fabAt 2).atTime 0).fab.folio = some 0 ∧ 0 + 2 ≤ ((fabAt 2).atTime 0).slot)) ∧
    ((withMsg.atTime 0).oms.rx = [omsMsg0]) ∧ (((withGlide.atTime 0).slotAt 0 = some slotG ∧ slotG.glide = some glide0 ∧
    glide0.first + glide0.len ≤ (withGlide.atTime 0).slot)) := by
  refine ⟨?_, ?_, ?_, ?_, ?_, ?_⟩ <;> decide +kernel

/-- Witness for `TicketEventsComplete`. -/
theorem meets_TicketEventsComplete :
    ((((running tkFAB 0 1).atTime 0).runningOn 0 [tkFAB] = some (placed tkFAB 0) ∧ ((((running tkFAB 0 1).atTime 0).count
    Reg.FAB_BANK_STALL 0).quireErrors []).fab.folio = some (placed tkFAB 0).tk.folio)) ∧ ((((fabAt 1).atTime 0).fab.folio =
    some 0 ∧ ((fabAt 1).atTime 0).allDone tkFAB 0 = true ∧ ((fabAt 1).atTime 0).slot = 0 + 1)) ∧ (((running tkHEAD 0
    1).atTime 0).runningOn 0 [tkHEAD] = some (placed tkHEAD 0)) ∧ (((running tkTAIL 0 1).atTime 0).runningOn 0 [tkTAIL] =
    some (placed tkTAIL 0)) ∧ ((((running tkPHA 0 1).atTime 0).runningOn 0 [tkPHA] = some (placed tkPHA 0) ∧ ((running tkPHA
    0 1).atTime 0).slot = (placed tkPHA 0).tk.folio + 1)) ∧ ((((running tkPHA 0 2).atTime 0).runningOn 0 [tkPHA] = some
    (placed tkPHA 0) ∧ ((running tkPHA 0 2).atTime 0).slot ≠ (placed tkPHA 0).tk.folio + 1)) ∧ ((((running tkPHB 0 1).atTime
    0).runningOn 0 [tkPHB] = some (placed tkPHB 0) ∧ ((running tkPHB 0 1).atTime 0).slot = (placed tkPHB 0).tk.folio + 1)) ∧
    ((((running tkPHB 0 2).atTime 0).runningOn 0 [tkPHB] = some (placed tkPHB 0) ∧ ((running tkPHB 0 2).atTime 0).slot ≠
    (placed tkPHB 0).tk.folio + 1)) ∧ ((((running tkMIX 1 1).atTime 0).runningOn 0 [tkMIX] = some (placed tkMIX 1) ∧ (placed
    tkMIX 1).tk.item ≠ 0)) ∧ ((((running tkMIX 0 1).atTime 0).runningOn 0 [tkMIX] = some (placed tkMIX 0) ∧ (placed tkMIX
    0).tk.item = 0)) ∧ (((running tkEGRESS 0 1).atTime 0).runningOn 0 [tkEGRESS] = some (placed tkEGRESS 0)) ∧ (((running
    tkMEAS 0 1).atTime 0).runningOn 0 [tkMEAS] = some (placed tkMEAS 0)) ∧ ((Tab.at (waitingGen.atTime 0).stbl.waiting []
    0).isEmpty = false) := by
  iterate 12 refine ⟨by decide +kernel, ?_⟩
  decide +kernel
/-- Witness for `CopiesComplete`. -/
theorem meets_CopiesComplete :
    ((Tab.look ((withCopy dramBase).atTime 0).stbl.dma 0 = some (copying dramBase) ∧ ((withCopy dramBase).atTime 0).copyClean
    (copying dramBase) (copying dramBase).len = true)) ∧ ((Tab.look ((withCopy 1879048192).atTime 0).stbl.dma 0 = some
    (copying 1879048192) ∧ ((withCopy 1879048192).atTime 0).copyFails (copying 1879048192) 0 false 1 = true)) := by
  refine ⟨?_, ?_⟩ <;> decide +kernel

/-- Witness for `TdmEventsComplete`. -/
theorem meets_TdmEventsComplete :
    ((15 < 16 ∧ ((port15.atTime 0).tdmRuns ((port15.atTime 0).tdmRxCfg 15) 15 = true ∨ (port15.atTime 0).tdmRuns
    ((port15.atTime 0).tdmTxCfg 15) 15 = true))) ∧ ((0 < 16 ∧ (idle.atTime 0).tdmRuns ((idle.atTime 0).tdmRxCfg 0) 0 = false
    ∧ (idle.atTime 0).tdmRuns ((idle.atTime 0).tdmTxCfg 0) 0 = false)) ∧ ((0 < 14 ∧ (port0.atTime 0).tdmRuns ((port0.atTime
    0).tdmRxCfg 0) 0 = true ∧ ((port0.atTime 0).tdmRxCfg 0).tdmMaster 0 = false ∧ ((port0.atTime 0).tdmPort 0).lost = false))
    ∧ ((((zcTx.atTime 0).tdmPort 0).tx = some dir0 ∧ Tab.look dir0.waits 0 = some wait0 ∧ wait0.since + dir0.zcFrames
    ((zcTx.atTime 0).tdmRate ((zcTx.atTime 0).tdmTxCfg 0) 0) ≤ ((zcTx.atTime 0).tdmPort 0).frame + 1)) ∧ ((((zcRx.atTime
    0).tdmPort 0).rx = some dir0 ∧ Tab.look dir0.waits 0 = some wait0 ∧ wait0.since + dir0.zcFrames ((zcRx.atTime 0).tdmRate
    ((zcRx.atTime 0).tdmRxCfg 0) 0) ≤ ((zcRx.atTime 0).tdmPort 0).frame + 1)) ∧ ((gated.atTime 0).gateOver 0 = true) := by
  refine ⟨?_, ?_, ?_, ?_, ?_, ?_⟩ <;> decide +kernel

/-- Witness for `MacEventsComplete`. -/
theorem meets_MacEventsComplete :
    (((macRx.atTime 0).macOn 0 = true ∧ (macRx.atTime 0).flag (Reg.MAC_CFG 0) Fl.MAC_CFG_RX_EN = true)) ∧ (((macRx.atTime
    0).macOn 0 = true ∧ (macRx.atTime 0).flag (Reg.MAC_CFG 0) Fl.MAC_CFG_RX_EN = true)) ∧ ((zeroBytes 0).length < 64 ∧
    ((macRx.atTime 0).macOn 0 = true ∧ (macRx.atTime 0).flag (Reg.MAC_CFG 0) Fl.MAC_CFG_RX_EN = true)) ∧ (64 ≤ (zeroBytes
    9300).length ∧ (((macRx.atTime 0).macOn 0 = true ∧ (macRx.atTime 0).flag (Reg.MAC_CFG 0) Fl.MAC_CFG_RX_EN = true) ∧ (((if
    0 = 2 then macRx.atTime 0 else ((macRx.atTime 0).macCount 0 12 0).macCount 0 13 0).bwBytes (48 + 2 * 0) (zeroBytes
    9300).length).macAt 0 (((if 0 = 2 then macRx.atTime 0 else ((macRx.atTime 0).macCount 0 12 0).macCount 0 13 0).bwBytes
    (48 + 2 * 0) (zeroBytes 9300).length).frameStart 0 (zeroBytes 9300).length)).maxLen < (zeroBytes 9300).length)) ∧ ((true
    = true ∨ ¬crc32 (List.take ((zeroBytes 64).length - 4) (zeroBytes 64)) = u32 (zeroBytes 64) ((zeroBytes 64).length - 4))
    ∧ (((macRx.atTime 0).macOn 0 = true ∧ (macRx.atTime 0).flag (Reg.MAC_CFG 0) Fl.MAC_CFG_RX_EN = true) ∧ 64 ≤ (zeroBytes
    64).length ∧ (zeroBytes 64).length ≤ (((if 0 = 2 then macRx.atTime 0 else ((macRx.atTime 0).macCount 0 12 0).macCount 0
    13 0).bwBytes (48 + 2 * 0) (zeroBytes 64).length).macAt 0 (((if 0 = 2 then macRx.atTime 0 else ((macRx.atTime 0).macCount
    0 12 0).macCount 0 13 0).bwBytes (48 + 2 * 0) (zeroBytes 64).length).frameStart 0 (zeroBytes 64).length)).maxLen)) ∧
    (crc32 (List.take (pauseFrame.length - 4) pauseFrame) = u32 pauseFrame (pauseFrame.length - 4) ∧ (frameHead
    pauseFrame).etype = 34824 ∧ (((macRx.atTime 0).macOn 0 = true ∧ (macRx.atTime 0).flag (Reg.MAC_CFG 0) Fl.MAC_CFG_RX_EN =
    true) ∧ 64 ≤ pauseFrame.length ∧ pauseFrame.length ≤ (((if 0 = 2 then macRx.atTime 0 else ((macRx.atTime 0).macCount 0 12
    0).macCount 0 13 0).bwBytes (48 + 2 * 0) pauseFrame.length).macAt 0 (((if 0 = 2 then macRx.atTime 0 else ((macRx.atTime
    0).macCount 0 12 0).macCount 0 13 0).bwBytes (48 + 2 * 0) pauseFrame.length).frameStart 0 pauseFrame.length)).maxLen)) ∧
    (crc32 (List.take (frame64.length - 4) frame64) = u32 frame64 (frame64.length - 4) ∧ (frameHead frame64).etype ≠ 34824 ∧
    ((((macRule.atTime 0).macOn 0 = true ∧ (macRule.atTime 0).flag (Reg.MAC_CFG 0) Fl.MAC_CFG_RX_EN = true) ∧ 64 ≤
    frame64.length ∧ frame64.length ≤ (((if 0 = 2 then macRule.atTime 0 else ((macRule.atTime 0).macCount 0 12 0).macCount 0
    13 0).bwBytes (48 + 2 * 0) frame64.length).macAt 0 (((if 0 = 2 then macRule.atTime 0 else ((macRule.atTime 0).macCount 0
    12 0).macCount 0 13 0).bwBytes (48 + 2 * 0) frame64.length).frameStart 0 frame64.length)).maxLen) ∧ ((if 0 = 2 then
    macRule.atTime 0 else ((macRule.atTime 0).macCount 0 12 0).macCount 0 13 0).bwBytes (48 + 2 * 0) frame64.length).ruleFor
    0 (((if 0 = 2 then macRule.atTime 0 else ((macRule.atTime 0).macCount 0 12 0).macCount 0 13 0).bwBytes (48 + 2 * 0)
    frame64.length).macAt 0 (((if 0 = 2 then macRule.atTime 0 else ((macRule.atTime 0).macCount 0 12 0).macCount 0 13
    0).bwBytes (48 + 2 * 0) frame64.length).frameStart 0 frame64.length)).rules frame64 = some (0, nth (macRule.macNow
    0).rules 0 []))) ∧ (crc32 (List.take (frame64.length - 4) frame64) = u32 frame64 (frame64.length - 4) ∧ (frameHead
    frame64).etype ≠ 34824 ∧ ((((macRx.atTime 0).macOn 0 = true ∧ (macRx.atTime 0).flag (Reg.MAC_CFG 0) Fl.MAC_CFG_RX_EN =
    true) ∧ 64 ≤ frame64.length ∧ frame64.length ≤ (((if 0 = 2 then macRx.atTime 0 else ((macRx.atTime 0).macCount 0 12
    0).macCount 0 13 0).bwBytes (48 + 2 * 0) frame64.length).macAt 0 (((if 0 = 2 then macRx.atTime 0 else ((macRx.atTime
    0).macCount 0 12 0).macCount 0 13 0).bwBytes (48 + 2 * 0) frame64.length).frameStart 0 frame64.length)).maxLen) ∧ ((if 0
    = 2 then macRx.atTime 0 else ((macRx.atTime 0).macCount 0 12 0).macCount 0 13 0).bwBytes (48 + 2 * 0)
    frame64.length).ruleFor 0 (((if 0 = 2 then macRx.atTime 0 else ((macRx.atTime 0).macCount 0 12 0).macCount 0 13
    0).bwBytes (48 + 2 * 0) frame64.length).macAt 0 (((if 0 = 2 then macRx.atTime 0 else ((macRx.atTime 0).macCount 0 12
    0).macCount 0 13 0).bwBytes (48 + 2 * 0) frame64.length).frameStart 0 frame64.length)).rules frame64 = none)) ∧
    ((idle.atTime 0).macPaused 0 = false) ∧ (((macTx.atTime 0).macSettle 0).macOn 0 = true ∧ ((macTx.atTime 0).macSettle
    0).flag (Reg.MAC_CFG 0) Fl.MAC_CFG_TX_EN = true ∧ ((macTx.atTime 0).macSettle 0).mac.backoff.contains 0 = false ∧
    Tab.look ((macTx.atTime 0).macSettle 0).mac.sending 0 = none ∧ List.find? (fun q => ((macTx.atTime 0).macSettle
    0).txReady 0 q || !((macTx.atTime 0).macSettle 0).macUp 0 && ((macTx.atTime 0).macSettle 0).txHead 0 q) (List.range
    (macTxQueues 0)) = some 0 ∧ Tab.at ((macTx.atTime 0).macSettle 0).mac.txq [] (8 * 0 + 0) = [tx0]) ∧ (Tab.look
    (((colliding 0).atTime 0).macSettle 2).mac.sending 2 = some (sent0 0) ∧ (((colliding 0).atTime 0).macSettle 2).macHalf 2
    = true ∧ (sent0 0).endAt.isSome = true) ∧ ((idle.atTime 0).macOn 2 = true) ∧ (0 ≠ 2 ∧ (idle.atTime 0).macOn 0 = true) ∧
    ((mdioBusy.atTime 0).flag (Reg.MAC_MDIO 2) Fl.MAC_MDIO_GO = true) := by
  iterate 13 refine ⟨by decide +kernel, ?_⟩
  decide +kernel
/-- Witness for `StreamEventsComplete`. -/
theorem meets_StreamEventsComplete :
    (0 < 2 ∧ (List.find? (fun q => !(Tab.at (macQueued.atTime 0).mac.rxq [] (32 * 0 + 8 + q)).isEmpty) (List.range 24) = some
    0 ∧ Tab.at (macQueued.atTime 0).mac.rxq [] (32 * 0 + 8 + 0) = [rx0])) ∧ ((((sending0.atTime 0).mode ∈ if (sending0.atTime
    0).holds = true then [mIDLE, mRENDER, mMEASURE] else [mSTANDBY, mRESYNC]) ∧ Tab.look (sending0.atTime 0).strm.tx 0 = some
    txs0 ∧ txs0.at' (0 / (sending0.atTime 0).folioLen - 2) = some txc0 ∧ txc0.size ≠ 0 ∧ 0 % txc0.size = 0)) ∧ (0 < 2 ∧
    (Tab.look (silentLeg.atTime 0).strm.rx 0 = some rxs0 ∧ (rxs0.cfg.leg 0).on = true ∧ (rxs0.leg 0).active = true ∧ max
    (1000000 * (silentLeg.atTime 0).fs) (4 * rxs0.cfg.size * 1000000000) ≤ ((silentLeg.atTime 0).now - (rxs0.leg 0).last) *
    (silentLeg.atTime 0).fs)) := by
  refine ⟨?_, ?_, ?_⟩ <;> decide +kernel

/-- Witness for `ClockEventsComplete`. -/
theorem meets_ClockEventsComplete :
    ((idle.atTime 0).aonClocked = true) ∧ ((refHeld.atTime 10000000000).aonClocked = true ∧ 1 < 5 ∧ (refHeld.atTime
    10000000000).refActive 1 = true ∧ (Tab.at (refHeld.atTime 10000000000).clk.edgeAt 0 1 + (refHeld.atTime
    10000000000).lossNs 1 ≤ 10000000000 ∨ 1 = 4 ∧ (refHeld.atTime 10000000000).linkUp = false)) ∧ ((idle.atTime 0).aonClocked
    = true ∧ (idle.atTime 0).flag Reg.CLK_STAT Fl.CLK_STAT_XO_FAIL = false) ∧ ((idle.atTime 0).aonClocked = true) ∧
    ((idle.atTime 0).flag Reg.CLK_STAT Fl.CLK_STAT_XO_FAIL = false) := by
  refine ⟨?_, ?_, ?_, ?_, ?_⟩ <;> decide +kernel

/-- Witness for `TimeProtocolEventsComplete`. -/
theorem meets_TimeProtocolEventsComplete :
    (((ptpIdle.atTime 0).ptpOn = true ∧ (ptpIdle.atTime 0).ptpBad head0 = false) ∧ Option.map (fun x => x.src)
    (ptpIdle.atTime 0).ptp.master = some head0.src ∧ (ptpIdle.atTime 0).ptp.syncSeq ≠ some head0.seq) ∧ ((((ptpTwo.atTime
    0).ptpOn = true ∧ (ptpTwo.atTime 0).ptpBad head0 = false) ∧ (ptpTwo.atTime 0).ptp.twoStep = some (head0.seq, 0, 0) ∧
    Option.map (fun x => x.src) (ptpTwo.atTime 0).ptp.master = some head0.src)) ∧ (((((ptpAsks 3).atTime 0).ptpOn = true ∧
    ((ptpAsks 3).atTime 0).ptpBad head0 = false) ∧ ((ptpAsks 3).atTime 0).ptp.req = some (head0.seq, 0) ∧ ((ptpAsks 3).atTime
    0).profile = 3)) ∧ (((((ptpAsks 0).atTime 0).ptpOn = true ∧ ((ptpAsks 0).atTime 0).ptpBad head0 = false) ∧ ((ptpAsks
    0).atTime 0).ptp.req = some (head0.seq, 0) ∧ ((ptpAsks 0).atTime 0).profile ≠ 3 ∧ ((ptpAsks 0).atTime 0).ptp.lastSync =
    some (0, 0))) ∧ (((ptpIdle.atTime 0).ptpOn = true ∧ (ptpIdle.atTime 0).ptpBad head0 = false)) ∧ ((ptpQuiet.atTime
    1000000000000000).ptp.master = some ann0 ∧ (ptpQuiet.atTime 1000000000000000).ptpOn = true ∧ (Option.map (fun x =>
    x.heard) (Tab.look (ptpQuiet.atTime 1000000000000000).ptp.foreign ann0.src)).getD 0 + (ptpQuiet.atTime
    1000000000000000).fld Reg.PTP_INTV Fl.PTP_INTV_ANN_TIMEOUT * (ptpQuiet.atTime 1000000000000000).ptpNs
    Fl.PTP_INTV_ANNOUNCE ≤ 1000000000000000) ∧ (((ptpIdle.atTime 0).ptpOn = true ∧ ((ptpIdle.atTime 0).profile = 3 ∨
    (ptpIdle.atTime 0).ptp.master.isSome = true))) ∧ (((ptpMaster.atTime 0).ptpOn = true ∧ (ptpMaster.atTime 0).fld
    Reg.PTP_STAT Fl.PTP_STAT_PORT_STATE = 6)) := by
  iterate 7 refine ⟨by decide +kernel, ?_⟩
  decide +kernel
/-- Witness for `PairEventsComplete`. -/
theorem meets_PairEventsComplete :
    ((mayTake.atTime 0).mayClaim = true) ∧ (((holding.atTime 0).paired = true ∧ (holding.atTime 0).holds = true ∧
    (holding.atTime 0).quiet 1000 = true)) ∧ ((3 = 3 ∨ 3 = 4)) ∧ ((((slowPlane.atTime 0).mode = mRENDER ∨ (slowPlane.atTime
    0).mode = mMEASURE) ∧ (slowPlane.atTime 0).dp.tickNow * (slowPlane.atTime 0).fs * 2 + 3 * (slowPlane.atTime 0).folioLen *
    1000000000 ≤ (slowPlane.atTime 0).now * (slowPlane.atTime 0).fs * 2)) ∧ (Instr.mirror tframe true ∈ [Instr.mirror tframe
    true, Instr.sched tframe true, Instr.cmdlog tframe true, Instr.snap tframe true, Instr.digest tframe true, Instr.control
    tframe true, Instr.forward tframe true] ∧ ((linked.atTime 0).paired = true ∧ (linked.atTime 0).linkUp = true)) ∧
    ((((linked.atTime 0).paired = true ∧ (linked.atTime 0).linkUp = true) ∧ tframe.seq < 2 ^ 32 ∧ tframe.seq = (linked.atTime
    0).pair.rxSeq)) ∧ ((((linked.atTime 0).paired = true ∧ (linked.atTime 0).linkUp = true) ∧ tframe.seq < 2 ^ 32 ∧
    tframe.seq = (linked.atTime 0).pair.rxSeq)) ∧ ((((linked.atTime 0).paired = true ∧ (linked.atTime 0).linkUp = true) ∧
    tframe.seq < 2 ^ 32 ∧ tframe.seq = (linked.atTime 0).pair.rxSeq)) ∧ ((((linked.atTime 0).paired = true ∧ (linked.atTime
    0).linkUp = true) ∧ tframe.seq < 2 ^ 32 ∧ tframe.seq = (linked.atTime 0).pair.rxSeq)) ∧ ((((linked.atTime 0).paired =
    true ∧ (linked.atTime 0).linkUp = true) ∧ tframe.seq < 2 ^ 32 ∧ tframe.seq = (linked.atTime 0).pair.rxSeq)) ∧
    ((((linked.atTime 0).paired = true ∧ (linked.atTime 0).linkUp = true) ∧ tframe.seq < 2 ^ 32 ∧ tframe.seq = (linked.atTime
    0).pair.rxSeq)) ∧ ((((linked.atTime 0).paired = true ∧ (linked.atTime 0).linkUp = true) ∧ tframe.seq < 2 ^ 32 ∧
    tframe.seq = (linked.atTime 0).pair.rxSeq)) ∧ ((linked.atTime 0).paired = true ∧ (linked.atTime 0).linkUp = true ∧
    (linked.atTime 0).aonClocked = true) ∧ (((atNs linked 1000000).atTime 0).pair.lastRx + 100000 ≤ ((atNs linked
    1000000).atTime 0).now) ∧ (((unlinked.atTime 0).paired = true ∧ (unlinked.atTime 0).linkUp = false)) ∧ (0 < 2 ∧
    ((linked.atTime 0).paired = true ∧ (linked.atTime 0).linkUp = true)) ∧ (((((inPair psRESYNC 2).atTime 0).pstate =
    psRESYNC ∧ ((inPair psRESYNC 2).atTime 0).rphase = 2) ∧ ¬(16 ≤ ((inPair psRESYNC 2).atTime 0).fld Reg.TTH_RESYNC_STAT
    Fl.TTH_RESYNC_STAT_PASS + 1 ∧ ((((inPair psRESYNC 2).atTime 0).setFld Reg.TTH_RESYNC_STAT Fl.TTH_RESYNC_STAT_PASS
    (((inPair psRESYNC 2).atTime 0).fld Reg.TTH_RESYNC_STAT Fl.TTH_RESYNC_STAT_PASS + 1)).setFld Reg.TTH_RESYNC_STAT
    Fl.TTH_RESYNC_STAT_DIRTY_KB (min 0 65535)).fld Reg.TTH_CFG Fl.TTH_CFG_CUT_KB < 0))) ∧ ((((resyncing.atTime 0).pstate =
    psRESYNC ∧ (resyncing.atTime 0).rphase = 2) ∧ 16 ≤ (resyncing.atTime 0).fld Reg.TTH_RESYNC_STAT Fl.TTH_RESYNC_STAT_PASS +
    1 ∧ (((resyncing.atTime 0).setFld Reg.TTH_RESYNC_STAT Fl.TTH_RESYNC_STAT_PASS ((resyncing.atTime 0).fld
    Reg.TTH_RESYNC_STAT Fl.TTH_RESYNC_STAT_PASS + 1)).setFld Reg.TTH_RESYNC_STAT Fl.TTH_RESYNC_STAT_DIRTY_KB (min 1000000
    65535)).fld Reg.TTH_CFG Fl.TTH_CFG_CUT_KB < 1000000)) ∧ (((serving.atTime 0).servesResync = true ∧ ¬((serving.atTime
    0).pstate = psRESYNC ∧ (serving.atTime 0).rphase = 2) ∧ ¬(16 ≤ ((serving.atTime 0).sendPages []).fld Reg.TTH_RESYNC_STAT
    Fl.TTH_RESYNC_STAT_PASS + 1 ∧ ((((serving.atTime 0).sendPages []).setFld Reg.TTH_RESYNC_STAT Fl.TTH_RESYNC_STAT_PASS
    (((serving.atTime 0).sendPages []).fld Reg.TTH_RESYNC_STAT Fl.TTH_RESYNC_STAT_PASS + 1)).setFld Reg.TTH_RESYNC_STAT
    Fl.TTH_RESYNC_STAT_DIRTY_KB (min 0 65535)).fld Reg.TTH_CFG Fl.TTH_CFG_CUT_KB < 0))) ∧ ((serving.atTime 0).servesResync =
    true) ∧ ((((inPair psRESYNC 2).atTime 0).servesResync = false ∧ ((inPair psRESYNC 2).atTime 0).pstate = psRESYNC ∧
    ((inPair psRESYNC 2).atTime 0).rphase = 2)) ∧ (((inPair psRESYNC 1).atTime 0).pstate = psRESYNC) ∧ ((idle.atTime
    0).pstate ≠ psRESYNC) ∧ ((((turning false).atTime 0).pair.turn = some (0, false) ∧ ((turning false).atTime
    0).pair.granted = true ∧ 0 + 2 ≤ ((turning false).atTime 0).slot)) ∧ ((((turning true).atTime 0).pair.turn = some (0,
    true) ∧ ((turning true).atTime 0).pair.granted = true ∧ 0 + 2 ≤ ((turning true).atTime 0).slot)) ∧ ((((atNs linked
    1000000).atTime 0).paired = true ∧ ((atNs linked 1000000).atTime 0).linkUp = true ∧ ((atNs linked 1000000).atTime
    0).pair.ctlSent + 10000 ≤ ((atNs linked 1000000).atTime 0).now)) ∧ ((∀ (c : Nat), (idle.atTime 0).pair.lastCtl = some c →
    c + 50000 < (idle.atTime 0).now)) := by
  iterate 4 refine ⟨by decide +kernel, ?_⟩
  refine ⟨by exact ⟨List.mem_cons_self, by decide +kernel⟩, ?_⟩
  iterate 21 refine ⟨by decide +kernel, ?_⟩
  decide +kernel

/-- Witness for `PowerEventsComplete`. -/
theorem meets_PowerEventsComplete :
    ((((autoRet 7).atTime 0).timed 7 = true ∧ ((autoRet 7).atTime 0).domState 7 = pON ∧ ((autoRet 7).atTime 0).flag
    (Reg.PWR_DOM_CFG 7) Fl.PWR_DOM_CFG_AUTO_RET = true ∧ ((autoRet 7).atTime 0).idle 7 = true ∧ Tab.at ((autoRet 7).atTime
    0).pwr.retLim (max 10 (((autoRet 7).atTime 0).fld (Reg.PWR_DOM_CFG 7) Fl.PWR_DOM_CFG_RET_US)) 7 * 1000 ≤ ((autoRet
    7).atTime 0).now - Tab.at ((autoRet 7).atTime 0).pwr.active 0 7)) ∧ ((((autoRet 7).atTime 0).timed 7 = true ∧ ((autoRet
    7).atTime 0).domState 7 = pON ∧ ((autoRet 7).atTime 0).flag (Reg.PWR_DOM_CFG 7) Fl.PWR_DOM_CFG_AUTO_RET = true ∧
    ((autoRet 7).atTime 0).idle 7 = true ∧ Tab.at ((autoRet 7).atTime 0).pwr.retLim (max 10 (((autoRet 7).atTime 0).fld
    (Reg.PWR_DOM_CFG 7) Fl.PWR_DOM_CFG_RET_US)) 7 * 1000 ≤ ((autoRet 7).atTime 0).now - Tab.at ((autoRet 7).atTime
    0).pwr.active 0 7) ∧ 7 ≠ dDRAM) ∧ ((((autoRet 16).atTime 0).timed dDRAM = true ∧ ((autoRet 16).atTime 0).domState dDRAM =
    pON ∧ ((autoRet 16).atTime 0).flag (Reg.PWR_DOM_CFG dDRAM) Fl.PWR_DOM_CFG_AUTO_RET = true ∧ ((autoRet 16).atTime 0).idle
    dDRAM = true ∧ Tab.at ((autoRet 16).atTime 0).pwr.retLim (max 10 (((autoRet 16).atTime 0).fld (Reg.PWR_DOM_CFG dDRAM)
    Fl.PWR_DOM_CFG_RET_US)) dDRAM * 1000 ≤ ((autoRet 16).atTime 0).now - Tab.at ((autoRet 16).atTime 0).pwr.active 0 dDRAM))
    ∧ (((autoOff.atTime 0).timed 7 = true ∧ 7 ≠ dCTRL ∧ 7 ≠ dDRAM ∧ (autoOff.atTime 0).domState 7 = pRET ∧ (autoOff.atTime
    0).flag (Reg.PWR_DOM_CFG 7) Fl.PWR_DOM_CFG_AUTO_OFF = true ∧ (autoOff.atTime 0).locked 7 = false ∧ (autoOff.atTime
    0).planeHolds 7 = false ∧ Tab.at (autoOff.atTime 0).pwr.offLim (max 1 ((autoOff.atTime 0).fld (Reg.PWR_DOM_OFFT 7)
    Fl.PWR_DOM_OFFT_OFF_MS)) 7 * 1000000 ≤ (autoOff.atTime 0).now - Tab.at (autoOff.atTime 0).pwr.retAt 0 7)) ∧ (2 ≤ 2 ∧
    ((idle.atTime 0).mode ≠ mSAFE ∧ (idle.atTime 0).mode ≠ mHALT)) ∧ (((idle.atTime 0).mode ≠ mSAFE ∧ (idle.atTime 0).mode ≠
    mHALT)) ∧ (((((queued 1).atTime 0).mode ≠ mSAFE ∧ ((queued 1).atTime 0).mode ≠ mHALT) ∧ (0, [wakeTicket 1]) ∈ ((queued
    1).atTime 0).stbl.queues ∧ wakeTicket 1 ∈ [wakeTicket 1] ∧ ((queued 1).atTime 0).eligible (wakeTicket 1) = true ∧
    (wakeTicket 1).eng ≠ 255 ∧ engineDomain (wakeTicket 1).eng = 7)) ∧ ((((((queued 255).setDom 7 pRET).atTime 0).mode ≠
    mSAFE ∧ (((queued 255).setDom 7 pRET).atTime 0).mode ≠ mHALT) ∧ (0, [wakeTicket 255]) ∈ (((queued 255).setDom 7
    pRET).atTime 0).stbl.queues ∧ wakeTicket 255 ∈ [wakeTicket 255] ∧ (((queued 255).setDom 7 pRET).atTime 0).eligible
    (wakeTicket 255) = true ∧ (wakeTicket 255).eng = 255 ∧ (((queued 255).setDom 7 pRET).atTime 0).classFull (wakeTicket
    255).cls = true ∧ 1 ∈ classEngines (wakeTicket 255).cls ∧ engineDomain 1 = 7 ∧ enginePresent (((queued 255).setDom 7
    pRET).atTime 0).otp.grade 1 = true)) ∧ (((draining.atTime 0).pwr.drain = some drain0 ∧ max 10 ((draining.atTime 0).fld
    Reg.PWR_CFG Fl.PWR_CFG_DRAIN_TIMEOUT) * 1000 ≤ (draining.atTime 0).now - drain0.since)) := by
  iterate 8 refine ⟨by decide +kernel, ?_⟩
  decide +kernel
/-- Witness for `SpineEventsComplete`. -/
theorem meets_SpineEventsComplete :
    (((idle.atTime 0).portOpen (req 4 false).master = true ∧ (req 4 false).cont = false ∧ burstOk (req 4 false) = true)) ∧
    (((idle.atTime 0).portOpen (req 4 true).master = true ∧ (req 4 true).cont = true)) ∧ ((idle.atTime 0).portOpen (req 0
    false).master = true ∧ (req 0 false).cont = false ∧ burstOk (req 0 false) = false) ∧ ((drainingPort.atTime 0).flag
    (Reg.SPN_MST_STAT 0) Fl.SPN_MST_STAT_DRAIN = true) ∧ (((idle.atTime 0).portOpen 0 = true ∧ burstOk (aliasReq 0 (536870912
    + 0 % 2 ^ 29) (zeroBytes 4) []) = true)) ∧ (((idle.atTime 0).portOpen 0 = true ∧ burstOk (aliasReq 0 (1610612736 + 0 % 2
    ^ 29) (zeroBytes 4) []) = true)) := by
  refine ⟨?_, ?_, ?_, ?_, ?_, ?_⟩ <;> decide +kernel

/-- Witness for `MemoryEventsComplete`. -/
theorem meets_MemoryEventsComplete :
    (((idle.atTime 0).groomOn = true ∧ (idle.atTime 0).memc.retryAt = none)) ∧ ((((grooming.atTime 0).groomOn = true ∧ ∀ (r :
    Nat), (grooming.atTime 0).memc.retryAt = some r → r ≤ (grooming.atTime 0).now) ∧ max 1 (((grooming.atTime 0).bump
    Reg.MEM_GRM_ABORT).fld Reg.MEM_GRM_CFG Fl.MEM_GRM_CFG_MAX_ABORT) ≤ (grooming.atTime 0).memc.aborts + 1)) ∧
    ((((idle.atTime 0).groomOn = true ∧ ∀ (r : Nat), (idle.atTime 0).memc.retryAt = some r → r ≤ (idle.atTime 0).now) ∧
    (idle.atTime 0).memc.aborts + 1 < max 1 (((idle.atTime 0).bump Reg.MEM_GRM_ABORT).fld Reg.MEM_GRM_CFG
    Fl.MEM_GRM_CFG_MAX_ABORT))) ∧ (((grooming.atTime 0).memc.retryAt = some 0 ∧ (grooming.atTime 0).groomOn = true ∧ 0 ≤
    (grooming.atTime 0).now)) ∧ ((List.find? (fun e => e.fst == 0 && e.snd.fst == 0) (rowListed.atTime 0).memc.list = some
    (0, 0, 0) ∧ (rowListed.atTime 0).flag Reg.MEM_CFG Fl.MEM_CFG_AUTO_REPAIR = true)) ∧ (((rowWeak.atTime 0).flag Reg.DMC_CFG
    Fl.DMC_CFG_AUTO_RETIRE = true ∧ (0, 0, 0) ∈ (rowWeak.atTime 0).dmc.list)) ∧ ((((bankBusy.atTime 0).dramPowered = true ∧
    (bankBusy.atTime 0).flag Reg.DMC_STAT Fl.DMC_STAT_SELF_REF = false) ∧ ((bankBusy.atTime 0).spn.txns.any fun x => x.target
    == 10 + 0 && (dramLoc (x.addr - dramBase)).bank == 0) = true ∧ Tab.at (bankBusy.atTime 0).dmc.postponed 0 (16 * 0 + 0) <
    8)) ∧ ((((idle.atTime 0).dramPowered = true ∧ (idle.atTime 0).flag Reg.DMC_STAT Fl.DMC_STAT_SELF_REF = false) ∧
    (((idle.atTime 0).spn.txns.any fun x => x.target == 10 + 0 && (dramLoc (x.addr - dramBase)).bank == 0) = false ∨ 8 ≤
    Tab.at (idle.atTime 0).dmc.postponed 0 (16 * 0 + 0)))) ∧ ((((idle.setDom 16 pENTER).atTime 0).domState dDRAM = pENTER ∧
    ((idle.setDom 16 pENTER).atTime 0).spineBusy dDRAM = false)) ∧ (((idle.setDom 16 pENTER).atTime 0).domState dDRAM =
    pENTER) ∧ ((selfRef.atTime 0).flag Reg.DMC_STAT Fl.DMC_STAT_SELF_REF = true) ∧ (0 < 2 ∧ ((idle.atTime 0).dramPowered =
    true ∧ (idle.atTime 0).flag Reg.DMC_STAT Fl.DMC_STAT_SELF_REF = false)) ∧ (2 ≤ 2 ∧ ((idle.atTime 0).dramPowered = true ∧
    (idle.atTime 0).flag Reg.DMC_STAT Fl.DMC_STAT_SELF_REF = false)) ∧ (0 ≤ 85 ∧ ((idle.atTime 0).dramPowered = true ∧
    ¬((idle.atTime 0).dmc.thermDrop = true ∧ (idle.atTime 0).dmc.coolSince.getD (idle.atTime 0).now + 10000000000 ≤
    (idle.atTime 0).now))) ∧ (85 ≤ 85 ∧ ((cooled.atTime 0).dramPowered = true ∧ (cooled.atTime 0).dmc.thermDrop = true ∧
    (cooled.atTime 0).dmc.coolSince.getD (cooled.atTime 0).now + 10000000000 ≤ (cooled.atTime 0).now)) ∧ (1 ≤ 1 ∧ 1 ≤ 3 ∧
    (idle.atTime 0).dramPowered = true) := by
  iterate 15 refine ⟨by decide +kernel, ?_⟩
  decide +kernel
/-- Witness for `SoundEventsComplete`. -/
theorem meets_SoundEventsComplete :
    (((probing.atTime 0).mode = mRENDER ∧ (probing.atTime 0).emiCfg.flag Reg.MEAS_PRB_CFG Fl.MEAS_PRB_CFG_EN = true ∧
    (probing.atTime 0).emiCfg.prbPeriod ≠ 0 ∧ 0 % (probing.atTime 0).emiCfg.prbPeriod = 0)) ∧ (16 ≤ 16 ∧ 16 < 20 ∧
    ((trimming.atTime 0).autotrim 0 = true ∧ bitsN ((trimming.atTime 0).rd (Reg.MEAS_HEALTH (0 / 16))) (2 * (0 % 16) + 1) (2
    * (0 % 16)) ≠ 0 ∧ bitsN ((trimming.atTime 0).rd (Reg.MEAS_HEALTH (0 / 16))) (2 * (0 % 16) + 1) (2 * (0 % 16)) ≠ 3 ∧ ∀ (t0
    : Nat), (Tab.at (trimming.atTime 0).meas.trim { gain := 0, stepped := none } (4 * 0 + (16 - 16))).stepped = some t0 →
    30000000000 ≤ (trimming.atTime 0).now - t0)) ∧ ((quietOut.atTime 0).silDue 0 = true) ∧ (0 ≠ 3 ∧ ((quietBus.atTime 0).flag
    (Reg.MIX_BUS_CFG 0 0) Fl.MIX_BUS_CFG_SIL_EN = true ∧ (Tab.at ((quietBus.atTime 0).mixDom 0).sil BusSil.init 0).silent =
    false ∧ (quietBus.atTime 0).fld Reg.MIX_SIL_CFG Fl.MIX_SIL_CFG_HOLD * (quietBus.atTime 0).domRate 0 ≤ (Tab.at
    ((quietBus.atTime 0).mixDom 0).sil BusSil.init 0).run)) ∧ (((d1Refs.atTime 0).capCfg.fld Reg.MIX_DOM_CFG
    Fl.MIX_DOM_CFG_D1_REF < 2 ∧ (d1Refs.atTime 0).mix.d1Hold = false)) ∧ (0 < 64 ∧ (bridging.atTime 0).bridgeFree
    (bridging.atTime 0).capCfg 0 = true) ∧ (((idle.atTime 0).wr Reg.MIX_D1_RATIO 0).d2Lock = true) ∧ ((((idle.setFlag
    Reg.MIX_DOM_STAT Fl.MIX_DOM_STAT_D2_LOCK false).atTime 0).wr Reg.MIX_D1_RATIO 0).d2Lock = false) := by
  refine
    ⟨by decide +kernel, by (refine ⟨(by decide), (by decide), (by decide +kernel), (by decide +kernel), (by decide +kernel), ?_⟩; intro t0 h; cases h),
    ?_⟩
  iterate 5 refine ⟨by decide +kernel, ?_⟩
  decide +kernel

/-- Witness for `CounterEventsComplete`. -/
theorem meets_CounterEventsComplete :
    (((pinEn.atTime 0).aonClocked = true ∧ (pinEn.atTime 0).flag Reg.PMC_CFG Fl.PMC_CFG_PIN_EN = true)) ∧ (((matching.atTime
    0).aonClocked = true ∧ (matching.atTime 0).flag Reg.PMC_CFG Fl.PMC_CFG_MATCH_EN = true ∧ (matching.atTime 0).pmcMatchNs ≤
    (matching.atTime 0).localNs)) ∧ (((windowed.atTime 0).aonClocked = true ∧ (windowed.atTime 0).flag Reg.PMC_BW_CFG
    Fl.PMC_BW_CFG_EN = true ∧ (windowed.atTime 0).pmc.winAt + max 1 ((windowed.atTime 0).fld Reg.PMC_BW_CFG
    Fl.PMC_BW_CFG_WIN_US) * 1000 ≤ (windowed.atTime 0).now)) := by
  refine ⟨?_, ?_, ?_⟩ <;> decide +kernel

/-- Witness for `RegisterAccessesComplete`. -/
theorem meets_RegisterAccessesComplete :
    (0 < 3) ∧ (Nat.testBit 2147483648 31 = true ∧ (idle.atTime 0).flag (Reg.MAC_MDIO 2) Fl.MAC_MDIO_GO = false) ∧ (0 < 16 ∧
    ((idle.atTime 0).aonClocked = true ∧ ((idle.atTime 0).rd Reg.GPIO_IN).testBit 0 ≠ true)) ∧ (((locked.atTime
    0).challengeOn = true ∧ (locked.atTime 0).jtagFails < 8)) ∧ (((lockedOut.atTime 0).challengeOn = true ∧ 8 ≤
    (lockedOut.atTime 0).jtagFails)) ∧ (((challenged.atTime 0).challengeOn = true ∧ (challenged.atTime 0).sys.jtagChal = some
    (zeroBytes 40) ∧ (challenged.atTime 0).responseOk jtagResp (zeroBytes 40) = true)) ∧ (((locked.atTime 0).challengeOn =
    true ∧ ∀ (c : List Byte), (locked.atTime 0).sys.jtagChal = some c → (locked.atTime 0).responseOk [] c = false)) := by
  iterate 6 refine ⟨by decide +kernel, ?_⟩
  (refine ⟨(by decide +kernel), ?_⟩; intro c h; cases h)

/-- Witness for `RegisterBusCompletes`. -/
theorem meets_RegisterBusCompletes :
    (((blockOf 1073741824).isSome = true ∧ (idle.atTime 0).regCause 1073741824 4 = none)) ∧ (((blockOf 1073741824).isSome =
    true ∧ (idle.atTime 0).regCause 1073741824 0 = some 1)) ∧ (((blockOf 1073741824).isSome = true ∧ (idle.atTime 0).regCause
    1073741824 4 = none)) ∧ (((blockOf 1073741824).isSome = true ∧ (idle.atTime 0).regCause 1073741824 4 = none)) := by
  refine ⟨?_, ?_, ?_, ?_⟩ <;> decide +kernel

/-- Witness for `EffectTicketsComplete`. -/
theorem meets_EffectTicketsComplete :
    (((fxTicketed.atTime 0).runningOn (16 + 0) [tkFX] = some fxPlaced ∧ Tab.look (fxTicketed.atTime 0).fx.cores 0 = none ∧
    (fxTicketed.atTime 0).fxProg (fxPlaced.tk.item % 16) fxPlaced.tk.folio = some inst0)) ∧ ((Tab.look ((fxCoreS
    fxAway).atTime 0).fx.cores 0 = some fxAway ∧ fxAway.ready = true ∧ ((fxCoreS fxAway).atTime 0).fxcFetch fxAway = none)) ∧
    ((Tab.look ((fxBad (2 ^ 61)).atTime 0).fx.cores 0 = some core0 ∧ core0.ready = true ∧ ((fxBad (2 ^ 61)).atTime
    0).fxcFetch core0 = some (2 ^ 61) ∧ (wordOk (2 ^ 61) = false ∨ core0.stateOk (2 ^ 61) = false))) ∧ ((Tab.look ((fxBad
    32768).atTime 0).fx.cores 0 = some core0 ∧ core0.ready = true ∧ ((fxBad 32768).atTime 0).fxcFetch core0 = some 32768 ∧
    wordOk 32768 = true ∧ core0.stateOk 32768 = true ∧ ((fxBad 32768).atTime 0).wordMoves core0 32768 = none)) ∧ ((Tab.look
    (fxLast.atTime 0).fx.cores 0 = some core0 ∧ core0.late = false ∧ core0.folio + 2 ≤ (fxLast.atTime 0).slot)) ∧ ((Tab.look
    ((fxCoreS fxCaused).atTime 0).fx.cores 0 = some fxCaused ∧ fxCaused.causes ≠ 0 ∧ fxCaused.slots = 0)) := by
  refine ⟨?_, ?_, ?_, ?_, ?_, ?_⟩ <;> decide +kernel

/-! ### Other witnesses -/

/-! ### Witnesses that are not generated -/

/-- Witness for the first clause of `ModeEventsComplete`: a journal longer than 12 MiB. -/
theorem meets_ModeEventsComplete_compact : ∃ (t : Nat) (s : State), 12 * 2 ^ 20 < (s.atTime t).jnlBytes := by
  obtain ⟨l, hl⟩ : ∃ l : List Byte, l.length = 12 * 2 ^ 20 := ⟨List.replicate _ 0, List.length_replicate⟩
  refine ⟨0, { idle with jnl.recs := [⟨0, 0, l, [], true⟩] }, ?_⟩
  show 12 * 2 ^ 20 < 12 + l.length + 0 + 0
  omega

/-- A unit in BOOT whose flash slot A holds the image of `bootImage` and its marker. -/
def bootFlashA : State :=
  let flash := cellsFrom 0x90000000 bootImage ++ cellsFrom (markerAt 0) (markerOf bootImage)
  { bootNothing with mem := flash, otp.keyHash := [(0, bootKeyHash)] }

theorem newerSlot_first {s : State} {p : Nat → Bool} (h0 : p 0 = true) (h1 : p 1 = false) : s.newerSlot p = some 0 := by
  unfold State.newerSlot
  rw [h0, h1]

def bootReady : State := (bootFlashA.atTime 0).reapplyRepairs

/-- Witness for the clause of `ModeEventsComplete` that boots from flash. -/
theorem meets_ModeEventsComplete_flash :
    let u := bootFlashA.atTime 0
    (u.mode = mBOOT ∧ u.sys.porN = true ∧ u.sys.firm.goPending = false ∧ u.sys.firm.waitHsp = false ∧
      u.reapplyRepairs.sys.straps.bootSrc ≠ 1) ∧ ∃ v, u.reapplyRepairs.bootFlash true = some v := by
  have h512 : bootReady.rdBytes 0x90000000 512 = bootImage :=
    rdBytes_cells (rest := cellsFrom (markerAt 0) (markerOf bootImage)) rfl (by decide +kernel) (by decide +kernel)
  have himg : bootReady.slotImage 0 = bootImage := by
    unfold State.slotImage
    rw [show slotBase 0 = 0x90000000 from rfl, h512, show uliLen bootImage = 0 by decide +kernel]
    exact h512
  have hm : bootReady.marked 0 = true := by
    unfold State.marked
    rw [show slotBase 0 = 0x90000000 from rfl, h512]
    decide +kernel
  have hb : bootReady.bootable 0 = true := by
    unfold State.bootable
    rw [himg, hm]
    decide +kernel
  have hb1 : bootReady.bootable 1 = false := by
    have : bootReady.marked 1 = false := by decide +kernel
    unfold State.bootable
    rw [this]
    rfl
  have hn : bootReady.newerSlot bootReady.bootable = some 0 := newerSlot_first hb hb1
  refine ⟨by decide +kernel, ?_⟩
  show ∃ v, bootReady.bootFlash true = some v
  unfold State.bootFlash
  rw [hn]
  exact ⟨_, rfl⟩

/-- Witness for the clause of `TicketEventsComplete` about a sweep's end. -/
theorem meets_TicketEventsComplete_sweep : ∃ v st res, finSweep (withSweep.atTime 0) = some (v, st, res) := ⟨_, _, _, rfl⟩

/-- A unit that hears an edge. -/
def hears (u : State) : State := { u with pair.edgeAt := some u.now }
def yielding : State := { holding with sys.straps.unitId := 1 }
def staying : State := { holding with sys.straps.unitId := 0 }

/-- Witness for the clauses of `PairEventsComplete` about an edge of REIN. -/
theorem meets_PairEventsComplete_rein :
    (linked.paired = true ∧ ((hears linked).holds = false ∨ (hears linked).ignoresRein = true)) ∧
    (yielding.paired = true ∧ (hears yielding).holds = true ∧ (hears yielding).ignoresRein = false ∧
      ((hears yielding).setFlag Reg.TTH_STAT Fl.TTH_STAT_DRIVING false).yields = true) ∧
    (staying.paired = true ∧ (hears staying).holds = true ∧ (hears staying).ignoresRein = false ∧
      ((hears staying).setFlag Reg.TTH_STAT Fl.TTH_STAT_DRIVING false).yields = false) := by
  decide +kernel

/-- Witness for the clause of `PowerEventsComplete` about the end of a drain. -/
theorem meets_PowerEventsComplete_drain :
    draining.pwr.drain = some drain0 ∧ ({ draining with cmd.held := none } : State).idle drain0.dom = true := by
  decide +kernel

/-- The DRAM's temperature is heard. -/
def heard (temp : Int) (u : State) : State :=
  let v := (u.setFld Reg.DMC_STAT Fl.DMC_STAT_TEMP (ofS 8 temp)).setFlag Reg.DMC_STAT Fl.DMC_STAT_HOT (decide (85 < temp))
  { v with dmc.coolSince := if temp ≤ 85 then (match v.dmc.coolSince with | some c => some c | none => some v.now) else none }

/-- Witness for the clauses of `MemoryEventsComplete` about a hot DRAM. -/
theorem meets_MemoryEventsComplete_hot :
    (idle.dramPowered = true ∧ (heard 95 idle).fld Reg.DMC_STAT Fl.DMC_STAT_FSP_NOW = 0) ∧
    (idle.dramPowered = true ∧ ¬ ((95 : Int) ≤ 86 ∧ (heard 86 idle).fld Reg.DMC_STAT Fl.DMC_STAT_FSP_NOW = 0)) := by
  decide +kernel

def full (k : Nat) : State := { idle with pmc.cnt := [(k, 2 ^ 48)] }
def fullChained : State := { full 0 with regs := (idle.wr (Reg.PMC_SEL 0) (2 ^ 29)).regs }
def wrapped (k : Nat) (u : State) : State := { u with pmc.cnt := Tab.put u.pmc.cnt k (Tab.at u.pmc.cnt 0 k - 2 ^ 48) }

/-- Witness for the clauses of `CounterEventsComplete` about a wrap. -/
theorem meets_CounterEventsComplete_wrap :
    (2 ^ 48 ≤ Tab.at fullChained.pmc.cnt 0 0 ∧ (wrapped 0 fullChained).chained 0 = true) ∧
    (2 ^ 48 ≤ Tab.at (full 1).pmc.cnt 0 1 ∧ (wrapped 1 (full 1)).chained 1 = false) := by
  decide +kernel

/-! ### Words of the effect cores (R463 to R480): each opcode with every other field 0, or its least legal value -/

def compWord (o : Nat) : Nat × Nat := (o, o * 2 ^ 54)
def immWord (o : Nat) : Nat × Nat := (0x100 + o, 2 ^ 62 + o * 2 ^ 56)
def flowWord (o : Nat) : Nat × Nat := (0x200 + o, 2 ^ 63 + o * 2 ^ 56)
def regWord (o d : Nat) : Nat × Nat := (0x300 + o, 2 ^ 63 + 2 ^ 62 + o * 2 ^ 56 + d * 2 ^ 48)

/-- The words that lead to the next one, and those that lead elsewhere. -/
def plainWords : List (Nat × Nat) :=
  ([0, 1, 2, 3, 4, 5, 6, 7, 8, 9, 0x10, 0x11, 0x12, 0x13, 0x14, 0x15, 0x16, 0x17].map compWord ++
    ([0x20, 0x21, 0x22, 0x23, 0x24, 0x25, 0x26, 0x27, 0x28, 0x29, 0x2A, 0x2B, 0x2C, 0x2D, 0x2E, 0x2F, 0x30].map compWord ++
      [1, 2, 3, 4, 5, 6, 7].map immWord)) ++ [regWord 1 0, regWord 2 0x20, regWord 3 0, regWord 4 0]
def flowWords : List (Nat × Nat) := [1, 2, 3, 4, 5, 6, 7].map flowWord

/-- Core 0 at the first word of its instance, which may run 8 words: words run, delay slots left, and whether it ends. -/
def coreAt (cnt slots : Nat) (ending : Bool) : FxCore :=
  { core0 with prog := { inst0 with vector := 1 }, cnt := cnt, slots := slots, ending := ending }

/-- An idle unit whose core 0 has the word `w` next. -/
def wordNext (w : Nat) (k : FxCore) : State :=
  { withFx with mem := cellsFrom 0 (leBytes 8 w), fx.cores := [(0, k)] }

theorem moves_nil {α : Type} {o : Option (List α)} (h : o.map List.length = some 0) : o = some [] := by
  cases o with
  | none => cases h
  | some l => cases l with
    | nil => rfl
    | cons a l => simp at h

/-- Witness for the words of `AccumulatorWordsRetire`, `DataWordsRetire` and `ControlWordsRetire`: each runs next on a core that
goes on and on one whose budget is spent, and each but those of the flow on one in its last delay slot. -/
theorem meets_WordsRetire :
    (∀ x ∈ plainWords ++ flowWords, ∀ cnt ∈ [0, 8],
      ((wordNext x.2 (coreAt cnt 0 false)).atTime 0).runsWord 0 x.1 (coreAt cnt 0 false) x.2 []) ∧
    ∀ x ∈ plainWords, ((wordNext x.2 (coreAt 0 1 true)).atTime 0).runsWord 0 x.1 (coreAt 0 1 true) x.2 [] := by
  have run (l : List (Nat × Nat)) (k : FxCore)
      (h : ∀ x ∈ l, let u := (wordNext x.2 k).atTime 0
        Tab.look u.fx.cores 0 = some k ∧ u.fxcFetch k = some x.2 ∧ k.ready = true ∧ fxcCode x.2 = x.1 ∧ wordOk x.2 = true ∧
          k.stateOk x.2 = true ∧ (u.wordMoves k x.2).map List.length = some 0) :
      ∀ x ∈ l, ((wordNext x.2 k).atTime 0).runsWord 0 x.1 k x.2 [] := by
    intro x hx
    obtain ⟨a, b, c, d, e, f, g⟩ := h x hx
    exact ⟨a, b, c, d, e, f, moves_nil g⟩
  have r0 := run (plainWords ++ flowWords) (coreAt 0 0 false) (by decide +kernel)
  have r8 := run (plainWords ++ flowWords) (coreAt 8 0 false) (by decide +kernel)
  refine ⟨fun x hx cnt hc => ?_, run plainWords (coreAt 0 1 true) (by decide +kernel)⟩
  simp only [List.mem_cons, List.not_mem_nil, or_false] at hc
  rcases hc with rfl | rfl
  · exact r0 x hx
  · exact r8 x hx

/-- Witness for the other conditions there: whatever the word's result, the first core goes on, the second ends and the third has
spent its budget. -/
theorem meets_WordsRetire_after (u : State) (r : FxRes) :
    let ld := u.fxcLoads []
    let a := (coreAt 0 0 false).retire r [] ld.2
    let b := (coreAt 0 1 true).retire r [] ld.2
    let c := (coreAt 8 0 false).retire r [] ld.2
    (a.cnt ≤ a.prog.budget ∧ ¬ (a.ending = true ∧ a.slots = 0)) ∧ (b.cnt ≤ 8 ∧ b.ending = true ∧ b.slots = 0) ∧ 8 < c.cnt := by
  cases r with
  | mk a b c d e f g h =>
    cases h <;>
      exact ⟨⟨(by decide : (1 : Nat) ≤ 8), fun x => by first | exact Bool.false_ne_true x.1 | exact absurd x.2 (by decide : ¬ (2 : Nat) = 0)⟩,
        ⟨(by decide : (1 : Nat) ≤ 8), rfl, rfl⟩, (by decide : (8 : Nat) < 9)⟩

/-! ### Witnesses for the statements about the block as a whole and for the rules -/

def waits : State := { idle with pending := [.echo (pk [])] }

/-- Witness for `StepRunsFront`, `StepKeepsForm`, `FusesOnlyBlow` and `QueueFirstInFirstOut`. -/
theorem meets_step :
    waits.pending = [.echo (pk [])] ∧ waits.wf = true ∧ (∃ t, step waits = .next t) ∧ idle.pending = [] :=
  ⟨rfl, by decide +kernel, exists_next_of (by decide +kernel), rfl⟩

/-- Witness for `QuietRowsLeaveMemory`. -/
theorem meets_QuietRowsLeaveMemory : mayStore (.contentionWaitEnd 0) = false ∧ ∃ t, exec (.contentionWaitEnd 0) idle = .next t :=
  ⟨rfl, _, rfl⟩

def store4 : SpineReq := ⟨0, 0, true, dramBase, 4, zeroBytes 4, [true, true, true, true], false, 4, 0, 0, [], [], []⟩

/-- Witness for `StoresOnlyWhereAddressed`: each of the five rows completes, and an address outside the bytes it names. -/
theorem meets_StoresOnlyWhereAddressed :
    (∃ t, exec (.bulkWrite (dramP 9 [(8, 1)])) idle = .next t) ∧
    (∃ t, exec (.bitSetWrite 0 0 (zeroBytes 4) [] 0) idle = .next t) ∧
    (∃ t, exec (.bitClearWrite 0 0 (zeroBytes 4) [] 0) idle = .next t) ∧
    (store4.cont = false ∧ store4.write = true ∧ ∃ t, exec (.spineTransaction store4 0) idle = .next t) ∧
    ((req 4 false).cont = false ∧ (req 4 false).write = false ∧ (req 4 false).ecc = [] ∧
      ∃ t, exec (.spineTransaction (req 4 false) 0) idle = .next t) ∧
    100 ∉ (List.range 1).map (fun k => u64 (dramP 9 [(8, 1)]).params 0 + k) ∧
    100 ∉ (List.range 4).map (fun k => memAddr (0x20000000 + 0 % 2 ^ 29 + k)) ∧
    100 ∉ (List.range 4).map (fun k => memAddr (store4.addr + k)) := by
  refine ⟨?_, ?_, ?_, ⟨rfl, rfl, ?_⟩, ⟨rfl, rfl, rfl, ?_⟩, by decide +kernel, by decide +kernel, by decide +kernel⟩
  all_goals exact exists_next_of (by decide +kernel)

/-- A unit whose packets without a tag have the role MONITOR. -/
def monitor : State := idle.setFld Reg.CMD_CFG Fl.CMD_CFG_NOAUTH_ROLE 2
def mode0 : Packet := pk [3, 0, 0, 0]

/-- Witness for `RolesDecide`: `MODE_SET` is for ADMIN alone; MONITOR may not issue it and ADMIN may. -/
theorem meets_RolesDecide :
    (∀ s, exec (.modeSet mode0) s = runPacket specModeSet mode0 (cmdModeSet mode0) s) ∧
    (∀ s ∈ [monitor, idle], let u := s.arrived mode0
      specModeSet.role < 3 ∧ u.effRole mode0 < 3 ∧ (s.atTime mode0.time).answers mode0.port = true ∧
        u.canStart mode0.port = true ∧ mode0.framed = true ∧ u.authOk mode0 specModeSet.opcode = true ∧
        u.nonceCheck mode0 specModeSet.opcode = none ∧ u.cmd.longOp = none ∧ u.cmd.peerBusy = none ∧
        bitsN mode0.flags 7 3 = 0) ∧
    (∀ st, (monitor.arrived mode0).route specModeSet mode0 ≠ .refuse st) ∧
    (∀ st, (idle.arrived mode0).route specModeSet mode0 ≠ .refuse st) ∧
    (¬ (specModeSet.role = 2 ∨ (specModeSet.role = 1 ∧ (monitor.arrived mode0).effRole mode0 < 2) ∨
        (specModeSet.role = 0 ∧ (monitor.arrived mode0).effRole mode0 = 0)) ∧
      ((monitor.arrived mode0).acceptNonce mode0 specModeSet.opcode).muted mode0.port = false) ∧
    (specModeSet.role = 0 ∧ (idle.arrived mode0).effRole mode0 = 0 ∧ (idle.arrived mode0).runsHere specModeSet mode0 = true ∧
      specModeSet.lo ≤ mode0.params.length ∧ mode0.params.length ≤ specModeSet.hi ∧
      (idle.arrived mode0).modeOk specModeSet = true) ∧
    ({ mode0 with port := portPeer } : Packet).port = portPeer := by
  have hr : (monitor.arrived mode0).route specModeSet mode0 = .here := rfl
  have hi : (idle.arrived mode0).route specModeSet mode0 = .here := rfl
  refine ⟨fun s => rfl, by decide +kernel, fun st => ?_, fun st => ?_, by decide +kernel, by decide +kernel, rfl⟩
  · rw [hr]; nofun
  · rw [hi]; nofun

def peerWorks : State := { idle with cmd.peerBusy := some (1, 2, 3) }

/-- Witness for `BusyNamesTheOperation`: an `ECHO` while a long operation runs here, or on the peer. -/
theorem meets_BusyNamesTheOperation :
    (∀ s, exec (.echo (pk [])) s = runPacket specEcho (pk []) (cmdEcho (pk [])) s) ∧
    (∀ s ∈ [withLong 0x00F2 [], peerWorks], let u := s.arrived (pk [])
      (s.atTime (pk []).time).answers (pk []).port = true ∧ u.canStart (pk []).port = true ∧ (pk []).framed = true ∧
        u.authOk (pk []) specEcho.opcode = true ∧ u.nonceCheck (pk []) specEcho.opcode = none) ∧
    ((withLong 0x00F2 []).arrived (pk [])).cmd.longOp = some ⟨0x00F2, pz 0 [], 0, [], false⟩ ∧
    ((peerWorks.arrived (pk [])).cmd.longOp = none ∧ (peerWorks.arrived (pk [])).cmd.peerBusy = some (1, 2, 3)) :=
  ⟨fun s => rfl, by decide +kernel, by decide +kernel, by decide +kernel⟩

def atAlias (a : Nat) (cont : Bool) (moved : Nat) : SpineReq := ⟨0, 0, true, a, 4, zeroBytes 4, [], cont, moved, 0, 0, [], [], []⟩
def txn0 : SpnTxn := ⟨0, 0, 14, true, 0x20000000, 4, 0⟩
def onAlias : State := { idle with spn.txns := [txn0] }

/-- Witness for `AliasesNeedTheirModes`: at the first and the last word of each alias, and one that goes on, to its end or not. -/
theorem meets_AliasesNeedTheirModes :
    (∀ e ∈ [(0x20000000, 14), (0x3FFFFFFC, 14), (0x60000000, 15), (0x7FFFFFFC, 15)],
      let x := atAlias e.1 false 4
      ((0x20000000 ≤ x.addr ∧ x.addr < 0x40000000 ∧ e.2 = 14) ∨ (0x60000000 ≤ x.addr ∧ x.addr < 0x80000000 ∧ e.2 = 15)) ∧
        (idle.atTime 0).portOpen x.master = true ∧ x.cont = false ∧ burstOk x = true ∧
        (idle.atTime 0).heldOrd x.master x.tid e.2 = false ∧ (idle.atTime 0).heldCap x.master e.2 = false ∧
        (idle.atTime 0).aliasOn = false) ∧
    (∀ e ∈ [(4, true), (2, false)],
      let x := atAlias 0x20000000 true e.1
      let u := onAlias.atTime 0
      let n := min (x.moved - txn0.doneBytes) (txn0.size - txn0.doneBytes)
      u.portOpen x.master = true ∧ x.cont = true ∧
        u.spn.txns.find? (fun z => z.master == x.master && z.tid == x.tid) = some txn0 ∧ 14 ≤ txn0.target ∧
        (if e.2 then txn0.size ≤ txn0.doneBytes + n else txn0.doneBytes + n < txn0.size)) := by
  decide +kernel

/-- Witness for `HintMovesNoDomain` (its clauses take any state; the hint reads `false` after reset). -/
theorem meets_HintMovesNoDomain :
    (18 < 19) ∧ idle.flag Reg.OUT_AMP_STAT Fl.OUT_AMP_STAT_IDLE_HINT = false ∧
      idle.flag Reg.OUT_AMP_STAT Fl.OUT_AMP_STAT_IDLE_HINT ≠ true := by
  decide +kernel

def poisoned : State := { idle with poison := [dramBase] }

/-- Witness for `PoisonYieldsToFullWrites`: writes of 8 and of 7 bytes at a poisoned granule. -/
theorem meets_PoisonYieldsToFullWrites :
    let w8 := strobed (zeroBytes 8) (List.replicate 8 true)
    let w7 := strobed (zeroBytes 7) (List.replicate 7 true)
    dramBase % 8 = 0 ∧ dramBase ∈ poisoned.poison ∧ covers dramBase w8 dramBase = true ∧ covers dramBase w7 dramBase = false ∧
      (∃ e ∈ w7, (dramBase + e.1) / 8 * 8 = dramBase) ∧ (7, 0) ∈ w8 ∧ covers dramBase w8 ((dramBase + 7) / 8 * 8) = true ∧
      ∀ e ∈ w8, dramBase + 8 ≠ dramBase + e.1 := by
  iterate 4 refine ⟨by decide +kernel, ?_⟩
  refine ⟨⟨(0, 0), by decide +kernel⟩, by decide +kernel, by decide +kernel, ?_⟩
  decide +kernel

/-- `ECHO` under a key for ADMIN, with its tag, at a nonce; a unit that holds the key, and one that has accepted that nonce. -/
def authed (n : Nat) : Packet :=
  let p : Packet := { pk [] with flags := 1, nonce := n, tag := zeroBytes 16 }
  { p with tag := (hmacSha256 (zeroBytes 32) (p.covered 0)).take 16 }
def keyed (n : Nat) (l : Tab LastAcc) : State := { idle with cmd.keys := [(0, zeroBytes 32)], cmd.nonces := [(0, n)], cmd.last := l }

/-- Witness for `ChecksAnswerInOrder`: a packet for each clause, at the lengths next to those a command takes. -/
theorem meets_ChecksAnswerInOrder :
    (∀ p s, exec (.modeSet p) s = runPacket specModeSet p (cmdModeSet p) s) ∧
    (∀ p s, exec (.echo p) s = runPacket specEcho p (cmdEcho p) s) ∧
    ((idle.atTime 0).answers 0 = true ∧ (idle.arrived mode0).canStart 0 = true ∧ mode0.framed = true ∧
      ({ mode0 with plen := 3 } : Packet).framed = false) ∧
    ((authed 5).framed = true ∧ (idle.arrived (authed 5)).authOk (authed 5) 0 = false ∧
      ((idle.arrived (authed 5)).acceptNonce (authed 5) 0).muted 0 = false) ∧
    ((keyed 5 [(0, ⟨5, 0, 0, none⟩)]).arrived (authed 5)).authOk (authed 5) 0 = true ∧
    ((authed 5).auth = true ∧ (authed 5).nonce ≤ 5 ∧ lastIdx 0 (authed 5).role = 0) ∧
    (let u := idle.arrived mode0
     u.authOk mode0 2 = true ∧ u.nonceCheck mode0 2 = none ∧ u.cmd.longOp = none ∧ u.cmd.peerBusy = none ∧
       bitsN mode0.flags 7 3 = 0 ∧ u.linkUp = false ∧ effTarget specModeSet { mode0 with target := 1 } = 1 ∧
       effTarget specModeSet { mode0 with target := 3 } = 3 ∧ effTarget specPairFence { mode0 with target := 2 } ≠ 0 ∧
       u.runsHere specModeSet mode0 = true ∧ u.effRole mode0 ≤ specModeSet.role ∧
       (pk [3, 0, 0]).params.length < specModeSet.lo ∧ specModeSet.hi < (pk [3, 0, 0, 0, 0]).params.length) ∧
    bitsN ({ mode0 with flags := 8 } : Packet).flags 7 3 ≠ 0 ∧
    ((inMode mRENDER).arrived mode0).modeOk specRenderFormatSet = false := by
  refine ⟨fun p s => rfl, fun p s => rfl, ?_, ?_, ?_, ?_, ?_, ?_, ?_⟩ <;> decide +kernel

/-- Witness for `BlocksRequestInterrupts`: the first and the last block. -/
theorem meets_BlocksRequestInterrupts : (0 < 26) ∧ (25 < 26) := by decide

end Sys2Proof.Tests
end

/-!
What every row and every step keeps (R9, R12, R616), the state after reset (R595, R604), the interrupt requests of the blocks
(R10) and the rows of register accesses (R7, R9, R521).
-/

namespace Sys2Proof.Machine

/-! ### What a row and a step keep -/

/-- What a step keeps, whether or not it is quiet. -/
theorem Keeps.weaken {q : Bool} {s t : State} (h : Keeps q s t) : Keeps false s t :=
  ⟨h.pending, h.otp, h.regs, h.mem, nofun⟩

theorem State.wf_iff (s : State) : s.wf = true ↔ s.regsWf = true ∧ Memory.wf s.mem = true :=
  Bool.and_eq_true_iff

theorem Keeps.wf {q : Bool} {s t : State} (h : Keeps q s t) (hs : s.wf = true) : t.wf = true := by
  rw [State.wf_iff] at *
  exact ⟨h.regs hs.1, h.mem hs.2⟩

theorem State.rdByte_congr {s t : State} (h : t.mem = s.mem) (a : Nat) : t.rdByte a = s.rdByte a := by
  unfold State.rdByte
  rw [h]

/-- Each row by the law of its meaning: a row that may store keeps what any step keeps, every other one is quiet. -/
theorem exec_keeps (i : Instr) (s : State) : KOut (!mayStore i) s (exec i s) :=
  have h {q : Bool} : Keeps q s s := .rfl' q s
  match i with
  | .echo .. => execEcho_keeps h
  | .sysInfo .. => execSysInfo_keeps h
  | .modeSet .. => execModeSet_keeps h
  | .sysResetWarm .. => execSysResetWarm_keeps h
  | .sysResetCtrl .. => execSysResetCtrl_keeps h
  | .safeMaskSet .. => execSafeMaskSet_keeps h
  | .unitReset .. => execUnitReset_keeps h
  | .renderFormatSet .. => execRenderFormatSet_keeps h
  | .budgetQuery .. => execBudgetQuery_keeps h
  | .eventReadOldest .. => execEventReadOldest_keeps h
  | .eventReadNewest .. => execEventReadNewest_keeps h
  | .cmdCfgSet .. => execCmdCfgSet_keeps h
  | .authKeySet .. => execAuthKeySet_keeps h
  | .authKeyClear .. => execAuthKeyClear_keeps h
  | .nonceQuery .. => execNonceQuery_keeps h
  | .bulkWrite .. => execBulkWrite_keeps h
  | .bulkRead .. => execBulkRead_keeps h
  | .bulkCrc .. => execBulkCrc_keeps h
  | .gpioCfgSet .. => execGpioCfgSet_keeps h
  | .gpioWrite .. => execGpioWrite_keeps h
  | .gpioQuery .. => execGpioQuery_keeps h
  | .pwrDomOn .. => execPwrDomOn_keeps h
  | .pwrDomRet .. => execPwrDomRet_keeps h
  | .pwrDomOff .. => execPwrDomOff_keeps h
  | .pwrDomReset .. => execPwrDomReset_keeps h
  | .pwrCfgSet .. => execPwrCfgSet_keeps h
  | .pwrQuery .. => execPwrQuery_keeps h
  | .pwrStats .. => execPwrStats_keeps h
  | .rtcSet .. => execRtcSet_keeps h
  | .clkCfgSet .. => execClkCfgSet_keeps h
  | .clkRefSet .. => execClkRefSet_keeps h
  | .clkSelect .. => execClkSelect_keeps h
  | .clkDcoSet .. => execClkDcoSet_keeps h
  | .clkOutSet .. => execClkOutSet_keeps h
  | .clkQuery .. => execClkQuery_keeps h
  | .clkStats .. => execClkStats_keeps h
  | .ptpCfgSet .. => execPtpCfgSet_keeps h
  | .ptpRelock .. => execPtpRelock_keeps h
  | .ptpQuery .. => execPtpQuery_keeps h
  | .ptpStats .. => execPtpStats_keeps h
  | .netPortSet .. => execNetPortSet_keeps h
  | .netRuleSet .. => execNetRuleSet_keeps h
  | .netRuleCommit .. => execNetRuleCommit_keeps h
  | .netTxqSet .. => execNetTxqSet_keeps h
  | .netLinkQuery .. => execNetLinkQuery_keeps h
  | .netStats .. => execNetStats_keeps h
  | .netMdio .. => execNetMdio_keeps h
  | .strmRxSet .. => execStrmRxSet_keeps h
  | .strmRxRemove .. => execStrmRxRemove_keeps h
  | .strmTxSet .. => execStrmTxSet_keeps h
  | .strmTxRemove .. => execStrmTxRemove_keeps h
  | .strmRxQuery .. => execStrmRxQuery_keeps h
  | .strmTxQuery .. => execStrmTxQuery_keeps h
  | .strmStats .. => execStrmStats_keeps h
  | .layoutLoad .. => execLayoutLoad_keeps h
  | .layoutQuery .. => execLayoutQuery_keeps h
  | .objConfig .. => execObjConfig_keeps h
  | .objDeconfig .. => execObjDeconfig_keeps h
  | .objBind .. => execObjBind_keeps h
  | .objQuery .. => execObjQuery_keeps h
  | .omsStats .. => execOmsStats_keeps h
  | .omsCfgSet .. => execOmsCfgSet_keeps h
  | .geoCfgSet .. => execGeoCfgSet_keeps h
  | .geoTempSet .. => execGeoTempSet_keeps h
  | .geoSpkDisable .. => execGeoSpkDisable_keeps h
  | .geoSpkEnable .. => execGeoSpkEnable_keeps h
  | .geoFrameQuery .. => execGeoFrameQuery_keeps h
  | .geoEval .. => execGeoEval_keeps h
  | .geoStats .. => execGeoStats_keeps h
  | .geoRaQuery .. => execGeoRaQuery_keeps h
  | .geoRaStats .. => execGeoRaStats_keeps h
  | .fabCfgSet .. => execFabCfgSet_keeps h
  | .fabObjQuery .. => execFabObjQuery_keeps h
  | .fabStats .. => execFabStats_keeps h
  | .fabInterpTable .. => execFabInterpTable_keeps h
  | .outConfig .. => execOutConfig_keeps h
  | .outDeconfig .. => execOutDeconfig_keeps h
  | .outGainSet .. => execOutGainSet_keeps h
  | .outAlignSet .. => execOutAlignSet_keeps h
  | .outEqSet .. => execOutEqSet_keeps h
  | .outLimSet .. => execOutLimSet_keeps h
  | .outBmSet .. => execOutBmSet_keeps h
  | .outSilSet .. => execOutSilSet_keeps h
  | .outAmpSet .. => execOutAmpSet_keeps h
  | .outQuery .. => execOutQuery_keeps h
  | .outEqQuery .. => execOutEqQuery_keeps h
  | .outStats .. => execOutStats_keeps h
  | .firLoad .. => execFirLoad_keeps h
  | .firCommit .. => execFirCommit_keeps h
  | .firSchemeLong .. => execFirSchemeLong_keeps h
  | .firSchemeStandard .. => execFirSchemeStandard_keeps h
  | .firClear .. => execFirClear_keeps h
  | .firQuery .. => execFirQuery_keeps h
  | .convStats .. => execConvStats_keeps h
  | .firExport .. => execFirExport_keeps h
  | .measPdmSet .. => execMeasPdmSet_keeps h
  | .measSweep .. => execMeasSweep_keeps h
  | .measPrbGroupSet .. => execMeasPrbGroupSet_keeps h
  | .measPrbSet .. => execMeasPrbSet_keeps h
  | .measPrbResult .. => execMeasPrbResult_keeps h
  | .measPrbBaseline .. => execMeasPrbBaseline_keeps h
  | .autotrimEnable .. => execAutotrimEnable_keeps h
  | .autotrimDisable .. => execAutotrimDisable_keeps h
  | .measStats .. => execMeasStats_keeps h
  | .mixSrcSet .. => execMixSrcSet_keeps h
  | .mixNodeStage .. => execMixNodeStage_keeps h
  | .mixCommit .. => execMixCommit_keeps h
  | .mixDiscard .. => execMixDiscard_keeps h
  | .mixBusSet .. => execMixBusSet_keeps h
  | .mixDomSet .. => execMixDomSet_keeps h
  | .mixBridgeSet .. => execMixBridgeSet_keeps h
  | .mixSilSet .. => execMixSilSet_keeps h
  | .bypSet .. => execBypSet_keeps h
  | .duckSet .. => execDuckSet_keeps h
  | .mixQuery .. => execMixQuery_keeps h
  | .mixStats .. => execMixStats_keeps h
  | .tdmPortSet .. => execTdmPortSet_keeps h
  | .tdmSlotSet .. => execTdmSlotSet_keeps h
  | .tdmQuery .. => execTdmQuery_keeps h
  | .tdmStats .. => execTdmStats_keeps h
  | .pairCfgSet .. => execPairCfgSet_keeps h
  | .pairIdSet .. => execPairIdSet_keeps h
  | .pairQuery .. => execPairQuery_keeps h
  | .pairSwitchover .. => execPairSwitchover_keeps h
  | .pairResyncStart .. => execPairResyncStart_keeps h
  | .pairResyncAbort .. => execPairResyncAbort_keeps h
  | .pairFence .. => execPairFence_keeps h
  | .pairStats .. => execPairStats_keeps h
  | .fxInstanceSet .. => execFxInstanceSet_keeps h
  | .fxInstanceRemove .. => execFxInstanceRemove_keeps h
  | .fxParamSet .. => execFxParamSet_keeps h
  | .fxQuery .. => execFxQuery_keeps h
  | .fxStats .. => execFxStats_keeps h
  | .fxMemRead .. => execFxMemRead_keeps h
  | .stblQSet .. => execStblQSet_keeps h
  | .stblTraceSet .. => execStblTraceSet_keeps h
  | .stblTraceRead .. => execStblTraceRead_keeps h
  | .stblSubmit .. => execStblSubmit_keeps h
  | .stblQuery .. => execStblQuery_keeps h
  | .stblStats .. => execStblStats_keeps h
  | .spnQosSet .. => execSpnQosSet_keeps h
  | .spnCfgSet .. => execSpnCfgSet_keeps h
  | .spnQuery .. => execSpnQuery_keeps h
  | .spnErrRead .. => execSpnErrRead_keeps h
  | .spnStats .. => execSpnStats_keeps h
  | .memCfgSet .. => execMemCfgSet_keeps h
  | .memtest .. => execMemtest_keeps h
  | .memRepairListed .. => execMemRepairListed_keeps h
  | .memRepairRow .. => execMemRepairRow_keeps h
  | .memQuery .. => execMemQuery_keeps h
  | .memErrRead .. => execMemErrRead_keeps h
  | .memStats .. => execMemStats_keeps h
  | .dmcCfgSet .. => execDmcCfgSet_keeps h
  | .dramRetireListed .. => execDramRetireListed_keeps h
  | .dramRetireRow .. => execDramRetireRow_keeps h
  | .dmcFreqSet .. => execDmcFreqSet_keeps h
  | .dmcQuery .. => execDmcQuery_keeps h
  | .dmcErrRead .. => execDmcErrRead_keeps h
  | .dmcStats .. => execDmcStats_keeps h
  | .pmcCfgSet .. => execPmcCfgSet_keeps h
  | .pmcSelSet .. => execPmcSelSet_keeps h
  | .pmcCtlSet .. => execPmcCtlSet_keeps h
  | .pmcRead .. => execPmcRead_keeps h
  | .pmcBwRead .. => execPmcBwRead_keeps h
  | .imageCommit .. => execImageCommit_keeps h
  | .imageQuery .. => execImageQuery_keeps h
  | .imageFloorRaise .. => execImageFloorRaise_keeps h
  | .journalSave .. => execJournalSave_keeps h
  | .journalQuery .. => execJournalQuery_keeps h
  | .journalCfgSet .. => execJournalCfgSet_keeps h
  | .journalClear .. => execJournalClear_keeps h
  | .bootLoad .. => execBootLoad_keeps h
  | .bootGo .. => execBootGo_keeps h
  | .fuseAuthHsp .. => execFuseAuthHsp_keeps h
  | .fuseAuthTwi .. => execFuseAuthTwi_keeps h
  | .fuseJtagLock .. => execFuseJtagLock_keeps h
  | .fuseDbgOff .. => execFuseDbgOff_keeps h
  | .fuseRevokeKey .. => execFuseRevokeKey_keeps h
  | .fuseKeyHash .. => execFuseKeyHash_keeps h
  | .secQuery .. => execSecQuery_keeps h
  | .authSuppressEnd .. => execAuthSuppressEnd_keeps h
  | .longOperationDone .. => execLongOperationDone_keeps h
  | .standbyAckTimeout .. => execStandbyAckTimeout_keeps h
  | .hspWriteCommand .. => execHspWriteCommand_keeps h
  | .hspWriteMetadata .. => execHspWriteMetadata_keeps h
  | .hspReadStatus .. => execHspReadStatus_keeps h
  | .hspReadReply .. => execHspReadReply_keeps h
  | .hspAbort .. => execHspAbort_keeps h
  | .commandDatagram .. => execCommandDatagram_keeps h
  | .twiWrite .. => execTwiWrite_keeps h
  | .twiRead .. => execTwiRead_keeps h
  | .twiAddressMatch .. => execTwiAddressMatch_keeps h
  | .safeResponder .. => execSafeResponder_keeps h
  | .journalCompact .. => execJournalCompact_keeps h
  | .mediaClockPeriod .. => execMediaClockPeriod_keeps h
  | .folioTick .. => execFolioTick_keeps h
  | .deadlineMiss .. => execDeadlineMiss_keeps h
  | .missingFolioTick .. => execMissingFolioTick_keeps h
  | .fabAbandon .. => execFabAbandon_keeps h
  | .omsMessage .. => execOmsMessage_keeps h
  | .glideEnd .. => execGlideEnd_keeps h
  | .geoTicketDone .. => execGeoTicketDone_keeps h
  | .fabTicketDone .. => execFabTicketDone_keeps h
  | .rootWrite .. => execRootWrite_keeps h
  | .headTicketDone .. => execHeadTicketDone_keeps h
  | .tailTicketDone .. => execTailTicketDone_keeps h
  | .outPhaseADone .. => execOutPhaseADone_keeps h
  | .outPhaseBDone .. => execOutPhaseBDone_keeps h
  | .mixerBlockDone .. => execMixerBlockDone_keeps h
  | .egressTicketDone .. => execEgressTicketDone_keeps h
  | .measTicketDone .. => execMeasTicketDone_keeps h
  | .sweepDone .. => execSweepDone_keeps h
  | .stallFill .. => execStallFill_keeps h
  | .generatorResume .. => execGeneratorResume_keeps h
  | .dmaCopyDone .. => execDmaCopyDone_keeps h
  | .dmaCopyError .. => execDmaCopyError_keeps h
  | .fxTicketStart .. => execFxTicketStart_keeps h
  | .fxTicketAbort .. => execFxTicketAbort_keeps h
  | .fxTicketLate .. => execFxTicketLate_keeps h
  | .fxInterruptEntry .. => execFxInterruptEntry_keeps h
  | .fxNop .. => execFxNop_keeps h
  | .fxMul .. => execFxMul_keeps h
  | .fxMac .. => execFxMac_keeps h
  | .fxMsu .. => execFxMsu_keeps h
  | .fxQmul .. => execFxQmul_keeps h
  | .fxQmac .. => execFxQmac_keeps h
  | .fxCmul .. => execFxCmul_keeps h
  | .fxCmac .. => execFxCmac_keeps h
  | .fxCmulc .. => execFxCmulc_keeps h
  | .fxCmacc .. => execFxCmacc_keeps h
  | .fxMva .. => execFxMva_keeps h
  | .fxMvah .. => execFxMvah_keeps h
  | .fxMval .. => execFxMval_keeps h
  | .fxMvag .. => execFxMvag_keeps h
  | .fxMvda .. => execFxMvda_keeps h
  | .fxAclr .. => execFxAclr_keeps h
  | .fxAadd .. => execFxAadd_keeps h
  | .fxAsra .. => execFxAsra_keeps h
  | .fxAdd .. => execFxAdd_keeps h
  | .fxSub .. => execFxSub_keeps h
  | .fxAddw .. => execFxAddw_keeps h
  | .fxSubw .. => execFxSubw_keeps h
  | .fxNeg .. => execFxNeg_keeps h
  | .fxAbs .. => execFxAbs_keeps h
  | .fxMin .. => execFxMin_keeps h
  | .fxMax .. => execFxMax_keeps h
  | .fxAnd .. => execFxAnd_keeps h
  | .fxOr .. => execFxOr_keeps h
  | .fxXor .. => execFxXor_keeps h
  | .fxNot .. => execFxNot_keeps h
  | .fxAsl .. => execFxAsl_keeps h
  | .fxAsr .. => execFxAsr_keeps h
  | .fxLsr .. => execFxLsr_keeps h
  | .fxCmp .. => execFxCmp_keeps h
  | .fxMov .. => execFxMov_keeps h
  | .fxLdi .. => execFxLdi_keeps h
  | .fxLdip .. => execFxLdip_keeps h
  | .fxLdim .. => execFxLdim_keeps h
  | .fxLdib .. => execFxLdib_keeps h
  | .fxLdil .. => execFxLdil_keeps h
  | .fxAddi .. => execFxAddi_keeps h
  | .fxCmpi .. => execFxCmpi_keeps h
  | .fxBr .. => execFxBr_keeps h
  | .fxCall .. => execFxCall_keeps h
  | .fxRet .. => execFxRet_keeps h
  | .fxLoop .. => execFxLoop_keeps h
  | .fxTrap .. => execFxTrap_keeps h
  | .fxRti .. => execFxRti_keeps h
  | .fxDone .. => execFxDone_keeps h
  | .fxMovr .. => execFxMovr_keeps h
  | .fxPadd .. => execFxPadd_keeps h
  | .fxCsrr .. => execFxCsrr_keeps h
  | .fxCsrw .. => execFxCsrw_keeps h
  | .tdmFrame .. => execTdmFrame_keeps h
  | .tdmClockLost .. => execTdmClockLost_keeps h
  | .zcTimeout .. => execZcTimeout_keeps h
  | .gateHoldExpiry .. => execGateHoldExpiry_keeps h
  | .frameReceived .. => execFrameReceived_keeps h
  | .pauseExpiry .. => execPauseExpiry_keeps h
  | .frameTransmit .. => execFrameTransmit_keeps h
  | .collision .. => execCollision_keeps h
  | .backoffExpiry .. => execBackoffExpiry_keeps h
  | .linkChange .. => execLinkChange_keeps h
  | .streamFrame .. => execStreamFrame_keeps h
  | .txPacket .. => execTxPacket_keeps h
  | .legDown .. => execLegDown_keeps h
  | .referenceEdge .. => execReferenceEdge_keeps h
  | .referenceLost .. => execReferenceLost_keeps h
  | .referenceMeasurement .. => execReferenceMeasurement_keeps h
  | .referenceSelection .. => execReferenceSelection_keeps h
  | .xoFail .. => execXoFail_keeps h
  | .sync .. => execSync_keeps h
  | .followUp .. => execFollowUp_keeps h
  | .delayResp .. => execDelayResp_keeps h
  | .announce .. => execAnnounce_keeps h
  | .announceTimeout .. => execAnnounceTimeout_keeps h
  | .reinEdge .. => execReinEdge_keeps h
  | .claim .. => execClaim_keeps h
  | .redrive .. => execRedrive_keeps h
  | .contentionWaitEnd .. => execContentionWaitEnd_keeps h
  | .selfFence .. => execSelfFence_keeps h
  | .mirror .. => execMirror_keeps h
  | .sched .. => execSched_keeps h
  | .cmdlog .. => execCmdlog_keeps h
  | .snap .. => execSnap_keeps h
  | .digest .. => execDigest_keeps h
  | .control .. => execControl_keeps h
  | .forward .. => execForward_keeps h
  | .clockMarker .. => execClockMarker_keeps h
  | .tetherDown .. => execTetherDown_keeps h
  | .laneFail .. => execLaneFail_keeps h
  | .resyncPassEnd .. => execResyncPassEnd_keeps h
  | .cutover .. => execCutover_keeps h
  | .resyncFail .. => execResyncFail_keeps h
  | .handoverSwap .. => execHandoverSwap_keeps h
  | .porRise .. => execPorRise_keeps h
  | .coldReset .. => execColdReset_keeps h
  | .warmReset .. => execWarmReset_keeps h
  | .watchdogTimeout .. => execWatchdogTimeout_keeps h
  | .boot .. => execBoot_keeps h
  | .sceneRestore .. => execSceneRestore_keeps h
  | .refWaitExpiry .. => execRefWaitExpiry_keeps h
  | .renderEntry .. => execRenderEntry_keeps h
  | .safeEntry .. => execSafeEntry_keeps h
  | .tempWarn .. => execTempWarn_keeps h
  | .tempSafe .. => execTempSafe_keeps h
  | .faultEntry .. => execFaultEntry_keeps h
  | .haltWake .. => execHaltWake_keeps h
  | .rtcAlarm .. => execRtcAlarm_keeps h
  | .supplyLoss .. => execSupplyLoss_keeps h
  | .retTimer .. => execRetTimer_keeps h
  | .offTimer .. => execOffTimer_keeps h
  | .domainWake .. => execDomainWake_keeps h
  | .drainComplete .. => execDrainComplete_keeps h
  | .drainTimeout .. => execDrainTimeout_keeps h
  | .restorationDone .. => execRestorationDone_keeps h
  | .spineTransaction .. => execSpineTransaction_keeps h
  | .masterDrainDone .. => execMasterDrainDone_keeps h
  | .bitSetWrite .. => execBitSetWrite_keeps h
  | .bitClearWrite .. => execBitClearWrite_keeps h
  | .groomerStep .. => execGroomerStep_keeps h
  | .groomerAbort .. => execGroomerAbort_keeps h
  | .groomerRetry .. => execGroomerRetry_keeps h
  | .rowRepair .. => execRowRepair_keeps h
  | .rowRetire .. => execRowRetire_keeps h
  | .refresh .. => execRefresh_keeps h
  | .selfRefreshEntry .. => execSelfRefreshEntry_keeps h
  | .selfRefreshExit .. => execSelfRefreshExit_keeps h
  | .calibration .. => execCalibration_keeps h
  | .dramThermal .. => execDramThermal_keeps h
  | .dramFailure .. => execDramFailure_keeps h
  | .probeGroupBoundary .. => execProbeGroupBoundary_keeps h
  | .autotrimStep .. => execAutotrimStep_keeps h
  | .silenceEnter .. => execSilenceEnter_keeps h
  | .eqCrossfadeEnd .. => execEqCrossfadeEnd_keeps h
  | .swapGroupPhase .. => execSwapGroupPhase_keeps h
  | .historyWaitEnd .. => execHistoryWaitEnd_keeps h
  | .d1Holdover .. => execD1Holdover_keeps h
  | .bridgeSlip .. => execBridgeSlip_keeps h
  | .pmcSnapPin .. => execPmcSnapPin_keeps h
  | .pmcMatch .. => execPmcMatch_keeps h
  | .counterWrap .. => execCounterWrap_keeps h
  | .bandwidthWindow .. => execBandwidthWindow_keeps h
  | .jtagChallenge .. => execJtagChallenge_keeps h
  | .jtagResponse .. => execJtagResponse_keeps h
  | .gpioEdge .. => execGpioEdge_keeps h
  | .mediaTimeLoRead .. => execMediaTimeLoRead_keeps h
  | .omsObjSel .. => execOmsObjSel_keeps h
  | .geoSpkSel .. => execGeoSpkSel_keeps h
  | .fabObjSel .. => execFabObjSel_keeps h
  | .fabClampLastRead .. => execFabClampLastRead_keeps h
  | .outMonSel .. => execOutMonSel_keeps h
  | .convOutSel .. => execConvOutSel_keeps h
  | .txtsPop .. => execTxtsPop_keeps h
  | .macStatRead .. => execMacStatRead_keeps h
  | .macRuleGo .. => execMacRuleGo_keeps h
  | .mdioGo .. => execMdioGo_keeps h
  | .clkDcoLoRead .. => execClkDcoLoRead_keeps h
  | .ptpTimeNsRead .. => execPtpTimeNsRead_keeps h
  | .spnErrlogPop .. => execSpnErrlogPop_keeps h
  | .memErrlogPop .. => execMemErrlogPop_keeps h
  | .memBankSel .. => execMemBankSel_keeps h
  | .dmcErrlogPop .. => execDmcErrlogPop_keeps h
  | .pwrRtcLoRead .. => execPwrRtcLoRead_keeps h
  | .pmcCntLoRead .. => execPmcCntLoRead_keeps h
  | .pmcSnapLoRead .. => execPmcSnapLoRead_keeps h
  | .pmcSelWrite .. => execPmcSelWrite_keeps h
  | .pmcMmaskWrite .. => execPmcMmaskWrite_keeps h
  | .clrAll .. => execClrAll_keeps h
  | .run .. => execRun_keeps h
  | .freeze .. => execFreeze_keeps h
  | .snapTrigger .. => execSnapTrigger_keeps h
  | .gpioSet .. => execGpioSet_keeps h
  | .gpioClr .. => execGpioClr_keeps h
  | .w1cWrite .. => execW1cWrite_keeps h
  | .rcRead .. => execRcRead_keeps h
  | .registerWrite .. => execRegisterWrite_keeps h
  | .tetherUp .. => execTetherUp_keeps h
  | .xoReturn .. => execXoReturn_keeps h
  | .delayReqInterval .. => execDelayReqInterval_keeps h
  | .syncInterval .. => execSyncInterval_keeps h
  | .keepAlive .. => execKeepAlive_keeps h
  | .peerReadyLapse .. => execPeerReadyLapse_keeps h
  | .d1BlockBoundary .. => execD1BlockBoundary_keeps h
  | .mdioFrameDone .. => execMdioFrameDone_keeps h
  | .refreshWindow .. => execRefreshWindow_keeps h
  | .configurationPhaseDone .. => execConfigurationPhaseDone_keeps h
  | .ctrlRestart .. => execCtrlRestart_keeps h
  | .testEnChange .. => execTestEnChange_keeps h

/-- A step keeps all but the front of the queue. -/
theorem step_keeps {s t : State} (h : step s = .next t) : Keeps false { s with pending := s.pending.tail } t := by
  unfold step at h
  split at h
  next hp =>
    cases h
    exact Keeps.of_eq (.rfl' _ _) rfl rfl rfl rfl (by simp [hp])
  next c rest hp =>
    simpa only [hp, List.tail_cons] using ((exec_keeps c _).st t h).weaken

/-- Settles O49: the canonical forms do not depend on the queue, and every row keeps them. -/
theorem stepKeepsForm : Obligations.StepKeepsForm := by
  unfold Obligations.StepKeepsForm
  intro s t hs h
  exact (step_keeps h).wf hs

/-- Settles O52: the law of a row that may not store says that it is quiet. -/
theorem quietRowsLeaveMemory : Obligations.QuietRowsLeaveMemory := by
  unfold Obligations.QuietRowsLeaveMemory
  intro i s t hi h
  obtain ⟨hmem, hpoison, hotp⟩ := ((exec_keeps i s).st t h).same (by rw [hi]; rfl)
  exact ⟨State.rdByte_congr hmem, hmem, hpoison, hotp⟩

/-! ### The state after reset -/

@[simp] theorem State.rd_reset (a : Nat) : State.reset.rd a = (regReset .rk8640 a).toNat := rfl

@[simp] theorem State.rdByte_reset (a : Nat) : State.reset.rdByte a = memDefault := rfl

theorem State.wf_reset : State.reset.wf = true := rfl

/-- Settles O48: nothing is listed after reset, so every read is of the register map or the default; the map is evaluated
at the registers the statement names. -/
theorem resetState : Obligations.ResetState := by
  unfold Obligations.ResetState
  intro s
  refine ⟨rfl, State.wf_reset, State.rd_reset, State.rdByte_reset, rfl, rfl, rfl, ?_⟩
  decide +kernel

/-! ### Interrupt requests -/

theorem and_ne_zero_iff_exists_testBit (x y : Nat) :
    x &&& y ≠ 0 ↔ ∃ k, x.testBit k = true ∧ y.testBit k = true := by
  constructor
  · intro h
    obtain ⟨k, hk⟩ := Nat.exists_testBit_of_ne_zero h
    exact ⟨k, by simpa using hk⟩
  · rintro ⟨k, hx, hy⟩ h
    have hk : (x &&& y).testBit k = true := by simp [hx, hy]
    simp [h] at hk

theorem State.blockIrq_iff (s : State) (b : Nat) :
    s.blockIrq b = true ↔ ∃ k, (s.rd (0x40000000 + b * 0x100000)).testBit k = true ∧
      (s.rd (0x40000000 + b * 0x100000 + 4)).testBit k = true := by
  rw [← and_ne_zero_iff_exists_testBit]
  exact bne_iff_ne

/-- The first two words of every block in the register map (R10): the status register, all W1C, and the enable register,
all RW. -/
theorem irq_rowMasks : ∀ b, b < 26 →
    let stat := 0x40000000 + b * 0x100000
    (rowMask stat (·.w1c) ≠ 0 ∧ rowMask stat (fun r => r.rw ||| r.rws ||| r.wo ||| r.w1s ||| r.rc ||| r.ro) = 0) ∧
    rowMask (stat + 4) (·.rw) ≠ 0 ∧
    rowMask (stat + 4) (fun r => r.w1c ||| r.rws ||| r.wo ||| r.w1s ||| r.rc ||| r.ro) = 0 := by
  decide +kernel

/-- Settles O58: the masks are read from the register map, and the request is the meeting of two registers. -/
theorem blocksRequestInterrupts : Obligations.BlocksRequestInterrupts := by
  unfold Obligations.BlocksRequestInterrupts
  intro b hb stat
  obtain ⟨⟨hw1c, hstat⟩, hrw, hen⟩ := irq_rowMasks b hb
  exact ⟨hw1c, hstat, hrw, hen, fun s => s.blockIrq_iff b⟩

/-! ### Rows of register accesses -/

/-- A row with one meaning in every state. -/
theorem Happens.of_exec {i : Nat → Instr} {eff : State → State}
    (h : ∀ t s, exec (i t) s = .next (eff (s.atTime t))) : Happens i anyState eff :=
  fun t s _ => h t s

theorem macRuleGo_happens {m : Nat} (hm : m < 3) : Happens (.macRuleGo m) anyState (fun u => u.ruleSwap m) :=
  .of_exec fun _ _ => if_pos hm

theorem mdioGo_happens {v : Nat} (hv : v.testBit 31 = true) :
    Happens (.mdioGo v) (fun u => u.flag (Reg.MAC_MDIO 2) Fl.MAC_MDIO_GO = false) (fun u => u.mdioGo v) :=
  fun _ _ hgo => if_neg (by simp [hgo, hv])

/-- A pin that changes its level is stored; the select bits of its field of `GPIO_EDGE` decide its status bit (R619). -/
theorem gpioEdge_happens {k : Nat} (level : Bool) (hk : k < 16) :
    Happens (.gpioEdge k level) (fun u => u.aonClocked = true ∧ (u.rd Reg.GPIO_IN).testBit k ≠ level)
      (fun u =>
        let v := u.wr Reg.GPIO_IN (setBitN (u.rd Reg.GPIO_IN) k level)
        if (bitsN (v.rd Reg.GPIO_EDGE) (2 * k + 1) (2 * k)).testBit (if level then 0 else 1) then
          v.irq Reg.GPIO_IRQ_STAT ⟨k, k⟩
        else v) := by
  rintro t s ⟨hclk, hpin⟩
  have hacts : ¬ (!(s.atTime t).aonClocked ∨ 16 ≤ k ∨ ((s.atTime t).rd Reg.GPIO_IN).testBit k = level) := by
    simp [hclk, hpin, hk]
  exact (if_neg hacts).trans (apply_ite Host.Outcome.next _ _ _).symm

theorem jtagChallenge_happens (rnd : List Byte) :
    Happens (.jtagChallenge rnd) (fun u => u.challengeOn = true ∧ u.jtagFails < 8)
      (fun u => { u.readReturns (leVal (slice rnd 0 32 ++ by8 u.otp.uid)) with
        sys.jtagChal := some (slice rnd 0 32 ++ by8 u.otp.uid) }) := by
  rintro t s ⟨hon, hfails⟩
  change execJtagChallenge rnd t s = _
  simp only [execJtagChallenge, hon, Nat.not_le.2 hfails, Bool.not_true, Bool.false_eq_true, if_false]

/-- After eight failures there is no challenge (R617). -/
theorem jtagChallenge_lockedOut_happens (rnd : List Byte) :
    Happens (.jtagChallenge rnd) (fun u => u.challengeOn = true ∧ 8 ≤ u.jtagFails)
      (fun u => { u.readReturns 0 with sys.jtagChal := none }) := by
  rintro t s ⟨hon, hfails⟩
  change execJtagChallenge rnd t s = _
  simp only [execJtagChallenge, hon, hfails, Bool.not_true, Bool.false_eq_true, if_false, if_true]

theorem jtagResponse_right_happens (bytes c : List Byte) :
    Happens (.jtagResponse bytes)
      (fun u => u.challengeOn = true ∧ u.sys.jtagChal = some c ∧ u.responseOk bytes c = true)
      (fun u => { ({ u with sys.jtagChal := none } : State).irq Reg.SEC_IRQ_STAT Fl.SEC_IRQ_STAT_JTAG_OPEN with
        sys.jtagOpen := true }) := by
  rintro t s ⟨hon, hchal, hok⟩
  change execJtagResponse bytes t s = _
  simp only [execJtagResponse, hon, hchal, hok, Option.any_some, Bool.not_true, Bool.false_eq_true, if_false, if_true]

/-- A response to no challenge is as wrong as one that does not match it. -/
theorem jtagResponse_wrong_happens (bytes : List Byte) :
    Happens (.jtagResponse bytes)
      (fun u => u.challengeOn = true ∧ ∀ c, u.sys.jtagChal = some c → u.responseOk bytes c = false)
      (fun u =>
        let v : State := { u with sys.jtagChal := none }
        (v.setFld Reg.SEC_JTAG_STAT Fl.SEC_JTAG_STAT_FAILS (min 15 (v.jtagFails + 1))).irq
          Reg.SEC_IRQ_STAT Fl.SEC_IRQ_STAT_JTAG_FAIL) := by
  rintro t s ⟨hon, hwrong⟩
  have hany : (s.atTime t).sys.jtagChal.any (fun c => (s.atTime t).responseOk bytes c) = false := by
    simpa [Option.any_eq_false] using hwrong
  change execJtagResponse bytes t s = _
  simp only [execJtagResponse, hon, hany, Bool.not_true, Bool.false_eq_true, if_false]

/-- Settles O41: a row without a condition is its meaning; each of the others has its lemma. -/
theorem registerAccessesComplete : Obligations.RegisterAccessesComplete := by
  unfold Obligations.RegisterAccessesComplete
  exact
    ⟨.of_exec fun _ _ => rfl, -- SYS_MEDIA_TIME_LO
    fun _ => .of_exec fun _ _ => rfl, -- OMS_OBJ_SEL
    fun _ => .of_exec fun _ _ => rfl, -- GEO_SPK_SEL
    fun _ => .of_exec fun _ _ => rfl, -- FAB_OBJ_SEL
    .of_exec fun _ _ => rfl, -- FAB_CLAMP_LAST
    fun _ => .of_exec fun _ _ => rfl, -- OUT_MON_SEL
    fun _ => .of_exec fun _ _ => rfl, -- CONV_OUT_SEL
    fun _ => .of_exec fun _ _ => rfl, -- MAC_TXTS_W0
    fun _ _ => .of_exec fun _ _ => rfl, -- MAC_STAT_LO
    fun _ hm => macRuleGo_happens hm,
    fun _ hv => mdioGo_happens hv,
    .of_exec fun _ _ => rfl, -- CLK_DCO_LO
    .of_exec fun _ _ => rfl, -- PTP_TIME_NS
    .of_exec fun _ _ => rfl, -- SPN_ERRLOG
    .of_exec fun _ _ => rfl, -- MEM_ERRLOG
    fun _ => .of_exec fun _ _ => rfl, -- MEM_BANK_SEL
    .of_exec fun _ _ => rfl, -- DMC_ERRLOG
    .of_exec fun _ _ => rfl, -- PWR_RTC_LO
    fun _ => .of_exec fun _ _ => rfl, -- PMC_CNT_LO
    fun _ => .of_exec fun _ _ => rfl, -- PMC_SNAP_LO
    fun _ => .of_exec fun _ _ => rfl, -- GPIO_SET
    fun _ => .of_exec fun _ _ => rfl, -- GPIO_CLR
    fun _ level hk => gpioEdge_happens level hk,
    jtagChallenge_happens,
    jtagChallenge_lockedOut_happens,
    jtagResponse_right_happens,
    jtagResponse_wrong_happens⟩

/-! ### The register bus -/

theorem registerWrite_reaches {a n : Nat} (m v : Nat) :
    Happens (.registerWrite m a n v) (fun u => (blockOf a).isSome = true ∧ u.regCause a n = none)
      (fun u => u.writeReg a v) := by
  rintro t s ⟨hblock, hcause⟩
  obtain ⟨b, hb⟩ := Option.isSome_iff_exists.1 hblock
  change execRegisterWrite m a n v t s = _
  simp only [execRegisterWrite, hb, hcause]

theorem registerWrite_turnedAway {a n : Nat} (m v c : Nat) :
    Happens (.registerWrite m a n v) (fun u => (blockOf a).isSome = true ∧ u.regCause a n = some c)
      (fun u => u.decErr ⟨true, c, 7, m, a⟩) := by
  rintro t s ⟨hblock, hcause⟩
  obtain ⟨b, hb⟩ := Option.isSome_iff_exists.1 hblock
  change execRegisterWrite m a n v t s = _
  simp only [execRegisterWrite, hb, hcause]

/-- The guard of the rows `W1C_WRITE` and `RC_READ` lets an access through that reaches its register. -/
theorem not_blocked {a : Nat} {u : State} (h : (blockOf a).isSome = true ∧ u.regCause a 4 = none) :
    ¬ ((blockOf a).isNone = true ∨ (u.regCause a 4).isSome = true) := by
  obtain ⟨hblock, hcause⟩ := h
  simp [Option.isSome_iff_ne_none.1 hblock, hcause]

/-- Settles O42: each row's guard is decided by the statement's condition. -/
theorem registerBusCompletes : Obligations.RegisterBusCompletes := by
  unfold Obligations.RegisterBusCompletes
  intro there
  exact ⟨fun m _ _ v => registerWrite_reaches m v, fun m _ _ v c => registerWrite_turnedAway m v c,
    fun _ _ _ _ _ h => if_neg (not_blocked h), fun _ _ _ _ h => if_neg (not_blocked h)⟩

end Sys2Proof.Machine

/-!
Media time and the folio tick (R14, R21, R40, R127, R140, R154, R681), and the events of boot, reset, SAFE, FAULT, HALT and
restoration (R601 to R617, R631, R632).
-/

namespace Sys2Proof.Machine

/-! ### Media time and the folio tick -/

theorem folioTick_due {pdm : List (Nat × Nat × Nat)} {t : Nat} {s : State} (hdue : (s.atTime t).tickDue = true) :
    exec (.folioTick pdm t) s = .next (s.released (((s.atTime t).folioTick pdm).logDue)) :=
  if_pos hdue

theorem fabAbandon_happens (n : Nat) :
    Happens .fabAbandon (fun u => u.fab.folio = some n ∧ n + 2 ≤ u.slot) (fun u => u.abandonFab) := by
  rintro t s ⟨hfolio, hlate⟩
  change execFabAbandon t s = _
  simp only [execFabAbandon, hfolio, hlate, if_true]

theorem omsMessage_happens (m : OmsMsg) (ms : List OmsMsg) :
    Happens .omsMessage (fun u => u.oms.rx = m :: ms) (fun u => ({ u with oms.rx := ms } : State).parseOms m) := by
  intro t s hrx
  change execOmsMessage t s = _
  simp only [execOmsMessage, hrx]

theorem glideEnd_happens (k : Nat) (o : Slot) (g : Glide) :
    Happens (.glideEnd k) (fun u => u.slotAt k = some o ∧ o.glide = some g ∧ g.first + g.len ≤ u.slot)
      (fun u => u.setSlot k { o with glide := none }) := by
  rintro t s ⟨hslot, hglide, hover⟩
  change execGlideEnd k t s = _
  simp only [execGlideEnd, hslot, hglide, hover, if_true]

/-- Settles O27: a row's guard is the statement's condition, and a row that takes an entry finds the one named. -/
theorem timeEventsComplete : Obligations.TimeEventsComplete := by
  unfold Obligations.TimeEventsComplete
  exact
    ⟨.of_exec fun _ _ => rfl, -- MEDIA_CLOCK_PERIOD
    fun _ _ _ hdue => folioTick_due hdue,
    fun _ _ hmissed => if_pos hmissed, -- DEADLINE_MISS
    fun _ _ hmissing => if_pos hmissing, -- MISSING_FOLIO_TICK
    fabAbandon_happens,
    omsMessage_happens,
    glideEnd_happens⟩

/-! ### Resets -/

/-- A reset leaves the mode that the strap of the boot source gives: HALT for 3, BOOT otherwise (R599). -/
theorem porRise_happens (pair : Bool) (unitId twi src : Nat) :
    Happens (.porRise pair unitId twi src) (fun u => u.sys.porN = false)
      (fun u =>
        let v := ({ u with sys.porN := true, sys.porTime := u.now,
                           sys.straps := ⟨pair, unitId % 2, twi % 8, src % 4⟩ } : State).startPair
        if src % 4 = 3 then (v.setFld Reg.SYS_MODE Fl.SYS_MODE_MODE mHALT).allOff
        else v.setFld Reg.SYS_MODE Fl.SYS_MODE_MODE mBOOT) := by
  intro t s hlow
  have hacts : ¬ (s.atTime t).sys.porN = true := by simp [hlow]
  exact (if_neg hacts).trans (apply_ite Host.Outcome.next _ _ _).symm

/-- Each cause of `SYS_RST_CAUSE` that the row stands for, in the modes it comes from. -/
theorem warmReset_happens (c : Nat) :
    Happens (.warmReset c) (fun u => (c = 3 ∧ u.mode = mHALT) ∨ (c = 4 ∧ u.mode = mSAFE) ∨
      ((c = 1 ∨ c = 2) ∧ u.mode ≠ mHALT ∧ u.mode ≠ mSAFE)) (fun u => u.warmReset c) := by
  rintro t s (⟨rfl, hhalt⟩ | ⟨rfl, hsafe⟩ | ⟨rfl | rfl, hhalt, hsafe⟩)
  case inl => exact if_pos (beq_iff_eq.2 hhalt)
  case inr.inl => exact if_pos (beq_iff_eq.2 hsafe)
  all_goals exact if_pos (by simp [hhalt, hsafe])

theorem ctrlRestart_happens :
    Happens .ctrlRestart (fun u => u.cmd.ctrlDown = true ∧ u.mode ≠ mHALT ∧ u.mode ≠ mSAFE ∧ u.sys.testEn = false)
      (fun u => { u with cmd.ctrlDown := false }) := by
  rintro t s ⟨hdown, hhalt, hsafe, htest⟩
  exact if_pos (by simp [hdown, hhalt, hsafe, htest])

theorem testEnChange_rises_happens :
    Happens (.testEnChange true) (fun u => u.sys.testEn = false)
      (fun u =>
        let v := (((List.range 18).map (· + 1)).filter (domainPresent u.otp.grade)).foldl (fun v d => v.resetDomain d)
          u.abandonLong
        { v with sys.testEn := true, cmd.ctrlDown := true, dp.on := false }) := by
  intro t s hlow
  have hchange : ¬ true = (s.atTime t).sys.testEn := by simp [hlow]
  exact (if_neg hchange).trans (if_pos rfl)

theorem testEnChange_falls_happens :
    Happens (.testEnChange false) (fun u => u.sys.testEn = true) (fun u => { u with sys.testEn := false }) := by
  intro t s hhigh
  have hchange : ¬ false = (s.atTime t).sys.testEn := by simp [hhigh]
  exact (if_neg hchange).trans (if_neg Bool.false_ne_true)

/-! ### Boot and restoration -/

/-- The state that a boot from the strapped source leaves (R607, R610), once the repairs are applied again: a host on HSP
is awaited, and a flash without a bootable slot ends in the wait or in FAULT. -/
def State.bootSource (u : State) (trained : Bool) : State :=
  if u.sys.straps.bootSrc = 1 then u.waitHost
  else (u.bootFlash trained).getD (if u.sys.straps.bootSrc = 2 then u.waitHost else u.noFirmware)

/-- The device is in BOOT, with neither a host's firmware to start nor a host to wait for. -/
def State.bootReads (u : State) : Prop :=
  u.mode = mBOOT ∧ u.sys.porN = true ∧ u.sys.firm.goPending = false ∧ u.sys.firm.waitHsp = false

/-- The row `BOOT` boots from the strapped source. -/
theorem boot_reads (trained : Bool) :
    Happens (.boot trained) State.bootReads (fun u => u.reapplyRepairs.bootSource trained) := by
  rintro t s ⟨hmode, hpor, hgo, hwait⟩
  change execBoot trained t s = _
  simp only [execBoot, State.bootSource, hmode, hpor, hgo, hwait, ne_eq, not_true_eq_false, Bool.true_eq_false,
    Bool.false_eq_true, or_self, if_false]
  split
  · rfl
  · cases (s.atTime t).reapplyRepairs.bootFlash trained <;> rfl

theorem boot_goes_happens (trained : Bool) :
    Happens (.boot trained) (fun u => u.mode = mBOOT ∧ u.sys.porN = true ∧ u.sys.firm.goPending = true)
      (fun u => u.startFirmware trained none) := by
  rintro t s ⟨hmode, hpor, hgo⟩
  have hboot : ¬ ((s.atTime t).mode ≠ mBOOT ∨ (s.atTime t).sys.porN = false) := by simp [hmode, hpor]
  exact (if_neg hboot).trans (if_pos hgo)

theorem boot_hsp_happens (trained : Bool) :
    Happens (.boot trained)
      (fun u => u.mode = mBOOT ∧ u.sys.porN = true ∧ u.sys.firm.goPending = false ∧ u.sys.firm.waitHsp = false ∧
        u.reapplyRepairs.sys.straps.bootSrc = 1)
      (fun u => u.reapplyRepairs.waitHost) := by
  rintro t s ⟨hmode, hpor, hgo, hwait, hsrc⟩
  simpa only [State.bootSource, if_pos hsrc] using boot_reads trained t s ⟨hmode, hpor, hgo, hwait⟩

theorem boot_flash_happens (trained : Bool) (v : State) :
    Happens (.boot trained)
      (fun u => (u.mode = mBOOT ∧ u.sys.porN = true ∧ u.sys.firm.goPending = false ∧ u.sys.firm.waitHsp = false ∧
        u.reapplyRepairs.sys.straps.bootSrc ≠ 1) ∧ u.reapplyRepairs.bootFlash trained = some v)
      (fun _ => v) := by
  rintro t s ⟨⟨hmode, hpor, hgo, hwait, hsrc⟩, hflash⟩
  simpa only [State.bootSource, if_neg hsrc, hflash, Option.getD_some] using boot_reads trained t s ⟨hmode, hpor, hgo, hwait⟩

theorem boot_noFlash_happens (trained : Bool) :
    Happens (.boot trained)
      (fun u => (u.mode = mBOOT ∧ u.sys.porN = true ∧ u.sys.firm.goPending = false ∧ u.sys.firm.waitHsp = false ∧
        u.reapplyRepairs.sys.straps.bootSrc ≠ 1) ∧ u.reapplyRepairs.bootFlash trained = none)
      (fun u => if u.reapplyRepairs.sys.straps.bootSrc = 2 then u.reapplyRepairs.waitHost else u.reapplyRepairs.noFirmware) := by
  rintro t s ⟨⟨hmode, hpor, hgo, hwait, hsrc⟩, hflash⟩
  simpa only [State.bootSource, if_neg hsrc, hflash, Option.getD_none] using boot_reads trained t s ⟨hmode, hpor, hgo, hwait⟩

/-- The scene is restored in LOAD where neither a reference nor a change of mode is awaited (R612, R613). -/
theorem sceneRestore_happens :
    Happens .sceneRestore (fun u => u.mode = mLOAD ∧ u.sys.refWait = false ∧ u.sys.modeAt = none)
      (fun u =>
        let v := u.loadJnlCfg.replay u.jnl.store u.jnl.recs
        let w : State := { v with sys.idleOnly := false }
        if v.resumes then { w.wakeAll w.planeDomains true with sys.refWait := true } else w.setMode mIDLE) := by
  rintro t s ⟨hmode, hwait, hat⟩
  have hacts : ¬ ((s.atTime t).mode ≠ mLOAD ∨ (s.atTime t).sys.refWait = true ∨ (s.atTime t).sys.modeAt.isSome = true) := by
    simp [hmode, hwait, hat]
  exact if_neg hacts

theorem renderEntry_happens (m : Nat) :
    Happens .renderEntry
      (fun u => u.entryGoal = some m ∧ (m = mRENDER ∨ m = mMEASURE) ∧ u.mode ≠ mSTANDBY ∧
        u.sys.lastTick = some u.sys.mediaTime ∧ u.planePowered = true)
      (fun u => (u.setMode m).startPlane m (u.slot + 1)) := by
  rintro t s ⟨hgoal, hentry⟩
  change execRenderEntry t s = _
  simp only [execRenderEntry, hgoal]
  exact if_pos hentry

/-! ### SAFE, HALT and the alarm -/

/-- Of the causes of R601 that last, the lowest code that holds is the head of those that hold. -/
theorem State.safeCause_head {u : State} {c : Nat} (hc : u.safeCause c = true) (hpos : 1 ≤ c) (hle : c ≤ 4)
    (hlow : ∀ d, 1 ≤ d → d < c → u.safeCause d = false) : ([1, 2, 3, 4].filter u.safeCause).head? = some c := by
  change ((List.range' 1 4).filter u.safeCause).head? = some c
  rw [List.head?_filter, List.find?_range'_eq_some]
  exact ⟨hc, List.mem_range'_1.2 ⟨hpos, by omega⟩, fun d h1 hd => by rw [hlow d h1 hd]; rfl⟩

theorem safeEntry_happens (c : Nat) :
    Happens (.safeEntry c)
      (fun u => u.safeCause c = true ∧ 1 ≤ c ∧ c ≤ 4 ∧ ∀ d, 1 ≤ d → d < c → u.safeCause d = false)
      (fun u => u.enterSafe c) := by
  rintro t s ⟨hc, hpos, hle, hlow⟩
  change execSafeEntry c t s = _
  simp only [execSafeEntry, State.safeCause_head hc hpos hle hlow, hc, if_true]

theorem tempSafe_happens {temp : Int} (hhot : 1150 ≤ temp) :
    Happens (.tempSafe temp) anyState (fun u => (u.setTemp temp).enterSafe 1) :=
  .of_exec fun _ _ => if_pos hhot

/-- The guard of `HALT_WAKE` lets the wake of a device in HALT through. -/
theorem halted_wakes {u : State} (hmode : u.mode = mHALT) (hpor : u.sys.porN = true) :
    ¬ (u.mode ≠ mHALT ∨ u.sys.porN = false) := by
  simp [hmode, hpor]

theorem haltWake_address_happens :
    Happens (.haltWake 0) (fun u => u.mode = mHALT ∧ u.sys.porN = true)
      (fun u => (u.warmReset 3).bump Reg.CMD_TWI_WAKE) :=
  fun _ _ ⟨hmode, hpor⟩ => if_neg (halted_wakes hmode hpor)

theorem haltWake_alarm_happens :
    Happens (.haltWake 1)
      (fun u => u.mode = mHALT ∧ u.sys.porN = true ∧ u.alarmDue = true ∧ u.flag Reg.PWR_CFG Fl.PWR_CFG_ALARM_EN = true)
      (fun u => u.warmReset 3) :=
  fun _ _ ⟨hmode, hpor, hdue, hen⟩ => (if_neg (halted_wakes hmode hpor)).trans (if_pos (by simp [hdue, hen]))

theorem haltWake_reinIn_happens :
    Happens (.haltWake 2) (fun u => u.mode = mHALT ∧ u.sys.porN = true ∧ u.paired = true) (fun u => u.warmReset 3) :=
  fun _ _ ⟨hmode, hpor, hpaired⟩ => (if_neg (halted_wakes hmode hpor)).trans (if_pos hpaired)

/-- The alarm of a device that is not in HALT is its status bit alone: the row asks for the mode behind that bit. -/
theorem rtcAlarm_happens :
    Happens .rtcAlarm (fun u => u.alarmDue = true ∧ u.mode ≠ mHALT)
      (fun u => u.irq Reg.PWR_IRQ_STAT Fl.PWR_IRQ_STAT_RTC) := by
  rintro t s ⟨hdue, hmode⟩
  have hawake : ((s.atTime t).irq Reg.PWR_IRQ_STAT Fl.PWR_IRQ_STAT_RTC).mode ≠ mHALT := by
    rwa [State.mode_irq _ _ _ (by decide)]
  exact (if_neg (by simp [hdue])).trans (if_neg fun h => hawake h.1)

/-- Settles O25: a row whose guard is the statement's condition completes by it; each of the others has its lemma. -/
theorem modeEventsComplete : Obligations.ModeEventsComplete := by
  unfold Obligations.ModeEventsComplete
  exact
    ⟨fun _ _ hfull => if_pos hfull, -- JOURNAL_COMPACT
    porRise_happens,
    .of_exec fun _ _ => rfl, -- COLD_RESET
    warmReset_happens,
    boot_goes_happens,
    boot_hsp_happens,
    ⟨boot_flash_happens, boot_noFlash_happens⟩,
    sceneRestore_happens,
    fun _ _ hover => if_pos hover, -- REF_WAIT_EXPIRY
    renderEntry_happens,
    safeEntry_happens,
    fun _ => .of_exec fun _ _ => rfl, -- TEMP_WARN
    fun _ hhot => tempSafe_happens hhot,
    fun _ _ hnone => if_pos hnone, -- FAULT_ENTRY
    haltWake_address_happens,
    haltWake_alarm_happens,
    haltWake_reinIn_happens,
    rtcAlarm_happens,
    .of_exec fun _ _ => rfl, -- SUPPLY_LOSS
    ctrlRestart_happens,
    testEnChange_rises_happens,
    testEnChange_falls_happens,
    fun _ _ _ hwaking => if_pos hwaking, -- RESTORATION_DONE
    fun _ _ _ _ hphase => if_pos hphase⟩ -- CONFIGURATION_PHASE_DONE

end Sys2Proof.Machine

/-!
The statistics commands (R73, R125, R146, R187 and the command tables of the other blocks), and the commands of objects, their
metadata and their run-ahead (R69 to R72, R74, R145).
-/

namespace Sys2Proof.Machine

/-! ### Statistics -/

/-- A row whose body takes the counters `taken` of its block, which are those at the addresses `regs`. -/
theorem takeCounters_answers {i : Packet → Instr} {op : Nat} {taken regs : List Nat} (hregs : taken = regs)
    (hi : ∀ p s, exec (i p) s = runPacket (cmdRow op 2 false 0 0 fwModes false) p
      (fun u => .ok (u.takeCounters taken).1 (u.takeCounters taken).2) s) :
    Answers i (cmdRow op 2 false 0 0 fwModes false) always (fun _ u => regs.foldl (fun u a => u.wr a 0) u)
      (fun _ u => regs.flatMap (fun a => by4 (u.rd a))) := by
  subst hregs
  exact .of_body (fun _ u => .ok (u.takeCounters taken).1 (u.takeCounters taken).2) hi fun _ _ _ => rfl

/-- The counters of R68 are words one after the other. -/
theorem omsCounters_eq : omsCounters = (List.range 13).map (fun k => 0x40800040 + 4 * k) := by decide

theorem geoCounters_eq : geoCounters = (List.range 8).map (fun k => 0x40900060 + 4 * k) := by decide

/-- The counters of R144 are words one after the other. -/
theorem raCounters_eq : raCounters = (List.range 8).map (fun k => 0x40900080 + 4 * k) := by decide

theorem fabCounters_eq : fabCounters = (List.range 11).map (fun k => 0x40A00040 + 4 * k) := by decide

/-- Settles O7: the body of every row takes the counters its block lists, and a list of consecutive words is the block's. -/
theorem statisticsReturnAndClear : Obligations.StatisticsReturnAndClear := by
  unfold Obligations.StatisticsReturnAndClear
  exact
    ⟨takeCounters_answers rfl fun _ _ => rfl, -- PWR_STATS
    takeCounters_answers rfl fun _ _ => rfl, -- CLK_STATS
    takeCounters_answers rfl fun _ _ => rfl, -- PTP_STATS
    takeCounters_answers rfl fun _ _ => rfl, -- STRM_STATS
    takeCounters_answers omsCounters_eq fun _ _ => rfl, -- OMS_STATS
    takeCounters_answers geoCounters_eq fun _ _ => rfl, -- GEO_STATS
    takeCounters_answers raCounters_eq fun _ _ => rfl, -- GEO_RA_STATS
    takeCounters_answers fabCounters_eq fun _ _ => rfl, -- FAB_STATS
    takeCounters_answers rfl fun _ _ => rfl, -- OUT_STATS
    takeCounters_answers rfl fun _ _ => rfl, -- CONV_STATS
    takeCounters_answers rfl fun _ _ => rfl, -- MEAS_STATS
    takeCounters_answers rfl fun _ _ => rfl, -- MIX_STATS
    takeCounters_answers rfl fun _ _ => rfl, -- TDM_STATS
    takeCounters_answers rfl fun _ _ => rfl, -- PAIR_STATS
    takeCounters_answers rfl fun _ _ => rfl, -- FX_STATS
    takeCounters_answers rfl fun _ _ => rfl, -- STBL_STATS
    takeCounters_answers rfl fun _ _ => rfl, -- SPN_STATS
    takeCounters_answers rfl fun _ _ => rfl, -- MEM_STATS
    takeCounters_answers rfl fun _ _ => rfl⟩ -- DMC_STATS

/-! ### Objects -/

/-- The other slots that are configured. -/
def State.otherSlots (u : State) (k : Nat) : List (Nat × Slot) := u.oms.slots.filter (fun o => o.1 != k)

/-- What `OBJ_CONFIG` asks of its packet and of the budgets of crosspoints and window memory (R69), whether the slot is
configured yet or not. -/
def ObjConfigFits (p : Packet) (u : State) : Prop :=
  u16 p.params 0 ≤ 1023 ∧ 1 ≤ u8 p.params 2 ∧ u8 p.params 2 ≤ 64 ∧ u8 p.params 3 ≤ 4 ∧ zeroAt p.params 4 4 = true ∧
    ((u.otherSlots (u16 p.params 0)).map (fun o => o.2.quota)).sum + u8 p.params 2 ≤ u.limit 2 ∧
    ((u.otherSlots (u16 p.params 0)).map (fun o => classLen o.2.cls)).sum + classLen (u8 p.params 3) ≤ u.limit 3

/-- The slot that the packet names is `o` with the packet's quota, and its FIFO has its DRAM. -/
def State.putObj (u : State) (p : Packet) (o : Slot) : State :=
  { u.setSlot (u16 p.params 0) { o with quota := u8 p.params 2 } with
    plan.quotas := Tab.put u.plan.quotas (u16 p.params 0) (u8 p.params 2) }.reserve (ownFifo (u16 p.params 0)) fifoBytes

/-- `o` in the class of the packet from the next folio on, in the lowest pages free once its own are. -/
def State.resized (u : State) (p : Packet) (o : Slot) : Slot :=
  { o with
    cls := u8 p.params 3
    pages := (u.setSlot (u16 p.params 0) { o with pages := [] }).freePages (2 ^ u8 p.params 3)
    was := o.was ++ [(u.slot + 1, o.cls, o.pages)] }

section
variable {p : Packet} {u : State} {o : Slot} (hfits : ObjConfigFits p u)
include hfits

theorem ObjConfigFits.paramsOk :
    ¬ (1023 < u16 p.params 0 ∨ u8 p.params 2 < 1 ∨ 64 < u8 p.params 2 ∨ 4 < u8 p.params 3 ∨
      (!zeroAt p.params 4 4) = true) := by
  obtain ⟨hslot, hlow, hhigh, hcls, hzero, -⟩ := hfits
  rintro (h | h | h | h | h)
  · exact Nat.not_lt.2 hslot h
  · exact Nat.not_lt.2 hlow h
  · exact Nat.not_lt.2 hhigh h
  · exact Nat.not_lt.2 hcls h
  · rw [hzero] at h
    cases h

theorem ObjConfigFits.xpsOk :
    ¬ u.limit 2 < ((u.otherSlots (u16 p.params 0)).map (fun o => o.2.quota)).sum + u8 p.params 2 := by
  obtain ⟨-, -, -, -, -, hxps, -⟩ := hfits
  exact Nat.not_lt.2 hxps

theorem ObjConfigFits.windowsOk :
    ¬ u.limit 3 < ((u.otherSlots (u16 p.params 0)).map (fun o => classLen o.2.cls)).sum + classLen (u8 p.params 3) := by
  obtain ⟨-, -, -, -, -, -, hwins⟩ := hfits
  exact Nat.not_lt.2 hwins

/-- A packet that fits and names no slot yet creates one, where the budget of objects has room. -/
theorem cmdObjConfig_create (hnone : u.slotAt (u16 p.params 0) = none)
    (hobjs : (u.otherSlots (u16 p.params 0)).length + 1 ≤ u.limit 0) :
    cmdObjConfig p u = .ok (u.putObj p (Slot.init (u.slot + 1) (u8 p.params 2) (u8 p.params 3)
      (u.freePages (2 ^ u8 p.params 3)))) [] := by
  refine (if_neg hfits.paramsOk).trans ?_
  simp only [hnone]
  exact (if_neg (Nat.not_lt.2 hobjs)).trans ((if_neg hfits.xpsOk).trans (if_neg hfits.windowsOk))

/-- A configured slot keeps its class and so its pages, or is resized, which it must be INACTIVE for. -/
theorem cmdObjConfig_configured (hslot : u.slotAt (u16 p.params 0) = some o) (hcls : o.cls = u8 p.params 3 ∨ o.state = 0) :
    cmdObjConfig p u = .ok (u.putObj p (if o.cls = u8 p.params 3 then o else u.resized p o)) [] := by
  have hstays : ¬ (o.cls ≠ u8 p.params 3 ∧ o.state ≠ 0) :=
    fun ⟨hother, hactive⟩ => hcls.elim hother hactive
  refine (if_neg hfits.paramsOk).trans ?_
  simp only [hslot]
  refine (if_neg hstays).trans ((if_neg hfits.xpsOk).trans ((if_neg hfits.windowsOk).trans ?_))
  split <;> rfl

end

theorem cmdObjDeconfig_inactive {p : Packet} {u : State} {o : Slot} (hzero : zeroAt p.params 2 2 = true)
    (hslot : u.slotAt (u16 p.params 0) = some o) (hstate : o.state = 0) :
    cmdObjDeconfig p u = .ok (u.departs (u16 p.params 0) o (u.slot + 1)) [] := by
  have hmay : ¬ ((!zeroAt p.params 2 2) = true ∨ o.state ≠ 0) := by
    rintro (h | h)
    · rw [hzero] at h
      cases h
    · exact h hstate
  simp only [cmdObjDeconfig, hslot]
  exact if_neg hmay

theorem cmdOmsCfgSet_of_rsvOk {p : Packet} {u : State} (hcfg : rsvOk Reg.OMS_CFG (u32 p.params 0) = true)
    (hvel : rsvOk Reg.OMS_VEL (u32 p.params 4) = true) :
    cmdOmsCfgSet p u = .ok (((u.omsCfgWrite (u32 p.params 0)).wr Reg.OMS_VEL (u32 p.params 4)).wr Reg.OMS_SESSION
      (u32 p.params 8)) [] := by
  simp only [cmdOmsCfgSet, hcfg, hvel, Bool.not_true, Bool.false_eq_true, or_self, if_false]

/-- Settles O12: each body is read under the conditions of its clause; what is left of `OBJ_CONFIG` is which of its three ways
a slot goes. -/
theorem objectCommandsComplete : Obligations.ObjectCommandsComplete := by
  unfold Obligations.ObjectCommandsComplete
  refine
    ⟨⟨.of_body cmdObjConfig (fun _ _ => rfl) fun p u ⟨hfits, hnone, hobjs⟩ => cmdObjConfig_create hfits hnone hobjs,
      fun o => .of_body cmdObjConfig (fun _ _ => rfl) fun p u ⟨hfits, hslot, hcls⟩ =>
        (cmdObjConfig_configured hfits hslot (.inl hcls)).trans (by rw [if_pos hcls]; rfl),
      fun o => .of_body cmdObjConfig (fun _ _ => rfl) fun p u ⟨hfits, hslot, hcls, hstate⟩ =>
        (cmdObjConfig_configured hfits hslot (.inr hstate)).trans (by rw [if_neg hcls]; rfl)⟩,
    fun o => .of_body cmdObjDeconfig (fun _ _ => rfl) fun p u ⟨hzero, hslot, hstate⟩ =>
      cmdObjDeconfig_inactive hzero hslot hstate,
    fun o b => .of_body cmdObjBind (fun _ _ => rfl) fun p u ⟨hslot, hbind⟩ => ?bind,
    fun o => .of_body cmdObjQuery (fun _ _ => rfl) fun p u hslot => ?query,
    .of_body cmdOmsCfgSet (fun _ _ => rfl) fun p u ⟨hcfg, hvel⟩ => cmdOmsCfgSet_of_rsvOk hcfg hvel,
    fun o => .of_body cmdGeoRaQuery (fun _ _ => rfl) fun p u hslot => ?ra⟩
  case bind => simp only [cmdObjBind, hslot, hbind, noResult]
  case query => simp only [cmdObjQuery, hslot, noEffect]
  case ra => simp only [cmdGeoRaQuery, hslot, noEffect]

end Sys2Proof.Machine

/-!
Geometry and fabric commands (R107, R119 to R124, R185 to R188), images, the scene journal and boot commands (R85, R239, R608 to
R612, R623), and the tickets of the data plane (R75, R153, R177, R191, R226, R227, R267, R268, R288, R493 to R500).
-/

namespace Sys2Proof.Machine

/-! ### Geometry and fabric -/

theorem cmdGeoCfgSet_of_ok {p : Packet} {u : State}
    (hrsv : ∀ x ∈ geoCfgRegs.zipIdx, rsvOk x.1 (u32 p.params (4 * x.2)) = true)
    (hok : geoCfgOk (fun i => u32 p.params (4 * i)) = true) :
    cmdGeoCfgSet p u =
      .ok (geoCfgRegs.zipIdx.foldl (fun u x => u.wr x.1 (u32 p.params (4 * x.2))) u).squashAll [] := by
  have hall : geoCfgRegs.zipIdx.any (fun x => !rsvOk x.1 (u32 p.params (4 * x.2))) = false :=
    List.any_eq_false.2 fun x hx => by simp [hrsv x hx]
  refine if_neg ?_
  rintro (h | h)
  · exact Bool.false_ne_true (hall.symm.trans h)
  · simp [hok] at h

/-- Op 0 disables a speaker of the layout and op 1 enables it (R122). -/
theorem cmdGeoSpkEnable_of_speaker {p : Packet} {u : State} {op : Nat} (hle : op ≤ 1)
    (hnamed : u16 p.params 0 < u.speakers ∧ u8 p.params 2 = op ∧ u8 p.params 3 = 0) :
    cmdGeoSpkEnable p u =
      .ok { u with plan.spkOver := Tab.put u.plan.spkOver (u16 p.params 0) (op == 0) }.squashAll [] := by
  obtain ⟨hspk, rfl, hrsv⟩ := hnamed
  exact if_neg (by simp [hspk, hle, hrsv])

/-- Settles O13: the checks of each body pass under its clause's conditions; the queries answer in both cases of the layout
and of the frame, loaded or not. -/
theorem geometryCommandsComplete : Obligations.GeometryCommandsComplete := by
  unfold Obligations.GeometryCommandsComplete
  refine
    ⟨.of_body cmdLayoutQuery (fun _ _ => rfl) fun p u _ => ?layoutQuery,
    .of_body cmdGeoCfgSet (fun _ _ => rfl) fun p u ⟨hrsv, hok⟩ => cmdGeoCfgSet_of_ok hrsv hok,
    .of_body cmdGeoTempSet (fun _ _ => rfl) fun p u ⟨hrange, hzero⟩ => if_neg (by simp [hrange, hzero]),
    ⟨.of_body cmdGeoSpkEnable (fun _ _ => rfl) fun p u hnamed => cmdGeoSpkEnable_of_speaker (Nat.zero_le 1) hnamed,
      .of_body cmdGeoSpkEnable (fun _ _ => rfl) fun p u hnamed => cmdGeoSpkEnable_of_speaker (Nat.le_refl 1) hnamed⟩,
    .of_body cmdGeoFrameQuery (fun _ _ => rfl) fun p u ⟨hslot, hlimit⟩ => ?frameQuery,
    fun o a => .of_body cmdGeoEval (fun _ _ => rfl)
      fun p u ⟨hslot, hattr, hlimit, hrsv, hpos, hgain, hspread, hsize, hzero⟩ => ?eval,
    .of_body cmdFabCfgSet (fun _ _ => rfl) fun p u hrsv => if_neg (by simpa using hrsv),
    fun o => .of_body cmdFabObjQuery (fun _ _ => rfl) fun p u hslot => ?objQuery,
    .of_body cmdFabInterpTable (fun _ _ => rfl) fun p u hrows => if_neg (Nat.not_lt.2 hrows)⟩
  case layoutQuery =>
    unfold cmdLayoutQuery
    cases u.plan.layout <;> rfl
  case frameQuery =>
    refine (if_neg (by omega)).trans ?_
    cases Tab.look u.oms.frames (u16 p.params 0) <;> rfl
  case eval =>
    simp only [cmdGeoEval, hslot, hattr]
    exact if_neg (by simp [hlimit, hrsv, hpos, hgain, hspread, hsize, hzero])
  case objQuery => simp only [cmdFabObjQuery, hslot, noEffect]

/-! ### Images, the journal and boot -/

/-- Settles O6: a command that names an image passes its checks, and the container's under its clause's conditions; the others
are their effect. -/
theorem imagesAndJournalComplete : Obligations.ImagesAndJournalComplete := by
  unfold Obligations.ImagesAndJournalComplete
  intro loads
  refine
    ⟨.of_body cmdLayoutLoad (fun _ _ => rfl) fun p u ⟨hzero, himage⟩ => ?layout,
    .of_body cmdFirLoad (fun _ _ => rfl) fun p u ⟨hzero, himage⟩ => ?fir,
    .of_body cmdImageCommit (fun _ _ => rfl) fun p u ⟨hflag, hzero, himage⟩ => ?commit,
    .of_body cmdImageQuery (fun _ _ => rfl) fun _ _ _ => rfl,
    .of_body cmdFloorRaise (fun _ _ => rfl) fun _ _ _ => rfl,
    .of_body cmdJournalSave (fun _ _ => rfl) fun _ _ _ => rfl,
    .of_body cmdJournalQuery (fun _ _ => rfl) fun _ _ _ => rfl,
    .of_body cmdJournalCfgSet (fun _ _ => rfl) fun p u ⟨hrsv, hcount⟩ => if_neg (by simp [hrsv, hcount]),
    .of_body cmdJournalClear (fun _ _ => rfl) fun _ _ _ => rfl,
    .of_body cmdBootLoad (fun _ _ => rfl) fun p u ⟨hzero, hfits⟩ => if_neg (by simp [hzero, hfits]),
    .of_body cmdBootGo (fun _ _ => rfl) fun p u ⟨hzero, hsize, hcontainer, hverifies⟩ => ?go⟩
  case layout => simp only [cmdLayoutLoad, hzero, himage, noEffect, Bool.not_true, Bool.false_eq_true, if_false]
  case fir => simp only [cmdFirLoad, hzero, himage, noEffect, Bool.not_true, Bool.false_eq_true, if_false]
  case commit =>
    refine (if_neg (by simp [hflag, hzero])).trans ?_
    simp -zeta only [himage]
    rfl
  case go =>
    refine (if_neg (by simp [hzero, hsize])).trans ?_
    simp only [hcontainer, hverifies, if_true]
    rfl

/-! ### Tickets of the data plane -/

/-- Settles O28: each row finds the ticket that its engine runs, and does the folio's work where the folio is still being
processed. -/
theorem ticketEventsComplete : Obligations.TicketEventsComplete := by
  unfold Obligations.TicketEventsComplete
  intro next
  refine
    ⟨fun e => .of_exec fun _ _ => rfl, -- GEO_TICKET_DONE
    fun e stalls ecc x t s ⟨hrun, hfolio⟩ => ?fabric,
    fun n ecc t s ⟨hfolio, hdone, hslot⟩ => ?root,
    fun e poison x t s hrun => ?head,
    fun e poison x t s hrun => ?tail,
    fun e x t s ⟨hrun, hslot⟩ => ?phaseA,
    fun e x t s ⟨hrun, hlate⟩ => ?phaseA_late,
    fun e x t s ⟨hrun, hslot⟩ => ?phaseB,
    fun e x t s ⟨hrun, hlate⟩ => ?phaseB_late,
    fun e x t s ⟨hrun, hitem⟩ => ?mixer,
    fun e x t s ⟨hrun, hitem⟩ => ?mixer_render,
    fun e x t s hrun => ?egress,
    fun e x t s hrun => ?measurement,
    fun v st res t s hfin => ?sweep,
    fun cls => .of_exec fun _ _ => rfl, -- STALL_FILL
    fun q cycles t s hwaits => if_neg (Bool.eq_false_iff.1 hwaits)⟩ -- GENERATOR_RESUME
  case fabric =>
    change execFabTicketDone e ⟨stalls, ecc⟩ t s = _
    simp only [execFabTicketDone, hrun, hfolio, if_true]
    rfl
  case root =>
    have hacts : ¬ ((!(s.atTime t).allDone tkFAB n) = true ∨ (s.atTime t).slot ≠ n + 1) := by simp [hdone, hslot]
    change execRootWrite ⟨ecc, t⟩ s = _
    simp only [execRootWrite, hfolio, hacts, if_false]
  case head =>
    change execHeadTicketDone e poison t s = _
    simp only [execHeadTicketDone, hrun]
  case tail =>
    change execTailTicketDone e poison t s = _
    simp only [execTailTicketDone, hrun]
  case phaseA =>
    change execOutPhaseADone e t s = _
    simp only [execOutPhaseADone, hrun, hslot, if_true]
    rfl
  case phaseA_late =>
    change execOutPhaseADone e t s = _
    simp only [execOutPhaseADone, hrun, Ne.symm hlate, if_false]
    rfl
  case phaseB =>
    change execOutPhaseBDone e t s = _
    simp only [execOutPhaseBDone, hrun, hslot, if_true]
    rfl
  case phaseB_late =>
    change execOutPhaseBDone e t s = _
    simp only [execOutPhaseBDone, hrun, Ne.symm hlate, if_false]
    rfl
  case mixer =>
    change execMixerBlockDone e t s = _
    simp only [execMixerBlockDone, hrun, hitem, false_and, if_false]
    rfl
  case mixer_render =>
    change execMixerBlockDone e t s = _
    simp only [execMixerBlockDone, hrun, hitem, true_and, if_true]
  case egress =>
    change execEgressTicketDone e t s = _
    simp only [execEgressTicketDone, hrun]
  case measurement =>
    change execMeasTicketDone e t s = _
    simp only [execMeasTicketDone, hrun]
    rfl
  case sweep =>
    change execSweepDone t s = _
    simp only [execSweepDone, hfin]

end Sys2Proof.Machine

/-!
The output commands (R190 to R218), and the events of measurement, mixing and correction (R194, R209, R242, R243, R271, R275,
R282, R283, R297).
-/

namespace Sys2Proof.Machine

/-! ### Outputs -/

/-- What `OUT_CONFIG` asks of its packet, whichever its op (R218). -/
def OutConfigFits (op : Nat) (p : Packet) : Prop :=
  u8 p.params 2 = op ∧ u8 p.params 3 = 0 ∧ zeroAt p.params 12 4 = true ∧ u16 p.params 0 < 512 ∧
    rsvOk (Reg.OUT_CFG 0) (setBitsN (u32 p.params 4) 31 30 0) = true ∧ destOk (u32 p.params 8) = true

theorem OutConfigFits.paramsOk {op : Nat} {p : Packet} (hfits : OutConfigFits op p) (hop : op < 2) :
    ¬ (u8 p.params 3 ≠ 0 ∨ !zeroAt p.params 12 4 ∨ 512 ≤ u16 p.params 0 ∨ 2 ≤ u8 p.params 2 ∨
      !rsvOk (Reg.OUT_CFG 0) (setBitsN (u32 p.params 4) 31 30 0) ∨ !destOk (u32 p.params 8)) := by
  obtain ⟨rfl, hrsv, hzero, hout, hcfg, hdest⟩ := hfits
  simp [hrsv, hzero, hout, hop, hcfg, hdest]

theorem OutConfigFits.op_eq {op : Nat} {p : Packet} (hfits : OutConfigFits op p) : u8 p.params 2 = op := by
  obtain ⟨hop, -⟩ := hfits
  exact hop

/-- The output that the packet names with the packet's words, the enable bit set, and with its reserved DRAM. -/
def State.putOut (u : State) (p : Packet) : State :=
  ((((u.wr (Reg.OUT_CFG (u16 p.params 0)) (setBitsN (u32 p.params 4) 31 30 0 + 2 ^ 31)).wr (Reg.OUT_DEST (u16 p.params 0))
    (u32 p.params 8)).reserve (ownLine (u16 p.params 0)) lineBytes).reserve (ownConv (u16 p.params 0)) convBytes).refreshHint

/-- A new output also discards the frames computed ahead, and the budget of outputs must have room for it (R190). -/
theorem cmdOutConfig_put {p : Packet} {u : State} (hfits : OutConfigFits 0 p)
    (hfree : u.destFree (u16 p.params 0) (u32 p.params 8) = true)
    (hroom : u.live.outConf (u16 p.params 0) = false → u.outputs.length + 1 ≤ u.limit 1) :
    cmdOutConfig p u = .ok (if !u.live.outConf (u16 p.params 0) then (u.putOut p).squashAll else u.putOut p) [] := by
  have hop : ¬ u8 p.params 2 = 1 := by simp [hfits.op_eq]
  have hbudget : ¬ ((!u.live.outConf (u16 p.params 0)) = true ∧ u.limit 1 < u.outputs.length + 1) :=
    fun ⟨hnew, hfull⟩ => Nat.not_lt.2 (hroom (by simpa using hnew)) hfull
  exact (if_neg (hfits.paramsOk Nat.zero_lt_two)).trans ((if_neg hop).trans ((if_neg (by simp [hfree])).trans
    (if_neg hbudget)))

theorem cmdOutConfig_remove {p : Packet} {u : State} (hfits : OutConfigFits 1 p) :
    cmdOutConfig p u =
      if u.live.outConf (u16 p.params 0) then .ok (u.outRemove (u16 p.params 0)) []
      else .done (u.reply p 0x0701 stOK []) :=
  (if_neg (hfits.paramsOk Nat.one_lt_two)).trans (if_pos hfits.op_eq)

/-- Records that pass the checks, for a configured output, are put one after the other; a host leaves an output's trim
sections to AUTOTRIM (R276). -/
theorem cmdOutEqSet_of_ok {p : Packet} {u : State} (hlen : p.params.length = 4 + 48 * u8 p.params 3)
    (hout : u16 p.params 0 < 512) (hsome : 1 ≤ u8 p.params 3) (hsecs : u8 p.params 2 + u8 p.params 3 ≤ 20)
    (hconf : u.live.outConf (u16 p.params 0) = true)
    (hrecs : ∀ i, i < u8 p.params 3 → eqRecOk p.params (4 + 48 * i) = true)
    (htrim : u.autotrim (u16 p.params 0) = true → u8 p.params 2 + u8 p.params 3 ≤ 16) :
    cmdOutEqSet p u = .ok (forRange 0 (u8 p.params 3) (fun i u => u.putEq (u16 p.params 0) (u8 p.params 2 + i)
      (if u8 p.params (4 + 48 * i) = 1 then none else some (recCoef p.params (4 + 48 * i)))) u) [] := by
  have hall : (List.range (u8 p.params 3)).all (fun i => eqRecOk p.params (4 + 48 * i)) = true :=
    List.all_eq_true.2 fun i hi => hrecs i (List.mem_range.1 hi)
  have hparams : ¬ (512 ≤ u16 p.params 0 ∨ u8 p.params 3 = 0 ∨ 20 < u8 p.params 2 + u8 p.params 3 ∨
      !u.live.outConf (u16 p.params 0) ∨ !((List.range (u8 p.params 3)).all (fun i => eqRecOk p.params (4 + 48 * i)))) := by
    rw [hconf, hall]
    simp [hout, hsecs, Nat.one_le_iff_ne_zero.1 hsome]
  have hown : ¬ (false = false ∧ u.autotrim (u16 p.params 0) = true ∧ 16 < u8 p.params 2 + u8 p.params 3) :=
    fun ⟨_, hon, htoo⟩ => Nat.not_lt.2 (htrim hon) htoo
  exact (if_neg (not_not_intro hlen)).trans ((if_neg hparams).trans (if_neg hown))

theorem cmdOutBmSet_of_ok {p : Packet} {u : State} (hgroup : u8 p.params 0 < 32) (hlow : 40 ≤ u8 p.params 1)
    (hhigh : u8 p.params 1 ≤ 200) (hsend : i16 p.params 2 = -32768 ∨ inRange (i16 p.params 2) (-2400) 1200 = true) :
    cmdOutBmSet p u = .ok (u.wr (Reg.OUT_BM (u8 p.params 0)) (u16 p.params 2 * 65536 + u8 p.params 1)) [] := by
  have hlevel : (i16 p.params 2 == -32768 || inRange (i16 p.params 2) (-2400) 1200) = true := by
    simpa only [Bool.or_eq_true, beq_iff_eq] using hsend
  refine if_neg ?_
  rintro (h | h | h | h)
  · exact Nat.not_le.2 hgroup h
  · exact Nat.not_lt.2 hlow h
  · exact Nat.not_lt.2 hhigh h
  · rw [hlevel] at h
    cases h

/-- Settles O14: the checks of each body pass under its clause's conditions, and what is left of the body is its effect;
`OUT_CONFIG` goes four ways, by its op and by whether the output is there. -/
theorem outputCommandsComplete : Obligations.OutputCommandsComplete := by
  unfold Obligations.OutputCommandsComplete
  refine
    ⟨⟨.of_body cmdOutConfig (fun _ _ => rfl) fun p u ⟨hfits, hfree, hnew, hroom⟩ =>
        (cmdOutConfig_put hfits hfree fun _ => hroom).trans (congrArg (CmdRes.ok · []) (if_pos (by simp [hnew]))),
      .of_body cmdOutConfig (fun _ _ => rfl) fun p u ⟨hfits, hfree, hconf⟩ =>
        (cmdOutConfig_put hfits hfree fun hnew => by simp [hconf] at hnew).trans
          (congrArg (CmdRes.ok · []) (if_neg (by simp [hconf]))),
      .of_body cmdOutConfig (fun _ _ => rfl) fun p u ⟨hfits, hconf⟩ =>
        (cmdOutConfig_remove hfits).trans (if_pos hconf),
      .of_done cmdOutConfig (fun _ _ => rfl) fun p u ⟨hfits, hconf⟩ =>
        (cmdOutConfig_remove hfits).trans (if_neg (by simp [hconf]))⟩,
    .of_body cmdOutGainSet (fun _ _ => rfl) fun p u ⟨hrange, hgain, hbed⟩ => if_neg (by simp [hrange, hgain, hbed]),
    .of_body cmdOutAlignSet (fun _ _ => rfl) fun p u ⟨hrange, hdelay, hzero⟩ => if_neg (by simp [hrange, hdelay, hzero]),
    .of_body cmdOutEqSet (fun _ _ => rfl) fun p u ⟨hlen, hout, hsome, hsecs, hconf, hrecs, htrim⟩ =>
      cmdOutEqSet_of_ok hlen hout hsome hsecs hconf hrecs htrim,
    .of_body cmdOutLimSet (fun _ _ => rfl) fun p u ⟨hrange, hthresh, hlow, hhigh⟩ =>
      if_neg (by simp [hrange, hthresh, Nat.one_le_iff_ne_zero.1 hlow, hhigh]),
    .of_body cmdOutBmSet (fun _ _ => rfl) fun p u ⟨hgroup, hlow, hhigh, hgain⟩ =>
      cmdOutBmSet_of_ok hgroup hlow hhigh hgain,
    .of_body cmdOutSilSet (fun _ _ => rfl) fun p u ⟨hrange, hthresh, hzero, hlow, hhigh⟩ =>
      if_neg (by simp [hrange, hthresh, hzero, Nat.one_le_iff_ne_zero.1 hlow, hhigh]),
    .of_body cmdOutAmpSet (fun _ _ => rfl) fun p u hmodes => if_neg (by simpa using hmodes),
    .of_body cmdOutQuery (fun _ _ => rfl) fun p u hout => if_neg (Nat.not_le.2 hout),
    .of_body cmdOutEqQuery (fun _ _ => rfl) fun p u hout => if_neg (Nat.not_le.2 hout)⟩

/-! ### Measurement, mixing and correction move on -/

theorem probeGroupBoundary_happens (mt : Nat) :
    Happens (.probeGroupBoundary mt)
      (fun u => u.mode = mRENDER ∧ u.emiCfg.flag Reg.MEAS_PRB_CFG Fl.MEAS_PRB_CFG_EN = true ∧ u.emiCfg.prbPeriod ≠ 0 ∧
        mt % u.emiCfg.prbPeriod = 0)
      (fun u => u.closeGroup mt) := by
  rintro t s ⟨hmode, hen, hperiod, hmt⟩
  exact if_neg (by simp [hmode, hen, hperiod, hmt])

/-- Section `q` of output `o` takes the trim of gain `g` now, which is recorded and logged as the `OUT_EQ_SET` it stands for
(R276). -/
def State.stepTrim (u : State) (o q : Nat) (g : Int) : State :=
  let b := by2 o ++ by1 q ++ by1 1 ++ eqRec (some (trimCoef q g u.fs))
  let v : State := { u.putEq o q (some (trimCoef q g u.fs)) with
    meas.trim := Tab.put u.meas.trim (4 * o + (q - 16)) ⟨g, some u.now⟩ }
  let w := v.record 0x0704 b []
  if w.peerStandby then w.logToStandby ⟨0, ⟨0, 0, 0, 0⟩, 0, b.length, 0, 2, 0, b, [], u.now⟩ 0x0704 else w

/-- A section whose last step is 30 s ago moves where both of its bands are judged and their deviation asks for it (R275); the
status `UNKNOWN` or `FAIL` holds it (R276). -/
theorem autotrimStep_happens {o q : Nat} (hlow : 16 ≤ q) (hhigh : q < 20) :
    Happens (.autotrimStep o q)
      (fun u =>
        let h := bitsN (u.rd (Reg.MEAS_HEALTH (o / 16))) (2 * (o % 16) + 1) (2 * (o % 16))
        u.autotrim o = true ∧ h ≠ 0 ∧ h ≠ 3 ∧
          ∀ t0, (Tab.at u.meas.trim ⟨0, none⟩ (4 * o + (q - 16))).stepped = some t0 → 30000000000 ≤ u.now - t0)
      (fun u =>
        let x := Tab.at u.meas.trim ⟨0, none⟩ (4 * o + (q - 16))
        match u.trimDev2 o q with
        | none => u
        | some d => if nextTrim x.gain d = x.gain then u else u.stepTrim o q (nextTrim x.gain d)) := by
  rintro t s ⟨hon, hjudged, hbad, hdue⟩
  change execAutotrimStep o q t s = _
  refine (if_neg ?_).trans ?_
  · cases hx : (Tab.at (s.atTime t).meas.trim ⟨0, none⟩ (4 * o + (q - 16))).stepped with
    | none => simp [Nat.not_lt.2 hlow, Nat.not_le.2 hhigh, hon, hjudged, hbad]
    | some t0 => simp [Nat.not_lt.2 hlow, Nat.not_le.2 hhigh, hon, hjudged, hbad, hdue t0 hx]
  · dsimp only
    cases (s.atTime t).trimDev2 o q with
    | none => rfl
    | some d => exact (apply_ite Host.Outcome.next _ _ _).symm

theorem silenceEnter_bus_happens {d k : Nat} (hd : d ≠ 3) :
    Happens (.silenceEnter d k)
      (fun u => u.flag (Reg.MIX_BUS_CFG d k) Fl.MIX_BUS_CFG_SIL_EN = true ∧
        (Tab.at (u.mixDom d).sil BusSil.init k).silent = false ∧
        u.fld Reg.MIX_SIL_CFG Fl.MIX_SIL_CFG_HOLD * u.domRate d ≤ (Tab.at (u.mixDom d).sil BusSil.init k).run)
      (fun u => (((u.bump Reg.MIX_SIL_ENTER).irq Reg.MIX_IRQ_STAT Fl.MIX_IRQ_STAT_SIL_ENTER).putBusSil d k
        { Tab.at (u.mixDom d).sil BusSil.init k with silent := true }).refreshHint) :=
  fun _ _ hsilent => (if_neg hd).trans (if_pos hsilent)

/-- Settles O39: a row whose guard is the statement's condition completes by it; the others have their lemmas. -/
theorem soundEventsComplete : Obligations.SoundEventsComplete := by
  unfold Obligations.SoundEventsComplete
  exact
    ⟨probeGroupBoundary_happens,
    fun _ _ hlow hhigh => autotrimStep_happens hlow hhigh,
    fun _ _ _ hdue => if_pos hdue, -- SILENCE_ENTER of an output
    fun _ _ hd => silenceEnter_bus_happens hd,
    fun _ _ => .of_exec fun _ _ => rfl, -- EQ_CROSSFADE_END
    .of_exec fun _ _ => rfl, -- SWAP_GROUP_PHASE
    .of_exec fun _ _ => rfl, -- HISTORY_WAIT_END
    fun _ _ hlost => if_pos hlost, -- D1_HOLDOVER
    fun _ hk _ _ hfree => if_pos ⟨hk, hfree⟩, -- BRIDGE_SLIP
    fun _ _ _ _ hlock => if_pos hlock, -- D1_BLOCK_BOUNDARY of D1 alone
    fun _ _ _ _ hfollows => if_neg (Bool.eq_false_iff.1 hfollows)⟩ -- and of D1 with D2

end Sys2Proof.Machine

/-!
The room-correction commands (R240, R241, R255).
-/

namespace Sys2Proof.Machine

/-! ### Commit -/

/-- Without an output to take, a commit is complete at once (R241). -/
theorem cmdFirCommit_none {p : Packet} {u : State} (hrange : rangeOk p.params = true) (hnone : u.commitOuts p.params = []) :
    cmdFirCommit p u = .ok u.swapIrq [] := by
  simp only [cmdFirCommit, hrange, hnone, List.isEmpty_nil, Bool.not_true, Bool.false_eq_true, if_false, if_true]

/-- A commit that takes outputs goes by whether the data plane plays. -/
theorem cmdFirCommit_some {p : Packet} {u : State} (hrange : rangeOk p.params = true) (hsome : u.commitOuts p.params ≠ []) :
    cmdFirCommit p u =
      if u.actMode = mRENDER ∨ u.actMode = mMEASURE then
        .long (u.beginGroup ⟨chunk 64 8 (u.commitOuts p.params), 0, 0,
          (if (u.commitOuts p.params).any u.longOut then 16384 else 4096) / u.folioLen, 0, 1⟩ 0 (u.slot + 1)) [0]
      else
        .ok (((u.commitOuts p.params).foldl (fun u o => u.swapSets o) u).count Reg.CONV_SWAP_OUT
          (u.commitOuts p.params).length).swapIrq [] :=
  (if_neg (by simp [hrange])).trans (if_neg (by simpa using hsome))

/-! ### Schemes -/

/-- The configured outputs of the packet's range. -/
def State.namedOuts (u : State) (b : List Byte) : List Nat :=
  ((List.range (u16 b 2)).map (· + u16 b 0)).filter u.live.outConf

/-- Output `o` in the scheme `long` from the next folio on, with the DRAM of its long class or without. -/
def State.putScheme (long : Bool) (u : State) (o : Nat) : State :=
  if (u.firOf o).long = long then u
  else
    let t := u.setFir o { u.firOf o with long := long, longFrom := (u.slot + 1) * u.folioLen }
    if long then t.reserve (ownLong o) longBytes else t.unreserve (ownLong o)

/-- No set of output `o` has more taps than the standard scheme holds. -/
def State.FitsStandard (u : State) (o : Nat) : Prop :=
  (∀ x, (u.firOf o).a = some x → x.taps.length ≤ 16384) ∧ (∀ x, (u.firOf o).b = some x → x.taps.length ≤ 16384)

theorem State.any_tooLong_eq_false {u : State} {os : List Nat} (hfits : ∀ o ∈ os, u.FitsStandard o) :
    os.any (fun o => (u.firOf o).a.any (fun x => decide (16384 < x.taps.length)) ||
      (u.firOf o).b.any (fun x => decide (16384 < x.taps.length))) = false := by
  refine List.any_eq_false.2 fun o ho => ?_
  obtain ⟨ha, hb⟩ := hfits o ho
  simpa [Option.any_eq_false] using And.intro ha hb

/-- Both schemes are set the same way; the standard one also asks that the sets fit it (R240). -/
theorem cmdFirScheme_put (long : Bool) {p : Packet} {u : State} (hrange : rangeOk p.params = true)
    (hscheme : u8 p.params 4 = b2n long) (hzero : zeroAt p.params 5 3 = true)
    (hfits : long = false → ∀ o ∈ u.namedOuts p.params, u.FitsStandard o)
    (hroom : ((u.namedOuts p.params).foldl (State.putScheme long) u).longCount ≤ u.limit 4) :
    cmdFirScheme p u = .ok ((u.namedOuts p.params).foldl (State.putScheme long) u) [] := by
  have hparams : ¬ (!rangeOk p.params ∨ 1 < u8 p.params 4 ∨ !zeroAt p.params 5 3) := by
    cases long <;> simp [hrange, hscheme, hzero, b2n]
  have hsets : ¬ (u8 p.params 4 = 0 ∧ (u.namedOuts p.params).any (fun o =>
      (u.firOf o).a.any (fun x => decide (16384 < x.taps.length)) ||
        (u.firOf o).b.any (fun x => decide (16384 < x.taps.length)))) := by
    cases long with
    | true => simp [hscheme, b2n]
    | false => exact fun ⟨_, htooLong⟩ => Bool.eq_false_iff.1 (State.any_tooLong_eq_false (hfits rfl)) htooLong
  refine (if_neg hparams).trans ((if_neg hsets).trans ?_)
  rw [hscheme]
  cases long <;> exact if_neg (Nat.not_lt.2 hroom)

/-! ### Exports -/

/-- The set that an export names: the active or the staged one of a configured output. -/
def State.namedSet (u : State) (p : Packet) : Option FirSet :=
  if u.live.outConf (u16 p.params 0) then
    (if u8 p.params 2 = 0 then (u.firOf (u16 p.params 0)).active else (u.firOf (u16 p.params 0)).staged)
  else none

/-- What an export asks of its packet (R255). -/
def ExportFits (p : Packet) : Prop :=
  u16 p.params 0 < 512 ∧ u8 p.params 2 ≤ 1 ∧ u8 p.params 3 = 0 ∧ u64 p.params 4 % 64 = 0

section
variable {p : Packet} {u : State} (hfits : ExportFits p)
include hfits

theorem ExportFits.paramsOk :
    ¬ (512 ≤ u16 p.params 0 ∨ 1 < u8 p.params 2 ∨ u8 p.params 3 ≠ 0 ∨ u64 p.params 4 % 64 ≠ 0) := by
  obtain ⟨hout, hset, hrsv, haddr⟩ := hfits
  simp [hout, hset, hrsv, haddr]

theorem cmdFirExport_none (hset : u.namedSet p = none) : cmdFirExport p u = .ok u (by4 0) := by
  unfold State.namedSet at hset
  refine (if_neg hfits.paramsOk).trans ?_
  simp only [hset]

theorem cmdFirExport_some {x : FirSet} (hset : u.namedSet p = some x)
    (hfree : u.dramFree (u64 p.params 4) (4 * x.taps.length) = true) :
    cmdFirExport p u =
      let k := b2n ((u8 p.params 2 == 0) == (u.firOf (u16 p.params 0)).actB)
      .ok ((u.readTaps (u16 p.params 0) k).busWrite (u64 p.params 4) (u.exportTaps (u16 p.params 0) k x))
        (by4 x.taps.length) := by
  unfold State.namedSet at hset
  refine (if_neg hfits.paramsOk).trans ?_
  simp only [hset]
  exact if_neg (by simp [hfree])

end

/-- Settles O15: a commit and a scheme change have their lemmas; under each other clause's conditions the checks of its body
pass, and what is left of the body is its effect. -/
theorem correctionCommandsComplete : Obligations.CorrectionCommandsComplete := by
  unfold Obligations.CorrectionCommandsComplete
  exact
    ⟨⟨.of_body cmdFirCommit (fun _ _ => rfl) fun p u ⟨hrange, hnone⟩ => cmdFirCommit_none hrange hnone,
      .of_body cmdFirCommit (fun _ _ => rfl) fun p u ⟨hrange, hsome, hquiet⟩ =>
        (cmdFirCommit_some hrange hsome).trans (if_neg hquiet),
      .of_body cmdFirCommit (fun _ _ => rfl) fun p u ⟨hrange, hsome, hplays⟩ =>
        (cmdFirCommit_some hrange hsome).trans (if_pos hplays)⟩,
    ⟨.of_body cmdFirScheme (fun _ _ => rfl) fun p u ⟨⟨hrange, hscheme, hzero⟩, hroom⟩ =>
        cmdFirScheme_put true hrange hscheme hzero nofun hroom,
      .of_body cmdFirScheme (fun _ _ => rfl) fun p u ⟨⟨hrange, hscheme, hzero⟩, hroom, hsets⟩ =>
        cmdFirScheme_put false hrange hscheme hzero (fun _ => hsets) hroom⟩,
    .of_body cmdFirClear (fun _ _ => rfl) fun p u hrange => if_neg (by simp [hrange]),
    ⟨.of_body cmdFirQuery (fun _ _ => rfl) fun p u ⟨hout, hconf⟩ =>
        (if_neg (Nat.not_le.2 hout)).trans (if_pos (by simp [hconf])),
      .of_body cmdFirQuery (fun _ _ => rfl) fun p u ⟨hout, hconf⟩ =>
        (if_neg (Nat.not_le.2 hout)).trans (if_neg (by simp [hconf]))⟩,
    .of_body cmdFirExport (fun _ _ => rfl) fun p u ⟨hfits, hset⟩ => cmdFirExport_none hfits hset,
    fun x => .of_body cmdFirExport (fun _ _ => rfl) fun p u ⟨hfits, hset, hfree⟩ => cmdFirExport_some hfits hset hfree⟩

end Sys2Proof.Machine

/-!
The measurement commands (R263, R273 to R276, R281).
-/

namespace Sys2Proof.Machine

/-! ### Sweeps -/

/-- The pre-roll before a sweep's first repetition, in samples: one folio, 2·F samples and the group delay of the
microphones' preset (R265). -/
def State.sweepPreRoll (u : State) : Nat :=
  3 * u.folioLen + presetDelay (u.fld Reg.MEAS_PDM_CFG Fl.MEAS_PDM_CFG_PRESET)

theorem cmdMeasSweep_unlocked {p : Packet} {u : State} (hunlocked : u.d2Lock = false) :
    cmdMeasSweep p u = .fail u stNOT_IN_MODE [] :=
  if_pos (by simp [hunlocked])

/-- A sweep whose parameters are in range is a long operation, unless with its pre-roll it exceeds `MAX_S` (R265). -/
theorem cmdMeasSweep_locked {p : Packet} {u : State} (hlock : u.d2Lock = true) (hok : u.sweepOk p.params = true)
    (hfits : u.sweepPreRoll + (sweepOf p.params).length u.fs ≤ u.fld Reg.MEAS_CFG Fl.MEAS_CFG_MAX_S * u.fs) :
    cmdMeasSweep p u =
      .long { u with meas.sweep := some { sweepOf p.params with start := (u.slot + 1) * u.folioLen + u.sweepPreRoll } } [] :=
  (if_neg (by simp [hlock])).trans ((if_neg (by simp [hok])).trans (if_neg (Nat.not_lt.2 hfits)))

/-! ### Probes -/

/-- The outputs whose results go stale when group `g` gets the outputs `new` and the microphones `mask` (R272): those that
leave or join it, and with other microphones those that stay. -/
def State.staleOuts (u : State) (g mask : Nat) (new : List Nat) : List Nat :=
  (u.groupOuts g).filter (fun o => !new.contains o || !(Tab.at u.plan.masks 0 g == mask)) ++
    new.filter (fun o => !(u.groupOuts g).contains o)

/-- Group `g` has the outputs `new` and the microphones `mask`. -/
def State.putGroup (u : State) (g mask : Nat) (new : List Nat) : State :=
  { u with
    plan.groupOf := new.foldl (fun (m : Tab Nat) o => Tab.put m o g) (u.plan.groupOf.filter (fun e => e.2 != g))
    plan.masks := Tab.put u.plan.masks g mask }

/-- The outputs of a range: a first output and a count (R281). -/
def rangeOuts (b : List Byte) : List Nat := (List.range (u16 b 2)).map (· + u16 b 0)

theorem cmdMeasPrbGroupSet_of_ok {p : Packet} {u : State} (hgroup : u8 p.params 0 < 16) (hzero : u8 p.params 1 = 0)
    (hmics : (bitsOf 16 (u16 p.params 2)).length ≤ 4) (hrange : rangeOk (p.params.drop 4) = true)
    (hcount : u16 (p.params.drop 4) 2 ≤ 64) :
    cmdMeasPrbGroupSet p u =
      let g := u8 p.params 0
      let mask := u16 p.params 2
      let new := rangeOuts (p.params.drop 4)
      .ok (((u.staleOuts g mask new).foldl (fun u o => u.dropResult o) u).putGroup g mask new) [] :=
  (if_neg (by simp [hgroup, hzero, hmics, hrange])).trans (if_neg (Nat.not_lt.2 hcount))

/-- The values of `MEAS_PRB_CFG` and `MEAS_HEALTH_CFG` have their reserved bits 0 and every field in its range. -/
def PrbCfgFits (c h : Nat) : Prop :=
  rsvOk Reg.MEAS_PRB_CFG c = true ∧ 10 ≤ bitsN c 25 16 ∧ bitsN c 25 16 ≤ 600 ∧ 10 ≤ bitsN c 15 6 ∧
    bitsN c 15 6 ≤ bitsN c 25 16 ∧ 30 ≤ bitsN c 5 0 ∧ bitsN c 5 0 ≤ 60 ∧ 100 ≤ bitsN h 23 12 ∧ bitsN h 23 12 ≤ 3000 ∧
    50 ≤ bitsN h 11 0 ∧ bitsN h 11 0 ≤ 1200

theorem cmdMeasPrbSet_of_fits {p : Packet} {u : State} (hfits : PrbCfgFits (u32 p.params 0) (u32 p.params 4)) :
    cmdMeasPrbSet p u =
      .ok ((u.wr Reg.MEAS_PRB_CFG (u32 p.params 0)).wr Reg.MEAS_HEALTH_CFG (u32 p.params 4)) [] := by
  obtain ⟨hrsv, hranges⟩ := hfits
  exact if_neg (by simp only [hrsv, Bool.not_true, Bool.false_eq_true, false_or]; omega)

/-! ### Probe results -/

/-- What the export of an output's result asks of its packet (R281), wherever the address is. -/
def PrbExportFits (p : Packet) : Prop :=
  u16 p.params 0 < 512 ∧ u16 p.params 2 = 0 ∧ u64 p.params 4 % 64 = 0

theorem cmdMeasPrbResult_some {p : Packet} {u : State} {r : PrbRes} (hfits : PrbExportFits p)
    (hres : Tab.look u.meas.res (u16 p.params 0) = some r)
    (hfree : u.dramFree (u64 p.params 4) (r.spec.length * recordSize 8192) = true) :
    cmdMeasPrbResult p u = .ok (u.busWrite (u64 p.params 4) (r.records (u16 p.params 0))) (by4 r.spec.length) := by
  obtain ⟨hout, hzero, haddr⟩ := hfits
  simp only [cmdMeasPrbResult, hres]
  exact if_neg (by simp [hout, hzero, haddr, hfree])

/-- An output without a result exports none. -/
theorem cmdMeasPrbResult_none {p : Packet} {u : State} (hfits : PrbExportFits p)
    (hres : Tab.look u.meas.res (u16 p.params 0) = none) (hfree : u.dramFree (u64 p.params 4) 0 = true) :
    cmdMeasPrbResult p u = .ok u (by4 0) := by
  obtain ⟨hout, hzero, haddr⟩ := hfits
  simp only [cmdMeasPrbResult, hres]
  exact if_neg (by simp [hout, hzero, haddr, hfree])

/-- The baseline of an output with a result is that result; the others keep theirs (R273). -/
theorem cmdMeasPrbBaseline_of_rangeOk {p : Packet} {u : State} (hrange : rangeOk p.params = true) :
    cmdMeasPrbBaseline p u =
      .ok { u with
        meas.base := (rangeOuts p.params).foldl
          (fun (t : Tab PrbRes) o => ((Tab.look u.meas.res o).map (Tab.put t o)).getD t) u.meas.base }
        (by2 (countIf (rangeOuts p.params) (fun o => (Tab.look u.meas.res o).isNone))) := by
  have hput (t : Tab PrbRes) (o : Nat) : ((Tab.look u.meas.res o).map (Tab.put t o)).getD t =
      match Tab.look u.meas.res o with
      | some r => Tab.put t o r
      | none => t := by
    cases Tab.look u.meas.res o <;> rfl
  simp only [hput]
  exact if_neg (by simp [hrange])

/-! ### AUTOTRIM -/

/-- The outputs `os` come under AUTOTRIM; each section starts from the gain it has and keeps the time of its last step
(R275). -/
def State.startTrim (u : State) (os : List Nat) : State :=
  { u with
    meas.trimOn := u.meas.trimOn ++ os
    meas.trim := os.foldl (fun (t : Tab Trim) o => (List.range 4).foldl (fun t i =>
      Tab.put t (4 * o + i) ⟨u.trimGain o (16 + i), (Tab.look u.meas.trim (4 * o + i)).bind (·.stepped)⟩) t) u.meas.trim }

/-- The outputs `os` leave AUTOTRIM, and their sections stay as they are (R276). -/
def State.stopTrim (u : State) (os : List Nat) : State :=
  { u with meas.trimOn := u.meas.trimOn.filter (fun o => !os.contains o) }

/-- Op 1 starts the outputs that are not yet under AUTOTRIM, and op 0 stops the outputs of the range. -/
theorem cmdAutotrimSet_of_op (on : Bool) {p : Packet} {u : State}
    (hnamed : rangeOk p.params = true ∧ u8 p.params 4 = b2n on ∧ zeroAt p.params 5 3 = true) :
    cmdAutotrimSet p u =
      .ok (if on then u.startTrim ((rangeOuts p.params).filter (fun o => !u.autotrim o))
        else u.stopTrim (rangeOuts p.params)) [] := by
  obtain ⟨hrange, hop, hzero⟩ := hnamed
  cases on with
  | true => exact (if_neg (by simp [hrange, hop, hzero, b2n])).trans (if_pos hop)
  | false => exact (if_neg (by simp [hrange, hop, hzero, b2n])).trans (if_neg (by simp [hop, b2n]))

/-- Settles O16: a sweep goes by the lock of D2, an export by whether the output has a result, and `AUTOTRIM_SET` by its op;
under each other clause's conditions the checks of its body pass, and what is left of the body is its effect. -/
theorem measurementCommandsComplete : Obligations.MeasurementCommandsComplete := by
  unfold Obligations.MeasurementCommandsComplete
  exact
    ⟨.of_body cmdMeasPdmSet (fun _ _ => rfl) fun p u ⟨hpdm, hdc, hhpf⟩ => if_neg (by simp [hpdm, hdc, hhpf]),
    ⟨.of_body cmdMeasSweep (fun _ _ => rfl) fun p u ⟨hlock, hok, hfits⟩ => cmdMeasSweep_locked hlock hok hfits,
      .of_fail cmdMeasSweep (fun _ _ => rfl) fun p u hunlocked => cmdMeasSweep_unlocked hunlocked⟩,
    .of_body cmdMeasPrbGroupSet (fun _ _ => rfl) fun p u ⟨hgroup, hzero, hmics, hrange, hcount⟩ =>
      cmdMeasPrbGroupSet_of_ok hgroup hzero hmics hrange hcount,
    .of_body cmdMeasPrbSet (fun _ _ => rfl) fun p u hfits => cmdMeasPrbSet_of_fits hfits,
    ⟨fun r => .of_body cmdMeasPrbResult (fun _ _ => rfl) fun p u ⟨hfits, hres, hfree⟩ =>
        cmdMeasPrbResult_some hfits hres hfree,
      .of_body cmdMeasPrbResult (fun _ _ => rfl) fun p u ⟨hfits, hres, hfree⟩ => cmdMeasPrbResult_none hfits hres hfree⟩,
    .of_body cmdMeasPrbBaseline (fun _ _ => rfl) fun p u hrange => cmdMeasPrbBaseline_of_rangeOk hrange,
    .of_body cmdAutotrimSet (fun _ _ => rfl) fun p u hnamed => cmdAutotrimSet_of_op true hnamed,
    .of_body cmdAutotrimSet (fun _ _ => rfl) fun p u hnamed => cmdAutotrimSet_of_op false hnamed⟩

end Sys2Proof.Machine

/-!
The mixer, bypass and ducking commands (R283 to R303, R310), and the events of TDM ports and of the announcement gate (R302,
R314 to R323).
-/

namespace Sys2Proof.Machine

/-! ### Mixer, bypass and ducking -/

/-- A packet with as many gains as its count `m` says, 0 standing for 256, stages them one after the other (R291, R310). -/
theorem cmdMixNodeStage_of_count {p : Packet} {u : State} {m : Nat}
    (hm : (if u8 p.params 3 = 0 then 256 else u8 p.params 3) = m)
    (hlen : p.params.length = 4 + 2 * m) (hdom : u8 p.params 0 < 3) (hbus : u8 p.params 1 < domSize (u8 p.params 0))
    (hnodes : u8 p.params 2 + m ≤ domSize (u8 p.params 0)) :
    cmdMixNodeStage p u =
      .ok { u with
        mix.staged := (List.range m).foldl
          (fun (t : Tab Int) i =>
            Tab.store t 0 (65536 * u8 p.params 0 + 256 * u8 p.params 1 + u8 p.params 2 + i) (i16 p.params (4 + 2 * i)))
          u.mix.staged } [] := by
  subst hm
  exact (if_neg (not_not_intro hlen)).trans (if_neg (by simp [hdom, hbus, hnodes]))

/-- The op of `MIX_COMMIT` says whether the staged gains or the active ones are taken (R291). -/
theorem cmdMixCommit_of_op (discard : Bool) {p : Packet} {u : State}
    (hnamed : u8 p.params 0 = b2n discard ∧ u8 p.params 1 < 8 ∧ u16 p.params 2 = 0) :
    cmdMixCommit p u =
      .ok (if discard then { u with mix.staged := takeDoms (u8 p.params 1) u.plan.mixG u.mix.staged }
        else { u with plan.mixG := takeDoms (u8 p.params 1) u.mix.staged u.plan.mixG }) [] := by
  obtain ⟨hop, hmask, hzero⟩ := hnamed
  have hparams : ¬ (1 < u8 p.params 0 ∨ 8 ≤ u8 p.params 1 ∨ u16 p.params 2 ≠ 0) := by
    cases discard <;> simp [hop, hmask, hzero, b2n]
  refine (if_neg hparams).trans ?_
  cases discard with
  | false => exact if_pos hop
  | true => exact if_neg (by simp [hop, b2n])

/-- Settles O17: staging and commit have their lemmas; under each other clause's conditions the checks of its body pass, and
what is left of the body is its effect. -/
theorem mixerCommandsComplete : Obligations.MixerCommandsComplete := by
  unfold Obligations.MixerCommandsComplete
  exact
    ⟨.of_body cmdMixSrcSet (fun _ _ => rfl) fun p u ⟨hdom, hsrc, hzero, hword⟩ =>
      if_neg (by simp [hdom, hsrc, hzero, hword]),
    .of_body cmdMixNodeStage (fun _ _ => rfl) fun p u ⟨hlen, hdom, hbus, hnodes⟩ =>
      cmdMixNodeStage_of_count rfl hlen hdom hbus hnodes,
    ⟨.of_body cmdMixCommit (fun _ _ => rfl) fun p u hnamed => cmdMixCommit_of_op false hnamed,
      .of_body cmdMixCommit (fun _ _ => rfl) fun p u hnamed => cmdMixCommit_of_op true hnamed⟩,
    .of_body cmdMixBusSet (fun _ _ => rfl) fun p u ⟨hdom, hbus, hzero, hcfg, hdest, hstream, hgain, hfree⟩ =>
      if_neg (by simpa [hdom, hbus, hzero, hcfg, hdest, hgain, hfree] using hstream),
    .of_body cmdMixDomSet (fun _ _ => rfl) fun p u ⟨hrsv, href, hfast1, hfast2⟩ =>
      if_neg (by simp [hrsv, href, hfast1, hfast2]),
    .of_body cmdMixBridgeSet (fun _ _ => rfl) fun p u ⟨hbridge, hzero, hrsv, hfrom, hto, hdiffer, hbus⟩ =>
      if_neg (by simp [hbridge, hzero, hrsv, hfrom, hto, hdiffer, hbus]),
    .of_body cmdMixSilSet (fun _ _ => rfl) fun p u ⟨hrsv, hthresh, hlow, hhigh⟩ =>
      if_neg (by simp [hrsv, hthresh, Nat.one_le_iff_ne_zero.1 hlow, hhigh]),
    .of_body cmdBypSet (fun _ _ => rfl) fun p u hok => if_neg (by simp [hok]),
    .of_body cmdDuckSet (fun _ _ => rfl) fun p u ⟨hset, hzero, hdepth, hattack, hrelease⟩ =>
      if_neg (by simp [hset, hzero, hdepth, hattack, hrelease]),
    .of_body cmdMixQuery (fun _ _ => rfl) fun p u ⟨hdom, hbus, hzero⟩ => if_neg (by simp [hdom, hbus, hzero])⟩

/-! ### TDM ports and announcements -/

/-- The guard of `TDM_FRAME` lets a frame of a port that runs in some direction through. -/
theorem frame_runs {q : Nat} {rx tx : Bool} (hport : q < 16) (hruns : rx = true ∨ tx = true) :
    ¬ (16 ≤ q ∨ (rx = false ∧ tx = false)) := by
  rcases hruns with rfl | rfl <;> simp [hport]

/-- The state of a port in one direction. -/
def TdmPort.dir (x : TdmPort) (tx : Bool) : Option TdmDir := if tx then x.tx else x.rx

/-- The port with the state `d` in one direction. -/
def TdmPort.putDir (x : TdmPort) (tx : Bool) (d : TdmDir) : TdmPort :=
  if tx then { x with tx := some d } else { x with rx := some d }

/-- The configuration that a direction of port `q` runs under. -/
def State.tdmDirCfg (u : State) (q : Nat) (tx : Bool) : RCfg := if tx then u.tdmTxCfg q else u.tdmRxCfg q

/-- A wait whose time has passed ends, in either direction (R323). -/
theorem zcTimeout_happens (q : Nat) (tx : Bool) (j : Nat) (d : TdmDir) (w : ZcWait) :
    Happens (.zcTimeout q tx j)
      (fun u => (u.tdmPort q).dir tx = some d ∧ Tab.look d.waits j = some w ∧
        w.since + d.zcFrames (u.tdmRate (u.tdmDirCfg q tx) q) ≤ (u.tdmPort q).frame + 1)
      (fun u => (u.setTdmPort q ((u.tdmPort q).putDir tx (d.timeOut j w))).zcTimedOut true) := by
  rintro t s ⟨hdir, hwait, hpassed⟩
  unfold TdmPort.dir at hdir
  change execZcTimeout q tx j t s = _
  simp only [execZcTimeout, hdir, hwait]
  exact if_neg (Nat.not_lt.2 hpassed)

/-- Settles O30: each row's guard is decided by the statement's condition, and a wait is found in the direction that the row
names. -/
theorem tdmEventsComplete : Obligations.TdmEventsComplete := by
  unfold Obligations.TdmEventsComplete
  exact
    ⟨fun _ _ _ _ _ _ _ _ ⟨hport, hruns⟩ => if_neg (frame_runs hport hruns), -- TDM_FRAME
    fun _ _ _ _ _ _ _ _ ⟨_, hstopped⟩ => if_pos (.inr hstopped), -- and of a port that is stopped
    fun _ _ _ ⟨hport, hruns, hslave, hthere⟩ => if_neg (by simp [hport, hruns, hslave, hthere]), -- TDM_CLOCK_LOST
    fun q j d w => zcTimeout_happens q true j d w,
    fun q j d w => zcTimeout_happens q false j d w,
    fun _ _ _ hover => if_pos hover⟩ -- GATE_HOLD_EXPIRY

end Sys2Proof.Machine

/-!
The TDM commands (R322, R335).
-/

namespace Sys2Proof.Machine

/-! ### Setting and querying a TDM port -/

/-- The configuration word that the packet asks for; ports 14 and 15 are masters in the bypass domain, whatever its `MASTER`
and `DOM` say (R311). -/
def askedTdmCfg (p : Packet) : Nat :=
  if 14 ≤ u8 p.params 0 then setBitsN (u32 p.params 4) 30 28 7 else u32 p.params 4

theorem cmdTdmPortSet_of_ok {p : Packet} {u : State} (hport : u8 p.params 0 < 16) (hzero : zeroAt p.params 1 3 = true)
    (hok : u.tdmOk (u8 p.params 0) (askedTdmCfg p) (u32 p.params 8) = true) :
    cmdTdmPortSet p u =
      .ok ((u.wr (Reg.TDM_CFG (u8 p.params 0)) (askedTdmCfg p)).wr (Reg.TDM_FMT (u8 p.params 0)) (u32 p.params 8)) [] := by
  have hparams : ¬ (16 ≤ u8 p.params 0 ∨ !zeroAt p.params 1 3 ∨
      !u.tdmOk (u8 p.params 0) (askedTdmCfg p) (u32 p.params 8)) := by
    simp [hport, hzero, hok]
  exact if_neg hparams

/-- Settles O18: under each clause's conditions the checks of its body pass, and what is left of the body is its effect; the
bits of `TX_MASK` and `TX_EN` that `ownedSlots` names keep their values (R320). -/
theorem tdmCommandsComplete : Obligations.TdmCommandsComplete := by
  unfold Obligations.TdmCommandsComplete
  exact
    ⟨.of_body cmdTdmPortSet (fun _ _ => rfl) fun p u ⟨hport, hzero, hok⟩ => cmdTdmPortSet_of_ok hport hzero hok,
    .of_body cmdTdmSlotSet (fun _ _ => rfl) fun p u ⟨hport, hzero, hmask⟩ => if_neg (by simp [hport, hzero, hmask]),
    .of_body cmdTdmQuery (fun _ _ => rfl) fun p u ⟨hport, hzero⟩ => if_neg (by simp [hport, hzero])⟩

end Sys2Proof.Machine

/-!
The network port commands (R344, R358), and the events of the MACs (R337 to R355).
-/

namespace Sys2Proof.Machine

/-! ### Setting a port -/

/-- The `MAC_CFG` that the packet asks for; the fields that a port lacks ignore writes (R355). -/
def askedMacCfg (p : Packet) : Nat :=
  if u8 p.params 0 = 2 then setBitN (u32 p.params 4) 16 false else setBitN (u32 p.params 4) 17 false

/-- The `MAC_TS_ADJ` that the packet asks for. -/
def askedTsAdj (p : Packet) : Nat := if u8 p.params 0 = 2 then u32 p.params 8 else setBitsN (u32 p.params 8) 1 0 0

/-- The speed that the packet asks for. -/
def askedSpeed (p : Packet) : Nat := bitsN (u32 p.params 4) 19 18

/-- What `NET_PORT_SET` asks of a packet for any port. -/
def PortWordsFit (p : Packet) : Prop :=
  zeroAt p.params 1 3 = true ∧ rsvOk (Reg.MAC_CFG 0) (u32 p.params 4) = true ∧
    1518 ≤ bitsN (u32 p.params 4) 13 0 ∧ bitsN (u32 p.params 4) 13 0 ≤ 9216 ∧ bitsN (u32 p.params 8) 15 2 ≠ 8192

/-- What `NET_PORT_SET` asks of its packet: that the port has the speed too, and the management port the duplex mode and the
PHY address. -/
def PortSetFits (p : Packet) : Prop :=
  PortWordsFit p ∧ ((u8 p.params 0 ≤ 1 ∧ askedSpeed p ≤ 1) ∨
    (u8 p.params 0 = 2 ∧ askedSpeed p ≤ 2 ∧ ((u32 p.params 4).testBit 17 = true → askedSpeed p ≠ 2) ∧
      bitsN (u32 p.params 4) 28 24 < 8))

/-- The packet changes the port's speed or its FEC. -/
def State.portMoves (u : State) (p : Packet) : Bool :=
  askedSpeed p != u.macSpeed (u8 p.params 0) ||
    (askedMacCfg p).testBit 16 != u.flag (Reg.MAC_CFG (u8 p.params 0)) Fl.MAC_CFG_FEC

theorem State.portMoves_iff {u : State} {p : Packet} :
    u.portMoves p = true ↔ askedSpeed p ≠ u.macSpeed (u8 p.params 0) ∨
      (askedMacCfg p).testBit 16 ≠ u.flag (Reg.MAC_CFG (u8 p.params 0)) Fl.MAC_CFG_FEC := by
  simp only [State.portMoves, Bool.or_eq_true, bne_iff_ne]

/-- The port's registers as the packet sets them; what frames that have begun run under is kept where it changes. -/
def State.putPort (u : State) (p : Packet) : State :=
  let m := u8 p.params 0
  let t := if bitsN (u32 p.params 4) 13 0 = u.fld (Reg.MAC_CFG m) Fl.MAC_CFG_MAX_LEN then u else u.macKeep m
  (t.wr (Reg.MAC_CFG m) (askedMacCfg p)).wr (Reg.MAC_TS_ADJ m) (askedTsAdj p)

/-- The check of the fields whose range depends on the port passes. -/
theorem PortSetFits.fields_pass {p : Packet} (hfits : PortSetFits p) :
    (if u8 p.params 0 = 2 then
        askedSpeed p == 3 || ((u32 p.params 4).testBit 17 && askedSpeed p == 2) || decide (8 ≤ bitsN (u32 p.params 4) 28 24)
      else decide (1 < askedSpeed p)) = false := by
  obtain ⟨-, ⟨hport, hspeed⟩ | ⟨hport, hspeed, hhalf, hphy⟩⟩ := hfits
  · have hmedia : u8 p.params 0 ≠ 2 := by omega
    simpa [hmedia] using hspeed
  · have hspeed3 : askedSpeed p ≠ 3 := by omega
    simpa [hport, hspeed3, hphy] using hhalf

theorem PortSetFits.port_lt {p : Packet} (hfits : PortSetFits p) : u8 p.params 0 < 3 := by
  obtain ⟨-, ⟨hport, -⟩ | ⟨hport, -⟩⟩ := hfits <;> omega

/-- A packet that fits sets the port; the link goes down, and PTP follows its port, where the port moves. -/
theorem cmdNetPortSet_of_fits {p : Packet} {u : State} (hfits : PortSetFits p) :
    cmdNetPortSet p u =
      .ok (if u.portMoves p then ((u.putPort p).setUp (u8 p.params 0) false).ptpFollowPort else u.putPort p) [] := by
  have hport := hfits.port_lt
  have hfields := hfits.fields_pass
  obtain ⟨⟨hzero, hrsv, hmin, hmax, hadj⟩, -⟩ := hfits
  unfold askedSpeed at hfields
  exact if_neg (by simp [hport, hzero, hrsv, hmin, hmax, hadj, hfields])

/-! ### Rules and the management interface -/

/-- A rule is staged where its words set no reserved bit and its queue is one of the port's. -/
theorem cmdNetRuleSet_of_words {p : Packet} {u : State} (hport : u8 p.params 0 ≤ 2)
    (hrule : u8 p.params 1 < macFwRule (u8 p.params 0)) (hzero : u16 p.params 2 = 0)
    (hwords : ∀ i, i < 6 → rsvOk (Reg.MAC_RULE_CTL 0 0 + 4 * i) (u32 p.params (4 + 4 * i)) = true)
    (hqueue : bitsN (u32 p.params 4) 4 0 < macRxQueues (u8 p.params 0)) :
    cmdNetRuleSet p u =
      .ok { u with
        mac.staged := Tab.put u.mac.staged (32 * u8 p.params 0 + u8 p.params 1)
          ((List.range 6).map (fun i => u32 p.params (4 + 4 * i))) } [] := by
  have hall : (List.range 6).all (fun i => rsvOk (Reg.MAC_RULE_CTL 0 0 + 4 * i)
      (nth ((List.range 6).map (fun i => u32 p.params (4 + 4 * i))) i 0)) = true := by
    simp only [List.all_eq_true, List.mem_range]
    intro i hi
    have hnth : nth ((List.range 6).map (fun i => u32 p.params (4 + 4 * i))) i 0 = u32 p.params (4 + 4 * i) := by
      simp [nth, hi]
    rw [hnth]
    exact hwords i hi
  have hhead : nth ((List.range 6).map (fun i => u32 p.params (4 + 4 * i))) 0 0 = u32 p.params 4 := rfl
  exact if_neg (by simp [hall, hhead, Nat.lt_succ_of_le hport, hrule, hzero, hqueue])

/-- A frame is started where the packet names clause and operation that the management interface has (R355). -/
theorem cmdNetMdio_of_frame {p : Packet} {u : State} (hport : u8 p.params 0 = 2) (hzero : zeroAt p.params 1 3 = true)
    (hrsv : rsvOk (Reg.MAC_MDIO 2) (u32 p.params 4) = true) (hgo : (u32 p.params 4).testBit 31 = true)
    (h45 : (u32 p.params 4).testBit 30 = true → bitsN (u32 p.params 4) 29 28 ≠ 2)
    (h22 : (u32 p.params 4).testBit 30 = false → bitsN (u32 p.params 4) 29 28 = 1 ∨ bitsN (u32 p.params 4) 29 28 = 2) :
    cmdNetMdio p u = .hold (u.mdioGo (u32 p.params 4)) 1 0 := by
  have hop : ¬ (if (u32 p.params 4).testBit 30 then bitsN (u32 p.params 4) 29 28 = 2
      else bitsN (u32 p.params 4) 29 28 = 0 ∨ bitsN (u32 p.params 4) 29 28 = 3) := by
    split
    case isTrue hc45 => exact h45 hc45
    case isFalse hc22 =>
      have hread := h22 (Bool.eq_false_iff.2 hc22)
      omega
  exact if_neg (by simpa [hport, hzero, hrsv, hgo] using hop)

/-- Settles O10: under each clause's conditions the checks of its body pass, and what is left of the body is its effect; the
link goes down and PTP follows its port just where the speed or the FEC changes. -/
theorem networkCommandsComplete : Obligations.NetworkCommandsComplete := by
  unfold Obligations.NetworkCommandsComplete
  refine
    ⟨⟨.of_body cmdNetPortSet (fun _ _ => rfl) fun p u ⟨hfits, hstays⟩ => ?stays,
      .of_body cmdNetPortSet (fun _ _ => rfl) fun p u ⟨hfits, hmoves⟩ => ?moves⟩,
    .of_body cmdNetRuleSet (fun _ _ => rfl) fun p u ⟨hport, hrule, hzero, hwords, hqueue⟩ =>
      cmdNetRuleSet_of_words hport hrule hzero hwords hqueue,
    .of_body cmdNetRuleCommit (fun _ _ => rfl) fun p u ⟨hmask, hzero⟩ => if_neg (by simp [hmask, hzero]),
    .of_body cmdNetTxqSet (fun _ _ => rfl) fun p u ⟨hport, hqueue, hzero, hrsv⟩ =>
      if_neg (by simpa [Nat.lt_succ_of_le hport, hqueue, hzero] using hrsv),
    .of_body cmdNetLinkQuery (fun _ _ => rfl) fun p u ⟨hport, hzero⟩ =>
      if_neg (by simp [Nat.lt_succ_of_le hport, hzero]),
    .of_body cmdNetStats (fun _ _ => rfl) fun p u ⟨hport, hzero⟩ => if_neg (by simp [Nat.lt_succ_of_le hport, hzero]),
    .of_hold cmdNetMdio (fun _ _ => rfl) fun p u ⟨hport, hzero, hrsv, hgo, h45, h22⟩ =>
      cmdNetMdio_of_frame hport hzero hrsv hgo h45 h22⟩
  case stays => exact (cmdNetPortSet_of_fits hfits).trans (by rw [if_neg (mt State.portMoves_iff.1 hstays)]; rfl)
  case moves => exact (cmdNetPortSet_of_fits hfits).trans (by rw [if_pos (State.portMoves_iff.2 hmoves)]; rfl)

/-! ### Reception (R340) -/

/-- The port takes frames in. -/
def State.receives (u : State) (m : Nat) : Prop :=
  u.macOn m = true ∧ u.flag (Reg.MAC_CFG m) Fl.MAC_CFG_RX_EN = true

/-- The state in which a frame of `len` bytes is judged: its codewords and its bytes are counted. -/
def State.cameIn (u : State) (m len corr uncorr : Nat) : State :=
  (if m = 2 then u else (u.macCount m 12 corr).macCount m 13 uncorr).bwBytes (48 + 2 * m) len

/-- What the frame runs under: the rules and the longest frame of the time at which it began. -/
def State.cameUnder (u : State) (m corr uncorr : Nat) (bytes : List Byte) : MacPrior :=
  let v := u.cameIn m bytes.length corr uncorr
  v.macAt m (v.frameStart m bytes.length)

/-- A port that takes frames in takes one whose length is within its bounds. -/
def State.takesSized (u : State) (m corr uncorr : Nat) (bytes : List Byte) : Prop :=
  u.receives m ∧ 64 ≤ bytes.length ∧ bytes.length ≤ (u.cameUnder m corr uncorr bytes).maxLen

/-- The FCS of a frame is that of its bytes. -/
def fcsGood (bytes : List Byte) : Prop := crc32 (bytes.take (bytes.length - 4)) = u32 bytes (bytes.length - 4)

/-- The guard of `FRAME_RECEIVED` lets a frame of a port that receives through. -/
theorem State.receives.passes {u : State} {m : Nat} (hon : u.receives m) :
    ¬ (!u.macOn m || !u.flag (Reg.MAC_CFG m) Fl.MAC_CFG_RX_EN) = true := by
  obtain ⟨hmac, hrx⟩ := hon
  simp [hmac, hrx]

/-- What becomes of a frame whose length is within its bounds: the checks from the FCS on, and the rules that the frame runs
under (R340, R342). -/
def State.judged (v : State) (m : Nat) (rules : List (List Nat)) (bytes : List Byte) (odd full : Bool) (cap mt : Nat) : Out :=
  if odd ∨ crc32 (bytes.take (bytes.length - 4)) ≠ u32 bytes (bytes.length - 4) then .next (v.macBump m 3)
  else if (frameHead bytes).etype = 0x8808 then .next (v.controlFrame m bytes)
  else
    match v.ruleFor m rules bytes with
    | some (r, ws) =>
      if (nth ws 0 0).testBit 30 then .next (v.macBump m 7)
      else .next (v.queueFrame m (bitsN (nth ws 0 0) 4 0) r bytes full cap mt)
    | none =>
      if (v.macBump m 6).flag (Reg.MAC_CFG m) Fl.MAC_CFG_DFLT_DROP then .next (v.macBump m 6)
      else .next ((v.macBump m 6).queueFrame m ((v.macBump m 6).fld (Reg.MAC_CFG m) Fl.MAC_CFG_DFLT_Q) 255 bytes full cap mt)

section
variable {m : Nat} {bytes : List Byte} {odd full : Bool} {corr uncorr cap mt : Nat}

theorem frameReceived_noRoom {bad : Bool} :
    Happens (.frameReceived m bytes bad odd true full corr uncorr cap mt) (·.receives m)
      (fun u => ((u.cameIn m bytes.length corr uncorr).macBump m 9).irq (Reg.MAC_IRQ_STAT m) Fl.MAC_IRQ_STAT_FIFO_DROP) :=
  fun _ _ hon => (if_neg hon.passes).trans (if_pos rfl)

theorem frameReceived_bad :
    Happens (.frameReceived m bytes true odd false full corr uncorr cap mt) (·.receives m)
      (fun u => (u.cameIn m bytes.length corr uncorr).macBump m 5) :=
  fun _ _ hon => (if_neg hon.passes).trans ((if_neg Bool.false_ne_true).trans (if_pos rfl))

theorem frameReceived_short (hshort : bytes.length < 64) :
    Happens (.frameReceived m bytes false odd false full corr uncorr cap mt) (·.receives m)
      (fun u => (u.cameIn m bytes.length corr uncorr).macBump m 2) :=
  fun _ _ hon => (if_neg hon.passes).trans <| (if_neg Bool.false_ne_true).trans <|
    (if_neg Bool.false_ne_true).trans (if_pos hshort)

theorem frameReceived_long (hmin : 64 ≤ bytes.length) :
    Happens (.frameReceived m bytes false odd false full corr uncorr cap mt)
      (fun u => u.receives m ∧ (u.cameUnder m corr uncorr bytes).maxLen < bytes.length)
      (fun u => (u.cameIn m bytes.length corr uncorr).macBump m 4) :=
  fun _ _ ⟨hon, hlong⟩ => (if_neg hon.passes).trans <| (if_neg Bool.false_ne_true).trans <|
    (if_neg Bool.false_ne_true).trans <| (if_neg (Nat.not_lt.2 hmin)).trans (if_pos hlong)

/-- A frame that comes as far as the check of its FCS is judged from there on. -/
theorem Happens.of_judged {cond : State → Prop} {eff : State → State}
    (hsized : ∀ u, cond u → u.takesSized m corr uncorr bytes)
    (hjudged : ∀ u, cond u → (u.cameIn m bytes.length corr uncorr).judged m (u.cameUnder m corr uncorr bytes).rules bytes odd
      full cap mt = .next (eff u)) :
    Happens (.frameReceived m bytes false odd false full corr uncorr cap mt) cond eff := by
  intro t s hcond
  obtain ⟨hon, hmin, hmax⟩ := hsized _ hcond
  exact (if_neg hon.passes).trans <| (if_neg Bool.false_ne_true).trans <| (if_neg Bool.false_ne_true).trans <|
    (if_neg (Nat.not_lt.2 hmin)).trans <| (if_neg (Nat.not_lt.2 hmax)).trans (hjudged _ hcond)

/-- A whole frame with its own FCS passes the check. -/
theorem fcsGood.passes (hgood : fcsGood bytes) :
    ¬ (false = true ∨ crc32 (bytes.take (bytes.length - 4)) ≠ u32 bytes (bytes.length - 4)) := by
  simpa [fcsGood] using hgood

variable {v : State} {rules : List (List Nat)}

theorem State.judged_control (hgood : fcsGood bytes) (hcontrol : (frameHead bytes).etype = 0x8808) :
    v.judged m rules bytes false full cap mt = .next (v.controlFrame m bytes) :=
  (if_neg hgood.passes).trans (if_pos hcontrol)

theorem State.judged_rule {r : Nat} {ws : List Nat} (hgood : fcsGood bytes) (hdata : (frameHead bytes).etype ≠ 0x8808)
    (hrule : v.ruleFor m rules bytes = some (r, ws)) :
    v.judged m rules bytes false full cap mt =
      .next (if (nth ws 0 0).testBit 30 then v.macBump m 7
        else v.queueFrame m (bitsN (nth ws 0 0) 4 0) r bytes full cap mt) := by
  refine (if_neg hgood.passes).trans ((if_neg hdata).trans ?_)
  simp only [hrule]
  exact (apply_ite Host.Outcome.next _ _ _).symm

theorem State.judged_default (hgood : fcsGood bytes) (hdata : (frameHead bytes).etype ≠ 0x8808)
    (hnone : v.ruleFor m rules bytes = none) :
    v.judged m rules bytes false full cap mt =
      .next (if (v.macBump m 6).flag (Reg.MAC_CFG m) Fl.MAC_CFG_DFLT_DROP then v.macBump m 6
        else (v.macBump m 6).queueFrame m ((v.macBump m 6).fld (Reg.MAC_CFG m) Fl.MAC_CFG_DFLT_Q) 255 bytes full cap mt) := by
  refine (if_neg hgood.passes).trans ((if_neg hdata).trans ?_)
  simp only [hnone]
  exact (apply_ite Host.Outcome.next _ _ _).symm

end

/-! ### Transmission (R346 to R352) -/

/-- The frame at the head of the first queue that may start, or whose frames a link that is down discards (R348). -/
theorem frameTransmit_of_head {m q cap t : Nat} {f : TxFrame} {fs : List TxFrame} {deferred : Bool} {s u : State}
    (hu : (s.atTime t).macSettle m = u) (hmac : u.macOn m = true) (htx : u.flag (Reg.MAC_CFG m) Fl.MAC_CFG_TX_EN = true)
    (hback : u.mac.backoff.contains m = false) (hidle : Tab.look u.mac.sending m = none)
    (hqueue : (List.range (macTxQueues m)).find? (fun q => u.txReady m q || (!u.macUp m && u.txHead m q)) = some q)
    (hhead : Tab.at u.mac.txq [] (8 * m + q) = f :: fs) :
    exec (.frameTransmit m deferred cap t) s = .next
      (if (u.txTake m q).macUp m = true ∧
          (framed f.bytes).length ≤ (u.txTake m q).fld (Reg.MAC_CFG m) Fl.MAC_CFG_MAX_LEN then
        (u.txTake m q).sendFrame m q 0 cap f false deferred
      else (u.txTake m q).macBump m 16) := by
  have hmay : (!u.macOn m || !u.flag (Reg.MAC_CFG m) Fl.MAC_CFG_TX_EN || u.mac.backoff.contains m) = false := by
    rw [hmac, htx, hback]
    rfl
  have hdrops : (!(u.txTake m q).macUp m ||
        decide ((u.txTake m q).fld (Reg.MAC_CFG m) Fl.MAC_CFG_MAX_LEN < (framed f.bytes).length)) = true ↔
      ¬ ((u.txTake m q).macUp m = true ∧
        (framed f.bytes).length ≤ (u.txTake m q).fld (Reg.MAC_CFG m) Fl.MAC_CFG_MAX_LEN) := by
    simp only [Bool.or_eq_true, Bool.not_eq_true', decide_eq_true_eq, Decidable.not_and_iff_not_or_not, Bool.not_eq_true,
      Nat.not_le]
  change execFrameTransmit m deferred cap t s = _
  simp only [execFrameTransmit, hu, hmay, hidle, hqueue, hhead, hdrops, Bool.false_eq_true, if_false, ite_not]
  exact (apply_ite Host.Outcome.next _ _ _).symm

/-- A collision of a half-duplex port that sends: late, one too many, or followed by a backoff (R352). -/
theorem collision_of_sending {m bits t : Nat} {x : Sending} {s u : State} (hu : (s.atTime t).macSettle m = u)
    (hsends : Tab.look u.mac.sending m = some x) (hhalf : u.macHalf m = true) (hends : x.endAt.isSome = true) :
    exec (.collision m bits t) s = .next
      (if 512 ≤ bits then
        (({ u with mac.sending := Tab.del u.mac.sending m } : State).macBump m 19).irq (Reg.MAC_IRQ_STAT m)
          Fl.MAC_IRQ_STAT_LATE_COL
      else if x.cols = 15 then
        (({ u with mac.sending := Tab.del u.mac.sending m } : State).macBump m 20).irq (Reg.MAC_IRQ_STAT m)
          Fl.MAC_IRQ_STAT_EXCESS_COL
      else { u with
        mac.sending := Tab.put u.mac.sending m { x with cols := x.cols + 1, endAt := none }
        mac.backoff := m :: u.mac.backoff.filter (· != m) }) := by
  have hcollides : (!u.macHalf m || x.endAt.isNone) = false := by simp [hhalf, hends]
  change execCollision m bits t s = _
  simp only [execCollision, hu, hsends, hcollides, Bool.false_eq_true, if_false, apply_ite Host.Outcome.next]

/-! ### Links and MDIO -/

/-- The guard of `LINK_CHANGE` lets the change of a port that is on through. -/
theorem State.macOn_passes {u : State} {m : Nat} (hon : u.macOn m = true) : ¬ (!u.macOn m) = true := by simp [hon]

/-- The end of the frame that runs releases the command that waits for it (R355). -/
theorem mdioFrameDone_releases (data : Nat) :
    Releases (.mdioFrameDone data) (fun u => u.flag (Reg.MAC_MDIO 2) Fl.MAC_MDIO_GO = true)
      (fun u =>
        let op := u.fld (Reg.MAC_MDIO 2) Fl.MAC_MDIO_OP
        let read := if u.flag (Reg.MAC_MDIO 2) Fl.MAC_MDIO_C45 then op == 3 else op == 2
        let v := u.setFlag (Reg.MAC_MDIO 2) Fl.MAC_MDIO_GO false
        let v := if read then v.setFld (Reg.MAC_MDIO 2) Fl.MAC_MDIO_DATA data else v
        v.finishHeld 1 stOK (by2 (v.fld (Reg.MAC_MDIO 2) Fl.MAC_MDIO_DATA))) := by
  intro t s hgo
  have hruns : ¬ (!(s.atTime t).flag (Reg.MAC_MDIO 2) Fl.MAC_MDIO_GO) = true := by simp [hgo]
  exact congrArg (afterRow s) (if_neg hruns)

/-- Settles O31: a frame received comes to its first failing check, or past all of them to the rules; each other row's guard
is decided by the statement's condition. -/
theorem macEventsComplete : Obligations.MacEventsComplete := by
  unfold Obligations.MacEventsComplete
  exact
    ⟨fun _ _ _ _ _ _ _ _ _ => frameReceived_noRoom, -- FRAME_RECEIVED
    fun _ _ _ _ _ _ _ _ => frameReceived_bad,
    fun _ _ _ _ _ _ _ _ hshort => frameReceived_short hshort,
    fun _ _ _ _ _ _ _ _ hmin => frameReceived_long hmin,
    ⟨fun _ _ _ _ _ _ _ _ hbad => .of_judged (fun _ hsized => hsized) fun _ _ => if_pos hbad,
      fun _ _ _ _ _ _ _ hgood hcontrol =>
        .of_judged (fun _ hsized => hsized) fun _ _ => State.judged_control hgood hcontrol,
      fun _ _ _ _ _ _ _ _ _ hgood hdata =>
        .of_judged (fun _ ⟨hsized, _⟩ => hsized) fun _ ⟨_, hrule⟩ => State.judged_rule hgood hdata hrule,
      fun _ _ _ _ _ _ _ hgood hdata =>
        .of_judged (fun _ ⟨hsized, _⟩ => hsized) fun _ ⟨_, hnone⟩ => State.judged_default hgood hdata hnone⟩,
    fun _ _ _ hover => if_neg (Bool.eq_false_iff.1 hover), -- PAUSE_EXPIRY
    fun _ _ _ _ _ _ _ _ hmac htx hback hidle hqueue hhead =>
      frameTransmit_of_head rfl hmac htx hback hidle hqueue hhead, -- FRAME_TRANSMIT
    fun _ _ _ _ _ hsends hhalf hends => collision_of_sending rfl hsends hhalf hends, -- COLLISION
    fun _ => .of_exec fun _ _ => rfl, -- BACKOFF_EXPIRY
    fun _ _ _ _ _ _ _ _ _ _ hon => (if_neg (State.macOn_passes hon)).trans (if_pos rfl), -- LINK_CHANGE of MAC M
    fun _ _ _ _ _ _ _ _ _ hmedia _ _ hon => (if_neg (State.macOn_passes hon)).trans (if_neg hmedia), -- of a media port
    mdioFrameDone_releases⟩ -- MDIO_FRAME_DONE

end Sys2Proof.Machine

/-!
The stream commands (R377, R384), and the events of the stream engine (R360, R373, R375).
-/

namespace Sys2Proof.Machine

/-! ### Setting and removing a stream -/

section
variable {p : Packet} {u : State}

/-- The checks of the op and of the stream's number, which both tables share, pass for the ops 0 and 1. -/
theorem streamOp_passes {op : Nat} (hle : op ≤ 1) (hop : u8 p.params 2 = op) (hstream : u16 p.params 0 < 256) :
    ¬ (1 < u8 p.params 2 ∨ 256 ≤ u16 p.params 0) := by omega

/-- A receive stream is set, from the next folio on, where the budgets of streams and of channels have room (R365, R377). -/
theorem cmdStrmRxSet_set (hop : u8 p.params 2 = 0) (hstream : u16 p.params 0 < 256)
    (hok : u.rxOk (u16 p.params 0) p.params = true) (hstreams : (u.rxUse (u16 p.params 0)).1 + 1 ≤ u.limit 5)
    (hchans : (u.rxUse (u16 p.params 0)).2 + (rxCfgOf p.params).chans ≤ u.limit 7) :
    cmdStrmRxSet p u =
      .ok (((u.setRx (u16 p.params 0)
          (RxStream.init (rxCfgOf p.params) (u.slot + 1) (u.rxPast (u16 p.params 0)))).legsOff (u16 p.params 0)).reserveNew
        (ownRing (u16 p.params 0)) (rxCfgOf p.params).ringBytes) [] :=
  (if_neg (streamOp_passes (Nat.zero_le 1) hop hstream)).trans <| (if_neg (by simp [hop])).trans <|
    (if_neg (by simp [hok])).trans <| (if_neg (Nat.not_lt.2 hstreams)).trans (if_neg (Nat.not_lt.2 hchans))

theorem cmdStrmRxSet_remove {x : RxStream} (hop : u8 p.params 2 = 1) (hstream : u16 p.params 0 < 256)
    (hthere : Tab.look u.strm.rx (u16 p.params 0) = some x) (hgone : x.gone = none) :
    cmdStrmRxSet p u =
      .ok ((u.setRx (u16 p.params 0) { x with gone := some (u.slot + 1) }).unreserve (ownRing (u16 p.params 0))) [] := by
  refine (if_neg (streamOp_passes (Nat.le_refl 1) hop hstream)).trans ((if_pos hop).trans ?_)
  simp only [hthere]
  exact if_neg (by simp [hgone])

/-- A stream that is not configured, or is removed already, is answered without a record (R384). -/
theorem cmdStrmRxSet_remove_absent (hop : u8 p.params 2 = 1) (hstream : u16 p.params 0 < 256)
    (habsent : ∀ x, Tab.look u.strm.rx (u16 p.params 0) = some x → x.gone.isSome = true) :
    cmdStrmRxSet p u = .done (u.reply p 0x0310 stOK []) := by
  refine (if_neg (streamOp_passes (Nat.le_refl 1) hop hstream)).trans ((if_pos hop).trans ?_)
  cases hlook : Tab.look u.strm.rx (u16 p.params 0) with
  | none => rfl
  | some x => exact if_pos (habsent x hlook)

/-- A transmit stream is set, from the next folio on, where the budgets of streams and of channels have room. -/
theorem cmdStrmTxSet_set (hop : u8 p.params 2 = 0) (hstream : u16 p.params 0 < 256) (hok : u.txOk p.params = true)
    (hstreams : (u.txUse (u16 p.params 0)).1 + 1 ≤ u.limit 6)
    (hchans : (u.txUse (u16 p.params 0)).2 + (txCfgOf p.params).chans ≤ u.limit 8) :
    cmdStrmTxSet p u = .ok (u.setTx (u16 p.params 0) (some (txCfgOf p.params))) [] :=
  (if_neg (streamOp_passes (Nat.zero_le 1) hop hstream)).trans <| (if_neg (by simp [hop])).trans <|
    (if_neg (by simp [hok])).trans <| (if_neg (Nat.not_lt.2 hstreams)).trans (if_neg (Nat.not_lt.2 hchans))

/-- Whether the stream is configured decides between a removal, which is recorded, and an answer that is not (R384). -/
theorem cmdStrmTxSet_remove (hop : u8 p.params 2 = 1) (hstream : u16 p.params 0 < 256) :
    cmdStrmTxSet p u =
      if (Tab.at u.strm.tx ⟨[], 0, 0⟩ (u16 p.params 0)).now.isSome then .ok (u.setTx (u16 p.params 0) none) []
      else .done (u.reply p 0x0311 stOK []) :=
  (if_neg (streamOp_passes (Nat.le_refl 1) hop hstream)).trans (if_pos hop)

end

/-! ### Queries -/

/-- The query of a transmit stream answers the bytes it was set with and its two counts. -/
theorem cmdStrmTxQuery_configured {p : Packet} {u : State} (hzero : u16 p.params 2 = 0)
    (hthere : (Tab.at u.strm.tx ⟨[], 0, 0⟩ (u16 p.params 0)).now.isSome = true) :
    cmdStrmTxQuery p u =
      let x := Tab.at u.strm.tx ⟨[], 0, 0⟩ (u16 p.params 0)
      .ok u ((x.now.map (·.raw)).getD [] ++ by4 x.queued ++ by4 x.nores) := by
  obtain ⟨c, hc⟩ := Option.isSome_iff_exists.1 hthere
  simp only [cmdStrmTxQuery, hc, Option.map_some, Option.getD_some]
  exact if_neg (not_not_intro hzero)

/-- Settles O11: a set passes the checks of its descriptor and of the budgets, a removal goes by whether the stream is there,
and a query finds its stream. -/
theorem streamCommandsComplete : Obligations.StreamCommandsComplete := by
  unfold Obligations.StreamCommandsComplete
  refine
    ⟨⟨.of_body cmdStrmRxSet (fun _ _ => rfl) fun p u ⟨hop, hstream, hok, hstreams, hchans⟩ =>
        cmdStrmRxSet_set hop hstream hok hstreams hchans,
      fun x => .of_body cmdStrmRxSet (fun _ _ => rfl) fun p u ⟨hop, hstream, hthere, hgone⟩ =>
        cmdStrmRxSet_remove hop hstream hthere hgone,
      .of_done cmdStrmRxSet (fun _ _ => rfl) fun p u ⟨hop, hstream, habsent⟩ =>
        cmdStrmRxSet_remove_absent hop hstream habsent⟩,
    ⟨.of_body cmdStrmTxSet (fun _ _ => rfl) fun p u ⟨hop, hstream, hok, hstreams, hchans⟩ =>
        cmdStrmTxSet_set hop hstream hok hstreams hchans,
      .of_body cmdStrmTxSet (fun _ _ => rfl) fun p u ⟨hop, hstream, hthere⟩ =>
        (cmdStrmTxSet_remove hop hstream).trans (if_pos hthere),
      .of_done cmdStrmTxSet (fun _ _ => rfl) fun p u ⟨hop, hstream, habsent⟩ =>
        (cmdStrmTxSet_remove hop hstream).trans (if_neg (Bool.eq_false_iff.1 habsent))⟩,
    fun x => .of_body cmdStrmRxQuery (fun _ _ => rfl) fun p u ⟨hzero, hthere, hgone⟩ => ?rxQuery,
    .of_body cmdStrmTxQuery (fun _ _ => rfl) fun p u ⟨hzero, hthere⟩ => cmdStrmTxQuery_configured hzero hthere⟩
  case rxQuery =>
    simp only [cmdStrmRxQuery, hthere]
    exact if_neg (by simp [hzero, hgone])

/-! ### Frames, packets and legs -/

/-- The oldest frame of the lowest queue that holds one is taken off its queue and classified (R343, R360). -/
theorem streamFrame_happens {m q : Nat} {f : RxFrame} {fs : List RxFrame} (hport : m < 2) :
    Happens (.streamFrame m)
      (fun u => (List.range 24).find? (fun q => !(Tab.at u.mac.rxq [] (32 * m + 8 + q)).isEmpty) = some q ∧
        Tab.at u.mac.rxq [] (32 * m + 8 + q) = f :: fs)
      (fun u =>
        let i := 32 * m + 8 + q
        State.classify { u with mac.rxq := if fs.isEmpty then Tab.del u.mac.rxq i else Tab.put u.mac.rxq i fs } m f) := by
  rintro t s ⟨hqueue, hhead⟩
  change execStreamFrame m t s = _
  simp only [execStreamFrame, hqueue, hhead]
  exact if_neg (Nat.not_le.2 hport)

/-- A packet is due at every multiple of its stream's size, in the modes of R375 and R432. -/
theorem txPacket_happens {n e : Nat} {resA resB : Option Nat} {x : TxStream} {c : TxCfg} :
    Happens (.txPacket n e resA resB)
      (fun u => u.mode ∈ (if u.holds then [mIDLE, mRENDER, mMEASURE] else [mSTANDBY, mRESYNC]) ∧
        Tab.look u.strm.tx n = some x ∧ x.at' (e / u.folioLen - 2) = some c ∧ c.size ≠ 0 ∧ e % c.size = 0)
      (fun u =>
        let u := u.outSat (countIf (u.txWords n e c) (·.2))
        let v := if c.portA then u.txLeg n e 0 c c.dstA resA else u
        if c.portB then v.txLeg n e 1 c c.dstB resB else v) := by
  rintro t s ⟨hmode, hthere, hserves, hsize, hdue⟩
  have hmay := List.contains_iff_mem.2 hmode
  change execTxPacket n e resA resB t s = _
  simp only [execTxPacket, hmay, hthere, hserves, Bool.not_true, Bool.false_eq_true, if_false]
  exact if_neg (by simp [hsize, hdue])

/-- An enabled leg that was active stops being so once its time is over (R373). -/
theorem legDown_happens {n leg : Nat} {x : RxStream} (hleg : leg < 2) :
    Happens (.legDown n leg)
      (fun u => Tab.look u.strm.rx n = some x ∧ (x.cfg.leg leg).on = true ∧ (x.leg leg).active = true ∧
        max (1000000 * u.fs) (4 * x.cfg.size * 1000000000) ≤ (u.now - (x.leg leg).last) * u.fs)
      (fun u => ((u.setRx n (x.setLeg leg { x.leg leg with active := false })).legBit n leg false).irq Reg.STRM_IRQ_STAT
        Fl.STRM_IRQ_STAT_LEG_DOWN) := by
  rintro t s ⟨hthere, hon, hactive, hover⟩
  have hfalls : ¬ (2 ≤ leg ∨ !(x.cfg.leg leg).on ∨ !(x.leg leg).active ∨
      ((s.atTime t).now - (x.leg leg).last) * (s.atTime t).fs <
        max (1000000 * (s.atTime t).fs) (4 * x.cfg.size * 1000000000)) := by
    simp only [hon, hactive, Nat.not_le.2 hleg, Nat.not_lt.2 hover, Bool.not_true, Bool.false_eq_true, or_self,
      not_false_eq_true]
  change execLegDown n leg t s = _
  simp only [execLegDown, hthere]
  exact if_neg hfalls

/-- Settles O32: each row finds its frame or its stream under the statement's condition, which decides its guard. -/
theorem streamEventsComplete : Obligations.StreamEventsComplete := by
  unfold Obligations.StreamEventsComplete
  exact ⟨fun _ _ _ _ => streamFrame_happens, fun _ _ _ _ _ _ => txPacket_happens, fun _ _ _ => legDown_happens⟩

end Sys2Proof.Machine

/-!
The queue and the fuses under a step (R586, R616), and the checks of a packet: their order, roles and long operations (R441, R442,
R581 to R586).
-/

namespace Sys2Proof.Machine

/-! ### The queue and the fuses -/

/-- Settles O51: the law of a step speaks of the queue without its front, and an empty queue has no front to run. -/
theorem queueFirstInFirstOut : Obligations.QueueFirstInFirstOut := by
  unfold Obligations.QueueFirstInFirstOut
  refine ⟨fun s t h => (step_keeps h).pending, fun s hempty => ?_⟩
  simp only [step, hempty]

/-- Settles O50: the law of a step says what it keeps of the fuses. -/
theorem fusesOnlyBlow : Obligations.FusesOnlyBlow := by
  unfold Obligations.FusesOnlyBlow
  exact fun _ _ h => (step_keeps h).otp

/-- Settles O47: a step reads the front of the queue. -/
theorem stepRunsFront : Obligations.StepRunsFront := by
  unfold Obligations.StepRunsFront
  intro c rest s hfront
  simp only [step, hfront]

/-! ### The checks of a packet -/

section
variable {sp : CmdSpec} {p : Packet} {s u : State} {body : State → CmdRes}

/-- A packet on a port that answers and waits for no reply is judged (R581). -/
theorem runPacket_judged {v : Verdict} (hanswers : (s.atTime p.time).answers p.port = true)
    (hstart : (s.arrived p).canStart p.port = true) (hv : (s.arrived p).check sp p = v) :
    runPacket sp p body s = .next (((s.arrived p).acceptNonce p sp.opcode).settle v sp p body) := by
  unfold State.arrived at *
  simp only [runPacket, State.process, hanswers, hstart, hv, Bool.not_true, Bool.false_eq_true, if_false, if_true]

theorem State.check_unframed (hframed : p.framed = false) : u.check sp p = .refuse stBAD_LENGTH := by
  simp only [State.check, hframed, Bool.not_false, if_true]

theorem State.check_unknown (hframed : p.framed = true) (hauth : u.authOk p sp.opcode = false) :
    u.check sp p = .authFail true := by
  simp only [State.check, hframed, hauth, Bool.not_true, Bool.not_false, Bool.false_eq_true, if_false, if_true]

theorem State.check_nonce {v : Verdict} (hframed : p.framed = true) (hauth : u.authOk p sp.opcode = true)
    (hnonce : u.nonceCheck p sp.opcode = some v) : u.check sp p = v := by
  simp only [State.check, hframed, hauth, hnonce, Bool.not_true, Bool.false_eq_true, if_false]

theorem State.check_late (hframed : p.framed = true) (hauth : u.authOk p sp.opcode = true)
    (hnonce : u.nonceCheck p sp.opcode = none) : u.check sp p = u.lateChecks sp p := by
  simp only [State.check, hframed, hauth, hnonce, Bool.not_true, Bool.false_eq_true, if_false]

theorem State.lateChecks_busy (hbusy : u.cmd.longOp.isSome = true ∨ u.cmd.peerBusy.isSome = true) :
    u.lateChecks sp p = .busy :=
  if_pos (by simpa using hbusy)

theorem State.route_here (hhere : u.runsHere sp p = true) : u.route sp p = .here := by
  simp only [State.runsHere, Bool.or_eq_true, Bool.and_eq_true, beq_iff_eq, Bool.not_eq_true'] at hhere
  unfold State.route
  rcases hhere with htarget | ⟨⟨htarget, hholds⟩, hown⟩
  · simp [htarget]
  · simp [htarget, hholds, hown]

/-- A target past 2, and any but 0 of a command that takes target 0 alone, is none (R441). -/
theorem State.route_wrong (hwrong : 3 ≤ effTarget sp p ∨ (sp.ownOnly = true ∧ effTarget sp p ≠ 0)) :
    u.route sp p = .refuse stBAD_PARAM := by
  have hfar : 3 ≤ if sp.ownOnly && effTarget sp p != 0 then 3 else effTarget sp p := by
    split
    next => exact Nat.le_refl 3
    next h => exact hwrong.resolve_right fun ⟨hown, htarget⟩ => h (by simp [hown, htarget])
  obtain ⟨n, hn⟩ := Nat.exists_eq_add_of_le' hfar
  rw [State.route, hn]
  rfl

/-- Without the link, a target that is not here is nowhere. -/
theorem State.route_unlinked (hown : sp.ownOnly = false) (hlink : u.linkUp = false)
    (haway : effTarget sp p = 1 ∨ (effTarget sp p = 2 ∧ u.holds = false)) : u.route sp p = .refuse stPEER_UNAVAILABLE := by
  unfold State.route
  rcases haway with htarget | ⟨htarget, hholds⟩
  · simp [hown, htarget, hlink]
  · simp [hown, htarget, hlink, hholds]

section
variable (hlong : u.cmd.longOp = none) (hpeer : u.cmd.peerBusy = none)
include hlong hpeer

theorem State.lateChecks_reserved (hflags : bitsN p.flags 7 3 ≠ 0) : u.lateChecks sp p = .refuse stBAD_PARAM :=
  (if_neg (by simp [hlong, hpeer])).trans (if_pos hflags)

variable (hflags : bitsN p.flags 7 3 = 0)
include hflags

theorem State.lateChecks_refused {st : Nat} (hroute : u.route sp p = .refuse st) : u.lateChecks sp p = .refuse st := by
  simp [State.lateChecks, hlong, hpeer, hflags, hroute]

/-- A packet that is sent here or to the peer needs its command's role (R585). -/
theorem State.lateChecks_role (hroute : ∀ st, u.route sp p ≠ .refuse st) (hrole : sp.role < u.effRole p) :
    u.lateChecks sp p = .authFail false := by
  cases h : u.route sp p with
  | refuse st => exact absurd h (hroute st)
  | here => simp [State.lateChecks, hlong, hpeer, hflags, h, hrole]
  | peer => simp [State.lateChecks, hlong, hpeer, hflags, h, hrole]

/-- The checks that are left of a packet whose command runs here. -/
theorem State.lateChecks_here (hhere : u.runsHere sp p = true) (hrole : u.effRole p ≤ sp.role) :
    u.lateChecks sp p =
      if p.params.length < sp.lo ∨ sp.hi < p.params.length then .refuse stBAD_LENGTH
      else if u.modeOk sp then .run else .refuse stNOT_IN_MODE := by
  simp [State.lateChecks, hlong, hpeer, hflags, State.route_here hhere, Nat.not_lt.2 hrole]

end

section
variable {opcode : Nat} (hauth : p.auth = true) (hop : opcode ≠ 0x0032) (hport : p.port ≠ portPeer)
  (hold : p.nonce ≤ Tab.at u.cmd.nonces 0 p.role)
include hauth hop hport hold

/-- A packet sent again repeats the last accepted one (R584). -/
theorem State.nonceCheck_replay {x : LastAcc} (hlast : Tab.look u.cmd.last (lastIdx p.port p.role) = some x)
    (hsame : x.nonce = p.nonce ∧ x.opcode = opcode ∧ x.seq = p.seq) : u.nonceCheck p opcode = some (.replay x.reply) := by
  simp only [State.nonceCheck, hlast, hsame, and_self, if_true]
  exact (if_neg (by simp [hauth, hop, hport])).trans (if_neg (Nat.not_lt.2 hold))

theorem State.nonceCheck_stale (hother : ∀ x, Tab.look u.cmd.last (lastIdx p.port p.role) = some x →
    ¬ (x.nonce = p.nonce ∧ x.opcode = opcode ∧ x.seq = p.seq)) : u.nonceCheck p opcode = some (.refuse stSTALE) := by
  refine (if_neg (by simp [hauth, hop, hport])).trans ((if_neg (Nat.not_lt.2 hold)).trans ?_)
  cases h : Tab.look u.cmd.last (lastIdx p.port p.role) with
  | none => rfl
  | some x => exact if_neg (hother x h)

end

end

/-- Settles O60: under each clause's conditions the check it names is the first that fails, and its verdict is settled. -/
theorem checksAnswerInOrder : Obligations.ChecksAnswerInOrder := by
  unfold Obligations.ChecksAnswerInOrder
  intro i sp p body hexec s u v gives framed known counted last fresh named mine sized
  have settled {w : Verdict} (h : framed) (hw : u.check sp p = w) : exec i s = .next (v.settle w sp p body) := by
    obtain ⟨hanswers, hstart, -⟩ := h
    exact (hexec s).trans (runPacket_judged hanswers hstart hw)
  have refused {st : Nat} (h : fresh) (hst : u.lateChecks sp p = .refuse st) (hstale : st ≠ stSTALE) : gives st := by
    obtain ⟨⟨hframed, hauth⟩, hnonce, -⟩ := h
    have := settled hframed ((State.check_late hframed.2.2 hauth hnonce).trans hst)
    simpa only [State.settle, if_neg hstale] using this
  have routed {st : Nat} (h : named) (hst : u.route sp p = .refuse st) (hstale : st ≠ stSTALE) : gives st := by
    obtain ⟨hfresh, hflags⟩ := h
    obtain ⟨-, -, hlong, hpeer⟩ := id hfresh
    exact refused hfresh (State.lateChecks_refused hlong hpeer hflags hst) hstale
  have here (h : mine) : u.lateChecks sp p =
      if p.params.length < sp.lo ∨ sp.hi < p.params.length then .refuse stBAD_LENGTH
      else if u.modeOk sp then .run else .refuse stNOT_IN_MODE := by
    obtain ⟨⟨⟨-, -, hlong, hpeer⟩, hflags⟩, hhere, hrole⟩ := h
    exact State.lateChecks_here hlong hpeer hflags hhere hrole
  refine ⟨fun hanswers hstart hframed => ?framing, fun hframed hauth hmuted => ?tag, fun x hcounted hlast hsame => ?replay,
    fun hcounted hother => ?stale, fun hfresh hflags => ?reserved,
    fun hnamed htarget => routed hnamed (State.route_wrong htarget) (by decide),
    fun hnamed hown hlink haway => routed hnamed (State.route_unlinked hown hlink haway) (by decide),
    fun hmine hlen => refused hmine.1.1 ((here hmine).trans (if_pos hlen)) (by decide), fun hsized hmode => ?mode⟩
  case framing =>
    exact (hexec s).trans (runPacket_judged hanswers hstart (State.check_unframed hframed))
  case tag =>
    refine (settled hframed (State.check_unknown hframed.2.2 hauth)).trans ?_
    simp only [State.settle, State.refuseAuth, hmuted]
    rfl
  case replay =>
    obtain ⟨⟨hframed, hauth⟩, hkeyed, hop, hport, hold⟩ := hcounted
    refine (settled hframed (State.check_nonce hframed.2.2 hauth
      (State.nonceCheck_replay hkeyed hop hport hold hlast hsame))).trans ?_
    cases x.reply <;> rfl
  case stale =>
    obtain ⟨⟨hframed, hauth⟩, hkeyed, hop, hport, hold⟩ := hcounted
    exact settled hframed (State.check_nonce hframed.2.2 hauth (State.nonceCheck_stale hkeyed hop hport hold hother))
  case reserved =>
    obtain ⟨hknown, hnonce, hlong, hpeer⟩ := hfresh
    exact refused ⟨hknown, hnonce, hlong, hpeer⟩ (State.lateChecks_reserved hlong hpeer hflags) (by decide)
  case mode =>
    obtain ⟨hmine, hlow, hhigh⟩ := hsized
    have hlen : ¬ (p.params.length < sp.lo ∨ sp.hi < p.params.length) := by omega
    exact refused hmine.1.1 ((here hmine).trans ((if_neg hlen).trans (if_neg (by simp [hmode])))) (by decide)

/-- Accepting a nonce leaves the long operation and the peer's as they are. -/
theorem State.acceptNonce_busy (s : State) (p : Packet) (opcode : Nat) :
    (s.acceptNonce p opcode).cmd.longOp = s.cmd.longOp ∧ (s.acceptNonce p opcode).cmd.peerBusy = s.cmd.peerBusy := by
  unfold State.acceptNonce
  split <;> exact ⟨rfl, rfl⟩

/-- Settles O55: a packet that comes to its late checks meets the long operation there; the reply names this unit's own before
the peer's. -/
theorem busyNamesTheOperation : Obligations.BusyNamesTheOperation := by
  unfold Obligations.BusyNamesTheOperation
  intro i sp p body hexec s u v hanswers hstart hframed hauth hnonce
  obtain ⟨hlongOp, hpeerBusy⟩ := u.acceptNonce_busy p sp.opcode
  have busy (h : u.cmd.longOp.isSome = true ∨ u.cmd.peerBusy.isSome = true) :
      exec i s = .next ((u.acceptNonce p sp.opcode).busyReply p sp.opcode) :=
    (hexec s).trans (runPacket_judged hanswers hstart
      ((State.check_late hframed hauth hnonce).trans (State.lateChecks_busy h)))
  refine ⟨fun o hlong => ?own, fun op progress port hlong hpeer => ?peer⟩
  case own =>
    refine (busy (by simp [hlong])).trans ?_
    simp only [State.busyReply, State.bump_cmd, hlongOp, hlong]
    rfl
  case peer =>
    refine (busy (by simp [hpeer])).trans ?_
    simp only [State.busyReply, State.bump_cmd, hlongOp, hlong, hpeerBusy, hpeer]
    rfl

/-- A role may issue the commands of its own and of lesser roles: 0 is ADMIN, 1 OPERATOR and 2 MONITOR (R585). -/
theorem mayIssue_iff {role least : Nat} (hrole : role < 3) (hleast : least < 3) :
    (least = 2 ∨ (least = 1 ∧ role < 2) ∨ (least = 0 ∧ role = 0)) ↔ role ≤ least := by
  omega

/-- Settles O54: the role is judged after the target, and a packet that passes the other checks too has its command run. -/
theorem rolesDecide : Obligations.RolesDecide := by
  unfold Obligations.RolesDecide
  intro i sp p body hexec
  refine ⟨?_, fun s hport => ⟨if_pos hport, if_pos hport⟩⟩
  intro s u v may hleast hknown hanswers hstart hframed hauth hnonce hlong hpeer hflags hroute
  have hmay : may ↔ u.effRole p ≤ sp.role := mayIssue_iff hknown hleast
  have settled {w : Verdict} (hw : u.lateChecks sp p = w) : exec i s = .next (v.settle w sp p body) :=
    (hexec s).trans (runPacket_judged hanswers hstart ((State.check_late hframed hauth hnonce).trans hw))
  refine ⟨fun hnot hmuted => ?refused, fun hallowed hhere hlow hhigh hmode => ?runs⟩
  case refused =>
    have hrole : sp.role < u.effRole p := Nat.lt_of_not_le (mt hmay.2 hnot)
    refine (settled (State.lateChecks_role hlong hpeer hflags hroute hrole)).trans ?_
    simp only [State.settle, State.refuseAuth, hmuted]
    rfl
  case runs =>
    have hlen : ¬ (p.params.length < sp.lo ∨ sp.hi < p.params.length) := by omega
    exact settled ((State.lateChecks_here hlong hpeer hflags hhere (hmay.1 hallowed)).trans
      ((if_neg hlen).trans (if_pos hmode)))

end Sys2Proof.Machine

/-!
The general commands (R34, R583, R584, R593, R606, R618, R621, R623), modes, resets and the render format (R29, R33, R599 to R604),
and bulk transfers (R591).
-/

namespace Sys2Proof.Machine

/-! ### General commands -/

theorem calmClasses_eq : calmClasses = List.range 7 := by decide

theorem resetClasses_eq : resetClasses = List.range 10 := by decide

/-- A unit of a class that only calm modes allow is reset in one of them (R606). -/
theorem cmdUnitReset_of_ok {p : Packet} {u : State} (hclass : u8 p.params 0 ≤ 9)
    (hmode : u8 p.params 0 ≤ 6 → u.mode = mIDLE ∨ u.mode = mSERVICE ∨ u.mode = mFAULT)
    (heng : u8 p.params 1 ∈ classEngines (u8 p.params 0)) (hthere : enginePresent u.otp.grade (u8 p.params 1) = true)
    (hzero : zeroAt p.params 2 2 = true) : cmdUnitReset p u = .ok (u.unitReset (u8 p.params 1)) [] := by
  have hcalm : ¬ (calmClasses.contains (u8 p.params 0) = true ∧ (!([mIDLE, mSERVICE, mFAULT].contains u.mode)) = true) := by
    rintro ⟨hin, hout⟩
    rw [calmClasses_eq, List.contains_iff_mem, List.mem_range] at hin
    simp [hmode (Nat.le_of_lt_succ hin)] at hout
  have hknown : resetClasses.contains (u8 p.params 0) = true := by
    rw [resetClasses_eq, List.contains_iff_mem, List.mem_range]
    exact Nat.lt_succ_of_le hclass
  refine (if_neg hcalm).trans (if_neg ?_)
  rw [hknown, List.contains_iff_mem.2 heng, hthere, hzero]
  decide

/-- Settles O1: under each clause's conditions the checks of its body pass, and what is left of the body is its effect and its
result. -/
theorem generalCommandsComplete : Obligations.GeneralCommandsComplete := by
  unfold Obligations.GeneralCommandsComplete
  refine
    ⟨.of_body cmdEcho (fun _ _ => rfl) fun _ _ _ => rfl,
    .of_body cmdSysInfo (fun _ _ => rfl) fun _ _ _ => rfl,
    .of_body cmdBudgetQuery (fun _ _ => rfl) fun _ _ _ => rfl,
    .of_body cmdEventRead (fun _ _ => rfl) fun p u ⟨hop, hsome, hmost, hzero⟩ => ?oldest,
    .of_body cmdEventRead (fun _ _ => rfl) fun p u ⟨hop, hsome, hmost, hzero⟩ => ?newest,
    .of_body cmdCmdCfgSet (fun _ _ => rfl) fun p u ⟨hrsv, hfree⟩ => if_neg (by simp [hrsv, hfree]),
    .of_body cmdAuthKey (fun _ _ => rfl) fun p u ⟨hrole, hop, hzero⟩ => ?keySet,
    .of_body cmdAuthKey (fun _ _ => rfl) fun p u ⟨hrole, hop, hzero⟩ => ?keyClear,
    .of_body cmdNonceQuery (fun _ _ => rfl) fun _ _ _ => rfl,
    .of_body cmdGpioCfg (fun _ _ => rfl) fun p u ⟨hdir, hod, hedge, hdeb⟩ => if_neg (by simp [hdir, hod, hedge, hdeb]),
    .of_body cmdGpioWrite (fun _ _ => rfl) fun p u ⟨hmask, hval⟩ => if_neg (by simp [hmask, hval]),
    .of_body cmdGpioQuery (fun _ _ => rfl) fun _ _ _ => rfl,
    .of_body cmdSafeMask (fun _ _ => rfl) fun p u hrsv => if_pos hrsv,
    .of_body cmdUnitReset (fun _ _ => rfl) fun p u ⟨hclass, hmode, heng, hthere, hzero⟩ =>
      cmdUnitReset_of_ok hclass hmode heng hthere hzero,
    .of_body cmdSecQuery (fun _ _ => rfl) fun _ _ _ => rfl⟩
  case oldest => exact (if_neg (by simp [hop, hzero, hmost, Nat.one_le_iff_ne_zero.1 hsome])).trans (if_pos hop)
  case newest => exact (if_neg (by simp [hop, hzero, hmost, Nat.one_le_iff_ne_zero.1 hsome])).trans (if_neg (by simp [hop]))
  case keySet => exact (if_neg (by simp [hop, hrole, hzero])).trans (if_neg (by simp [hop]))
  case keyClear => exact (if_neg (by simp [hop, hrole, hzero])).trans (if_pos hop)

/-! ### Modes, resets, the render format and bulk transfers -/

/-- What `MODE_SET` answers to a transition of R599. -/
def ModeAct.answer (p : Packet) (u : State) : ModeAct → CmdRes
  | .now m => .ok (u.setMode m) []
  | .atTick m => .ok (u.beginTransit m) []
  | .halt => .done (u.replyFirst specModeSet p).enterHalt
  | .refuse => .fail u stNOT_IN_MODE []

/-- Outside SAFE, `MODE_SET` of another mode but SAFE does what R599 gives the transition. -/
theorem cmdModeSet_acts {p : Packet} {u : State} {m : Nat} (hm : u8 p.params 0 = m) (hzero : zeroAt p.params 1 3 = true)
    (hle : m ≤ 11) (hother : m ≠ u.mode) (hsafe : u.mode ≠ mSAFE) (hgoal : m ≠ mSAFE) :
    cmdModeSet p u = (modeAct u.mode m).answer p u := by
  subst hm
  refine (if_neg (by simp [hzero, hle])).trans ((if_neg hother).trans ((if_neg hsafe).trans ((if_neg hgoal).trans ?_)))
  cases modeAct u.mode (u8 p.params 0) <;> rfl

theorem modeAct_refuse {cur m : Nat} (hidle : cur = mIDLE → m ∉ [mHALT, mRENDER, mMEASURE, mSERVICE])
    (hplays : cur ∈ [mRENDER, mMEASURE] → m ≠ mIDLE) (hserv : cur = mSERVICE → m ∉ [mHALT, mIDLE])
    (hfault : cur = mFAULT → m ≠ mHALT) : modeAct cur m = .refuse := by
  simp only [List.mem_cons, List.not_mem_nil, or_false, not_or] at hidle hplays hserv
  by_cases hhalt : m = mHALT
  · refine (if_pos hhalt).trans (if_neg fun hfrom => ?_)
    rcases List.mem_cons.1 (List.contains_iff_mem.1 hfrom) with hcur | hfrom
    · exact (hidle hcur).1 hhalt
    · rcases List.mem_cons.1 hfrom with hcur | hcur
      · exact (hserv hcur).1 hhalt
      · exact hfault (List.mem_singleton.1 hcur) hhalt
  · refine (if_neg hhalt).trans ?_
    by_cases hcur : cur = mIDLE
    · obtain ⟨_, hrender, hmeasure, hservice⟩ := hidle hcur
      exact (if_pos hcur).trans ((if_neg (not_or.2 ⟨hrender, hmeasure⟩)).trans (if_neg hservice))
    · refine (if_neg hcur).trans ?_
      by_cases hm : m = mIDLE
      · exact (if_pos hm).trans ((if_neg fun h => hplays h hm).trans (if_neg fun h => (hserv h).2 hm))
      · exact if_neg hm

/-- Settles O2: outside SAFE the transition goes by R599's table, and SAFE has its own branches. -/
theorem modeSetTransitions : Obligations.ModeSetTransitions := by
  unfold Obligations.ModeSetTransitions
  intro sp names
  have acts {p : Packet} {u : State} {m cur : Nat} (hnames : names p m) (hcur : u.mode = cur) (hle : m ≤ 11)
      (hother : m ≠ cur) (hsafe : cur ≠ mSAFE) (hgoal : m ≠ mSAFE) : cmdModeSet p u = (modeAct cur m).answer p u := by
    obtain ⟨hm, hzero⟩ := hnames
    subst hcur
    exact cmdModeSet_acts hm hzero hle hother hsafe hgoal
  refine
    ⟨.of_done cmdModeSet (fun _ _ => rfl) fun p u ⟨⟨hm, hzero⟩, hle⟩ => ?same,
    .of_body cmdModeSet (fun _ _ => rfl) fun p u h => ?service,
    .of_body cmdModeSet (fun _ _ => rfl) fun p u h => ?plays,
    .of_done cmdModeSet (fun _ _ => rfl) fun p u ⟨hnames, hmode⟩ => ?halt,
    .of_done cmdModeSet (fun _ _ => rfl) fun p u ⟨⟨hm, hzero⟩, hmode⟩ => ?toSafe,
    .of_done cmdModeSet (fun _ _ => rfl) fun p u ⟨⟨hm, hzero⟩, hmode, hmay⟩ => ?leaveSafe,
    .of_fail cmdModeSet (fun _ _ => rfl) fun p u
      ⟨m, hnames, hle, hother, hgoal, hsafe, hidle, hplays, hserv, hfault⟩ => ?refused⟩
  case same => exact (if_neg (by simp [hm, hle, hzero])).trans (if_pos hm)
  case service =>
    rcases h with ⟨hnames, hmode⟩ | ⟨hnames, hmode⟩
    all_goals
      refine (acts hnames hmode (by decide) (by decide) (by decide) (by decide)).trans ?_
      rw [hnames.1]
      rfl
  case plays =>
    rcases h with ⟨hnames | hnames, hmode⟩ | ⟨hnames, hmode | hmode⟩
    all_goals
      refine (acts hnames hmode (by decide) (by decide) (by decide) (by decide)).trans ?_
      rw [hnames.1]
      rfl
  case halt =>
    rcases hmode with hmode | hmode | hmode
    all_goals exact acts hnames hmode (by decide) (by decide) (by decide) (by decide)
  case toSafe =>
    have hle : ¬ (11 < mSAFE ∨ (!zeroAt p.params 1 3) = true) := by simp [hzero, mSAFE]
    simp only [cmdModeSet, hm, hle, Ne.symm hmode, hmode, if_false, if_true]
    rfl
  case leaveSafe =>
    have hle : ¬ (11 < mIDLE ∨ (!zeroAt p.params 1 3) = true) := by simp [hzero, mIDLE]
    simp only [cmdModeSet, hm, hle, hmode, hmay, and_self, if_false, if_true]
    exact if_neg (by decide)
  case refused =>
    by_cases hmode : u.mode = mSAFE
    · obtain ⟨hm, hzero⟩ := hnames
      have hle : ¬ (11 < m ∨ (!zeroAt p.params 1 3) = true) := by simp [hzero, hle]
      simp only [cmdModeSet, hm, hle, hgoal, hmode, hsafe hmode, false_and, if_false, if_true]
    · exact (acts hnames rfl hle hother hmode hgoal).trans (by rw [modeAct_refuse hidle hplays hserv hfault]; rfl)

/-- A render format that fits goes by whether the loaded sets must be transformed anew (R33). -/
theorem cmdRenderFormatSet_of_fits {p : Packet} {u : State} (hrate : u8 p.params 0 ≤ 3) (hfolio : u8 p.params 1 ≤ 2)
    (hzero : zeroAt p.params 2 2 = true) (hbudget : u.overBudget (u8 p.params 0) = none)
    (hport : u.formatPort (u8 p.params 0) = none) (hstream : u.formatStream (u8 p.params 0) = none)
    (hfx : u.fxTooFast (folioOf (u8 p.params 1)) (rateHz (u8 p.params 0)) = none) :
    cmdRenderFormatSet p u =
      if u.firLoaded && folioOf (u8 p.params 1) != u.folioLen then .long u [u8 p.params 0, u8 p.params 1]
      else .ok (u.applyFormat (u8 p.params 0) (u8 p.params 1)) [] := by
  -- the kernel compares the four options with `none` as they stand, so that they are made variables first
  unfold cmdRenderFormatSet
  dsimp only
  generalize u.overBudget (u8 p.params 0) = budget at hbudget ⊢
  generalize u.formatPort (u8 p.params 0) = port at hport ⊢
  generalize u.formatStream (u8 p.params 0) = stream at hstream ⊢
  generalize u.fxTooFast (folioOf (u8 p.params 1)) (rateHz (u8 p.params 0)) = fx at hfx ⊢
  subst hbudget hport hstream hfx
  exact if_neg (by simp [hrate, hfolio, hzero])

/-- Settles O3: `SYS_RESET` resets after its reply, and a format that fits is either long or done at once. -/
theorem resetAndFormatComplete : Obligations.ResetAndFormatComplete := by
  unfold Obligations.ResetAndFormatComplete
  refine
    ⟨.of_done cmdSysReset (fun _ _ => rfl) fun p u ⟨hkind, hzero⟩ => ?warm,
    .of_done cmdSysReset (fun _ _ => rfl) fun p u ⟨hkind, hzero⟩ => ?ctrl,
    .of_body cmdRenderFormatSet (fun _ _ => rfl)
      fun p u ⟨⟨hrate, hfolio, hzero, hbudget, hport, hstream, hfx⟩, hnow⟩ => ?now,
    .of_body cmdRenderFormatSet (fun _ _ => rfl)
      fun p u ⟨⟨hrate, hfolio, hzero, hbudget, hport, hstream, hfx⟩, hloaded, hanew⟩ => ?long⟩
  case warm => simp [cmdSysReset, hkind, hzero]
  case ctrl => simp [cmdSysReset, hkind, hzero]
  case now =>
    refine (cmdRenderFormatSet_of_fits hrate hfolio hzero hbudget hport hstream hfx).trans (if_neg ?_)
    rcases hnow with h | h <;> simp [h]
  case long =>
    refine (cmdRenderFormatSet_of_fits hrate hfolio hzero hbudget hport hstream hfx).trans (if_pos ?_)
    simp [hloaded, hanew]

/-- A bulk transfer that names DRAM it may touch is done at once, or is long where it is a CRC of more than 16 MiB (R591). -/
theorem cmdBulkCrc_of_free {p : Packet} {u : State} (hsome : 1 ≤ u32 p.params 8) (hzero : zeroAt p.params 12 4 = true)
    (hfree : u.dramFree (u64 p.params 0) (u32 p.params 8) = true) :
    cmdBulkCrc p u =
      if 16 * 2 ^ 20 < u32 p.params 8 then .long u [u64 p.params 0, u32 p.params 8]
      else if (u.bulkCrc (u64 p.params 0) (u32 p.params 8)).1 = stOK then
        .ok u (u.bulkCrc (u64 p.params 0) (u32 p.params 8)).2
      else .fail u (u.bulkCrc (u64 p.params 0) (u32 p.params 8)).1 (u.bulkCrc (u64 p.params 0) (u32 p.params 8)).2 :=
  if_neg (by simp [Nat.one_le_iff_ne_zero.1 hsome, hzero, hfree])

/-- Settles O4: each transfer passes its checks; what is left goes by poison and, for a CRC, by its length. -/
theorem bulkTransfersComplete : Obligations.BulkTransfersComplete := by
  unfold Obligations.BulkTransfersComplete
  refine
    ⟨.of_body cmdBulkWrite (fun _ _ => rfl) fun p u hfree => if_neg ?write,
    .of_body cmdBulkRead (fun _ _ => rfl) fun p u ⟨hsome, hmost, hzero, hfree, hclean⟩ => ?read,
    .of_body cmdBulkCrc (fun _ _ => rfl) fun p u ⟨⟨hsome, hzero, hfree⟩, hmost, hclean⟩ => ?crc,
    .of_body cmdBulkCrc (fun _ _ => rfl) fun p u ⟨⟨hsome, hzero, hfree⟩, hlong⟩ =>
      (cmdBulkCrc_of_free hsome hzero hfree).trans (if_pos hlong)⟩
  case write => simp [List.length_drop, hfree]
  case read =>
    refine (if_neg (by simp [Nat.one_le_iff_ne_zero.1 hsome, hmost, hzero, hfree])).trans ?_
    simp only [hclean, noEffect]
  case crc =>
    refine (cmdBulkCrc_of_free hsome hzero hfree).trans ((if_neg (Nat.not_lt.2 hmost)).trans ?_)
    simp only [State.bulkCrc, hclean, noEffect, if_true]

end Sys2Proof.Machine

/-!
The fuse commands (R618) and the power commands (R635, R643).
-/

namespace Sys2Proof.Machine

/-! ### Fuses -/

/-- An op of R618 that is acceptable blows its fuses, and leaves alone what is blown already. -/
theorem cmdFuse_of_op {p : Packet} {u : State} {o : Otp} {op len : Nat}
    (hnamed : p.params.length = len ∧ u8 p.params 0 = op ∧ u8 p.params 1 ≤ 3 ∧ zeroAt p.params 2 2 = true ∧
      u32 p.params 4 = 0x46555345)
    (hlen : len = if op = 5 then 56 else 8)
    (ho : u.fuseOp op (u8 p.params 1) (slice p.params 8 48) = some o) :
    cmdFuse p u = .ok (if o = u.otp then u else u.fuseBlown o) [] := by
  obtain ⟨hbytes, rfl, hidx, hzero, hconfirm⟩ := hnamed
  refine (if_neg (not_not_intro (hbytes.trans hlen))).trans ((if_neg (by simp [hidx, hzero, hconfirm])).trans ?_)
  simp only [ho]

/-- Some other key that is programmed stays unrevoked. -/
theorem Otp.keyLeft_of_exists {o : Otp} {i : Nat}
    (h : ∃ j, j ≤ 3 ∧ j ≠ i ∧ (Tab.look o.keyHash j).isSome = true ∧ o.revoke.testBit j = false) : o.keyLeft i = true := by
  obtain ⟨j, hle, hother, hthere, hkept⟩ := h
  exact List.any_eq_true.2 ⟨j, List.mem_range.2 (Nat.lt_succ_of_le hle), by simp [hother, hthere, hkept]⟩

/-- Settles O5: each op of the confirmed command is acceptable under its clause's conditions. -/
theorem fusesBlow : Obligations.FusesBlow := by
  unfold Obligations.FusesBlow
  refine
    ⟨.of_body cmdFuse (fun _ _ => rfl) fun p u hnamed => cmdFuse_of_op hnamed rfl rfl,
    .of_body cmdFuse (fun _ _ => rfl) fun p u hnamed => cmdFuse_of_op hnamed rfl rfl,
    .of_body cmdFuse (fun _ _ => rfl) fun p u hnamed => cmdFuse_of_op hnamed rfl rfl,
    .of_body cmdFuse (fun _ _ => rfl) fun p u hnamed => cmdFuse_of_op hnamed rfl rfl,
    .of_body cmdFuse (fun _ _ => rfl) fun p u ⟨hnamed, hunrevoked, hother, hleft⟩ => cmdFuse_of_op hnamed rfl ?revoke,
    .of_body cmdFuse (fun _ _ => rfl) fun p u ⟨hnamed, hnone⟩ => cmdFuse_of_op hnamed rfl ?keyHash⟩
  case revoke =>
    exact (if_neg (by simp [hunrevoked])).trans (if_neg (by simp [hother, Otp.keyLeft_of_exists hleft]))
  case keyHash => exact if_neg (by simp [hnone])

/-! ### Power domains -/

/-- What `PWR_DOM_SET` asks of its packet, whichever its op (R643). -/
def PwrDomNamed (op : Nat) (p : Packet) (u : State) : Prop :=
  u8 p.params 1 = op ∧ zeroAt p.params 2 2 = true ∧ 2 ≤ u8 p.params 0 ∧ u.timed (u8 p.params 0) = true ∧
    (op = 2 → u8 p.params 0 ≠ dCTRL ∧ u8 p.params 0 ≠ dDRAM) ∧ (1 ≤ op → u.planeHolds (u8 p.params 0) = false)

section
variable {op : Nat} {p : Packet} {u : State} (hnamed : PwrDomNamed op p u)
include hnamed

theorem PwrDomNamed.op_eq : u8 p.params 1 = op := by
  obtain ⟨hop, -⟩ := hnamed
  exact hop

theorem PwrDomNamed.paramsOk (hle : op ≤ 3) :
    ¬ (3 < u8 p.params 1 ∨ !zeroAt p.params 2 2 ∨ u8 p.params 0 < 2 ∨ !u.timed (u8 p.params 0) ∨
      (u8 p.params 1 = 2 ∧ (u8 p.params 0 = dCTRL ∨ u8 p.params 0 = dDRAM))) := by
  obtain ⟨rfl, hzero, hdom, htimed, hswitched, -⟩ := hnamed
  rintro (h | h | h | h | ⟨h, hdom⟩)
  · exact Nat.not_lt.2 hle h
  · simp [hzero] at h
  · exact Nat.not_lt.2 hdom h
  · simp [htimed] at h
  · exact hdom.elim (hswitched h).1 (hswitched h).2

theorem PwrDomNamed.planeOk : ¬ (1 ≤ u8 p.params 1 ∧ u.planeHolds (u8 p.params 0) = true) := by
  obtain ⟨rfl, -, -, -, -, hplane⟩ := hnamed
  rintro ⟨h, hheld⟩
  simp [hplane h] at hheld

end

section
variable {p : Packet} {u : State}

theorem cmdPwrDomSet_on (hnamed : PwrDomNamed 0 p u) : cmdPwrDomSet p u = .ok (u.wake (u8 p.params 0) true) [] :=
  (if_neg (hnamed.paramsOk (by decide))).trans ((if_neg hnamed.planeOk).trans (if_pos hnamed.op_eq))

theorem cmdPwrDomSet_reset (hnamed : PwrDomNamed 3 p u) :
    cmdPwrDomSet p u =
      if u8 p.params 0 = dCTRL then .done ((u.reply p 0x0101 stOK []).ctrlReset)
      else .ok (u.resetDomain (u8 p.params 0)) [] :=
  (if_neg (hnamed.paramsOk (by decide))).trans ((if_neg hnamed.planeOk).trans
    ((if_neg (by simp [hnamed.op_eq])).trans (if_pos hnamed.op_eq)))

/-- The way of a domain to its goal, RET or OFF: it may be there, or go from RET, or go where it is idle, or drain. -/
theorem cmdPwrDomSet_leaves {op goal : Nat} (hop : (op = 1 ∧ goal = pRET) ∨ (op = 2 ∧ goal = pOFF))
    (hnamed : PwrDomNamed op p u) :
    cmdPwrDomSet p u =
      if u.domState (u8 p.params 0) = goal ∨ u.domState (u8 p.params 0) = pOFF then .ok u []
      else if u.domState (u8 p.params 0) = pRET then .ok (u.enterOff (u8 p.params 0)) []
      else if u.idle (u8 p.params 0) && u8 p.params 0 != dCTRL then
        .ok (if goal = pRET then u.enterRet (u8 p.params 0) else u.enterOff (u8 p.params 0)) []
      else .hold { u.setDom (u8 p.params 0) pDRAIN with pwr.drain := some ⟨u8 p.params 0, goal, u.now⟩ } 2
        (u8 p.params 0) := by
  have hgoal : (if u8 p.params 1 = 1 then pRET else pOFF) = goal := by
    rw [hnamed.op_eq]
    rcases hop with ⟨rfl, rfl⟩ | ⟨rfl, rfl⟩ <;> rfl
  have hother : ¬ u8 p.params 1 = 0 ∧ ¬ u8 p.params 1 = 3 := by
    rw [hnamed.op_eq]
    omega
  obtain ⟨hon, hreset⟩ := hother
  subst hgoal
  exact (if_neg (hnamed.paramsOk (by omega))).trans ((if_neg hnamed.planeOk).trans ((if_neg hon).trans (if_neg hreset)))

end

/-- What `PWR_CFG_SET` asks of its packet (R643). -/
theorem cmdPwrCfgSet_of_ok {p : Packet} {u : State} (hzero : zeroAt p.params 1 3 = true) (hdom : u8 p.params 0 ≤ 18)
    (hthere : domainPresent u.otp.grade (u8 p.params 0) = true)
    (hcfg : rsvOk (Reg.PWR_DOM_CFG (u8 p.params 0)) (u32 p.params 4) = true)
    (hoff : rsvOk (Reg.PWR_DOM_OFFT (u8 p.params 0)) (u32 p.params 8) = true)
    (hglob : rsvOk Reg.PWR_CFG (u32 p.params 12) = true) (hret : bitsN (u32 p.params 4) 23 0 ≤ 10000000)
    (hofft : u32 p.params 8 ≤ 600000) (hdrain : bitsN (u32 p.params 12) 15 0 ≤ 10000) :
    cmdPwrCfgSet p u = .ok ((if u8 p.params 0 < 2 then u
      else (u.wr (Reg.PWR_DOM_CFG (u8 p.params 0))
        (if u8 p.params 0 = dCTRL ∨ u8 p.params 0 = dDRAM then setBitN (u32 p.params 4) 30 false else u32 p.params 4)).wr
        (Reg.PWR_DOM_OFFT (u8 p.params 0)) (u32 p.params 8)).wr Reg.PWR_CFG (u32 p.params 12)) [] := by
  refine if_neg ?_
  simp only [hzero, hthere, hcfg, hoff, hglob, Bool.not_true, Bool.false_eq_true, false_or, not_or, Nat.not_lt]
  exact ⟨hdom, hret, hofft, hdrain⟩

/-- Settles O8: each op of `PWR_DOM_SET` passes its checks and goes by the domain's state; the other commands pass theirs. -/
theorem powerCommandsComplete : Obligations.PowerCommandsComplete := by
  unfold Obligations.PowerCommandsComplete
  refine
    ⟨.of_body cmdPwrDomSet (fun _ _ => rfl) fun p u hnamed => cmdPwrDomSet_on hnamed,
    .of_body cmdPwrDomSet (fun _ _ => rfl) fun p u ⟨hnamed, hthere⟩ =>
      (cmdPwrDomSet_leaves (.inl ⟨rfl, rfl⟩) hnamed).trans (if_pos hthere),
    .of_body cmdPwrDomSet (fun _ _ => rfl) fun p u ⟨hnamed, hret, hoff, hidle, hctrl⟩ =>
      (cmdPwrDomSet_leaves (.inl ⟨rfl, rfl⟩) hnamed).trans ?ret,
    .of_hold cmdPwrDomSet (fun _ _ => rfl) fun p u ⟨hnamed, hret, hoff, hbusy⟩ =>
      (cmdPwrDomSet_leaves (.inl ⟨rfl, rfl⟩) hnamed).trans ?retDrains,
    .of_body cmdPwrDomSet (fun _ _ => rfl) fun p u ⟨hnamed, hoff⟩ =>
      (cmdPwrDomSet_leaves (.inr ⟨rfl, rfl⟩) hnamed).trans (if_pos (.inl hoff)),
    .of_body cmdPwrDomSet (fun _ _ => rfl) fun p u ⟨hnamed, hfrom⟩ => (cmdPwrDomSet_leaves (.inr ⟨rfl, rfl⟩) hnamed).trans ?off,
    .of_hold cmdPwrDomSet (fun _ _ => rfl) fun p u ⟨hnamed, hret, hoff, hbusy⟩ =>
      (cmdPwrDomSet_leaves (.inr ⟨rfl, rfl⟩) hnamed).trans ?offDrains,
    .of_body cmdPwrDomSet (fun _ _ => rfl) fun p u ⟨hnamed, hdom⟩ => (cmdPwrDomSet_reset hnamed).trans (if_neg hdom),
    .of_done cmdPwrDomSet (fun _ _ => rfl) fun p u ⟨hnamed, hdom⟩ => (cmdPwrDomSet_reset hnamed).trans (if_pos hdom),
    ⟨.of_body cmdPwrCfgSet (fun _ _ => rfl)
        fun p u ⟨⟨hzero, hdom, hthere, hcfg, hoff, hglob, hret, hofft, hdrain⟩, hfixed⟩ =>
          (cmdPwrCfgSet_of_ok hzero hdom hthere hcfg hoff hglob hret hofft hdrain).trans (by rw [if_pos hfixed]; rfl),
      .of_body cmdPwrCfgSet (fun _ _ => rfl)
        fun p u ⟨⟨hzero, hdom, hthere, hcfg, hoff, hglob, hret, hofft, hdrain⟩, hset⟩ =>
          (cmdPwrCfgSet_of_ok hzero hdom hthere hcfg hoff hglob hret hofft hdrain).trans
            (by rw [if_neg (Nat.not_lt.2 hset)]; rfl)⟩,
    .of_body cmdPwrQuery (fun _ _ => rfl) fun _ _ _ => rfl,
    .of_body cmdRtcSet (fun _ _ => rfl) fun p u ⟨hsec, hzero⟩ => if_neg (by simpa [hzero] using hsec)⟩
  case ret =>
    exact (if_neg (by simp [hret, hoff])).trans ((if_neg hret).trans ((if_pos (by simp [hidle, hctrl])).trans rfl))
  case retDrains =>
    have hdrains : ¬ (u.idle (u8 p.params 0) && u8 p.params 0 != dCTRL) = true := by
      rcases hbusy with h | h <;> simp [h]
    exact (if_neg (by simp [hret, hoff])).trans ((if_neg hret).trans (if_neg hdrains))
  case off =>
    have hon : ¬ (u.domState (u8 p.params 0) = pOFF ∨ u.domState (u8 p.params 0) = pOFF) := by
      rcases hfrom with h | ⟨h, -⟩
      · simp [h, pRET, pOFF]
      · simp [h]
    have hctrl : u8 p.params 0 ≠ dCTRL := by
      obtain ⟨-, -, -, -, hswitched, -⟩ := hnamed
      exact (hswitched rfl).1
    refine (if_neg hon).trans ?_
    by_cases hret : u.domState (u8 p.params 0) = pRET
    · exact if_pos hret
    · obtain ⟨-, hidle⟩ := hfrom.resolve_left hret
      exact (if_neg hret).trans ((if_pos (by simp [hidle, hctrl])).trans rfl)
  case offDrains =>
    exact (if_neg (by simp [hoff])).trans ((if_neg hret).trans (if_neg (by simp [hbusy])))

end Sys2Proof.Machine

/-!
The performance counters: their commands (R660), and their events (R650 to R656).
-/

namespace Sys2Proof.Machine

/-! ### Performance counters -/

theorem cmdPmcCfgSet_of_ok {p : Packet} {u : State} (hcfg : rsvOk Reg.PMC_CFG (u32 p.params 0) = true)
    (hbw : rsvOk Reg.PMC_BW_CFG (u32 p.params 4) = true) (hwin : bitsN (u32 p.params 4) 19 0 ≤ 1000000)
    (haddrs : ∀ k, k < 4 → u64 p.params (8 + 8 * k) < 2 ^ 40) :
    cmdPmcCfgSet p u = .ok ((List.range 4).foldl
      (fun u k => (u.wr (Reg.PMC_WIN (k / 2) (k % 2 * 2)) (u64 p.params (8 + 8 * k) % 2 ^ 32)).wr
        (Reg.PMC_WIN (k / 2) (k % 2 * 2 + 1)) (u64 p.params (8 + 8 * k) / 2 ^ 32))
      ((u.wr Reg.PMC_CFG (u32 p.params 0)).bwCfgWrite (u32 p.params 4))) [] := by
  have hall : ((List.range 4).map (fun k => u64 p.params (8 + 8 * k))).any (fun a => decide (2 ^ 40 ≤ a)) = false := by
    simpa [List.any_eq_false] using haddrs
  refine (if_neg ?_).trans rfl
  rw [hcfg, hbw, hall]
  simpa using hwin

/-- `PMC_SEL_SET` names 1 to 16 of the 208 indices, one after the other. -/
theorem cmdPmcSelSet_of_ok {p : Packet} {u : State} (hlen : p.params.length = 4 + 8 * u8 p.params 1)
    (hsome : 1 ≤ u8 p.params 1) (hmost : u8 p.params 1 ≤ 16) (hlast : u8 p.params 0 + u8 p.params 1 ≤ 208)
    (hzero : zeroAt p.params 2 2 = true) :
    cmdPmcSelSet p u = .ok ((List.range (u8 p.params 1)).foldl
      (fun u i => (u.pmcSelWrite (u8 p.params 0 + i) (u32 p.params (4 + 8 * i))).pmcMaskWrite (u8 p.params 0 + i)
        (u32 p.params (8 + 8 * i))) u) [] := by
  refine (if_neg (not_not_intro hlen)).trans (if_neg ?_)
  simp only [hzero, Bool.not_true, Bool.false_eq_true, or_false]
  omega

/-- A set match time arms the match (R653). -/
theorem cmdPmcCtlSet_of_ok {p : Packet} {u : State} (hctl : u32 p.params 0 ≤ 15) (hsec : u64 p.params 4 < 2 ^ 48)
    (hns : u32 p.params 12 < 1000000000) (hzero : zeroAt p.params 16 4 = true) :
    cmdPmcCtlSet p u =
      if u64 p.params 4 = 0 ∧ u32 p.params 12 = 0 then .ok (u.pmcCtl (u32 p.params 0)) []
      else .ok (((((u.pmcCtl (u32 p.params 0)).wr Reg.PMC_MATCH_NS (u32 p.params 12)).wr Reg.PMC_MATCH_SLO
        (u64 p.params 4)).wr Reg.PMC_MATCH_SHI (u64 p.params 4 / 2 ^ 32)).setFlag Reg.PMC_CFG Fl.PMC_CFG_MATCH_EN true) [] := by
  refine if_neg ?_
  simp only [hzero, Bool.not_true, Bool.false_eq_true, or_false, not_or, Nat.not_lt, Nat.not_le]
  exact ⟨hctl, hsec, hns⟩

/-- Settles O23: the checks of each body pass under its clause's conditions; the rows of the reads take the role that the
block is configured for. -/
theorem counterCommandsComplete : Obligations.CounterCommandsComplete := by
  unfold Obligations.CounterCommandsComplete
  refine
    ⟨.of_body cmdPmcCfgSet (fun _ _ => rfl) fun p u ⟨hcfg, hbw, hwin, haddrs⟩ => cmdPmcCfgSet_of_ok hcfg hbw hwin haddrs,
    .of_body cmdPmcSelSet (fun _ _ => rfl) fun p u ⟨hlen, hsome, hmost, hlast, hzero⟩ =>
      cmdPmcSelSet_of_ok hlen hsome hmost hlast hzero,
    ⟨.of_body cmdPmcCtlSet (fun _ _ => rfl) fun p u ⟨⟨hctl, hsec, hns, hzero⟩, hnow⟩ =>
        (cmdPmcCtlSet_of_ok hctl hsec hns hzero).trans (if_pos hnow),
      .of_body cmdPmcCtlSet (fun _ _ => rfl) fun p u ⟨⟨hctl, hsec, hns, hzero⟩, hset⟩ =>
        (cmdPmcCtlSet_of_ok hctl hsec hns hzero).trans (if_neg ?ctl)⟩,
    fun p s => ?read,
    fun p s => ?bandwidth⟩
  case ctl => exact fun ⟨h1, h2⟩ => hset.elim (· h1) (· h2)
  case read =>
    intro sp k n hadm hsome hlast hsrc hzero
    refine runPacket_ok (body := cmdPmcRead p) hadm (if_neg ?_)
    simp only [hzero, Bool.not_true, Bool.false_eq_true, or_false]
    omega
  case bandwidth =>
    intro sp u hadm
    exact runPacket_ok (body := cmdPmcBwRead p) hadm rfl

theorem pmcSnapPin_happens :
    Happens .pmcSnapPin (fun u => u.aonClocked = true ∧ u.flag Reg.PMC_CFG Fl.PMC_CFG_PIN_EN = true)
      (fun u => u.pmcTrigger 2) :=
  fun _ _ ⟨hclk, hen⟩ => if_pos (by simp [hclk, hen])

theorem pmcMatch_happens :
    Happens .pmcMatch
      (fun u => u.aonClocked = true ∧ u.flag Reg.PMC_CFG Fl.PMC_CFG_MATCH_EN = true ∧ u.pmcMatchNs ≤ u.localNs)
      (fun u => (u.pmcTrigger 4).setFlag Reg.PMC_CFG Fl.PMC_CFG_MATCH_EN false) :=
  fun _ _ ⟨hclk, hen, hdue⟩ => if_pos (by simp [hclk, hen, hdue])

/-- Counter `k` less the 2^48 that it has passed. -/
def State.wrapped (u : State) (k : Nat) : State :=
  { u with pmc.cnt := Tab.put u.pmc.cnt k (Tab.at u.pmc.cnt 0 k - 2 ^ 48) }

/-- A counter that has passed 48 bits wraps; its pair or its sticky bit takes the carry (R650). -/
theorem counterWrap_passed {k t : Nat} {s : State} (hpassed : 2 ^ 48 ≤ Tab.at (s.atTime t).pmc.cnt 0 k) :
    exec (.counterWrap k t) s =
      if ((s.atTime t).wrapped k).chained k then .next (((s.atTime t).wrapped k).pmcPlus (k + 1) 1)
      else .next ((((s.atTime t).wrapped k).setFlag (Reg.PMC_STATK k) Fl.PMC_STATK_STICKY true).irq Reg.PMC_IRQ_STAT
        Fl.PMC_IRQ_STAT_WRAP) :=
  if_neg (Nat.not_lt.2 hpassed)

/-- Settles O40: a row that waits for an event has it under its clause's condition; the rows of the register triggers are
their effect. -/
theorem counterEventsComplete : Obligations.CounterEventsComplete := by
  unfold Obligations.CounterEventsComplete
  exact
    ⟨pmcSnapPin_happens,
    pmcMatch_happens,
    ⟨fun _ _ _ ⟨hpassed, hchained⟩ => (counterWrap_passed hpassed).trans (if_pos hchained),
      fun _ _ _ ⟨hpassed, hsingle⟩ => (counterWrap_passed hpassed).trans (if_neg (Bool.eq_false_iff.1 hsingle))⟩,
    fun _ _ ⟨hclk, hen, hdue⟩ => if_pos (by simp only [hclk, hen, hdue, decide_true, Bool.and_self]), -- BANDWIDTH_WINDOW
    fun _ _ => .of_exec fun _ _ => rfl, -- PMC_SEL
    fun _ _ => .of_exec fun _ _ => rfl, -- PMC_MMASK
    .of_exec fun _ _ => rfl, -- CLR_ALL
    .of_exec fun _ _ => rfl, -- RUN
    .of_exec fun _ _ => rfl, -- FREEZE
    .of_exec fun _ _ => rfl⟩ -- SNAP_TRIGGER

end Sys2Proof.Machine

/-!
The idle hint (R637) and the watchdog (R605).
-/

namespace Sys2Proof.Machine

/-! ### The idle hint -/

/-- Replacing a single bit keeps the bits below it and those above it. -/
theorem setBitsN_bit (n k v : Nat) : setBitsN n k k v = n % 2 ^ k + 2 ^ k * (2 * (n / 2 ^ k / 2) + v % 2) := by
  have hn : 2 ^ k * (n / 2 ^ k) + n % 2 ^ k = n := Nat.div_add_mod n (2 ^ k)
  have hq : 2 ^ k * (2 * (n / 2 ^ k / 2)) + 2 ^ k * (n / 2 ^ k % 2) = 2 ^ k * (n / 2 ^ k) := by
    rw [← Nat.mul_add, Nat.div_add_mod]
  simp only [setBitsN, bitsN, Nat.sub_self, Nat.zero_add, Nat.pow_one, Nat.mul_add, Nat.mul_comm _ (2 ^ k)]
  omega

theorem testBit_setBitsN_bit (n k v : Nat) : (setBitsN n k k v).testBit k = v.testBit 0 := by
  rw [setBitsN_bit, Nat.testBit_eq_decide_div_mod_eq, Nat.add_mul_div_left _ _ (Nat.two_pow_pos k),
    Nat.div_eq_of_lt (Nat.mod_lt n (Nat.two_pow_pos k)), Nat.testBit_zero]
  rw [Nat.zero_add, Nat.mul_add_mod, Nat.mod_mod]

/-- A one-bit field that is written reads what was written. -/
theorem State.flag_setFld_bit (s : State) (a v : Nat) {k : Nat} (hk : k < 32) :
    (s.setFld a ⟨k, k⟩ v).flag a ⟨k, k⟩ = v.testBit 0 := by
  simp only [State.flag, State.setFld, State.rd_wr_same, Nat.testBit_mod_two_pow, testBit_setBitsN_bit, hk, decide_true,
    Bool.true_and]

theorem State.flag_setFlag_bit (s : State) (a : Nat) (b : Bool) {k : Nat} (hk : k < 32) :
    (s.setFlag a ⟨k, k⟩ b).flag a ⟨k, k⟩ = b :=
  (s.flag_setFld_bit a (b2n b) hk).trans (by cases b <;> rfl)

theorem State.flag_irq_bit (s : State) (a : Nat) {k : Nat} (hk : k < 32) : (s.irq a ⟨k, k⟩).flag a ⟨k, k⟩ = true := by
  simp only [State.flag, State.irq, State.rd_pmcAdd]
  exact s.flag_setFld_bit a 1 hk

theorem State.flag_congr {s u : State} {a : Nat} (f : Fld) (h : u.rd a = s.rd a) : u.flag a f = s.flag a f := by
  rw [State.flag, State.flag, h]

/-- The hint is a bit of three registers, and no other changes with it (R637). -/
theorem State.rd_setHint_other (s : State) (b : Bool) {a : Nat} (hamp : a ≠ Reg.OUT_AMP_STAT) (hstat : a ≠ Reg.PWR_STAT)
    (hirq : a ≠ Reg.PWR_IRQ_STAT) : (s.setHint b).rd a = s.rd a := by
  unfold State.setHint
  split
  · rfl
  · simp [hamp, hstat, hirq]

/-- A hint that changes sets its flag and its interrupt. -/
theorem State.setHint_changed {s : State} {b : Bool} (h : s.flag Reg.OUT_AMP_STAT Fl.OUT_AMP_STAT_IDLE_HINT ≠ b) :
    s.setHint b = ((s.setFlag Reg.OUT_AMP_STAT Fl.OUT_AMP_STAT_IDLE_HINT b).setFlag Reg.PWR_STAT Fl.PWR_STAT_HINT b).irq
      Reg.PWR_IRQ_STAT Fl.PWR_IRQ_STAT_HINT :=
  if_neg h

/-- Settles O57: the three registers of the hint are none of the domains', and each of the three bits reads what was written. -/
theorem hintMovesNoDomain : Obligations.HintMovesNoDomain := by
  unfold Obligations.HintMovesNoDomain
  refine fun s b => ⟨fun d hd => ?domains, fun h => if_pos h, fun h => ?changed⟩
  case domains =>
    have hamp : Reg.PWR_DOM_STAT d ≠ Reg.OUT_AMP_STAT := by simp only [Reg.PWR_DOM_STAT, Reg.OUT_AMP_STAT]; omega
    have hstat : Reg.PWR_DOM_STAT d ≠ Reg.PWR_STAT := by simp only [Reg.PWR_DOM_STAT, Reg.PWR_STAT]; omega
    have hirq : Reg.PWR_DOM_STAT d ≠ Reg.PWR_IRQ_STAT := by simp only [Reg.PWR_DOM_STAT, Reg.PWR_IRQ_STAT]; omega
    simp only [State.domState, State.fld, s.rd_setHint_other b hamp hstat hirq]
  case changed =>
    rw [State.setHint_changed h]
    refine ⟨?_, ?_, State.flag_irq_bit _ _ (by decide)⟩
    · rw [State.flag_congr _ (State.rd_irq_other _ _ (by decide)), State.flag_congr _ (State.rd_setFlag_other _ _ _ (by decide))]
      exact State.flag_setFlag_bit _ _ _ (by decide)
    · rw [State.flag_congr _ (State.rd_irq_other _ _ (by decide))]
      exact State.flag_setFlag_bit _ _ _ (by decide)

/-! ### The watchdog -/

/-- Settles O26: a watchdog that counts goes by how many of its timeouts lie within 60 s. -/
theorem watchdogResets : Obligations.WatchdogResets := by
  unfold Obligations.WatchdogResets
  refine ⟨fun t s ⟨hruns, hfew⟩ => ?resets, fun t s ⟨hruns, hthird⟩ => ?warm⟩
  case resets => exact (if_neg (by simp [hruns])).trans (if_neg (Nat.not_le.2 hfew))
  case warm => exact (if_neg (by simp [hruns])).trans (if_pos hthird)

end Sys2Proof.Machine

/-!
Power domains act by themselves (R628 to R635).
-/

namespace Sys2Proof.Machine

/-! ### Power domains act -/

/-- A row that may let a held reply go, by its own outcome. -/
theorem Releases.of_row {i : Nat → Instr} {cond : State → Prop} {eff : State → State} (row : Nat → State → Out)
    (hi : ∀ t s, exec (i t) s = afterRow s (row t s))
    (h : ∀ t s, cond (s.atTime t) → row t s = .next (eff (s.atTime t))) : Releases i cond eff :=
  fun t s hcond => (hi t s).trans (congrArg (afterRow s) (h t s hcond))

/-- The retention timer of a domain is over (R628, R629). -/
def State.retDue (u : State) (d : Nat) : Prop :=
  u.timed d = true ∧ u.domState d = pON ∧ u.flag (Reg.PWR_DOM_CFG d) Fl.PWR_DOM_CFG_AUTO_RET = true ∧ u.idle d = true ∧
    Tab.at u.pwr.retLim (max 10 (u.fld (Reg.PWR_DOM_CFG d) Fl.PWR_DOM_CFG_RET_US)) d * 1000 ≤
      u.now - Tab.at u.pwr.active 0 d

theorem retTimer_due {d t : Nat} {act : Bool} {s : State} (hdue : (s.atTime t).retDue d) :
    exec (.retTimer d t act) s =
      if act then .next { (s.atTime t).bump Reg.PWR_ABORT with
        pwr.active := Tab.put (s.atTime t).pwr.active d (s.atTime t).now }
      else if d = dDRAM then .next ((s.atTime t).setDom d pENTER)
      else .next ((s.atTime t).enterRet d) := by
  obtain ⟨htimed, hon, hauto, hidle, hover⟩ := hdue
  exact if_pos (by simp [htimed, hon, hauto, hidle, hover])

theorem offTimer_happens (d : Nat) :
    Happens (.offTimer d)
      (fun u => u.timed d = true ∧ d ≠ dCTRL ∧ d ≠ dDRAM ∧ u.domState d = pRET ∧
        u.flag (Reg.PWR_DOM_CFG d) Fl.PWR_DOM_CFG_AUTO_OFF = true ∧ u.locked d = false ∧ u.planeHolds d = false ∧
        Tab.at u.pwr.offLim (max 1 (u.fld (Reg.PWR_DOM_OFFT d) Fl.PWR_DOM_OFFT_OFF_MS)) d * 1000000 ≤
          u.now - Tab.at u.pwr.retAt 0 d)
      (fun u => u.enterOff d) :=
  fun _ _ ⟨htimed, hctrl, hdram, hret, hauto, hopen, hfree, hover⟩ =>
    if_pos (by simp [htimed, hctrl, hdram, hret, hauto, hopen, hfree, hover])

/-- A device that is neither in SAFE nor in HALT hears what wakes its domains (R630, R631). -/
theorem domainWake_lives {d src t : Nat} {s : State} (hlives : (s.atTime t).mode ≠ mSAFE ∧ (s.atTime t).mode ≠ mHALT) :
    exec (.domainWake d src t) s =
      if src = 0 then .next (if (s.atTime t).ticketWakes d then (s.atTime t).wake d false else s.atTime t)
      else if src = 1 then (if d = dDRAM then .next ((s.atTime t).wake d false) else .next (s.atTime t))
      else .next ((s.atTime t).wake d true) :=
  if_neg (not_or.2 hlives)

/-- An eligible ticket wakes the domain of the engine it names, or one of a class that is full where it names none (R630). -/
theorem State.ticketWakes_of_mem {u : State} {d q : Nat} {l : List Ticket} {k : Ticket} (hq : (q, l) ∈ u.stbl.queues)
    (hk : k ∈ l) (helig : u.eligible k = true)
    (hwants : (if k.eng = 255 then u.classFull k.cls && (classEngines k.cls).any
      (fun e => engineDomain e == d && enginePresent u.otp.grade e) else engineDomain k.eng == d) = true) :
    u.ticketWakes d = true :=
  List.any_eq_true.2 ⟨(q, l), hq, List.any_eq_true.2 ⟨k, hk, by rw [helig, hwants]; rfl⟩⟩

theorem domainWake_ticket {d t : Nat} {s : State} (hlives : (s.atTime t).mode ≠ mSAFE ∧ (s.atTime t).mode ≠ mHALT)
    (hwakes : (s.atTime t).ticketWakes d = true) :
    exec (.domainWake d 0 t) s = .next ((s.atTime t).wake d false) :=
  (domainWake_lives hlives).trans ((if_pos rfl).trans (congrArg Host.Outcome.next (if_pos hwakes)))

/-- Settles O36: each row's guard is decided by the statement's condition; what wakes a domain is a ticket, a DRAM access or an
outside event. -/
theorem powerEventsComplete : Obligations.PowerEventsComplete := by
  unfold Obligations.PowerEventsComplete
  refine
    ⟨⟨fun d t s hdue => (retTimer_due hdue).trans (if_pos rfl),
      fun d t s hdue hdom => (retTimer_due hdue).trans ((if_neg Bool.false_ne_true).trans (if_neg hdom)),
      fun t s hdue => (retTimer_due hdue).trans ((if_neg Bool.false_ne_true).trans (if_pos rfl))⟩,
    offTimer_happens,
    ⟨fun d src hsrc t s hlives => (domainWake_lives hlives).trans ?outside,
      fun t s hlives => (domainWake_lives hlives).trans rfl,
      fun d q l k t s ⟨hlives, hq, hk, helig, heng, hdom⟩ =>
        domainWake_ticket hlives (State.ticketWakes_of_mem hq hk helig ?named),
      fun d q l k e t s ⟨hlives, hq, hk, helig, heng, hfull, he, hdom, hthere⟩ =>
        domainWake_ticket hlives (State.ticketWakes_of_mem hq hk helig ?any)⟩,
    fun x => .of_row rowDrainComplete (fun _ _ => rfl) fun t s ⟨hdrain, hidle⟩ => ?drained,
    fun x => .of_row rowDrainTimeout (fun _ _ => rfl) fun t s ⟨hdrain, hover⟩ => ?refused⟩
  case outside => exact (if_neg (by omega)).trans (if_neg (by omega))
  case named => exact (if_neg heng).trans (beq_iff_eq.2 hdom)
  case any =>
    refine (if_pos heng).trans ?_
    rw [hfull, Bool.true_and]
    exact List.any_eq_true.2 ⟨e, he, by simp [hdom, hthere]⟩
  case drained => simp only [rowDrainComplete, hdrain, hidle, if_true]
  case refused =>
    simp only [rowDrainTimeout, hdrain]
    exact if_pos hover

end Sys2Proof.Machine

/-!
What arrives on the command ports (R441, R571 to R577, R582, R587).
-/

namespace Sys2Proof.Machine

/-! ### The command ports -/

/-- What `TWI_ADDRESS_MATCH` answers to the device's own address, outside HALT and SAFE (R575, R576). -/
theorem twiAddressMatch_own {w : Bool} {t : Nat} {s : State} (hpor : (s.atTime t).sys.porN = true)
    (hhalt : (s.atTime t).mode ≠ mHALT) (hsafe : (s.atTime t).mode ≠ mSAFE) :
    exec (.twiAddressMatch (s.atTime t).twiAddress w t) s =
      if (s.atTime t).domState dCTRL = pRET ∨ (s.atTime t).domState dCTRL = pOFF then
        .next (((((s.atTime t).wake dCTRL true).bump Reg.CMD_TWI_WAKE).irq Reg.CMD_IRQ_STAT Fl.CMD_IRQ_STAT_WAKE).readReturns
          0)
      else .next ((s.atTime t).readReturns (b2n ((s.atTime t).answers 2 && !(w && (s.atTime t).twiTaken)))) := by
  have hown : ¬ ((s.atTime t).twiAddress ≠ (s.atTime t).twiAddress ∨ (s.atTime t).sys.porN = false) := by simp [hpor]
  exact (if_neg hown).trans ((if_neg hhalt).trans (if_neg hsafe))

/-- A reply read to its end is consumed, and the next command may start; one read in part stays (R571). -/
theorem hspReadReply_answered {n t : Nat} {s : State} (hanswers : (s.atTime t).answers 0 = true) :
    exec (.hspReadReply n t) s =
      if (s.atTime t).cmd.hspReply.isSome && decide ((replyRead (s.atTime t).cmd.hspReply).length ≤ n) then
        .next ({ (s.atTime t).readReturns (leVal ((replyRead (s.atTime t).cmd.hspReply).take n)) with
          cmd.hspReply := none } : State).runWaiting
      else .next ((s.atTime t).readReturns (leVal ((replyRead (s.atTime t).cmd.hspReply).take n))) :=
  if_neg (by simp [hanswers])

/-- Metadata that the port takes is counted where its buffers are full, and waits for the parser where they are not (R572). -/
theorem hspWriteMetadata_taken {bytes : List Byte} {t : Nat} {s : State} (hpower : (s.atTime t).hspPowered = true)
    (hpath : (s.atTime t).omsPath 0 = true) (hheeded : (s.atTime t).omsIgnored = false) :
    exec (.hspWriteMetadata bytes t) s =
      if (s.atTime t).metaFull then .next (s.atTime t).omsDrop else .next ((s.atTime t).queueOms ⟨0, bytes, (s.atTime t).now⟩) :=
  if_neg (by simp [hpower, hpath, hheeded])

/-- Settles O24: each row's guards are decided by the statement's condition. -/
theorem portEventsComplete : Obligations.PortEventsComplete := by
  unfold Obligations.PortEventsComplete
  refine
    ⟨fun port e t s ⟨hmuted, hover⟩ => ?suppress,
    fun ext peerOk o r t s ⟨hlong, hop, hends⟩ => ?longDone,
    fun ext peerOk o t s ⟨hlong, hop⟩ => ?commitDone,
    fun h => .of_row rowStandbyAckTimeout (fun _ _ => rfl) fun t s ⟨hheld, hdue⟩ => ?ack,
    .of_row rowStandbyAckTimeout (fun _ _ => rfl) fun t s ⟨hnone, hstandby⟩ => ?unsync,
    fun _ _ _ => rfl, -- HSP_WRITE_COMMAND
    fun bytes t s ⟨hpower, hpath, hheeded, hroom⟩ =>
      (hspWriteMetadata_taken hpower hpath hheeded).trans (if_neg (Bool.eq_false_iff.1 hroom)),
    fun bytes t s ⟨hpower, hpath, hheeded, hfull⟩ => (hspWriteMetadata_taken hpower hpath hheeded).trans (if_pos hfull),
    fun bytes t s hignored => if_pos (by simp [show (s.atTime t).omsIgnored = true from hignored]),
    fun s hanswers => if_pos hanswers, -- HSP_READ_STATUS
    fun n t s ⟨hanswers, hpart⟩ => (hspReadReply_answered hanswers).trans (if_neg ?part),
    fun n t s ⟨hanswers, hsome, hall⟩ => (hspReadReply_answered hanswers).trans (if_pos ?all),
    fun s hanswers => if_pos hanswers, -- HSP_ABORT
    fun m src bytes t s ⟨hpower, hen⟩ => ?datagram,
    fun bytes t s hfree => if_neg (Bool.eq_false_iff.1 hfree), -- TWI_WRITE
    fun n t s hanswers => ?twiRead,
    fun w t s hpor hhalt hsafe hdown => (twiAddressMatch_own hpor hhalt hsafe).trans (if_pos hdown),
    fun w t s hpor hhalt hsafe hret hoff => (twiAddressMatch_own hpor hhalt hsafe).trans (if_neg (not_or.2 ⟨hret, hoff⟩)),
    fun bytes t s hsafe => if_pos hsafe⟩ -- SAFE_RESPONDER
  case suppress =>
    change execAuthSuppressEnd port t s = _
    simp only [execAuthSuppressEnd, hmuted]
    exact if_pos hover
  case longDone =>
    change execLongOperationDone ext peerOk t s = _
    simp only [execLongOperationDone, hlong, hop, if_false, hends]
    rfl
  case commitDone =>
    change execLongOperationDone ext peerOk t s = _
    simp only [execLongOperationDone, hlong, hop, if_true]
  case ack =>
    simp only [rowStandbyAckTimeout, hheld]
    exact if_pos hdue
  case unsync =>
    simp only [rowStandbyAckTimeout, hnone]
    exact if_pos hstandby
  case part => rcases hpart with h | h <;> simp [h]
  case all => simp [hsome, hall]
  case datagram => exact (if_neg (by simp [hpower])).trans (if_neg (by simp [hen]))
  case twiRead =>
    refine (if_neg (by simp [show (s.atTime t).answers 2 = true from hanswers])).trans ?_
    simp only [decide_eq_true_eq]

end Sys2Proof.Machine

/-!
Clock references and network time: the commands (R392 to R411), references (R387 to R398) and PTP (R401 to R405).
-/

namespace Sys2Proof.Machine

/-! ### Clock and PTP commands -/

/-- References 0 to 4 take the packet's word, and `EN` decides their state; reference 5 is always enabled (R390). -/
theorem cmdClkRefSet_of_named {p : Packet} {u : State} (hzero : zeroAt p.params 1 3 = true)
    (hrsv : rsvOk (Reg.CLK_REF_CFG (u8 p.params 0)) (u32 p.params 4) = true) (hnom : bitsN (u32 p.params 4) 26 24 ≠ 7)
    (href : u8 p.params 0 < 5) :
    cmdClkRefSet p u =
      if !(u32 p.params 4).testBit 31 then
        .ok ((u.wr (Reg.CLK_REF_CFG (u8 p.params 0)) (u32 p.params 4)).setRefState (u8 p.params 0) rsDIS) []
      else if (u.wr (Reg.CLK_REF_CFG (u8 p.params 0)) (u32 p.params 4)).fld (Reg.CLK_REF_STAT (u8 p.params 0))
          Fl.CLK_REF_STAT_STATE = rsDIS then
        .ok ((u.wr (Reg.CLK_REF_CFG (u8 p.params 0)) (u32 p.params 4)).setRefState (u8 p.params 0) rsLOST) []
      else .ok (u.wr (Reg.CLK_REF_CFG (u8 p.params 0)) (u32 p.params 4)) [] := by
  have hparams : ¬ (5 < u8 p.params 0 ∨ !zeroAt p.params 1 3 ∨ !rsvOk (Reg.CLK_REF_CFG (u8 p.params 0)) (u32 p.params 4) ∨
      bitsN (u32 p.params 4) 26 24 = 7) := by
    simp [hzero, hrsv, hnom, Nat.le_of_lt href]
  simp only [cmdClkRefSet, hparams, Nat.ne_of_lt href, Nat.not_le.2 href, if_false]

theorem cmdClkRefSet_xo {p : Packet} {u : State} (hzero : zeroAt p.params 1 3 = true)
    (hrsv : rsvOk (Reg.CLK_REF_CFG (u8 p.params 0)) (u32 p.params 4) = true) (hnom : bitsN (u32 p.params 4) 26 24 ≠ 7)
    (href : u8 p.params 0 = 5) :
    cmdClkRefSet p u = .ok (u.wr (Reg.CLK_REF_CFG 5) (setBitN (u32 p.params 4) 31 true)) [] := by
  rw [href] at hrsv
  simp [cmdClkRefSet, href, hzero, hrsv, hnom]

/-- Outside its manual setting the word of the DCO is refused; within, it is in force at once or moves there (R397). -/
theorem cmdClkDcoSet_of_manual {p : Packet} {u : State} (hmanual : u.fld Reg.CLK_SEL Fl.CLK_SEL_MANUAL = 14)
    (hlow : -dcoMax ≤ toS 64 (u64 p.params 0)) (hhigh : toS 64 (u64 p.params 0) ≤ dcoMax) :
    cmdClkDcoSet p u =
      if u.planeOn then .ok { u with clk.slewFrom := u.dcoWord, clk.slewAt := u.now, clk.word := toS 64 (u64 p.params 0) } []
      else .ok (u.putWord (toS 64 (u64 p.params 0))) [] :=
  (if_neg (not_not_intro hmanual)).trans (if_neg (not_or.2 ⟨Int.not_lt.2 hhigh, Int.not_lt.2 hlow⟩))

theorem cmdPtpCfgSet_of_ok {p : Packet} {u : State} (hop : u8 p.params 0 ≤ 1) (hzero : zeroAt p.params 1 3 = true)
    (hok : ptpCfgOk (u32 p.params 4) (u32 p.params 8) (u32 p.params 12) = true) :
    cmdPtpCfgSet p u = .ok ((((u.wr Reg.PTP_CFG (if u8 p.params 0 = 1 then
        setBitsN (u32 p.params 4) 15 8 (profileDefaults (bitsN (u32 p.params 4) 31 30)).1 else u32 p.params 4)).wr
        Reg.PTP_PRIO (u32 p.params 8)).wr Reg.PTP_INTV (if u8 p.params 0 = 1 then
        (profileDefaults (bitsN (u32 p.params 4) 31 30)).2 else u32 p.params 12)).ptpApply
        (u.flag Reg.PTP_CFG Fl.PTP_CFG_EN)) [] :=
  if_neg (by simp [hop, hzero, hok])

/-- Settles O9: the checks of each body pass under its clause's conditions, and what is left of the body is its effect; a
reference goes by its enable bit, the DCO word by whether the data plane runs. -/
theorem clockCommandsComplete : Obligations.ClockCommandsComplete := by
  unfold Obligations.ClockCommandsComplete
  refine
    ⟨.of_body cmdClkCfgSet (fun _ _ => rfl) fun p u hok => if_pos hok,
    ⟨.of_body cmdClkRefSet (fun _ _ => rfl) fun p u ⟨⟨hzero, hrsv, hnom⟩, href⟩ => cmdClkRefSet_xo hzero hrsv hnom href,
      .of_body cmdClkRefSet (fun _ _ => rfl) fun p u ⟨⟨hzero, hrsv, hnom⟩, href, hen⟩ =>
        (cmdClkRefSet_of_named hzero hrsv hnom href).trans (if_pos (congrArg not hen)),
      .of_body cmdClkRefSet (fun _ _ => rfl) fun p u ⟨⟨hzero, hrsv, hnom⟩, href, hen, hdis⟩ =>
        (cmdClkRefSet_of_named hzero hrsv hnom href).trans ((if_neg (by simpa using hen)).trans (if_pos hdis)),
      .of_body cmdClkRefSet (fun _ _ => rfl) fun p u ⟨⟨hzero, hrsv, hnom⟩, href, hen, hknown⟩ =>
        (cmdClkRefSet_of_named hzero hrsv hnom href).trans ((if_neg (by simpa using hen)).trans (if_neg hknown))⟩,
    .of_body cmdClkSelect (fun _ _ => rfl) fun p u hsel => if_pos hsel,
    ⟨.of_body cmdClkDcoSet (fun _ _ => rfl) fun p u ⟨⟨hmanual, hlow, hhigh⟩, hon⟩ =>
        (cmdClkDcoSet_of_manual hmanual hlow hhigh).trans (if_pos hon),
      .of_body cmdClkDcoSet (fun _ _ => rfl) fun p u ⟨⟨hmanual, hlow, hhigh⟩, hoff⟩ =>
        (cmdClkDcoSet_of_manual hmanual hlow hhigh).trans (if_neg (Bool.eq_false_iff.1 hoff)),
      .of_fail cmdClkDcoSet (fun _ _ => rfl) fun p u hauto => if_pos hauto⟩,
    .of_body cmdClkOutSet (fun _ _ => rfl) fun p u hok => if_pos hok,
    .of_body cmdClkQuery (fun _ _ => rfl) fun _ _ _ => rfl,
    ⟨.of_body cmdPtpCfgSet (fun _ _ => rfl) fun p u ⟨⟨hzero, hok⟩, hop⟩ =>
        (cmdPtpCfgSet_of_ok (by simp [hop]) hzero hok).trans ?kept,
      .of_body cmdPtpCfgSet (fun _ _ => rfl) fun p u ⟨⟨hzero, hok⟩, hop⟩ =>
        (cmdPtpCfgSet_of_ok (by simp [hop]) hzero hok).trans ?defaults⟩,
    .of_body cmdPtpRelock (fun _ _ => rfl) fun _ _ _ => rfl,
    .of_body cmdPtpQuery (fun _ _ => rfl) fun _ _ _ => rfl⟩
  case kept =>
    have hkeeps : ¬ u8 p.params 0 = 1 := by simp [hop]
    simp only [if_neg hkeeps]
    rfl
  case defaults =>
    simp only [if_pos hop]
    rfl

/-! ### References -/

section
variable {s u : State} {r t : Nat} (hu : s.atTime t = u) (hclk : u.aonClocked = true)
include hu hclk

/-- An edge is timed; a rising edge of `PPS_IN` is also put beside media time, where pulses are enabled (R387, R398). -/
theorem referenceEdge_timed (pps : Bool) :
    exec (.referenceEdge r pps t) s = .next
      (if pps = true ∧ r = 3 ∧ (u.refEdge r t).flag (Reg.CLK_REF_CFG 3) Fl.CLK_REF_CFG_PPS_EN = true then
        { u.refEdge r t with clk.pps := some (t, (u.refEdge r t).sys.mediaTime) }
      else u.refEdge r t) := by
  change execReferenceEdge r pps t s = _
  simp only [execReferenceEdge, hu, hclk, Bool.not_true, Bool.false_eq_true, if_false, Bool.and_eq_true, beq_iff_eq, and_assoc,
    apply_ite Host.Outcome.next]

/-- An active reference is lost after its loss time without edges, and reference 4 with the link (R387, R405). -/
theorem referenceLost_due (href : r < 5) (hactive : u.refActive r = true)
    (hlost : Tab.at u.clk.edgeAt 0 r + u.lossNs r ≤ t ∨ (r = 4 ∧ u.linkUp = false)) :
    exec (.referenceLost r t) s = .next (if r = 0 then (u.masterGone.loseRef 0).bmca else u.loseRef r) := by
  have hdue : (!u.aonClocked || decide (5 ≤ r) || !u.refActive r ||
      !(decide (Tab.at u.clk.edgeAt 0 r + u.lossNs r ≤ t) || (r == 4 && !u.linkUp))) = false := by
    have hover : (decide (Tab.at u.clk.edgeAt 0 r + u.lossNs r ≤ t) || (r == 4 && !u.linkUp)) = true := by
      simpa using hlost
    simp [hclk, hactive, hover, href]
  change execReferenceLost r t s = _
  simp only [execReferenceLost, hu, hdue, Bool.false_eq_true, if_false, apply_ite Host.Outcome.next]

/-- The references are measured unless the crystal has failed (R387, R394). -/
theorem referenceMeasurement_measures (foff : List Int) (hxo : u.flag Reg.CLK_STAT Fl.CLK_STAT_XO_FAIL = false) :
    exec (.referenceMeasurement foff t) s = .next (forRange 0 5
      (fun r v => v.measureRef r (if r = 0 then rndDiv v.ptp.freq 100000 else nth foff r 0) t) u) := by
  change execReferenceMeasurement foff t s = _
  simp only [execReferenceMeasurement, hu, hclk, hxo, Bool.not_true, Bool.or_self, Bool.false_eq_true, if_false]

/-- An evaluation follows its choice, or goes on with the reference that it follows (R391 to R398). -/
theorem referenceSelection_chooses (phases ferrs : List Int) :
    exec (.referenceSelection phases ferrs t) s = .next (
      let c := u.chooseRef
      let v := if c = u.clk.sel then u else if c = selHOLD then u.enterHoldover else if c = selOPEN then u.openDpll
        else u.selectRef c (nth phases c 0)
      let v : State := { v with clk.dirty := false }
      (if c ≤ 5 then v.runDpll (nth phases c 0) (nth ferrs c 0) (c != u.clk.sel) else v).alignMedia) := by
  change execReferenceSelection phases ferrs t s = _
  simp only [execReferenceSelection, hu, hclk, Bool.not_true, Bool.false_eq_true, if_false, Bool.not_eq_true', bne_eq_false_iff_eq]

end

/-- Settles O33: each row's guard is decided by the statement's condition. -/
theorem clockEventsComplete : Obligations.ClockEventsComplete := by
  unfold Obligations.ClockEventsComplete
  exact
    ⟨fun _ pps _ _ hclk => referenceEdge_timed rfl hclk pps,
    fun _ _ _ hclk href hactive hlost => referenceLost_due rfl hclk href hactive hlost,
    fun foff _ _ hclk hxo => referenceMeasurement_measures rfl hclk foff hxo,
    fun phases ferrs _ _ hclk => referenceSelection_chooses rfl hclk phases ferrs,
    fun _ _ hruns => if_neg (Bool.eq_false_iff.1 hruns), -- XO_FAIL
    .of_exec fun _ _ => rfl⟩ -- XO_RETURN

/-! ### PTP -/

/-- The path delay joins the last 16, whose mean is shown (R403). -/
def State.addDelay (v : State) (d : Int) : State :=
  let w : State := { v with ptp.delays := (d :: v.ptp.delays).take 16 }
  w.wr Reg.PTP_MPD (rndDiv w.mpd16 65536).toNat

/-- Counting a response leaves the profile as it is. -/
theorem State.profile_delayRx (u : State) :
    ({ u.bump Reg.PTP_DELAY_RX with ptp := { (u.bump Reg.PTP_DELAY_RX).ptp with req := none } } : State).profile = u.profile := by
  change (u.bump Reg.PTP_DELAY_RX).fld _ _ = _
  simp only [State.fld, State.profile, State.rd_bump_other u (show Reg.PTP_CFG ≠ Reg.PTP_DELAY_RX by decide)]

/-- How many announcements of a sender its last four intervals have had, with the one that has come (R401). -/
def State.annSeen (u : State) (src t : Nat) : Nat :=
  match Tab.look u.ptp.foreign src with
  | some f => if t ≤ f.heard + 4 * u.ptpNs Fl.PTP_INTV_ANNOUNCE then f.seen + 1 else 1
  | none => 1

section
variable {s u : State} {t : Nat} {h : PtpHead} (hu : s.atTime t = u) (hon : u.ptpOn = true) (hgood : u.ptpBad h = false)
include hu hon hgood

/-- A Sync of the selected master, seen for the first time, waits for its Follow_Up or is complete (R403). -/
theorem sync_ofMaster (two : Bool) (origin corr : Int) (rx : Nat) (hmaster : u.ptp.master.map (·.src) = some h.src)
    (hnew : u.ptp.syncSeq ≠ some h.seq) :
    exec (.sync h two origin corr rx t) s = .next (
      let v : State := { (u.bump Reg.PTP_SYNC_RX).refEdge 0 t with ptp.syncSeq := some h.seq, ptp.twoStep := none }
      if two then { v with ptp.twoStep := some (h.seq, rx, corr) } else v.syncDone (65536 * origin + corr) rx) := by
  change execSync h two origin corr rx t s = _
  simp only [execSync, hu, hon, hgood, hmaster, hnew, ne_eq, not_true_eq_false, Bool.not_true, Bool.false_eq_true, if_false,
    apply_ite Host.Outcome.next]

theorem followUp_ofSync (origin corr : Int) {rx : Nat} {c : Int} (hwaits : u.ptp.twoStep = some (h.seq, rx, c))
    (hmaster : u.ptp.master.map (·.src) = some h.src) :
    exec (.followUp h origin corr t) s =
      .next (({ u with ptp.twoStep := none } : State).syncDone (65536 * origin + corr + c) rx) := by
  change execFollowUp h origin corr t s = _
  simp only [execFollowUp, hu, hon, hgood, hwaits, hmaster, Bool.not_true, Bool.false_eq_true, if_false, and_self, if_true]

/-- The mean path delay that the response to the port's own request gives, peer to peer (R403). -/
theorem delayResp_peer (t2 t3 corr : Int) (rx : Nat) {t1 : Nat} (hreq : u.ptp.req = some (h.seq, t1))
    (hprofile : u.profile = 3) :
    exec (.delayResp h true t2 t3 corr rx t) s =
      .next (({ u.bump Reg.PTP_DELAY_RX with ptp.req := none } : State).addDelay
        (rndDiv (65536 * ((rx : Int) - t1 - (t3 - t2)) - corr) 2)) := by
  change execDelayResp h true t2 t3 corr rx t s = _
  simp only [execDelayResp, hu, hon, hgood, hreq, u.profile_delayRx, hprofile, bne_self_eq_false, Bool.not_true, Bool.or_self,
    Bool.false_eq_true, if_false, if_true]
  rfl

/-- And end to end, where a Sync has been timed. -/
theorem delayResp_endToEnd (t2 t3 corr : Int) (rx : Nat) {t1 : Nat} {ls : Int × Nat} (hreq : u.ptp.req = some (h.seq, t1))
    (hprofile : u.profile ≠ 3) (hsync : u.ptp.lastSync = some ls) :
    exec (.delayResp h true t2 t3 corr rx t) s =
      .next (({ u.bump Reg.PTP_DELAY_RX with ptp.req := none } : State).addDelay
        (rndDiv ((65536 * (ls.2 : Int) - ls.1) + (65536 * (t2 - t1) - corr)) 2)) := by
  have hsync' : (u.bump Reg.PTP_DELAY_RX).ptp.lastSync = some ls := by rw [State.bump_ptp, hsync]
  change execDelayResp h true t2 t3 corr rx t s = _
  simp only [execDelayResp, hu, hon, hgood, hreq, u.profile_delayRx, hprofile, bne_self_eq_false, Bool.not_true, Bool.or_self,
    Bool.false_eq_true, if_false]
  simp only [hsync', Option.map_some]
  rfl

/-- An announcement is counted towards its sender's last four intervals, and the masters are compared anew (R401). -/
theorem announce_counted (a : Ann) :
    exec (.announce h a t) s = .next ({ u.bump Reg.PTP_ANN_RX with
      ptp.foreign := Tab.put u.ptp.foreign h.src ⟨{ a with src := h.src }, t, u.annSeen h.src t⟩ } : State).bmca := by
  change execAnnounce h a t s = _
  simp only [execAnnounce, hu, hon, hgood, State.bump_ptp, Bool.not_true, Bool.false_eq_true, if_false]
  rfl

end

/-- The master is given up when its announcements have stopped (R405). -/
theorem announceTimeout_due {s u : State} {t : Nat} {a : Ann} (hu : s.atTime t = u) (hmaster : u.ptp.master = some a)
    (hon : u.ptpOn = true)
    (hover : ((Tab.look u.ptp.foreign a.src).map (·.heard)).getD 0 +
      u.fld Reg.PTP_INTV Fl.PTP_INTV_ANN_TIMEOUT * u.ptpNs Fl.PTP_INTV_ANNOUNCE ≤ t) :
    exec (.announceTimeout t) s = .next u.masterGone.bmca := by
  change execAnnounceTimeout t s = _
  simp only [execAnnounceTimeout, hu, hmaster]
  exact if_neg (by simpa [hon] using hover)

theorem delayReqInterval_happens (x : Nat) :
    Happens (.delayReqInterval (some x)) (fun u => u.ptpOn = true ∧ (u.profile = 3 ∨ u.ptp.master.isSome = true))
      (fun u => { u.bump Reg.PTP_DELAY_TX with
        ptp.reqSeq := (u.ptp.reqSeq + 1) % 65536, ptp.sent := u.ptp.sent ++ [⟨1, u.ptp.reqSeq⟩]
        ptp.req := some (u.ptp.reqSeq, x) }) := by
  rintro t s ⟨hon, hasks⟩
  refine (if_neg ?_).trans ?_
  · rcases hasks with h | h <;> simp [hon, h]
  · simp only [Option.isNone_some, Bool.false_eq_true, if_false, Option.map_some, State.bump_ptp]

/-- Settles O34: a good message passes the checks of R403 that come before its own; an interval's row sends what is due. -/
theorem timeProtocolEventsComplete : Obligations.TimeProtocolEventsComplete := by
  unfold Obligations.TimeProtocolEventsComplete
  exact
    ⟨⟨fun _ two origin corr rx _ _ ⟨hon, hgood⟩ hmaster hnew => sync_ofMaster rfl hon hgood two origin corr rx hmaster hnew,
      fun _ origin corr _ _ _ _ ⟨⟨hon, hgood⟩, hwaits, hmaster⟩ => followUp_ofSync rfl hon hgood origin corr hwaits hmaster,
      fun _ t2 t3 corr rx _ _ _ ⟨⟨hon, hgood⟩, hreq, hprofile⟩ => delayResp_peer rfl hon hgood t2 t3 corr rx hreq hprofile,
      fun _ t2 t3 corr rx _ _ _ _ ⟨⟨hon, hgood⟩, hreq, hprofile, hsync⟩ =>
        delayResp_endToEnd rfl hon hgood t2 t3 corr rx hreq hprofile hsync,
      fun _ a _ _ ⟨hon, hgood⟩ => announce_counted rfl hon hgood a⟩,
    fun _ _ _ hmaster hon hover => announceTimeout_due rfl hmaster hon hover,
    delayReqInterval_happens,
    fun _ _ ⟨hon, hport⟩ => if_neg (by simp [hon, hport])⟩ -- SYNC_INTERVAL

end Sys2Proof.Machine

/-!
The redundant pair: its commands (R418 to R447), the rein, the Tether, resync and handover (R416 to R443).
-/

namespace Sys2Proof.Machine

/-! ### Pair commands -/

/-- The link to the peer is up and both units are one pair: what `PAIR_RESYNC` with op `op` makes of it (R431, R447). -/
theorem cmdPairResync_of_linked {p : Packet} {u : State} {op : Nat} (hop : u8 p.params 0 = op) (hle : op ≤ 1)
    (hzero : zeroAt p.params 1 3 = true) (hpaired : u.paired = true) (hlink : u.linkUp = true)
    (hcompat : op = 0 → u.compatEqual = true) :
    cmdPairResync p u =
      if u.holds then .ok ((if op = 1 then { u with pair.cut := none } else u).control (4 + op) 0) []
      else if op = 1 then .ok u.abortResync []
      else .ok (if u.mayResync then u.startResync else u) [] := by
  subst hop
  refine (if_neg (by simp [hzero, hle])).trans ((if_neg (by simp [hpaired, hlink])).trans (if_neg ?_))
  exact fun ⟨hstart, hdiffers⟩ => Bool.false_ne_true (hdiffers.symm.trans (hcompat hstart))

/-- Settles O19: each body passes its checks under its clause's conditions; `PAIR_RESYNC` goes by who holds the rein and by
whether a resync may start. -/
theorem pairCommandsComplete : Obligations.PairCommandsComplete := by
  unfold Obligations.PairCommandsComplete
  refine
    ⟨.of_body cmdPairCfgSet (fun _ _ => rfl) fun p u ⟨hrsv, hlow, hhigh, hlead⟩ =>
      if_neg (by simp [hrsv, Nat.ne_of_gt hlow, hhigh, hlead]),
    .of_body cmdPairIdSet (fun _ _ => rfl) fun p u ⟨hpad, hpad', htail, hip4, hip6⟩ =>
      if_neg (by simp [hpad, hpad', htail, hip4, hip6]),
    .of_body cmdPairQuery (fun _ _ => rfl) fun _ _ _ => rfl,
    ⟨.of_hold cmdPairSwitchover (fun _ _ => rfl) fun p u hready => if_neg (by simp [hready]),
      .of_fail cmdPairSwitchover (fun _ _ => rfl) fun p u hnone => if_pos (by simp [hnone])⟩,
    ⟨.of_body cmdPairResync (fun _ _ => rfl) fun p u ⟨⟨hop, hzero, hpaired, hlink⟩, hcompat, hholds⟩ =>
        (cmdPairResync_of_linked hop (Nat.zero_le 1) hzero hpaired hlink fun _ => hcompat).trans (if_pos hholds),
      .of_body cmdPairResync (fun _ _ => rfl) fun p u ⟨⟨hop, hzero, hpaired, hlink⟩, hcompat, hfree, hmay⟩ =>
        (cmdPairResync_of_linked hop (Nat.zero_le 1) hzero hpaired hlink fun _ => hcompat).trans
          (by simp [hfree, hmay, noResult]),
      .of_body cmdPairResync (fun _ _ => rfl) fun p u ⟨⟨hop, hzero, hpaired, hlink⟩, hcompat, hfree, hmay⟩ =>
        (cmdPairResync_of_linked hop (Nat.zero_le 1) hzero hpaired hlink fun _ => hcompat).trans
          (by simp [hfree, hmay, noEffect, noResult]),
      .of_body cmdPairResync (fun _ _ => rfl) fun p u ⟨⟨hop, hzero, hpaired, hlink⟩, hholds⟩ =>
        (cmdPairResync_of_linked hop (Nat.le_refl 1) hzero hpaired hlink (absurd · Nat.one_ne_zero)).trans (if_pos hholds),
      .of_body cmdPairResync (fun _ _ => rfl) fun p u ⟨⟨hop, hzero, hpaired, hlink⟩, hfree⟩ =>
        (cmdPairResync_of_linked hop (Nat.le_refl 1) hzero hpaired hlink (absurd · Nat.one_ne_zero)).trans
          (by simp [hfree, noResult])⟩,
    .of_body cmdPairFence (fun _ _ => rfl) fun _ _ _ => rfl⟩

/-! ### Tether frames -/

/-- The state in which a frame that has arrived in sequence is delivered (R422, R424). -/
def State.inSeq (u : State) (f : TethIn) : State :=
  State.peerReport { u with pair.lastRx := u.now, pair.rxSeq := (u.pair.rxSeq + 1) % 2 ^ 32, pair.nak := false } f

theorem State.frameIn_bad {u : State} (f : TethIn) (act : State → State) (hpaired : u.paired = true)
    (hlink : u.linkUp = true) :
    u.frameIn f true act = { u.bump Reg.TTH_CRC_ERR with pair.nak := true } :=
  (if_neg (by simp [hpaired, hlink])).trans (if_pos rfl)

/-- The frame whose turn it is is delivered, and resync may start by itself on what it tells (R424, R431). -/
theorem State.frameIn_inSeq {u : State} {f : TethIn} (act : State → State) (hpaired : u.paired = true)
    (hlink : u.linkUp = true) (hnext : f.seq = u.pair.rxSeq) :
    u.frameIn f false act = (act (u.inSeq f)).autoResync := by
  refine (if_neg (by simp [hpaired, hlink])).trans ((if_neg Bool.false_ne_true).trans (if_pos ?_))
  change (f.seq + 2 ^ 32 - u.pair.rxSeq) % 2 ^ 32 = 0
  omega

/-- A frame row is `frameIn` with what its kind does. -/
theorem Releases.of_bad {i : Nat → Instr} (f : TethIn) (act : State → State)
    (hi : ∀ t s, exec (i t) s = afterHeld s ((s.atTime t).frameIn f true act)) :
    Releases i (fun u => u.paired = true ∧ u.linkUp = true) (fun u => { u.bump Reg.TTH_CRC_ERR with pair.nak := true }) :=
  fun t s ⟨hpaired, hlink⟩ => (hi t s).trans (congrArg (afterHeld s) (State.frameIn_bad f act hpaired hlink))

theorem Releases.of_inSeq {i : Nat → Instr} (f : TethIn) (act : State → State)
    (hi : ∀ t s, exec (i t) s = afterHeld s ((s.atTime t).frameIn f false act)) :
    Releases i (fun u => (u.paired = true ∧ u.linkUp = true) ∧ f.seq < 2 ^ 32 ∧ f.seq = u.pair.rxSeq)
      (fun u => (act (u.inSeq f)).autoResync) :=
  fun t s ⟨⟨hpaired, hlink⟩, _, hnext⟩ =>
    (hi t s).trans (congrArg (afterHeld s) (State.frameIn_inSeq act hpaired hlink hnext))

/-! ### The rein -/

/-- An edge of `REIN_IN` is heard; a holder that does not ignore it stops driving, and yields where it is unit 1 (R417). -/
theorem reinEdge_heard {t : Nat} {s : State} (hpaired : (s.atTime t).paired = true) :
    exec (.reinEdge t) s =
      let u : State := { s.atTime t with pair.edgeAt := some (s.atTime t).now }
      let v := u.setFlag Reg.TTH_STAT Fl.TTH_STAT_DRIVING false
      if u.holds = false ∨ u.ignoresRein = true then .next u
      else if v.yields then
        let v := (v.dropRein).setPstate psWAIT
        let v := (v.bump Reg.TTH_RELEASE).irq Reg.TTH_IRQ_STAT Fl.TTH_IRQ_STAT_RELEASE
        .next { v with pair.waits := v.flag Reg.TTH_STAT Fl.TTH_STAT_ID_CONFLICT }
      else .next v :=
  if_neg (by simp [hpaired])

/-- The media time of a granted handover has come: the rein passes (R438). -/
theorem rowHandoverSwap_due {t j : Nat} {inc : Bool} {s : State} (hturn : (s.atTime t).pair.turn = some (j, inc))
    (hgranted : (s.atTime t).pair.granted = true) (hslot : j + 2 ≤ (s.atTime t).slot) :
    rowHandoverSwap t s =
      let u : State := { s.atTime t with pair.turn := none, pair.granted := false }
      if inc then
        let m := u.takeoverMode
        let v := (u.takeRein.setPstate psACTIVE).setMode m
        let v := (v.bump Reg.TTH_SWITCHOVER).irq Reg.TTH_IRQ_STAT Fl.TTH_IRQ_STAT_SWITCHOVER
        .next (v.finishHeld 4 stOK [])
      else
        let v := ((u.dropRein).setPstate psSTANDBY).setMode mSTANDBY
        let v := v.irq Reg.TTH_IRQ_STAT Fl.TTH_IRQ_STAT_SWITCHOVER
        .next (v.finishHeld 3 stOK []) := by
  simp only [rowHandoverSwap, hturn]
  exact if_neg (by simp [hgranted, hslot])

/-! ### Resync -/

/-- What the end of a pass leaves on record: the pass number and the KiB left (R434). -/
def State.passed (u : State) (left : Nat) : State :=
  (u.setFld Reg.TTH_RESYNC_STAT Fl.TTH_RESYNC_STAT_PASS (u.fld Reg.TTH_RESYNC_STAT Fl.TTH_RESYNC_STAT_PASS + 1)).setFld
    Reg.TTH_RESYNC_STAT Fl.TTH_RESYNC_STAT_DIRTY_KB (min left 65535)

/-- The end of a pass on the unit that resyncs. -/
theorem resyncPassEnd_mine {pages : List SnapPage} {left t : Nat} {s : State}
    (hmine : (s.atTime t).pstate = psRESYNC ∧ (s.atTime t).rphase = 2) :
    exec (.resyncPassEnd pages left t) s =
      if 16 ≤ (s.atTime t).fld Reg.TTH_RESYNC_STAT Fl.TTH_RESYNC_STAT_PASS + 1 ∧
          ((s.atTime t).passed left).fld Reg.TTH_CFG Fl.TTH_CFG_CUT_KB < left then
        .next ((s.atTime t).passed left).failResync
      else .next ((s.atTime t).passed left) := by
  change execResyncPassEnd pages left t s = _
  simp only [execResyncPassEnd, decide_eq_true hmine, or_true, if_true, State.passed]
  rfl

/-- The end of a pass on the active, which sends the pages of the pass. -/
theorem resyncPassEnd_serves {pages : List SnapPage} {left t : Nat} {s : State} (hserves : (s.atTime t).servesResync = true)
    (hother : ¬ ((s.atTime t).pstate = psRESYNC ∧ (s.atTime t).rphase = 2))
    (hfits : ¬ (16 ≤ ((s.atTime t).sendPages pages).fld Reg.TTH_RESYNC_STAT Fl.TTH_RESYNC_STAT_PASS + 1 ∧
      (((s.atTime t).sendPages pages).passed left).fld Reg.TTH_CFG Fl.TTH_CFG_CUT_KB < left)) :
    exec (.resyncPassEnd pages left t) s = .next (((s.atTime t).sendPages pages).passed left) := by
  change execResyncPassEnd pages left t s = _
  simp only [execResyncPassEnd, decide_eq_false hother, hserves, Bool.false_eq_true, or_false, if_true, if_false]
  exact if_neg hfits

/-- Settles O35: frames go through the reception rules, the rein, the link and resync through their rows, whose guards each
clause's condition decides. -/
theorem pairEventsComplete : Obligations.PairEventsComplete := by
  unfold Obligations.PairEventsComplete
  refine
    ⟨⟨fun t s ⟨hpaired, hpasses⟩ => (reinEdge_heard hpaired).trans (if_pos hpasses),
      fun t s ⟨hpaired, hholds, hminds, hyields⟩ =>
        (reinEdge_heard hpaired).trans ((if_neg (by simp [hholds, hminds])).trans (if_pos hyields)),
      fun t s ⟨hpaired, hholds, hminds, hstays⟩ =>
        (reinEdge_heard hpaired).trans ((if_neg (by simp [hholds, hminds])).trans (if_neg (by simp [hstays])))⟩,
    fun t s hmay => if_pos hmay,
    fun t s hquiet => if_pos hquiet,
    fun t s _ => rfl,
    fun c hc t s _ => ?fence,
    fun t s hlate => ?late,
    ⟨fun f i hi => ?bad,
      fun f => .of_inSeq f (fun v => if v.follows then v.takeMirror f.body else v) fun _ _ => rfl,
      fun f => .of_inSeq f (fun v => if v.follows then takeRecords f.body.length f.body v else v) fun _ _ => rfl,
      fun f => .of_inSeq f (fun v => v.takeLog f.body) fun _ _ => rfl,
      fun f => .of_inSeq f (fun v => if v.pstate = psRESYNC ∧ v.rphase = 2 then
        { v with pair.snap := v.pair.snap ++ [⟨u16 f.body 0, u64 f.body 4, f.body.drop 12⟩] } else v) fun _ _ => rfl,
      fun f => .of_inSeq f (fun v => if v.pstate = psSTANDBY ∨ v.pstate = psRESYNC then
        ({ v with pair.peerDigs := Tab.put v.pair.peerDigs (u64 f.body 0) (u64 f.body 8) } : State).compareDigests
          (u64 f.body 0) else v) fun _ _ => rfl,
      fun f => .of_inSeq f (fun v => v.takeControl f) fun _ _ => rfl,
      fun f => .of_inSeq f (fun v => v.takeForward f.body) fun _ _ => rfl⟩,
    fun mt t s hpaired hlink hclk => if_pos ⟨hpaired, hlink, hclk⟩,
    .of_row rowTetherDown (fun _ _ => rfl) fun t s hsilent => if_pos hsilent,
    fun rtt t s ⟨hpaired, hdown⟩ => (if_neg (by simp [hpaired])).trans (if_neg (by simp [hdown])),
    fun lane hlane t s ⟨hpaired, hlink⟩ => if_neg (by simp [hpaired, hlink, hlane]),
    ⟨fun pages left t s ⟨hmine, hfits⟩ => (resyncPassEnd_mine hmine).trans (if_neg hfits),
      fun pages left t s ⟨hmine, hover⟩ => (resyncPassEnd_mine hmine).trans (if_pos hover),
      fun pages left t s ⟨hserves, hother, hfits⟩ => resyncPassEnd_serves hserves hother hfits,
      fun pages c t s hserves => if_pos hserves,
      fun pages c t s ⟨hother, hmine⟩ => (if_neg (by simp [hother])).trans (if_pos hmine)⟩,
    fun t s hresync => if_pos hresync,
    fun t s hother => if_neg hother,
    fun j => .of_row rowHandoverSwap (fun _ _ => rfl) fun t s ⟨hturn, hgranted, hslot⟩ =>
      (rowHandoverSwap_due hturn hgranted hslot).trans (if_neg Bool.false_ne_true),
    fun j => .of_row rowHandoverSwap (fun _ _ => rfl) fun t s ⟨hturn, hgranted, hslot⟩ =>
      (rowHandoverSwap_due hturn hgranted hslot).trans (if_pos rfl),
    fun t s hdue => if_pos hdue,
    fun t s hsilent => if_pos ?silent⟩
  case fence =>
    exact (if_neg (by omega)).trans (if_pos hc)
  case late =>
    change execSelfFence 1 t s = _
    simp only [execSelfFence, if_pos, if_pos hlate]
  case bad =>
    simp only [List.mem_cons, List.not_mem_nil, or_false] at hi
    rcases hi with rfl | rfl | rfl | rfl | rfl | rfl | rfl
    all_goals exact .of_bad f _ fun _ _ => rfl
  case silent => simpa [Option.all_eq_true] using hsilent

end Sys2Proof.Machine

/-!
The commands of the effect cores (R449, R460, R487), of the scheduler (R492, R506, R512) and of the memory system (R527, R548,
R569), and DMA copies (R502 to R504).
-/

namespace Sys2Proof.Machine

/-! ### Effect-core commands -/

theorem cmdFxParamSet_of_fits {p : Packet} {u : State} {x : FxInst} (hnow : u.fxNow (u8 p.params 0) = some x)
    (hlen : p.params.length = 8 + u16 p.params 4)
    (hok : u8 p.params 1 = 0 ∧ u16 p.params 2 % 8 = 0 ∧ u16 p.params 4 % 8 = 0 ∧ u16 p.params 4 ≤ 1024 ∧
      u16 p.params 6 = 0 ∧ u16 p.params 2 + u16 p.params 4 ≤ x.pLen) :
    cmdFxParamSet p u =
      .ok { u with fx.staged := u.fx.staged ++ [⟨u8 p.params 0, u.slot + 1, u16 p.params 2, p.params.drop 8⟩] } [] := by
  refine (if_neg (not_not_intro hlen)).trans ?_
  simp only [hnow]
  exact if_neg (by simp [hok])

/-- The copy of local memory waits where a ticket of the program is running (R487). -/
theorem cmdFxMemRead_of_named {p : Packet} {u : State} {x : FxInst} (hnow : u.fxNow (u8 p.params 0) = some x)
    (hok : u8 p.params 1 = 0 ∧ u16 p.params 2 % 8 = 0 ∧ u16 p.params 4 ≤ 4096 ∧ u16 p.params 6 = 0 ∧
      u16 p.params 2 + u16 p.params 4 ≤ x.di + x.dz) :
    cmdFxMemRead p u =
      if u.fx.cores.any (fun e => e.2.inst == u8 p.params 0) then .hold u 6 (u8 p.params 0)
      else .ok u (u.fxMemBytes x p) := by
  simp only [cmdFxMemRead, hnow]
  exact if_neg (by simp [hok])

/-- Settles O20: each body passes its checks under its clause's conditions; what a program or a parameter block is checked
against is the program as it stands. -/
theorem effectCommandsComplete : Obligations.EffectCommandsComplete := by
  unfold Obligations.EffectCommandsComplete
  refine
    ⟨⟨.of_body cmdFxInstanceSet (fun _ _ => rfl)
        fun p u ⟨hop, hinst, hwhole, hcore, hprio, hzero, halign, hfree, hrsv, hinputs, hpads⟩ =>
          (if_neg (by simp [hop, hinst])).trans ((if_neg (by simp [hop])).trans ((if_neg (by simp [hwhole])).trans
            (if_neg (by simp [hcore, hprio, hzero, halign, hfree, hrsv, hinputs]; exact hpads)))),
      .of_body cmdFxInstanceSet (fun _ _ => rfl) fun p u ⟨hop, hinst, hlen⟩ =>
        (if_neg (by simp [hop, hinst])).trans ((if_pos hop).trans (if_neg (by simp [hlen])))⟩,
    .of_body cmdFxParamSet (fun _ _ => rfl) fun p u ⟨hlen, hpad, hoff, hmul, hmax, hrsv, x, hnow, hin⟩ =>
      cmdFxParamSet_of_fits hnow hlen ⟨hpad, hoff, hmul, hmax, hrsv, hin⟩,
    .of_body cmdFxQuery (fun _ _ => rfl) fun p u ⟨hinst, hzero⟩ => if_neg (by simp [hinst, hzero]),
    fun x =>
      ⟨.of_body cmdFxMemRead (fun _ _ => rfl) fun p u ⟨⟨hnow, hok⟩, hstill⟩ =>
          (cmdFxMemRead_of_named hnow hok).trans (if_neg (Bool.eq_false_iff.1 hstill)),
        .of_hold cmdFxMemRead (fun _ _ => rfl) fun p u ⟨⟨hnow, hok⟩, hruns⟩ =>
          (cmdFxMemRead_of_named hnow hok).trans (if_pos hruns)⟩⟩

/-! ### Scheduler commands -/

theorem cmdStblSubmit_of_named {p : Packet} {u : State} (hlow : 48 ≤ u8 p.params 0) (hhigh : u8 p.params 0 < 64)
    (hzero : zeroAt p.params 1 3 = true) (hok : submitOk (p.params.drop 4) = true) :
    cmdStblSubmit p u =
      if !u.room (u8 p.params 0) then .fail ((u.bump Reg.STBL_QFULL).irq Reg.STBL_IRQ_STAT Fl.STBL_IRQ_STAT_QFULL) stQFULL []
      else .ok (u.enter (u8 p.params 0) (ticketOf (p.params.drop 4)))
        (by4 ((u.enter (u8 p.params 0) (ticketOf (p.params.drop 4))).liveStbl Reg.STBL_STAT)) :=
  if_neg (by simp [hlow, hhigh, hzero, hok])

/-- Settles O21: each body passes its checks under its clause's conditions; a submission goes by the room of its queue. -/
theorem schedulerCommandsComplete : Obligations.SchedulerCommandsComplete := by
  unfold Obligations.SchedulerCommandsComplete
  refine
    ⟨.of_body cmdStblQSet (fun _ _ => rfl) fun p u ⟨hq, hzero, hrsv, hlow, hhigh, hprio, hresv, hsum⟩ =>
      (if_neg ?qset).trans (if_neg (Nat.not_lt.2 hsum)),
    .of_body cmdStblTraceSet (fun _ _ => rfl) fun p u ⟨hrsv, hbase, hspace, hsize, hmax, hdram⟩ => if_neg ?trace,
    .of_body cmdStblTraceRead (fun _ _ => rfl) fun p u ⟨hlow, hhigh, hring⟩ => if_neg (by omega),
    ⟨.of_body cmdStblSubmit (fun _ _ => rfl) fun p u ⟨⟨hlow, hhigh, hzero, hok⟩, hroom⟩ =>
        (cmdStblSubmit_of_named hlow hhigh hzero hok).trans (if_neg (by simp [hroom])),
      fun p s hadm ⟨⟨hlow, hhigh, hzero, hok⟩, hfull⟩ => runPacket_fail hadm
        ((cmdStblSubmit_of_named hlow hhigh hzero hok).trans (if_pos (congrArg not hfull)))⟩,
    .of_body cmdStblQuery (fun _ _ => rfl) fun _ _ _ => rfl⟩
  case qset =>
    simp only [hzero, hrsv, Bool.not_true, Bool.false_eq_true, false_or, not_or, not_and, Nat.not_le, Nat.not_lt,
      Decidable.not_not]
    exact ⟨hq, Nat.ne_of_gt hlow, hhigh, hprio, hresv⟩
  case trace =>
    simp only [hrsv, Bool.not_true, Bool.false_eq_true, false_or, not_or, not_and, Nat.not_le, Nat.not_lt, Decidable.not_not,
      Bool.not_eq_true', Bool.not_eq_false]
    exact ⟨hbase, hspace, hsize, hmax, hdram⟩

/-! ### Spine, on-chip memory and DRAM commands -/

/-- Settles O22: each body passes its checks under its clause's conditions; a frequency change goes by whether a training runs. -/
theorem memorySystemCommandsComplete : Obligations.MemorySystemCommandsComplete := by
  unfold Obligations.MemorySystemCommandsComplete
  refine
    ⟨.of_body cmdSpnQosSet (fun _ _ => rfl) fun p u ⟨hmaster, hzero, hrsv⟩ => if_neg (by simp [hmaster, hzero, hrsv]),
    .of_body cmdSpnCfgSet (fun _ _ => rfl) fun p u ⟨hrsv, hweights⟩ => if_neg (by simp [hrsv]; exact hweights),
    .of_body cmdSpnQuery (fun _ _ => rfl) fun _ _ _ => rfl,
    .of_body cmdSpnErrRead (fun _ _ => rfl) fun p u ⟨hlow, hhigh, hzero⟩ =>
      if_neg (by simp [Nat.ne_of_gt hlow, hhigh, hzero]),
    .of_body cmdMemCfgSet (fun _ _ => rfl) fun p u ⟨hcfg, hgroom⟩ => if_pos (by simp [hcfg, hgroom]),
    .of_body cmdMemtest (fun _ _ => rfl) fun _ _ _ => rfl,
    ⟨.of_body cmdMemRepair (fun _ _ => rfl) fun p u ⟨hop, hzero, hzero'⟩ =>
        (if_neg (by simp [hop, hzero, hzero'])).trans (if_pos hop),
      .of_body cmdMemRepair (fun _ _ => rfl) fun p u ⟨⟨hop, hzero, hzero'⟩, hbank, hrow, hspare⟩ =>
        (if_neg (by simp [hop, hzero, hzero'])).trans ((if_neg (by simp [hop])).trans
          ((if_neg (by simp [hbank, hrow])).trans (if_neg (Nat.not_le.2 hspare))))⟩,
    .of_body cmdMemQuery (fun _ _ => rfl) fun _ _ _ => rfl,
    .of_body cmdMemErrRead (fun _ _ => rfl) fun p u ⟨hlow, hhigh, hzero⟩ =>
      if_neg (by simp [Nat.ne_of_gt hlow, hhigh, hzero]),
    .of_body cmdDmcCfgSet (fun _ _ => rfl) fun p u ⟨hrsv, hlimit⟩ => if_neg (by simp [hrsv, hlimit]),
    ⟨.of_body cmdDramRetire (fun _ _ => rfl) fun p u ⟨hop, hzero, hzero'⟩ =>
        (if_neg (by simp [hop, hzero, hzero'])).trans (if_pos hop),
      .of_body cmdDramRetire (fun _ _ => rfl) fun p u ⟨⟨hop, hzero, hzero'⟩, hchan, hbank, hrow, hpool⟩ =>
        (if_neg (by simp [hop, hzero, hzero'])).trans ((if_neg (by simp [hop])).trans
          ((if_neg (by simp [hchan, hbank, hrow])).trans (if_neg (Nat.ne_of_gt hpool))))⟩,
    ⟨.of_body cmdDmcFreqSet (fun _ _ => rfl) fun p u ⟨⟨hcode, hzero⟩, hstill⟩ =>
        (if_neg (by simp [hcode, hzero])).trans (if_neg (Bool.eq_false_iff.1 hstill)),
      .of_hold cmdDmcFreqSet (fun _ _ => rfl) fun p u ⟨⟨hcode, hzero⟩, htrains⟩ =>
        (if_neg (by simp [hcode, hzero])).trans (if_pos htrains)⟩,
    .of_body cmdDmcQuery (fun _ _ => rfl) fun _ _ _ => rfl,
    .of_body cmdDmcErrRead (fun _ _ => rfl) fun p u ⟨hlow, hhigh, hzero⟩ =>
      if_neg (by simp [Nat.ne_of_gt hlow, hhigh, hzero])⟩

/-! ### DMA copies -/

theorem dmaCopyDone_clean {c t : Nat} {x : DmaRun} {s u : State} (hu : s.atTime t = u)
    (hrun : Tab.look u.stbl.dma c = some x) (hclean : u.copyClean x x.len = true) :
    exec (.dmaCopyDone c t) s = .next
      (let v := (u.copyBytes c x x.len).setFlag (Reg.STBL_DMA_STAT c) Fl.STBL_DMA_STAT_BUSY false
       State.copyEnds { v with stbl.dma := Tab.del v.stbl.dma c } c) := by
  change execDmaCopyDone c t s = _
  simp only [execDmaCopyDone, hu, hrun, hclean, if_true]

theorem dmaCopyError_fails {c off cause t : Nat} {write : Bool} {x : DmaRun} {s u : State} (hu : s.atTime t = u)
    (hrun : Tab.look u.stbl.dma c = some x) (hfails : u.copyFails x off write cause = true) :
    exec (.dmaCopyError c off write cause t) s = .next
      (let v := u.copyBytes c x off
       let a := (if write then x.dst else x.src) + off
       let e := (v.spnCause a 1 write).getD (1, 7)
       let v := if cause = 1 then v.decErr ⟨write, e.1, e.2, 12 + c, a⟩
         else if write then v else v.countPoison (memAddr a) 1
       let v := (v.wr (Reg.STBL_DMA_ERR_LO c) (a % 2 ^ 32)).wr (Reg.STBL_DMA_ERR_HI c) (maskBit 31 write + a / 2 ^ 32 % 256)
       (v.dmaFail c cause).copyEnds c) := by
  change execDmaCopyError c off write cause t s = _
  simp only [execDmaCopyError, hu, hrun, hfails, Bool.not_true, Bool.false_eq_true, if_false]

/-- Settles O29: a channel that runs a copy completes it where all its bytes meet no error, and fails where an error is met. -/
theorem copiesComplete : Obligations.CopiesComplete := by
  unfold Obligations.CopiesComplete
  exact ⟨fun _ _ _ _ ⟨hrun, hclean⟩ => dmaCopyDone_clean rfl hrun hclean,
    fun _ _ _ _ _ _ _ ⟨hrun, hfails⟩ => dmaCopyError_fails rfl hrun hfails⟩

end Sys2Proof.Machine

/-!
Transactions of the Spine (R514, R524, R543), and what on-chip memory and DRAM do by themselves (R535 to R564).
-/

namespace Sys2Proof.Machine

/-! ### Transactions of the Spine -/

/-- A transaction at an open port goes on with an older one, is a burst that R514 forbids, or is a new request. -/
theorem spineTransaction_open {x : SpineReq} {t : Nat} {s : State} (hopen : (s.atTime t).portOpen x.master = true) :
    exec (.spineTransaction x t) s =
      if x.cont then .next ((s.atTime t).goOn x)
      else if !burstOk x then .fault (.dutyBroken 514)
      else .next ((s.atTime t).request x) :=
  if_neg (by simp [hopen])

theorem State.aliasRow_open {u : State} {m a : Nat} {data : List Byte} {strobes : List Bool} (hopen : u.portOpen m = true)
    (hburst : burstOk (aliasReq m a data strobes) = true) :
    u.aliasRow m a data strobes = u.request (aliasReq m a data strobes) :=
  if_pos (by simp [hopen, hburst])

/-- Settles O37: an open port handles what is put to it by whether it goes on and by the duty of R514; an aliased write is a
request of its own. -/
theorem spineEventsComplete : Obligations.SpineEventsComplete := by
  unfold Obligations.SpineEventsComplete
  exact
    ⟨fun x t s ⟨hopen, hnew, hburst⟩ =>
      (spineTransaction_open hopen).trans ((if_neg (by simp [hnew])).trans (if_neg (by simp [hburst]))),
    fun x t s ⟨hopen, hcont⟩ => (spineTransaction_open hopen).trans (if_pos hcont),
    fun x t s hopen hnew hburst =>
      (spineTransaction_open hopen).trans ((if_neg (by simp [hnew])).trans (if_pos (by simp [hburst]))),
    fun m t s hdrain => if_pos hdrain,
    fun m a data strobes t s ⟨hopen, hburst⟩ => congrArg Host.Outcome.next (State.aliasRow_open hopen hburst),
    fun m a data strobes t s ⟨hopen, hburst⟩ => congrArg Host.Outcome.next (State.aliasRow_open hopen hburst)⟩

/-! ### On-chip memory -/

/-- A step that meets a demand access is tried again, until the region is given up (R537). -/
theorem groomerAbort_steps {t : Nat} {s v : State} (hv : (s.atTime t).bump Reg.MEM_GRM_ABORT = v)
    (hon : (s.atTime t).groomOn = true) (hdue : ∀ r, (s.atTime t).memc.retryAt = some r → r ≤ (s.atTime t).now) :
    exec (.groomerAbort t) s =
      if max 1 (v.fld Reg.MEM_GRM_CFG Fl.MEM_GRM_CFG_MAX_ABORT) ≤ (s.atTime t).memc.aborts + 1 then
        .next (v.bump Reg.MEM_GRM_SKIP).nextRegion
      else .next { v with
        memc.aborts := v.memc.aborts + 1
        memc.retryAt := some (v.now + max 1 (v.fld Reg.MEM_GRM_CFG Fl.MEM_GRM_CFG_BACKOFF) * 10000) } := by
  have hwaits : (s.atTime t).memc.retryAt.any (fun r => decide ((s.atTime t).now < r)) = false := by
    simpa [Option.any_eq_false] using hdue
  rw [← (s.atTime t).bump_memc (a := Reg.MEM_GRM_ABORT), hv]
  subst hv
  exact if_neg (by simp [hon, hwaits])

theorem groomerRetry_due {ue : List (Nat × Nat)} {rows : List Nat} {r t : Nat} {s u : State} (hu : s.atTime t = u)
    (hretry : u.memc.retryAt = some r) (hon : u.groomOn = true) (hdue : r ≤ u.now) :
    exec (.groomerRetry ue rows t) s = .next (u.groomStep ue rows) := by
  change execGroomerRetry ue rows t s = _
  simp only [execGroomerRetry, hu, hretry, hon, hdue, decide_true, Bool.and_self, if_true]

theorem rowRepair_listed {bank row t : Nat} {e : Nat × Nat × Nat} {s u : State} (hu : s.atTime t = u)
    (hlisted : u.memc.list.find? (fun e => e.1 == bank && e.2.1 == row) = some e)
    (hauto : u.flag Reg.MEM_CFG Fl.MEM_CFG_AUTO_REPAIR = true) :
    exec (.rowRepair bank row t) s = .next (u.repairRow bank row e.2.2) := by
  change execRowRepair bank row t s = _
  simp only [execRowRepair, hu, hlisted, hauto, if_true]

/-! ### DRAM -/

/-- A refresh that is due is postponed where the bank has a request, at most eight times (R559). -/
theorem refresh_lives {chan bank t : Nat} {s : State} (hpower : (s.atTime t).dramPowered = true)
    (hself : (s.atTime t).flag Reg.DMC_STAT Fl.DMC_STAT_SELF_REF = false) :
    exec (.refresh chan bank t) s =
      let u := s.atTime t
      let n := Tab.at u.dmc.postponed 0 (16 * chan + bank)
      if u.spn.txns.any (fun x => x.target == 10 + chan && (dramLoc (x.addr - dramBase)).bank == bank) && decide (n < 8) then
        .next { u with dmc.postponed := Tab.put u.dmc.postponed (16 * chan + bank) (n + 1) }
      else .next { u with dmc.postponed := Tab.del u.dmc.postponed (16 * chan + bank) } :=
  if_neg (by simp [hpower, hself])

/-- Entry to self-refresh completes unless a request arrives before it (R561). -/
theorem selfRefreshEntry_entering {abort : Bool} {t : Nat} {s : State} (henter : (s.atTime t).domState dDRAM = pENTER) :
    exec (.selfRefreshEntry abort t) s =
      let u := s.atTime t
      if abort || u.spineBusy dDRAM then
        .next { (u.bump Reg.DMC_SR_ABORT).setDom dDRAM pON with pwr.active := Tab.put u.pwr.active dDRAM u.now }
      else
        .next ((((u.bump Reg.DMC_SR_ENTRY).setFlag Reg.DMC_STAT Fl.DMC_STAT_SELF_REF true).setDom dDRAM pRET).bump
          Reg.PWR_RET_ENTRY) :=
  if_neg (by simp [henter])

/-- What a calibration notes: that it was forced, and that a result was repeated (R564). -/
def State.calNoted (u : State) (chan : Nat) (forced : Bool) (outs : Nat) : State :=
  (if forced then u.bump Reg.DMC_CAL_FORCED else u).setFlag (Reg.DMC_CH_STAT chan) Fl.DMC_CH_STAT_CAL_RETRY
    (decide (1 ≤ outs))

theorem calibration_lives {chan outs t : Nat} {forced : Bool} {s : State} (hpower : (s.atTime t).dramPowered = true)
    (hself : (s.atTime t).flag Reg.DMC_STAT Fl.DMC_STAT_SELF_REF = false) :
    exec (.calibration chan forced outs t) s =
      if 2 ≤ outs then .next ((((s.atTime t).calNoted chan forced outs).setFlag (Reg.DMC_CH_STAT chan)
        Fl.DMC_CH_STAT_UP false).dramFail 2)
      else .next ((s.atTime t).calNoted chan forced outs) :=
  if_neg (by simp [hpower, hself])

/-- Since when readings have been cool, after a reading (R562). -/
def coolFrom (temp : Int) (since : Option Nat) (now : Nat) : Option Nat :=
  if temp ≤ 85 then (match since with | some c => some c | none => some now) else none

theorem coolFrom_cool {temp : Int} (since : Option Nat) (now : Nat) (hcool : temp ≤ 85) :
    coolFrom temp since now = some (since.getD now) := by
  refine (if_pos hcool).trans ?_
  cases since <;> rfl

theorem coolFrom_hot {temp : Int} (since : Option Nat) (now : Nat) (hhot : 85 < temp) : coolFrom temp since now = none :=
  if_neg (Int.not_le.2 hhot)

/-- The registers after a temperature reading: the reading, and whether it is hot (R562). -/
def State.thermRead (u : State) (temp : Int) : State :=
  (u.setFld Reg.DMC_STAT Fl.DMC_STAT_TEMP (ofS 8 temp)).setFlag Reg.DMC_STAT Fl.DMC_STAT_HOT (decide (85 < temp))

@[simp] theorem State.thermRead_dmc (u : State) (temp : Int) : (u.thermRead temp).dmc = u.dmc := by
  rw [State.thermRead, State.setFlag_dmc, State.setFld_dmc]

@[simp] theorem State.thermRead_now (u : State) (temp : Int) : (u.thermRead temp).now = u.now := by
  rw [State.thermRead, State.setFlag_now, State.setFld_now]

/-- The instant since when readings have been cool is put down. -/
def State.withCool (v : State) (c : Option Nat) : State := { v with dmc.coolSince := c }

@[simp] theorem State.withCool_thermDrop (v : State) (c : Option Nat) : (v.withCool c).dmc.thermDrop = v.dmc.thermDrop := rfl

@[simp] theorem State.withCool_now (v : State) (c : Option Nat) : (v.withCool c).now = v.now := rfl

/-- What a temperature reading leaves: its registers, and since when readings have been cool. -/
def State.thermHeard (u : State) (temp : Int) : State :=
  (u.thermRead temp).withCool (coolFrom temp (u.thermRead temp).dmc.coolSince (u.thermRead temp).now)

theorem State.thermHeard_thermDrop (u : State) (temp : Int) : (u.thermHeard temp).dmc.thermDrop = u.dmc.thermDrop := by
  rw [State.thermHeard, State.withCool_thermDrop, State.thermRead_dmc]

theorem State.thermHeard_now (u : State) (temp : Int) : (u.thermHeard temp).now = u.now := by
  rw [State.thermHeard, State.withCool_now, State.thermRead_now]

/-- What is done about a reading that has been heard, where readings have been cool since `cool` (R562). -/
def State.thermStep (v : State) (temp : Int) (cool : Option Nat) : Out :=
  if 95 ≤ temp ∧ v.fld Reg.DMC_STAT Fl.DMC_STAT_FSP_NOW = 0 then .next { v.thermChange 1 with dmc.thermDrop := true }
  else
    match cool with
    | some c =>
      if v.dmc.thermDrop = true ∧ c + 10000000000 ≤ v.now then
        let v := { v with dmc.thermDrop := false }
        if v.fld Reg.DMC_CFG Fl.DMC_CFG_FSP = 0 then .next (v.thermChange 0) else .next v
      else .next v
    | none => .next v

/-- The automatic drop ends: a commanded code 0 takes effect again (R562). -/
def State.dropEnds (v : State) : State :=
  let v := { v with dmc.thermDrop := false }
  if v.fld Reg.DMC_CFG Fl.DMC_CFG_FSP = 0 then v.thermChange 0 else v

theorem State.thermStep_cool (v : State) {temp : Int} (c : Nat) (hcool : temp ≤ 85) :
    v.thermStep temp (some c) =
      if v.dmc.thermDrop = true ∧ c + 10000000000 ≤ v.now then .next v.dropEnds else .next v := by
  refine (if_neg fun hhot => absurd hhot.1 (by omega)).trans ?_
  rw [State.dropEnds, apply_ite Host.Outcome.next]

theorem dramThermal_powered {temp : Int} {t : Nat} {s : State} (hpower : (s.atTime t).dramPowered = true) :
    exec (.dramThermal temp t) s = ((s.atTime t).thermHeard temp).thermStep temp
      (coolFrom temp ((s.atTime t).thermRead temp).dmc.coolSince ((s.atTime t).thermRead temp).now) :=
  if_neg (by rw [hpower]; decide)

/-- The highest set point is left at 95 °C (R562). -/
theorem dramThermal_drops {temp : Int} {t : Nat} {s : State} (hpower : (s.atTime t).dramPowered = true) (hhot : 95 ≤ temp)
    (hfsp : ((s.atTime t).thermHeard temp).fld Reg.DMC_STAT Fl.DMC_STAT_FSP_NOW = 0) :
    exec (.dramThermal temp t) s =
      .next { ((s.atTime t).thermHeard temp).thermChange 1 with dmc.thermDrop := true } :=
  (dramThermal_powered hpower).trans (if_pos ⟨hhot, hfsp⟩)

/-- Another hot reading is only heard. -/
theorem dramThermal_hot {temp : Int} {t : Nat} {s : State} (hpower : (s.atTime t).dramPowered = true) (hhot : 85 < temp)
    (hstays : ¬ (95 ≤ temp ∧ ((s.atTime t).thermHeard temp).fld Reg.DMC_STAT Fl.DMC_STAT_FSP_NOW = 0)) :
    exec (.dramThermal temp t) s = .next ((s.atTime t).thermHeard temp) := by
  rw [dramThermal_powered hpower, coolFrom_hot _ _ hhot]
  exact if_neg hstays

/-- A cool reading ends the automatic drop once readings have been cool for 10 s (R562). -/
theorem dramThermal_cool {temp : Int} {t : Nat} {s : State} (hpower : (s.atTime t).dramPowered = true) (hcool : temp ≤ 85) :
    exec (.dramThermal temp t) s =
      if (s.atTime t).dmc.thermDrop = true ∧ (s.atTime t).dmc.coolSince.getD (s.atTime t).now + 10000000000 ≤ (s.atTime t).now
      then .next ((s.atTime t).thermHeard temp).dropEnds
      else .next ((s.atTime t).thermHeard temp) := by
  rw [dramThermal_powered hpower, coolFrom_cool _ _ hcool, State.thermRead_dmc, State.thermRead_now,
    State.thermStep_cool _ _ hcool, State.thermHeard_thermDrop, State.thermHeard_now]

/-- Settles O38: each row's guard is decided by the statement's condition; a temperature reading goes by its heat and by how long
it has been cool. -/
theorem memoryEventsComplete : Obligations.MemoryEventsComplete := by
  unfold Obligations.MemoryEventsComplete
  refine
    ⟨fun ue rows t s ⟨hon, hfresh⟩ => if_pos (by simp [hon, hfresh]),
    ⟨fun t s ⟨⟨hon, hdue⟩, hlast⟩ => (groomerAbort_steps rfl hon hdue).trans ?last,
      fun t s ⟨⟨hon, hdue⟩, hmore⟩ => (groomerAbort_steps rfl hon hdue).trans ?more⟩,
    fun ue rows r t s ⟨hretry, hon, hdue⟩ => groomerRetry_due rfl hretry hon hdue,
    fun bank row e t s ⟨hlisted, hauto⟩ => rowRepair_listed rfl hlisted hauto,
    fun chan bank row t s ⟨hauto, hlisted⟩ => if_pos (by simp [hauto, hlisted]),
    ⟨fun chan bank t s ⟨⟨hpower, hself⟩, hqueued, hfew⟩ =>
        (refresh_lives hpower hself).trans (if_pos ?queued),
      fun chan bank t s ⟨⟨hpower, hself⟩, hruns⟩ => (refresh_lives hpower hself).trans (if_neg ?runs)⟩,
    fun chan bank t s _ => rfl,
    fun t s ⟨henter, hquiet⟩ => (selfRefreshEntry_entering henter).trans (if_neg (by simp [hquiet])),
    fun t s henter => (selfRefreshEntry_entering henter).trans (if_pos (Bool.true_or _)),
    fun t s hself => if_pos hself,
    ⟨fun chan forced outs hfew t s ⟨hpower, hself⟩ => (calibration_lives hpower hself).trans (if_neg (Nat.not_le.2 hfew)),
      fun chan forced outs hboth t s ⟨hpower, hself⟩ => (calibration_lives hpower hself).trans (if_pos hboth)⟩,
    ⟨fun temp hhot t s ⟨hpower, hfsp⟩ => dramThermal_drops hpower hhot hfsp,
      fun temp hhot t s ⟨hpower, hstays⟩ => dramThermal_hot hpower hhot hstays,
      fun temp hcool t s ⟨hpower, hstays⟩ => (dramThermal_cool hpower hcool).trans (if_neg hstays),
      fun temp hcool t s ⟨hpower, hover⟩ => (dramThermal_cool hpower hcool).trans (if_pos hover)⟩,
    fun cause hlow hhigh t s hpower => if_pos ⟨hpower, hlow, hhigh⟩⟩
  case last => exact if_pos hlast
  case more => exact if_neg (Nat.not_le.2 hmore)
  case queued => exact Bool.and_eq_true_iff.2 ⟨hqueued, decide_eq_true hfew⟩
  case runs =>
    rcases hruns with hnone | hmany
    · exact fun hqueued => Bool.false_ne_true (hnone.symm.trans (Bool.and_eq_true_iff.1 hqueued).1)
    · rw [decide_eq_false (Nat.not_lt.2 hmany), Bool.and_false]
      exact Bool.false_ne_true

end Sys2Proof.Machine

/-!
The modes in which aliased addresses are enabled (R544).
-/

namespace Sys2Proof.Machine

/-! ### Aliased addresses -/

theorem State.aliasOn_iff (s : State) :
    s.aliasOn = true ↔ s.mode = mBOOT ∨ s.mode = mLOAD ∨ s.mode = mSERVICE ∨ s.mode = mFAULT := by
  simp [State.aliasOn]

/-- `ALIAS_EN` reads as the mode allows (R544). -/
theorem State.view_memCfg_aliasEn (s : State) : (s.view Reg.MEM_CFG).testBit 29 = s.aliasOn := by
  have hview : s.view Reg.MEM_CFG = setBitN (s.rd Reg.MEM_CFG) 29 s.aliasOn := rfl
  rw [hview, setBitN, testBit_setBitsN_bit]
  cases s.aliasOn <;> rfl

/-- The aliased regions: of bit-set writes (14) and of bit-clear writes (15). -/
def inAlias (a k : Nat) : Prop :=
  (0x20000000 ≤ a ∧ a < 0x40000000 ∧ k = 14) ∨ (0x60000000 ≤ a ∧ a < 0x80000000 ∧ k = 15)

theorem spnTarget_of_inAlias (g : Grade) {a k : Nat} (h : inAlias a k) : spnTarget g a = some k := by
  obtain ⟨hlow, hhigh, rfl⟩ | ⟨hlow, hhigh, rfl⟩ := h
  all_goals
    unfold spnTarget
    repeat rw [if_neg (by omega)]
    exact if_pos ⟨hlow, hhigh⟩

/-- An aliased region is of no power domain of its own. -/
theorem State.drainHolds_of_inAlias (u : State) {a k : Nat} (h : inAlias a k) (b : Nat) : u.drainHolds k b = false := by
  obtain ⟨_, _, rfl⟩ | ⟨_, _, rfl⟩ := h <;> rfl

theorem State.spnCause_aliasOff {u : State} {a k : Nat} (h : inAlias a k) (hoff : u.aliasOn = false) (n : Nat)
    (write : Bool) : u.spnCause a n write = some (3, k) := by
  simp only [State.spnCause, spnTarget_of_inAlias _ h]
  obtain ⟨_, _, rfl⟩ | ⟨_, _, rfl⟩ := h <;> exact (if_pos (by decide)).trans (if_pos (by rw [hoff]; rfl))

/-- A new transaction at an aliased address while these are not enabled gets an error answer of cause 3 (R544). -/
theorem State.request_aliasOff {u : State} {x : SpineReq} {k : Nat} (h : inAlias x.addr k) (hoff : u.aliasOn = false)
    (hord : u.heldOrd x.master x.tid k = false) (hcap : u.heldCap x.master k = false) :
    u.request x = u.errorAnswer x 3 k := by
  simp [State.request, spnTarget_of_inAlias _ h, State.spnCause_aliasOff h hoff, hoff, hord, hcap,
    u.drainHolds_of_inAlias h]

/-- A transaction at an aliased address that was accepted goes on whatever the mode (R519, R544). -/
theorem State.goOn_alias {u : State} {x : SpineReq} {y : SpnTxn}
    (hfound : u.spn.txns.find? (fun z => z.master == x.master && z.tid == x.tid) = some y) (halias : 14 ≤ y.target) :
    u.goOn x =
      let n := min (x.moved - y.doneBytes) (y.size - y.doneBytes)
      let r := u.perform x y.target y.addr y.doneBytes n y.write
      let v := r.1.touchEnds y.master y.target y.addr
      if y.doneBytes + n < y.size then
        { v with spn.txns := v.spn.txns.map (fun z => if z = y then { y with doneBytes := y.doneBytes + n } else z) }
      else ({ v with spn.txns := v.spn.txns.erase y } : State).answerTxn y r.2.1 r.2.2 := by
  have hdram : (decide (10 ≤ y.target) && decide (y.target ≤ 13)) = false := by
    rw [decide_eq_false (show ¬ y.target ≤ 13 by omega), Bool.and_false]
  simp only [State.goOn, hfound, hdram, Bool.false_and, Bool.false_eq_true, if_false]

/-- Settles O56: outside its four modes the Spine answers an aliased address with cause 3 before anything else is asked of the target, and
what was accepted does not ask the mode again. -/
theorem aliasesNeedTheirModes : Obligations.AliasesNeedTheirModes := by
  unfold Obligations.AliasesNeedTheirModes
  refine ⟨State.aliasOn_iff, State.view_memCfg_aliasEn, ?refused, ?goesOn⟩
  case refused =>
    intro x t s k u halias hopen hnew hburst hord hcap hoff
    refine (spineTransaction_open hopen).trans ((if_neg (by simp [hnew])).trans ((if_neg (by simp [hburst])).trans ?_))
    exact congrArg Host.Outcome.next (State.request_aliasOff halias hoff hord hcap)
  case goesOn =>
    intro x t s y u n r v hopen hcont hfound halias
    have hgoes := ((spineTransaction_open hopen).trans (if_pos hcont)).trans
      (congrArg Host.Outcome.next (State.goOn_alias hfound halias))
    exact ⟨fun hlast => hgoes.trans (congrArg Host.Outcome.next (if_neg (Nat.not_lt.2 hlast))),
      fun hmore => hgoes.trans (congrArg Host.Outcome.next (if_pos hmore))⟩

end Sys2Proof.Machine

/-!
Where memory is stored: packets, transactions and aliased writes (R514, R543, R591).
-/

namespace Sys2Proof.Machine

/-! ### Bytes outside a list of addresses -/

/-- Every byte of memory outside `l` reads in `t` as it did in `s`. -/
def SameBut (l : List Nat) (s t : State) : Prop := ∀ b, b ∉ l → t.rdByte b = s.rdByte b

namespace SameBut
variable {l : List Nat} {s t u : State}

theorem rfl' (l : List Nat) (s : State) : SameBut l s s := fun _ _ => rfl

theorem trans (h : SameBut l s t) (k : SameBut l t u) : SameBut l s u := fun b hb => (k b hb).trans (h b hb)

/-- What is quiet changes no byte at all. -/
theorem of_keeps (h : Keeps true s t) : SameBut l s t := fun b _ => State.rdByte_congr (h.same rfl).1 b

theorem ite {c : Prop} [Decidable c] {a b : State} (ha : SameBut l s a) (hb : SameBut l s b) :
    SameBut l s (if c then a else b) := by
  split <;> assumption

theorem foldl {α : Type} {f : State → α → State} (es : List α) (hf : ∀ e ∈ es, ∀ t, SameBut l t (f t e)) :
    SameBut l s (es.foldl f s) := by
  induction es generalizing s with
  | nil => exact rfl' l s
  | cons e es ih =>
    exact (hf e (List.mem_cons_self ..) s).trans (ih fun x hx => hf x (List.mem_cons_of_mem _ hx))

end SameBut

theorem State.wrByte_sameBut (s : State) {a : Nat} {l : List Nat} (v : Byte) (ha : a ∈ l) : SameBut l s (s.wrByte a v) :=
  fun b hb => (s.rdByte_wrByte a b v).trans (if_neg fun hba : b = a => hb (hba.symm ▸ ha))

/-! ### A command's body and its packet -/

theorem State.runBody_keeps_body (v : State) (sp : CmdSpec) (p : Packet) (body : State → CmdRes) :
    Keeps true (body (v.bump Reg.CMD_RX)).state (v.runBody sp p body) := by
  unfold State.runBody
  cases hbody : body (v.bump Reg.CMD_RX) with
  | ok u res => exact State.finishOk_keeps (.rfl' true u)
  | fail u st res => exact State.reply_keeps (.rfl' true u)
  | long u args =>
    exact Keeps.mk_iff.2 (Keeps.ite (State.logToStandby_keeps (.rfl' true u)) (.rfl' true u))
  | hold u kind arg => exact Keeps.mk_iff.2 (.rfl' true u)
  | done u => exact .rfl' true u

section
variable {sp : CmdSpec} {p : Packet} {body : State → CmdRes} {l : List Nat}

theorem State.settle_sameBut (v : State) (w : Verdict) (hbody : ∀ u, SameBut l u (body u).state) :
    SameBut l v (v.settle w sp p body) := by
  by_cases hrun : w = .run
  · subst hrun
    have hsafe : Keeps true v (if v.mode = mSAFE then v.logEventFree 0x1783 sp.opcode else v) :=
      Keeps.ite (State.logEventFree_keeps (.rfl' true v)) (.rfl' true v)
    exact ((SameBut.of_keeps hsafe).trans (.of_keeps (State.bump_keeps (.rfl' true _)))).trans
      ((hbody _).trans (.of_keeps (State.runBody_keeps_body _ sp p body)))
  · have hother : v.settle w sp p body = v.settle w sp p .done := by
      cases w with
      | run => exact absurd rfl hrun
      | authFail tagged => cases tagged <;> rfl
      | replay reply => cases reply <;> rfl
      | refuse st => rfl
      | busy => rfl
      | forward => rfl
    rw [hother]
    exact .of_keeps (State.settle_keeps (.rfl' true v) fun _ h => .done h)

/-- A packet changes no byte that its command's body leaves. -/
theorem runPacket_sameBut {s t : State} (hbody : ∀ u, SameBut l u (body u).state) (h : runPacket sp p body s = .next t) :
    SameBut l s t := by
  have htime : Keeps true s (s.atTime p.time) := State.atTime_keeps (.rfl' true s)
  unfold runPacket at h
  dsimp only at h
  by_cases hsilent : (!(s.atTime p.time).answers p.port) = true
  · rw [if_pos hsilent] at h
    cases h
    exact .of_keeps htime
  rw [if_neg hsilent] at h
  split at h
  · cases h
    exact (SameBut.of_keeps (State.acceptNonce_keeps (State.irq_keeps htime))).trans (State.settle_sameBut _ _ hbody)
  · cases h
    exact .of_keeps (State.buffer_keeps (State.irq_keeps htime))

end

theorem State.wrBytes_sameBut (s : State) (a : Nat) (bs : List Byte) :
    SameBut ((List.range bs.length).map (fun k => a + k)) s (s.wrBytes a bs) := by
  intro b hb
  refine s.rdByte_wrBytes_other bs a b ?_
  refine Decidable.byContradiction fun hin => hb (List.mem_map.2 ⟨b - a, List.mem_range.2 (by omega), by omega⟩)

/-- `BULK_WRITE` stores its data at its address and nothing else (R591). -/
theorem cmdBulkWrite_sameBut (p : Packet) (u : State) :
    SameBut ((List.range (p.params.length - 8)).map (fun k => u64 p.params 0 + k)) u (cmdBulkWrite p u).state := by
  unfold cmdBulkWrite
  dsimp only
  split
  · exact .rfl' _ u
  · rw [← List.length_drop]
    exact u.wrBytes_sameBut (u64 p.params 0) (p.params.drop 8)

/-! ### Writes of transactions -/

/-- The strobed bytes of a write have offsets within its data. -/
theorem lt_length_of_mem_strobed {data : List Byte} {strobes : List Bool} {e : Nat × Byte} (he : e ∈ strobed data strobes) :
    e.1 < data.length := by
  obtain ⟨x, hx, rfl⟩ := List.mem_map.1 he
  have hlt := List.snd_lt_of_mem_zipIdx (List.mem_filter.1 hx).1
  simp only [List.length_zip] at hlt
  dsimp only
  omega

theorem State.memWrite_sameBut (s : State) (a : Nat) (bs : List (Nat × Byte)) :
    SameBut (bs.map (fun e => a + e.1)) s (s.memWrite a bs).1 := by
  unfold State.memWrite
  refine .trans (t := { s with poison := _ }) (fun _ _ => rfl) (SameBut.foldl bs fun e he t => ?_)
  exact .ite (.rfl' _ t) (t.wrByte_sameBut e.2 (List.mem_map.2 ⟨e, he, rfl⟩))

theorem State.aliasWrite_sameBut (s : State) (set : Bool) (a : Nat) (bs : List (Nat × Byte)) :
    SameBut (bs.map (fun e => a + e.1)) s (s.aliasWrite set a bs).1 := by
  unfold State.aliasWrite
  exact SameBut.foldl bs fun e he t => .ite (.rfl' _ t) (t.wrByte_sameBut _ (List.mem_map.2 ⟨e, he, rfl⟩))

/-- A write at an address of the map stores behind it (R543). -/
theorem State.mapWrite_sameBut (s : State) (a : Nat) (bs : List (Nat × Byte)) :
    SameBut (bs.map (fun e => memAddr a + e.1)) s (s.mapWrite a bs).1 := by
  by_cases hset : 0x20000000 ≤ a ∧ a < 0x40000000
  · rw [State.mapWrite, if_pos hset]
    exact s.aliasWrite_sameBut true (memAddr a) bs
  by_cases hclear : 0x60000000 ≤ a ∧ a < 0x80000000
  · rw [State.mapWrite, if_neg hset, if_pos hclear]
    exact s.aliasWrite_sameBut false (memAddr a) bs
  · have hplain : memAddr a = a := if_neg (not_or.2 ⟨hset, hclear⟩)
    rw [State.mapWrite, if_neg hset, if_neg hclear, hplain]
    exact s.memWrite_sameBut a bs

/-- The memory behind the bytes of one 4 KiB page is as contiguous as they are. -/
theorem memAddr_add {a k : Nat} (hpage : a / 4096 = (a + k) / 4096) : memAddr (a + k) = memAddr a + k := by
  by_cases halias : (0x20000000 ≤ a ∧ a < 0x40000000) ∨ (0x60000000 ≤ a ∧ a < 0x80000000)
  · rw [memAddr, memAddr, if_pos halias, if_pos (by omega)]
    omega
  · rw [memAddr, memAddr, if_neg halias, if_neg (by omega)]

/-- The bytes of memory behind `n` bytes from `a` on (R543). -/
def cellsBehind (a n : Nat) : List Nat := (List.range n).map (fun k => memAddr (a + k))

theorem mem_cellsBehind {x : SpineReq} (hburst : burstOk x = true) {k : Nat} (hk : k < x.size) :
    memAddr x.addr + k ∈ cellsBehind x.addr x.size := by
  simp only [burstOk, Bool.and_eq_true, decide_eq_true_eq, beq_iff_eq] at hburst
  obtain ⟨⟨_, _⟩, hpage⟩ := hburst
  exact List.mem_map.2 ⟨k, List.mem_range.2 hk, memAddr_add (by omega)⟩

/-- A beat of a request that writes stores only behind the request's addresses. -/
theorem State.perform_write_sameBut (s : State) {x : SpineReq} (hburst : burstOk x = true) (k : Nat) {n : Nat}
    (hn : n ≤ x.size) : SameBut (cellsBehind x.addr x.size) s (s.perform x k x.addr 0 n true).1 := by
  have hcount : Keeps true s (s.countBeats x.master k x.addr (if n = 0 then 0 else beatsOf (x.addr + 0) n) true) :=
    State.countBeats_keeps (.rfl' true s)
  refine (SameBut.of_keeps hcount).trans fun b hb => ?_
  refine State.mapWrite_sameBut _ x.addr (strobed (x.data.take n) (x.strobes.take n)) b fun hin => hb ?_
  obtain ⟨e, he, rfl⟩ := List.mem_map.1 hin
  have hlt := lt_length_of_mem_strobed he
  rw [List.length_take] at hlt
  exact mem_cellsBehind hburst (by omega)

/-- A beat of a request that reads without meeting an error changes no byte. -/
theorem State.perform_read_sameBut (s : State) {x : SpineReq} (hecc : x.ecc = []) (k addr off n : Nat) :
    SameBut [] s (s.perform x k addr off n false).1 := by
  unfold State.perform
  rw [hecc]
  exact .of_keeps (State.countPoison_keeps (State.countBeats_keeps (.rfl' true s)))

section
variable {l : List Nat}

/-- A granted request changes only what its performed beats change. -/
theorem State.takeTxn_sameBut (s : State) (x : SpineReq) (k : Nat)
    (hperform : ∀ t : State, SameBut l t (t.perform x k x.addr 0 (min x.moved x.size) x.write).1) :
    SameBut l s (s.takeTxn x k) := by
  unfold State.takeTxn
  extract_lets granted y dram waiting src served n r ended
  have hgranted : Keeps true s granted := State.unhold_keeps (State.txnEvent_keeps (State.grant_keeps (.rfl' true s)))
  have hserved : Keeps true granted served :=
    Keeps.ite (State.dramServe_keeps (.rfl' true granted)) (.rfl' true granted)
  have hended : Keeps true r.1 ended := State.touchEnds_keeps (.rfl' true _)
  refine (SameBut.of_keeps hgranted).trans (.ite (.of_keeps ?waits) ((SameBut.of_keeps hserved).trans ?runs))
  case waits => exact Keeps.mk_iff.2 (State.touchEnds_keeps (.rfl' true _))
  case runs =>
    refine ((hperform served).trans (.of_keeps hended)).trans (.ite (.of_keeps ?more) (.of_keeps ?last))
    case more => exact Keeps.mk_iff.2 (.rfl' true _)
    case last => exact State.answerTxn_keeps (.rfl' true _)

/-- A new request is refused or held, is one at the registers, or is granted at a memory. -/
theorem State.request_sameBut (s : State) (x : SpineReq)
    (htake : ∀ k : Nat, SameBut l s (s.takeTxn x k)) : SameBut l s (s.request x) := by
  have hrefl : Keeps true s s := .rfl' true s
  unfold State.request
  extract_lets k j
  refine .ite (.of_keeps (State.holdOrd_keeps hrefl)) (.ite (.of_keeps (State.holdCap_keeps hrefl)) (.ite (.rfl' l s) ?_))
  cases s.spnCause x.addr x.size x.write with
  | some c => exact .of_keeps (State.errorAnswer_keeps hrefl)
  | none =>
    refine .ite (.rfl' l s) (.ite (.ite ?_ ?_) (htake k))
    · exact .of_keeps (State.errorAnswer_keeps hrefl)
    · exact .of_keeps (State.regTxn_keeps (State.grant_keeps hrefl))

/-- A burst that R514 allows stores only behind its addresses, and one that reads without meeting an error stores nothing. -/
theorem State.request_write_sameBut (s : State) {x : SpineReq} (hburst : burstOk x = true) (hwrite : x.write = true) :
    SameBut (cellsBehind x.addr x.size) s (s.request x) := by
  refine s.request_sameBut x fun k => s.takeTxn_sameBut x k fun t => ?_
  rw [hwrite]
  exact t.perform_write_sameBut hburst k (Nat.min_le_right _ _)

theorem State.request_read_sameBut (s : State) {x : SpineReq} (hread : x.write = false) (hecc : x.ecc = []) :
    SameBut [] s (s.request x) := by
  refine s.request_sameBut x fun k => s.takeTxn_sameBut x k fun t => ?_
  rw [hread]
  exact t.perform_read_sameBut hecc k _ _ _

/-- A transaction that is new changes what its request does, where it has a next state. -/
theorem spineTransaction_sameBut {x : SpineReq} {t : Nat} {s u : State} (hnew : x.cont = false)
    (hrequest : burstOk x = true → ∀ v : State, SameBut l v (v.request x)) (h : exec (.spineTransaction x t) s = .next u) :
    SameBut l s u := by
  have htime : SameBut l s (s.atTime t) := .of_keeps (State.atTime_keeps (.rfl' true s))
  change execSpineTransaction x t s = _ at h
  simp only [execSpineTransaction, hnew, Bool.false_eq_true, if_false] at h
  by_cases hclosed : (!(s.atTime t).portOpen x.master) = true
  · rw [if_pos hclosed] at h
    cases h
    exact htime
  rw [if_neg hclosed] at h
  by_cases hforbidden : (!burstOk x) = true
  · rw [if_pos hforbidden] at h
    cases h
  · rw [if_neg hforbidden] at h
    cases h
    exact htime.trans (hrequest (by simpa using hforbidden) _)

theorem State.aliasRow_sameBut (s : State) (m a : Nat) (data : List Byte) (strobes : List Bool) :
    SameBut (cellsBehind a data.length) s (s.aliasRow m a data strobes) := by
  unfold State.aliasRow
  dsimp only
  split
  next hopen => exact s.request_write_sameBut (Bool.and_eq_true_iff.1 hopen).2 rfl
  · exact .rfl' _ s

theorem State.atTime_aliasRow_sameBut (s : State) (t m a : Nat) (data : List Byte) (strobes : List Bool) :
    SameBut (cellsBehind a data.length) s ((s.atTime t).aliasRow m a data strobes) :=
  (SameBut.of_keeps (State.atTime_keeps (.rfl' true s))).trans (State.aliasRow_sameBut _ m a data strobes)

end

/-- Settles O53: a packet leaves what its body leaves, and every step of a transaction but its performed beats is quiet. -/
theorem storesOnlyWhereAddressed : Obligations.StoresOnlyWhereAddressed := by
  unfold Obligations.StoresOnlyWhereAddressed
  refine ⟨fun p s t h => runPacket_sameBut (cmdBulkWrite_sameBut p) h,
    fun m a data strobes t s => ⟨fun u h => ?set, fun u h => ?clear⟩,
    fun x t s hnew hwrite u h => spineTransaction_sameBut hnew (fun hburst v => v.request_write_sameBut hburst hwrite) h,
    fun x t s hnew hread hecc u h => spineTransaction_sameBut hnew (fun _ v => v.request_read_sameBut hread hecc) h⟩
  case set =>
    cases h
    exact s.atTime_aliasRow_sameBut t m _ data strobes
  case clear =>
    cases h
    exact s.atTime_aliasRow_sameBut t m _ data strobes

end Sys2Proof.Machine

/-!
Poison under full and narrow writes (R533, R554).
-/

namespace Sys2Proof.Machine

/-! ### Poison under a write -/

/-- The strobed bytes of a write have offsets of their own. -/
theorem strobed_nodup (data : List Byte) (strobes : List Bool) : ((strobed data strobes).map Prod.fst).Nodup := by
  have hsub : ((strobed data strobes).map Prod.fst).Sublist (((data.zip strobes).zipIdx).map Prod.snd) := by
    rw [strobed, List.map_map]
    exact List.filter_sublist.map Prod.snd
  rw [List.zipIdx_map_snd] at hsub
  exact hsub.nodup List.nodup_range'

/-- Store the bytes of a write that touch no granule of `bad`. -/
def State.storeOutside (s : State) (bad : List Nat) (a : Nat) (bs : List (Nat × Byte)) : State :=
  bs.foldl (fun s e => if bad.contains ((a + e.1) / 8 * 8) then s else s.wrByte (a + e.1) e.2) s

section
variable {bad : List Nat} {a b : Nat} {bs : List (Nat × Byte)}

theorem State.storeOutside_poison (s : State) : (s.storeOutside bad a bs).poison = s.poison := by
  unfold State.storeOutside
  induction bs generalizing s with
  | nil => rfl
  | cons e bs ih =>
    rw [List.foldl_cons, ih]
    split <;> rfl

theorem State.rdByte_storeOutside_other (s : State) (h : ∀ e ∈ bs, b = a + e.1 → b / 8 * 8 ∈ bad) :
    (s.storeOutside bad a bs).rdByte b = s.rdByte b := by
  unfold State.storeOutside
  induction bs generalizing s with
  | nil => rfl
  | cons e bs ih =>
    rw [List.foldl_cons, ih _ fun x hx => h x (List.mem_cons_of_mem _ hx)]
    split
    · rfl
    next hbad =>
      refine (s.rdByte_wrByte _ b e.2).trans (if_neg fun hb => hbad ?_)
      rw [← hb]
      exact List.contains_iff_mem.2 (h e (List.mem_cons_self ..) hb)

theorem State.rdByte_storeOutside_stored (s : State) (hnodup : (bs.map Prod.fst).Nodup) {e : Nat × Byte} (he : e ∈ bs)
    (hgood : (a + e.1) / 8 * 8 ∉ bad) : (s.storeOutside bad a bs).rdByte (a + e.1) = e.2 := by
  induction bs generalizing s with
  | nil => cases he
  | cons x bs ih =>
    rw [List.map_cons, List.nodup_cons] at hnodup
    obtain rfl | htail := List.mem_cons.1 he
    · have hrest : ∀ y ∈ bs, a + e.1 = a + y.1 → (a + e.1) / 8 * 8 ∈ bad := fun y hy heq =>
        absurd (List.mem_map.2 ⟨y, hy, by omega⟩) hnodup.1
      have hfirst : s.storeOutside bad a (e :: bs) = (s.wrByte (a + e.1) e.2).storeOutside bad a bs := by
        rw [State.storeOutside, List.foldl_cons, if_neg (by simpa using hgood)]
        rfl
      rw [hfirst, State.rdByte_storeOutside_other _ hrest, State.rdByte_wrByte, if_pos rfl]
    · exact ih _ hnodup.2 htail

end

/-- The poisoned granules that a write touches, and those of them that it does not cover. -/
def State.touchedPoison (s : State) (a : Nat) (bs : List (Nat × Byte)) : List Nat :=
  s.poison.filter (fun g => bs.any (fun e => (a + e.1) / 8 * 8 == g))

def State.narrowed (s : State) (a : Nat) (bs : List (Nat × Byte)) : List Nat :=
  (s.touchedPoison a bs).filter (fun g => !covers a bs g)

section
variable (s : State) (a : Nat) (bs : List (Nat × Byte)) (g : Nat)

theorem State.mem_touchedPoison : g ∈ s.touchedPoison a bs ↔ g ∈ s.poison ∧ ∃ e ∈ bs, (a + e.1) / 8 * 8 = g := by
  simp [State.touchedPoison]

theorem State.mem_narrowed : g ∈ s.narrowed a bs ↔ g ∈ s.touchedPoison a bs ∧ covers a bs g = false := by
  simp [State.narrowed]

theorem State.memWrite_eq :
    s.memWrite a bs =
      (({ s with poison := s.poison.filter (fun g => !(s.touchedPoison a bs).contains g || (s.narrowed a bs).contains g) } :
        State).storeOutside (s.narrowed a bs) a bs, !(s.narrowed a bs).isEmpty) :=
  rfl

theorem State.mem_memWrite_poison :
    g ∈ (s.memWrite a bs).1.poison ↔ g ∈ s.poison ∧ (g ∈ s.touchedPoison a bs → g ∈ s.narrowed a bs) := by
  rw [s.memWrite_eq, State.storeOutside_poison]
  simp [Decidable.imp_iff_not_or]

/-- A write that covers a granule touches it. -/
theorem touches_of_covers {a g : Nat} {bs : List (Nat × Byte)} (hg : g % 8 = 0) (h : covers a bs g = true) :
    ∃ e ∈ bs, (a + e.1) / 8 * 8 = g := by
  obtain ⟨e, he, hfirst⟩ := List.any_eq_true.1 (List.all_eq_true.1 h 0 (by decide))
  exact ⟨e, he, by rw [beq_iff_eq] at hfirst; omega⟩

end

/-- Settles O59: a write is stored outside the poisoned granules that it touches and does not cover, and only those it covers lose
their poison. -/
theorem poisonYieldsToFullWrites : Obligations.PoisonYieldsToFullWrites := by
  unfold Obligations.PoisonYieldsToFullWrites
  refine fun s a data strobes =>
    ⟨fun g hg hpoison => ⟨fun hfull => ?full, fun hnarrow => ⟨?stays, ?kept, ?error⟩⟩, ?stored, ?others⟩
  case full =>
    rw [State.mem_memWrite_poison, State.mem_narrowed, State.mem_touchedPoison, hfull]
    exact fun ⟨_, hlost⟩ => Bool.false_ne_true (hlost ⟨hpoison, touches_of_covers hg hfull⟩).2.symm
  case stays => exact (s.mem_memWrite_poison a _ g).2 ⟨hpoison, fun htouched => (s.mem_narrowed a _ g).2 ⟨htouched, hnarrow⟩⟩
  case kept =>
    intro k hk
    refine State.rdByte_storeOutside_other (bad := s.narrowed a _) _ fun e he heq => ?_
    have hgranule : (g + k) / 8 * 8 = g := by omega
    rw [hgranule, State.mem_narrowed, State.mem_touchedPoison]
    exact ⟨⟨hpoison, e, he, by rw [← heq, hgranule]⟩, hnarrow⟩
  case error =>
    intro htouched
    have hbad := (s.mem_narrowed a _ g).2 ⟨(s.mem_touchedPoison a _ g).2 ⟨hpoison, htouched⟩, hnarrow⟩
    rw [s.memWrite_eq]
    simpa using List.ne_nil_of_mem hbad
  case stored =>
    refine fun e he hwhole => State.rdByte_storeOutside_stored (bad := s.narrowed a _) _ (strobed_nodup data strobes) he ?_
    rw [State.mem_narrowed, State.mem_touchedPoison]
    rintro ⟨⟨hin, _⟩, hnarrow⟩
    rcases hwhole with hclean | hfull
    · exact hclean hin
    · exact Bool.false_ne_true (hnarrow.symm.trans hfull)
  case others => exact fun b hb => State.rdByte_storeOutside_other _ fun e he heq => absurd heq (hb e he)

end Sys2Proof.Machine

/-!
The effect cores: their words (R452, R462 to R480) and their tickets (R451, R452, R455, R474).
-/

namespace Sys2Proof.Machine

/-! ### Time and waiting commands -/

theorem State.foldl_pmcPlus_cmd {α : Type} (slot amount : α → Nat) (ks : List α) (s : State) :
    (ks.foldl (fun v k => v.pmcPlus (slot k) (amount k)) s).cmd = s.cmd := by
  induction ks generalizing s with
  | nil => rfl
  | cons k ks ih => rw [List.foldl_cons, ih, State.pmcPlus_cmd]

theorem State.pmcCycles_cmd (s : State) (n : Nat) : (s.pmcCycles n).cmd = s.cmd := by
  unfold State.pmcCycles
  split
  · exact State.foldl_pmcPlus_cmd (fun k : Nat × Nat => k.1) (fun k => s.pmcWeight k.1 k.2 * n) _ s
  · rfl

/-- The passing of time answers no command that waits. -/
theorem State.atTime_cmd (s : State) (t : Nat) : (s.atTime t).cmd = s.cmd := by
  by_cases hpast : t ≤ s.now
  · rw [State.atTime, if_pos hpast]
  · rw [State.atTime, if_neg hpast]
    exact (s.timers t).pmcCycles_cmd (t - s.now)

/-- Whether a row let a reply go does not depend on when it ran. -/
theorem State.released_atTime (s : State) (t : Nat) (v : State) : (s.atTime t).released v = s.released v := by
  rw [State.released, State.released, s.atTime_cmd t]

/-! ### Words of the effect cores -/

section
variable {u : State} {c : Nat} {k : FxCore} {w : Nat} {ms : List FxMove} {f : FxCore → Nat → FxRes}

/-- A legal word whose moves are allowed makes them and retires, and its ticket goes on, ends or aborts (R452, R466, R477). -/
theorem State.fxcWord_moves (hword : wordOk w = true) (hstate : k.stateOk w = true) (hmoves : u.wordMoves k w = some ms) :
    u.fxcWord c k w f =
      let ld := u.fxcLoads ms
      let v := ld.1.fxcStores k ms
      let after := k.retire (f k w) ms ld.2
      if k.prog.budget < after.cnt then v.fxcAbort c { after with pc := k.pc } 1
      else if after.ending ∧ after.slots = 0 then v.fxcDone c after
      else { v with fx.cores := Tab.put v.fx.cores c after } := by
  simp only [State.wordMoves] at hmoves
  simp only [State.fxcWord, hword, hstate, Bool.not_true, Bool.or_self, Bool.false_eq_true, if_false]
  by_cases hC : bitsN w 63 62 = 0
  · rw [if_pos hC] at hmoves
    simp only [hC, beq_self_eq_true, if_true]
    cases hx : k.move (u.flag Reg.PMC_CFG Fl.PMC_CFG_USER_EN) (bitsN w 31 16) with
    | none => simp [hx] at hmoves
    | some x =>
      cases hy : k.move (u.flag Reg.PMC_CFG Fl.PMC_CFG_USER_EN) (bitsN w 15 0) with
      | none => simp [hx, hy] at hmoves
      | some y =>
        simp only [hx, hy, Option.some.injEq] at hmoves
        subst hmoves
        rfl
  · rw [if_neg hC, Option.some.injEq] at hmoves
    subst hmoves
    simp only [beq_eq_false_iff_ne.2 hC, Bool.false_eq_true, if_false]
    rfl

/-- A core that has the word of a row next runs it. -/
theorem fxcRun_word {t : Nat} {s : State} {code : Nat} (h : (s.atTime t).runsWord c code k w ms) :
    fxcRun c t code f s = (s.atTime t).fxcWord c k w f := by
  obtain ⟨hcore, hfetch, hready, hcode, _⟩ := h
  simp only [fxcRun, hcore, hfetch, hready, hcode, beq_self_eq_true, Bool.and_self, if_true]

end

/-- A row of an effect core's instruction retires with the instruction's effect. -/
theorem Retires.of_row {i : Nat → Nat → Instr} {code : Nat} {f : FxCore → Nat → FxRes}
    (hi : ∀ c t s, exec (i c t) s = fxcRow c t code f s) : Retires i code f := by
  intro c t s k w ms u ld v after hruns
  have ⟨_, _, _, _, hword, hstate, hmoves⟩ := hruns
  have hrow : exec (i c t) s = .next (u.released (
      if k.prog.budget < after.cnt then v.fxcAbort c { after with pc := k.pc } 1
      else if after.ending ∧ after.slots = 0 then v.fxcDone c after
      else { v with fx.cores := Tab.put v.fx.cores c after })) := by
    rw [hi, State.released_atTime]
    exact congrArg (afterHeld s) ((fxcRun_word hruns).trans (State.fxcWord_moves hword hstate hmoves))
  refine ⟨fun hfits hgoes => ?_, fun hfits hends => ?_, fun hover => ?_⟩
  · rw [hrow, if_neg (Nat.not_lt.2 hfits), if_neg hgoes]
  · rw [hrow, if_neg (Nat.not_lt.2 hfits), if_pos hends]
  · rw [hrow, if_pos hover]

/-- Settles O44: each row runs the shared word machinery with the instruction's exact result. -/
theorem accumulatorWordsRetire : Obligations.AccumulatorWordsRetire := by
  unfold Obligations.AccumulatorWordsRetire
  exact ⟨.of_row fun _ _ _ => rfl, .of_row fun _ _ _ => rfl, .of_row fun _ _ _ => rfl, .of_row fun _ _ _ => rfl,
    ⟨.of_row fun _ _ _ => rfl, .of_row fun _ _ _ => rfl⟩,
    ⟨.of_row fun _ _ _ => rfl, .of_row fun _ _ _ => rfl, .of_row fun _ _ _ => rfl, .of_row fun _ _ _ => rfl⟩,
    .of_row fun _ _ _ => rfl, .of_row fun _ _ _ => rfl, .of_row fun _ _ _ => rfl, .of_row fun _ _ _ => rfl,
    .of_row fun _ _ _ => rfl, .of_row fun _ _ _ => rfl, .of_row fun _ _ _ => rfl, .of_row fun _ _ _ => rfl⟩

/-- Settles O45: each row runs the shared word machinery with the instruction's result and flags. -/
theorem dataWordsRetire : Obligations.DataWordsRetire := by
  unfold Obligations.DataWordsRetire
  exact ⟨.of_row fun _ _ _ => rfl, .of_row fun _ _ _ => rfl, .of_row fun _ _ _ => rfl, .of_row fun _ _ _ => rfl,
    .of_row fun _ _ _ => rfl, .of_row fun _ _ _ => rfl, .of_row fun _ _ _ => rfl, .of_row fun _ _ _ => rfl,
    .of_row fun _ _ _ => rfl, .of_row fun _ _ _ => rfl, .of_row fun _ _ _ => rfl, .of_row fun _ _ _ => rfl,
    .of_row fun _ _ _ => rfl, .of_row fun _ _ _ => rfl, .of_row fun _ _ _ => rfl, .of_row fun _ _ _ => rfl,
    .of_row fun _ _ _ => rfl⟩

/-- Settles O46: each row runs the shared word machinery with the instruction's register writes and flow. -/
theorem controlWordsRetire : Obligations.ControlWordsRetire := by
  unfold Obligations.ControlWordsRetire
  exact ⟨.of_row fun _ _ _ => rfl, .of_row fun _ _ _ => rfl, .of_row fun _ _ _ => rfl, .of_row fun _ _ _ => rfl,
    .of_row fun _ _ _ => rfl, .of_row fun _ _ _ => rfl, .of_row fun _ _ _ => rfl, .of_row fun _ _ _ => rfl,
    .of_row fun _ _ _ => rfl, .of_row fun _ _ _ => rfl, .of_row fun _ _ _ => rfl, .of_row fun _ _ _ => rfl,
    .of_row fun _ _ _ => rfl, .of_row fun _ _ _ => rfl,
    ⟨.of_row fun _ _ _ => rfl, .of_row fun _ _ _ => rfl, .of_row fun _ _ _ => rfl, .of_row fun _ _ _ => rfl⟩⟩

/-! ### Tickets of the effect cores -/

theorem fxTicketStart_starts {c t : Nat} {x : Placed} {g : FxInst} {s u : State} (hu : s.atTime t = u)
    (hgiven : u.runningOn (16 + c) [tkFX] = some x) (hfree : Tab.look u.fx.cores c = none)
    (hprog : u.fxProg (x.tk.item % 16) x.tk.folio = some g) :
    exec (.fxTicketStart c t) s = .next (
      let v := ((u.fxBring (x.tk.item % 16) g).fxCopyIn g x.tk.folio).fxParams g (x.tk.item % 16) x.tk.folio
      let fresh := fxFresh { g with load := [] } (x.tk.item % 16) x.tk.folio v.folioLen x.since
      { v with fx.cores := Tab.put v.fx.cores c fresh }) := by
  change execFxTicketStart c t s = _
  simp only [execFxTicketStart, hu, hgiven, hfree, hprog]

section
variable {c t : Nat} {k : FxCore} {s u : State} (hu : s.atTime t = u) (hcore : Tab.look u.fx.cores c = some k)
include hu hcore

/-- A word outside the program aborts its ticket (R452, R458). -/
theorem rowFxTicketAbort_unfetched (hready : k.ready = true) (hnone : u.fxcFetch k = none) :
    rowFxTicketAbort c t s = .next (u.fxcAbort c k 2) := by
  simp only [rowFxTicketAbort, hu, hcore, hready, hnone, Bool.not_true, Bool.false_eq_true, if_false]

/-- An illegal word, or one with a move that is forbidden, aborts its ticket (R452, R457, R480). -/
theorem rowFxTicketAbort_fetched {w : Nat} (hready : k.ready = true) (hfetch : u.fxcFetch k = some w) :
    rowFxTicketAbort c t s =
      if !wordOk w || !k.stateOk w then .next (u.fxcAbort c k 3)
      else if bitsN w 63 62 == 0 && ((k.move (u.flag Reg.PMC_CFG Fl.PMC_CFG_USER_EN) (bitsN w 31 16)).isNone ||
          (k.move (u.flag Reg.PMC_CFG Fl.PMC_CFG_USER_EN) (bitsN w 15 0)).isNone) then .next (u.fxcAbort c k 2)
      else .next u := by
  simp only [rowFxTicketAbort, hu, hcore, hready, hfetch, Bool.not_true, Bool.false_eq_true, if_false]

theorem fxTicketLate_runs (htime : k.late = false) (hover : k.folio + 2 ≤ u.slot) :
    exec (.fxTicketLate c t) s = .next (
      let v := (u.bump Reg.FXC_LATE).irq Reg.FXC_IRQ_STAT Fl.FXC_IRQ_STAT_LATE
      { v with fx.cores := Tab.put v.fx.cores c { k with late := true } }) := by
  change execFxTicketLate c t s = _
  simp only [execFxTicketLate, hu, hcore, htime, Bool.false_eq_true, false_or, if_neg (Nat.not_lt.2 hover)]

/-- An interrupt that is due is taken: where the core was goes into its registers, and the handler runs (R474). -/
theorem fxInterruptEntry_due (hcause : k.causes ≠ 0) (hslots : k.slots = 0) :
    exec (.fxInterruptEntry c t) s = .next (
      let regs := putReg (putReg (putReg k.regs rIPC k.pc) rICSR k.csr) rICAUSE
        (bitsN k.causes 4 0 + bitsN k.causes 11 8 * 256)
      { u.bump Reg.FXC_INTR with fx.cores := Tab.put u.fx.cores c { k with
        regs := regs, csr := setBitN k.csr csrIACT true, pc := k.prog.vector, causes := 0, intrs := k.intrs + 1 } }) := by
  have hdue : k.ready = false := by simp [FxCore.ready, hcause, hslots]
  change execFxInterruptEntry c t s = _
  simp only [execFxInterruptEntry, hu, hcore, hdue, Bool.false_eq_true, if_false]

end

/-- A word that has no list of moves is of format C, and one of its two moves is forbidden (R457, R466). -/
theorem State.wordMoves_none {u : State} {k : FxCore} {w : Nat} (h : u.wordMoves k w = none) :
    (bitsN w 63 62 == 0 && ((k.move (u.flag Reg.PMC_CFG Fl.PMC_CFG_USER_EN) (bitsN w 31 16)).isNone ||
      (k.move (u.flag Reg.PMC_CFG Fl.PMC_CFG_USER_EN) (bitsN w 15 0)).isNone)) = true := by
  have hC : bitsN w 63 62 = 0 := by
    refine Decidable.byContradiction fun hC => ?_
    rw [State.wordMoves, if_neg hC] at h
    cases h
  rw [State.wordMoves, if_pos hC] at h
  cases hx : k.move (u.flag Reg.PMC_CFG Fl.PMC_CFG_USER_EN) (bitsN w 31 16) with
  | none => simp [hC]
  | some x =>
    cases hy : k.move (u.flag Reg.PMC_CFG Fl.PMC_CFG_USER_EN) (bitsN w 15 0) with
    | none => simp [hC]
    | some y => simp [hx, hy] at h

/-- Settles O43: each row's guards are decided by the statement's condition on the core and its next word. -/
theorem effectTicketsComplete : Obligations.EffectTicketsComplete := by
  unfold Obligations.EffectTicketsComplete
  exact
    ⟨fun c x g t s ⟨hgiven, hfree, hprog⟩ => fxTicketStart_starts rfl hgiven hfree hprog,
    fun c k => .of_row (rowFxTicketAbort c) (fun _ _ => rfl) fun t s ⟨hcore, hready, hnone⟩ =>
      rowFxTicketAbort_unfetched rfl hcore hready hnone,
    fun c k w => .of_row (rowFxTicketAbort c) (fun _ _ => rfl) fun t s ⟨hcore, hready, hfetch, hbad⟩ =>
      (rowFxTicketAbort_fetched rfl hcore hready hfetch).trans (if_pos (by simpa using hbad)),
    fun c k w => .of_row (rowFxTicketAbort c) (fun _ _ => rfl) fun t s ⟨hcore, hready, hfetch, hword, hstate, hnone⟩ =>
      (rowFxTicketAbort_fetched rfl hcore hready hfetch).trans ((if_neg (by simp [hword, hstate])).trans
        (if_pos (State.wordMoves_none hnone))),
    fun c k t s ⟨hcore, htime, hover⟩ => fxTicketLate_runs rfl hcore htime hover,
    fun c k t s ⟨hcore, hcause, hslots⟩ => fxInterruptEntry_due rfl hcore hcause hslots⟩

end Sys2Proof.Machine
